-- ==== Sys2Proof/Word.lean ====
section
/-!
DEFINITION. The word types of the CT6432 model: bytes, 32-bit and 64-bit words.
Multi-byte fields are little-endian (spec/00_scope.md R13).
-/

namespace Sys2Proof

/-- One byte. -/
abbrev Byte := BitVec 8

/-- A 32-bit word: one half of a register, one tile register. -/
abbrev W32 := BitVec 32

/-- A 64-bit word: a control-space register (R542), a fabric word's DATA (R94). -/
abbrev W64 := BitVec 64

/-- One 512-bit vector register (R237). -/
abbrev W512 := BitVec 512

end Sys2Proof
end

