-- ==== Sys2Proof/Syntax.lean ====
section
/-!
DEFINITION. The commands of the CT6432: one constructor of `Instr` per row of spec/opcode_table.json, with the
operands the row's rule names. Register commands carry the agent, the half written and the value (R543, R550);
event commands carry what the outside world supplies (a received frame, a sensor reading, an error kind).
-/

namespace Sys2Proof

/-- An agent that reads or writes control space, each with latches of its own (spec/22_registers_device.md R550). -/
inductive Agent where
  | steward
  | hart (h : Fin 4)
  | pcie
  | debug
  | thread (c : Fin 32) (j : Fin 16)
  deriving DecidableEq, Repr

/-- The part of a 64-bit register that one access covers (R543). -/
inductive Half where
  | lo | hi | both
  deriving DecidableEq, Repr

/-- A write of a control-space register (R543). `value` holds the bits at their register positions. -/
structure WriteReq where
  agent : Agent
  half : Half
  value : W64
  deriving DecidableEq, Repr

/-- A read of a control-space register (R543). -/
structure ReadReq where
  agent : Agent
  half : Half
  deriving DecidableEq, Repr

/-- The writable registers of a general launch port (Table 22-3). -/
inductive GlReg where
  | time | period | ctl
  deriving DecidableEq, Repr

/-- What the error check of a stored or carried word reports (SEC-DED, spec/10_memory.md Table 10-4). -/
inductive EccSeen where
  | clean | single | double
  deriving DecidableEq, Repr


/-- A vector instruction as a thread issues it (Table 9-6): the thread, every field but CLS and OP, and what the error
check of its registers or of the instruction word reports (R242). -/
structure VecInstr where
  core : Fin 32
  slot : Fin 16
  vd : Fin 32
  va : Fin 32
  vb : Fin 32
  vc : Fin 32
  mreg : Fin 8
  mz : Bool
  fmt : Fin 8
  rsv : Fin 32
  imm : BitVec 24
  ecc : EccSeen
  eccInstr : Bool
  deriving DecidableEq, Repr

/-- A fabric word that comes from a unit outside the tile arrays (Table 4-1), with the core it was sent by, if any. -/
structure FabWord where
  data : W64
  tag : Byte
  mark : Bool
  src : Option (Fin 32)
  deriving DecidableEq, Repr

/-- Where a fabric word arrives (spec/04_fabric.md). -/
inductive FabSite where
  /-- a tile router, by the source code of Table 4-3: 1 to 4 a link, 5 the tile output register, 6 the delay register -/
  | router (c : Fin 32) (t : Fin 256) (src : Fin 7)
  /-- an edge port's join queue: side 0 N, 1 E, 2 S, 3 W, its lane, and whether toward the tiles (R101) -/
  | edge (c : Fin 32) (side : Fin 4) (lane : Fin 16) (inward : Bool)
  /-- an outbound gateway queue (R108) -/
  | gateway (c : Fin 32) (code : Fin 25)
  /-- a switch input, by position in the flit (R105) -/
  | switch (q : Fin 4) (port : Fin 40) (pos : Fin 8)
  /-- an output sequencer, through the core-store row port of a tile row (R76, R101) -/
  | seq (c : Fin 32) (q : Fin 8) (row : Fin 16)
  /-- the open band of a row buffer, at a byte offset of the band, the last word of a row or not (R213) -/
  | rowBuf (c : Fin 32) (b : Fin 8) (off : Fin 4194304) (endRow : Bool)
  deriving DecidableEq, Repr

/-- What an arriving word comes from: the link or queue that feeds the place, the released outputs of a sequencer, or
a unit outside the tile arrays. -/
inductive WordFrom where
  | feed
  /-- the inbound gateway queue of core-store stream engine `k` of the core (Table 4-8, codes 16 to 23) -/
  | inbound (k : Fin 8)
  | released (c : Fin 32) (q : Fin 8)
  | unit (w : FabWord)
  deriving DecidableEq, Repr

/-- A producer that a hold bit reaches (R110): a tile router from a direction 0 N to 3 W, a position of an outbound gateway
queue, or an edge port toward the tiles. Gateway 0 to 31 is a core's; 32 + 40 q + port is that of the unit on a port of
quadrant q (R109). -/
inductive HoldSite where
  | tile (c : Fin 32) (t : Fin 256) (dir : Fin 4)
  | gateway (g : Fin 192) (code : Fin 25) (pos : Fin 8)
  | edge (c : Fin 32) (side : Fin 4) (lane : Fin 16)
  /-- the receive buffer of a Quosk link, for a position of the sample in HSLOT (R405) -/
  | link (l : Fin 8) (pos : Fin 8)
  deriving DecidableEq, Repr

/-- Where a hold bit comes from: the hold route inside the device (R110), or a unit or link outside it. -/
inductive HoldFrom where
  | route
  | unit (bit : Bool)
  deriving DecidableEq, Repr

/-- A queue with a declared hold bound (R115). -/
inductive StallSite where
  | tile (c : Fin 32) (t : Fin 256) (q : Fin 4)
  | gateway (c : Fin 32) (code : Fin 25)
  /-- an output sequencer whose reorder area is full (R70, R77) -/
  | seq (c : Fin 32) (q : Fin 8)
  deriving DecidableEq, Repr

/-- Predicate modes of a tile micro-instruction (Table 7-1); code 3 is reserved and the loader rejects it (R186). -/
inductive PredMode where
  | always | ifP | ifNotP
  deriving DecidableEq, Repr

/-- Element types of a tile micro-instruction (Table 7-1); code 3 is reserved and the loader rejects it (R186). -/
inductive TileTy where
  | i32 | i8 | u8
  deriving DecidableEq, Repr

/-- A tile micro-instruction as a tile issues it (Table 7-1): the tile and every field but OPC. -/
structure TileInstr where
  core : Fin 32
  tile : Fin 256
  dst : Fin 64
  sa : Fin 64
  sb : Fin 64
  sc : Fin 64
  pm : PredMode
  ty : TileTy
  acc : Fin 16
  fx : Bool
  imb : Bool
  md : Fin 8
  imm : BitVec 16
  deriving DecidableEq, Repr

/-- Where a fetch stream's words enter the fabric (spec/08 R215): a core-store row port, or a gateway queue by its code. -/
inductive FetchDst where
  | row (r : Fin 16)
  | gateway (code : Fin 25)
  deriving DecidableEq, Repr

/-- The producer that begins a band (spec/08 R213, R225, R231): a stage of the array, whose words arrive one by one; the
stem path; or the depthwise path, with the local stage slot of its descriptor and the stream of its epilogue. -/
inductive BandProducer where
  | stage
  | stem
  | depthwise (g : Fin 8) (epi : Option (Fin 8))
  deriving DecidableEq, Repr

/-- A memory request header without its OP, which the command gives (Table 10-3): WORD, LEN, MASK and the reserved
bits. -/
structure MemHdr where
  idx : BitVec 25
  len : Fin 8
  mask : W32
  rsv : Fin 4
  deriving DecidableEq, Repr

/-- The learning settings (Table 17-1), register by register. -/
inductive LrnReg where
  | cfg | tbase | rows | cbase | lbase | llog2
  deriving DecidableEq, Repr

/-- What a HELLO notice carries (Table 15-4). -/
structure HelloMsg where
  system : W32
  nx : Fin 4
  ny : Fin 4
  nz : Fin 4
  dev : Fin 64
  link : Fin 8
  deriving DecidableEq, Repr

/-- A TIME unit as it arrives (R399): the peer's question, answered at Almanac instant t3; or the answer to this device's
question, with the peer's t2 and t3. -/
inductive TimeMsg where
  | ask (t3 : Nat)
  | answer (t2 t3 : Nat)
  deriving DecidableEq, Repr

/-- An access of software, of the debug unit or of a free thread (R281): a read of some bytes or a write. -/
inductive SvcOp where
  | read (len : Fin 4097)
  | write (data : List Byte)
  deriving DecidableEq, Repr

/-- What the checks of a flit's words find, by position: in the words that a gateway sends, and at the flit's receiver (R94). -/
structure FlitEcc where
  sent : List EccSeen
  got : List EccSeen
  deriving DecidableEq, Repr

/-- The atomic memory operations of the RISC-V A extension. -/
inductive AmoOp where
  | lr | sc | swap | add | xor | and | or | min | max | minu | maxu
  deriving DecidableEq, Repr

/-- A request on the service path: a plain access, or an LR, SC or AMO of a host core, of 8 bytes or of 4, with its operand (R250). -/
inductive SvcReq where
  | plain (op : SvcOp)
  | atomic (op : AmoOp) (dword : Bool) (x : BitVec 64)
  deriving DecidableEq, Repr

/-- What a SERVICE unit carries (R402): an access, a barrier arrival or a queue message of another
device, or the response to a request of this one. -/
inductive SvcUnit where
  | access (src : Fin 64) (req : Nat) (addr : BitVec 48) (op : SvcOp)
  /-- a barrier operation: 0 ARRIVE, 1 WAIT, 2 SYNC, with a generation and a deadline (R253, R402) -/
  | barrier (src : Fin 64) (req : Nat) (b : Fin 64) (op : Fin 3) (gen : Fin 65536) (deadline : W64)
  /-- a message, sent at once or blocking until a deadline (R256, R402) -/
  | queue (src : Fin 64) (req : Nat) (q : Fin 256) (payload : List Byte) (block : Bool) (deadline : W64)
  /-- the response to request `req`: a status code of R282, and the data of a read -/
  | response (src : Fin 64) (req : Nat) (status : Fin 4) (data : List Byte)
  deriving DecidableEq, Repr

/-- A SERVICE unit with the device that it is for (R401, R402). -/
structure SvcFrame where
  dest : Fin 64
  unit : SvcUnit
  deriving DecidableEq, Repr

/-- A frame of a node on a segment: its EtherType and its payload (R423, Table 16-3). -/
structure SegFrame where
  etype : Fin 65536
  payload : List Byte
  deriving DecidableEq, Repr

/-- An inbound PCIe request (R508, R509): by BAR number 0, 1 or 2 for BARs 0, 2 and 4, offset, and length or data. -/
inductive PcieReq where
  | read (bar : Fin 3) (off : BitVec 33) (len : Fin 4097)
  | write (bar : Fin 3) (off : BitVec 33) (data : List Byte)
  | atomic (bar : Fin 3) (off : BitVec 33)
  deriving DecidableEq, Repr

/-- How island firmware moves island time (R440). -/
inductive IslTime where
  | rate (r : Int)
  | slew (ns : Int)
  | step (ns : Int)
  deriving DecidableEq, Repr

/-- What island firmware sets in the island's own registers and memories, and takes from its FIFOs (R416 to R423,
R441, R443). The fields are the rules' own; the ISL registers have no address in the host-side map (R417). -/
inductive IslWrite where
  | pwr (on : Bool)
  | bridge (c : Fin 4) (range : Fin 4) (rate : Fin 8) (exc33 chop : Bool)
  | bridgeTake (c : Fin 4)
  | segEnable (g : Fin 8) (on : Bool)
  | segPlca (g : Fin 8) (nodes : Nat) (txTimer : Nat) (burst : Nat)
  | segSync (g : Fin 8) (ms : Nat)
  | etype (v : Fin 65536)
  | sampleTake (g : Fin 8) (node : Fin 17)
  | segTake
  /-- firmware sends a scale-node frame of KIND CMD with this body -/
  | segSend (g : Fin 8) (body : List Byte)
  | gpio (i : Fin 4) (level : Bool)
  | barTake
  | flash (addr : BitVec 26) (data : List Byte)
  | bootSel (bank : Fin 2)
  | counter (i : Fin 8)
  deriving DecidableEq, Repr

/-- An IDLE frame (R428): it arrives at the gateway or at the island, or a sender sends it on a channel that has carried nothing for
10 µs. -/
inductive IdleFrame where
  | toHost (bytes : List Byte)
  | toIsland (bytes : List Byte)
  | hostSends
  | islandSends
  deriving DecidableEq, Repr

/-- A write of a control register with no row of its own (R542), by offset in control space, or of an island register. -/
inductive CtlWrite where
  | host (off : BitVec 28) (w : WriteReq)
  | island (x : IslWrite)
  deriving DecidableEq, Repr

/-- A loopback or pattern register (Table 21-8). -/
inductive LoopSite where
  | ethLoop (p : Fin 6)
  | ethPrbs (p : Fin 6)
  | linkLoop (l : Fin 8)
  | linkPrbs (l : Fin 8)
  deriving DecidableEq, Repr

/-- A bit-error count (Table 21-8): of a port, or of a lane of a link. -/
inductive PrbsSite where
  | port (p : Fin 6)
  | lane (l : Fin 8) (k : Fin 4)
  deriving DecidableEq, Repr

/-- The commands. -/
inductive Instr where
  /-- ALM_RATE (R33): A write of ALM_RATE sets the Almanac's fractional frequency offset from the next time-clock tick. -/
  | almRate (w : WriteReq)
  /-- ALM_SLEW (R553): A write of ALM_SLEW adds a signed offset to ALM_SLEW_REM, limited to ±1,000,000 ns, which is absorbed at 1,000 ppm. -/
  | almSlew (w : WriteReq)
  /-- ALM_STEP (R554): A write covering the high half of ALM_STEP adds the staged signed offset to the Almanac at the next tick. -/
  | almStep (w : WriteReq)
  /-- ALM_NOW_LO (R30): A read of ALM_NOW_LO latches ALM_NOW_HI and ALM_NOW_FRAC in the reader's own latch. -/
  | almNowLo (r : ReadReq)
  /-- AON_PERIOD_MEASURE (R36): At the end of a 32,768-crystal-cycle window the device updates ALM_AON_PERIOD, or discards a window that held a step. -/
  | aonPeriodMeasure (ticks : Nat)
  /-- AON_CLOCK_FAIL (R36): When the crystal fails to toggle for 1 ms the device raises DEGRADED.0xA20 and keeps the last period. -/
  | aonClockFail
  /-- ALMANAC_CLOCK_RETURN (R38): On leaving Dormant the Almanac returns to the time clock at the first crystal edge after the reference is accepted, or after 1 ms. -/
  | almanacClockReturn (edge : Bool)
  /-- BEAT_LAUNCH (R48): A beat launches at the later of its scheduled instant and the instant the pipeline entry is ready, admitting a frame or an empty beat. -/
  | beatLaunch (n : Fin 4) (ready : Nat)
  /-- CORE_WAKE_LAUNCH (R495): A core's wake launch port fires at beat launch plus WORK_OFF minus LEAD and starts RETAIN to ON. -/
  | coreWakeLaunch (c : Fin 32)
  /-- EXPOSE_LAUNCH (R378): The EXPOSE port of a CAMERA endpoint queues an EXPOSE datagram at its target instant minus LEAD. -/
  | exposeLaunch (ep : Fin 1024)
  /-- STROBE_LAUNCH (R378): The STROBE port of a LIGHT endpoint queues a STROBE datagram at the target instant minus the light's LEAD. -/
  | strobeLaunch (ep : Fin 1024)
  /-- SLOT_FRAME_LAUNCH (R404): The slot-frame port of an UP link fires at each multiple of 128 ns and sets the FRAME number stamped on flits. -/
  | slotFrameLaunch (l : Fin 8)
  /-- GENERAL_PORT_FIRE (R556): A general launch port reaching its instant raises its interrupt, enqueues a message and takes a tally snapshot as configured. -/
  | generalPortFire (p : Fin 16)
  /-- DEVICE_WAKE_FIRE (R37): The device-wake port fires at the first crystal cycle at or after its instant and starts Waking. -/
  | deviceWakeFire
  /-- ALM_BM_ARM (R555): An ARM write to an IDLE beat machine of a LOADED pipeline sets the grid origin and moves it to ARMED. -/
  | almBmArm (n : Fin 4) (w : WriteReq)
  /-- ALM_BM_STOP (R50): A stop write moves the beat machine to STOPPING, or to IDLE at once when no frame is in flight. -/
  | almBmStop (n : Fin 4) (w : WriteReq)
  /-- ALM_BM_PERIOD (R51): A write of B takes effect at the next beat, whose grid instant becomes the new origin. -/
  | almBmPeriod (n : Fin 4) (w : WriteReq)
  /-- ALM_BM_SHRINK (R46): A write of the shrink step S sets S_eff = min(S, ⌊B/4⌋). -/
  | almBmShrink (n : Fin 4) (w : WriteReq)
  /-- ALM_BM_LAGLIM (R555): A write of the lag limit takes effect at the next beat. -/
  | almBmLaglim (n : Fin 4) (w : WriteReq)
  /-- ALM_GL_TIME (R556): A write of a general port's TIME or EN sets its instant and fires the port at once when the instant has passed. -/
  | almGlTime (p : Fin 16) (reg : GlReg) (w : WriteReq)
  /-- WORD_ARRIVAL (R94): A fabric word arrives at a router, queue or switch, is checked by CHECK and routed or queued by its slot entry. -/
  | wordArrival (site : FabSite) (slot : Fin 128) (src : WordFrom) (ecc : EccSeen)
  /-- HOLD_SAMPLE (R110): A hold bit reaches a producer in a reverse hold slot and governs its next forward slots. -/
  | holdSample (site : HoldSite) (slot : Fin 128) (src : HoldFrom)
  /-- QUEUE_HEAD_MOVE (R112): A local queue head moves into the tag table when its tag is held or a tag slot is free. -/
  | queueHeadMove (c : Fin 32) (t : Fin 256) (q : Fin 4)
  /-- JOIN_STALL (R115): A continuous queue hold exceeding HOLD_BOUND × 16 cycles raises DEGRADED.0x006. -/
  | joinStall (site : StallSite) (slot : Fin 128) (cycles : Nat)
  /-- FLIT_FORWARD (R105): A quadrant switch forwards a flit in a slot by the entry of the owning pipeline's bank. -/
  | flitForward (q : Fin 4) (port : Fin 40) (slot : Fin 128) (tab : EccSeen) (ecc : FlitEcc)
  /-- FIRING (R72): A tile starts the firing body of the oldest eligible tag. -/
  | firing (c : Fin 32) (t : Fin 256)
  /-- NOP (R180): Tile micro-instruction NOP issues and does nothing. -/
  | nop (mi : TileInstr)
  /-- MAC (R190): Each cell takes one element product into its chunk register of slot ACC. -/
  | mac (mi : TileInstr)
  /-- MAXX (R197): Candidates are merged into an A32X slot by the MAX rule with lowest index. -/
  | maxx (mi : TileInstr)
  /-- MINX (R197): Candidates are merged into an A32X slot by the MIN rule with lowest index. -/
  | minx (mi : TileInstr)
  /-- RESUME (R195): Opens slot ACC for a new output tile, clearing its state and setting INDEX and the index base. -/
  | resume (mi : TileInstr)
  /-- OUT (R196): Ends a direct-output tile, forming, rescaling and writing each row's output. -/
  | out (mi : TileInstr)
  /-- TILE_ADD (R198): Tile element-wise saturating addition per lane. -/
  | tileAdd (mi : TileInstr)
  /-- TILE_SUB (R198): Tile element-wise saturating subtraction per lane. -/
  | tileSub (mi : TileInstr)
  /-- TILE_MAX (R198): Tile element-wise larger of two operands. -/
  | tileMax (mi : TileInstr)
  /-- TILE_MIN (R198): Tile element-wise smaller of two operands. -/
  | tileMin (mi : TileInstr)
  /-- TILE_CMP (R198): Tile element-wise comparison giving 1 or 0 per lane. -/
  | tileCmp (mi : TileInstr)
  /-- TILE_SEL (R198): Tile element-wise select of SA or SB by the lanes of SC. -/
  | tileSel (mi : TileInstr)
  /-- TILE_RSHR (R198): Tile element-wise rounding right shift, ties to even. -/
  | tileRshr (mi : TileInstr)
  /-- CLAMP (R198): Tile element-wise clamp between lo and hi. -/
  | clamp (mi : TileInstr)
  /-- MOV (R198): Tile element-wise move of a register or immediate. -/
  | mov (mi : TileInstr)
  /-- RESCALE (R200): Converts a total to an output code or value by the stage's descriptor and frame bank. -/
  | rescale (mi : TileInstr)
  /-- QUANT (R201): Maps an FP32 value to a code with the tensor's scale and zero point. -/
  | quant (mi : TileInstr)
  /-- EMIT (R202): Enqueues a tagged word into the tile output queue. -/
  | emit (mi : TileInstr)
  /-- CARRY_SPILL_ARRIVAL (R134): A spill word arriving at a carry column port is applied to its carry entry. -/
  | carrySpillArrival (c : Fin 32) (col : Fin 16) (seen : EccSeen)
  /-- SEQUENCER_RELEASE (R76): An output sequencer releases a complete frame's outputs in admission order. -/
  | sequencerRelease (c : Fin 32) (q : Fin 8)
  /-- PASS_END (R145): At the end of a frame's pass in an armed stage, the stage releases the frame or starts a Retally. -/
  | passEnd (c : Fin 32) (q : Fin 8) (fif : Fin 8) (streams : List (Fin 32 × Fin 8))
  /-- SCALE_FOLD (R176): After a frame's last output of a tensor is released, the scale unit folds its observed range into the scale record. -/
  | scaleFold (p : Fin 4) (fif : Fin 8) (stage : Fin 256) (tensor : Fin 4096)
  /-- SECTION_END (R80): A core reports the end of a section when its stages and queues are empty. -/
  | sectionEnd (c : Fin 32)
  /-- CONTEXT_RELOAD_DONE (R82): A context reload from HBM into the next context slot completes. -/
  | contextReloadDone (c : Fin 32)
  /-- CONTEXT_SWITCH (R81): Two spine cycles after all cores report the end, every core switches to the next context. -/
  | contextSwitch (p : Fin 4)
  /-- HEARTBEAT_TOKEN (R85): A heartbeat token reaching the data-path monitor resets the unit's miss count. -/
  | heartbeatToken (token : W64)
  /-- HEARTBEAT_DEADLINE (R85): A token not received by wake plus 10 µs counts as a miss, and at MISS_LIMIT the unit is lost. -/
  | heartbeatDeadline (u : Fin 33)
  /-- CORE_LOST (R88): A core controller's fatal error makes the core lost with UNIT.0x021. -/
  | coreLost (c : Fin 32) (storage : Bool)
  /-- TALLY_SNAP (R574): A SNAP write copies all 16 tally counters into their shadows. -/
  | tallySnap (c : Fin 32) (w : WriteReq)
  /-- TALLY_CLEAR (R574): A CLEAR write sets all tally counters to 0. -/
  | tallyClear (c : Fin 32) (w : WriteReq)
  /-- RETAIN_ACCESS_TIMEOUT (R62): An access held for a retained core that does not enter ON within 1 ms completes ADDRESS_UNAVAILABLE. -/
  | retainAccessTimeout (c : Fin 32)
  /-- CONTEXT_WINDOW_WRITE (R566): A write to tile contexts, gateway tables, descriptor pages or instruction memory is accepted or counted in CCnn_WDENY. -/
  | contextWindowWrite (c : Fin 32) (o : Fin 0xE0000) (w : WriteReq)
  /-- CC_WDENY_READ (R566): A read of CCnn_WDENY.COUNT returns and clears the count. -/
  | ccWdenyRead (c : Fin 32) (r : ReadReq)
  /-- BAND_WRITE_START (R213): A producer begins a band once its ring slot's remaining count reaches 0. -/
  | bandWriteStart (c : Fin 32) (b : Fin 8) (prod : BandProducer)
  /-- RELEASE_STALL (R213): A release hold longer than HOLD_BOUND × 256 cycles raises DEGRADED.0x031. -/
  | releaseStall (c : Fin 32) (b : Fin 8) (cycles : Nat)
  /-- FETCH_STREAM_SEND (R216): A fetch stream sends a frame's words from a valid band. -/
  | fetchStreamSend (c : Fin 32) (e : Fin 8) (tensor : Fin 4096) (dst : FetchDst)
  /-- SETTLE (R219): A SETTLE token lets a stream release all of a frame's bands. -/
  | settle (c : Fin 32) (e : Fin 8) (fif : Fin 8)
  /-- REFETCH (R219): A REFETCH token makes a stream resend the frame's stripe from its first position. -/
  | refetch (c : Fin 32) (e : Fin 8) (fif : Fin 8)
  /-- STEM_SCAN_DONE (R229): The Solstice scan of a frame's input ends and s and z are placed in the frame bank. -/
  | stemScanDone
  /-- STEM_PASS_DONE (R230): The stem MAC pass of a frame completes. -/
  | stemPassDone (errs : List (Fin 327680 × Bool))
  /-- TAIL_DONE (R232): The Solstice tail path finishes a frame and writes its outputs. -/
  | tailDone (errs : List (Fin 327680 × Bool))
  /-- SOLSTICE_LOST (R235): An internal error, clock loss or supply failure makes the Solstice engine lost with UNIT.0x033. -/
  | solsticeLost (cause : Fin 4)
  /-- DEPTHWISE_FRAME (R268): The vector depthwise path completes one frame of a depthwise layer. -/
  | depthwiseFrame (c : Fin 32)
  /-- ADD (R261): Vector wrapping addition. -/
  | add (v : VecInstr)
  /-- ADDS (R261): Vector saturating addition. -/
  | adds (v : VecInstr)
  /-- SUB (R261): Vector wrapping subtraction. -/
  | sub (v : VecInstr)
  /-- SUBS (R261): Vector saturating subtraction. -/
  | subs (v : VecInstr)
  /-- MUL (R261): Vector low half of the exact product. -/
  | mul (v : VecInstr)
  /-- MULH (R261): Vector high half of the exact product. -/
  | mulh (v : VecInstr)
  /-- MIN (R261): Vector integer minimum. -/
  | min (v : VecInstr)
  /-- MAX (R261): Vector integer maximum. -/
  | max (v : VecInstr)
  /-- ABS (R261): Vector saturating magnitude. -/
  | abs (v : VecInstr)
  /-- DOT4 (R261): Vector four-byte dot product accumulated into each I32 lane. -/
  | dot4 (v : VecInstr)
  /-- RSHR (R261): Vector rounding right shift, ties to even. -/
  | rshr (v : VecInstr)
  /-- CMP (R261): Vector integer comparison into a mask register. -/
  | cmp (v : VecInstr)
  /-- AND (R261): Vector bitwise AND. -/
  | and (v : VecInstr)
  /-- OR (R261): Vector bitwise OR. -/
  | or (v : VecInstr)
  /-- XOR (R261): Vector bitwise XOR. -/
  | xor (v : VecInstr)
  /-- SLL (R261): Vector logical left shift. -/
  | sll (v : VecInstr)
  /-- SRL (R261): Vector logical right shift. -/
  | srl (v : VecInstr)
  /-- SRA (R261): Vector arithmetic right shift. -/
  | sra (v : VecInstr)
  /-- SEL (R260): Vector select by mask register. -/
  | sel (v : VecInstr)
  /-- MOVI (R260): Vector move of a sign-extended immediate. -/
  | movi (v : VecInstr)
  /-- BCAST (R260): Vector broadcast of a scalar register. -/
  | bcast (v : VecInstr)
  /-- MOVS (R260): Moves one vector element into a scalar register. -/
  | movs (v : VecInstr)
  /-- FADD (R262): Floating-point addition with one rounding. -/
  | fadd (v : VecInstr)
  /-- FSUB (R262): Floating-point subtraction with one rounding. -/
  | fsub (v : VecInstr)
  /-- FMUL (R262): Floating-point multiplication with one rounding. -/
  | fmul (v : VecInstr)
  /-- FFMA (R262): Fused multiply-add with one rounding. -/
  | ffma (v : VecInstr)
  /-- FDIV (R262): Floating-point division with one rounding. -/
  | fdiv (v : VecInstr)
  /-- FSQRT (R262): Floating-point square root with one rounding. -/
  | fsqrt (v : VecInstr)
  /-- FMIN (R262): minimumNumber of two floating-point operands. -/
  | fmin (v : VecInstr)
  /-- FMAX (R262): maximumNumber of two floating-point operands. -/
  | fmax (v : VecInstr)
  /-- FABS (R262): Clears the sign bit. -/
  | fabs (v : VecInstr)
  /-- FNEG (R262): Flips the sign bit. -/
  | fneg (v : VecInstr)
  /-- FCMP (R262): Floating-point comparison into a mask register. -/
  | fcmp (v : VecInstr)
  /-- FCLASS (R262): Classifies each floating-point element. -/
  | fclass (v : VecInstr)
  /-- FCVT (R263): Converts between floating-point formats. -/
  | fcvt (v : VecInstr)
  /-- ITOF (R263): Converts integers to floating point. -/
  | itof (v : VecInstr)
  /-- FTOI (R263): Converts floating point to saturated integers. -/
  | ftoi (v : VecInstr)
  /-- FRCP (R264): Approximate reciprocal. -/
  | frcp (v : VecInstr)
  /-- FRSQ (R264): Approximate reciprocal square root. -/
  | frsq (v : VecInstr)
  /-- FEXP2 (R264): Approximate base-2 exponential. -/
  | fexp2 (v : VecInstr)
  /-- FLOG2 (R264): Approximate base-2 logarithm. -/
  | flog2 (v : VecInstr)
  /-- FEXP (R264): Approximate natural exponential. -/
  | fexp (v : VecInstr)
  /-- FSIG (R264): Approximate logistic sigmoid. -/
  | fsig (v : VecInstr)
  /-- FTANH (R264): Approximate hyperbolic tangent. -/
  | ftanh (v : VecInstr)
  /-- RSUM (R265): Exact 64-bit sum of enabled integer elements. -/
  | rsum (v : VecInstr)
  /-- RMAX (R265): Integer maximum with element index. -/
  | rmax (v : VecInstr)
  /-- RMIN (R265): Integer minimum with element index. -/
  | rmin (v : VecInstr)
  /-- FRSUM (R265): Pairwise-tree floating-point sum. -/
  | frsum (v : VecInstr)
  /-- FRMAX (R265): Floating-point maximum with index. -/
  | frmax (v : VecInstr)
  /-- FRMIN (R265): Floating-point minimum with index. -/
  | frmin (v : VecInstr)
  /-- FRANGE (R265): Finite minimum and maximum and counts of non-finite elements. -/
  | frange (v : VecInstr)
  /-- PERM (R260): Permutes vector elements by index. -/
  | perm (v : VecInstr)
  /-- SLIDE (R260): Slides elements across two registers. -/
  | slide (v : VecInstr)
  /-- LD (R244): Vector load of 64 bytes. -/
  | ld (v : VecInstr) (seen : EccSeen)
  /-- ST (R244): Vector store of 64 bytes. -/
  | st (v : VecInstr)
  /-- LDS (R244): Strided vector load. -/
  | lds (v : VecInstr) (seen : EccSeen)
  /-- STS (R244): Strided vector store. -/
  | sts (v : VecInstr)
  /-- LDX (R244): Indexed vector load. -/
  | ldx (v : VecInstr) (seen : EccSeen)
  /-- STX (R247): Indexed vector store in ascending lane order. -/
  | stx (v : VecInstr)
  /-- LDN (R283): Narrow-path load of one 32-byte word. -/
  | ldn (v : VecInstr) (seen : EccSeen)
  /-- SLD (R244): Scalar load. -/
  | sld (v : VecInstr) (seen : EccSeen)
  /-- SST (R244): Scalar store. -/
  | sst (v : VecInstr)
  /-- FENCE (R246): Orders the thread's earlier and later accesses by kind. -/
  | fence (v : VecInstr)
  /-- RECV (R266): Takes the head word of a fabric port's inbound queue. -/
  | recv (v : VecInstr)
  /-- SEND (R266): Enqueues a tagged word on a fabric port. -/
  | send (v : VecInstr)
  /-- SOP (R259): Scalar 64-bit arithmetic or logic operation. -/
  | sop (v : VecInstr)
  /-- SLI (R259): Loads a sign-extended immediate into a scalar register. -/
  | sli (v : VecInstr)
  /-- BR (R259): Conditional relative branch. -/
  | br (v : VecInstr)
  /-- JMP (R259): Jump with link. -/
  | jmp (v : VecInstr)
  /-- BAR_ARRIVE (R253): Arrives at a barrier and returns the prior generation. -/
  | barArrive (v : VecInstr)
  /-- BAR_WAIT (R253): Waits until the barrier's generation differs or the deadline passes. -/
  | barWait (v : VecInstr)
  /-- BAR_SYNC (R253): Arrives at a barrier and then waits. -/
  | barSync (v : VecInstr)
  /-- QSEND (R256): Sends a 32-byte message to a queue, blocking or not. -/
  | qsend (v : VecInstr)
  /-- QRECV (R256): Receives a message from a local queue, waiting up to a deadline. -/
  | qrecv (v : VecInstr)
  /-- AWAIT (R258): Waits until the Almanac reaches an instant. -/
  | await (v : VecInstr)
  /-- TSTART (R238): Submits a start request for a new thread. -/
  | tstart (v : VecInstr)
  /-- EXIT (R240): Frees the thread's slot after its stores are issued. -/
  | exit (v : VecInstr)
  /-- CSR (R237): Reads TSTAT and clears selected flag bits. -/
  | csr (v : VecInstr)
  /-- LOAD_DATA_ARRIVAL (R251): Load data reaches a waiting thread, which becomes READY. -/
  | loadDataArrival (c : Fin 32) (j : Fin 16)
  /-- AWAIT_EXPIRY (R258): The Almanac reaches an AWAIT instant and the thread becomes READY. -/
  | awaitExpiry (c : Fin 32) (j : Fin 16)
  /-- WAIT_DEADLINE (R253): A BAR, QSEND or QRECV deadline passes and the wait ends with TIMEOUT. -/
  | waitDeadline (c : Fin 32) (j : Fin 16)
  /-- THREAD_BUDGET (R240): A stage thread exceeding its cycle budget for a frame raises CORRECTED.0x806. -/
  | threadBudget (c : Fin 32) (j : Fin 16) (fif : Fin 8) (cycles : Nat)
  /-- VT_START (R575): A GO write to CCnn_VT_START submits the writer's staged start request. -/
  | vtStart (c : Fin 32) (w : WriteReq)
  /-- VT_KILL (R239): A KILL bit stops a free thread at its next instruction boundary. -/
  | vtKill (c : Fin 32) (w : WriteReq)
  /-- VT_FREE (R576): A FREE bit frees a TRAPPED slot. -/
  | vtFree (c : Fin 32) (w : WriteReq)
  /-- MGT_BAR_ARRIVE (R252): A host write of MGT_BARnn_ARRIVE counts one arrival. -/
  | mgtBarArrive (b : Fin 64) (w : WriteReq)
  /-- MGT_BAR_EXPECT (R254): A write of EXPECT is accepted only while ARRIVED is 0. -/
  | mgtBarExpect (b : Fin 64) (w : WriteReq)
  /-- MQ_CFG (R255): A queue configuration write takes effect only while the queue is disabled and empty and depths fit. -/
  | mqCfg (q : Fin 256) (w : WriteReq)
  /-- MGT_MQ_POP (R550): A read of the POP word removes the head message into the reader's latch, or reads all ones. -/
  | mgtMqPop (q : Fin 256) (k : Fin 4) (r : ReadReq)
  /-- MGT_MQ_PUSH (R550): A write covering the top of the PUSH word enqueues the writer's staged message. -/
  | mgtMqPush (q : Fin 256) (k : Fin 4) (w : WriteReq)
  /-- MGT_MQ_PUSHDROP_READ (R550): A read of MGT_MQ_PUSHDROP returns and clears the discard count. -/
  | mgtMqPushdropRead (r : ReadReq)
  /-- SERVICE_ACCESS (R281): A host core, steward, PCIe, debug or free-thread access travels the service path to its target. -/
  | serviceAccess (a : Agent) (addr : BitVec 54) (op : SvcReq) (seen : EccSeen)
  /-- READ (R278): A READ request header reaches a memory channel. -/
  | read (g : Fin 64) (h : MemHdr) (op3 : Bool) (tag : Byte) (req : Fin 65536) (first : List EccSeen)
  /-- NARROW (R283): A NARROW request for one 32-byte word reaches a channel's narrow path. -/
  | narrow (g : Fin 64) (h : MemHdr) (tag : Byte) (req : Fin 65536) (first : List EccSeen)
  /-- WRITE (R284): A WRITE request stores whole words and sends partial words to the write-combining buffer. -/
  | write (g : Fin 64) (h : MemHdr) (data : List W64) (tag : Byte) (req : Fin 65536)
  /-- READ_RETURN (R278): A channel returns a read's words, marking poisoned or uncorrectable words. -/
  | readReturn (g : Fin 64) (req : Fin 65536)
  /-- READ_RETRY (R288): An uncorrectable read is reissued once, no sooner than 60 ns later. -/
  | readRetry (g : Fin 64) (req : Fin 65536) (i : Fin 8) (second : EccSeen)
  /-- WCB_AGE_FLUSH (R285): A write-combining entry reaching AGE is flushed. -/
  | wcbAgeFlush (m : Fin 4)
  /-- FLUSH_COMPLETE (R286): A flush's read-merge-write completes and the writers receive their status. -/
  | flushComplete (m : Fin 4) (seen : List (EccSeen × EccSeen))
  /-- REFRESH (R291): The controller issues a per-bank refresh to a channel. -/
  | refresh (g : Fin 64)
  /-- RECENTRE (R291): Every 2 ms the controller re-centres a channel's timing. -/
  | recentre (g : Fin 64) (fails : Bool)
  /-- STACK_TEMP_READ (R291): Every 1 ms the controller reads the stack temperature over IEEE 1500. -/
  | stackTempRead (m : Fin 4) (t : BitVec 8)
  /-- CHANNEL_LOST (R292): A channel whose PHY loses lock, re-centring fails or stack falls silent is lost with UNIT.0x207. -/
  | channelLost (g : Fin 64) (cause : Fin 3)
  /-- MC_TRAIN_GO (R583): A GO write starts training of all 16 channels of a controller. -/
  | mcTrainGo (m : Fin 4) (w : WriteReq)
  /-- TRAINING_DONE (R293): Training of a channel ends and writes PASS, repaired lanes and margin. -/
  | trainingDone (g : Fin 64) (pass : Bool) (repaired : Fin 16) (margin : Fin 256)
  /-- MGT_HBM_COMMIT (R294): A COMMIT write fixes the channel map, N and the capacity. -/
  | mgtHbmCommit (w : WriteReq)
  /-- TG_START (R295): A START write runs a channel's traffic generator and checker. -/
  | tgStart (g : Fin 64) (w : WriteReq)
  /-- TG_DONE (R297): The generator finishes and records its results. -/
  | tgDone (g : Fin 64) (ns : Nat)
  /-- MC_INJ (R579): A write of MCm_INJ arms or disarms a one-shot ECC injection. -/
  | mcInj (m : Fin 4) (w : WriteReq)
  /-- ECC_COUNTER_READ (R580): A read of an MCm_ECCc counter register returns and clears its counts. -/
  | eccCounterRead (g : Fin 64) (k : Fin 3) (r : ReadReq)
  /-- WCB_COUNTER_READ (R578): A read of MCm_WCB_FLUSH or MCm_WCB_WAIT returns and clears the count. -/
  | wcbCounterRead (m : Fin 4) (wait : Bool) (r : ReadReq)
  /-- SEGMENT_ENCODE (R307): The encoder writes a coded segment once its last element has arrived. -/
  | segmentEncode (p : Fin 4) (r : Fin 16) (code : Fin 25)
  /-- ING_EVR_CTL (R560): Setting evidence-ring EN resets the write offset; clearing it stops evidence. -/
  | ingEvrCtl (w : WriteReq)
  /-- WVL_GO (R336): A GO write starts a load, checking request, header, signature, directory and content, then placing it. -/
  | wvlGo (w : WriteReq)
  /-- LOAD_COMMIT (R337): After the checks pass, the loader commits the pipeline and sets STATE to LOADED. -/
  | loadCommit
  /-- WVL_UNLOAD (R339): An UNLOAD write stops the pipeline's threads and releases its resources. -/
  | wvlUnload (n : Fin 4) (w : WriteReq)
  /-- ETH_FRAME_RECEIVE (R367): A port receives a frame, timestamps it and classifies it by the first rule that applies. -/
  | ethFrameReceive (p : Fin 6) (t : Nat) (bytes : List Byte) (good : Bool)
  /-- EYE_MEASURE (R369): Every 1 ms a lane port measures its eye height and width. -/
  | eyeMeasure (p : Fin 4) (height : Fin 65536) (width : Fin 65536)
  /-- PORT_LINK_DOWN (R370): Loss of block lock or FEC alignment for 10 µs raises DEGRADED.0x30A. -/
  | portLinkDown (p : Fin 6) (lock : Bool) (fec : Bool) (ns : Nat)
  /-- PORT_LINK_UP (R370): A port's link coming up again raises CORRECTED.0x30B. -/
  | portLinkUp (p : Fin 6)
  /-- ENDPOINT_COMMIT (R371): A write to bytes 56 to 63 of an endpoint entry commits the staged entry. -/
  | endpointCommit (i : Fin 1024) (w : WriteReq)
  /-- BIND (R374): A BIND write binds a stream to a pipeline and resets its ring, numbering and scale records. -/
  | bind (m : Fin 64) (w : WriteReq)
  /-- UNBIND (R375): An UNBIND write discards the stream's held frames and sets it UNBOUND. -/
  | unbind (m : Fin 64) (w : WriteReq)
  /-- ROTATION_WRITE (R377): A write of a rotation's entries or LEN is accepted while its machine is IDLE. -/
  | rotationWrite (n : Fin 4) (g : Fin 33) (w : WriteReq)
  /-- FRAME_TRANSMIT (R379): A port sends its next queued frame at a frame boundary, EXPOSE and STROBE first. -/
  | frameTransmit (p : Fin 6) (t : Nat)
  /-- RESULT_RECORD_WRITE (R390): A frame's result record is written to its stream's ring after its completion and fault records. -/
  | resultRecordWrite (m : Fin 64)
  /-- ING_STR_RING_RD (R391): Advancing RING_RD frees room and lets pending records be written. -/
  | ingStrRingRd (m : Fin 64) (w : WriteReq)
  /-- NIC_RX_POST (R561): Advancing RXWR hands receive descriptors to the port. -/
  | nicRxPost (p : Fin 6) (tq : Bool) (w : WriteReq)
  /-- NIC_TX_POST (R561): Advancing TXWR hands transmit descriptors to the port. -/
  | nicTxPost (p : Fin 6) (tq : Bool) (w : WriteReq)
  /-- QSK_LINK_EN (R397): Setting QSK_Ln_CTL.EN starts link training. -/
  | qskLinkEn (l : Fin 8) (w : WriteReq)
  /-- TRAINING_PHASE_TIMEOUT (R397): A training phase not passed within 100 ms fails. -/
  | trainingPhaseTimeout (l : Fin 8)
  /-- HELLO (R398): A HELLO notice is checked during IDENTIFY against system, neighbour and link. -/
  | hello (l : Fin 8) (h : HelloMsg)
  /-- TIME_EXCHANGE (R399): Every 1 µs an UP link sends a TIME unit for a delay and offset exchange. -/
  | timeExchange (l : Fin 8)
  /-- TIME_UNIT (R399): A TIME unit arrives and completes an exchange, updating δ and θ. -/
  | timeUnit (l : Fin 8) (u : TimeMsg) (t : Nat)
  /-- FLIT_RECEIVE (R406): A FLIT unit copy arrives and the first correct copy is kept in the receive buffer. -/
  | flitReceive (l : Fin 8) (frame : Fin 256) (slot : Fin 128) (ok : Bool) (words : List (Fin 8 × FabWord))
  /-- FLIT_PRESENT (R405): A kept flit is forwarded by the receiving switch exactly 259 spine cycles after it was sent. -/
  | flitPresent (l : Fin 8) (slot : Fin 128)
  /-- SERVICE_UNIT (R402): A SERVICE unit carries a remote access, barrier arrival or queue message to its device. -/
  | serviceUnit (l : Fin 8) (u : SvcFrame) (seen : EccSeen)
  /-- BIND_NOTICE (R411): A follower resets the stream's scale records and answers STATUS for frame 0xFFFF. -/
  | bindNotice (src : Fin 64) (p : Fin 4) (m : Fin 64)
  /-- BEAT_NOTICE (R411): A follower latches the frame bank, sends heartbeats and launches its core wakes. -/
  | beatNotice (src : Fin 64) (p : Fin 4) (k : Nat) (a : Nat) (fif : Fin 8) (m : Fin 64) (j : Fin 65536)
  /-- STATUS_NOTICE (R412): The head records a follower's frame status used for readiness and the result record. -/
  | statusNotice (src : Fin 64) (p : Fin 4) (fif : Fin 8) (j : Fin 65536) (quality : Fin 32) (reason : Fin 10) (first : Nat) (done : Nat) (fold : Bool)
  /-- RETALLY_NOTICE (R412): A follower's Retally holds the head's beat by D_R. -/
  | retallyNotice (src : Fin 64) (p : Fin 4) (fif : Fin 8) (dR : Nat)
  /-- LOSS_NOTICE (R414): A follower's LOSS notice makes the head raise UNIT.0x40C and halt the pipeline. -/
  | lossNotice (src : Fin 64) (p : Fin 4) (kind : Fin 16) (coord : BitVec 28)
  /-- LINK_LOST (R413): A link losing lock or falling silent for 1 µs, or signalled by its peer, is lost with UNIT.0x402. -/
  | linkLost (l : Fin 8) (cause : Fin 4)
  /-- SLOT_FRAME_UNLOCKED (R403): Slot-frame lock falling while links carry owned slots raises DEGRADED.0x40A. -/
  | slotFrameUnlocked (err : Int)
  /-- PART_STATUS_TIMEOUT (R414): A follower STATUS not arrived within TIMEOUT of launch makes the part lost. -/
  | partStatusTimeout (p : Fin 4) (d : Fin 64)
  /-- QSK_ROUTE_DEFAULT (R401): A DEFAULT write fills every route with the default next link. -/
  | qskRouteDefault (w : WriteReq)
  /-- QSK_TOPO (R563): A write of QSK_TOPO is accepted only while every link is disabled. -/
  | qskTopo (w : WriteReq)
  /-- IDLE (R428): An IDLE barrier frame arrives and updates the expected link sequence. -/
  | idle (c : Fin 2) (x : IdleFrame)
  /-- WEIGHT (R434): A weight record is checked and delivered unchanged to its source's weight ring. -/
  | weight (c : Fin 2) (bytes : List Byte)
  /-- IDENT (R437): An IDENT frame is written unchanged to the message ring. -/
  | ident (c : Fin 2) (bytes : List Byte)
  /-- RESULT (R437): A RESULT frame is written unchanged to the message ring. -/
  | result (c : Fin 2) (bytes : List Byte)
  /-- EVENT (R437): An EVENT frame is written unchanged to the message ring. -/
  | event (c : Fin 2) (bytes : List Byte)
  /-- IMAGE_REQ (R437): An IMAGE_REQ frame is written unchanged to the message ring. -/
  | imageReq (c : Fin 2) (bytes : List Byte)
  /-- BARRIER_LOST (R430): A channel delivering no valid frame for 200 µs loses the link with UNIT.0x509. -/
  | barrierLost (cause : Fin 2)
  /-- BARRIER_TIME_SEND (R439): Every PERIOD the gateway sends a TIME frame stamped at its first bit. -/
  | barrierTimeSend
  /-- TIME (R440): The island receiver captures island time at the first bit of a TIME frame. -/
  | time (c : Fin 2) (bytes : List Byte) (ticks : Nat)
  /-- IDENT_REQ (R427): An IDENT_REQ frame reaches island firmware. -/
  | identReq (c : Fin 2) (bytes : List Byte)
  /-- ZERO_REQ (R427): A ZERO_REQ frame reaches island firmware. -/
  | zeroReq (c : Fin 2) (bytes : List Byte)
  /-- TARE_REQ (R427): A TARE_REQ frame reaches island firmware. -/
  | tareReq (c : Fin 2) (bytes : List Byte)
  /-- EVENT_REQ (R427): An EVENT_REQ frame reaches island firmware. -/
  | eventReq (c : Fin 2) (bytes : List Byte)
  /-- IMAGE_OFFER (R442): An IMAGE_OFFER reaches island firmware, or the boot ROM in BOOT_FAILED. -/
  | imageOffer (c : Fin 2) (bytes : List Byte)
  /-- IMAGE_DATA (R443): An IMAGE_DATA frame reaches the island; unrequested data is discarded. -/
  | imageData (c : Fin 2) (bytes : List Byte)
  /-- BGW_TX_GO (R438): A GO write queues the staged frame on its barrier channel. -/
  | bgwTxGo (c : Fin 2) (w : WriteReq)
  /-- BGW_SRC_CFG (R433): Setting a source's EN resets its ring indexes and baseline. -/
  | bgwSrcCfg (n : Fin 128) (w : WriteReq)
  /-- BGW_MR_CTL (R564): Setting the message ring's EN resets its indexes. -/
  | bgwMrCtl (w : WriteReq)
  /-- BGW_KEYPROG_GO (R540): A GO write blows a host record-key slot when it is unprogrammed and its CRC matches. -/
  | bgwKeyprogGo (k : Fin 2) (w : WriteReq)
  /-- BRIDGE_CONVERSION (R420): A bridge conversion completes and writes an entry into its channel FIFO. -/
  | bridgeConversion (c : Fin 4) (sig : Int) (sen : Int) (ticks : Nat)
  /-- SAMPLE (R423): A SAMPLE frame from a node is checked and written into the sender's sample FIFO. -/
  | sample (g : Fin 8) (node : Fin 17) (frame : SegFrame) (ticks : Nat)
  /-- SYNC (R423): Every ISL_SEGs_SYNC the island sends a SYNC frame on each enabled segment. -/
  | sync (g : Fin 8) (ticks : Nat)
  /-- SIGN_HANDOVER (R432): The signing unit computes the CMAC of handed-over bytes and queues the WEIGHT frame. -/
  | signHandover (bytes : List Byte)
  /-- ISLAND_BOOT (R442): At island power-on the boot ROM loads and verifies an image from its boot bank. -/
  | islandBoot
  /-- BOOT_FAILED_IDENT (R442): In BOOT_FAILED the island sends an unsolicited IDENT every second. -/
  | bootFailedIdent
  /-- ISL_TIME_STEP (R440): Island firmware adjusts island time by rate, slew or step. -/
  | islTimeStep (x : IslTime)
  /-- SOL_LRN_CFG (R446): A write of the learning settings is accepted only while EN is 0 and values lie in range. -/
  | solLrnCfg (r : LrnReg) (w : WriteReq)
  /-- LABEL_UPDATE (R454): The adaptation unit takes the next pending label, updates its rows and writes the label back. -/
  | labelUpdate (errs : List (Fin 4096 × Fin 257 × Bool))
  /-- SOL_LRN_SEED (R458): A seed write sets a row's generator state and clears its traces while the unit is idle. -/
  | solLrnSeed (w : WriteReq)
  /-- FAULT_RING_WRITE (R469): A pending fault record is written to the fault ring once there is room. -/
  | faultRingWrite
  /-- FLT_CTL_EN (R468): Setting EN resets the fault ring indexes; changes to the ring while enabled are rejected. -/
  | fltCtlEn (w : WriteReq)
  /-- FLT_LAST_CLR (R473): A LAST_CLR write clears FLT_LAST_DEVICE. -/
  | fltLastClr (w : WriteReq)
  /-- FLT_LOST_READ (R471): A read of FLT_LOST_Cn returns and clears the class's loss count. -/
  | fltLostRead (n : Fin 5) (r : ReadReq)
  /-- IRQ_HOLDOFF_EXPIRY (R474): When HOLDOFF has passed, a pending CORRECTED or DEGRADED status asserts its interrupt. -/
  | irqHoldoffExpiry (d : Fin 3)
  /-- MGT_HB_REARM (R86): A REARM write re-enables OFF_TRAFFIC reports. -/
  | mgtHbRearm (w : WriteReq)
  /-- PWR_DOM_REQ (R484): A domain state request starts a state change or is refused. -/
  | pwrDomReq (d : Fin 57) (w : WriteReq)
  /-- DOMAIN_TRANSITION_DONE (R484): A requested domain state change completes and sets DONE. -/
  | domainTransitionDone (d : Fin 57)
  /-- PWR_SLEEP (R486): A SLEEP write starts the Dormant entry sequence. -/
  | pwrSleep (w : WriteReq)
  /-- DORMANT_ENTRY (R486): When the steward core executes WFI, domain 38 enters RETAIN, OSC_EN falls and the device is Dormant. -/
  | dormantEntry
  /-- PW_WAKE_N (R487): PW_WAKE_N held low for 2 crystal cycles in Dormant starts Waking. -/
  | pwWakeN (cycles : Nat)
  /-- REFERENCE_CHECK (R488): 3 ms after OSC_EN rises the reference is counted and accepted or the device returns to Dormant. -/
  | referenceCheck (count : Nat)
  /-- WAKING_COMPLETE (R487): With PLLs locked and domain 38 ON, the device enters Active and sets WAKE. -/
  | wakingComplete
  /-- REFERENCE_LOST (R488): A reference failure in Active raises DEVICE.0x606 and drops the device to Dormant. -/
  | referenceLost
  /-- PWR_CLK (R489): A divider write requests a new core or Solstice clock, checked against floor and limits. -/
  | pwrClk (d : Fin 33) (w : WriteReq)
  /-- DIVIDER_SWITCH (R490): Once the LDO has settled, the divider switches to the new frequency. -/
  | dividerSwitch (d : Fin 33)
  /-- AVS_ITERATION (R492): Every 4 µs the adaptive voltage loop steps the LDO target by the timing margin. -/
  | avsIteration (d : Fin 33) (margin : Int)
  /-- LDO_OUT_OF_REGULATION (R493): An LDO more than 25 mV off target for 1 µs makes its core or the Solstice engine lost. -/
  | ldoOutOfRegulation (d : Fin 33)
  /-- PM_ALERT (R493): PM_ALERT_N makes the device read the regulator's status over PMBus. -/
  | pmAlert (addr : Fin 128) (status : Fin 65536)
  /-- QUADRANT_PLL_LOST (R491): A quadrant PLL losing lock raises UNIT.0x605 and loses its cores. -/
  | quadrantPllLost (q : Fin 4)
  /-- PWR_QPLL_RELOCK (R491): A RELOCK write restarts a quadrant PLL when none of its cores is held by a pipeline. -/
  | pwrQpllRelock (q : Fin 4) (w : WriteReq)
  /-- QPLL_LOCKED (R491): A relocking quadrant PLL achieves lock and LOCK reads 1. -/
  | qpllLocked (q : Fin 4) (ok : Bool)
  /-- IDLE_ENTRY (R495): A core quiescent for DELAY with IDLE.STATE RETAIN enters RETAIN. -/
  | idleEntry (c : Fin 32) (done : Bool)
  /-- CORE_WAKE_DONE (R496): A waking core reaches ON. -/
  | coreWakeDone (c : Fin 32) (ns : Nat)
  /-- THERMAL_SAMPLE (R497): Every 50 µs the die sensors are sampled and Tj is formed. -/
  | thermalSample (ts : List (BitVec 8))
  /-- THROTTLE_STAGE2 (R498): Tj still at 105 °C 10 ms after stage 1 caps cores at 400 MHz. -/
  | throttleStage2
  /-- THROTTLE_RELEASE (R498): Tj at or below 100 °C for 10 ms removes every cap. -/
  | throttleRelease
  /-- OVERTEMP_COMPARATOR (R499): An analogue over-temperature comparator firing trips the device. -/
  | overtempComparator (sensor : Fin 44)
  /-- MBX_REQ_WR (R512): Advancing REQ_WR posts a mailbox request and interrupts the steward core. -/
  | mbxReqWr (c : Fin 2) (w : WriteReq)
  /-- MGT_MBX_CTL (R511): Setting a channel's EN resets its indexes; clearing it drops unserved requests. -/
  | mgtMbxCtl (c : Fin 2) (w : WriteReq)
  /-- MBX_PING (R513): Mailbox PING returns the Almanac time. -/
  | mbxPing (c : Fin 2)
  /-- MBX_VERSION (R513): Mailbox VERSION returns firmware version, SVN, bank and stepping. -/
  | mbxVersion (c : Fin 2)
  /-- MBX_GET_POLICY (R514): Mailbox GET_POLICY returns a policy parameter. -/
  | mbxGetPolicy (c : Fin 2)
  /-- MBX_SET_POLICY (R514): Mailbox SET_POLICY applies a policy parameter to its registers. -/
  | mbxSetPolicy (c : Fin 2)
  /-- MBX_LOAD (R515): Mailbox LOAD builds a load request and runs the loader. -/
  | mbxLoad (c : Fin 2)
  /-- MBX_UNLOAD (R515): Mailbox UNLOAD unloads a pipeline and frees its arenas. -/
  | mbxUnload (c : Fin 2)
  /-- MBX_ARM (R517): Mailbox ARM writes B and arms the beat machine when gPTP is locked or FORCE is set. -/
  | mbxArm (c : Fin 2)
  /-- MBX_STOP (R517): Mailbox STOP writes the stop and answers when the machine is IDLE. -/
  | mbxStop (c : Fin 2)
  /-- MBX_SEED (R458): Mailbox SEED makes steward firmware seed a learning row. -/
  | mbxSeed (c : Fin 2)
  /-- MBX_FW_STAGE (R522): Mailbox FW_STAGE checks an image, writes it to the idle bank and sets the boot record. -/
  | mbxFwStage (c : Fin 2)
  /-- MBX_FW_SVN_COMMIT (R522): Mailbox FW_SVN_COMMIT blows anti-rollback fuses up to the running SVN. -/
  | mbxFwSvnCommit (c : Fin 2)
  /-- MBX_DEVICE_RESET (R523): Mailbox DEVICE_RESET asserts a device reset when beat machines are IDLE or FORCE is set. -/
  | mbxDeviceReset (c : Fin 2)
  /-- MBX_PORT_CFG (R366): Mailbox PORT_CFG sets an Ethernet port's mode. -/
  | mbxPortCfg (c : Fin 2)
  /-- MBX_TIME_STATUS (R518): Mailbox TIME_STATUS returns lock, offset, grandmaster and UTC offset. -/
  | mbxTimeStatus (c : Fin 2)
  /-- RECOVERY (R520): With RECOVERY at RELOAD, a halting UNIT record makes steward firmware stop, reload, rebind and rearm the pipeline. -/
  | recovery (n : Fin 4)
  /-- GPTP_SERVO (R518): Steward firmware applies a gPTP offset by slew or step and judges lock. -/
  | gptpServo (offset : Int) (gm : W64)
  /-- GPTP_SYNC_TIMEOUT (R518): Three Sync intervals without a Sync declare loss of lock. -/
  | gptpSyncTimeout
  /-- MGT_WDOG_KICK (R551): A KICK restarts the watchdog and arms it. -/
  | mgtWdogKick (w : WriteReq)
  /-- WDOG_EXPIRE (R524): An armed watchdog not kicked for 100 ms sets EXPIRED and raises source 71. -/
  | wdogExpire
  /-- MGT_STW_RESTART (R524): A RESTART write while EXPIRED resets the steward core and re-enters the boot ROM. -/
  | mgtStwRestart (w : WriteReq)
  /-- PCIE_RESET (R510): A function level reset, hot reset or link-down resets PCIe state and disables mailbox channel 1. -/
  | pcieReset
  /-- PE_PERST_N (R594): PE_PERST_N low resets the PCIe endpoint as R510 states. -/
  | pePerstN (low : Bool)
  /-- PCIE_REQUEST (R509): An inbound PCIe request is mapped through a BAR or window onto the service path. -/
  | pcieRequest (q : PcieReq) (seen : EccSeen)
  /-- MGT_HART_START (R539): A bit written to MGT_HART_START releases that hart at MGT_HART_ENTRY. -/
  | mgtHartStart (w : WriteReq)
  /-- MGT_HOST_DENY_READ (R502): A read of MGT_HOST_DENY returns and clears the refusal count and re-arms address capture. -/
  | mgtHostDenyRead (r : ReadReq)
  /-- MGT_HCM_ECC_READ (R503): A read of MGT_HCM_ECC returns and clears host-core memory error counts. -/
  | mgtHcmEccRead (r : ReadReq)
  /-- PRBS_ERR_READ (R541): A read of a port or link PRBS error count returns and clears it. -/
  | prbsErrRead (k : PrbsSite) (r : ReadReq)
  /-- REGISTER_WRITE (R543): A write to a control register with no row of its own sets its fields under its access code. -/
  | registerWrite (x : CtlWrite)
  /-- POWER_ON_RESET (R528): VAON rising from below its minimum clears the always-on domain and resets the device. -/
  | powerOnReset
  /-- PW_RESET_N (R527): PW_RESET_N low holds the device in reset. -/
  | pwResetN
  /-- JTAG_RESET (R528): A JTAG reset instruction in debug mode causes a device reset. -/
  | jtagReset
  /-- RESET_RELEASE (R527): Reset ends on a crystal edge, straps are sampled and the Waking sequence runs. -/
  | resetRelease (bootSrc : Fin 4) (debugEn : Bool)
  /-- BOOT_ROM_START (R531): The boot ROM self-checks, reads OTP, obtains a valid image and starts it. -/
  | bootRomStart (rom : Bool) (sram : Bool) (otp : Bool)
  /-- MGT_BOOT_PCIE_GO (R534): A GO write makes the waiting boot ROM check the image written over PCIe. -/
  | mgtBootPcieGo (w : WriteReq)
  /-- STEWARD_START_SEQUENCE (R537): Steward firmware opens the fault queue, trains HBM, tests cores and opens the mailbox. -/
  | stewardStartSequence
  /-- CC_BIST_GO (R573): A GO write starts a core's self test while it is ON and unplaced. -/
  | ccBistGo (c : Fin 32) (w : WriteReq)
  /-- BIST_DONE (R573): A self test completes, setting DONE and PASS or losing the unit. -/
  | bistDone (u : Fin 33) (pass : Bool)
  /-- SOL_BIST_GO (R538): A GO write starts the Solstice self test. -/
  | solBistGo (w : WriteReq)
  /-- MGT_OTP_REVOKE (R530): A GO write blows the revoke bit of a key slot. -/
  | mgtOtpRevoke (w : WriteReq)
  /-- MGT_HCM_LOCK (R535): Setting MGT_HCM_LOCK locks the staging area against every agent except the steward core. -/
  | mgtHcmLock (w : WriteReq)
  /-- LOOPBACK_WRITE (R541): A loopback or PRBS setting takes effect only while its domain is ON and no pipeline uses the port. -/
  | loopbackWrite (k : LoopSite) (w : WriteReq)
  /-- MGT_DEVNUM (R549): A write of MGT_DEVNUM is ignored while a pipeline is resident or a link is enabled. -/
  | mgtDevnum (w : WriteReq)
  /-- CLOCK_RECOVERY_LOCK (R397): In the PMA phase of link training, clock recovery locks and equaliser adaptation ends, passing the link to ALIGN. -/
  | clockRecoveryLock (l : Fin 8)
  /-- CODEWORD_LOCK (R396): The receiver achieves codeword lock and deskews the lanes, passing the link from ALIGN to IDENTIFY. -/
  | codewordLock (l : Fin 8)
  /-- SLOT_FRAME_LOCK (R403): The phase interpolator re-acquires, QSK_SFRAME_STAT.LOCK returns to 1 and the SLOT_FRAME_UNLOCKED excursion ends. -/
  | slotFrameLock
  /-- PLCA_BEACON (R422): At the start of each PLCA cycle the island sends a beacon on each enabled segment, opening the nodes' transmit opportunities. -/
  | plcaBeacon (g : Fin 8)
  /-- REPLY (R423): A scale-node frame other than a valid SAMPLE, such as a REPLY or ANNOUNCE, arrives on a segment and is passed to island firmware's receive queue. -/
  | reply (g : Fin 8) (node : Fin 17) (frame : SegFrame) (ticks : Nat)
  /-- MTIMECMP_COMPARE (R504): The Almanac reaches a hart's mtimecmp and the hart's machine timer interrupt is raised, as a one-shot instant. -/
  | mtimecmpCompare (h : Fin 4) (t : Nat)
  deriving DecidableEq, Repr

end Sys2Proof
end

