-- ==== Sys2Proof/Decode.lean ====
section
/-!
DEFINITION. The decoder of command words. spec/opcode_table.json gives no row any bits: the commands of this block are writes,
reads, operations and events, not words. No word spells a command.
-/

namespace Sys2Proof

/-- The command that a word spells by the table's bits: none of the rows has any. -/
def decodeTableWord (_nbits _w : Nat) : Option Instr := none

end Sys2Proof
end

