-- ==== Sys2Proof/Config.lean ====
section
/-!
DEFINITION. What an implementation fixes and the spec leaves open: free values. Each is an opaque constant with no
body, so no proof can depend on what it is (notes/assumptions).
-/

namespace Sys2Proof

/-- The input and output declaration of a pipeline (spec/12_weave_bitstream.md R327). -/
structure IoDecl where
  w : Nat := 0
  h : Nat := 0
  chans : Nat := 3
  u16 : Bool := false
  layout : Nat := 0
  outLen : Nat := 0
  deriving DecidableEq, Repr, Inhabited

/-- A convolution of the Solstice engine (spec/08_windows_and_solstice.md Table 8-8, R206): its geometry, weight zero points
and offsets, rescale descriptor (Table 6-3) and entries (Table 6-4), and where its output goes. -/
structure ConvConf where
  inW : Nat := 0
  inH : Nat := 0
  inC : Nat := 0
  kh : Nat := 1
  kw : Nat := 1
  sh : Nat := 1
  sw : Nat := 1
  padT : Nat := 0
  padL : Nat := 0
  padB : Nat := 0
  padR : Nat := 0
  outC : Nat := 0
  /-- first weight byte within the Solstice range, in the order of output channels and then of R206 -/
  wOff : Nat := 0
  /-- weight zero point per output channel -/
  zw : List Int := []
  rsc0 : W64 := 0
  rsc1 : W64 := 0
  entries : List W64 := []
  /-- core, which a patch has made the physical one (R335), and row buffer that the stem writes -/
  outCore : Nat := 0
  outBuf : Nat := 0
  /-- offset of the tail's output in the output area -/
  outOff : Nat := 0
  /-- layout of the input and of the output (Table 8-2) -/
  inLayout : Nat := 0
  outLayout : Nat := 0
  deriving DecidableEq, Repr, Inhabited

/-- The stem and tail configuration of a variant (spec/12 Table 12-3): MEAN_k and ISTD_k, and both convolutions. -/
structure SolConf where
  mean : List W32 := []
  istd : List W32 := []
  stem : ConvConf := {}
  tail : ConvConf := {}
  deriving DecidableEq, Repr, Inhabited

/-- A thread declaration of a THREADS chunk (spec/12 R327): slot, entry PC, four arguments, stage (255 free) and budget. -/
structure ThreadDecl where
  slot : Nat := 0
  pc : Nat := 0
  args : List W64 := []
  stage : Nat := 255
  budget : Nat := 0
  deriving DecidableEq, Repr, Inhabited

/-- How the bytes of an IO, a SOLSTICE and a THREADS chunk stand for their contents, whose layout spec/12 does not give
(DEDUCED, log entry 26). -/
opaque Config.ioDecl : List Byte → IoDecl
opaque Config.solConf : List Byte → SolConf
opaque Config.solWeights : List Byte → List Byte
opaque Config.threadDecls : List Byte → List ThreadDecl
opaque Config.threadCode : List Byte → List W64

/-- The entries of a UNIT_GW chunk (spec/12 R324): end code, direction (0 outbound), slot and table entry (DEDUCED, log entry 26). -/
opaque Config.unitGwEntries : List Byte → List (Nat × Nat × Nat × W64)

/-- A fresh 64-bit value, indexed by the counter `State.free` (DESIGN CHOICE, log entry 2). -/
opaque Config.freeWord : Nat → W64

/-- The quotient or value of FP32 scales that R164, R167 and R168 do not state: operands that are not finite, or a
zero divisor. Numerator, and denominator less one (DESIGN CHOICE, log entry 17). -/
opaque Config.oddRatio : Nat → Nat → Int × Nat

/-- S and Z of a record whose limits make d of R158 a NaN, as FP32 bits and a zero point (DESIGN CHOICE, log entry 17). -/
opaque Config.oddScale : Nat → Nat → W32 × Byte

/-- The zero point that a consumer takes for a fixed-scale tensor: pipeline and tensor index (DESIGN CHOICE, log entry 18). -/
opaque Config.fixedZp : Nat → Nat → Byte

/-- The embedding tensor of a pipeline: R449 names it and no table says which tensor it is (DESIGN CHOICE, log entry 99). -/
opaque Config.embTensor : Nat → Nat

/-- The result of an approximation function where Table 9-12 gives a bound or nothing: function 0 FRCP to 6 FTANH, and the FP32
operand (DESIGN CHOICE, log entry 20). -/
opaque Config.approx : Nat → Nat → W32

/-- The byte that a CORE_IMAGE chunk carries for an offset of its core's store, a release count or a part of a depthwise channel
record: spec/12 R322 puts what a core needs into the chunk, and no rule says where these bytes stand (DEDUCED, log entry 26). -/
opaque Config.storeByte : List Byte → Nat → Byte

/-- Where that byte stands in the chunk, for the same reason (DEDUCED, log entry 26). -/
opaque Config.storePos : List Byte → Nat → Nat

/-- The epilogue code that meets an output made by the Solstice engine: pipeline, epilogue tensor, frame and output position. R170 gives the code's use and no rule the way it comes (DESIGN CHOICE, log
entry 110). -/
opaque Config.epiCode : Nat → Nat → Nat → Nat → Byte

/-- The fused starting voltage and the fused minimum voltage, in mV, of a core (0 to 31) or the Solstice engine (32) at
a divider (spec/19 R490, R492), which each part fixes (DESIGN CHOICE, log entry 32). -/
opaque Config.vStart : Nat → Nat → Nat
opaque Config.vMin : Nat → Nat → Nat

end Sys2Proof
end

