-- ==== Sys2Proof/Machine/RegMap.lean ====
section
/-!
DEFINITION. The control-space register map: every register of spec/22_registers_device.md Tables 22-2 to 22-12 and
spec/23_registers_units.md Tables 23-1 to 23-9, with its offset within control space (R542, R565), its fields, their
access codes (R16, Table 0-3), their reset values (R544) and whether only the steward core may write them (R546).
The offset of a register is its byte offset from 0x003F_0000_0000.
-/

namespace Sys2Proof

/-- Access codes of Table 0-3. -/
inductive Access where
  | ro | rw | w1c | w1s | rc | wo
  deriving DecidableEq, Repr

/-- What a device reset does to a field (R544): `dev` restores the reset value, `por` is kept until a power-on reset,
`part` is fixed by fuses or the die, `strap` is sampled under R529, `cause` is written by the reset itself. -/
inductive ResetKind where
  | dev | por | part | strap | cause
  deriving DecidableEq, Repr

/-- One field of a register row: position, width, access, reset value, steward-only mark and reset kind. -/
structure RegFld where
  lo : Nat
  w : Nat
  acc : Access
  reset : Nat
  stew : Bool
  kind : ResetKind
  deriving DecidableEq, Repr

/-- One row of the map: the base offset, the strides and counts of its index dimensions (largest stride first) and
its fields. -/
structure RegRow where
  base : Nat
  dims : List (Nat × Nat)
  fields : List RegFld
  deriving DecidableEq, Repr

/-- A named field: the register's offset within control space, its low bit and its width. -/
structure Fld where
  off : Nat
  lo : Nat
  w : Nat
  deriving DecidableEq, Repr

/-- Registers of the MGT block, part 1. -/
def Reg.rowsMgt0 : List RegRow := [
  ⟨0x0, [],
    [⟨0, 16, .ro, 0xC61, false, .dev⟩,
     ⟨16, 8, .ro, 0x0, false, .part⟩,
     ⟨24, 2, .ro, 0x0, false, .part⟩]⟩,
  ⟨0x8, [],
    [⟨0, 32, .ro, 0xFFFFFFFF, false, .part⟩]⟩,
  ⟨0x10, [],
    [⟨0, 32, .w1c, 0x0, false, .dev⟩]⟩,
  ⟨0x18, [],
    [⟨0, 6, .rw, 0x0, false, .dev⟩]⟩,
  ⟨0x20, [],
    [⟨0, 2, .ro, 0x0, false, .strap⟩,
     ⟨2, 1, .ro, 0x0, false, .strap⟩]⟩,
  ⟨0x28, [],
    [⟨0, 4, .ro, 0x1, false, .cause⟩]⟩,
  ⟨0x30, [],
    [⟨0, 8, .rw, 0x1, true, .dev⟩,
     ⟨8, 7, .rw, 0x0, true, .dev⟩,
     ⟨15, 1, .rw, 0x0, true, .dev⟩]⟩,
  ⟨0x38, [],
    [⟨0, 32, .rw, 0x0, false, .dev⟩,
     ⟨32, 1, .wo, 0x0, false, .dev⟩]⟩,
  ⟨0x40, [],
    [⟨0, 1, .w1s, 0x0, true, .dev⟩]⟩,
  ⟨0x48, [],
    [⟨0, 2, .wo, 0x0, true, .dev⟩,
     ⟨2, 1, .wo, 0x0, true, .dev⟩,
     ⟨8, 1, .wo, 0x0, true, .dev⟩]⟩,
  ⟨0x50, [],
    [⟨0, 4, .ro, 0x1, false, .part⟩,
     ⟨4, 4, .ro, 0x0, false, .part⟩,
     ⟨8, 4, .ro, 0x1, false, .part⟩,
     ⟨12, 4, .ro, 0x0, false, .part⟩,
     ⟨16, 7, .ro, 0x0, false, .part⟩,
     ⟨24, 1, .ro, 0x0, false, .part⟩,
     ⟨25, 1, .ro, 0x0, false, .part⟩]⟩,
  ⟨0x58, [],
    [⟨0, 13, .rw, 0x0, true, .dev⟩]⟩]

/-- Registers of the MGT block, part 2. -/
def Reg.rowsMgt1 : List RegRow := [
  ⟨0x60, [],
    [⟨0, 16, .rc, 0x0, false, .dev⟩,
     ⟨16, 48, .ro, 0x0, false, .dev⟩]⟩,
  ⟨0x68, [],
    [⟨0, 16, .rc, 0x0, false, .dev⟩,
     ⟨16, 16, .rc, 0x0, false, .dev⟩,
     ⟨32, 25, .ro, 0x0, false, .dev⟩]⟩,
  ⟨0x70, [],
    [⟨0, 4, .rw, 0x3, false, .dev⟩,
     ⟨8, 1, .wo, 0x0, false, .dev⟩]⟩,
  ⟨0x78, [],
    [⟨0, 1, .wo, 0x0, true, .dev⟩,
     ⟨1, 1, .ro, 0x0, false, .dev⟩]⟩,
  ⟨0x80, [],
    [⟨0, 7, .ro, 0x0, false, .dev⟩]⟩,
  ⟨0x88, [],
    [⟨0, 1, .wo, 0x0, true, .dev⟩,
     ⟨1, 1, .ro, 0x0, false, .dev⟩,
     ⟨2, 1, .ro, 0x0, false, .dev⟩]⟩,
  ⟨0x90, [],
    [⟨0, 1, .wo, 0x0, false, .dev⟩]⟩,
  ⟨0x98, [],
    [⟨0, 4, .w1s, 0x0, false, .dev⟩]⟩,
  ⟨0xA0, [],
    [⟨0, 48, .rw, 0x3000000000, false, .dev⟩]⟩,
  ⟨0xA8, [],
    [⟨0, 32, .rc, 0x0, false, .dev⟩]⟩,
  ⟨0x108, [(0x8, 93)],
    [⟨0, 2, .rw, 0x0, false, .dev⟩,
     ⟨8, 6, .rw, 0x0, false, .dev⟩]⟩,
  ⟨0x800, [(0x40, 2)],
    [⟨0, 48, .rw, 0x0, false, .dev⟩]⟩]

/-- Registers of the MGT block, part 3. -/
def Reg.rowsMgt2 : List RegRow := [
  ⟨0x808, [(0x40, 2)],
    [⟨0, 48, .rw, 0x0, false, .dev⟩]⟩,
  ⟨0x810, [(0x40, 2)],
    [⟨0, 1, .rw, 0x0, false, .dev⟩,
     ⟨8, 4, .rw, 0x4, false, .dev⟩]⟩,
  ⟨0x818, [(0x40, 2)],
    [⟨0, 32, .rw, 0x0, false, .dev⟩]⟩,
  ⟨0x820, [(0x40, 2)],
    [⟨0, 32, .rw, 0x0, true, .dev⟩]⟩,
  ⟨0x828, [(0x40, 2)],
    [⟨0, 32, .rw, 0x0, true, .dev⟩]⟩,
  ⟨0x830, [(0x40, 2)],
    [⟨0, 32, .rw, 0x0, false, .dev⟩]⟩,
  ⟨0x1000, [(0x10, 64)],
    [⟨0, 10, .rw, 0x1, false, .dev⟩,
     ⟨16, 10, .ro, 0x0, false, .dev⟩,
     ⟨32, 16, .ro, 0x0, false, .dev⟩]⟩,
  ⟨0x1008, [(0x10, 64)],
    [⟨0, 1, .wo, 0x0, false, .dev⟩]⟩,
  ⟨0x8000, [(0x80, 256)],
    [⟨0, 1, .rw, 0x0, false, .dev⟩,
     ⟨1, 3, .rw, 0x0, false, .dev⟩]⟩,
  ⟨0x8008, [(0x80, 256)],
    [⟨0, 9, .ro, 0x0, false, .dev⟩]⟩,
  ⟨0x8020, [(0x80, 256), (0x8, 4)],
    [⟨0, 64, .rc, 0x0, false, .dev⟩]⟩,
  ⟨0x8040, [(0x80, 256), (0x8, 4)],
    [⟨0, 64, .wo, 0x0, false, .dev⟩]⟩]

/-- Registers of the ALM block, part 1. -/
def Reg.rowsAlm0 : List RegRow := [
  ⟨0x100000, [],
    [⟨0, 32, .ro, 0x0, false, .por⟩]⟩,
  ⟨0x100008, [],
    [⟨0, 32, .ro, 0x0, false, .por⟩]⟩,
  ⟨0x100010, [],
    [⟨0, 16, .ro, 0x0, false, .por⟩]⟩,
  ⟨0x100018, [],
    [⟨0, 32, .rw, 0x0, true, .dev⟩]⟩,
  ⟨0x100020, [],
    [⟨0, 32, .wo, 0x0, true, .dev⟩]⟩,
  ⟨0x100028, [],
    [⟨0, 32, .ro, 0x0, false, .dev⟩]⟩,
  ⟨0x100030, [],
    [⟨0, 16, .wo, 0x0, true, .dev⟩,
     ⟨16, 48, .wo, 0x0, true, .dev⟩]⟩,
  ⟨0x100038, [],
    [⟨0, 48, .ro, 0x77359400, false, .por⟩]⟩,
  ⟨0x100040, [],
    [⟨0, 4, .w1c, 0x0, false, .dev⟩,
     ⟨4, 8, .w1c, 0x0, false, .dev⟩,
     ⟨12, 16, .w1c, 0x0, false, .dev⟩,
     ⟨28, 1, .w1c, 0x0, false, .dev⟩,
     ⟨29, 1, .w1c, 0x0, false, .dev⟩]⟩,
  ⟨0x100048, [],
    [⟨0, 64, .rw, 0x0, false, .por⟩]⟩,
  ⟨0x100050, [],
    [⟨0, 1, .rw, 0x0, false, .por⟩]⟩,
  ⟨0x100100, [(0x40, 4)],
    [⟨0, 27, .rw, 0x5F5E100, false, .dev⟩]⟩]

/-- Registers of the ALM block, part 2. -/
def Reg.rowsAlm1 : List RegRow := [
  ⟨0x100108, [(0x40, 4)],
    [⟨0, 25, .rw, 0x0, false, .dev⟩,
     ⟨32, 25, .ro, 0x0, false, .dev⟩]⟩,
  ⟨0x100110, [(0x40, 4)],
    [⟨0, 27, .rw, 0x5F5E100, false, .dev⟩]⟩,
  ⟨0x100118, [(0x40, 4)],
    [⟨0, 64, .rw, 0x0, false, .dev⟩]⟩,
  ⟨0x100120, [(0x40, 4)],
    [⟨0, 27, .ro, 0x0, false, .dev⟩]⟩,
  ⟨0x100128, [(0x40, 4)],
    [⟨0, 1, .wo, 0x0, false, .dev⟩,
     ⟨1, 1, .wo, 0x0, false, .dev⟩]⟩,
  ⟨0x100130, [(0x40, 4)],
    [⟨0, 3, .ro, 0x0, false, .dev⟩,
     ⟨3, 1, .ro, 0x0, false, .dev⟩,
     ⟨32, 32, .ro, 0x0, false, .dev⟩]⟩,
  ⟨0x100138, [(0x40, 4)],
    [⟨0, 64, .ro, 0x0, false, .dev⟩]⟩,
  ⟨0x100400, [(0x20, 16)],
    [⟨0, 64, .rw, 0x0, false, .dev⟩]⟩,
  ⟨0x100408, [(0x20, 16)],
    [⟨0, 40, .rw, 0x0, false, .dev⟩]⟩,
  ⟨0x100410, [(0x20, 16)],
    [⟨0, 1, .rw, 0x0, false, .dev⟩,
     ⟨1, 1, .rw, 0x0, false, .dev⟩,
     ⟨2, 1, .rw, 0x0, false, .dev⟩,
     ⟨8, 8, .rw, 0x0, false, .dev⟩,
     ⟨32, 32, .rw, 0x0, false, .dev⟩]⟩]

/-- Registers of the PWR block, part 1. -/
def Reg.rowsPwr0 : List RegRow := [
  ⟨0x200000, [],
    [⟨0, 1, .wo, 0x0, false, .dev⟩]⟩,
  ⟨0x200008, [],
    [⟨0, 2, .ro, 0x0, false, .dev⟩]⟩,
  ⟨0x200010, [],
    [⟨0, 1, .rw, 0x0, false, .dev⟩]⟩,
  ⟨0x200018, [],
    [⟨0, 1, .w1c, 0x0, false, .dev⟩,
     ⟨1, 1, .w1c, 0x0, false, .dev⟩]⟩,
  ⟨0x200020, [],
    [⟨0, 2, .ro, 0x0, false, .dev⟩,
     ⟨8, 8, .ro, 0x0, false, .dev⟩]⟩,
  ⟨0x200400, [(0x8, 44)],
    [⟨0, 8, .ro, 0x0, false, .dev⟩]⟩,
  ⟨0x201000, [(0x10, 38)],
    [⟨0, 2, .rw, 0x0, false, .dev⟩]⟩,
  ⟨0x201260, [],
    [⟨0, 2, .rw, 0x3, false, .dev⟩]⟩,
  ⟨0x201270, [(0x10, 18)],
    [⟨0, 2, .rw, 0x0, false, .dev⟩]⟩,
  ⟨0x201008, [(0x10, 38)],
    [⟨0, 2, .ro, 0x0, false, .dev⟩,
     ⟨2, 1, .ro, 0x0, false, .dev⟩]⟩,
  ⟨0x201268, [],
    [⟨0, 2, .ro, 0x3, false, .dev⟩,
     ⟨2, 1, .ro, 0x0, false, .dev⟩]⟩,
  ⟨0x201278, [(0x10, 18)],
    [⟨0, 2, .ro, 0x0, false, .dev⟩,
     ⟨2, 1, .ro, 0x0, false, .dev⟩]⟩]

/-- Registers of the PWR block, part 2. -/
def Reg.rowsPwr1 : List RegRow := [
  ⟨0x202000, [(0x40, 32)],
    [⟨0, 9, .rw, 0x80, false, .dev⟩,
     ⟨16, 9, .ro, 0x80, false, .dev⟩]⟩,
  ⟨0x202008, [(0x40, 32)],
    [⟨0, 11, .ro, 0x578, false, .part⟩]⟩,
  ⟨0x202010, [(0x40, 32)],
    [⟨0, 1, .rw, 0x1, false, .dev⟩,
     ⟨8, 8, .rw, 0x28, false, .dev⟩,
     ⟨16, 8, .rw, 0x50, false, .dev⟩,
     ⟨24, 1, .w1c, 0x0, false, .dev⟩]⟩,
  ⟨0x202018, [(0x40, 32)],
    [⟨0, 10, .rw, 0x352, false, .dev⟩,
     ⟨16, 10, .ro, 0x0, false, .dev⟩,
     ⟨32, 10, .ro, 0x258, false, .part⟩]⟩,
  ⟨0x202020, [(0x40, 32)],
    [⟨0, 11, .ro, 0x0, false, .dev⟩]⟩,
  ⟨0x202028, [(0x40, 32)],
    [⟨0, 1, .rw, 0x0, false, .dev⟩,
     ⟨16, 16, .rw, 0x1F4, false, .dev⟩,
     ⟨32, 20, .rw, 0x7D0, false, .dev⟩]⟩,
  ⟨0x202030, [(0x40, 32)],
    [⟨0, 32, .ro, 0x0, false, .dev⟩]⟩,
  ⟨0x202800, [],
    [⟨0, 9, .rw, 0x80, false, .dev⟩,
     ⟨16, 9, .ro, 0x80, false, .dev⟩]⟩,
  ⟨0x202808, [],
    [⟨0, 11, .ro, 0x578, false, .part⟩]⟩,
  ⟨0x202810, [],
    [⟨0, 1, .rw, 0x1, false, .dev⟩,
     ⟨8, 8, .rw, 0x28, false, .dev⟩,
     ⟨16, 8, .rw, 0x50, false, .dev⟩,
     ⟨24, 1, .w1c, 0x0, false, .dev⟩]⟩,
  ⟨0x202818, [],
    [⟨0, 10, .rw, 0x352, false, .dev⟩,
     ⟨16, 10, .ro, 0x0, false, .dev⟩,
     ⟨32, 10, .ro, 0x258, false, .part⟩]⟩,
  ⟨0x202820, [],
    [⟨0, 11, .ro, 0x0, false, .dev⟩]⟩]

/-- Registers of the PWR block, part 3. -/
def Reg.rowsPwr2 : List RegRow := [
  ⟨0x203000, [(0x8, 4)],
    [⟨0, 1, .wo, 0x0, false, .dev⟩,
     ⟨8, 1, .ro, 0x0, false, .dev⟩]⟩,
  ⟨0x203100, [],
    [⟨0, 2, .rw, 0x0, false, .dev⟩]⟩]

/-- Registers of the FLT block, part 1. -/
def Reg.rowsFlt0 : List RegRow := [
  ⟨0x300000, [],
    [⟨0, 1, .rw, 0x0, true, .dev⟩,
     ⟨1, 1, .rw, 0x0, true, .dev⟩,
     ⟨2, 1, .wo, 0x0, true, .dev⟩]⟩,
  ⟨0x300008, [],
    [⟨0, 1, .ro, 0x0, false, .dev⟩]⟩,
  ⟨0x300010, [],
    [⟨0, 48, .rw, 0x0, true, .dev⟩]⟩,
  ⟨0x300018, [],
    [⟨0, 5, .rw, 0x6, true, .dev⟩]⟩,
  ⟨0x300020, [],
    [⟨0, 32, .ro, 0x0, false, .dev⟩]⟩,
  ⟨0x300028, [],
    [⟨0, 32, .rw, 0x0, false, .dev⟩]⟩,
  ⟨0x300030, [],
    [⟨0, 32, .rw, 0x0, false, .dev⟩]⟩,
  ⟨0x300038, [],
    [⟨0, 8, .ro, 0x0, false, .dev⟩]⟩,
  ⟨0x300040, [(0x8, 5)],
    [⟨0, 32, .rc, 0x0, false, .dev⟩]⟩,
  ⟨0x300080, [],
    [⟨0, 5, .rw, 0x1F, true, .dev⟩,
     ⟨16, 10, .rw, 0x0, true, .dev⟩,
     ⟨32, 6, .rw, 0x0, true, .dev⟩]⟩,
  ⟨0x300090, [(0x10, 2)],
    [⟨0, 5, .rw, 0x0, false, .dev⟩,
     ⟨16, 10, .rw, 0x0, false, .dev⟩,
     ⟨32, 6, .rw, 0x0, false, .dev⟩]⟩,
  ⟨0x300088, [(0x10, 3)],
    [⟨0, 5, .w1c, 0x0, false, .dev⟩,
     ⟨5, 1, .w1c, 0x0, false, .dev⟩,
     ⟨6, 1, .w1c, 0x0, false, .dev⟩]⟩]

/-- Registers of the FLT block, part 2. -/
def Reg.rowsFlt1 : List RegRow := [
  ⟨0x300100, [(0x8, 4)],
    [⟨0, 64, .ro, 0x0, false, .por⟩]⟩]

/-- Registers of the WVL block. -/
def Reg.rowsWvl : List RegRow := [
  ⟨0x400000, [],
    [⟨0, 48, .rw, 0x0, false, .dev⟩]⟩,
  ⟨0x400008, [],
    [⟨0, 1, .wo, 0x0, false, .dev⟩]⟩,
  ⟨0x400010, [],
    [⟨0, 1, .ro, 0x0, false, .dev⟩,
     ⟨1, 1, .w1c, 0x0, false, .dev⟩,
     ⟨2, 1, .rw, 0x1, false, .dev⟩,
     ⟨16, 12, .ro, 0x0, false, .dev⟩]⟩,
  ⟨0x400100, [(0x200, 4)],
    [⟨0, 2, .ro, 0x0, false, .dev⟩]⟩,
  ⟨0x400108, [(0x200, 4)],
    [⟨0, 1, .wo, 0x0, false, .dev⟩]⟩,
  ⟨0x400110, [(0x200, 4)],
    [⟨0, 3, .ro, 0x0, false, .dev⟩,
     ⟨8, 5, .ro, 0x0, false, .dev⟩,
     ⟨16, 7, .ro, 0x0, false, .dev⟩,
     ⟨24, 6, .ro, 0x0, false, .dev⟩]⟩,
  ⟨0x400118, [(0x200, 4)],
    [⟨0, 64, .ro, 0x0, false, .dev⟩]⟩,
  ⟨0x400120, [(0x200, 4)],
    [⟨0, 64, .ro, 0x0, false, .dev⟩]⟩,
  ⟨0x400200, [(0x200, 4), (0x8, 32)],
    [⟨0, 5, .ro, 0x0, false, .dev⟩,
     ⟨8, 1, .ro, 0x0, false, .dev⟩]⟩]

/-- Registers of the ING block, part 1. -/
def Reg.rowsIng0 : List RegRow := [
  ⟨0x500000, [],
    [⟨0, 64, .w1c, 0x0, false, .dev⟩]⟩,
  ⟨0x500010, [],
    [⟨0, 48, .rw, 0x0, false, .dev⟩]⟩,
  ⟨0x500018, [],
    [⟨0, 48, .rw, 0x0, false, .dev⟩]⟩,
  ⟨0x500020, [],
    [⟨0, 48, .ro, 0x0, false, .dev⟩]⟩,
  ⟨0x500028, [],
    [⟨0, 1, .rw, 0x0, false, .dev⟩,
     ⟨1, 1, .rw, 0x0, false, .dev⟩]⟩,
  ⟨0x500030, [],
    [⟨0, 48, .rw, 0x0, false, .dev⟩]⟩,
  ⟨0x500038, [],
    [⟨0, 32, .ro, 0x0, false, .dev⟩]⟩,
  ⟨0x500040, [],
    [⟨0, 32, .ro, 0x0, false, .dev⟩]⟩,
  ⟨0x500100, [(0x200, 4)],
    [⟨0, 9, .rw, 0x1, false, .dev⟩]⟩,
  ⟨0x500200, [(0x200, 4), (0x8, 32)],
    [⟨0, 64, .rw, 0x0, false, .dev⟩]⟩,
  ⟨0x501000, [(0x100, 64)],
    [⟨0, 2, .rw, 0x0, false, .dev⟩,
     ⟨16, 10, .rw, 0x0, false, .dev⟩,
     ⟨32, 5, .rw, 0x0, false, .dev⟩,
     ⟨40, 4, .rw, 0x0, false, .dev⟩,
     ⟨48, 1, .rw, 0x0, false, .dev⟩]⟩,
  ⟨0x501008, [(0x100, 64)],
    [⟨0, 48, .rw, 0x0, false, .dev⟩]⟩]

/-- Registers of the ING block, part 2. -/
def Reg.rowsIng1 : List RegRow := [
  ⟨0x501010, [(0x100, 64)],
    [⟨0, 32, .rw, 0x0, false, .dev⟩]⟩,
  ⟨0x501018, [(0x100, 64)],
    [⟨0, 48, .rw, 0x0, false, .dev⟩]⟩,
  ⟨0x501020, [(0x100, 64)],
    [⟨0, 32, .ro, 0x0, false, .dev⟩]⟩,
  ⟨0x501028, [(0x100, 64)],
    [⟨0, 32, .rw, 0x0, false, .dev⟩]⟩,
  ⟨0x501030, [(0x100, 64)],
    [⟨0, 1, .wo, 0x0, false, .dev⟩,
     ⟨1, 1, .wo, 0x0, false, .dev⟩]⟩,
  ⟨0x501038, [(0x100, 64)],
    [⟨0, 2, .ro, 0x0, false, .dev⟩]⟩,
  ⟨0x501040, [(0x100, 64)],
    [⟨0, 32, .ro, 0x0, false, .dev⟩]⟩,
  ⟨0x501048, [(0x100, 64)],
    [⟨0, 32, .ro, 0x0, false, .dev⟩]⟩,
  ⟨0x501050, [(0x100, 64)],
    [⟨0, 32, .ro, 0x0, false, .dev⟩]⟩,
  ⟨0x501058, [(0x100, 64)],
    [⟨0, 32, .ro, 0x0, false, .dev⟩]⟩,
  ⟨0x501060, [(0x100, 64)],
    [⟨0, 32, .ro, 0x0, false, .dev⟩]⟩,
  ⟨0x501068, [(0x100, 64)],
    [⟨0, 16, .ro, 0x0, false, .dev⟩]⟩]

/-- Registers of the ETH block, part 1. -/
def Reg.rowsEth0 : List RegRow := [
  ⟨0x600000, [],
    [⟨0, 16, .rw, 0x9C40, false, .dev⟩]⟩,
  ⟨0x601000, [(0x200, 6)],
    [⟨0, 3, .rw, 0x0, true, .dev⟩,
     ⟨3, 1, .rw, 0x0, false, .dev⟩,
     ⟨4, 1, .rw, 0x0, true, .dev⟩]⟩,
  ⟨0x601008, [(0x200, 6)],
    [⟨0, 48, .rw, 0x0, false, .part⟩]⟩,
  ⟨0x601010, [(0x200, 6)],
    [⟨0, 32, .rw, 0x0, false, .dev⟩]⟩,
  ⟨0x601018, [(0x200, 6)],
    [⟨0, 64, .rw, 0x0, false, .dev⟩]⟩,
  ⟨0x601020, [(0x200, 6)],
    [⟨0, 64, .rw, 0x0, false, .dev⟩]⟩,
  ⟨0x601028, [(0x200, 6)],
    [⟨0, 24, .rw, 0x0, true, .dev⟩]⟩,
  ⟨0x601030, [(0x200, 6)],
    [⟨0, 1, .ro, 0x0, false, .dev⟩,
     ⟨1, 1, .ro, 0x0, false, .dev⟩,
     ⟨2, 1, .ro, 0x0, false, .dev⟩]⟩,
  ⟨0x601038, [(0x200, 6)],
    [⟨0, 1, .rw, 0x0, false, .dev⟩]⟩,
  ⟨0x601040, [(0x200, 6)],
    [⟨0, 16, .ro, 0x0, false, .dev⟩,
     ⟨16, 16, .ro, 0x0, false, .dev⟩]⟩,
  ⟨0x601048, [(0x200, 6)],
    [⟨0, 32, .rw, 0x0, false, .dev⟩]⟩,
  ⟨0x601050, [(0x200, 6)],
    [⟨0, 32, .ro, 0x0, false, .dev⟩]⟩]

/-- Registers of the ETH block, part 2. -/
def Reg.rowsEth1 : List RegRow := [
  ⟨0x601058, [(0x200, 6)],
    [⟨0, 32, .ro, 0x0, false, .dev⟩]⟩,
  ⟨0x601060, [(0x200, 6)],
    [⟨0, 2, .rw, 0x0, false, .dev⟩]⟩,
  ⟨0x601068, [(0x200, 6)],
    [⟨0, 1, .rw, 0x0, false, .dev⟩]⟩,
  ⟨0x601070, [(0x200, 6)],
    [⟨0, 48, .rc, 0x0, false, .dev⟩]⟩,
  ⟨0x601080, [(0x200, 6)],
    [⟨0, 48, .rw, 0x0, false, .dev⟩]⟩,
  ⟨0x601088, [(0x200, 6)],
    [⟨0, 48, .rw, 0x0, false, .dev⟩]⟩,
  ⟨0x601090, [(0x200, 6)],
    [⟨0, 4, .rw, 0x4, false, .dev⟩]⟩,
  ⟨0x601098, [(0x200, 6)],
    [⟨0, 32, .rw, 0x0, false, .dev⟩]⟩,
  ⟨0x6010A0, [(0x200, 6)],
    [⟨0, 32, .ro, 0x0, false, .dev⟩]⟩,
  ⟨0x6010A8, [(0x200, 6)],
    [⟨0, 32, .rw, 0x0, false, .dev⟩]⟩,
  ⟨0x6010B0, [(0x200, 6)],
    [⟨0, 32, .ro, 0x0, false, .dev⟩]⟩,
  ⟨0x6010B8, [(0x200, 6)],
    [⟨0, 32, .ro, 0x0, false, .dev⟩]⟩]

/-- Registers of the ETH block, part 3. -/
def Reg.rowsEth2 : List RegRow := [
  ⟨0x6010C0, [(0x200, 6)],
    [⟨0, 32, .ro, 0x0, false, .dev⟩]⟩,
  ⟨0x6010D0, [(0x200, 6), (0x8, 8)],
    [⟨0, 48, .rw, 0x0, false, .dev⟩,
     ⟨48, 1, .rw, 0x0, false, .dev⟩]⟩,
  ⟨0x601140, [(0x200, 6)],
    [⟨0, 48, .rw, 0x0, true, .dev⟩]⟩,
  ⟨0x601148, [(0x200, 6)],
    [⟨0, 48, .rw, 0x0, true, .dev⟩]⟩,
  ⟨0x601150, [(0x200, 6)],
    [⟨0, 4, .rw, 0x4, true, .dev⟩]⟩,
  ⟨0x601158, [(0x200, 6)],
    [⟨0, 32, .rw, 0x0, true, .dev⟩]⟩,
  ⟨0x601160, [(0x200, 6)],
    [⟨0, 32, .ro, 0x0, true, .dev⟩]⟩,
  ⟨0x601168, [(0x200, 6)],
    [⟨0, 32, .rw, 0x0, true, .dev⟩]⟩,
  ⟨0x601170, [(0x200, 6)],
    [⟨0, 32, .ro, 0x0, true, .dev⟩]⟩,
  ⟨0x680000, [(0x40, 1024), (0x8, 8)],
    [⟨0, 64, .rw, 0x0, false, .dev⟩]⟩]

/-- Registers of the QSK block, part 1. -/
def Reg.rowsQsk0 : List RegRow := [
  ⟨0x700000, [],
    [⟨0, 32, .rw, 0x0, false, .dev⟩,
     ⟨32, 2, .rw, 0x0, false, .dev⟩,
     ⟨34, 2, .rw, 0x0, false, .dev⟩,
     ⟨36, 2, .rw, 0x0, false, .dev⟩,
     ⟨40, 2, .rw, 0x0, false, .dev⟩]⟩,
  ⟨0x700008, [],
    [⟨0, 1, .rw, 0x0, true, .dev⟩,
     ⟨4, 3, .rw, 0x0, true, .dev⟩]⟩,
  ⟨0x700010, [],
    [⟨0, 1, .ro, 0x0, false, .dev⟩]⟩,
  ⟨0x700018, [],
    [⟨0, 1, .wo, 0x0, false, .dev⟩]⟩,
  ⟨0x700100, [(0x8, 64)],
    [⟨0, 3, .rw, 0x0, false, .dev⟩,
     ⟨3, 1, .rw, 0x0, false, .dev⟩]⟩,
  ⟨0x701000, [(0x100, 8)],
    [⟨0, 1, .rw, 0x0, false, .dev⟩]⟩,
  ⟨0x701008, [(0x100, 8)],
    [⟨0, 3, .ro, 0x0, false, .dev⟩,
     ⟨8, 4, .ro, 0x0, false, .dev⟩]⟩,
  ⟨0x701010, [(0x100, 8)],
    [⟨0, 32, .ro, 0x0, false, .dev⟩]⟩,
  ⟨0x701018, [(0x100, 8)],
    [⟨0, 32, .ro, 0x0, false, .dev⟩]⟩,
  ⟨0x701020, [(0x100, 8)],
    [⟨0, 32, .ro, 0x0, false, .dev⟩]⟩,
  ⟨0x701028, [(0x100, 8)],
    [⟨0, 1, .rw, 0x0, false, .dev⟩]⟩,
  ⟨0x701030, [(0x100, 8)],
    [⟨0, 4, .rw, 0x0, false, .dev⟩]⟩]

/-- Registers of the QSK block, part 2. -/
def Reg.rowsQsk1 : List RegRow := [
  ⟨0x701038, [(0x100, 8), (0x8, 4)],
    [⟨0, 48, .rc, 0x0, false, .dev⟩]⟩,
  ⟨0x702000, [(0x20, 4)],
    [⟨0, 6, .rw, 0x0, false, .dev⟩,
     ⟨8, 2, .rw, 0x0, false, .dev⟩,
     ⟨16, 1, .rw, 0x0, false, .dev⟩]⟩,
  ⟨0x702008, [(0x20, 4)],
    [⟨0, 64, .rw, 0x0, false, .dev⟩]⟩,
  ⟨0x702010, [(0x20, 4)],
    [⟨0, 10, .rw, 0x64, false, .dev⟩]⟩]

/-- Registers of the BGW block, part 1. -/
def Reg.rowsBgw0 : List RegRow := [
  ⟨0x800000, [],
    [⟨0, 1, .ro, 0x0, false, .dev⟩]⟩,
  ⟨0x800008, [],
    [⟨0, 1, .rw, 0x0, false, .dev⟩,
     ⟨1, 1, .rw, 0x0, false, .dev⟩,
     ⟨4, 10, .rw, 0x3E8, false, .dev⟩,
     ⟨32, 16, .rw, 0x0, false, .dev⟩]⟩,
  ⟨0x800010, [],
    [⟨0, 2, .ro, 0x0, false, .part⟩,
     ⟨2, 2, .ro, 0x0, false, .dev⟩]⟩,
  ⟨0x800020, [(0x8, 2)],
    [⟨0, 32, .ro, 0x0, false, .dev⟩]⟩,
  ⟨0x800030, [],
    [⟨0, 48, .rw, 0x0, false, .dev⟩]⟩,
  ⟨0x800038, [],
    [⟨0, 1, .rw, 0x0, false, .dev⟩,
     ⟨8, 4, .rw, 0x4, false, .dev⟩]⟩,
  ⟨0x800040, [],
    [⟨0, 32, .ro, 0x0, false, .dev⟩]⟩,
  ⟨0x800048, [],
    [⟨0, 32, .rw, 0x0, false, .dev⟩]⟩,
  ⟨0x800100, [(0x80, 2), (0x8, 8)],
    [⟨0, 64, .rw, 0x0, false, .dev⟩]⟩,
  ⟨0x800140, [(0x80, 2)],
    [⟨0, 1, .wo, 0x0, false, .dev⟩]⟩,
  ⟨0x800148, [(0x80, 2)],
    [⟨0, 32, .ro, 0x0, false, .dev⟩]⟩,
  ⟨0x800150, [(0x80, 2)],
    [⟨0, 32, .ro, 0x0, false, .dev⟩]⟩]

/-- Registers of the BGW block, part 2. -/
def Reg.rowsBgw1 : List RegRow := [
  ⟨0x800158, [(0x80, 2)],
    [⟨0, 5, .ro, 0x0, false, .dev⟩]⟩,
  ⟨0x800200, [(0x40, 2)],
    [⟨0, 32, .wo, 0x0, false, .dev⟩]⟩,
  ⟨0x800208, [(0x40, 2)],
    [⟨0, 32, .wo, 0x0, false, .dev⟩]⟩,
  ⟨0x800210, [(0x40, 2)],
    [⟨0, 1, .wo, 0x0, false, .dev⟩]⟩,
  ⟨0x801000, [(0x20, 128)],
    [⟨0, 1, .rw, 0x0, false, .dev⟩,
     ⟨8, 4, .rw, 0x4, false, .dev⟩]⟩,
  ⟨0x801008, [(0x20, 128)],
    [⟨0, 48, .rw, 0x0, false, .dev⟩]⟩,
  ⟨0x801010, [(0x20, 128)],
    [⟨0, 32, .ro, 0x0, false, .dev⟩]⟩,
  ⟨0x801018, [(0x20, 128)],
    [⟨0, 32, .rw, 0x0, false, .dev⟩]⟩]

/-- Registers of the SOL block, part 1. -/
def Reg.rowsSol0 : List RegRow := [
  ⟨0x900000, [],
    [⟨0, 1, .rw, 0x0, false, .dev⟩,
     ⟨1, 2, .rw, 0x0, false, .dev⟩,
     ⟨4, 4, .rw, 0x0, false, .dev⟩,
     ⟨8, 4, .rw, 0x0, false, .dev⟩,
     ⟨12, 11, .rw, 0x0, false, .dev⟩,
     ⟨24, 4, .rw, 0x0, false, .dev⟩,
     ⟨32, 32, .rw, 0x0, false, .dev⟩]⟩,
  ⟨0x900008, [],
    [⟨0, 48, .rw, 0x0, false, .dev⟩]⟩,
  ⟨0x900010, [],
    [⟨0, 13, .rw, 0x0, false, .dev⟩]⟩,
  ⟨0x900018, [],
    [⟨0, 48, .rw, 0x0, false, .dev⟩]⟩,
  ⟨0x900020, [],
    [⟨0, 48, .rw, 0x0, false, .dev⟩]⟩,
  ⟨0x900028, [],
    [⟨0, 4, .rw, 0x0, false, .dev⟩]⟩,
  ⟨0x900030, [],
    [⟨0, 32, .rw, 0x0, false, .dev⟩]⟩,
  ⟨0x900038, [],
    [⟨0, 32, .ro, 0x0, false, .dev⟩]⟩,
  ⟨0x900040, [],
    [⟨0, 12, .rw, 0x0, false, .dev⟩]⟩,
  ⟨0x900048, [],
    [⟨0, 12, .wo, 0x0, true, .dev⟩,
     ⟨32, 32, .wo, 0x0, true, .dev⟩]⟩,
  ⟨0x900050, [],
    [⟨0, 48, .ro, 0x0, false, .dev⟩]⟩,
  ⟨0x900058, [],
    [⟨0, 1, .wo, 0x0, false, .dev⟩,
     ⟨1, 1, .ro, 0x0, false, .dev⟩,
     ⟨2, 1, .ro, 0x0, false, .dev⟩]⟩]

/-- Registers of the SOL block, part 2. -/
def Reg.rowsSol1 : List RegRow := [
  ⟨0x900400, [(0x8, 128)],
    [⟨0, 32, .ro, 0x0, false, .dev⟩]⟩]

/-- Registers of the PCI block. -/
def Reg.rowsPci : List RegRow := [
  ⟨0xA00000, [(0x8, 8)],
    [⟨0, 1, .rw, 0x0, false, .dev⟩,
     ⟨8, 18, .rw, 0x0, false, .dev⟩]⟩,
  ⟨0xA00040, [],
    [⟨0, 3, .ro, 0x0, false, .dev⟩,
     ⟨4, 5, .ro, 0x0, false, .dev⟩,
     ⟨12, 1, .ro, 0x0, false, .dev⟩]⟩,
  ⟨0xA00048, [],
    [⟨0, 32, .ro, 0x0, false, .dev⟩]⟩]

/-- Registers of the CC block, part 1. -/
def Reg.rowsCc0 : List RegRow := [
  ⟨0x1000000, [(0x100000, 32), (0x30000, 4), (0x300, 256)],
    [⟨0, 64, .rw, 0x0, false, .dev⟩]⟩,
  ⟨0x1000008, [(0x100000, 32), (0x30000, 4), (0x300, 256)],
    [⟨0, 64, .rw, 0x0, false, .dev⟩]⟩,
  ⟨0x1000010, [(0x100000, 32), (0x30000, 4), (0x300, 256)],
    [⟨0, 64, .rw, 0x0, false, .dev⟩]⟩,
  ⟨0x1000020, [(0x100000, 32), (0x30000, 4), (0x300, 256), (0x8, 16)],
    [⟨0, 64, .rw, 0x0, false, .dev⟩]⟩,
  ⟨0x10000A0, [(0x100000, 32), (0x30000, 4), (0x300, 256), (0x8, 28)],
    [⟨0, 64, .rw, 0x0, false, .dev⟩]⟩,
  ⟨0x1000180, [(0x100000, 32), (0x30000, 4), (0x300, 256), (0x8, 32)],
    [⟨0, 64, .rw, 0x0, false, .dev⟩]⟩,
  ⟨0x10C0000, [(0x100000, 32), (0x8, 4096)],
    [⟨0, 64, .rw, 0x0, false, .dev⟩]⟩,
  ⟨0x10C8000, [(0x100000, 32), (0x400, 4), (0x8, 128)],
    [⟨0, 64, .rw, 0x0, false, .dev⟩]⟩,
  ⟨0x10C9000, [(0x100000, 32), (0x400, 4), (0x8, 128)],
    [⟨0, 64, .rw, 0x0, false, .dev⟩]⟩,
  ⟨0x10D0000, [(0x100000, 32), (0x1000, 4)],
    [⟨0, 6, .rw, 0x0, false, .dev⟩]⟩,
  ⟨0x10D0008, [(0x100000, 32), (0x1000, 4)],
    [⟨0, 5, .rw, 0x0, false, .dev⟩,
     ⟨8, 6, .rw, 0x0, false, .dev⟩,
     ⟨16, 16, .rw, 0x0, false, .dev⟩]⟩,
  ⟨0x10D0010, [(0x100000, 32), (0x1000, 4)],
    [⟨0, 32, .rw, 0x0, false, .dev⟩]⟩]

/-- Registers of the CC block, part 2. -/
def Reg.rowsCc1 : List RegRow := [
  ⟨0x10D0040, [(0x100000, 32), (0x1000, 4), (0x8, 16)],
    [⟨0, 64, .rw, 0x0, false, .dev⟩]⟩,
  ⟨0x10D0100, [(0x100000, 32), (0x1000, 4), (0x10, 8), (0x8, 2)],
    [⟨0, 64, .rw, 0x0, false, .dev⟩]⟩,
  ⟨0x10D0200, [(0x100000, 32), (0x1000, 4), (0x20, 8), (0x8, 4)],
    [⟨0, 64, .rw, 0x0, false, .dev⟩]⟩,
  ⟨0x10D0300, [(0x100000, 32), (0x1000, 4), (0x10, 8), (0x8, 2)],
    [⟨0, 64, .rw, 0x0, false, .dev⟩]⟩,
  ⟨0x10D0380, [(0x100000, 32), (0x1000, 4), (0x8, 2)],
    [⟨0, 64, .rw, 0x0, false, .dev⟩]⟩,
  ⟨0x10D0400, [(0x100000, 32), (0x1000, 4), (0x10, 8), (0x8, 2)],
    [⟨0, 64, .rw, 0x0, false, .dev⟩]⟩,
  ⟨0x10D0500, [(0x100000, 32), (0x1000, 4), (0x8, 16)],
    [⟨0, 64, .rw, 0x0, false, .dev⟩]⟩,
  ⟨0x10D0580, [(0x100000, 32), (0x1000, 4), (0x8, 8)],
    [⟨0, 22, .rw, 0x0, false, .dev⟩]⟩,
  ⟨0x10E0000, [(0x100000, 32)],
    [⟨0, 2, .ro, 0x0, false, .dev⟩,
     ⟨8, 8, .ro, 0x0, false, .dev⟩,
     ⟨16, 1, .ro, 0x0, false, .dev⟩,
     ⟨17, 1, .ro, 0x0, false, .dev⟩]⟩,
  ⟨0x10E0008, [(0x100000, 32)],
    [⟨0, 30, .rw, 0x0, false, .dev⟩]⟩,
  ⟨0x10E0010, [(0x100000, 32)],
    [⟨0, 30, .rw, 0x0, false, .dev⟩]⟩,
  ⟨0x10E0018, [(0x100000, 32)],
    [⟨0, 8, .rw, 0x0, false, .dev⟩,
     ⟨8, 1, .rw, 0x0, false, .dev⟩]⟩]

/-- Registers of the CC block, part 3. -/
def Reg.rowsCc2 : List RegRow := [
  ⟨0x10E0020, [(0x100000, 32)],
    [⟨0, 4, .ro, 0x0, false, .dev⟩]⟩,
  ⟨0x10E0028, [(0x100000, 32)],
    [⟨0, 1, .wo, 0x0, false, .dev⟩,
     ⟨1, 1, .ro, 0x0, false, .dev⟩,
     ⟨2, 1, .ro, 0x0, false, .dev⟩]⟩,
  ⟨0x10E0030, [(0x100000, 32)],
    [⟨0, 16, .rc, 0x0, false, .dev⟩]⟩,
  ⟨0x10E0100, [(0x100000, 32)],
    [⟨0, 1, .wo, 0x0, false, .dev⟩,
     ⟨1, 1, .wo, 0x0, false, .dev⟩,
     ⟨2, 1, .rw, 0x0, false, .dev⟩,
     ⟨8, 8, .rw, 0x0, false, .dev⟩]⟩,
  ⟨0x10E0180, [(0x100000, 32), (0x8, 16)],
    [⟨0, 48, .ro, 0x0, false, .dev⟩]⟩,
  ⟨0x10E0200, [(0x100000, 32), (0x8, 16)],
    [⟨0, 48, .ro, 0x0, false, .dev⟩]⟩,
  ⟨0x10E0280, [(0x100000, 32)],
    [⟨0, 64, .ro, 0x0, false, .dev⟩]⟩,
  ⟨0x10E1000, [(0x100000, 32)],
    [⟨0, 5, .rw, 0x0, false, .dev⟩,
     ⟨16, 12, .rw, 0x0, false, .dev⟩,
     ⟨31, 1, .wo, 0x0, false, .dev⟩,
     ⟨32, 2, .ro, 0x0, false, .dev⟩,
     ⟨40, 5, .ro, 0x0, false, .dev⟩]⟩,
  ⟨0x10E1008, [(0x100000, 32), (0x8, 4)],
    [⟨0, 64, .rw, 0x0, false, .dev⟩]⟩,
  ⟨0x10E1040, [(0x100000, 32)],
    [⟨0, 16, .wo, 0x0, false, .dev⟩,
     ⟨16, 16, .wo, 0x0, false, .dev⟩]⟩,
  ⟨0x10E1100, [(0x100000, 32), (0x8, 16)],
    [⟨0, 3, .ro, 0x0, false, .dev⟩,
     ⟨3, 1, .ro, 0x0, false, .dev⟩,
     ⟨4, 4, .ro, 0x0, false, .dev⟩,
     ⟨16, 12, .ro, 0x0, false, .dev⟩,
     ⟨32, 7, .ro, 0x0, false, .dev⟩,
     ⟨48, 8, .ro, 0x0, false, .dev⟩]⟩]

/-- Registers of the MC block, part 1. -/
def Reg.rowsMc0 : List RegRow := [
  ⟨0x3000000, [(0x100000, 4)],
    [⟨0, 8, .ro, 0x0, false, .dev⟩,
     ⟨8, 1, .ro, 0x0, false, .dev⟩]⟩,
  ⟨0x3000008, [(0x100000, 4)],
    [⟨0, 1, .wo, 0x0, true, .dev⟩,
     ⟨1, 1, .ro, 0x0, false, .dev⟩]⟩,
  ⟨0x3000010, [(0x100000, 4)],
    [⟨0, 16, .rw, 0x0, true, .dev⟩,
     ⟨16, 16, .ro, 0x0, false, .dev⟩]⟩,
  ⟨0x3000018, [(0x100000, 4)],
    [⟨0, 4, .rw, 0x3, false, .dev⟩]⟩,
  ⟨0x3000020, [(0x100000, 4)],
    [⟨0, 7, .ro, 0x0, false, .dev⟩]⟩,
  ⟨0x3000028, [(0x100000, 4)],
    [⟨0, 48, .rc, 0x0, false, .dev⟩]⟩,
  ⟨0x3000030, [(0x100000, 4)],
    [⟨0, 48, .rc, 0x0, false, .dev⟩]⟩,
  ⟨0x3000038, [(0x100000, 4)],
    [⟨0, 1, .rw, 0x0, false, .dev⟩]⟩,
  ⟨0x3000040, [(0x100000, 4)],
    [⟨0, 4, .rw, 0x0, false, .dev⟩,
     ⟨8, 1, .rw, 0x0, false, .dev⟩,
     ⟨32, 25, .rw, 0x0, false, .dev⟩]⟩,
  ⟨0x3000048, [(0x100000, 4)],
    [⟨0, 32, .rw, 0x0, false, .dev⟩]⟩,
  ⟨0x3001000, [(0x100000, 4), (0x100, 16)],
    [⟨0, 1, .ro, 0x0, false, .dev⟩,
     ⟨4, 4, .ro, 0x0, false, .dev⟩,
     ⟨8, 8, .ro, 0x0, false, .dev⟩]⟩,
  ⟨0x3001008, [(0x100000, 4), (0x100, 16)],
    [⟨0, 32, .rc, 0x0, false, .dev⟩,
     ⟨32, 32, .rc, 0x0, false, .dev⟩]⟩]

/-- Registers of the MC block, part 2. -/
def Reg.rowsMc1 : List RegRow := [
  ⟨0x3001010, [(0x100000, 4), (0x100, 16)],
    [⟨0, 32, .rc, 0x0, false, .dev⟩,
     ⟨32, 32, .rc, 0x0, false, .dev⟩]⟩,
  ⟨0x3001018, [(0x100000, 4), (0x100, 16)],
    [⟨0, 32, .rc, 0x0, false, .dev⟩]⟩,
  ⟨0x3001020, [(0x100000, 4), (0x100, 16)],
    [⟨0, 30, .ro, 0x0, false, .dev⟩,
     ⟨32, 3, .ro, 0x0, false, .dev⟩]⟩,
  ⟨0x3001040, [(0x100000, 4), (0x100, 16)],
    [⟨0, 1, .wo, 0x0, false, .dev⟩,
     ⟨1, 1, .ro, 0x0, false, .dev⟩,
     ⟨2, 1, .ro, 0x0, false, .dev⟩,
     ⟨3, 1, .ro, 0x0, false, .dev⟩,
     ⟨4, 2, .rw, 0x0, false, .dev⟩,
     ⟨6, 2, .rw, 0x0, false, .dev⟩,
     ⟨8, 1, .rw, 0x0, false, .dev⟩,
     ⟨16, 16, .rw, 0x1, false, .dev⟩]⟩,
  ⟨0x3001048, [(0x100000, 4), (0x100, 16)],
    [⟨0, 25, .rw, 0x0, false, .dev⟩,
     ⟨32, 25, .rw, 0x0, false, .dev⟩]⟩,
  ⟨0x3001050, [(0x100000, 4), (0x100, 16)],
    [⟨0, 24, .rw, 0x1, false, .dev⟩]⟩,
  ⟨0x3001058, [(0x100000, 4), (0x100, 16)],
    [⟨0, 31, .rw, 0x1, false, .dev⟩]⟩,
  ⟨0x3001060, [(0x100000, 4), (0x100, 16)],
    [⟨0, 64, .rw, 0x0, false, .dev⟩]⟩,
  ⟨0x3001068, [(0x100000, 4), (0x100, 16)],
    [⟨0, 48, .ro, 0x0, false, .dev⟩]⟩,
  ⟨0x3001070, [(0x100000, 4), (0x100, 16)],
    [⟨0, 25, .ro, 0x0, false, .dev⟩,
     ⟨32, 1, .ro, 0x0, false, .dev⟩]⟩,
  ⟨0x3001078, [(0x100000, 4), (0x100, 16)],
    [⟨0, 64, .ro, 0x0, false, .dev⟩]⟩,
  ⟨0x3001080, [(0x100000, 4), (0x100, 16)],
    [⟨0, 32, .ro, 0x0, false, .dev⟩,
     ⟨32, 32, .ro, 0x0, false, .dev⟩]⟩]

/-- Registers of the MC block, part 3. -/
def Reg.rowsMc2 : List RegRow := [
  ⟨0x3001088, [(0x100000, 4), (0x100, 16)],
    [⟨0, 32, .ro, 0x0, false, .dev⟩]⟩,
  ⟨0x3001090, [(0x100000, 4), (0x100, 16)],
    [⟨0, 48, .ro, 0x0, false, .dev⟩]⟩]

/-- The rows of the block that holds an offset (Table 22-1, R565). -/
def Reg.rowsAt (off : Nat) : List RegRow :=
  match off / 0x100000 with
  | 0 => Reg.rowsMgt0 ++ Reg.rowsMgt1 ++ Reg.rowsMgt2
  | 1 => Reg.rowsAlm0 ++ Reg.rowsAlm1
  | 2 => Reg.rowsPwr0 ++ Reg.rowsPwr1 ++ Reg.rowsPwr2
  | 3 => Reg.rowsFlt0 ++ Reg.rowsFlt1
  | 4 => Reg.rowsWvl
  | 5 => Reg.rowsIng0 ++ Reg.rowsIng1
  | 6 => Reg.rowsEth0 ++ Reg.rowsEth1 ++ Reg.rowsEth2
  | 7 => Reg.rowsQsk0 ++ Reg.rowsQsk1
  | 8 => Reg.rowsBgw0 ++ Reg.rowsBgw1
  | 9 => Reg.rowsSol0 ++ Reg.rowsSol1
  | 10 => Reg.rowsPci
  | b => if 16 ≤ b ∧ b < 48 then Reg.rowsCc0 ++ Reg.rowsCc1 ++ Reg.rowsCc2 else if 48 ≤ b ∧ b < 52 then Reg.rowsMc0 ++ Reg.rowsMc1 ++ Reg.rowsMc2 else []

/-- Whether a residue is reached by the index dimensions. -/
def Reg.dimsHit : List (Nat × Nat) → Nat → Bool
  | [], r => r == 0
  | (st, n) :: ds, r => decide (r / st < n) && Reg.dimsHit ds (r % st)

/-- Whether a row holds the register at an offset. -/
def Reg.rowHit (r : RegRow) (off : Nat) : Bool :=
  decide (r.base ≤ off) && Reg.dimsHit r.dims (off - r.base)

/-- The row of the register at an offset, if a table lists one (R542). -/
def Reg.row (off : Nat) : Option RegRow :=
  (Reg.rowsAt off).find? (fun r => Reg.rowHit r off)

/-- The fields of the register at an offset, none for an unlisted offset. -/
def Reg.fields (off : Nat) : List RegFld :=
  match Reg.row off with
  | some r => r.fields
  | none => []

/-- The reset word of a list of fields. -/
def Reg.resetWord (fs : List RegFld) : Nat :=
  fs.foldl (fun a f => a + f.reset * 2 ^ f.lo) 0

/-- The reset value of the register at an offset (R544); 0 for an unlisted offset (R542). -/
def Reg.reset (off : Nat) : W64 := BitVec.ofNat 64 (Reg.resetWord (Reg.fields off))

/-- MGT_REVID.DIE, Table 22-2. -/
def Reg.MGT_REVID_DIE : Fld := ⟨0x0, 0, 16⟩
/-- MGT_REVID.STEP, Table 22-2. -/
def Reg.MGT_REVID_STEP : Fld := ⟨0x0, 16, 8⟩
/-- MGT_REVID.GRADE, Table 22-2. -/
def Reg.MGT_REVID_GRADE : Fld := ⟨0x0, 24, 2⟩
/-- MGT_CORE_MASK, Table 22-2. -/
def Reg.MGT_CORE_MASK : Fld := ⟨0x8, 0, 32⟩
/-- MGT_CORE_LOST, Table 22-2. -/
def Reg.MGT_CORE_LOST : Fld := ⟨0x10, 0, 32⟩
/-- MGT_DEVNUM, Table 22-2. -/
def Reg.MGT_DEVNUM : Fld := ⟨0x18, 0, 6⟩
/-- MGT_STRAP.BOOT_SRC, Table 22-2. -/
def Reg.MGT_STRAP_BOOT_SRC : Fld := ⟨0x20, 0, 2⟩
/-- MGT_STRAP.DEBUG, Table 22-2. -/
def Reg.MGT_STRAP_DEBUG : Fld := ⟨0x20, 2, 1⟩
/-- MGT_RESET_CAUSE, Table 22-2. -/
def Reg.MGT_RESET_CAUSE : Fld := ⟨0x28, 0, 4⟩
/-- MGT_BOOT_STAT.PHASE, Table 22-2. -/
def Reg.MGT_BOOT_STAT_PHASE : Fld := ⟨0x30, 0, 8⟩
/-- MGT_BOOT_STAT.ERROR, Table 22-2. -/
def Reg.MGT_BOOT_STAT_ERROR : Fld := ⟨0x30, 8, 7⟩
/-- MGT_BOOT_STAT.BANK, Table 22-2. -/
def Reg.MGT_BOOT_STAT_BANK : Fld := ⟨0x30, 15, 1⟩
/-- MGT_BOOT_PCIE.LEN, Table 22-2. -/
def Reg.MGT_BOOT_PCIE_LEN : Fld := ⟨0x38, 0, 32⟩
/-- MGT_BOOT_PCIE.GO, Table 22-2. -/
def Reg.MGT_BOOT_PCIE_GO : Fld := ⟨0x38, 32, 1⟩
/-- MGT_HCM_LOCK, Table 22-2. -/
def Reg.MGT_HCM_LOCK : Fld := ⟨0x40, 0, 1⟩
/-- MGT_OTP_REVOKE.SLOT, Table 22-2. -/
def Reg.MGT_OTP_REVOKE_SLOT : Fld := ⟨0x48, 0, 2⟩
/-- MGT_OTP_REVOKE.KIND, Table 22-2. -/
def Reg.MGT_OTP_REVOKE_KIND : Fld := ⟨0x48, 2, 1⟩
/-- MGT_OTP_REVOKE.GO, Table 22-2. -/
def Reg.MGT_OTP_REVOKE_GO : Fld := ⟨0x48, 8, 1⟩
/-- MGT_OTP_STAT.STW_PROG, Table 22-2. -/
def Reg.MGT_OTP_STAT_STW_PROG : Fld := ⟨0x50, 0, 4⟩
/-- MGT_OTP_STAT.STW_REVOKED, Table 22-2. -/
def Reg.MGT_OTP_STAT_STW_REVOKED : Fld := ⟨0x50, 4, 4⟩
/-- MGT_OTP_STAT.WV_PROG, Table 22-2. -/
def Reg.MGT_OTP_STAT_WV_PROG : Fld := ⟨0x50, 8, 4⟩
/-- MGT_OTP_STAT.WV_REVOKED, Table 22-2. -/
def Reg.MGT_OTP_STAT_WV_REVOKED : Fld := ⟨0x50, 12, 4⟩
/-- MGT_OTP_STAT.SVN, Table 22-2. -/
def Reg.MGT_OTP_STAT_SVN : Fld := ⟨0x50, 16, 7⟩
/-- MGT_OTP_STAT.DEBUG_PERMIT, Table 22-2. -/
def Reg.MGT_OTP_STAT_DEBUG_PERMIT : Fld := ⟨0x50, 24, 1⟩
/-- MGT_OTP_STAT.PCIE_BOOT_EN, Table 22-2. -/
def Reg.MGT_OTP_STAT_PCIE_BOOT_EN : Fld := ⟨0x50, 25, 1⟩
/-- MGT_HOST_WMASK, Table 22-2. -/
def Reg.MGT_HOST_WMASK : Fld := ⟨0x58, 0, 13⟩
/-- MGT_HOST_DENY.COUNT, Table 22-2. -/
def Reg.MGT_HOST_DENY_COUNT : Fld := ⟨0x60, 0, 16⟩
/-- MGT_HOST_DENY.ADDR, Table 22-2. -/
def Reg.MGT_HOST_DENY_ADDR : Fld := ⟨0x60, 16, 48⟩
/-- MGT_HCM_ECC.CORR, Table 22-2. -/
def Reg.MGT_HCM_ECC_CORR : Fld := ⟨0x68, 0, 16⟩
/-- MGT_HCM_ECC.UNCORR, Table 22-2. -/
def Reg.MGT_HCM_ECC_UNCORR : Fld := ⟨0x68, 16, 16⟩
/-- MGT_HCM_ECC.ADDR, Table 22-2. -/
def Reg.MGT_HCM_ECC_ADDR : Fld := ⟨0x68, 32, 25⟩
/-- MGT_HB_CFG.MISS_LIMIT, Table 22-2. -/
def Reg.MGT_HB_CFG_MISS_LIMIT : Fld := ⟨0x70, 0, 4⟩
/-- MGT_HB_CFG.REARM, Table 22-2. -/
def Reg.MGT_HB_CFG_REARM : Fld := ⟨0x70, 8, 1⟩
/-- MGT_HBM_CTL.COMMIT, Table 22-2. -/
def Reg.MGT_HBM_CTL_COMMIT : Fld := ⟨0x78, 0, 1⟩
/-- MGT_HBM_CTL.COMMITTED, Table 22-2. -/
def Reg.MGT_HBM_CTL_COMMITTED : Fld := ⟨0x78, 1, 1⟩
/-- MGT_HBM_CAP, Table 22-2. -/
def Reg.MGT_HBM_CAP : Fld := ⟨0x80, 0, 7⟩
/-- MGT_WDOG.KICK, Table 22-2. -/
def Reg.MGT_WDOG_KICK : Fld := ⟨0x88, 0, 1⟩
/-- MGT_WDOG.EXPIRED, Table 22-2. -/
def Reg.MGT_WDOG_EXPIRED : Fld := ⟨0x88, 1, 1⟩
/-- MGT_WDOG.ARMED, Table 22-2. -/
def Reg.MGT_WDOG_ARMED : Fld := ⟨0x88, 2, 1⟩
/-- MGT_STW_CTL.RESTART, Table 22-2. -/
def Reg.MGT_STW_CTL_RESTART : Fld := ⟨0x90, 0, 1⟩
/-- MGT_HART_START, Table 22-2. -/
def Reg.MGT_HART_START : Fld := ⟨0x98, 0, 4⟩
/-- MGT_HART_ENTRY, Table 22-2. -/
def Reg.MGT_HART_ENTRY : Fld := ⟨0xA0, 0, 48⟩
/-- MGT_MQ_PUSHDROP, Table 22-2. -/
def Reg.MGT_MQ_PUSHDROP : Fld := ⟨0xA8, 0, 32⟩
/-- MGT_IRQ_ROUTEs.DEST, Table 22-2. -/
def Reg.MGT_IRQ_ROUTE_DEST (n : Nat) : Fld := ⟨0x100 + 0x8 * n, 0, 2⟩
/-- MGT_IRQ_ROUTEs.VECTOR, Table 22-2. -/
def Reg.MGT_IRQ_ROUTE_VECTOR (n : Nat) : Fld := ⟨0x100 + 0x8 * n, 8, 6⟩
/-- MGT_MBXc_REQBASE, Table 22-2. -/
def Reg.MGT_MBX_REQBASE (n : Nat) : Fld := ⟨0x800 + 0x40 * n, 0, 48⟩
/-- MGT_MBXc_RSPBASE, Table 22-2. -/
def Reg.MGT_MBX_RSPBASE (n : Nat) : Fld := ⟨0x808 + 0x40 * n, 0, 48⟩
/-- MGT_MBXc_CTL.EN, Table 22-2. -/
def Reg.MGT_MBX_CTL_EN (n : Nat) : Fld := ⟨0x810 + 0x40 * n, 0, 1⟩
/-- MGT_MBXc_CTL.LOG2, Table 22-2. -/
def Reg.MGT_MBX_CTL_LOG2 (n : Nat) : Fld := ⟨0x810 + 0x40 * n, 8, 4⟩
/-- MGT_MBXc_REQ_WR, Table 22-2. -/
def Reg.MGT_MBX_REQ_WR (n : Nat) : Fld := ⟨0x818 + 0x40 * n, 0, 32⟩
/-- MGT_MBXc_REQ_RD, Table 22-2. -/
def Reg.MGT_MBX_REQ_RD (n : Nat) : Fld := ⟨0x820 + 0x40 * n, 0, 32⟩
/-- MGT_MBXc_RSP_WR, Table 22-2. -/
def Reg.MGT_MBX_RSP_WR (n : Nat) : Fld := ⟨0x828 + 0x40 * n, 0, 32⟩
/-- MGT_MBXc_RSP_RD, Table 22-2. -/
def Reg.MGT_MBX_RSP_RD (n : Nat) : Fld := ⟨0x830 + 0x40 * n, 0, 32⟩
/-- MGT_BARnn.EXPECT, Table 22-2. -/
def Reg.MGT_BAR_EXPECT (n : Nat) : Fld := ⟨0x1000 + 0x10 * n, 0, 10⟩
/-- MGT_BARnn.ARRIVED, Table 22-2. -/
def Reg.MGT_BAR_ARRIVED (n : Nat) : Fld := ⟨0x1000 + 0x10 * n, 16, 10⟩
/-- MGT_BARnn.GEN, Table 22-2. -/
def Reg.MGT_BAR_GEN (n : Nat) : Fld := ⟨0x1000 + 0x10 * n, 32, 16⟩
/-- MGT_BARnn_ARRIVE, Table 22-2. -/
def Reg.MGT_BAR_ARRIVE (n : Nat) : Fld := ⟨0x1008 + 0x10 * n, 0, 1⟩
/-- MGT_MQnnn_CFG.ENABLE, Table 22-2. -/
def Reg.MGT_MQ_CFG_ENABLE (n : Nat) : Fld := ⟨0x8000 + 0x80 * n, 0, 1⟩
/-- MGT_MQnnn_CFG.DEPTH, Table 22-2. -/
def Reg.MGT_MQ_CFG_DEPTH (n : Nat) : Fld := ⟨0x8000 + 0x80 * n, 1, 3⟩
/-- MGT_MQnnn_COUNT, Table 22-2. -/
def Reg.MGT_MQ_COUNT (n : Nat) : Fld := ⟨0x8008 + 0x80 * n, 0, 9⟩
/-- MGT_MQnnn_POP, Table 22-2. -/
def Reg.MGT_MQ_POP (n : Nat) (i : Nat) : Fld := ⟨0x8020 + 0x80 * n + 0x8 * i, 0, 64⟩
/-- MGT_MQnnn_PUSH, Table 22-2. -/
def Reg.MGT_MQ_PUSH (n : Nat) (i : Nat) : Fld := ⟨0x8040 + 0x80 * n + 0x8 * i, 0, 64⟩
/-- ALM_NOW_LO, Table 22-3. -/
def Reg.ALM_NOW_LO : Fld := ⟨0x100000, 0, 32⟩
/-- ALM_NOW_HI, Table 22-3. -/
def Reg.ALM_NOW_HI : Fld := ⟨0x100008, 0, 32⟩
/-- ALM_NOW_FRAC, Table 22-3. -/
def Reg.ALM_NOW_FRAC : Fld := ⟨0x100010, 0, 16⟩
/-- ALM_RATE, Table 22-3. -/
def Reg.ALM_RATE : Fld := ⟨0x100018, 0, 32⟩
/-- ALM_SLEW, Table 22-3. -/
def Reg.ALM_SLEW : Fld := ⟨0x100020, 0, 32⟩
/-- ALM_SLEW_REM, Table 22-3. -/
def Reg.ALM_SLEW_REM : Fld := ⟨0x100028, 0, 32⟩
/-- ALM_STEP.FRAC, Table 22-3. -/
def Reg.ALM_STEP_FRAC : Fld := ⟨0x100030, 0, 16⟩
/-- ALM_STEP.NS, Table 22-3. -/
def Reg.ALM_STEP_NS : Fld := ⟨0x100030, 16, 48⟩
/-- ALM_AON_PERIOD, Table 22-3. -/
def Reg.ALM_AON_PERIOD : Fld := ⟨0x100038, 0, 48⟩
/-- ALM_LATE.BEAT, Table 22-3. -/
def Reg.ALM_LATE_BEAT : Fld := ⟨0x100040, 0, 4⟩
/-- ALM_LATE.SFRAME, Table 22-3. -/
def Reg.ALM_LATE_SFRAME : Fld := ⟨0x100040, 4, 8⟩
/-- ALM_LATE.GENERAL, Table 22-3. -/
def Reg.ALM_LATE_GENERAL : Fld := ⟨0x100040, 12, 16⟩
/-- ALM_LATE.WAKE, Table 22-3. -/
def Reg.ALM_LATE_WAKE : Fld := ⟨0x100040, 28, 1⟩
/-- ALM_LATE.EXPOSE, Table 22-3. -/
def Reg.ALM_LATE_EXPOSE : Fld := ⟨0x100040, 29, 1⟩
/-- ALM_WAKE_TIME, Table 22-3. -/
def Reg.ALM_WAKE_TIME : Fld := ⟨0x100048, 0, 64⟩
/-- ALM_WAKE_CTL.EN, Table 22-3. -/
def Reg.ALM_WAKE_CTL_EN : Fld := ⟨0x100050, 0, 1⟩
/-- ALM_BMn_PERIOD, Table 22-3. -/
def Reg.ALM_BM_PERIOD (n : Nat) : Fld := ⟨0x100100 + 0x40 * n, 0, 27⟩
/-- ALM_BMn_SHRINK.S, Table 22-3. -/
def Reg.ALM_BM_SHRINK_S (n : Nat) : Fld := ⟨0x100108 + 0x40 * n, 0, 25⟩
/-- ALM_BMn_SHRINK.EFFECTIVE, Table 22-3. -/
def Reg.ALM_BM_SHRINK_EFFECTIVE (n : Nat) : Fld := ⟨0x100108 + 0x40 * n, 32, 25⟩
/-- ALM_BMn_LAGLIM, Table 22-3. -/
def Reg.ALM_BM_LAGLIM (n : Nat) : Fld := ⟨0x100110 + 0x40 * n, 0, 27⟩
/-- ALM_BMn_ORIGIN, Table 22-3. -/
def Reg.ALM_BM_ORIGIN (n : Nat) : Fld := ⟨0x100118 + 0x40 * n, 0, 64⟩
/-- ALM_BMn_FLOOR, Table 22-3. -/
def Reg.ALM_BM_FLOOR (n : Nat) : Fld := ⟨0x100120 + 0x40 * n, 0, 27⟩
/-- ALM_BMn_CTL.ARM, Table 22-3. -/
def Reg.ALM_BM_CTL_ARM (n : Nat) : Fld := ⟨0x100128 + 0x40 * n, 0, 1⟩
/-- ALM_BMn_CTL.STOP, Table 22-3. -/
def Reg.ALM_BM_CTL_STOP (n : Nat) : Fld := ⟨0x100128 + 0x40 * n, 1, 1⟩
/-- ALM_BMn_STAT.STATE, Table 22-3. -/
def Reg.ALM_BM_STAT_STATE (n : Nat) : Fld := ⟨0x100130 + 0x40 * n, 0, 3⟩
/-- ALM_BMn_STAT.EXCURSION, Table 22-3. -/
def Reg.ALM_BM_STAT_EXCURSION (n : Nat) : Fld := ⟨0x100130 + 0x40 * n, 3, 1⟩
/-- ALM_BMn_STAT.LAG, Table 22-3. -/
def Reg.ALM_BM_STAT_LAG (n : Nat) : Fld := ⟨0x100130 + 0x40 * n, 32, 32⟩
/-- ALM_BMn_INDEX, Table 22-3. -/
def Reg.ALM_BM_INDEX (n : Nat) : Fld := ⟨0x100138 + 0x40 * n, 0, 64⟩
/-- ALM_GLp_TIME, Table 22-3. -/
def Reg.ALM_GL_TIME (n : Nat) : Fld := ⟨0x100400 + 0x20 * n, 0, 64⟩
/-- ALM_GLp_PERIOD, Table 22-3. -/
def Reg.ALM_GL_PERIOD (n : Nat) : Fld := ⟨0x100408 + 0x20 * n, 0, 40⟩
/-- ALM_GLp_CTL.EN, Table 22-3. -/
def Reg.ALM_GL_CTL_EN (n : Nat) : Fld := ⟨0x100410 + 0x20 * n, 0, 1⟩
/-- ALM_GLp_CTL.MSG, Table 22-3. -/
def Reg.ALM_GL_CTL_MSG (n : Nat) : Fld := ⟨0x100410 + 0x20 * n, 1, 1⟩
/-- ALM_GLp_CTL.SNAP, Table 22-3. -/
def Reg.ALM_GL_CTL_SNAP (n : Nat) : Fld := ⟨0x100410 + 0x20 * n, 2, 1⟩
/-- ALM_GLp_CTL.QUEUE, Table 22-3. -/
def Reg.ALM_GL_CTL_QUEUE (n : Nat) : Fld := ⟨0x100410 + 0x20 * n, 8, 8⟩
/-- ALM_GLp_CTL.SNAP_CORES, Table 22-3. -/
def Reg.ALM_GL_CTL_SNAP_CORES (n : Nat) : Fld := ⟨0x100410 + 0x20 * n, 32, 32⟩
/-- PWR_DEV_CTL.SLEEP, Table 22-4. -/
def Reg.PWR_DEV_CTL_SLEEP : Fld := ⟨0x200000, 0, 1⟩
/-- PWR_DEV_STAT.WAKE_SRC, Table 22-4. -/
def Reg.PWR_DEV_STAT_WAKE_SRC : Fld := ⟨0x200008, 0, 2⟩
/-- PWR_DORMANT_CFG.HBM_KEEP, Table 22-4. -/
def Reg.PWR_DORMANT_CFG_HBM_KEEP : Fld := ⟨0x200010, 0, 1⟩
/-- PWR_IRQ_STAT.DONE, Table 22-4. -/
def Reg.PWR_IRQ_STAT_DONE : Fld := ⟨0x200018, 0, 1⟩
/-- PWR_IRQ_STAT.WAKE, Table 22-4. -/
def Reg.PWR_IRQ_STAT_WAKE : Fld := ⟨0x200018, 1, 1⟩
/-- PWR_THERM_STAT.STAGE, Table 22-4. -/
def Reg.PWR_THERM_STAT_STAGE : Fld := ⟨0x200020, 0, 2⟩
/-- PWR_THERM_STAT.TJ, Table 22-4. -/
def Reg.PWR_THERM_STAT_TJ : Fld := ⟨0x200020, 8, 8⟩
/-- PWR_TSENSEs, Table 22-4. -/
def Reg.PWR_TSENSE (n : Nat) : Fld := ⟨0x200400 + 0x8 * n, 0, 8⟩
/-- PWR_DOMnn_REQ.STATE, Table 22-4. -/
def Reg.PWR_DOM_REQ_STATE (n : Nat) : Fld := ⟨0x201000 + 0x10 * n, 0, 2⟩
/-- PWR_DOMnn_STAT.STATE, Table 22-4. -/
def Reg.PWR_DOM_STAT_STATE (n : Nat) : Fld := ⟨0x201008 + 0x10 * n, 0, 2⟩
/-- PWR_DOMnn_STAT.TRANS, Table 22-4. -/
def Reg.PWR_DOM_STAT_TRANS (n : Nat) : Fld := ⟨0x201008 + 0x10 * n, 2, 1⟩
/-- PWR_CCnn_CLK.N, Table 22-4. -/
def Reg.PWR_CC_CLK_N (n : Nat) : Fld := ⟨0x202000 + 0x40 * n, 0, 9⟩
/-- PWR_CCnn_CLK.EFF, Table 22-4. -/
def Reg.PWR_CC_CLK_EFF (n : Nat) : Fld := ⟨0x202000 + 0x40 * n, 16, 9⟩
/-- PWR_CCnn_FMAX, Table 22-4. -/
def Reg.PWR_CC_FMAX (n : Nat) : Fld := ⟨0x202008 + 0x40 * n, 0, 11⟩
/-- PWR_CCnn_AVS.EN, Table 22-4. -/
def Reg.PWR_CC_AVS_EN (n : Nat) : Fld := ⟨0x202010 + 0x40 * n, 0, 1⟩
/-- PWR_CCnn_AVS.LOW, Table 22-4. -/
def Reg.PWR_CC_AVS_LOW (n : Nat) : Fld := ⟨0x202010 + 0x40 * n, 8, 8⟩
/-- PWR_CCnn_AVS.HIGH, Table 22-4. -/
def Reg.PWR_CC_AVS_HIGH (n : Nat) : Fld := ⟨0x202010 + 0x40 * n, 16, 8⟩
/-- PWR_CCnn_AVS.CEIL, Table 22-4. -/
def Reg.PWR_CC_AVS_CEIL (n : Nat) : Fld := ⟨0x202010 + 0x40 * n, 24, 1⟩
/-- PWR_CCnn_VSET, Table 22-4. -/
def Reg.PWR_CC_VSET (n : Nat) : Fld := ⟨0x202018 + 0x40 * n, 0, 10⟩
/-- PWR_CCnn_VSET.TARGET, Table 22-4. -/
def Reg.PWR_CC_VSET_TARGET (n : Nat) : Fld := ⟨0x202018 + 0x40 * n, 16, 10⟩
/-- PWR_CCnn_VSET.VMIN, Table 22-4. -/
def Reg.PWR_CC_VSET_VMIN (n : Nat) : Fld := ⟨0x202018 + 0x40 * n, 32, 10⟩
/-- PWR_CCnn_FLOOR, Table 22-4. -/
def Reg.PWR_CC_FLOOR (n : Nat) : Fld := ⟨0x202020 + 0x40 * n, 0, 11⟩
/-- PWR_CCnn_IDLE.STATE, Table 22-4. -/
def Reg.PWR_CC_IDLE_STATE (n : Nat) : Fld := ⟨0x202028 + 0x40 * n, 0, 1⟩
/-- PWR_CCnn_IDLE.DELAY, Table 22-4. -/
def Reg.PWR_CC_IDLE_DELAY (n : Nat) : Fld := ⟨0x202028 + 0x40 * n, 16, 16⟩
/-- PWR_CCnn_IDLE.LEAD, Table 22-4. -/
def Reg.PWR_CC_IDLE_LEAD (n : Nat) : Fld := ⟨0x202028 + 0x40 * n, 32, 20⟩
/-- PWR_CCnn_AWAKES, Table 22-4. -/
def Reg.PWR_CC_AWAKES (n : Nat) : Fld := ⟨0x202030 + 0x40 * n, 0, 32⟩
/-- PWR_SOL_CLK.N, Table 22-4. -/
def Reg.PWR_SOL_CLK_N : Fld := ⟨0x202800, 0, 9⟩
/-- PWR_SOL_CLK.EFF, Table 22-4. -/
def Reg.PWR_SOL_CLK_EFF : Fld := ⟨0x202800, 16, 9⟩
/-- PWR_SOL_FMAX, Table 22-4. -/
def Reg.PWR_SOL_FMAX : Fld := ⟨0x202808, 0, 11⟩
/-- PWR_SOL_AVS.EN, Table 22-4. -/
def Reg.PWR_SOL_AVS_EN : Fld := ⟨0x202810, 0, 1⟩
/-- PWR_SOL_AVS.LOW, Table 22-4. -/
def Reg.PWR_SOL_AVS_LOW : Fld := ⟨0x202810, 8, 8⟩
/-- PWR_SOL_AVS.HIGH, Table 22-4. -/
def Reg.PWR_SOL_AVS_HIGH : Fld := ⟨0x202810, 16, 8⟩
/-- PWR_SOL_AVS.CEIL, Table 22-4. -/
def Reg.PWR_SOL_AVS_CEIL : Fld := ⟨0x202810, 24, 1⟩
/-- PWR_SOL_VSET, Table 22-4. -/
def Reg.PWR_SOL_VSET : Fld := ⟨0x202818, 0, 10⟩
/-- PWR_SOL_VSET.TARGET, Table 22-4. -/
def Reg.PWR_SOL_VSET_TARGET : Fld := ⟨0x202818, 16, 10⟩
/-- PWR_SOL_VSET.VMIN, Table 22-4. -/
def Reg.PWR_SOL_VSET_VMIN : Fld := ⟨0x202818, 32, 10⟩
/-- PWR_SOL_FLOOR, Table 22-4. -/
def Reg.PWR_SOL_FLOOR : Fld := ⟨0x202820, 0, 11⟩
/-- PWR_QPLLq_CTL.RELOCK, Table 22-4. -/
def Reg.PWR_QPLL_CTL_RELOCK (n : Nat) : Fld := ⟨0x203000 + 0x8 * n, 0, 1⟩
/-- PWR_QPLLq_CTL.LOCK, Table 22-4. -/
def Reg.PWR_QPLL_CTL_LOCK (n : Nat) : Fld := ⟨0x203000 + 0x8 * n, 8, 1⟩
/-- PWR_HOST_CLK, Table 22-4. -/
def Reg.PWR_HOST_CLK : Fld := ⟨0x203100, 0, 2⟩
/-- FLT_CTL.EN, Table 22-5. -/
def Reg.FLT_CTL_EN : Fld := ⟨0x300000, 0, 1⟩
/-- FLT_CTL.HOST_GATE, Table 22-5. -/
def Reg.FLT_CTL_HOST_GATE : Fld := ⟨0x300000, 1, 1⟩
/-- FLT_CTL.LAST_CLR, Table 22-5. -/
def Reg.FLT_CTL_LAST_CLR : Fld := ⟨0x300000, 2, 1⟩
/-- FLT_STATUS.RING_ERROR, Table 22-5. -/
def Reg.FLT_STATUS_RING_ERROR : Fld := ⟨0x300008, 0, 1⟩
/-- FLT_Q_BASE, Table 22-5. -/
def Reg.FLT_Q_BASE : Fld := ⟨0x300010, 0, 48⟩
/-- FLT_Q_LOG2, Table 22-5. -/
def Reg.FLT_Q_LOG2 : Fld := ⟨0x300018, 0, 5⟩
/-- FLT_Q_WR, Table 22-5. -/
def Reg.FLT_Q_WR : Fld := ⟨0x300020, 0, 32⟩
/-- FLT_Q_RD, Table 22-5. -/
def Reg.FLT_Q_RD : Fld := ⟨0x300028, 0, 32⟩
/-- FLT_Q_HRD, Table 22-5. -/
def Reg.FLT_Q_HRD : Fld := ⟨0x300030, 0, 32⟩
/-- FLT_PEND, Table 22-5. -/
def Reg.FLT_PEND : Fld := ⟨0x300038, 0, 8⟩
/-- FLT_LOST_Cn, Table 22-5. -/
def Reg.FLT_LOST_C (n : Nat) : Fld := ⟨0x300040 + 0x8 * n, 0, 32⟩
/-- FLT_IRQ_CFGd.CLASS_EN, Table 22-5. -/
def Reg.FLT_IRQ_CFG_CLASS_EN (n : Nat) : Fld := ⟨0x300080 + 0x10 * n, 0, 5⟩
/-- FLT_IRQ_CFGd.HOLDOFF, Table 22-5. -/
def Reg.FLT_IRQ_CFG_HOLDOFF (n : Nat) : Fld := ⟨0x300080 + 0x10 * n, 16, 10⟩
/-- FLT_IRQ_CFGd.VECTOR, Table 22-5. -/
def Reg.FLT_IRQ_CFG_VECTOR (n : Nat) : Fld := ⟨0x300080 + 0x10 * n, 32, 6⟩
/-- FLT_IRQ_STATd.CLASS, Table 22-5. -/
def Reg.FLT_IRQ_STAT_CLASS (n : Nat) : Fld := ⟨0x300088 + 0x10 * n, 0, 5⟩
/-- FLT_IRQ_STATd.LOST, Table 22-5. -/
def Reg.FLT_IRQ_STAT_LOST (n : Nat) : Fld := ⟨0x300088 + 0x10 * n, 5, 1⟩
/-- FLT_IRQ_STATd.RING, Table 22-5. -/
def Reg.FLT_IRQ_STAT_RING (n : Nat) : Fld := ⟨0x300088 + 0x10 * n, 6, 1⟩
/-- FLT_LAST_DEVICE, Table 22-5. -/
def Reg.FLT_LAST_DEVICE (n : Nat) : Fld := ⟨0x300100 + 0x8 * n, 0, 64⟩
/-- WVL_REQ_ADDR, Table 22-6. -/
def Reg.WVL_REQ_ADDR : Fld := ⟨0x400000, 0, 48⟩
/-- WVL_CTL.GO, Table 22-6. -/
def Reg.WVL_CTL_GO : Fld := ⟨0x400008, 0, 1⟩
/-- WVL_STATUS.BUSY, Table 22-6. -/
def Reg.WVL_STATUS_BUSY : Fld := ⟨0x400010, 0, 1⟩
/-- WVL_STATUS.DONE, Table 22-6. -/
def Reg.WVL_STATUS_DONE : Fld := ⟨0x400010, 1, 1⟩
/-- WVL_STATUS.IRQ_EN, Table 22-6. -/
def Reg.WVL_STATUS_IRQ_EN : Fld := ⟨0x400010, 2, 1⟩
/-- WVL_STATUS.LAST_CODE, Table 22-6. -/
def Reg.WVL_STATUS_LAST_CODE : Fld := ⟨0x400010, 16, 12⟩
/-- WVL_PIPEn.STATE, Table 22-6. -/
def Reg.WVL_PIPE_STATE (n : Nat) : Fld := ⟨0x400100 + 0x200 * n, 0, 2⟩
/-- WVL_PIPEn_CTL.UNLOAD, Table 22-6. -/
def Reg.WVL_PIPE_CTL_UNLOAD (n : Nat) : Fld := ⟨0x400108 + 0x200 * n, 0, 1⟩
/-- WVL_PIPEn_INFO.VARIANT, Table 22-6. -/
def Reg.WVL_PIPE_INFO_VARIANT (n : Nat) : Fld := ⟨0x400110 + 0x200 * n, 0, 3⟩
/-- WVL_PIPEn_INFO.START, Table 22-6. -/
def Reg.WVL_PIPE_INFO_START (n : Nat) : Fld := ⟨0x400110 + 0x200 * n, 8, 5⟩
/-- WVL_PIPEn_INFO.ROT, Table 22-6. -/
def Reg.WVL_PIPE_INFO_ROT (n : Nat) : Fld := ⟨0x400110 + 0x200 * n, 16, 7⟩
/-- WVL_PIPEn_INFO.NCORES, Table 22-6. -/
def Reg.WVL_PIPE_INFO_NCORES (n : Nat) : Fld := ⟨0x400110 + 0x200 * n, 24, 6⟩
/-- WVL_PIPEn_NETID_LO, Table 22-6. -/
def Reg.WVL_PIPE_NETID_LO (n : Nat) : Fld := ⟨0x400118 + 0x200 * n, 0, 64⟩
/-- WVL_PIPEn_NETID_HI, Table 22-6. -/
def Reg.WVL_PIPE_NETID_HI (n : Nat) : Fld := ⟨0x400120 + 0x200 * n, 0, 64⟩
/-- WVL_PIPEn_PLACEj.CORE, Table 22-6. -/
def Reg.WVL_PIPE_PLACE_CORE (n : Nat) (i : Nat) : Fld := ⟨0x400200 + 0x200 * n + 0x8 * i, 0, 5⟩
/-- WVL_PIPEn_PLACEj.VALID, Table 22-6. -/
def Reg.WVL_PIPE_PLACE_VALID (n : Nat) (i : Nat) : Fld := ⟨0x400200 + 0x200 * n + 0x8 * i, 8, 1⟩
/-- ING_STATE_IRQ, Table 22-7. -/
def Reg.ING_STATE_IRQ : Fld := ⟨0x500000, 0, 64⟩
/-- ING_EVR_BASE, Table 22-7. -/
def Reg.ING_EVR_BASE : Fld := ⟨0x500010, 0, 48⟩
/-- ING_EVR_SIZE, Table 22-7. -/
def Reg.ING_EVR_SIZE : Fld := ⟨0x500018, 0, 48⟩
/-- ING_EVR_WRITE, Table 22-7. -/
def Reg.ING_EVR_WRITE : Fld := ⟨0x500020, 0, 48⟩
/-- ING_EVR_CTL.EN, Table 22-7. -/
def Reg.ING_EVR_CTL_EN : Fld := ⟨0x500028, 0, 1⟩
/-- ING_EVR_CTL.HOLD_EN, Table 22-7. -/
def Reg.ING_EVR_CTL_HOLD_EN : Fld := ⟨0x500028, 1, 1⟩
/-- ING_EVR_HOLD, Table 22-7. -/
def Reg.ING_EVR_HOLD : Fld := ⟨0x500030, 0, 48⟩
/-- ING_EVR_DROPS, Table 22-7. -/
def Reg.ING_EVR_DROPS : Fld := ⟨0x500038, 0, 32⟩
/-- ING_EVR_SEQ, Table 22-7. -/
def Reg.ING_EVR_SEQ : Fld := ⟨0x500040, 0, 32⟩
/-- ING_ROTn_LEN, Table 22-7. -/
def Reg.ING_ROT_LEN (n : Nat) : Fld := ⟨0x500100 + 0x200 * n, 0, 9⟩
/-- ING_ROTn_ENTg, Table 22-7. -/
def Reg.ING_ROT_ENT (n : Nat) (i : Nat) : Fld := ⟨0x500200 + 0x200 * n + 0x8 * i, 0, 64⟩
/-- ING_STRm_CFG.PIPE, Table 22-7. -/
def Reg.ING_STR_CFG_PIPE (n : Nat) : Fld := ⟨0x501000 + 0x100 * n, 0, 2⟩
/-- ING_STRm_CFG.CAMERA, Table 22-7. -/
def Reg.ING_STR_CFG_CAMERA (n : Nat) : Fld := ⟨0x501000 + 0x100 * n, 16, 10⟩
/-- ING_STRm_CFG.NSLOT, Table 22-7. -/
def Reg.ING_STR_CFG_NSLOT (n : Nat) : Fld := ⟨0x501000 + 0x100 * n, 32, 5⟩
/-- ING_STRm_CFG.RING_LOG2, Table 22-7. -/
def Reg.ING_STR_CFG_RING_LOG2 (n : Nat) : Fld := ⟨0x501000 + 0x100 * n, 40, 4⟩
/-- ING_STRm_CFG.IRQ_EN, Table 22-7. -/
def Reg.ING_STR_CFG_IRQ_EN (n : Nat) : Fld := ⟨0x501000 + 0x100 * n, 48, 1⟩
/-- ING_STRm_IBUF_BASE, Table 22-7. -/
def Reg.ING_STR_IBUF_BASE (n : Nat) : Fld := ⟨0x501008 + 0x100 * n, 0, 48⟩
/-- ING_STRm_IBUF_STRIDE, Table 22-7. -/
def Reg.ING_STR_IBUF_STRIDE (n : Nat) : Fld := ⟨0x501010 + 0x100 * n, 0, 32⟩
/-- ING_STRm_RING_BASE, Table 22-7. -/
def Reg.ING_STR_RING_BASE (n : Nat) : Fld := ⟨0x501018 + 0x100 * n, 0, 48⟩
/-- ING_STRm_RING_WR, Table 22-7. -/
def Reg.ING_STR_RING_WR (n : Nat) : Fld := ⟨0x501020 + 0x100 * n, 0, 32⟩
/-- ING_STRm_RING_RD, Table 22-7. -/
def Reg.ING_STR_RING_RD (n : Nat) : Fld := ⟨0x501028 + 0x100 * n, 0, 32⟩
/-- ING_STRm_CTL.BIND, Table 22-7. -/
def Reg.ING_STR_CTL_BIND (n : Nat) : Fld := ⟨0x501030 + 0x100 * n, 0, 1⟩
/-- ING_STRm_CTL.UNBIND, Table 22-7. -/
def Reg.ING_STR_CTL_UNBIND (n : Nat) : Fld := ⟨0x501030 + 0x100 * n, 1, 1⟩
/-- ING_STRm_STATE, Table 22-7. -/
def Reg.ING_STR_STATE (n : Nat) : Fld := ⟨0x501038 + 0x100 * n, 0, 2⟩
/-- ING_STRm_DISCARDS, Table 22-7. -/
def Reg.ING_STR_DISCARDS (n : Nat) : Fld := ⟨0x501040 + 0x100 * n, 0, 32⟩
/-- ING_STRm_LATE, Table 22-7. -/
def Reg.ING_STR_LATE (n : Nat) : Fld := ⟨0x501048 + 0x100 * n, 0, 32⟩
/-- ING_STRm_STRAY, Table 22-7. -/
def Reg.ING_STR_STRAY (n : Nat) : Fld := ⟨0x501050 + 0x100 * n, 0, 32⟩
/-- ING_STRm_MALFORMED, Table 22-7. -/
def Reg.ING_STR_MALFORMED (n : Nat) : Fld := ⟨0x501058 + 0x100 * n, 0, 32⟩
/-- ING_STRm_REFUSED, Table 22-7. -/
def Reg.ING_STR_REFUSED (n : Nat) : Fld := ⟨0x501060 + 0x100 * n, 0, 32⟩
/-- ING_STRm_FRAME, Table 22-7. -/
def Reg.ING_STR_FRAME (n : Nat) : Fld := ⟨0x501068 + 0x100 * n, 0, 16⟩
/-- ETH_CMD_PORT, Table 22-8. -/
def Reg.ETH_CMD_PORT : Fld := ⟨0x600000, 0, 16⟩
/-- ETH_Pn_CFG.MODE, Table 22-8. -/
def Reg.ETH_P_CFG_MODE (n : Nat) : Fld := ⟨0x601000 + 0x200 * n, 0, 3⟩
/-- ETH_Pn_CFG.PROMISC, Table 22-8. -/
def Reg.ETH_P_CFG_PROMISC (n : Nat) : Fld := ⟨0x601000 + 0x200 * n, 3, 1⟩
/-- ETH_Pn_CFG.PTP_EN, Table 22-8. -/
def Reg.ETH_P_CFG_PTP_EN (n : Nat) : Fld := ⟨0x601000 + 0x200 * n, 4, 1⟩
/-- ETH_Pn_MAC, Table 22-8. -/
def Reg.ETH_P_MAC (n : Nat) : Fld := ⟨0x601008 + 0x200 * n, 0, 48⟩
/-- ETH_Pn_IP4, Table 22-8. -/
def Reg.ETH_P_IP4 (n : Nat) : Fld := ⟨0x601010 + 0x200 * n, 0, 32⟩
/-- ETH_Pn_IP6_LO, Table 22-8. -/
def Reg.ETH_P_IP6_LO (n : Nat) : Fld := ⟨0x601018 + 0x200 * n, 0, 64⟩
/-- ETH_Pn_IP6_HI, Table 22-8. -/
def Reg.ETH_P_IP6_HI (n : Nat) : Fld := ⟨0x601020 + 0x200 * n, 0, 64⟩
/-- ETH_Pn_TXTAP, Table 22-8. -/
def Reg.ETH_P_TXTAP (n : Nat) : Fld := ⟨0x601028 + 0x200 * n, 0, 24⟩
/-- ETH_Pn_STAT.LINK_UP, Table 22-8. -/
def Reg.ETH_P_STAT_LINK_UP (n : Nat) : Fld := ⟨0x601030 + 0x200 * n, 0, 1⟩
/-- ETH_Pn_STAT.BLOCK_LOCK, Table 22-8. -/
def Reg.ETH_P_STAT_BLOCK_LOCK (n : Nat) : Fld := ⟨0x601030 + 0x200 * n, 1, 1⟩
/-- ETH_Pn_STAT.FEC_ALIGN, Table 22-8. -/
def Reg.ETH_P_STAT_FEC_ALIGN (n : Nat) : Fld := ⟨0x601030 + 0x200 * n, 2, 1⟩
/-- ETH_Pn_EQ.FREEZE, Table 22-8. -/
def Reg.ETH_P_EQ_FREEZE (n : Nat) : Fld := ⟨0x601038 + 0x200 * n, 0, 1⟩
/-- ETH_Pn_EYE.HEIGHT, Table 22-8. -/
def Reg.ETH_P_EYE_HEIGHT (n : Nat) : Fld := ⟨0x601040 + 0x200 * n, 0, 16⟩
/-- ETH_Pn_EYE.WIDTH, Table 22-8. -/
def Reg.ETH_P_EYE_WIDTH (n : Nat) : Fld := ⟨0x601040 + 0x200 * n, 16, 16⟩
/-- ETH_Pn_EYE_MIN, Table 22-8. -/
def Reg.ETH_P_EYE_MIN (n : Nat) : Fld := ⟨0x601048 + 0x200 * n, 0, 32⟩
/-- ETH_Pn_TXDROP, Table 22-8. -/
def Reg.ETH_P_TXDROP (n : Nat) : Fld := ⟨0x601050 + 0x200 * n, 0, 32⟩
/-- ETH_Pn_FCSERR, Table 22-8. -/
def Reg.ETH_P_FCSERR (n : Nat) : Fld := ⟨0x601058 + 0x200 * n, 0, 32⟩
/-- ETH_Pn_LOOP, Table 22-8. -/
def Reg.ETH_P_LOOP (n : Nat) : Fld := ⟨0x601060 + 0x200 * n, 0, 2⟩
/-- ETH_Pn_PRBS.EN, Table 22-8. -/
def Reg.ETH_P_PRBS_EN (n : Nat) : Fld := ⟨0x601068 + 0x200 * n, 0, 1⟩
/-- ETH_Pn_PRBS_ERR, Table 22-8. -/
def Reg.ETH_P_PRBS_ERR (n : Nat) : Fld := ⟨0x601070 + 0x200 * n, 0, 48⟩
/-- ETH_Pn_NIC_RXBASE, Table 22-8. -/
def Reg.ETH_P_NIC_RXBASE (n : Nat) : Fld := ⟨0x601080 + 0x200 * n, 0, 48⟩
/-- ETH_Pn_NIC_TXBASE, Table 22-8. -/
def Reg.ETH_P_NIC_TXBASE (n : Nat) : Fld := ⟨0x601088 + 0x200 * n, 0, 48⟩
/-- ETH_Pn_NIC_LOG2, Table 22-8. -/
def Reg.ETH_P_NIC_LOG2 (n : Nat) : Fld := ⟨0x601090 + 0x200 * n, 0, 4⟩
/-- ETH_Pn_NIC_RXWR, Table 22-8. -/
def Reg.ETH_P_NIC_RXWR (n : Nat) : Fld := ⟨0x601098 + 0x200 * n, 0, 32⟩
/-- ETH_Pn_NIC_RXRD, Table 22-8. -/
def Reg.ETH_P_NIC_RXRD (n : Nat) : Fld := ⟨0x6010A0 + 0x200 * n, 0, 32⟩
/-- ETH_Pn_NIC_TXWR, Table 22-8. -/
def Reg.ETH_P_NIC_TXWR (n : Nat) : Fld := ⟨0x6010A8 + 0x200 * n, 0, 32⟩
/-- ETH_Pn_NIC_TXRD, Table 22-8. -/
def Reg.ETH_P_NIC_TXRD (n : Nat) : Fld := ⟨0x6010B0 + 0x200 * n, 0, 32⟩
/-- ETH_Pn_NIC_RXDROP, Table 22-8. -/
def Reg.ETH_P_NIC_RXDROP (n : Nat) : Fld := ⟨0x6010B8 + 0x200 * n, 0, 32⟩
/-- ETH_Pn_NIC_TXDENY, Table 22-8. -/
def Reg.ETH_P_NIC_TXDENY (n : Nat) : Fld := ⟨0x6010C0 + 0x200 * n, 0, 32⟩
/-- ETH_Pn_MCASTi.ADDR, Table 22-8. -/
def Reg.ETH_P_MCAST_ADDR (n : Nat) (i : Nat) : Fld := ⟨0x6010D0 + 0x200 * n + 0x8 * i, 0, 48⟩
/-- ETH_Pn_MCASTi.VALID, Table 22-8. -/
def Reg.ETH_P_MCAST_VALID (n : Nat) (i : Nat) : Fld := ⟨0x6010D0 + 0x200 * n + 0x8 * i, 48, 1⟩
/-- ETH_Pn_TQ_RXBASE, Table 22-8. -/
def Reg.ETH_P_TQ_RXBASE (n : Nat) : Fld := ⟨0x601140 + 0x200 * n, 0, 48⟩
/-- ETH_Pn_TQ_TXBASE, Table 22-8. -/
def Reg.ETH_P_TQ_TXBASE (n : Nat) : Fld := ⟨0x601148 + 0x200 * n, 0, 48⟩
/-- ETH_Pn_TQ_LOG2, Table 22-8. -/
def Reg.ETH_P_TQ_LOG2 (n : Nat) : Fld := ⟨0x601150 + 0x200 * n, 0, 4⟩
/-- ETH_Pn_TQ_RXWR, Table 22-8. -/
def Reg.ETH_P_TQ_RXWR (n : Nat) : Fld := ⟨0x601158 + 0x200 * n, 0, 32⟩
/-- ETH_Pn_TQ_RXRD, Table 22-8. -/
def Reg.ETH_P_TQ_RXRD (n : Nat) : Fld := ⟨0x601160 + 0x200 * n, 0, 32⟩
/-- ETH_Pn_TQ_TXWR, Table 22-8. -/
def Reg.ETH_P_TQ_TXWR (n : Nat) : Fld := ⟨0x601168 + 0x200 * n, 0, 32⟩
/-- ETH_Pn_TQ_TXRD, Table 22-8. -/
def Reg.ETH_P_TQ_TXRD (n : Nat) : Fld := ⟨0x601170 + 0x200 * n, 0, 32⟩
/-- ETH_EPi, Table 22-8. -/
def Reg.ETH_EP (n : Nat) (i : Nat) : Fld := ⟨0x680000 + 0x40 * n + 0x8 * i, 0, 64⟩
/-- QSK_TOPO.SYSTEM_ID, Table 22-9. -/
def Reg.QSK_TOPO_SYSTEM_ID : Fld := ⟨0x700000, 0, 32⟩
/-- QSK_TOPO.NX, Table 22-9. -/
def Reg.QSK_TOPO_NX : Fld := ⟨0x700000, 32, 2⟩
/-- QSK_TOPO.NY, Table 22-9. -/
def Reg.QSK_TOPO_NY : Fld := ⟨0x700000, 34, 2⟩
/-- QSK_TOPO.NZ, Table 22-9. -/
def Reg.QSK_TOPO_NZ : Fld := ⟨0x700000, 36, 2⟩
/-- QSK_TOPO.EXPRESS, Table 22-9. -/
def Reg.QSK_TOPO_EXPRESS : Fld := ⟨0x700000, 40, 2⟩
/-- QSK_TIME.MASTER, Table 22-9. -/
def Reg.QSK_TIME_MASTER : Fld := ⟨0x700008, 0, 1⟩
/-- QSK_TIME.UPLINK, Table 22-9. -/
def Reg.QSK_TIME_UPLINK : Fld := ⟨0x700008, 4, 3⟩
/-- QSK_SFRAME_STAT.LOCK, Table 22-9. -/
def Reg.QSK_SFRAME_STAT_LOCK : Fld := ⟨0x700010, 0, 1⟩
/-- QSK_ROUTE_CTL.DEFAULT, Table 22-9. -/
def Reg.QSK_ROUTE_CTL_DEFAULT : Fld := ⟨0x700018, 0, 1⟩
/-- QSK_ROUTEd.LINK, Table 22-9. -/
def Reg.QSK_ROUTE_LINK (n : Nat) : Fld := ⟨0x700100 + 0x8 * n, 0, 3⟩
/-- QSK_ROUTEd.VALID, Table 22-9. -/
def Reg.QSK_ROUTE_VALID (n : Nat) : Fld := ⟨0x700100 + 0x8 * n, 3, 1⟩
/-- QSK_Ln_CTL.EN, Table 22-9. -/
def Reg.QSK_L_CTL_EN (n : Nat) : Fld := ⟨0x701000 + 0x100 * n, 0, 1⟩
/-- QSK_Ln_STAT.PHASE, Table 22-9. -/
def Reg.QSK_L_STAT_PHASE (n : Nat) : Fld := ⟨0x701008 + 0x100 * n, 0, 3⟩
/-- QSK_Ln_STAT.CAUSE, Table 22-9. -/
def Reg.QSK_L_STAT_CAUSE (n : Nat) : Fld := ⟨0x701008 + 0x100 * n, 8, 4⟩
/-- QSK_Ln_DELAY, Table 22-9. -/
def Reg.QSK_L_DELAY (n : Nat) : Fld := ⟨0x701010 + 0x100 * n, 0, 32⟩
/-- QSK_Ln_OFFSET, Table 22-9. -/
def Reg.QSK_L_OFFSET (n : Nat) : Fld := ⟨0x701018 + 0x100 * n, 0, 32⟩
/-- QSK_Ln_FEC, Table 22-9. -/
def Reg.QSK_L_FEC (n : Nat) : Fld := ⟨0x701020 + 0x100 * n, 0, 32⟩
/-- QSK_Ln_LOOP, Table 22-9. -/
def Reg.QSK_L_LOOP (n : Nat) : Fld := ⟨0x701028 + 0x100 * n, 0, 1⟩
/-- QSK_Ln_PRBS.EN, Table 22-9. -/
def Reg.QSK_L_PRBS_EN (n : Nat) : Fld := ⟨0x701030 + 0x100 * n, 0, 4⟩
/-- QSK_Ln_PRBS_ERRk, Table 22-9. -/
def Reg.QSK_L_PRBS_ERR (n : Nat) (i : Nat) : Fld := ⟨0x701038 + 0x100 * n + 0x8 * i, 0, 48⟩
/-- QSK_PARTn.HEAD_DEV, Table 22-9. -/
def Reg.QSK_PART_HEAD_DEV (n : Nat) : Fld := ⟨0x702000 + 0x20 * n, 0, 6⟩
/-- QSK_PARTn.HEAD_PIPE, Table 22-9. -/
def Reg.QSK_PART_HEAD_PIPE (n : Nat) : Fld := ⟨0x702000 + 0x20 * n, 8, 2⟩
/-- QSK_PARTn.IS_HEAD, Table 22-9. -/
def Reg.QSK_PART_IS_HEAD (n : Nat) : Fld := ⟨0x702000 + 0x20 * n, 16, 1⟩
/-- QSK_PARTn_FOLLOW, Table 22-9. -/
def Reg.QSK_PART_FOLLOW (n : Nat) : Fld := ⟨0x702008 + 0x20 * n, 0, 64⟩
/-- QSK_PARTn_CFG.TIMEOUT, Table 22-9. -/
def Reg.QSK_PART_CFG_TIMEOUT (n : Nat) : Fld := ⟨0x702010 + 0x20 * n, 0, 10⟩
/-- BGW_STAT.UP, Table 22-10. -/
def Reg.BGW_STAT_UP : Fld := ⟨0x800000, 0, 1⟩
/-- BGW_TIME_CFG.EN, Table 22-10. -/
def Reg.BGW_TIME_CFG_EN : Fld := ⟨0x800008, 0, 1⟩
/-- BGW_TIME_CFG.LOCKED, Table 22-10. -/
def Reg.BGW_TIME_CFG_LOCKED : Fld := ⟨0x800008, 1, 1⟩
/-- BGW_TIME_CFG.PERIOD, Table 22-10. -/
def Reg.BGW_TIME_CFG_PERIOD : Fld := ⟨0x800008, 4, 10⟩
/-- BGW_TIME_CFG.UTC_OFFSET, Table 22-10. -/
def Reg.BGW_TIME_CFG_UTC_OFFSET : Fld := ⟨0x800008, 32, 16⟩
/-- BGW_KEYSTAT.PROG, Table 22-10. -/
def Reg.BGW_KEYSTAT_PROG : Fld := ⟨0x800010, 0, 2⟩
/-- BGW_KEYSTAT.ERR, Table 22-10. -/
def Reg.BGW_KEYSTAT_ERR : Fld := ⟨0x800010, 2, 2⟩
/-- BGW_CRC_ERRc, Table 22-10. -/
def Reg.BGW_CRC_ERR (n : Nat) : Fld := ⟨0x800020 + 0x8 * n, 0, 32⟩
/-- BGW_MR_BASE, Table 22-10. -/
def Reg.BGW_MR_BASE : Fld := ⟨0x800030, 0, 48⟩
/-- BGW_MR_CTL.EN, Table 22-10. -/
def Reg.BGW_MR_CTL_EN : Fld := ⟨0x800038, 0, 1⟩
/-- BGW_MR_CTL.LOG2, Table 22-10. -/
def Reg.BGW_MR_CTL_LOG2 : Fld := ⟨0x800038, 8, 4⟩
/-- BGW_MR_WR, Table 22-10. -/
def Reg.BGW_MR_WR : Fld := ⟨0x800040, 0, 32⟩
/-- BGW_MR_RD, Table 22-10. -/
def Reg.BGW_MR_RD : Fld := ⟨0x800048, 0, 32⟩
/-- BGW_TXc, Table 22-10. -/
def Reg.BGW_TX (n : Nat) (i : Nat) : Fld := ⟨0x800100 + 0x80 * n + 0x8 * i, 0, 64⟩
/-- BGW_TXc_GO, Table 22-10. -/
def Reg.BGW_TX_GO (n : Nat) : Fld := ⟨0x800140 + 0x80 * n, 0, 1⟩
/-- BGW_TXc_SENT, Table 22-10. -/
def Reg.BGW_TX_SENT (n : Nat) : Fld := ⟨0x800148 + 0x80 * n, 0, 32⟩
/-- BGW_TXc_DROP, Table 22-10. -/
def Reg.BGW_TX_DROP (n : Nat) : Fld := ⟨0x800150 + 0x80 * n, 0, 32⟩
/-- BGW_TXc_FILL, Table 22-10. -/
def Reg.BGW_TX_FILL (n : Nat) : Fld := ⟨0x800158 + 0x80 * n, 0, 5⟩
/-- BGW_KEYPROGk_DATA, Table 22-10. -/
def Reg.BGW_KEYPROG_DATA (n : Nat) : Fld := ⟨0x800200 + 0x40 * n, 0, 32⟩
/-- BGW_KEYPROGk_CHK, Table 22-10. -/
def Reg.BGW_KEYPROG_CHK (n : Nat) : Fld := ⟨0x800208 + 0x40 * n, 0, 32⟩
/-- BGW_KEYPROGk_GO, Table 22-10. -/
def Reg.BGW_KEYPROG_GO (n : Nat) : Fld := ⟨0x800210 + 0x40 * n, 0, 1⟩
/-- BGW_SRCnnn_CFG.EN, Table 22-10. -/
def Reg.BGW_SRC_CFG_EN (n : Nat) : Fld := ⟨0x801000 + 0x20 * n, 0, 1⟩
/-- BGW_SRCnnn_CFG.LOG2, Table 22-10. -/
def Reg.BGW_SRC_CFG_LOG2 (n : Nat) : Fld := ⟨0x801000 + 0x20 * n, 8, 4⟩
/-- BGW_SRCnnn_BASE, Table 22-10. -/
def Reg.BGW_SRC_BASE (n : Nat) : Fld := ⟨0x801008 + 0x20 * n, 0, 48⟩
/-- BGW_SRCnnn_WR, Table 22-10. -/
def Reg.BGW_SRC_WR (n : Nat) : Fld := ⟨0x801010 + 0x20 * n, 0, 32⟩
/-- BGW_SRCnnn_RD, Table 22-10. -/
def Reg.BGW_SRC_RD (n : Nat) : Fld := ⟨0x801018 + 0x20 * n, 0, 32⟩
/-- SOL_LRN_CFG.EN, Table 22-11. -/
def Reg.SOL_LRN_CFG_EN : Fld := ⟨0x900000, 0, 1⟩
/-- SOL_LRN_CFG.PIPE, Table 22-11. -/
def Reg.SOL_LRN_CFG_PIPE : Fld := ⟨0x900000, 1, 2⟩
/-- SOL_LRN_CFG.K_POS, Table 22-11. -/
def Reg.SOL_LRN_CFG_K_POS : Fld := ⟨0x900000, 4, 4⟩
/-- SOL_LRN_CFG.K_NEG, Table 22-11. -/
def Reg.SOL_LRN_CFG_K_NEG : Fld := ⟨0x900000, 8, 4⟩
/-- SOL_LRN_CFG.THETA, Table 22-11. -/
def Reg.SOL_LRN_CFG_THETA : Fld := ⟨0x900000, 12, 11⟩
/-- SOL_LRN_CFG.CLOG2, Table 22-11. -/
def Reg.SOL_LRN_CFG_CLOG2 : Fld := ⟨0x900000, 24, 4⟩
/-- SOL_LRN_CFG.EMB_OFF, Table 22-11. -/
def Reg.SOL_LRN_CFG_EMB_OFF : Fld := ⟨0x900000, 32, 32⟩
/-- SOL_LRN_TBASE, Table 22-11. -/
def Reg.SOL_LRN_TBASE : Fld := ⟨0x900008, 0, 48⟩
/-- SOL_LRN_ROWS, Table 22-11. -/
def Reg.SOL_LRN_ROWS : Fld := ⟨0x900010, 0, 13⟩
/-- SOL_LRN_CBASE, Table 22-11. -/
def Reg.SOL_LRN_CBASE : Fld := ⟨0x900018, 0, 48⟩
/-- SOL_LRN_LBASE, Table 22-11. -/
def Reg.SOL_LRN_LBASE : Fld := ⟨0x900020, 0, 48⟩
/-- SOL_LRN_LLOG2, Table 22-11. -/
def Reg.SOL_LRN_LLOG2 : Fld := ⟨0x900028, 0, 4⟩
/-- SOL_LRN_LWR, Table 22-11. -/
def Reg.SOL_LRN_LWR : Fld := ⟨0x900030, 0, 32⟩
/-- SOL_LRN_LRD, Table 22-11. -/
def Reg.SOL_LRN_LRD : Fld := ⟨0x900038, 0, 32⟩
/-- SOL_LRN_TSEL, Table 22-11. -/
def Reg.SOL_LRN_TSEL : Fld := ⟨0x900040, 0, 12⟩
/-- SOL_LRN_SEED.ROW, Table 22-11. -/
def Reg.SOL_LRN_SEED_ROW : Fld := ⟨0x900048, 0, 12⟩
/-- SOL_LRN_SEED.SEED, Table 22-11. -/
def Reg.SOL_LRN_SEED_SEED : Fld := ⟨0x900048, 32, 32⟩
/-- SOL_RELEASE_HOLD, Table 22-11. -/
def Reg.SOL_RELEASE_HOLD : Fld := ⟨0x900050, 0, 48⟩
/-- SOL_BIST.GO, Table 22-11. -/
def Reg.SOL_BIST_GO : Fld := ⟨0x900058, 0, 1⟩
/-- SOL_BIST.DONE, Table 22-11. -/
def Reg.SOL_BIST_DONE : Fld := ⟨0x900058, 1, 1⟩
/-- SOL_BIST.PASS, Table 22-11. -/
def Reg.SOL_BIST_PASS : Fld := ⟨0x900058, 2, 1⟩
/-- SOL_LRN_TRDn, Table 22-11. -/
def Reg.SOL_LRN_TRD (n : Nat) : Fld := ⟨0x900400 + 0x8 * n, 0, 32⟩
/-- PCI_WINw.EN, Table 22-12. -/
def Reg.PCI_WIN_EN (n : Nat) : Fld := ⟨0xA00000 + 0x8 * n, 0, 1⟩
/-- PCI_WINw.BASE, Table 22-12. -/
def Reg.PCI_WIN_BASE (n : Nat) : Fld := ⟨0xA00000 + 0x8 * n, 8, 18⟩
/-- PCI_LINK_STAT.RATE, Table 22-12. -/
def Reg.PCI_LINK_STAT_RATE : Fld := ⟨0xA00040, 0, 3⟩
/-- PCI_LINK_STAT.WIDTH, Table 22-12. -/
def Reg.PCI_LINK_STAT_WIDTH : Fld := ⟨0xA00040, 4, 5⟩
/-- PCI_LINK_STAT.UP, Table 22-12. -/
def Reg.PCI_LINK_STAT_UP : Fld := ⟨0xA00040, 12, 1⟩
/-- PCI_UR_COUNT, Table 22-12. -/
def Reg.PCI_UR_COUNT : Fld := ⟨0xA00048, 0, 32⟩
/-- CCnn_CTXj_CTL, Table 23-2. -/
def Reg.CC_CTX_CTL (n : Nat) (i : Nat) (j : Nat) : Fld := ⟨0x1000000 + 0x100000 * n + 0x30000 * i + 0x300 * j, 0, 64⟩
/-- CCnn_CTXj_ROUTER_HDR, Table 23-2. -/
def Reg.CC_CTX_ROUTER_HDR (n : Nat) (i : Nat) (j : Nat) : Fld := ⟨0x1000008 + 0x100000 * n + 0x30000 * i + 0x300 * j, 0, 64⟩
/-- CCnn_CTXj_ACC_HDR, Table 23-2. -/
def Reg.CC_CTX_ACC_HDR (n : Nat) (i : Nat) (j : Nat) : Fld := ⟨0x1000010 + 0x100000 * n + 0x30000 * i + 0x300 * j, 0, 64⟩
/-- CCnn_CTXj_BODYi, Table 23-2. -/
def Reg.CC_CTX_BODY (n : Nat) (i : Nat) (j : Nat) (k : Nat) : Fld := ⟨0x1000020 + 0x100000 * n + 0x30000 * i + 0x300 * j + 0x8 * k, 0, 64⟩
/-- CCnn_CTXj_STr, Table 23-2. -/
def Reg.CC_CTX_ST (n : Nat) (i : Nat) (j : Nat) (k : Nat) : Fld := ⟨0x10000A0 + 0x100000 * n + 0x30000 * i + 0x300 * j + 0x8 * k, 0, 64⟩
/-- CCnn_CTXj_SLOTs, Table 23-2. -/
def Reg.CC_CTX_SLOT (n : Nat) (i : Nat) (j : Nat) (k : Nat) : Fld := ⟨0x1000180 + 0x100000 * n + 0x30000 * i + 0x300 * j + 0x8 * k, 0, 64⟩
/-- CCnn_IMEMi, Table 23-1. -/
def Reg.CC_IMEM (n : Nat) (i : Nat) : Fld := ⟨0x10C0000 + 0x100000 * n + 0x8 * i, 0, 64⟩
/-- CCnn_GWOUTj_s, Table 23-1. -/
def Reg.CC_GWOUT (n : Nat) (i : Nat) (j : Nat) : Fld := ⟨0x10C8000 + 0x100000 * n + 0x400 * i + 0x8 * j, 0, 64⟩
/-- CCnn_GWINj_s, Table 23-1. -/
def Reg.CC_GWIN (n : Nat) (i : Nat) (j : Nat) : Fld := ⟨0x10C9000 + 0x100000 * n + 0x400 * i + 0x8 * j, 0, 64⟩
/-- CCnn_CTX_PERIODj, Table 23-4. -/
def Reg.CC_CTX_PERIOD (n : Nat) (i : Nat) : Fld := ⟨0x10D0000 + 0x100000 * n + 0x1000 * i, 0, 6⟩
/-- CCnn_GW_HDRj.MARGIN, Table 23-4. -/
def Reg.CC_GW_HDR_MARGIN (n : Nat) (i : Nat) : Fld := ⟨0x10D0008 + 0x100000 * n + 0x1000 * i, 0, 5⟩
/-- CCnn_GW_HDRj.OCC, Table 23-4. -/
def Reg.CC_GW_HDR_OCC (n : Nat) (i : Nat) : Fld := ⟨0x10D0008 + 0x100000 * n + 0x1000 * i, 8, 6⟩
/-- CCnn_GW_HDRj.HOLD_BOUND, Table 23-4. -/
def Reg.CC_GW_HDR_HOLD_BOUND (n : Nat) (i : Nat) : Fld := ⟨0x10D0008 + 0x100000 * n + 0x1000 * i, 16, 16⟩
/-- CCnn_WAKE_OFFj, Table 23-4. -/
def Reg.CC_WAKE_OFF (n : Nat) (i : Nat) : Fld := ⟨0x10D0010 + 0x100000 * n + 0x1000 * i, 0, 32⟩
/-- CCnn_CARRY_DESCj_c, Table 23-4. -/
def Reg.CC_CARRY_DESC (n : Nat) (i : Nat) (j : Nat) : Fld := ⟨0x10D0040 + 0x100000 * n + 0x1000 * i + 0x8 * j, 0, 64⟩
/-- CCnn_RBUFj_b, Table 23-4. -/
def Reg.CC_RBUF (n : Nat) (i : Nat) (j : Nat) (k : Nat) : Fld := ⟨0x10D0100 + 0x100000 * n + 0x1000 * i + 0x10 * j + 0x8 * k, 0, 64⟩
/-- CCnn_FSTRj_e, Table 23-4. -/
def Reg.CC_FSTR (n : Nat) (i : Nat) (j : Nat) (k : Nat) : Fld := ⟨0x10D0200 + 0x100000 * n + 0x1000 * i + 0x20 * j + 0x8 * k, 0, 64⟩
/-- CCnn_RSCj_g, Table 23-4. -/
def Reg.CC_RSC (n : Nat) (i : Nat) (j : Nat) (k : Nat) : Fld := ⟨0x10D0300 + 0x100000 * n + 0x1000 * i + 0x10 * j + 0x8 * k, 0, 64⟩
/-- CCnn_DW_DESCj, Table 23-4. -/
def Reg.CC_DW_DESC (n : Nat) (i : Nat) (j : Nat) : Fld := ⟨0x10D0380 + 0x100000 * n + 0x1000 * i + 0x8 * j, 0, 64⟩
/-- CCnn_SEQj_q, Table 23-4. -/
def Reg.CC_SEQ (n : Nat) (i : Nat) (j : Nat) (k : Nat) : Fld := ⟨0x10D0400 + 0x100000 * n + 0x1000 * i + 0x10 * j + 0x8 * k, 0, 64⟩
/-- CCnn_HZ_TAGj_k, Table 23-4. -/
def Reg.CC_HZ_TAG (n : Nat) (i : Nat) (j : Nat) : Fld := ⟨0x10D0500 + 0x100000 * n + 0x1000 * i + 0x8 * j, 0, 64⟩
/-- CCnn_HZ_SEQj_q, Table 23-4. -/
def Reg.CC_HZ_SEQ (n : Nat) (i : Nat) (j : Nat) : Fld := ⟨0x10D0580 + 0x100000 * n + 0x1000 * i + 0x8 * j, 0, 22⟩
/-- CCnn_CTX_STAT.ACTIVE, Table 23-6. -/
def Reg.CC_CTX_STAT_ACTIVE (n : Nat) : Fld := ⟨0x10E0000 + 0x100000 * n, 0, 2⟩
/-- CCnn_CTX_STAT.SECTION, Table 23-6. -/
def Reg.CC_CTX_STAT_SECTION (n : Nat) : Fld := ⟨0x10E0000 + 0x100000 * n, 8, 8⟩
/-- CCnn_CTX_STAT.RELOAD, Table 23-6. -/
def Reg.CC_CTX_STAT_RELOAD (n : Nat) : Fld := ⟨0x10E0000 + 0x100000 * n, 16, 1⟩
/-- CCnn_CTX_STAT.ENDED, Table 23-6. -/
def Reg.CC_CTX_STAT_ENDED (n : Nat) : Fld := ⟨0x10E0000 + 0x100000 * n, 17, 1⟩
/-- CCnn_CIMG_BASE, Table 23-6. -/
def Reg.CC_CIMG_BASE (n : Nat) : Fld := ⟨0x10E0008 + 0x100000 * n, 0, 30⟩
/-- CCnn_CIMG_STRIDE, Table 23-6. -/
def Reg.CC_CIMG_STRIDE (n : Nat) : Fld := ⟨0x10E0010 + 0x100000 * n, 0, 30⟩
/-- CCnn_CIMG_CTL.NSECT, Table 23-6. -/
def Reg.CC_CIMG_CTL_NSECT (n : Nat) : Fld := ⟨0x10E0018 + 0x100000 * n, 0, 8⟩
/-- CCnn_CIMG_CTL.EN, Table 23-6. -/
def Reg.CC_CIMG_CTL_EN (n : Nat) : Fld := ⟨0x10E0018 + 0x100000 * n, 8, 1⟩
/-- CCnn_HB_STAT.MISS, Table 23-6. -/
def Reg.CC_HB_STAT_MISS (n : Nat) : Fld := ⟨0x10E0020 + 0x100000 * n, 0, 4⟩
/-- CCnn_BIST.GO, Table 23-6. -/
def Reg.CC_BIST_GO (n : Nat) : Fld := ⟨0x10E0028 + 0x100000 * n, 0, 1⟩
/-- CCnn_BIST.DONE, Table 23-6. -/
def Reg.CC_BIST_DONE (n : Nat) : Fld := ⟨0x10E0028 + 0x100000 * n, 1, 1⟩
/-- CCnn_BIST.PASS, Table 23-6. -/
def Reg.CC_BIST_PASS (n : Nat) : Fld := ⟨0x10E0028 + 0x100000 * n, 2, 1⟩
/-- CCnn_WDENY.COUNT, Table 23-6. -/
def Reg.CC_WDENY_COUNT (n : Nat) : Fld := ⟨0x10E0030 + 0x100000 * n, 0, 16⟩
/-- CCnn_TALLY_CTL.SNAP, Table 23-6. -/
def Reg.CC_TALLY_CTL_SNAP (n : Nat) : Fld := ⟨0x10E0100 + 0x100000 * n, 0, 1⟩
/-- CCnn_TALLY_CTL.CLEAR, Table 23-6. -/
def Reg.CC_TALLY_CTL_CLEAR (n : Nat) : Fld := ⟨0x10E0100 + 0x100000 * n, 1, 1⟩
/-- CCnn_TALLY_CTL.STAGE_EN, Table 23-6. -/
def Reg.CC_TALLY_CTL_STAGE_EN (n : Nat) : Fld := ⟨0x10E0100 + 0x100000 * n, 2, 1⟩
/-- CCnn_TALLY_CTL.STAGE, Table 23-6. -/
def Reg.CC_TALLY_CTL_STAGE (n : Nat) : Fld := ⟨0x10E0100 + 0x100000 * n, 8, 8⟩
/-- CCnn_TALLYi, Table 23-6. -/
def Reg.CC_TALLY (n : Nat) (i : Nat) : Fld := ⟨0x10E0180 + 0x100000 * n + 0x8 * i, 0, 48⟩
/-- CCnn_TALLY_SHi, Table 23-6. -/
def Reg.CC_TALLY_SH (n : Nat) (i : Nat) : Fld := ⟨0x10E0200 + 0x100000 * n + 0x8 * i, 0, 48⟩
/-- CCnn_TALLY_SNAPT, Table 23-6. -/
def Reg.CC_TALLY_SNAPT (n : Nat) : Fld := ⟨0x10E0280 + 0x100000 * n, 0, 64⟩
/-- CCnn_VT_START.SLOT, Table 23-7. -/
def Reg.CC_VT_START_SLOT (n : Nat) : Fld := ⟨0x10E1000 + 0x100000 * n, 0, 5⟩
/-- CCnn_VT_START.PC, Table 23-7. -/
def Reg.CC_VT_START_PC (n : Nat) : Fld := ⟨0x10E1000 + 0x100000 * n, 16, 12⟩
/-- CCnn_VT_START.GO, Table 23-7. -/
def Reg.CC_VT_START_GO (n : Nat) : Fld := ⟨0x10E1000 + 0x100000 * n, 31, 1⟩
/-- CCnn_VT_START.STATUS, Table 23-7. -/
def Reg.CC_VT_START_STATUS (n : Nat) : Fld := ⟨0x10E1000 + 0x100000 * n, 32, 2⟩
/-- CCnn_VT_START.TAKEN, Table 23-7. -/
def Reg.CC_VT_START_TAKEN (n : Nat) : Fld := ⟨0x10E1000 + 0x100000 * n, 40, 5⟩
/-- CCnn_VT_ARGk, Table 23-7. -/
def Reg.CC_VT_ARG (n : Nat) (i : Nat) : Fld := ⟨0x10E1008 + 0x100000 * n + 0x8 * i, 0, 64⟩
/-- CCnn_VT_CTL.KILL, Table 23-7. -/
def Reg.CC_VT_CTL_KILL (n : Nat) : Fld := ⟨0x10E1040 + 0x100000 * n, 0, 16⟩
/-- CCnn_VT_CTL.FREE, Table 23-7. -/
def Reg.CC_VT_CTL_FREE (n : Nat) : Fld := ⟨0x10E1040 + 0x100000 * n, 16, 16⟩
/-- CCnn_VT_SLOTj.STATE, Table 23-7. -/
def Reg.CC_VT_SLOT_STATE (n : Nat) (i : Nat) : Fld := ⟨0x10E1100 + 0x100000 * n + 0x8 * i, 0, 3⟩
/-- CCnn_VT_SLOTj.STAGE, Table 23-7. -/
def Reg.CC_VT_SLOT_STAGE (n : Nat) (i : Nat) : Fld := ⟨0x10E1100 + 0x100000 * n + 0x8 * i, 3, 1⟩
/-- CCnn_VT_SLOTj.CAUSE, Table 23-7. -/
def Reg.CC_VT_SLOT_CAUSE (n : Nat) (i : Nat) : Fld := ⟨0x10E1100 + 0x100000 * n + 0x8 * i, 4, 4⟩
/-- CCnn_VT_SLOTj.PC, Table 23-7. -/
def Reg.CC_VT_SLOT_PC (n : Nat) (i : Nat) : Fld := ⟨0x10E1100 + 0x100000 * n + 0x8 * i, 16, 12⟩
/-- CCnn_VT_SLOTj.TSTAT, Table 23-7. -/
def Reg.CC_VT_SLOT_TSTAT (n : Nat) (i : Nat) : Fld := ⟨0x10E1100 + 0x100000 * n + 0x8 * i, 32, 7⟩
/-- CCnn_VT_SLOTj.TAG, Table 23-7. -/
def Reg.CC_VT_SLOT_TAG (n : Nat) (i : Nat) : Fld := ⟨0x10E1100 + 0x100000 * n + 0x8 * i, 48, 8⟩
/-- MCm_TEMP.C, Table 23-8. -/
def Reg.MC_TEMP_C (n : Nat) : Fld := ⟨0x3000000 + 0x100000 * n, 0, 8⟩
/-- MCm_TEMP.HOT, Table 23-8. -/
def Reg.MC_TEMP_HOT (n : Nat) : Fld := ⟨0x3000000 + 0x100000 * n, 8, 1⟩
/-- MCm_TRAIN_CTL.GO, Table 23-8. -/
def Reg.MC_TRAIN_CTL_GO (n : Nat) : Fld := ⟨0x3000008 + 0x100000 * n, 0, 1⟩
/-- MCm_TRAIN_CTL.DONE, Table 23-8. -/
def Reg.MC_TRAIN_CTL_DONE (n : Nat) : Fld := ⟨0x3000008 + 0x100000 * n, 1, 1⟩
/-- MCm_CH_MAP.ACTIVE, Table 23-8. -/
def Reg.MC_CH_MAP_ACTIVE (n : Nat) : Fld := ⟨0x3000010 + 0x100000 * n, 0, 16⟩
/-- MCm_CH_MAP.LOST, Table 23-8. -/
def Reg.MC_CH_MAP_LOST (n : Nat) : Fld := ⟨0x3000010 + 0x100000 * n, 16, 16⟩
/-- MCm_WCB_CFG.AGE, Table 23-8. -/
def Reg.MC_WCB_CFG_AGE (n : Nat) : Fld := ⟨0x3000018 + 0x100000 * n, 0, 4⟩
/-- MCm_WCB_STAT.HELD, Table 23-8. -/
def Reg.MC_WCB_STAT_HELD (n : Nat) : Fld := ⟨0x3000020 + 0x100000 * n, 0, 7⟩
/-- MCm_WCB_FLUSH, Table 23-8. -/
def Reg.MC_WCB_FLUSH (n : Nat) : Fld := ⟨0x3000028 + 0x100000 * n, 0, 48⟩
/-- MCm_WCB_WAIT, Table 23-8. -/
def Reg.MC_WCB_WAIT (n : Nat) : Fld := ⟨0x3000030 + 0x100000 * n, 0, 48⟩
/-- MCm_RETRY_CFG.EN, Table 23-8. -/
def Reg.MC_RETRY_CFG_EN (n : Nat) : Fld := ⟨0x3000038 + 0x100000 * n, 0, 1⟩
/-- MCm_INJ.CHANNEL, Table 23-8. -/
def Reg.MC_INJ_CHANNEL (n : Nat) : Fld := ⟨0x3000040 + 0x100000 * n, 0, 4⟩
/-- MCm_INJ.ARM, Table 23-8. -/
def Reg.MC_INJ_ARM (n : Nat) : Fld := ⟨0x3000040 + 0x100000 * n, 8, 1⟩
/-- MCm_INJ.WORD, Table 23-8. -/
def Reg.MC_INJ_WORD (n : Nat) : Fld := ⟨0x3000040 + 0x100000 * n, 32, 25⟩
/-- MCm_INJ_MASK, Table 23-8. -/
def Reg.MC_INJ_MASK (n : Nat) : Fld := ⟨0x3000048 + 0x100000 * n, 0, 32⟩
/-- MCm_TRAIN_STATc.PASS, Table 23-9. -/
def Reg.MC_TRAIN_STAT_PASS (n : Nat) (i : Nat) : Fld := ⟨0x3001000 + 0x100000 * n + 0x100 * i, 0, 1⟩
/-- MCm_TRAIN_STATc.REPAIRED, Table 23-9. -/
def Reg.MC_TRAIN_STAT_REPAIRED (n : Nat) (i : Nat) : Fld := ⟨0x3001000 + 0x100000 * n + 0x100 * i, 4, 4⟩
/-- MCm_TRAIN_STATc.MARGIN, Table 23-9. -/
def Reg.MC_TRAIN_STAT_MARGIN (n : Nat) (i : Nat) : Fld := ⟨0x3001000 + 0x100000 * n + 0x100 * i, 8, 8⟩
/-- MCm_ECCc_CNT0.CORRECTED, Table 23-9. -/
def Reg.MC_ECC_CNT0_CORRECTED (n : Nat) (i : Nat) : Fld := ⟨0x3001008 + 0x100000 * n + 0x100 * i, 0, 32⟩
/-- MCm_ECCc_CNT0.UNCORRECTABLE, Table 23-9. -/
def Reg.MC_ECC_CNT0_UNCORRECTABLE (n : Nat) (i : Nat) : Fld := ⟨0x3001008 + 0x100000 * n + 0x100 * i, 32, 32⟩
/-- MCm_ECCc_CNT1.POISON_READ, Table 23-9. -/
def Reg.MC_ECC_CNT1_POISON_READ (n : Nat) (i : Nat) : Fld := ⟨0x3001010 + 0x100000 * n + 0x100 * i, 0, 32⟩
/-- MCm_ECCc_CNT1.POISON_WRITTEN, Table 23-9. -/
def Reg.MC_ECC_CNT1_POISON_WRITTEN (n : Nat) (i : Nat) : Fld := ⟨0x3001010 + 0x100000 * n + 0x100 * i, 32, 32⟩
/-- MCm_ECCc_CNT2.RETRY_RECOVERED, Table 23-9. -/
def Reg.MC_ECC_CNT2_RETRY_RECOVERED (n : Nat) (i : Nat) : Fld := ⟨0x3001018 + 0x100000 * n + 0x100 * i, 0, 32⟩
/-- MCm_ECCc_LAST.OFFSET, Table 23-9. -/
def Reg.MC_ECC_LAST_OFFSET (n : Nat) (i : Nat) : Fld := ⟨0x3001020 + 0x100000 * n + 0x100 * i, 0, 30⟩
/-- MCm_ECCc_LAST.KIND, Table 23-9. -/
def Reg.MC_ECC_LAST_KIND (n : Nat) (i : Nat) : Fld := ⟨0x3001020 + 0x100000 * n + 0x100 * i, 32, 3⟩
/-- MCm_TGc_CTL.START, Table 23-9. -/
def Reg.MC_TG_CTL_START (n : Nat) (i : Nat) : Fld := ⟨0x3001040 + 0x100000 * n + 0x100 * i, 0, 1⟩
/-- MCm_TGc_CTL.DONE, Table 23-9. -/
def Reg.MC_TG_CTL_DONE (n : Nat) (i : Nat) : Fld := ⟨0x3001040 + 0x100000 * n + 0x100 * i, 1, 1⟩
/-- MCm_TGc_CTL.BUSY, Table 23-9. -/
def Reg.MC_TG_CTL_BUSY (n : Nat) (i : Nat) : Fld := ⟨0x3001040 + 0x100000 * n + 0x100 * i, 2, 1⟩
/-- MCm_TGc_CTL.ABORTED, Table 23-9. -/
def Reg.MC_TG_CTL_ABORTED (n : Nat) (i : Nat) : Fld := ⟨0x3001040 + 0x100000 * n + 0x100 * i, 3, 1⟩
/-- MCm_TGc_CTL.MODE, Table 23-9. -/
def Reg.MC_TG_CTL_MODE (n : Nat) (i : Nat) : Fld := ⟨0x3001040 + 0x100000 * n + 0x100 * i, 4, 2⟩
/-- MCm_TGc_CTL.PATTERN, Table 23-9. -/
def Reg.MC_TG_CTL_PATTERN (n : Nat) (i : Nat) : Fld := ⟨0x3001040 + 0x100000 * n + 0x100 * i, 6, 2⟩
/-- MCm_TGc_CTL.NARROW, Table 23-9. -/
def Reg.MC_TG_CTL_NARROW (n : Nat) (i : Nat) : Fld := ⟨0x3001040 + 0x100000 * n + 0x100 * i, 8, 1⟩
/-- MCm_TGc_CTL.PASSES, Table 23-9. -/
def Reg.MC_TG_CTL_PASSES (n : Nat) (i : Nat) : Fld := ⟨0x3001040 + 0x100000 * n + 0x100 * i, 16, 16⟩
/-- MCm_TGc_RANGE.START_WORD, Table 23-9. -/
def Reg.MC_TG_RANGE_START_WORD (n : Nat) (i : Nat) : Fld := ⟨0x3001048 + 0x100000 * n + 0x100 * i, 0, 25⟩
/-- MCm_TGc_RANGE.END_WORD, Table 23-9. -/
def Reg.MC_TG_RANGE_END_WORD (n : Nat) (i : Nat) : Fld := ⟨0x3001048 + 0x100000 * n + 0x100 * i, 32, 25⟩
/-- MCm_TGc_STRIDE, Table 23-9. -/
def Reg.MC_TG_STRIDE (n : Nat) (i : Nat) : Fld := ⟨0x3001050 + 0x100000 * n + 0x100 * i, 0, 24⟩
/-- MCm_TGc_SEED, Table 23-9. -/
def Reg.MC_TG_SEED (n : Nat) (i : Nat) : Fld := ⟨0x3001058 + 0x100000 * n + 0x100 * i, 0, 31⟩
/-- MCm_TGc_CONST, Table 23-9. -/
def Reg.MC_TG_CONST (n : Nat) (i : Nat) : Fld := ⟨0x3001060 + 0x100000 * n + 0x100 * i, 0, 64⟩
/-- MCm_TGc_MISMATCH, Table 23-9. -/
def Reg.MC_TG_MISMATCH (n : Nat) (i : Nat) : Fld := ⟨0x3001068 + 0x100000 * n + 0x100 * i, 0, 48⟩
/-- MCm_TGc_FIRST.WORD, Table 23-9. -/
def Reg.MC_TG_FIRST_WORD (n : Nat) (i : Nat) : Fld := ⟨0x3001070 + 0x100000 * n + 0x100 * i, 0, 25⟩
/-- MCm_TGc_FIRST.VALID, Table 23-9. -/
def Reg.MC_TG_FIRST_VALID (n : Nat) (i : Nat) : Fld := ⟨0x3001070 + 0x100000 * n + 0x100 * i, 32, 1⟩
/-- MCm_TGc_FIRST_XOR, Table 23-9. -/
def Reg.MC_TG_FIRST_XOR (n : Nat) (i : Nat) : Fld := ⟨0x3001078 + 0x100000 * n + 0x100 * i, 0, 64⟩
/-- MCm_TGc_ECC.CORRECTED, Table 23-9. -/
def Reg.MC_TG_ECC_CORRECTED (n : Nat) (i : Nat) : Fld := ⟨0x3001080 + 0x100000 * n + 0x100 * i, 0, 32⟩
/-- MCm_TGc_ECC.UNCORRECTABLE, Table 23-9. -/
def Reg.MC_TG_ECC_UNCORRECTABLE (n : Nat) (i : Nat) : Fld := ⟨0x3001080 + 0x100000 * n + 0x100 * i, 32, 32⟩
/-- MCm_TGc_POISON, Table 23-9. -/
def Reg.MC_TG_POISON (n : Nat) (i : Nat) : Fld := ⟨0x3001088 + 0x100000 * n + 0x100 * i, 0, 32⟩
/-- MCm_TGc_ELAPSED, Table 23-9. -/
def Reg.MC_TG_ELAPSED (n : Nat) (i : Nat) : Fld := ⟨0x3001090 + 0x100000 * n + 0x100 * i, 0, 48⟩

end Sys2Proof
end

