-- ==== Sys2Proof/Machine/State.lean ====
section
/-!
DEFINITION. The state of the CT6432, as plain data: one record per part of the device (INVENTORY.md, State). Every
control-space register lives in `regs`, once; what no register shows lives in the typed records.
-/

namespace Sys2Proof.Machine


/-- The Almanac and its adjustments (spec/02_almanac_and_beats.md R28 to R38). `alm` counts units of
1/(125 · 2^39) ns, in which every increment of R29 and R33 is a whole number; ns and the 16-bit fraction are its
truncations (DESIGN CHOICE, log entry 1). -/
structure AlmState where
  alm : Nat := 0
  /-- slew not yet absorbed, in 1/500 ns, the amount one tick absorbs (R33) -/
  slewRem : Int := 0
  /-- the Almanac runs on the crystal (R37) -/
  crystal : Bool := true
  /-- the staged low half of ALM_STEP (R554) -/
  stepLow : Nat := 0
  /-- Almanac value, in 2^-16 ns, at the first edge of the present measuring window (R36) -/
  winStart : Nat := 0
  /-- a step was written within the window, so it is discarded (R36) -/
  winBad : Bool := false
  /-- the present crystal failure has been reported (R36: once for that failure) -/
  aonFail : Bool := false
  /-- each agent's latch of ALM_NOW_HI and ALM_NOW_FRAC, keyed by Agent.idx (R552) -/
  latch : List (Nat × (Nat × Nat)) := []
  /-- instants at which harts' mtimecmp compares are due, keyed by hart (R504) -/
  mtimecmp : List (Nat × Option Nat) := []
  deriving DecidableEq, Repr

/-- What a beat machine holds beside its registers (R44 to R57). -/
structure BeatM where
  /-- total index of the next beat since arming; the rotation position follows it (R377) -/
  kTot : Nat := 0
  /-- grid instant of the next beat (R47, R51, R57) -/
  gNext : Nat := 0
  /-- scheduled instant n of the next beat (R48, R52), Retally holds included (R55) -/
  nNext : Nat := 0
  /-- rotation position of the next beat (R377) -/
  pos : Nat := 0
  /-- a write to B takes effect at the next beat (R51) -/
  rebase : Bool := false
  /-- largest lag of the open excursion (R53) -/
  maxLag : Nat := 0
  /-- Almanac at the arming write (R378) -/
  armedAt : Nat := 0
  /-- Almanac ns at which the machine last reached IDLE (Table 20-7, STOP) -/
  idleAt : Nat := 0
  /-- SCALE_WAIT has been raised for the next beat (R174) -/
  scaleWait : Bool := false
  /-- a forward step has passed the next beat, and its entry was not ready: it launches late (R56) -/
  late : Bool := false
  deriving DecidableEq, Repr

/-- A fault record as raised (spec/18_faults_and_ordering.md Table 18-3); RSEQ is set when it is written. -/
structure FaultRec where
  cls : Nat
  code : Nat
  unit : Nat
  time : Nat
  /-- stream and frame number, when FLAGS.FRAME -/
  frame : Option (Nat × Nat) := none
  /-- pipeline, when FLAGS.PIPE -/
  pipe : Option Nat := none
  /-- frame-in-flight number, when FLAGS.FIF -/
  fif : Option Nat := none
  devnum : Nat := 0
  detail : Nat := 0
  /-- the REPORTS_LOST summary of R471, with its counts per class -/
  summary : Option (List Nat) := none
  deriving DecidableEq, Repr

/-- The fault unit beside its registers (R468 to R474). -/
structure FltState where
  /-- the pending store in ring order (R470, R471) -/
  pend : List FaultRec := []
  /-- destinations whose interrupt is asserted, keyed by destination (R474) -/
  irqOn : List (Nat × Bool) := []
  /-- Almanac ns at which each destination's interrupt was last asserted (R474) -/
  irqLast : List (Nat × Option Nat) := []
  deriving DecidableEq, Repr

/-- The device states (Table 19-3), with reset held (R527) and the thermal-trip condition (R499). -/
inductive DevState where
  | reset | dormant | waking | active | tripped
  deriving DecidableEq, Repr

/-- The power controller beside its registers (spec/19_power_and_clocks.md). -/
structure PwrState where
  dev : DevState := .waking
  oscEn : Bool := true
  /-- PW_TRIP_N is driven low (R499, R593) -/
  tripLow : Bool := false
  /-- PE_PERST_N is low (R594) -/
  perst : Bool := false
  /-- the reference has been accepted in this Waking (R488) -/
  refOk : Bool := false
  /-- Waking began from Dormant with memory controllers held (R487) -/
  fromDormant : Bool := false
  /-- memory controllers that have been in Dormant since they were last ON, keyed by controller: each retrains its committed channels on
  its way back to ON (R5, R487) -/
  slept : List (Nat × Bool) := []
  /-- Almanac on the crystal already returned (R38) -/
  almBack : Bool := false
  /-- requested states in transition, keyed by domain (R484) -/
  trans : List (Nat × Option Nat) := []
  /-- SLEEP accepted, and the device waits for the steward core's WFI (R486) -/
  sleeping : Bool := false
  /-- divider waiting for the LDO to settle, keyed by core or 32 (R490) -/
  divWait : List (Nat × Option Nat) := []
  /-- AVS iterations below LOW at 0.85 V, keyed by core or 32 (R492) -/
  ceilCnt : List (Nat × Nat) := []
  /-- sensors whose last sample reached 115 °C (R499) -/
  hot115 : List Nat := []
  /-- Almanac at which stage 1 engaged, until the check 10 ms later (R498) -/
  stage1At : Option Nat := none
  /-- Almanac since which Tj has stayed at or below 100 °C, while throttled (R498) -/
  coolSince : Option Nat := none
  /-- sensor and highest temperature of the excursion (R498) -/
  maxTemp : Nat × Int := (0, 0)
  /-- DISAGREE OFF_TRAFFIC already raised, keyed by core (R86) -/
  offRaised : List (Nat × Bool) := []
  /-- cores entering RETAIN or waking: 1 entering RETAIN, 2 waking by launch, 3 waking by arrival, 4 by request -/
  coreMove : List (Nat × Nat) := []
  /-- work instant of the launch wake in progress, keyed by core (R496) -/
  workAt : List (Nat × Nat) := []
  /-- a RELOCK has been accepted and the PLL has not locked yet, keyed by quadrant (R491) -/
  relock : List (Nat × Bool) := []
  /-- the clock of the host cores in use, as PWR_HOST_CLK codes it: the requested one, or 500 MHz under the throttle (R498) -/
  hostEff : Nat := 0
  deriving DecidableEq, Repr

/-- Interrupt lines and messages towards software (R474, R505). -/
structure IrqState where
  /-- PLIC sources pending, keyed by source 1 to 93 (Table 20-2) -/
  plic : List (Nat × Bool) := []
  /-- steward core interrupt causes pending, keyed by StwCause.idx -/
  stw : List (Nat × Bool) := []
  /-- machine timer interrupts of the harts (R504) -/
  mtip : List (Nat × Bool) := []
  deriving DecidableEq, Repr

/-- The stored check state of a memory word (Table 10-4): clean words are not listed. -/
inductive EccState where
  | clean | correctable | uncorrectable | poisoned
  deriving DecidableEq, Repr

/-- Completion status of an access (spec/10_memory.md R282, spec/09 R244). -/
inductive Status where
  | ok | degraded | unavailable | addressUnavailable | accessFault | illegal
  deriving DecidableEq, Repr

/-- What the last access returned: the requester sees these and nothing else. -/
structure Resp where
  status : Status
  value : W64
  /-- further words of a wide read -/
  more : List W64 := []
  /-- the requester it answers, when it comes later than the access -/
  req : Nat := 0
  deriving DecidableEq, Repr

/-- One stage of a loaded pipeline (Table 12-6), with logical cores resolved to physical ones. -/
structure StageRec where
  stage : Nat
  /-- 0 ARRAY, 1 VECTOR_DW, 2 THREAD, 3 STEM, 4 TAIL -/
  kind : Nat
  sect : Nat
  seqCore : Nat
  seq : Nat
  retallyMax : Nat
  minMhz : Nat
  workOff : Nat
  dR : Nat
  outCount : Nat
  reorderBase : Nat
  reorderLen : Nat
  /-- physical cores holding the stage -/
  cores : List Nat
  /-- the stage takes banks, ratios or folds from the scale unit, or is a path of the Solstice engine (R235) -/
  needsSol : Bool := false
  deriving DecidableEq, Repr

/-- One tensor record (R326). -/
structure TensorRec where
  idx : Nat
  /-- 0 RUNNING, 1 FIXED, 2 SCANNED, 3 WIDE -/
  kind : Nat
  initLo : W32
  initHi : W32
  deriving DecidableEq, Repr

/-- One frame in flight (R48, R388), in admission order in `Pipe.frames`. -/
structure Frame where
  /-- frame-in-flight number; 0 and no number when not admitted -/
  fif : Nat
  /-- the frame was admitted (R388) -/
  admitted : Bool := true
  stream : Nat
  frameNo : Nat
  /-- grid index of its beat (R84) -/
  k : Nat
  launch : Nat
  lag : Nat
  /-- exposure instant (R381) -/
  target : Nat
  /-- input slot held (R386) -/
  slot : Nat
  /-- SEQ of its INPUT evidence entry, none when there is none (Table 14-9) -/
  evidence : Option Nat := none
  saturated : Bool := false
  retallied : Bool := false
  collapsed : Bool := false
  poisonSeen : Bool := false
  /-- reason and time of the first record that made it VOID (R478) -/
  void : Option (Nat × Nat) := none
  /-- times of the other records that make it VOID (R476) -/
  moreVoids : List Nat := []
  /-- a unit that it still needed is lost, so it can no longer complete (R89, R479) -/
  lostUnit : Bool := false
  /-- a follower has reported the QUALITY bit LAGGED (R412) -/
  peerLagged : Bool := false
  /-- stages whose outputs are released (R76, R89) -/
  stagesDone : List Nat := []
  /-- completion instant (R27) -/
  completion : Option Nat := none
  /-- stages that have reported TIMING_DEPARTURE for this frame (R114) -/
  departed : List Nat := []
  /-- followers whose STATUS has not arrived (R412) -/
  waitStatus : List Nat := []
  /-- fetch streams that have sent the frame's last word: core · 8 + engine (R217) -/
  sent : List Nat := []
  /-- attempt number of the present pass per stage (Retally) -/
  attempt : List (Nat × Nat) := []
  /-- per-stage count of outputs released so far, saturated outputs and SV counts, keyed by stage (R143, R199) -/
  outs : List (Nat × (Nat × Nat × Nat)) := []
  /-- clamp counts, keyed by stage · 4096 + tensor (R156) -/
  clamps : List (Nat × Nat) := []
  /-- observed range per tensor, as FP32 bits lo and hi (R175) -/
  ranges : List (Nat × (W32 × W32)) := []
  /-- scale folds completed (tensor indices) (R176) -/
  folded : List Nat := []
  /-- the frame's scale bank: FP32 scale and zero point per tensor (R163) -/
  bank : List (Nat × (W32 × Nat)) := []
  /-- its result record waits for room (R391) -/
  recPend : Bool := false
  /-- non-finite inputs: NaN, +∞ and −∞, keyed by stage · 4096 + tensor (R160) -/
  nonfin : List (Nat × (Nat × Nat × Nat)) := []
  /-- the range that the scan threads' FRANGEs have found so far of the section input that they pass over, as FP32 bits (R157) -/
  scan : Option (Nat × Nat) := none
  /-- tensors whose non-finite values have been reported (R160) -/
  nonfinSaid : List Nat := []
  /-- latest completion instant that a follower has reported (R412) -/
  peerDone : Nat := 0
  /-- the frame's number among all that the pipeline has admitted or refused; grid indices restart (R51), this one does not -/
  id : Nat := 0
  /-- running tensors whose record could not be read at admission: the frame's fold does not write them (R178) -/
  noFold : List Nat := []
  /-- range clamps already reported, by tensor (R156) -/
  clampSaid : List Nat := []
  /-- running tensors whose stage has released them: tensor, stage and ADAPT_A (R176) -/
  made : List (Nat × Nat × Nat) := []
  /-- the record is written, and the frame's last section has still to end (R80) -/
  inSect : Bool := false
  deriving DecidableEq, Repr

/-- A coded region of a section (R306). -/
structure CodedRegion where
  sect : Nat
  base : Nat
  kind : Nat
  k : Nat
  d : Nat
  ntotal : Nat
  /-- segments written for the present frame -/
  done : Nat := 0
  deriving DecidableEq, Repr

/-- A circuit of a pipeline: the spine ports that it crosses, as quadrant · 40 + port, and the cores at its ends (R323). -/
structure CircRec where
  ports : List Nat
  cores : List Nat
  deriving DecidableEq, Repr

/-- What the device holds of one pipeline beside its WVL registers (R329 to R339). -/
structure Pipe where
  /-- physical core of each logical core, from the claim until the unload (R330, R337) -/
  place : List Nat := []
  usesStem : Bool := false
  usesTail : Bool := false
  usesScale : Bool := false
  quosk : Bool := false
  nsect : Nat := 0
  stages : List StageRec := []
  tensors : List TensorRec := []
  /-- FP32 output scale of each fixed-scale tensor, from the Weave (R163) -/
  fixedS : List (Nat × W32) := []
  /-- zero point of a fixed-scale tensor whose entries all state the same one (Table 6-4) -/
  fixedZ : List (Nat × Nat) := []
  io : IoDecl := {}
  /-- device address of the SCALE_TABLE segment (R326) -/
  tbase : Nat := 0
  /-- OUTPUT_AREA base and bank size (R392) -/
  outBase : Nat := 0
  outBank : Nat := 0
  /-- interleaved arena base and size, direct arena CH_LO and CH_HI, Solstice range (Table 12-9) -/
  arena : Nat × Nat := (0, 0)
  chArena : Nat × Nat := (0, 0)
  solRange : Nat × Nat := (0, 0)
  /-- global channels and links that its circuits use (Table 18-8) -/
  chans : List Nat := []
  links : List Nat := []
  /-- its circuits (Table 18-8) -/
  circs : List CircRec := []
  /-- a LOSS notice that a follower part owes its head: the lost unit (R414) -/
  lossDue : Option Nat := none
  /-- where each section's spine image stands in the arena, for variants of more than 4 sections: section, device address and
  number of entries (R323) -/
  spineImg : List (Nat × Nat × Nat) := []
  /-- gateway entries of channels and attached units of each section of such a variant, keyed by (end code · 2 + direction) · 128 +
  slot (R324) -/
  unitImg : List (Nat × List (Nat × W64)) := []
  /-- stem and tail configuration (Table 12-3) -/
  sol : SolConf := {}
  /-- coded regions, by section (R306) -/
  coded : List CodedRegion := []
  /-- floor contribution to the Solstice engine (R494) -/
  solFloor : Nat := 0
  /-- threads that the load started: core · 16 + slot (R238, R339) -/
  threads : List Nat := []
  /-- frames in flight, oldest first -/
  frames : List Frame := []
  /-- next frame-in-flight number (R388) -/
  nextFif : Nat := 0
  /-- `Frame.id` of the next frame -/
  nextId : Nat := 0
  /-- frames whose record is written and whose folds (R176, R177) or last section (R80) are still to end -/
  past : List Frame := []
  /-- cores that have reported the end of the section (R81) -/
  ended : List Nat := []
  /-- cores whose reload has completed (R82) -/
  reloaded : List Nat := []
  /-- a reload failed: the section is not started (R83) -/
  ctxFail : Bool := false
  /-- an unload was asked for during a load, and follows it (R315) -/
  unloadDue : Bool := false
  /-- a loss or a failed reload has ended admission since the machine was armed, and a section may never end (R50, R89) -/
  halted : Bool := false
  deriving DecidableEq, Repr

/-- One outstanding exposure of a stream: the frame from its EXPOSE until its beat (R384, R385). -/
structure Exposure where
  k : Nat
  target : Nat
  slot : Option Nat := none
  refused : Bool := false
  refusedPackets : Nat := 0
  seqs : List Nat := []
  marker : Option Nat := none
  /-- pixels delivered per source row, keyed by row -/
  rows : List (Nat × Nat) := []
  packets : Nat := 0
  /-- malformed packets, and the first condition met (R383) -/
  malformed : Nat := 0
  malCond : Nat := 0
  complete : Bool := false
  /-- source samples, keyed by (row · 4096 + column) · 4 + component -/
  px : List (Nat × Nat) := []
  evidence : Option Nat := none
  deriving DecidableEq, Repr

/-- What the device holds of one stream beside its ING registers (R373 to R391). -/
structure Stream where
  outs : List Exposure := []
  /-- launched beats of the last 64: RTP timestamp, frame number and late packets counted (R384) -/
  recent : List (Nat × Nat × Nat) := []
  /-- distinct stray timestamps already reported (R384) -/
  stray : List Nat := []
  /-- RTP timestamps of the frames whose malformed packets have been reported (R383) -/
  malTs : List Nat := []
  /-- records waiting for room: those of the oldest frames marked `recPend` (R391) -/
  pend : Nat := 0
  maxPend : Nat := 0
  /-- the stream's next frame number modulo 2^16 is ING_STRm_FRAME; frames so far this binding -/
  bound : Bool := false
  deriving DecidableEq, Repr

/-- The endpoint table's staging and the per-endpoint launch ports (R371, R378, R379). -/
structure EpState where
  /-- staged words, keyed by control-space offset (R371) -/
  stage : List (Nat × Option W64) := []
  /-- SEQ of the next datagram, keyed by endpoint (Table 14-6) -/
  seq : List (Nat × Nat) := []
  /-- first beat index not yet exposed, keyed by endpoint (R378) -/
  nextK : List (Nat × Nat) := []
  /-- Almanac instant of the last commit, keyed by endpoint (R372) -/
  commitAt : List (Nat × Nat) := []
  deriving DecidableEq, Repr

/-- Where a command datagram is addressed, from its endpoint's entry (R379, Table 14-2). -/
structure UdpDest where
  mac : List Byte
  v6 : Bool
  ip : List Byte
  rport : Nat
  /-- priority code point and VLAN identifier of its tag, when the entry sets VLAN -/
  vlan : Option (Nat × Nat)
  deriving DecidableEq, Repr

/-- A datagram or frame queued on an Ethernet port (R379, R507, R562). -/
structure TxItem where
  /-- 0 EXPOSE or STROBE, 1 host ring, 2 time ring -/
  kind : Nat
  /-- the bytes of the datagram payload or frame -/
  bytes : List Byte
  /-- endpoint addressed, or ring index -/
  ref : Nat
  /-- where the datagram is addressed -/
  dest : Option UdpDest := none
  /-- launch instant of an EXPOSE or STROBE, and 0 EXPOSE or 1 STROBE: at one instant the EXPOSE goes first (R41) -/
  due : Nat := 0
  rank : Nat := 0
  deriving DecidableEq, Repr

/-- One Ethernet port beside its registers. -/
structure EthPort where
  /-- EXPOSE and STROBE datagrams waiting, oldest first (R379) -/
  cmdq : List TxItem := []
  /-- PORT_LINK_DOWN has been raised and the link is not up again (R370) -/
  down : Bool := false
  /-- an eye excursion is open (R369) -/
  eyeLow : Bool := false
  deriving DecidableEq, Repr

/-- What the device sends to the outside world. `State.out` lists it, oldest first; nothing reads it back. -/
inductive OutMsg where
  /-- an Ethernet frame or datagram left port `p` -/
  | eth (p : Nat) (bytes : List Byte)
  /-- a UDP datagram left port `p`: endpoint addressed, where to, source port and payload (R379) -/
  | udp (p ep : Nat) (dest : Option UdpDest) (sport : Nat) (payload : List Byte)
  /-- an MSI-X message (R474, R505) -/
  | msix (vector : Nat)
  /-- a heartbeat token (Table 3-4) -/
  | heartbeat (token : W64)
  /-- one copy of a unit of Table 15-1 on a Quosk link -/
  | quosk (link : Nat) (bytes : List Byte)
  /-- a TIME unit on a Quosk link: a question, or the answer with t2 and t3, in a payload that Table 15-1 calls internal (R399) -/
  | time (link : Nat) (stamps : Option (Nat × Nat))
  /-- a SERVICE request or response: link, destination device, operation, address, data and requester (R402) -/
  | service (link dest op addr : Nat) (data : List Byte) (req : Nat)
  /-- a CONTROL notice of Table 15-4: destination device, KIND number in table order, and its fields in order -/
  | notice (dest kind : Nat) (fields : List Nat)
  /-- a frame on barrier channel `c` towards the island or the host side -/
  | barrier (c : Nat) (bytes : List Byte)
  /-- a scale-node frame on an island segment (R423): its EtherType and payload, before the padding to 64 bytes (Table 16-3) -/
  | segment (g etype : Nat) (bytes : List Byte)
  /-- a PLCA beacon on an island segment (R422) -/
  | beacon (g : Nat)
  /-- a fabric word on an output: unit kind, unit, port, word -/
  | word (kind unit port : Nat) (data : W64) (tag : Byte) (mark : Bool)
  /-- a SERVICE unit for another device that this one routes on: link, destination device and unit (R401) -/
  | transit (link dest : Nat) (unit : SvcUnit)
  /-- a token in the heartbeat slot of the spine to a fetch stream (Table 8-6) -/
  | release (token : W64)
  /-- a PMBus read of a regulator (R493) -/
  | pmbus (addr : Nat)
  deriving DecidableEq, Repr

/-- Where the outcome of an access goes once every part of it has completed (R62, R251, R278, R282, R286). -/
inductive Dest where
  | nowhere
  /-- `State.resp`, for the agents of the service path, by requester number -/
  | service (req : Nat)
  /-- the completion word of a WRITE on a circuit of a channel -/
  | circuit (g : Nat)
  /-- a store of a thread: DS on DEGRADED -/
  | store (c j : Nat)
  /-- a load of a thread into a vector or scalar register; scalar loads sign-extend from `sx` bits unless it is 0 -/
  | load (c j : Nat) (scalar : Bool) (reg sx : Nat)
  /-- a request of another device: its link, device, and request number there -/
  | remote (link dev req : Nat) (rd : Bool)
  deriving DecidableEq, Repr

/-- An access with parts still to complete. -/
structure ReqSt where
  left : Nat := 0
  worst : Status := .ok
  /-- a part met poison or an uncorrectable error (R251) -/
  tainted : Bool := false
  /-- data read so far, by position -/
  bytes : List Byte := []
  /-- records that are raised once per request and have been raised (R64, R289) -/
  codes : List Nat := []
  dest : Dest := .nowhere
  /-- a write of a frame's outputs: its pipeline and frame-in-flight number (R27) -/
  frame : Option (Nat × Nat) := none
  deriving DecidableEq, Repr

/-- A part of an access that is held: for a retained core (R62), for a busy traffic generator (R295), or for the
response of a joined device (R402). -/
structure HeldPart where
  id : Nat
  /-- the core, or 32 plus the global channel, or 128 plus the device -/
  unit : Nat
  addr : Nat
  len : Nat
  /-- position within the request's data -/
  pos : Nat
  /-- bytes of a write; none for a read -/
  data : Option (List Byte)
  req : Nat
  /-- Almanac at which a retained core's part times out -/
  due : Nat := 0
  /-- what the check of its words finds beside their stored state -/
  seen : EccSeen := .clean
  /-- the link that a request to a joined device left on (R413) -/
  link : Nat := 0
  deriving DecidableEq, Repr

/-- One entry of a write-combining buffer: a 64-byte line of one channel (R284). -/
structure WcbEntry where
  chan : Nat
  line : Nat
  bytes : List (Nat × Option Byte) := []
  /-- Almanac at which it was taken, and AGE in ns at that time (R285, R577) -/
  taken : Nat := 0
  age : Nat := 0
  flushing : Bool := false
  /-- the flush was started for occupancy (R285) -/
  occ : Bool := false
  /-- the half of the line and the access of every part whose bytes it holds and that waits for them (R278, R286) -/
  writers : List (Nat × Nat) := []
  /-- its place in the order of arrival: the number of the next access when its first bytes arrived (R286) -/
  id : Nat := 0
  deriving DecidableEq, Repr

/-- A partial write waiting for an entry (R284). -/
structure WcbWait where
  chan : Nat
  line : Nat
  bytes : List (Nat × Option Byte) := []
  /-- the access that waits for it, if any -/
  writer : Option Nat
  /-- its place in the order of arrival (R286) -/
  id : Nat := 0
  deriving DecidableEq, Repr

/-- A request accepted by a channel and not yet returned (R277, R278). -/
structure ChanReq where
  word : Nat
  len : Nat
  narrow : Bool
  /-- refused under R279 -/
  bad : Bool
  tag : Byte
  req : Nat
  /-- EN of R288 when it was issued (R577) -/
  retry : Bool
  /-- what the first read of each word meets beside what is stored -/
  first : List EccSeen := []
  /-- reissued words, by position, with their second result (R288) -/
  retried : List (Nat × EccSeen) := []
  /-- a WRITE, by the number of its access -/
  wr : Option Nat := none
  /-- STATUS of a WRITE whose words are all stored, until its completion word leaves -/
  stat : Option Nat := none
  /-- the queue of the channel's gateway that it came by, and its return leaves by; none for a request from outside (R109) -/
  code : Option Nat := none
  /-- a read's place in the order of arrival (R286) -/
  id : Nat := 0
  /-- words that a later write has stored since, as a read finds them, by position: bytes and check state (R286) -/
  snap : List (Nat × (List Byte × EccState)) := []
  deriving DecidableEq, Repr

/-- The memory controllers beside their registers (spec/10_memory.md). -/
structure HbmState where
  /-- entries oldest first, keyed by controller (R284) -/
  wcb : List (Nat × List WcbEntry) := []
  /-- partial writes waiting for an entry, keyed by controller (R284) -/
  wait : List (Nat × List WcbWait) := []
  /-- requests oldest first, keyed by global channel -/
  reqs : List (Nat × List ChanReq) := []
  /-- the mask latched when MCm_INJ was armed, keyed by controller (R579) -/
  injMask : List (Nat × Nat) := []
  /-- channels whose training is in progress, keyed by global channel (R293) -/
  training : List (Nat × Bool) := []
  /-- the training in progress of a controller was started by GO (R583) -/
  byGo : List (Nat × Bool) := []
  /-- Almanac at the START of a generator run, keyed by global channel (R297) -/
  tgStart : List (Nat × Nat) := []
  deriving DecidableEq, Repr

/-- A 48-bit carry-buffer entry as the carry unit sees it (spec/05_accumulation.md R132, R134). -/
structure CarryEntry where
  value : BitVec 48 := 0#48
  sat : Bool := false
  /-- LAST spills received -/
  last : Nat := 0
  ecc : EccState := .clean
  deriving DecidableEq, Repr

/-- Why a word carries MARK, where this device set it: the VOID reason it stands for, 6 for a double-bit link error
(R94) and 3 otherwise (R65), the TIME of its record, and the physical address of a poisoned core-store or carry word. -/
structure Mark where
  reason : Nat := 3
  time : Nat := 0
  addr : Option Nat := none
  deriving DecidableEq, Repr

/-- A fabric word (Table 4-1): VALID words only, so CHECK and VALID have no field. -/
structure QWord where
  data : W64
  tag : Byte
  mark : Option Mark := none
  /-- at the gateway of an attached unit (R109), the pipeline whose slot carried the word -/
  pipe : Option Nat := none
  /-- a return word of a memory channel (R278) -/
  back : Bool := false
  deriving DecidableEq, Repr

/-- A tag slot in use (R68): the tag, the ports present (bit 0 A, 1 B, 2 C, 3 P) and the marks of its operands. -/
structure TagSlot where
  tag : Byte
  present : Nat := 0
  marks : List Mark := []
  deriving DecidableEq, Repr

/-- The firing a tile runs (R71, R72): tag slot, tag and the micro-instruction that issues next. -/
structure FiringSt where
  slot : Nat
  tag : Byte
  pc : Nat := 0
  deriving DecidableEq, Repr

/-- One accumulator slot of a tile (R125, R187); cells are keyed by cell number ρ · C + c. -/
structure AccSlot where
  /-- cell registers -/
  cell : List (Nat × Int) := []
  /-- SAT bits -/
  sat : List (Nat × Bool) := []
  /-- chunk registers (R121) -/
  chunk : List (Nat × Int) := []
  /-- row-sum registers, keyed by column (R193) -/
  rowSum : List (Nat × Int) := []
  /-- winning element index per cell, none while EMPTY (A32X) -/
  elem : List (Nat × Option Nat) := []
  /-- elements each cell has taken (R191) -/
  count : Nat := 0
  /-- chunks promoted into column 0 since the last spill (R130) -/
  chunks : Nat := 0
  /-- index base and output INDEX -/
  base : Nat := 0
  index : Nat := 0
  /-- the part has ended, and the slot is not open (R191, R196) -/
  closed : Bool := false
  /-- the A32X slot holds a minimum (R197) -/
  isMin : Bool := false
  deriving DecidableEq, Repr

/-- One tile beside its context registers (Table 3-2, R66 to R72, R99, R202). -/
structure Tile where
  /-- dynamic registers, keyed by tag slot · 8 + offset -/
  dyn : List (Nat × W32) := []
  /-- the tag table, keyed by slot 0 to 7 -/
  tags : List (Nat × Option TagSlot) := []
  /-- local join queues A, B, C, P, oldest first -/
  qs : List (Nat × List QWord) := []
  /-- queues that assert hold, and whether JOIN_STALL was raised for that hold (R113, R115) -/
  held : List (Nat × Bool) := []
  stalled : List (Nat × Bool) := []
  /-- the delay register (R99) -/
  delay : Option QWord := none
  /-- the output queue of two words (R202) -/
  outq : List QWord := []
  /-- hold bits received (R110), keyed by direction (N, E, S, W) · 128 + slot: 0 none in that slot, 1 a 0, 2 a 1 -/
  holdIn : List (Nat × Nat) := []
  /-- expected iteration per frame-in-flight number (R71) -/
  expIter : List (Nat × Nat) := []
  firing : Option FiringSt := none
  acc : List (Nat × AccSlot) := []
  /-- queue and frame-in-flight pairs whose OCCUPANCY_EXCEEDED was raised (R116), and tag table (R362) as queue 4 -/
  occRaised : List (Nat × Bool) := []
  deriving DecidableEq, Repr

/-- One gateway queue, or the join queue of an edge port (R101, R108). -/
structure FabQueue where
  words : List QWord := []
  held : Bool := false
  stalled : Bool := false
  /-- at a gateway, the routes whose last hold bit received is 1: flit position + 8 · pipeline (R110) -/
  holdIn : List Nat := []
  /-- at an edge port, the hold bits received, keyed by slot as a tile's (R110) -/
  holdAt : List (Nat × Nat) := []
  occRaised : List Nat := []
  deriving DecidableEq, Repr

/-- An output that a sequencer holds, with its core-store offset when it lies in the reorder area (R76). -/
structure SeqWord where
  word : QWord
  addr : Option Nat := none
  deriving DecidableEq, Repr

/-- What a sequencer holds of one frame (R76, R143, R144). -/
structure SeqFrame where
  fif : Nat
  got : Nat := 0
  held : List SeqWord := []
  /-- the pass has been settled: its outputs may be released (R144) -/
  settled : Bool := false
  deriving DecidableEq, Repr

/-- One output sequencer (R75 to R77). -/
structure SeqSt where
  frames : List SeqFrame := []
  /-- the reorder area has no room for the next output that needs it, so the producers are held (R77) -/
  full : Bool := false
  /-- JOIN_STALL has been raised for the present hold (R70, R77) -/
  stalled : Bool := false
  /-- outputs released and not yet taken on, oldest first -/
  rel : List QWord := []
  /-- frames whose REORDER_OCCUPANCY_EXCEEDED was raised (R363) -/
  occRaised : List Nat := []
  deriving DecidableEq, Repr

/-- A heartbeat expected of a unit (R84, R85): the beat, its wake instant and whether the token has come. -/
structure HbExpect where
  beat : Nat
  pipe : Nat
  due : Nat
  got : Bool := false
  /-- the deadline has been counted -/
  closed : Bool := false
  deriving DecidableEq, Repr

/-- A core's launch port and heartbeat bookkeeping (Table 2-3, R84, R85, R495, R496). -/
structure CoreSt where
  /-- pending core wake launches: wake instant, work instant and beat index, oldest first (R43, Table 2-3) -/
  wakes : List (Nat × Nat × Nat) := []
  expects : List HbExpect := []
  /-- beats whose token is still to be sent at the first ON cycle: pipeline and beat (R84) -/
  owe : List (Nat × Nat) := []
  /-- the slot counter of the core's tile routers, below P_t (R96) -/
  slot : Nat := 0
  deriving DecidableEq, Repr

/-- One ring slot of a row buffer (R213). -/
structure RingSlot where
  remaining : Nat := 0
  fif : Nat := 0
  band : Nat := 0
  valid : Bool := false
  deriving DecidableEq, Repr

/-- One row buffer (R212, R213). -/
structure RowBuf where
  slots : List (Nat × RingSlot) := []
  /-- sequence number of the next band to begin -/
  next : Nat := 0
  /-- band index of the next band to begin -/
  band : Nat := 0
  /-- the frame begun last -/
  fif : Option Nat := none
  /-- the ring slot being written and the rows of its band written so far -/
  cur : Option (Nat × Nat) := none
  /-- the producer is held by a release, and RELEASE_STALL was raised for that hold -/
  held : Bool := false
  stalled : Bool := false
  deriving DecidableEq, Repr

/-- One fetch stream of an active context slot (R215 to R219). -/
structure FStream where
  /-- the frame being sent and the number of its next word -/
  cur : Option (Nat × Nat) := none
  /-- frames to send again, oldest request first (R219) -/
  again : List Nat := []
  /-- where the stream resumes after a frame sent again: the frame and its next word -/
  back : Option (Nat × Nat) := none
  /-- frames whose SETTLE has arrived -/
  settled : List Nat := []
  /-- frames all of whose bands this stream has released, until band 0 of the number is written again (R219) -/
  freed : List Nat := []
  deriving DecidableEq, Repr

/-- How an instruction writes its vector destination: mask register, MZ and FMT (Table 9-6). -/
structure DestForm where
  mreg : Nat
  mz : Bool
  fmt : Nat
  deriving DecidableEq, Repr

/-- What a thread waits for (Table 9-2). -/
inductive ThreadWait where
  | none
  /-- a load issued and not yet arrived: scalar register or not, register, value, and whether PS is set -/
  | load (scalar : Bool) (reg : Nat) (val : W512) (ps : Bool)
  /-- a load with parts still to complete, by request number -/
  | mem (id : Nat)
  /-- a SEND that waits for room in the outbound queue of a port (R266) -/
  | room (port : Nat) (word : QWord)
  /-- a RECV that waits for a word (R266) -/
  | recv (port vd vb : Nat) (form : DestForm)
  /-- a barrier wait: barrier, generation waited out, deadline, destination (R253) -/
  | bar (b gen deadline vd : Nat)
  /-- a blocking QSEND (R256) -/
  | qsend (q : Nat) (payload : List Byte) (deadline vd : Nat)
  /-- a QRECV (R256) -/
  | qrecv (q deadline vd vb : Nat) (form : DestForm)
  /-- an AWAIT (R258) -/
  | time (t : Nat)
  /-- a synchronising request to another device: 3 a barrier operation, 4 a message; the register of its result, its
  deadline, the device, and the link that the request left on (R402, R413) -/
  | remote (op reg deadline dev link : Nat)
  deriving DecidableEq, Repr

/-- A vector thread beside its CCnn_VT_SLOT register (Table 9-1). -/
structure VThread where
  /-- vector registers, keyed by number -/
  vx : List (Nat × W512) := []
  /-- scalar registers; SX0 is never listed -/
  sx : List (Nat × W64) := []
  /-- mask registers; MK0 is never listed -/
  mask : List (Nat × W64) := []
  wait : ThreadWait := .none
  /-- pipeline of a stage thread (R240) -/
  pipe : Nat := 0
  stage : Nat := 0
  /-- declared budget in core cycles (R240) -/
  budget : Nat := 0
  /-- frame-in-flight numbers whose budget count runs, and those already reported -/
  counting : List Nat := []
  overrun : List Nat := []
  /-- stores that its next instruction waits for, by access number, since a completion that acts as if followed by FENCE ALL (R248) -/
  fence : List Nat := []
  deriving DecidableEq, Repr

/-- One agent's copy of CCnn_VT_START and its arguments (R575). -/
structure VtCopy where
  slot : Nat := 0
  pc : Nat := 0
  args : List (Nat × W64) := []
  status : Nat := 0
  taken : Nat := 0
  deriving DecidableEq, Repr

/-- A wait that a thread of a joined device began here (R402): the link and device that asked, its request number, the
barrier or queue, the generation waited out, a deadline, and the payload of a message. -/
structure FarWait where
  link : Nat
  dev : Nat
  req : Nat
  target : Nat
  gen : Nat
  deadline : Nat
  payload : List Byte := []
  deriving DecidableEq, Repr

/-- Queues beside their registers (R255 to R257, R550). -/
structure SyncState where
  /-- messages of 32 bytes, first in first out, keyed by queue -/
  queues : List (Nat × List (List Byte)) := []
  /-- threads in QRECV and in blocking QSEND, in the order in which they began: queue, core, slot -/
  recvs : List (Nat × Nat × Nat) := []
  sends : List (Nat × Nat × Nat) := []
  /-- 32-byte latches of POP and PUSH, keyed by agent · 256 + queue (R550) -/
  popLatch : List (Nat × List Byte) := []
  pushLatch : List (Nat × List Byte) := []
  /-- barrier waits and blocking sends of threads on joined devices, oldest first (R402) -/
  farBar : List FarWait := []
  farSend : List FarWait := []
  /-- answers still to come for waits that ended without them: core · 16 + slot, and device (R253, R402) -/
  farLate : List (Nat × Nat) := []
  /-- the reservation of a host core's LR: offset in host-core memory and number of bytes, keyed by hart (R250) -/
  resv : List (Nat × Option (Nat × Nat)) := []
  deriving DecidableEq, Repr


/-- The Solstice engine beside its registers (spec/08_windows_and_solstice.md R227 to R235). -/
structure SolState where
  lost : Bool := false
  /-- missed heartbeat tokens in a row (R85, R227) -/
  miss : Nat := 0
  /-- the frame whose scan runs: pipeline and frame-in-flight number (R230) -/
  scan : Option (Nat × Nat) := none
  /-- frames whose scan has ended and whose MAC pass has not, oldest first (R230) -/
  mac : List (Nat × Nat) := []
  /-- frames on the tail path, in the order of their first input words (R232) -/
  tail : List (Nat × Nat) := []
  /-- words that have reached the tail's port, oldest first, keyed by pipeline · 8 + frame-in-flight number -/
  tailIn : List (Nat × List QWord) := []
  /-- weight memory, keyed by byte offset (R227) -/
  wmem : List (Nat × Byte) := []
  /-- check states of its 64-bit words, keyed by byte offset (R234) -/
  wecc : List (Nat × EccState) := []
  deriving DecidableEq, Repr


/-- One Quosk link beside its registers (spec/15_joined_devices.md R396 to R413). -/
structure QLink where
  /-- Almanac ns at which the present training phase began (R397) -/
  phaseAt : Nat := 0
  /-- the last training failed, or reached UP (R563) -/
  failed : Bool := false
  reached : Bool := false
  /-- device number of the peer, from its HELLO (R398) -/
  peer : Nat := 0
  /-- t1 of the time exchange in progress (R399) -/
  t1 : Option Nat := none
  /-- exchanges of the MEASURE phase, and their largest 2 · δ (R399) -/
  measured : Nat := 0
  maxD : Int := 0
  /-- 2 · δ and 2 · θ of the last 64 exchanges, latest first (R399) -/
  hist : List (Int × Int) := []
  /-- largest θ of the open TIME_OFFSET excursion (R410) -/
  offExc : Option Int := none
  /-- the FRAME number stamped on flits (R404) -/
  frame : Nat := 0
  /-- the pending instant of the slot-frame port, once it has fired or a step has moved it (R57, R404) -/
  sfNext : Option Nat := none
  /-- flits of which one copy has come: FRAME · 128 + slot, and whether it was kept (R405) -/
  half : List (Nat × Bool) := []
  /-- kept flits, keyed by slot, oldest first: the frame in which each is due, and its words (R405, R406) -/
  rx : List (Nat × List (Nat × List (Nat × QWord))) := []
  /-- hold bits that came over the link, keyed by the slot in which this switch forwards them · 8 + position: 1 a 0, 2 a 1 (R405) -/
  holdRx : List (Nat × Nat) := []
  /-- slots whose LINK_LATE excursion is open (R406) -/
  late : List Nat := []
  /-- Almanac ns of the last LINK_FEC_COPY_LOST (R413) -/
  fecAt : Option Nat := none
  deriving DecidableEq, Repr

/-- The Quosk side beside its registers (spec/15_joined_devices.md). -/
structure QskState where
  /-- destinations whose SERVICE_UNREACHABLE has been raised (R413) -/
  unreach : List Nat := []
  /-- last frame number reported with FOLD_DONE, keyed by (pipeline · 64 + follower) · 64 + stream (R412) -/
  foldDone : List (Nat × Option Nat) := []
  /-- BIND notices not answered yet, oldest first: pipeline, follower, stream (R411, R412) -/
  bindWait : List (Nat × Nat × Nat) := []
  /-- the eight links -/
  links : List (Nat × QLink) := []
  /-- the routes have been filled at the commit of link training (R563) -/
  routed : Bool := false
  /-- a SLOT_FRAME_UNLOCKED excursion is open (R403) -/
  unlocked : Bool := false
  deriving DecidableEq, Repr


/-- A load whose checks have passed and whose commit is still to come (R336, R337). -/
structure LoadJob where
  pipe : Nat
  image : Nat
  len : Nat
  variant : Nat
  start : Nat
  rot : Nat
  /-- physical core of each logical core -/
  place : List Nat
  arena : Nat
  arenaSize : Nat
  chLo : Nat
  chHi : Nat
  solBase : Nat
  solSize : Nat
  deriving DecidableEq, Repr

/-- What host-side and island OTP hold beside the fields that registers show (R530, spec/16). The programming tools fill
it before the part ships (DESIGN CHOICE, log entry 35). -/
structure Otp where
  /-- digests of the steward signing keys 0 to 3 and of the Weave signing keys 4 to 7, keyed by slot -/
  digest : List (Nat × List Byte) := []
  /-- the host copies of the record keys, keyed by slot (R432) -/
  recKey : List (Nat × List Byte) := []
  /-- the island's image-key digests and record keys, keyed by slot -/
  islDigest : List (Nat × List Byte) := []
  islKey : List (Nat × List Byte) := []
  /-- island image keys programmed and revoked, one bit a slot -/
  islProg : Nat := 0
  islRevoked : Nat := 0
  /-- JTAG on the island balls is enabled (Table 16-1) -/
  islDebug : Bool := false
  deriving DecidableEq, Repr

/-- A frame that waits in the gateway for a barrier channel (R438, R439): the Almanac ns at which it was queued, and its
first 60 bytes, the LSEQ still to be filled in. -/
structure BarTx where
  queued : Nat
  bytes : List Byte
  deriving DecidableEq, Repr

/-- The barrier gateway beside its BGW registers (spec/16_metrology_island.md R427 to R439, R540). -/
structure Gateway where
  /-- consecutive valid frames per island-to-host channel, up to 16 (R430) -/
  good : List (Nat × Nat) := []
  /-- expected LSEQ per channel; none until a frame sets it (R429, R430) -/
  expect : List (Nat × Option Nat) := []
  /-- Almanac ns of the last BARRIER_CRC per channel (R429) -/
  crcAt : List (Nat × Option Nat) := []
  /-- send queues of the host-to-island channels (R438) -/
  txq : List (Nat × List BarTx) := []
  /-- LSEQ of the next frame sent, per channel (R428) -/
  txSeq : List (Nat × Nat) := []
  /-- Almanac ns until which a channel's frame in progress occupies it (R427) -/
  txBusy : List (Nat × Nat) := []
  /-- baseline of each source: WSEQ and INSTANT of its last delivered record (R434) -/
  base : List (Nat × Option (Nat × Nat)) := []
  /-- STABLE, WSEQ and INSTANT of each ring entry, keyed by source · 256 + index (R435) -/
  copies : List (Nat × Option (Bool × Nat × Nat)) := []
  /-- sources whose WEIGHT_SOURCE_DISABLED, and whose WEIGHT_RING_OVERRUN, has been raised (Table 16-9, R436) -/
  disabled : List Nat := []
  overrun : List Nat := []
  /-- accepted weight records held until the fault record that their checks raised is visible, oldest first (R436) -/
  due : List (FaultRec × List Byte) := []
  /-- message frames waiting for room in the message ring, oldest first (R437) -/
  wait : List (List Byte) := []
  /-- ALM_STEP has been written since the previous TIME frame (Table 16-8) -/
  stepped : Bool := false
  /-- words staged for each record-key slot, and the check value (R540) -/
  keyData : List (Nat × List W32) := []
  keyChk : List (Nat × W32) := []
  deriving DecidableEq, Repr

/-- One entry of a bridge channel's FIFO (R420). -/
structure BrEntry where
  code : W32
  ovr : Bool
  undr : Bool
  senseLow : Bool
  gap : Bool
  /-- island ns of the centre of the conversion window -/
  time : Nat
  deriving DecidableEq, Repr

/-- One bridge input (R418 to R420). -/
structure Bridge where
  /-- range code: ±4, ±8, ±16, ±32 mV/V -/
  range : Nat := 0
  /-- output-rate code, in the order of Table 16-2 -/
  rate : Nat := 0
  /-- excitation from 3.3 V rather than 5.0 V -/
  exc33 : Bool := false
  chop : Bool := false
  /-- under chopping, the excitation stands reversed for the next conversion (Table 16-2) -/
  reversed : Bool := false
  fifo : List BrEntry := []
  /-- conversions discarded because the FIFO was full -/
  lost : Nat := 0
  /-- the next stored entry carries GAP -/
  gap : Bool := false
  deriving DecidableEq, Repr

/-- One 10BASE-T1S segment (R421 to R423). -/
structure IslSeg where
  en : Bool := false
  nodes : Nat := 17
  txTimer : Nat := 32
  burst : Nat := 0
  /-- SYNC interval in ms -/
  sync : Nat := 1
  /-- SEQ of the next SYNC -/
  seq : Nat := 0
  /-- SEQ of the next CMD -/
  cmdSeq : Nat := 0
  /-- malformed SAMPLE frames (ISL_SEGs_ERR) -/
  err : Nat := 0
  deriving DecidableEq, Repr

/-- What the island processor runs (R442). -/
inductive IslRun where
  | off | running | bootFailed
  deriving DecidableEq, Repr

/-- An image offered to the boot ROM (R442): REQ_ID, LENGTH, VERSION, digest, and the bytes fetched so far. -/
structure IslOffer where
  req : Nat
  len : Nat
  version : Nat
  digest : List Byte
  got : Nat := 0
  deriving DecidableEq, Repr

/-- The metrology island (spec/16_metrology_island.md R416 to R443). -/
structure Island where
  run : IslRun := .off
  /-- island time in units of 2^-43 ns, of which a step of 15.625 ns at any rate of R440 is a whole number -/
  time : Nat := 0
  /-- ISL_TIME_RATE in steps of 2^-40 -/
  rate : Int := 0
  /-- slew not yet absorbed, ns (ISL_TIME_SLEW) -/
  slew : Int := 0
  /-- ISL_TIME_RX in ns (R440) -/
  timeRx : Nat := 0
  /-- the analogue front-end domain (ISL_PWR) -/
  afe : Bool := false
  bridges : List (Nat × Bridge) := []
  segs : List (Nat × IslSeg) := []
  /-- ISL_SN_ETYPE (R423) -/
  etype : Nat := 0x88B5
  /-- sample FIFOs, keyed by segment · 32 + node: frame and receive instant in island ns (R423) -/
  samples : List (Nat × List (List Byte × Nat)) := []
  /-- the firmware's receive queue of segment frames: segment, EtherType and payload (R423) -/
  segRx : List (Nat × Nat × List Byte) := []
  /-- barrier frames handed to the firmware: channel and bytes -/
  barRx : List (Nat × List Byte) := []
  /-- the island receiver's expected LSEQ per channel, and ISL_BAR_STAT: errors, gaps and frames of a wrong kind (R429) -/
  expect : List (Nat × Option Nat) := []
  barErr : Nat := 0
  barGap : Nat := 0
  barOdd : Nat := 0
  /-- the receiver interrupts the firmware (R429) -/
  barIrq : Bool := false
  /-- LSEQ of the next frame on each island-to-host channel (R428) -/
  txSeq : List (Nat × Nat) := []
  /-- the external SPI NOR, bytes that differ from 0xFF (R441) -/
  flash : List (Nat × Byte) := []
  /-- SRAM bytes that differ from 0 (Table 16-1) -/
  sram : List (Nat × Byte) := []
  /-- check states of SRAM words of 8 bytes, which carry SEC-DED ECC (Table 16-1) -/
  sramEcc : List (Nat × EccState) := []
  /-- the levels that firmware drives on the 4 GPIO (Table 16-1) -/
  gpio : List (Nat × Bool) := []
  /-- the non-volatile boot selection: 0 bank A, 1 bank B (R442) -/
  bootSel : Nat := 0
  /-- bank, VERSION, digest and ENTRY of the running image -/
  bank : Nat := 0
  version : Nat := 0
  digest : List Byte := []
  entry : Nat := 0
  /-- the image the boot ROM fetches (R442) -/
  offer : Option IslOffer := none
  /-- the monotonic counters (Table 16-1) -/
  counters : List (Nat × Nat) := []
  deriving DecidableEq, Repr

/-- The adaptation unit beside its SOL registers (spec/17_store_learning.md R448). -/
structure Learn where
  /-- traces, keyed by row · 256 + element -/
  trace : List (Nat × Int) := []
  /-- generator states, keyed by row -/
  gen : List (Nat × Nat) := []
  /-- check states of the trace words, keyed by row · 257 + element; element 256 is the generator state -/
  tecc : List (Nat × EccState) := []
  deriving DecidableEq, Repr

/-- What the steward core runs (R531 to R536). -/
inductive StwRun where
  /-- held in reset -/
  | held
  /-- the boot ROM waits for domains 41 and 37 (R531) -/
  | rom
  /-- the boot ROM waits for a PCIe image (R534) -/
  | pcie
  | firmware
  /-- halted in WFI (R531) -/
  | halted
  deriving DecidableEq, Repr

/-- The steward core, its firmware and the boot flash (spec/20_firmware_and_host.md, spec/21_startup_and_bringup.md). -/
structure Stw where
  run : StwRun := .held
  /-- private SRAM, bytes that differ from 0 (R500) -/
  sram : List (Nat × Byte) := []
  /-- check states of its words of 8 bytes, under SEC-DED ECC (R500) -/
  sramEcc : List (Nat × EccState) := []
  /-- the host-side SPI NOR, bytes that differ from 0xFF (R522) -/
  nor : List (Nat × Byte) := []
  /-- bank, VERSION, SVN and ENTRY of the running image (R521, R535) -/
  bank : Nat := 0
  version : Nat := 0
  svn : Nat := 0
  entry : Nat := 0
  /-- the step reached within the phase (R537) -/
  begun : Nat := 0
  /-- policy parameters that differ from their defaults, keyed by ID (R514) -/
  params : List (Nat × Option Nat) := []
  /-- gPTP lock, consecutive small offsets, last offset in ns and grandmaster identity (R518) -/
  lock : Bool := false
  small : Nat := 0
  offset : Int := 0
  gm : Nat := 0
  /-- the mailbox channel served last (R513) -/
  turn : Nat := 1
  /-- the request in progress per channel: OP and pipeline (R513, R515, R517) -/
  job : List (Nat × Option (Nat × Nat)) := []
  /-- events without room, per channel (R513) -/
  lost : List (Nat × Nat) := []
  /-- image address and length last loaded, keyed by pipeline (R520) -/
  image : List (Nat × (Nat × Nat)) := []
  /-- Almanac ns of the last KICK (R524) -/
  kicked : Nat := 0
  /-- harts released, with their start addresses (R539) -/
  harts : List (Nat × Nat) := []
  /-- the MSI-X table and pending bits of BAR 4, 64-bit words keyed by offset (Table 20-5) -/
  msix : List (Nat × W64) := []
  /-- self tests in progress, keyed by core or 32 for the Solstice engine (R538) -/
  bist : List (Nat × Bool) := []
  deriving DecidableEq, Repr

/-- The evidence ring beside its ING registers (R310 to R313). -/
structure EvState where
  /-- the last entry was dropped, and the run has been reported (R313) -/
  dropRun : Bool := false
  /-- device address and length of the entries whose VALID is set (R312) -/
  live : List (Nat × Nat) := []
  deriving DecidableEq, Repr


/-- The state of the machine. Sparse maps list only the entries that differ from their reset value. -/
structure State where
  /-- commands waiting, first in, first out -/
  pending : List Instr := []
  /-- control-space registers that differ from their reset value, keyed by offset (R542, R544) -/
  regs : List (Nat × W64) := []
  /-- bytes of memory that differ from 0, keyed by physical address (spec/10_memory.md R272) -/
  mem : List Host.Cell := []
  /-- words that are not clean, keyed by the physical address of the word (R289, R64) -/
  ecc : List (Nat × EccState) := []
  /-- the Almanac (R28) -/
  alm : AlmState := {}
  /-- the four beat machines beside their registers (R44) -/
  bm : List (Nat × BeatM) := []
  /-- the fault unit (R468) -/
  flt : FltState := {}
  /-- the power controller (R482) -/
  pwr : PwrState := {}
  /-- interrupt lines (R474, R505) -/
  irq : IrqState := {}
  /-- the four pipelines (R329) -/
  pipes : List (Nat × Pipe) := []
  /-- the 64 streams (R373) -/
  streams : List (Nat × Stream) := []
  /-- endpoint staging and launch ports (R371) -/
  ep : EpState := {}
  /-- the six Ethernet ports (R366) -/
  eth : List (Nat × EthPort) := []
  /-- MGT_HOST_DENY.ADDR captures the next refused address (R502) -/
  denyArmed : Bool := true
  /-- the model's own field: what the last access returned to its requester -/
  resp : Option Resp := none
  /-- the model's own field: counter of the free values taken so far -/
  free : Nat := 0
  /-- the model's own field: what has left the device, oldest first -/
  out : List OutMsg := []
  /-- the memory controllers (R271) -/
  hbm : HbmState := {}
  /-- carry-buffer entries, keyed by core · 32768 + entry (R61, R132) -/
  carry : List (Nat × CarryEntry) := []
  /-- tiles, keyed by core · 256 + tile (R60) -/
  tiles : List (Nat × Tile) := []
  /-- edge-port queues, keyed by ((core · 4 + side) · 16 + lane) · 2 + direction (R101) -/
  edges : List (Nat × FabQueue) := []
  /-- gateway queues, keyed by (gateway · 2 + direction) · 32 + code (R108): gateway 0 to 31 is a core's, 32 + 40 q + port that
  of the unit on a port of quadrant q (R109) -/
  gws : List (Nat × FabQueue) := []
  /-- spine tables, keyed by ((quadrant · 40 + port) · 4 + bank) · 128 + slot (R105) -/
  spine : List (Nat × W32) := []
  /-- spine entries found uncorrectable: their slot is idle (R106) -/
  spineBad : List (Nat × Bool) := []
  /-- output sequencers, keyed by core · 8 + sequencer (R75) -/
  seqs : List (Nat × SeqSt) := []
  /-- launch ports and heartbeats of the cores (R84, R495) -/
  cores : List (Nat × CoreSt) := []
  /-- vector thread slots, keyed by core · 16 + slot (R237) -/
  threads : List (Nat × VThread) := []
  /-- start-request copies, keyed by agent · 32 + core (R575) -/
  vtCopy : List (Nat × VtCopy) := []
  /-- message queues (R255) -/
  sync : SyncState := {}
  /-- the Solstice engine (R227) -/
  sol : SolState := {}
  /-- the Quosk links and routes (R396) -/
  qsk : QskState := {}
  /-- words in transit on tile links, keyed by the input they arrive at (R95) -/
  wires : List (Nat × List QWord) := []
  /-- words waiting at a switch input for their slot, keyed by ((quadrant · 40 + port) · 128 + slot), with their positions (R105) -/
  flits : List (Nat × List (Nat × QWord)) := []
  /-- row buffers, keyed by core · 8 + buffer (R212) -/
  rbufs : List (Nat × RowBuf) := []
  /-- fetch streams, keyed by core · 8 + engine (R215) -/
  fstr : List (Nat × FStream) := []
  /-- words that wait at the block codec's port, keyed by pipeline · 32 + inbound gateway queue (R107, R307) -/
  codec : List (Nat × List QWord) := []
  /-- accesses with parts still to complete, by request number (R62, R286) -/
  reqs : List (Nat × ReqSt) := []
  /-- the model's own field: the number of the next access -/
  nextReq : Nat := 0
  /-- parts of accesses that are held, oldest first (R62, R295) -/
  held : List HeldPart := []
  /-- the load in progress (R336) -/
  load : Option LoadJob := none
  /-- gateway tables of memory channels and attached units, keyed by ((end code · 2 + direction) · 4 + bank) · 128 + slot (R107, R324) -/
  unitGw : List (Nat × W64) := []
  /-- one-time-programmable storage (R530) -/
  otp : Otp := {}
  /-- the barrier gateway (R427) -/
  bgw : Gateway := {}
  /-- the metrology island (R416) -/
  isl : Island := {}
  /-- the adaptation unit (R446) -/
  learn : Learn := {}
  /-- the steward core and its firmware (R500) -/
  stw : Stw := {}
  /-- the evidence ring (R310) -/
  ev : EvState := {}
  deriving DecidableEq, Repr

/-- Why a step stops with a fault. No meaning of this model raises one: every access the spec gives no effect
completes with the status the spec names. -/
inductive Fault where
  /-- raised by nothing; safe, since it cannot occur -/
  | none
  deriving DecidableEq, Repr

/-- Why a step has no meaning. -/
inductive Refusal where
  /-- raised by the arms of Dispatch that have no meaning yet; safe, since the machine stops -/
  | notModelled (mnemonic : String)
  deriving DecidableEq, Repr

/-- The machine right after a power-on reset (spec/21_startup_and_bringup.md R527, R528; spec/22 R544, R557):
no command waiting and every register at its reset value, so every sparse map is empty. -/
def State.reset : State := {}

/-- Replace `regs`. -/
def State.setRegs (s : State) (v : List (Nat × W64)) : State := { s with regs := v }
/-- Replace `mem`. -/
def State.setMem (s : State) (v : List Host.Cell) : State := { s with mem := v }
/-- Replace `ecc`. -/
def State.setEcc (s : State) (v : List (Nat × EccState)) : State := { s with ecc := v }
/-- Replace `alm`. -/
def State.setAlm (s : State) (v : AlmState) : State := { s with alm := v }
/-- Replace `bm`. -/
def State.setBm (s : State) (v : List (Nat × BeatM)) : State := { s with bm := v }
/-- Replace `flt`. -/
def State.setFlt (s : State) (v : FltState) : State := { s with flt := v }
/-- Replace `pwr`. -/
def State.setPwr (s : State) (v : PwrState) : State := { s with pwr := v }
/-- Replace `irq`. -/
def State.setIrq (s : State) (v : IrqState) : State := { s with irq := v }
/-- Replace `pipes`. -/
def State.setPipes (s : State) (v : List (Nat × Pipe)) : State := { s with pipes := v }
/-- Replace `streams`. -/
def State.setStreams (s : State) (v : List (Nat × Stream)) : State := { s with streams := v }
/-- Replace `ep`. -/
def State.setEp (s : State) (v : EpState) : State := { s with ep := v }
/-- Replace `eth`. -/
def State.setEth (s : State) (v : List (Nat × EthPort)) : State := { s with eth := v }
/-- Replace `denyArmed`. -/
def State.setDenyArmed (s : State) (v : Bool) : State := { s with denyArmed := v }
/-- Replace `resp`. -/
def State.setResp (s : State) (v : Option Resp) : State := { s with resp := v }
/-- Replace `free`. -/
def State.setFree (s : State) (v : Nat) : State := { s with free := v }
/-- Replace `out`. -/
def State.setOut (s : State) (v : List OutMsg) : State := { s with out := v }
/-- Replace `hbm`. -/
def State.setHbm (s : State) (v : HbmState) : State := { s with hbm := v }
/-- Replace `carry`. -/
def State.setCarry (s : State) (v : List (Nat × CarryEntry)) : State := { s with carry := v }
/-- Replace `tiles`. -/
def State.setTiles (s : State) (v : List (Nat × Tile)) : State := { s with tiles := v }
/-- Replace `edges`. -/
def State.setEdges (s : State) (v : List (Nat × FabQueue)) : State := { s with edges := v }
/-- Replace `gws`. -/
def State.setGws (s : State) (v : List (Nat × FabQueue)) : State := { s with gws := v }
/-- Replace `spine`. -/
def State.setSpine (s : State) (v : List (Nat × W32)) : State := { s with spine := v }
/-- Replace `spineBad`. -/
def State.setSpineBad (s : State) (v : List (Nat × Bool)) : State := { s with spineBad := v }
/-- Replace `seqs`. -/
def State.setSeqs (s : State) (v : List (Nat × SeqSt)) : State := { s with seqs := v }
/-- Replace `cores`. -/
def State.setCores (s : State) (v : List (Nat × CoreSt)) : State := { s with cores := v }
/-- Replace `threads`. -/
def State.setThreads (s : State) (v : List (Nat × VThread)) : State := { s with threads := v }
/-- Replace `vtCopy`. -/
def State.setVtCopy (s : State) (v : List (Nat × VtCopy)) : State := { s with vtCopy := v }
/-- Replace `sync`. -/
def State.setSync (s : State) (v : SyncState) : State := { s with sync := v }
/-- Replace `sol`. -/
def State.setSol (s : State) (v : SolState) : State := { s with sol := v }
/-- Replace `qsk`. -/
def State.setQsk (s : State) (v : QskState) : State := { s with qsk := v }
/-- Replace `wires`. -/
def State.setWires (s : State) (v : List (Nat × List QWord)) : State := { s with wires := v }
/-- Replace `flits`. -/
def State.setFlits (s : State) (v : List (Nat × List (Nat × QWord))) : State := { s with flits := v }
/-- Replace `rbufs`. -/
def State.setRbufs (s : State) (v : List (Nat × RowBuf)) : State := { s with rbufs := v }
/-- Replace `fstr`. -/
def State.setFstr (s : State) (v : List (Nat × FStream)) : State := { s with fstr := v }
/-- Replace `codec`. -/
def State.setCodec (s : State) (v : List (Nat × List QWord)) : State := { s with codec := v }
/-- Replace `reqs`. -/
def State.setReqs (s : State) (v : List (Nat × ReqSt)) : State := { s with reqs := v }
/-- Replace `nextReq`. -/
def State.setNextReq (s : State) (v : Nat) : State := { s with nextReq := v }
/-- Replace `held`. -/
def State.setHeld (s : State) (v : List HeldPart) : State := { s with held := v }
/-- Replace `load`. -/
def State.setLoad (s : State) (v : Option LoadJob) : State := { s with load := v }
/-- Replace `unitGw`. -/
def State.setUnitGw (s : State) (v : List (Nat × W64)) : State := { s with unitGw := v }
/-- Replace `otp`. -/
def State.setOtp (s : State) (v : Otp) : State := { s with otp := v }
/-- Replace `bgw`. -/
def State.setBgw (s : State) (v : Gateway) : State := { s with bgw := v }
/-- Replace `isl`. -/
def State.setIsl (s : State) (v : Island) : State := { s with isl := v }
/-- Replace `learn`. -/
def State.setLearn (s : State) (v : Learn) : State := { s with learn := v }
/-- Replace `stw`. -/
def State.setStw (s : State) (v : Stw) : State := { s with stw := v }
/-- Replace `ev`. -/
def State.setEv (s : State) (v : EvState) : State := { s with ev := v }

/-- The outcome of a meaning. -/
abbrev Out := Host.Outcome State Fault Refusal

end Sys2Proof.Machine
end

