-- ==== Sys2Proof/Machine/Ops.lean ====
section
/-!
DEFINITION. The named operations that every meaning is written over: sparse maps, registers and their access rules
(R16, R17, R501, R502, R542 to R548), the Almanac's advance (R29, R33, R37), fault records (R465 to R471), interrupt
lines (R474, R505) and power domains as others see them (R483).
-/

namespace Sys2Proof

/-! ### Sparse maps -/

/-- The value at a key: the first listed entry, else the default. -/
def SMap.get {α : Type} (d : Nat → α) : List (Nat × α) → Nat → α
  | [], k => d k
  | (k', v) :: m, k => if k' = k then v else SMap.get d m k

/-- Insert an entry before the first greater key. -/
def SMap.ins {α : Type} (k : Nat) (v : α) : List (Nat × α) → List (Nat × α)
  | [] => [(k, v)]
  | (k', v') :: m => if k < k' then (k, v) :: (k', v') :: m else (k', v') :: SMap.ins k v m

/-- Write a value; writing what an unlisted key reads as removes the entry, so equal maps are equal lists. -/
def SMap.put {α : Type} [DecidableEq α] (d : Nat → α) (m : List (Nat × α)) (k : Nat) (v : α) : List (Nat × α) :=
  if v = d k then m.filter (fun e => e.1 != k) else SMap.ins k v (m.filter (fun e => e.1 != k))

/-- Restore every key of a set to its default. -/
def SMap.drop {α : Type} (p : Nat → Bool) (m : List (Nat × α)) : List (Nat × α) := m.filter (fun e => !p e.1)

/-- The canonical form: keys strictly rising and no entry equal to its default. -/
def SMap.wf {α : Type} [DecidableEq α] (d : Nat → α) : List (Nat × α) → Bool
  | [] => true
  | (k, v) :: m => decide (v ≠ d k) && m.all (fun e => decide (k < e.1)) && SMap.wf d m

/-! ### Small arithmetic -/

/-- The low `w` bits of a number, read as a two's-complement integer. -/
def sint (w n : Nat) : Int :=
  let m := n % 2 ^ w
  if 2 * m < 2 ^ w then (m : Int) else (m : Int) - (2 ^ w : Nat)

/-- An integer as a `w`-bit two's-complement number. -/
def uint (w : Nat) (x : Int) : Nat := (x % ((2 ^ w : Nat) : Int)).toNat

/-- Saturate a natural number to `w` bits. -/
def satN (w n : Nat) : Nat := if n < 2 ^ w then n else 2 ^ w - 1

/-- Saturate an integer to `w` bits two's complement. -/
def satI (w : Nat) (x : Int) : Int :=
  let hi : Int := ((2 ^ (w - 1) : Nat) : Int) - 1
  let lo : Int := -((2 ^ (w - 1) : Nat) : Int)
  if x > hi then hi else if x < lo then lo else x

/-- Integer division rounded to nearest, ties to even, for a positive divisor. -/
def divRNE (a : Int) (b : Nat) : Int :=
  let q := a / (b : Int)
  let r := a % (b : Int)
  if 2 * r < b then q else if 2 * r > b then q + 1 else if q % 2 = 0 then q else q + 1

/-- Ceiling of a quotient of naturals. -/
def ceilDiv (a b : Nat) : Nat := (a + b - 1) / b

/-- Bits [lo + w - 1 : lo] of a number. -/
def bits (n lo w : Nat) : Nat := (n >>> lo) % 2 ^ w

/-- One bit of a number. -/
def bit1 (n i : Nat) : Bool := n.testBit i

/-- A Bool as 0 or 1. -/
def b2n (b : Bool) : Nat := if b then 1 else 0

/-- The `n` bytes of a number, least significant first (R13). -/
def leBytes : Nat → Nat → List Byte
  | 0, _ => []
  | n + 1, v => BitVec.ofNat 8 v :: leBytes n (v / 256)

/-- The number whose bytes, least significant first, are given (R13). -/
def ofLe : List Byte → Nat
  | [] => 0
  | b :: bs => b.toNat + 256 * ofLe bs

/-- The `n` bytes of a number, most significant first. -/
def beBytes (n v : Nat) : List Byte := (leBytes n v).reverse

/-- The number whose bytes, most significant first, are given. -/
def ofBe (bs : List Byte) : Nat := ofLe bs.reverse

/-- `n` bytes of a list from position `i`, zeros past its end. -/
def sliceB (bs : List Byte) (i n : Nat) : List Byte :=
  let t := (bs.drop i).take n
  t ++ List.replicate (n - t.length) 0

/-- The little-endian number in bytes [i + n - 1 : i]. -/
def fieldLe (bs : List Byte) (i n : Nat) : Nat := ofLe (sliceB bs i n)

/-- The big-endian number in bytes [i + n - 1 : i]. -/
def fieldBe (bs : List Byte) (i n : Nat) : Nat := ofBe (sliceB bs i n)

/-- Smallest of a list with a default. -/
def minOr (d : Nat) (l : List Nat) : Nat := l.foldl Nat.min d

/-- Largest of a list, 0 when empty. -/
def maxOf (l : List Nat) : Nat := l.foldl Nat.max 0

namespace Machine

/-! ### Registers -/

/-- The word of a register (R542); unlisted offsets read 0. -/
def State.word (s : State) (off : Nat) : W64 := SMap.get Reg.reset s.regs off

/-- Set the word of a register. -/
def State.setWord (s : State) (off : Nat) (v : W64) : State := s.setRegs (SMap.put Reg.reset s.regs off v)

/-- Bits [lo + w - 1 : lo] of a word replaced by the low `w` bits of a value. -/
def insField (x : W64) (lo w v : Nat) : W64 :=
  let n := x.toNat
  BitVec.ofNat 64 (n - bits n lo w * 2 ^ lo + v % 2 ^ w * 2 ^ lo)

/-- A register field as a number. -/
def State.getF (s : State) (f : Fld) : Nat := bits (s.word f.off).toNat f.lo f.w

/-- Set a register field. -/
def State.setF (s : State) (f : Fld) (v : Nat) : State := s.setWord f.off (insField (s.word f.off) f.lo f.w v)

/-- A one-bit field as a Bool. -/
def State.flag (s : State) (f : Fld) : Bool := s.getF f != 0

/-- A signed register field. -/
def State.getI (s : State) (f : Fld) : Int := sint f.w (s.getF f)

/-- Set a field to an integer, two's complement. -/
def State.setI (s : State) (f : Fld) (x : Int) : State := s.setF f (uint f.w x)

/-- Add to a counter that wraps at its width (R547). -/
def State.addF (s : State) (f : Fld) (n : Nat) : State := s.setF f (s.getF f + n)

/-- Add to a counter that saturates. -/
def State.addSat (s : State) (f : Fld) (n : Nat) : State := s.setF f (satN f.w (s.getF f + n))

/-- The number of an agent: each has its own latches (R550, R552, R575). -/
def agentIdx : Agent → Nat
  | .steward => 0
  | .hart h => 1 + h.val
  | .pcie => 5
  | .debug => 6
  | .thread c _ => 7 + c.val

/-- Whether an access covers bits [31:0] (R543). -/
def coversLo (h : Half) : Bool := h != .hi

/-- Whether an access covers bits [63:32] (R543). -/
def coversHi (h : Half) : Bool := h != .lo

/-- Whether an access covers a bit position. -/
def covers (h : Half) (b : Nat) : Bool := if b < 32 then coversLo h else coversHi h

/-- The mask of the bits an access covers. -/
def halfMask (h : Half) : W64 :=
  match h with
  | .lo => 0x00000000FFFFFFFF#64
  | .hi => 0xFFFFFFFF00000000#64
  | .both => 0xFFFFFFFFFFFFFFFF#64

/-- The mask of the fields of a register that have an access code. -/
def accMask (fs : List RegFld) (a : Access) : W64 :=
  BitVec.ofNat 64 ((fs.filter (fun f => f.acc == a)).foldl (fun m f => m + (2 ^ f.w - 1) * 2 ^ f.lo) 0)

/-- A register's word after a write under its access codes (Table 0-3, R17, R543): RW bits take the value, each 1
clears a W1C bit and sets a W1S bit, and every other bit keeps its value. -/
def mergeWrite (fs : List RegFld) (h : Half) (v old : W64) : W64 :=
  let v := v &&& halfMask h
  let rw := accMask fs .rw &&& halfMask h
  let o1 := (old &&& ~~~rw) ||| (v &&& rw)
  let o2 := o1 &&& ~~~(v &&& accMask fs .w1c)
  o2 ||| (v &&& accMask fs .w1s)

/-- A register of ECC counters, both of which a read of either half clears (R580). -/
def eccCounter (off : Nat) : Bool :=
  decide (0x3001000 ≤ off ∧ off < 0x3401000 ∧ (off - 0x3001000) % 0x100000 < 0x1000) &&
    decide (off % 0x100 = 0x8 ∨ off % 0x100 = 0x10 ∨ off % 0x100 = 0x18)

/-- What a read of a register clears: its RC fields (Table 0-3). Of a field that spans both halves a 4-byte read clears the half that it
returns (R543; DESIGN CHOICE, log entry 116). -/
def rcMask (h : Half) (off : Nat) : W64 :=
  let m := accMask (Reg.fields off) .rc
  if eccCounter off then m else m &&& halfMask h

/-- Clear what a read of a register clears. -/
def State.clearRc (s : State) (h : Half) (off : Nat) : State :=
  if rcMask h off = 0#64 then s else s.setWord off (s.word off &&& ~~~rcMask h off)

/-- A read of a register with RC fields: its value under the access, and the state after it. -/
def State.readRc (s : State) (h : Half) (f : Fld) : State × W64 := (s.clearRc h f.off, s.word f.off &&& halfMask h)

/-- Write a register under its access codes. -/
def State.plainWrite (s : State) (off : Nat) (w : WriteReq) : State :=
  s.setWord off (mergeWrite (Reg.fields off) w.half w.value (s.word off))

/-- The value written that a fault record reports (R467): the half that a 4-byte write covers. -/
def written (w : WriteReq) : Nat :=
  match w.half with
  | .lo => w.value.toNat % 2 ^ 32
  | .hi => w.value.toNat / 2 ^ 32
  | .both => w.value.toNat

/-- The value of a written field, when the write covers its low bit. -/
def wField (w : WriteReq) (f : Fld) : Option Nat :=
  if covers w.half f.lo then some (bits w.value.toNat f.lo f.w) else none

/-- Whether a write sets a one-bit trigger. -/
def wBit (w : WriteReq) (f : Fld) : Bool := wField w f == some 1

/-! ### Who may write (R501, R502, R546) -/

/-- The bit of MGT_HOST_WMASK that governs an offset (Table 20-1). -/
def wmaskBit (off : Nat) : Nat :=
  let b := off / 0x100000
  if b ≤ 10 then b else if b < 48 then 11 else 12

/-- The mailbox host fields of channel `c` (R511): EN, bases, LOG2, REQ_WR and RSP_RD. -/
def isMbxHost (c off : Nat) : Bool :=
  let o := off - (0x800 + 0x40 * c)
  decide (0x800 + 0x40 * c ≤ off) && (o == 0 || o == 8 || o == 0x10 || o == 0x18 || o == 0x30)

/-- The registers that no host-side agent ever writes (last row of Table 20-1). -/
def isNever (off : Nat) : Bool :=
  off == 0x58 || off == 0x900048 || off == 0x300000 || off == 0x300010 || off == 0x300018 || off == 0x300080 ||
  off == 0x100018 || off == 0x100020 || off == 0x100030 || off == 0x78 ||
  (decide (0x3000000 ≤ off) && (off % 0x100000 == 0x10))

/-- MGT_BARnn_ARRIVE, MGT_MQnnn_PUSH and FLT_Q_HRD, always open to the host side (Table 20-1). -/
def isAlways (off : Nat) : Bool :=
  off == 0x300030 || (decide (0x1000 ≤ off) && decide (off < 0x1400) && off % 16 == 8) ||
  (decide (0x8000 ≤ off) && decide (off < 0x10000) && decide (0x40 ≤ off % 128) && decide (off % 128 < 0x60))

/-- The PCIe windows (Table 22-12). -/
def isPciWin (off : Nat) : Bool := decide (0xA00000 ≤ off) && decide (off < 0xA00040)

/-- Whether a field of the register is marked "Steward only" (R546). -/
def isStewardOnly (off : Nat) : Bool := (Reg.fields off).any (fun f => f.stew)

/-- Whether an agent may write a register at all (R501, R546, Table 20-1). The debug unit and free threads are held to
the rules of the host side's granted blocks (DEDUCED, log entry 12). -/
def mayWrite (s : State) (a : Agent) (off : Nat) : Bool :=
  match a with
  | .steward => !isPciWin off
  | .pcie =>
    if isPciWin off then true
    else if isNever off || isMbxHost 0 off then false
    else if isAlways off || isMbxHost 1 off then true
    else if off == 0x90 then s.flag Reg.MGT_WDOG_EXPIRED
    else bit1 (s.getF Reg.MGT_HOST_WMASK) (wmaskBit off)
  | .hart _ | .thread _ _ | .debug =>
    if isPciWin off || isNever off || isMbxHost 1 off then false
    else if isAlways off || isMbxHost 0 off || off == 0x98 then true
    else if off == 0x90 then s.flag Reg.MGT_WDOG_EXPIRED
    else bit1 (s.getF Reg.MGT_HOST_WMASK) (wmaskBit off)

/-- Whether a write touches a "Steward only" field of a register. -/
def touchesSteward (off : Nat) (h : Half) : Bool :=
  (Reg.fields off).any (fun f => f.stew && covers h f.lo)

/-- Answer an access. -/
def State.answer (s : State) (st : Status) (v : W64) : State := s.setResp (some { status := st, value := v })

/-- A refused write (R502): no effect, counted, its address held when none is. A PCIe write is discarded; a hart takes a store access
fault, and so do a thread and the debug unit (DEDUCED for these, log entry 12). -/
def State.deny (s : State) (a : Agent) (h : Half) (off : Nat) : State :=
  let s1 := s.addSat Reg.MGT_HOST_DENY_COUNT 1
  let at' := 0x3F00000000 + off + (if h = .hi then 4 else 0)
  let s2 := if s1.denyArmed then (s1.setF Reg.MGT_HOST_DENY_ADDR at').setDenyArmed false else s1
  s2.answer (if a = .pcie then .ok else .accessFault) 0#64

/-! ### Power domains as the other units see them -/

/-- Unit states (Table 22-4): 0 OFF, 1 RETAIN, 2 GATED, 3 ON. -/
def State.dom (s : State) (d : Nat) : Nat := s.getF (Reg.PWR_DOM_STAT_STATE d)

/-- The domain holds state: ON or RETAIN (R545). -/
def State.domHolds (s : State) (d : Nat) : Bool := s.dom d == 3 || s.dom d == 1

/-- The domain is ON. -/
def State.domOn (s : State) (d : Nat) : Bool := s.dom d == 3

/-- The domain that holds the register at an offset, none for the always-on domain (Table 22-1, R565). -/
def regDomain (off : Nat) : Option Nat :=
  match off / 0x100000 with
  | 0 => some 38
  | 1 => if off < 0x100100 then none else some 38
  | 2 => none
  | 3 => if 0x300100 ≤ off ∧ off < 0x300120 then none else some 38
  | 4 => some 38
  | 5 => some 54
  | 6 => if 0x601000 ≤ off ∧ off < 0x680000 then some (47 + (off - 0x601000) / 0x400) else some 38
  | 7 => if 0x701000 ≤ off ∧ off < 0x702000 then some (50 + (off - 0x701000) / 0x200) else some 38
  | 8 => some 38
  | 9 => some 32
  | 10 => some 55
  | b => if b < 16 then some 38 else if b < 48 then some (b - 16) else some (43 + (b - 48))

/-- Whether the register at an offset exists now: its domain is ON or RETAIN (R545). -/
def State.regLive (s : State) (off : Nat) : Bool :=
  match regDomain off with
  | none => true
  | some d => s.domHolds d

/-- Whether the unit of the register at an offset is ON, so that an action may start (R545). -/
def State.regActs (s : State) (off : Nat) : Bool :=
  match regDomain off with
  | none => true
  | some d => s.domOn d

/-- The gate of every register write: refused under R502, ignored while the domain holds no state (R545), else the
effect. -/
def State.gated (s : State) (a : Agent) (h : Half) (off : Nat) (eff : State → State) : State :=
  if !mayWrite s a off || (a != .steward && touchesSteward off h) then s.deny a h off
  else if s.regLive off then (eff s).answer .ok 0#64
  else s.answer .ok 0#64

/-- The gate of a register write that starts an action in its unit: ignored unless the unit is ON (R545). -/
def State.gatedAct (s : State) (a : Agent) (h : Half) (off : Nat) (eff : State → State) : State :=
  s.gated a h off (fun s => if s.regActs off then eff s else s)

/-! ### The Almanac (R28, R29, R33, R36, R37) -/

/-- One nanosecond in units of the exact count. -/
def unitNs : Nat := 125 * 2 ^ 39

/-- 2^-16 ns in units of the exact count. -/
def unitFrac : Nat := 125 * 2 ^ 23

/-- The Almanac in whole nanoseconds, 64 bits (R28). -/
def State.now (s : State) : Nat := s.alm.alm / unitNs % 2 ^ 64

/-- The Almanac's fraction in 2^-16 ns (R28). -/
def State.nowFrac (s : State) : Nat := s.alm.alm / unitFrac % 2 ^ 16

/-- ALM_RATE as read: beyond ±1,099,511,627 it stands for that bound (Table 22-3). -/
def clampRate (r : Int) : Int := if r > 1099511627 then 1099511627 else if r < -1099511627 then -1099511627 else r

/-- The increment of one tick without slew: 2 ns corrected by the rate (R29, R33). -/
def tickBase (s : State) : Nat := (250 * 2 ^ 39 + 125 * s.getI Reg.ALM_RATE : Int).toNat

/-- The amount one tick of slew adds or removes: 1,000 ppm of 2 ns (R33). -/
def slewUnit : Nat := 2 ^ 37

/-- `n` time-clock ticks: the rate and any unabsorbed slew act on each (R33). -/
def State.ticks (s : State) (n : Nat) : State :=
  let k := min n s.alm.slewRem.natAbs
  let dir : Int := if s.alm.slewRem < 0 then -1 else 1
  let a := (s.alm.alm + n * tickBase s : Nat) + dir * ((k * slewUnit : Nat) : Int)
  s.setAlm { s.alm with alm := a.toNat, slewRem := s.alm.slewRem - dir * k }

/-- The number of ticks until the Almanac has reached a count in exact units. -/
def ticksTo (s : State) (target : Nat) : Nat :=
  if target ≤ s.alm.alm then 0
  else
    let d := target - s.alm.alm
    let k := s.alm.slewRem.natAbs
    let base := tickBase s
    let fast := if s.alm.slewRem < 0 then base - slewUnit else base + slewUnit
    let n1 := ceilDiv d fast
    if n1 ≤ k then n1 else k + ceilDiv (d - k * fast) base

/-- Crystal cycles until the Almanac has reached a count (R37). -/
def crystalTo (s : State) (target : Nat) : Nat :=
  if target ≤ s.alm.alm then 0
  else ceilDiv (target - s.alm.alm) (max 1 (s.getF Reg.ALM_AON_PERIOD * unitFrac))

/-- `n` crystal cycles in Dormant: each adds ALM_AON_PERIOD, and neither rate nor slew acts (R37). -/
def State.crystals (s : State) (n : Nat) : State :=
  s.setAlm { s.alm with alm := s.alm.alm + n * (s.getF Reg.ALM_AON_PERIOD * unitFrac) }

/-- Carry the Almanac forward until it has reached an instant in ns, in whole ticks of whichever clock drives it; an
instant already reached moves nothing. -/
def State.reach (s : State) (t : Nat) : State :=
  if s.alm.crystal then s.crystals (crystalTo s (t * unitNs)) else s.ticks (ticksTo s (t * unitNs))

/-- Carry the Almanac forward by at least a number of ns. -/
def State.elapse (s : State) (d : Nat) : State := s.reach (s.now + d)

/-! ### Outputs and interrupts -/

/-- Something leaves the device. -/
def State.emit (s : State) (m : OutMsg) : State := s.setOut (s.out ++ [m])

/-- What the MSI-X table resets to (Table 20-5; PRESUMED, log entry 37): bit 0 of each vector's control word is its mask. -/
def msixReset (off : Nat) : W64 := if off < 0x400 ∧ off % 16 = 8 then 0x100000000#64 else 0#64

/-- A 64-bit word of BAR 4: the MSI-X table from 0, the pending-bit array at 0x8000 (Table 20-5). -/
def State.msixWord (s : State) (off : Nat) : W64 := SMap.get msixReset s.stw.msix off
def State.putMsix (s : State) (off : Nat) (v : W64) : State :=
  s.setStw { s.stw with msix := SMap.put msixReset s.stw.msix off v }

/-- An MSI-X message (R508): the endpoint sends it, or holds it in the pending-bit array while its vector is masked (PRESUMED, log
entry 37). -/
def State.sendMsix (s : State) (v : Nat) : State :=
  if !s.domOn 55 then s
  else if (s.msixWord (16 * v + 8)).getLsbD 32 then s.putMsix 0x8000 (s.msixWord 0x8000 ||| BitVec.ofNat 64 (2 ^ v))
  else s.emit (.msix v)

/-- Raise a host-side interrupt source (R505, Table 20-2): to the PLIC, to MSI-X or nowhere, by its route. Source 68
always goes to the PLIC. -/
def State.irqSource (s : State) (src : Nat) : State :=
  let dest := if src = 68 then 0 else s.getF (Reg.MGT_IRQ_ROUTE_DEST src)
  if dest = 0 then s.setIrq { s.irq with plic := SMap.put (fun _ => false) s.irq.plic src true }
  else if dest = 1 then s.sendMsix (s.getF (Reg.MGT_IRQ_ROUTE_VECTOR src))
  else s

/-- Causes of steward-core interrupts: 0 faults (R474), 1 power (R484), 2 loader (R337), 3 mailbox (R512),
5 regulator. -/
def State.irqSteward (s : State) (cause : Nat) : State :=
  s.setIrq { s.irq with stw := SMap.put (fun _ => false) s.irq.stw cause true }

/-- Assert a fault interrupt of destination `d`, or send its message (R474). -/
def State.fltAssert (s : State) (d : Nat) : State :=
  let s1 := s.setFlt { s.flt with irqOn := SMap.put (fun _ => false) s.flt.irqOn d true,
                                  irqLast := SMap.put (fun _ => none) s.flt.irqLast d (some s.now) }
  if d = 0 then s1.irqSteward 0
  else if d = 1 then s1.irqSource 68
  else s1.sendMsix (s.getF (Reg.FLT_IRQ_CFG_VECTOR 2))

/-- HOLDOFF has passed since the interrupt was last asserted (R474). -/
def State.holdoffPassed (s : State) (d : Nat) : Bool :=
  match SMap.get (fun _ => none) s.flt.irqLast d with
  | none => true
  | some t => decide (t + 1000 * s.getF (Reg.FLT_IRQ_CFG_HOLDOFF d) ≤ s.now)

/-- A record of a class has become visible: the status bit of an enabled class is set, and the interrupt follows
(R474). -/
def State.fltVisible1 (cls d : Nat) (s : State) : State :=
  if bit1 (s.getF (Reg.FLT_IRQ_CFG_CLASS_EN d)) cls then
    let s1 := s.setF (Reg.FLT_IRQ_STAT_CLASS d) (s.getF (Reg.FLT_IRQ_STAT_CLASS d) ||| 2 ^ cls)
    if 2 ≤ cls ∨ s1.holdoffPassed d then s1.fltAssert d else s1
  else s

/-- A record of a class has become visible, for every destination. -/
def State.fltVisible (s : State) (cls : Nat) : State :=
  s.fltVisible1 cls 0 |>.fltVisible1 cls 1 |>.fltVisible1 cls 2

/-- Set LOST or RING of one destination; it interrupts at once when any class is enabled (R474). -/
def State.fltSpecial1 (f : Nat → Fld) (d : Nat) (s : State) : State :=
  let s1 := s.setF (f d) 1
  if s1.getF (Reg.FLT_IRQ_CFG_CLASS_EN d) = 0 then s1 else s1.fltAssert d

/-- Set LOST or RING of every destination. -/
def State.fltSpecial (s : State) (f : Nat → Fld) : State :=
  s.fltSpecial1 f 0 |>.fltSpecial1 f 1 |>.fltSpecial1 f 2

/-- The status bits of a destination that are set and enabled: LOST and RING count while any class is (R474). -/
def State.fltSet (s : State) (d : Nat) : Nat :=
  let en := s.getF (Reg.FLT_IRQ_CFG_CLASS_EN d)
  (s.getF (Reg.FLT_IRQ_STAT_CLASS d) &&& en) +
    (if en = 0 then 0 else 32 * s.getF (Reg.FLT_IRQ_STAT_LOST d) + 64 * s.getF (Reg.FLT_IRQ_STAT_RING d))

/-- After a change of a destination's settings or status bits (R474): the level with no enabled bit set falls; a destination that is not
asserted is when an enabled bit of UNIT, DEVICE, LOST or RING is set, or another once HOLDOFF has passed. -/
def State.fltLevel (s : State) (d : Nat) : State :=
  let v := s.fltSet d
  if v = 0 then
    let s1 := s.setFlt { s.flt with irqOn := SMap.put (fun _ => false) s.flt.irqOn d false }
    if d = 0 then s1.setIrq { s1.irq with stw := SMap.put (fun _ => false) s1.irq.stw 0 false }
    else if d = 1 then s1.setIrq { s1.irq with plic := SMap.put (fun _ => false) s1.irq.plic 68 false }
    else s1
  else if !SMap.get (fun _ => false) s.flt.irqOn d && (decide (4 ≤ v) || s.holdoffPassed d) then s.fltAssert d
  else s

/-! ### Fault records (R465 to R471) -/

/-- Unit coordinates (Table 18-4). -/
def uDevice : Nat := 0
def uCore (c : Nat) : Nat := 0x10000000 + c * 2 ^ 8
def uTile (c t : Nat) : Nat := 0x10000000 + 2 ^ 16 + c * 2 ^ 8 + t
def uSol : Nat := 0x20000000
def uLearn : Nat := 0x20000001
def uStack (m : Nat) : Nat := 0x30000000 + m
def uChan (g : Nat) : Nat := 0x30000000 + g / 16 + g * 2 ^ 4 + 2 ^ 10
def uSpine (q p : Nat) : Nat := 0x40000000 + q + p * 4
def uSpineSlot (q p sl : Nat) : Nat := 0x40000000 + q + p * 4 + sl * 2 ^ 8 + 2 ^ 15
def uEth (p : Nat) : Nat := 0x50000000 + p
def uIngest : Nat := 0x60000000
def uCodec : Nat := 0x60000001
def uLink (l peer : Nat) : Nat := 0x70000000 + l + peer * 2 ^ 8
def uBarrier (c : Nat) : Nat := 0x80000000 + c * 2 ^ 8
def uSource (src c : Nat) : Nat := 0x80000000 + src + 2 ^ 7 + c * 2 ^ 8
def uThread (c j : Nat) : Nat := 0x90000000 + c * 2 ^ 8 + j
def uBar (b : Nat) : Nat := 0xA0000000 + b
def uQueue (q : Nat) : Nat := 0xA0000000 + q + 2 ^ 8
def uLoader (n : Nat) : Nat := 0xB0000000 + n
def uBeat (n : Nat) : Nat := 0xC0000000 + n
def uDom (d : Nat) : Nat := 0xD0000000 + d

/-- DETAIL: the items of a code from bit 0 upward, each saturated to its width (R467, Table 18-5). -/
def packDetail : List (Nat × Nat) → Nat
  | [] => 0
  | (w, v) :: ds => satN w v + 2 ^ w * packDetail ds

/-- The 32 bytes of a fault record written with a given RSEQ (Table 18-3). -/
def FaultRec.bytes (r : FaultRec) (rseq : Nat) : List Byte :=
  let flags := b2n r.frame.isSome + 2 * b2n r.pipe.isSome + 4 * b2n r.fif.isSome
  let sf := r.frame.getD (0, 0)
  leBytes 1 r.cls ++ leBytes 1 flags ++ leBytes 2 r.code ++ leBytes 4 r.unit ++ leBytes 8 r.time ++
  leBytes 2 sf.1 ++ leBytes 2 (sf.2 % 2 ^ 16) ++ leBytes 1 (r.pipe.getD 0 + 4 * r.fif.getD 0) ++
  leBytes 1 r.devnum ++ leBytes 2 (rseq % 2 ^ 16) ++ leBytes 8 r.detail

/-- The ordinary records waiting in the pending store (R471). -/
def pendCount (p : List FaultRec) : Nat := (p.filter (fun r => r.summary.isNone)).length

/-- Add one to the count of a class, saturating at 4,095 (R471). -/
def bumpClass (cls : Nat) (cs : List Nat) : List Nat :=
  (List.range 5).map (fun i => let c := cs.getD i 0; if i = cls then min 4095 (c + 1) else c)

/-- A summary record of lost reports (R471). -/
def mkSummary (time dev : Nat) (cs : List Nat) : FaultRec :=
  { cls := maxOf ((List.range 5).filter (fun i => cs.getD i 0 != 0)), code := 0xF01, unit := 0, time := time,
    devnum := dev, detail := packDetail (cs.map (fun c => (12, c))), summary := some cs }

/-- Count a lost record in the open summary, opening one when there is none (R471). -/
def countLost (p : List FaultRec) (cls time dev : Nat) : List FaultRec :=
  if p.any (fun r => r.summary.isSome) then
    p.map (fun r => match r.summary with
      | some cs => mkSummary r.time r.devnum (bumpClass cls cs)
      | none => r)
  else p ++ [mkSummary time dev (bumpClass cls [])]

/-- Copy the most recent DEVICE record to FLT_LAST_DEVICE (R473). -/
def State.lastDevice (s : State) (r : FaultRec) : State :=
  let bs := r.bytes (s.getF Reg.FLT_Q_WR)
  (List.range 4).foldl (fun s i => s.setF (Reg.FLT_LAST_DEVICE i) (fieldLe bs (8 * i) 8)) s

/-- Raise a fault record (R463, R471, R473): a DEVICE record is copied to FLT_LAST_DEVICE; the pending store accepts
the record, or it is lost, counted and summarised. -/
def State.raise (s : State) (r0 : FaultRec) : State :=
  let r := { r0 with devnum := s.getF Reg.MGT_DEVNUM, summary := none }
  let s1 := if r.cls = 4 then s.lastDevice r else s
  let n := pendCount s1.flt.pend
  if n < (if r.cls = 0 then 96 else 127) then
    s1.setFlt { s1.flt with pend := s1.flt.pend ++ [r] }
  else
    (s1.addSat (Reg.FLT_LOST_C r.cls) 1).setFlt { s1.flt with pend := countLost s1.flt.pend r.cls r.time r.devnum }
      |>.fltSpecial Reg.FLT_IRQ_STAT_LOST

/-- A record of the present instant with no frame. -/
def State.report (s : State) (cls code unit : Nat) (detail : List (Nat × Nat)) : State :=
  s.raise { cls := cls, code := code, unit := unit, time := s.now, detail := packDetail detail }

/-- A record that names a pipeline. -/
def State.reportP (s : State) (cls code unit pipe : Nat) (detail : List (Nat × Nat)) : State :=
  s.raise { cls := cls, code := code, unit := unit, time := s.now, pipe := some pipe, detail := packDetail detail }

/-- CORRECTED.0x601 with the domain, the register and value written, and the cause (R485). -/
def State.powerRefuse (s : State) (d off value cause : Nat) : State :=
  s.report 0 0x601 (uDom d) [(26, off), (32, value), (4, cause)]

/-- A fresh free value (DESIGN CHOICE, log entry 2). -/
def State.freeVal (s : State) : W64 := Config.freeWord s.free

/-- Move past the free values taken. -/
def State.freeNext (s : State) : State := s.setFree (s.free + 1)

/-! ### Movements of a core between ON and RETAIN (R484, R495) -/

/-- What a core's power state is doing: 0 nothing, 1 entering RETAIN, 2 waking by launch, 3 by arrival, 4 by request. -/
def State.coreMove (s : State) (c : Nat) : Nat := SMap.get (fun _ => 0) s.pwr.coreMove c

/-- Set it; TRANS shows it, and a requested change that is in progress too (R484). -/
def State.setCoreMove (s : State) (c m : Nat) : State :=
  (s.setPwr { s.pwr with coreMove := SMap.put (fun _ => 0) s.pwr.coreMove c m }).setF (Reg.PWR_DOM_STAT_TRANS c)
    (b2n (m != 0 || (SMap.get (fun _ => none) s.pwr.trans c).isSome))

/-- Something in a core begins work: an entry to RETAIN that is in progress is cancelled (R495). -/
def State.busyCore (s : State) (c : Nat) : State := if s.coreMove c = 1 then s.setCoreMove c 0 else s

end Machine
end Sys2Proof
end

