-- ==== Sys2Proof/Machine/Float.lean ====
section
/-!
DEFINITION. Exact binary floating point: FP32, FP16 and BF16 values as rationals, and one rounding to nearest, ties to
even (spec/06_quantisation_and_rescaling.md R158, R164, R169, R176; spec/09_vector_engine_and_threads.md R262, R263).
-/

namespace Sys2Proof

/-- A binary format: significand precision and exponent bits. -/
structure Fmt where
  p : Nat
  eb : Nat
  deriving DecidableEq, Repr

def Fmt.fp32 : Fmt := ⟨24, 8⟩
def Fmt.fp16 : Fmt := ⟨11, 5⟩
def Fmt.bf16 : Fmt := ⟨8, 8⟩

/-- Width of a format in bits. -/
def Fmt.width (f : Fmt) : Nat := f.p + f.eb

/-- An exact rational; the denominator is positive wherever it is built. -/
structure Rat2 where
  n : Int
  d : Nat
  deriving DecidableEq, Repr

/-- A decoded floating-point datum. -/
inductive Fp where
  | nan
  | inf (neg : Bool)
  | fin (neg : Bool) (mag : Rat2)
  deriving DecidableEq, Repr

/-- Decode the bits of a format. -/
def Fp.decode (f : Fmt) (x : Nat) : Fp :=
  let frac := x % 2 ^ (f.p - 1)
  let e := x / 2 ^ (f.p - 1) % 2 ^ f.eb
  let neg := x / 2 ^ (f.p - 1 + f.eb) % 2 == 1
  let off := 2 ^ (f.eb - 1) - 2 + (f.p - 1)
  if e = 2 ^ f.eb - 1 then (if frac = 0 then .inf neg else .nan)
  else if e = 0 then .fin neg ⟨frac, 2 ^ off⟩
  else .fin neg ⟨(2 ^ (f.p - 1) + frac : Nat) * 2 ^ (e - 1), 2 ^ off⟩

/-- The sign bit of a format. -/
def Fmt.signBit (f : Fmt) (neg : Bool) : Nat := if neg then 2 ^ (f.p - 1 + f.eb) else 0

/-- Infinity. -/
def Fmt.inf (f : Fmt) (neg : Bool) : Nat := f.signBit neg + (2 ^ f.eb - 1) * 2 ^ (f.p - 1)

/-- The canonical quiet NaN. -/
def Fmt.qnan (f : Fmt) : Nat := (2 ^ f.eb - 1) * 2 ^ (f.p - 1) + 2 ^ (f.p - 2)

/-- The largest finite magnitude. -/
def Fmt.maxFin (f : Fmt) (neg : Bool) : Nat := f.signBit neg + (2 ^ f.eb - 1) * 2 ^ (f.p - 1) - 1

/-- Round a quotient of naturals to the nearest natural, ties to even. -/
def divRNEn (a b : Nat) : Nat :=
  let q := a / b
  let r := a % b
  if 2 * r < b then q else if 2 * r > b then q + 1 else if q % 2 = 0 then q else q + 1

/-- The magnitude bits of a non-negative rational n / d rounded to a format: the encoding without its sign. -/
def Fmt.roundMag (f : Fmt) (n d : Nat) : Nat :=
  if n = 0 then 0
  else
    let off := 2 ^ (f.eb - 1) - 2 + (f.p - 1)
    -- floor(log2(n / d)) + shift, with shift large enough to stay natural
    let a := Nat.log2 n
    let b := Nat.log2 d
    let e : Int := if (if a ≥ b then n ≥ d * 2 ^ (a - b) else n * 2 ^ (b - a) ≥ d) then (a : Int) - b else (a : Int) - b - 1
    let u : Int := max (e - (f.p - 1 : Nat)) (-(off : Int))
    let mant := if u ≥ 0 then divRNEn n (d * 2 ^ u.toNat) else divRNEn (n * 2 ^ (-u).toNat) d
    let enc := (u + off).toNat * 2 ^ (f.p - 1) + mant
    min enc ((2 ^ f.eb - 1) * 2 ^ (f.p - 1))

/-- Round an exact rational with a sign to the bits of a format. -/
def Fmt.round (f : Fmt) (neg : Bool) (q : Rat2) : Nat := f.signBit neg + f.roundMag q.n.natAbs q.d

/-- The signed value of a finite datum. -/
def Fp.val (neg : Bool) (m : Rat2) : Rat2 := ⟨if neg then -m.n else m.n, m.d⟩

def Rat2.add (a b : Rat2) : Rat2 := ⟨a.n * b.d + b.n * a.d, a.d * b.d⟩
def Rat2.sub (a b : Rat2) : Rat2 := ⟨a.n * b.d - b.n * a.d, a.d * b.d⟩
def Rat2.mul (a b : Rat2) : Rat2 := ⟨a.n * b.n, a.d * b.d⟩
/-- Quotient; the divisor is non-zero wherever it is used. -/
def Rat2.div (a b : Rat2) : Rat2 := ⟨a.n * b.d * b.n.sign, a.d * b.n.natAbs⟩
def Rat2.lt (a b : Rat2) : Bool := decide (a.n * b.d < b.n * a.d)
def Rat2.eq (a b : Rat2) : Bool := decide (a.n * b.d = b.n * a.d)
def Rat2.ofInt (x : Int) : Rat2 := ⟨x, 1⟩
/-- x · 2^k for any integer k. -/
def Rat2.shl (a : Rat2) (k : Int) : Rat2 := if k ≥ 0 then ⟨a.n * 2 ^ k.toNat, a.d⟩ else ⟨a.n, a.d * 2 ^ (-k).toNat⟩
/-- Nearest integer, ties to even (R154). -/
def Rat2.rne (a : Rat2) : Int := divRNE a.n a.d
/-- Round to a format with the sign of the value; zero gives +0. -/
def Rat2.toFmt (f : Fmt) (a : Rat2) : Nat := f.round (decide (a.n < 0)) a

/-- The value of finite bits; non-finite bits read as 0. -/
def Fmt.valOf (f : Fmt) (x : Nat) : Rat2 :=
  match Fp.decode f x with
  | .fin neg m => Fp.val neg m
  | _ => ⟨0, 1⟩

/-- Whether bits are finite. -/
def Fmt.isFin (f : Fmt) (x : Nat) : Bool :=
  match Fp.decode f x with
  | .fin _ _ => true
  | _ => false

/-- Whether bits are a NaN. -/
def Fmt.isNan (f : Fmt) (x : Nat) : Bool := Fp.decode f x == .nan

/-- A result that overflows takes the largest finite value of its sign (R158, R164, R175). -/
def Fmt.capFin (f : Fmt) (x : Nat) : Nat :=
  match Fp.decode f x with
  | .inf neg => f.maxFin neg
  | _ => x

/-- Addition with one rounding (IEEE 754, nearest even). -/
def Fmt.add (f : Fmt) (x y : Nat) : Nat :=
  match Fp.decode f x, Fp.decode f y with
  | .nan, _ => f.qnan
  | _, .nan => f.qnan
  | .inf a, .inf b => if a == b then f.inf a else f.qnan
  | .inf a, _ => f.inf a
  | _, .inf b => f.inf b
  | .fin a m, .fin b k =>
    let s := (Fp.val a m).add (Fp.val b k)
    if s.n = 0 then f.signBit (a && b) else f.round (decide (s.n < 0)) s

/-- Flip the sign bit. -/
def Fmt.neg (f : Fmt) (x : Nat) : Nat :=
  if x / 2 ^ (f.p - 1 + f.eb) % 2 = 1 then x - 2 ^ (f.p - 1 + f.eb) else x + 2 ^ (f.p - 1 + f.eb)

/-- Subtraction with one rounding. -/
def Fmt.sub (f : Fmt) (x y : Nat) : Nat := if f.isNan y then f.qnan else f.add x (f.neg y)

/-- Multiplication with one rounding. -/
def Fmt.mul (f : Fmt) (x y : Nat) : Nat :=
  match Fp.decode f x, Fp.decode f y with
  | .nan, _ => f.qnan
  | _, .nan => f.qnan
  | .inf a, .inf b => f.inf (a != b)
  | .inf a, .fin b k => if k.n = 0 then f.qnan else f.inf (a != b)
  | .fin a m, .inf b => if m.n = 0 then f.qnan else f.inf (a != b)
  | .fin a m, .fin b k => f.round (a != b) (m.mul k)

/-- Division with one rounding. -/
def Fmt.div (f : Fmt) (x y : Nat) : Nat :=
  match Fp.decode f x, Fp.decode f y with
  | .nan, _ => f.qnan
  | _, .nan => f.qnan
  | .inf _, .inf _ => f.qnan
  | .inf a, .fin b _ => f.inf (a != b)
  | .fin a _, .inf b => f.signBit (a != b)
  | .fin a m, .fin b k =>
    if k.n = 0 then (if m.n = 0 then f.qnan else f.inf (a != b)) else f.round (a != b) (m.div k)

/-- Fused multiply-add x · y + z with one rounding. -/
def Fmt.fma (f : Fmt) (x y z : Nat) : Nat :=
  match Fp.decode f x, Fp.decode f y, Fp.decode f z with
  | .nan, _, _ => f.qnan
  | _, .nan, _ => f.qnan
  | .fin a m, .fin b k, .fin c l =>
    let p := m.mul k
    let s := (Fp.val (a != b) p).add (Fp.val c l)
    if s.n = 0 then f.signBit ((a != b) && c) else f.round (decide (s.n < 0)) s
  | .fin _ _, .fin _ _, .inf c => f.inf c
  | .fin _ _, .fin _ _, .nan => f.qnan
  | .inf a, .fin b k, c =>
    if k.n = 0 then f.qnan else
      match c with
      | .nan => f.qnan
      | .inf c => if c == (a != b) then f.inf c else f.qnan
      | .fin _ _ => f.inf (a != b)
  | .fin a m, .inf b, c =>
    if m.n = 0 then f.qnan else
      match c with
      | .nan => f.qnan
      | .inf c => if c == (a != b) then f.inf c else f.qnan
      | .fin _ _ => f.inf (a != b)
  | .inf a, .inf b, c =>
    match c with
    | .nan => f.qnan
    | .inf c => if c == (a != b) then f.inf c else f.qnan
    | .fin _ _ => f.inf (a != b)

/-- Integer square root by one bit at a time, from bit `k` down. -/
def isqrtStep (n : Nat) : Nat → Nat → Nat
  | 0, r => r
  | k + 1, r =>
    let t := r + 2 ^ k
    isqrtStep n k (if t * t ≤ n then t else r)

/-- Floor of the square root. -/
def isqrt (n : Nat) : Nat := isqrtStep n (Nat.log2 n / 2 + 1) 0

/-- Square root with one rounding; the square root of −0 is −0. -/
def Fmt.sqrt (f : Fmt) (x : Nat) : Nat :=
  match Fp.decode f x with
  | .nan => f.qnan
  | .inf a => if a then f.qnan else f.inf false
  | .fin a m =>
    if m.n = 0 then f.signBit a
    else if a then f.qnan
    else
      let big := m.n.natAbs * m.d * 4 ^ 64
      let r := isqrt big
      let sticky := if r * r = big then 0 else 1
      f.roundMag (2 * r + sticky) (2 * m.d * 2 ^ 64)

/-- x < y for finite or infinite data, NaN never less. -/
def Fmt.lt (f : Fmt) (x y : Nat) : Bool :=
  match Fp.decode f x, Fp.decode f y with
  | .nan, _ => false
  | _, .nan => false
  | .inf a, .inf b => a && !b
  | .inf a, .fin _ _ => a
  | .fin _ _, .inf b => !b
  | .fin a m, .fin b k => (Fp.val a m).lt (Fp.val b k)

/-- Numerical equality; the two zeros are equal and NaN equals nothing. -/
def Fmt.feq (f : Fmt) (x y : Nat) : Bool :=
  match Fp.decode f x, Fp.decode f y with
  | .inf a, .inf b => a == b
  | .fin a m, .fin b k => (Fp.val a m).eq (Fp.val b k)
  | _, _ => false

/-- Convert between formats with one rounding. -/
def Fmt.convert (f g : Fmt) (x : Nat) : Nat :=
  match Fp.decode f x with
  | .nan => g.qnan
  | .inf a => g.inf a
  | .fin a m => g.round a m

/-- An integer to a format with one rounding. -/
def Fmt.ofInt (f : Fmt) (x : Int) : Nat := f.round (decide (x < 0)) ⟨x, 1⟩

end Sys2Proof
end

