-- ==== Sys2Proof/Machine/Memory.lean ====
section
/-!
DEFINITION. Memory: the device address map (R61, R272, R274), stored bytes and their check states (R64, Table 10-4),
the write-combining buffer (R284 to R286) and the error counters (R580).
-/

namespace Sys2Proof.Machine

/-! ### Bytes -/

/-- What a byte of memory that nothing has written reads as (DESIGN CHOICE, log entry 3). -/
def memDefault : Nat → Byte := fun _ => 0#8

/-- The canonical form of memory: addresses strictly rising, no entry equal to the default. -/
def Memory.wf (m : List Host.Cell) : Bool := SMap.wf memDefault m

/-- One byte of memory at a physical address. -/
def State.rdByte (s : State) (a : Nat) : Byte := SMap.get memDefault s.mem a

/-- Write one byte of memory. -/
def State.wrByte (s : State) (a : Nat) (b : Byte) : State := s.setMem (SMap.put memDefault s.mem a b)

/-- `n` bytes from a physical address. -/
def State.rdBytes (s : State) (a n : Nat) : List Byte := (List.range n).map (fun i => s.rdByte (a + i))

/-- Write bytes from a physical address upward. -/
def State.wrBytes (s : State) (a : Nat) : List Byte → State
  | [] => s
  | b :: bs => (s.wrByte a b).wrBytes (a + 1) bs

/-- The check state of the word that starts at a physical address. -/
def State.eccAt (s : State) (a : Nat) : EccState := SMap.get (fun _ => EccState.clean) s.ecc a

/-- Set the check state of a word. -/
def State.setEccAt (s : State) (a : Nat) (e : EccState) : State :=
  s.setEcc (SMap.put (fun _ => EccState.clean) s.ecc a e)

/-! ### The address map -/

/-- Where a 48-bit device address falls. -/
inductive Place where
  /-- global channel and channel offset (R272, R273) -/
  | hbm (g off : Nat)
  /-- core and core-store offset (R61) -/
  | store (c off : Nat)
  /-- core, carry entry and byte of its 8-byte slot (R61) -/
  | carry (c entry byte : Nat)
  /-- unused part of a core's windows (R62) -/
  | unusedCore (c : Nat)
  /-- host-core memory (R503) -/
  | host (off : Nat)
  /-- control space (R542) -/
  | ctl (off : Nat)
  /-- an interleaved or direct address with no storage (R274) -/
  | noHbm
  /-- no region (R244) -/
  | nowhere
  deriving DecidableEq, Repr

/-- The active channels in ascending global number (R273): those of ACTIVE in each controller's map. -/
def State.activeChans (s : State) : List Nat :=
  (List.range 64).filter (fun g => bit1 (s.getF (Reg.MC_CH_MAP_ACTIVE (g / 16))) (g % 16))

/-- The map is committed (R294). -/
def State.committed (s : State) : Bool := s.flag Reg.MGT_HBM_CTL_COMMITTED

/-- The interleave of R273. -/
def interleave (active : List Nat) (a : Nat) : Nat × Nat :=
  let n := active.length
  let g := a / 256
  let i := g % n
  let r := g / n
  (active.getD ((i + r) % n) 0, r * 256 + a % 256)

/-- The place of a device address (R61, R272, R274, R503, R542). -/
def State.place (s : State) (a : Nat) : Place :=
  if a < 0x1000000000 then
    let act := s.activeChans
    if s.committed && decide (a < act.length * 0x40000000) then
      let (g, off) := interleave act a
      .hbm g off
    else .noHbm
  else if a < 0x2000000000 then
    let g := (a - 0x1000000000) / 0x40000000
    if s.committed && s.activeChans.contains g then .hbm g ((a - 0x1000000000) % 0x40000000) else .noHbm
  else if a < 0x2020000000 then
    let o := (a - 0x2000000000) % 0x1000000
    let c := (a - 0x2000000000) / 0x1000000
    if o < 0x400000 then .store c o else .unusedCore c
  else if 0x2100000000 ≤ a ∧ a < 0x2102000000 then
    let o := (a - 0x2100000000) % 0x100000
    let c := (a - 0x2100000000) / 0x100000
    if o < 0x40000 then .carry c (o / 8) (o % 8) else .unusedCore c
  else if 0x3000000000 ≤ a ∧ a < 0x3002000000 then .host (a - 0x3000000000)
  else if 0x3F00000000 ≤ a ∧ a < 0x3F04000000 then .ctl (a - 0x3F00000000)
  else .nowhere

/-- The physical key of an HBM byte: its direct-view address (R272). -/
def hbmKey (g off : Nat) : Nat := 0x1000000000 + g * 0x40000000 + off

/-- The physical key of a core-store byte. -/
def storeKey (c off : Nat) : Nat := 0x2000000000 + c * 0x1000000 + off

/-- The physical key of a host-core memory byte. -/
def hostKey (off : Nat) : Nat := 0x3000000000 + off

/-- Bytes of host-core memory written: they end every reservation that they touch (R250; PRESUMED, log entry 115). -/
def State.hostPut (s : State) (off : Nat) (bs : List Byte) : State :=
  (s.setSync { s.sync with resv := s.sync.resv.filter (fun e =>
    e.2.any (fun r => decide (r.1 + r.2 ≤ off ∨ off + bs.length ≤ r.1))) }).wrBytes (hostKey off) bs

/-- A channel is lost (R292). -/
def State.chanLost (s : State) (g : Nat) : Bool := bit1 (s.getF (Reg.MC_CH_MAP_LOST (g / 16))) (g % 16)

/-! ### HBM words -/

/-- Count an ECC event of a channel and hold it as the last one (R580); kinds 1 to 5 in the order of Table 23-9. -/
def State.eccCount (s : State) (g off kind : Nat) : State :=
  let m := g / 16
  let c := g % 16
  let f := match kind with
    | 1 => Reg.MC_ECC_CNT0_CORRECTED m c
    | 2 => Reg.MC_ECC_CNT0_UNCORRECTABLE m c
    | 3 => Reg.MC_ECC_CNT1_POISON_READ m c
    | 4 => Reg.MC_ECC_CNT1_POISON_WRITTEN m c
    | _ => Reg.MC_ECC_CNT2_RETRY_RECOVERED m c
  ((s.addSat f 1).setF (Reg.MC_ECC_LAST_OFFSET m c) (off / 32 * 32)).setF (Reg.MC_ECC_LAST_KIND m c) kind

/-- What a read of a 32-byte word meets: its 32 bytes and whether they are flagged. -/
structure WordRead where
  bytes : List Byte
  flagged : Bool
  poisoned : Bool
  deriving DecidableEq, Repr

/-- What a read meets: the stored check state, and on a clean word what this read alone finds. -/
def metState (e : EccState) (seen : EccSeen) : EccState :=
  match e, seen with
  | .clean, .single => .correctable
  | .clean, .double => .uncorrectable
  | e, _ => e

/-- What the second read of R288 finds, as a check state. -/
def seenState (seen : EccSeen) : EccState :=
  match seen with
  | .clean => .clean
  | .single => .correctable
  | .double => .uncorrectable

/-- Read a 32-byte word of a channel under Table 10-4, its bytes and check state given. `seen` is what this read finds on a clean word,
and `retry` the second result of R288 when the read was reissued. CORRECTED.0x201, DEGRADED.0x202 and CORRECTED.0x204 are
raised here; DEGRADED.0x205 is raised once per request by the caller. -/
def State.hbmReadAs (s : State) (g off req tag : Nat) (bs : List Byte) (e : EccState) (seen : EccSeen) (retry : Option EccSeen) :
    State × WordRead :=
  let fix := fun (s : State) => (s.eccCount g off 1).report 0 0x201 (uChan g) [(30, off / 32 * 32), (16, req)]
  match metState e seen with
  | .clean => (s, ⟨bs, false, false⟩)
  | .correctable => (fix s, ⟨bs, false, false⟩)
  | .poisoned => (s.eccCount g off 3, ⟨bs, true, true⟩)
  | .uncorrectable =>
    let ok := fun (s : State) => (s.eccCount g off 5).report 0 0x204 (uChan g) [(30, off / 32 * 32)]
    match retry with
    | some .clean => (ok s, ⟨bs, false, false⟩)
    | some .single => (fix (ok s), ⟨bs, false, false⟩)
    | _ =>
      ((s.eccCount g off 2).report 1 0x202 (uChan g) [(30, off / 32 * 32), (16, req), (8, tag)], ⟨bs, true, false⟩)

/-- What a reissued read finds where no command carries it: a free value (R288, DESIGN CHOICE, log entry 16); `k` tells the words of one
flush apart. -/
def State.freeSeen (s : State) (k : Nat) : EccSeen :=
  match s.freeVal.toNat / 4 ^ k % 4 with
  | 0 => .clean
  | 1 => .single
  | _ => .double

/-- Read one stored word as the service path and the device's own units do, with one reissue where EN is 1 (R288). -/
def State.hbmReadStored (s : State) (g off req : Nat) (seen : EccSeen) : State × WordRead :=
  let a := hbmKey g (off / 32 * 32)
  if s.flag (Reg.MC_RETRY_CFG_EN (g / 16)) && metState (s.eccAt a) seen == .uncorrectable then
    s.freeNext.hbmReadAs g off req 0 (s.rdBytes a 32) (s.eccAt a) seen (some (s.freeSeen 0))
  else s.hbmReadAs g off req 0 (s.rdBytes a 32) (s.eccAt a) seen none

/-- Apply an armed injection to a word just stored (R290, R579): one selected symbol leaves a correctable word, two an
uncorrectable one; a poisoned word stays poisoned and the injection is spent. -/
def State.inject (s : State) (g off : Nat) : State :=
  let m := g / 16
  if s.flag (Reg.MC_INJ_ARM m) && s.getF (Reg.MC_INJ_CHANNEL m) == g % 16 && s.getF (Reg.MC_INJ_WORD m) == off / 32 then
    let s1 := s.setF (Reg.MC_INJ_ARM m) 0
    let a := hbmKey g (off / 32 * 32)
    let syms := (List.range 32).filter (fun k => bit1 (SMap.get (fun _ => 0) s.hbm.injMask m) k)
    if s1.eccAt a = .poisoned then s1
    else if syms.length ≤ 1 then s1.setEccAt a .correctable
    else (syms.foldl (fun s k => s.wrByte (a + k) (s.rdByte (a + k) ^^^ 0xFF#8)) s1).setEccAt a .uncorrectable
  else s

/-- A full 32-byte write of a word (Table 10-4): fresh check bits, poison cleared. -/
def State.hbmWriteFull (s : State) (g off : Nat) (bs : List Byte) : State :=
  let a := hbmKey g (off / 32 * 32)
  ((s.wrBytes a (bs.take 32)).setEccAt a .clean).inject g off

/-- The read-merge-write of a partly covered word (Table 10-4), its read retried as R288 states: `seen` and `retry` are
the results of its read. The Bool says whether its writers receive DEGRADED. -/
def State.hbmMerge (s : State) (g off : Nat) (bs : List (Nat × Byte)) (seen retry : EccSeen) : State × Bool :=
  let a := hbmKey g (off / 32 * 32)
  let put := fun (s : State) => bs.foldl (fun s e => s.wrByte (a + e.1) e.2) s
  let fix := fun (s : State) => (s.eccCount g off 1).report 0 0x201 (uChan g) [(30, off / 32 * 32), (16, 0)]
  let bad := fun (s : State) (prior : Nat) =>
    ((((s.eccCount g off 4).report 1 0x203 (uChan g) [(30, off / 32 * 32), (4, prior)]) |> put).setEccAt a .poisoned
      |>.inject g off, true)
  match metState (s.eccAt a) seen with
  | .clean => ((put s).inject g off, false)
  | .correctable => (((put (fix s)).setEccAt a .clean).inject g off, false)
  | .poisoned => bad s 3
  | .uncorrectable =>
    if s.flag (Reg.MC_RETRY_CFG_EN (g / 16)) ∧ retry ≠ .double then
      let s1 := (s.eccCount g off 5).report 0 0x204 (uChan g) [(30, off / 32 * 32)]
      let s2 := if retry = .single then fix s1 else s1
      (((put s2).setEccAt a .clean).inject g off, false)
    else bad s 2

/-! ### Accesses with parts still to complete (R62, R286) -/

/-- The record of an access. -/
def State.reqOf (s : State) (id : Nat) : ReqSt := SMap.get (fun _ => {}) s.reqs id
def State.putReq (s : State) (id : Nat) (r : ReqSt) : State := s.setReqs (SMap.put (fun _ => {}) s.reqs id r)

/-- A status as a number; the larger is the worse. -/
def Status.rank : Status → Nat
  | .ok => 0
  | .degraded => 1
  | .unavailable => 2
  | .addressUnavailable => 3
  | .accessFault => 4
  | .illegal => 5

/-- The worse of two statuses (R62, R278). -/
def Status.worse (a b : Status) : Status := if a.rank < b.rank then b else a

/-- STATUS of a completion word: 0 OK, 1 DEGRADED, 2 UNAVAILABLE (R278). -/
def Status.code : Status → Nat
  | .ok => 0
  | .degraded => 1
  | _ => 2

/-- A gateway queue; direction 0 outbound, 1 inbound. Gateway 0 to 31 is a core's, 32 + 40 q + port that of the unit on a
port of quadrant q (R109). -/
def State.gw (s : State) (g dir code : Nat) : FabQueue := SMap.get (fun _ => {}) s.gws ((g * 2 + dir) * 32 + code)
def State.putGw (s : State) (g dir code : Nat) (v : FabQueue) : State :=
  s.setGws (SMap.put (fun _ => {}) s.gws ((g * 2 + dir) * 32 + code) v)

/-- A return word of a channel: it enters the outbound queue of the channel's gateway that its request came by, or, for a request from
outside, leaves the model (R109, R278). -/
def State.returnWord (s : State) (g : Nat) (code : Option Nat) (data : W64) (tag : Byte) (mark : Bool) : State :=
  match code with
  | none => s.emit (.word 3 g 0 data tag mark)
  | some k =>
    let id := 40 + 40 * (g / 16) + g % 16
    let x := s.gw id 0 k
    s.putGw id 0 k { x with
      words := x.words ++ [{ data := data, tag := tag, mark := if mark then some { time := s.now } else none, back := true }]
      held := decide (32 ≤ x.words.length + 1) }

/-- The pending requests of a channel. -/
def State.chanReqs (s : State) (g : Nat) : List ChanReq := SMap.get (fun _ => []) s.hbm.reqs g
def State.setChanReqs (s : State) (g : Nat) (rs : List ChanReq) : State :=
  s.setHbm { s.hbm with reqs := SMap.put (fun _ => []) s.hbm.reqs g rs }

/-- The queue that a request's return leaves by has room for `n` words (R109). -/
def State.returnRoom (s : State) (g n : Nat) (code : Option Nat) : Bool :=
  code.all (fun k => decide ((s.gw (40 + 40 * (g / 16) + g % 16) 0 k).words.length + n ≤ 32))

/-- The completion words that are due leave, each once no earlier request of its circuit is pending and its queue has room; a circuit
is known by its requester number (R109, R278; DESIGN CHOICE, log entry 108). -/
def State.settleReturns (s : State) (g : Nat) : State :=
  let r := (s.chanReqs g).foldl (fun (acc : State × List ChanReq) (x : ChanReq) =>
    match x.stat with
    | some st =>
      if acc.2.any (fun y => y.req == x.req) || !acc.1.returnRoom g 1 x.code then (acc.1, acc.2 ++ [x])
      else (acc.1.returnWord g x.code (BitVec.ofNat 64 st) x.tag false, acc.2)
    | none => (acc.1, acc.2 ++ [x])) (s, [])
  r.1.setChanReqs g r.2

/-- Bytes of data as 64-bit words, the first at the lowest position. -/
def wordsOf (bs : List Byte) : List W64 :=
  (List.range ((bs.length + 7) / 8)).map (fun i => BitVec.ofNat 64 (fieldLe bs (8 * i) 8))

/-- The requester number of an agent on the service path: 0x200 the steward core, then the harts, PCIe and the debug unit;
a thread's core · 16 + slot (DESIGN CHOICE, log entry 30). -/
def agentReq (a : Agent) : Nat :=
  match a with
  | .thread c j => c.val * 16 + j.val
  | _ => 0x200 + agentIdx a

/-- A requester number is a hart's. -/
def isHartReq (q : Nat) : Bool := decide (0x201 ≤ q ∧ q ≤ 0x204)

/-- The whole access has completed: its requester receives data and status. A hart's load completes with the data as read,
and only the fault record shows the poison (R282); a response to another device carries STATUS 3 for such a word (R402). -/
def State.deliver (s : State) (r : ReqSt) (id : Nat) : State :=
  match r.dest with
  | .nowhere => s
  | .service q =>
    let ws := wordsOf r.bytes
    let st := if isHartReq q && r.worst == .degraded && !r.bytes.isEmpty then Status.ok else r.worst
    s.setResp (some { status := st, value := ws.headD 0, more := ws.drop 1, req := q })
  | .circuit g =>
    (s.setChanReqs g ((s.chanReqs g).map (fun x => if x.wr == some id then { x with stat := some r.worst.code } else x))).settleReturns g
  | .store c j =>
    let f := Reg.CC_VT_SLOT_TSTAT c j
    if r.worst = .degraded then s.setF f (s.getF f ||| 64) else s
  | .load c j scalar reg sx =>
    let t := SMap.get (fun _ => ({} : VThread)) s.threads (c * 16 + j)
    if t.wait = .mem id then
      let n := ofLe r.bytes
      let v := if sx = 0 then n else uint 64 (sint sx n)
      s.setThreads (SMap.put (fun _ => ({} : VThread)) s.threads (c * 16 + j)
        { t with wait := .load scalar reg (BitVec.ofNat 512 v) r.tainted })
    else s
  | .remote link dev q rd =>
    s.emit (.service link dev (if rd then 2 else 3) (if rd && r.worst == .degraded then 3 else r.worst.code) r.bytes q)

/-- Replace `bs` at position `i` of a list of bytes. -/
def placeBytes (all : List Byte) (i : Nat) (bs : List Byte) : List Byte :=
  sliceB all 0 i ++ bs ++ all.drop (i + bs.length)

/-- One part of an access has completed; with the last one the access is delivered. -/
def State.finishPart (s : State) (id pos : Nat) (bs : List Byte) (st : Status) : State :=
  let r := s.reqOf id
  let r1 := { r with left := r.left - 1, worst := r.worst.worse st, tainted := r.tainted || st == .degraded,
                     bytes := if bs.isEmpty then r.bytes else placeBytes r.bytes pos bs }
  if r1.left = 0 then (s.putReq id {}).deliver r1 id else s.putReq id r1

/-- An access writes outputs of a frame (R27). -/
def State.forFrame (s : State) (id : Nat) (fr : Option (Nat × Nat)) : State := s.putReq id { s.reqOf id with frame := fr }

/-- A thread has stores that are not visible yet: parts held for a retained core, for a traffic generator or for the response of a
joined device (R62, R295, R402). -/
def State.storesOwed (s : State) (c j : Nat) : Bool :=
  s.held.any (fun h => h.data.isSome && decide ((s.reqOf h.id).dest = .store c j))

/-- The stores of a thread whose slot is freed complete for nobody: their status does not reach the slot's next thread (R239,
R251). -/
def State.disownStores (s : State) (c j : Nat) : State :=
  (s.reqs.map Prod.fst).foldl (fun s id =>
    if (s.reqOf id).dest = .store c j then s.putReq id { s.reqOf id with dest := .nowhere } else s) s

/-- A part of a new kind of work has been added to an access. -/
def State.addPart (s : State) (id : Nat) : State := s.putReq id { s.reqOf id with left := (s.reqOf id).left + 1 }

/-! ### The write-combining buffer -/

/-- The entries of a controller, oldest first. -/
def State.wcbOf (s : State) (m : Nat) : List WcbEntry := SMap.get (fun _ => []) s.hbm.wcb m

/-- Replace the entries of a controller; HELD counts them (R578). -/
def State.setWcb (s : State) (m : Nat) (es : List WcbEntry) : State :=
  (s.setHbm { s.hbm with wcb := SMap.put (fun _ => []) s.hbm.wcb m es }).setF (Reg.MC_WCB_STAT_HELD m) es.length

/-- The partial writes waiting at a controller (R284). -/
def State.wcbWaits (s : State) (m : Nat) : List WcbWait := SMap.get (fun _ => []) s.hbm.wait m

/-- Replace the waiting partial writes of a controller. -/
def State.setWcbWaits (s : State) (m : Nat) (ws : List WcbWait) : State :=
  s.setHbm { s.hbm with wait := SMap.put (fun _ => []) s.hbm.wait m ws }

/-- The half of its line that the bytes of one 32-byte word lie in. -/
def wordHalf (bs : List (Nat × Option Byte)) : Nat := (bs.head?.map (fun x => x.1 / 32)).getD 0

/-- Merge bytes of one 32-byte word into an entry, later bytes replacing earlier ones (R284). -/
def WcbEntry.merge (e : WcbEntry) (bs : List (Nat × Option Byte)) (w : Option Nat) : WcbEntry :=
  { e with bytes := bs.foldl (fun m x => SMap.put (fun _ => none) m x.1 x.2) e.bytes,
           writers := e.writers ++ (w.toList.map (fun id => (wordHalf bs, id))) }

/-- Whether a line has an entry that new bytes may merge into (R284, R285). -/
def hasEntry (es : List WcbEntry) (c line : Nat) : Bool :=
  es.any (fun e => e.chan == c && e.line == line && !e.flushing)

/-- Whether a line is buffered, its flush in progress or not: a full-word write to it enters the buffer, so that writes to the line keep
their order (R284, R285). -/
def State.lineHeld (s : State) (m c line : Nat) : Bool := (s.wcbOf m).any (fun e => e.chan == c && e.line == line)

/-- A read of a channel covers the word at an offset. -/
def ChanReq.covers (r : ChanReq) (off : Nat) : Bool := r.wr.isNone && decide (r.word ≤ off / 32 ∧ off / 32 ≤ r.word + r.len)

/-- A word is about to be stored by a write that arrived as number `id`: the reads that arrived before and have not returned keep what
the word holds now (R286). -/
def State.keepFor (s : State) (g off id : Nat) : State :=
  let a := hbmKey g (off / 32 * 32)
  if (s.chanReqs g).any (fun r => r.covers off && decide (r.id < id)) then
    s.setChanReqs g ((s.chanReqs g).map (fun r =>
      if r.covers off && decide (r.id < id) && !r.snap.any (fun x => x.1 == off / 32 - r.word) then
        { r with snap := r.snap ++ [(off / 32 - r.word, (s.rdBytes a 32, s.eccAt a))] }
      else r))
  else s

/-- A full word is written directly (R284): a partial write of that word that still waits for an entry is older, so its bytes there are
replaced with it. -/
def State.hbmWriteDirect (s : State) (g off : Nat) (bs : List Byte) : State :=
  let m := g / 16
  let mine := fun (w : WcbWait) => w.chan == g % 16 && w.line == off / 64 && wordHalf w.bytes == off / 32 % 2
  let s1 := (s.keepFor g off (s.nextReq + 1)).hbmWriteFull g off bs
  if (s1.wcbWaits m).any mine then
    s1.setWcbWaits m ((s1.wcbWaits m).map (fun w => if mine w then { w with bytes := [] } else w))
  else s1

/-- The oldest entry not already flushing starts its flush for occupancy. -/
def flushOldest : List WcbEntry → List WcbEntry
  | [] => []
  | e :: r => if e.flushing then e :: flushOldest r else { e with flushing := true, occ := true } :: r

/-- With 56 or more entries taken, the oldest entry not already flushing starts its flush, one such flush at a time
(R285). -/
def startOccupancyFlush (es : List WcbEntry) : List WcbEntry :=
  if 56 ≤ es.length ∧ ¬ es.any (fun e => e.occ) then flushOldest es else es

/-- AGE of a controller in ns (R285). -/
def State.wcbAge (s : State) (m : Nat) : Nat := 500 * (s.getF (Reg.MC_WCB_CFG_AGE m) + 1)

/-- A new entry for a line. -/
def State.newEntry (s : State) (g line : Nat) : WcbEntry :=
  { chan := g % 16, line := line, taken := s.now, age := s.wcbAge (g / 16), id := s.nextReq }

/-- Put bytes of one line of a channel into the buffer for access `id`, if one waits for them: merged into the line's entry, or into a
new one, or waiting when all 64 entries are taken (R284, R578). -/
def State.wcbPut (s : State) (g line : Nat) (bs : List (Nat × Option Byte)) (id : Option Nat) : State :=
  let m := g / 16
  let c := g % 16
  let es := s.wcbOf m
  if hasEntry es c line then
    s.setWcb m (es.map (fun e => if e.chan == c && e.line == line && !e.flushing then e.merge bs id else e))
  else if es.length < 64 then
    s.setWcb m (startOccupancyFlush (es ++ [(s.newEntry g line).merge bs id]))
  else
    (s.addF (Reg.MC_WCB_WAIT m) 1).setWcbWaits m
      (s.wcbWaits m ++ [{ chan := c, line := line, bytes := bs, writer := id, id := s.nextReq }])

/-- Store the bytes of an entry: fully covered words directly, the others by read-merge-write (R285), with what the
reads of its two words find. Answers the halves of the line whose words were DEGRADED. -/
def State.wcbStore (s : State) (g : Nat) (e : WcbEntry) (seen : List (EccSeen × EccSeen)) : State × List Nat :=
  [0, 1].foldl (fun (acc : State × List Nat) (h : Nat) =>
    let bs := e.bytes.filterMap (fun x =>
      match x.2 with
      | some b => if x.1 / 32 = h then some (x.1 % 32, b) else none
      | none => none)
    let off := e.line * 64 + 32 * h
    let w := seen.getD h (.clean, .double)
    if bs.length = 0 then acc
    else
      let s1 := acc.1.keepFor g off e.id
      if bs.length = 32 then (s1.hbmWriteFull g off (bs.map Prod.snd), acc.2)
      else
        let r := s1.hbmMerge g off bs w.1 w.2
        (r.1, if r.2 then acc.2 ++ [h] else acc.2)) (s, [])

/-- A read that arrived after the bytes `id` of a line waits for their flush (R285). -/
def State.readWaits (s : State) (g line id : Nat) : Bool :=
  (s.chanReqs g).any (fun r => decide (id ≤ r.id) && (r.covers (line * 64) || r.covers (line * 64 + 32)))

/-- One waiting partial write merges into an entry of its line, takes a free entry, or goes on waiting. An entry so taken starts its
flush at once when a read of its line has arrived since (R285). -/
def State.wcbAdmit1 (s : State) (m : Nat) (w : WcbWait) : State :=
  if hasEntry (s.wcbOf m) w.chan w.line then
    s.setWcb m ((s.wcbOf m).map (fun e =>
      if e.chan == w.chan && e.line == w.line && !e.flushing then e.merge w.bytes w.writer else e))
  else if (s.wcbOf m).length < 64 then
    let e := (s.newEntry (m * 16 + w.chan) w.line).merge w.bytes w.writer
    s.setWcb m (s.wcbOf m ++ [{ e with id := w.id, flushing := s.readWaits (m * 16 + w.chan) w.line w.id }])
  else s.setWcbWaits m (s.wcbWaits m ++ [w])

/-- Admit the waiting partial writes that the entries now have room for, oldest first (R284). -/
def State.wcbAdmit (s : State) (m : Nat) : State :=
  (s.wcbWaits m).foldl (fun s w => s.wcbAdmit1 m w) (s.setWcbWaits m [])

/-- Give the parts whose bytes an entry held their status, each that of its own word (R278, R286). -/
def State.notifyWriters (s : State) (ws : List (Nat × Nat)) (st : Nat → Status) : State :=
  ws.foldl (fun s w => s.finishPart w.2 0 [] (st w.1)) s

/-- The oldest flush for occupancy starts, when one is due (R285). -/
def State.wcbRelieve (s : State) (m : Nat) : State := s.setWcb m (startOccupancyFlush (s.wcbOf m))

/-- Complete the flush of an entry: its bytes are stored, it leaves the buffer, the flush is counted, its writers
receive their status, waiting writes are admitted and the next flush for occupancy starts (R284 to R286). -/
def State.wcbComplete (s : State) (m : Nat) (e : WcbEntry) (seen : List (EccSeen × EccSeen)) : State :=
  let r := s.wcbStore (m * 16 + e.chan) e seen
  let s1 := r.1.setWcb m ((r.1.wcbOf m).erase e)
  ((((s1.addF (Reg.MC_WCB_FLUSH m) 1).wcbAdmit m).wcbRelieve m)).notifyWriters e.writers
    (fun h => if r.2.contains h then .degraded else .ok)

/-- Complete the flush of an entry that a read forces; what a reissued read of its words finds is a free value (R288, DESIGN CHOICE, log
entry 16). -/
def State.wcbForce (s : State) (m : Nat) (e : WcbEntry) : State :=
  s.freeNext.wcbComplete m e [(.clean, s.freeSeen 0), (.clean, s.freeSeen 1)]

/-- Every entry of a line is flushed before a read of its bytes, and after them the partial writes of the line that wait for an entry,
which pass through one (R245, R285, R286). -/
def State.wcbDrainLine (s : State) (g line : Nat) : State :=
  let m := g / 16
  let here := fun (w : WcbWait) => w.chan == g % 16 && w.line == line
  let ws := (s.wcbWaits m).filter here
  let s0 := if ws.isEmpty then s else s.setWcbWaits m ((s.wcbWaits m).filter (fun w => !here w))
  let s1 := ((s0.wcbOf m).filter (fun e => e.chan == g % 16 && e.line == line)).foldl (fun s e => s.wcbForce m e) s0
  if ws.isEmpty then s1
  else s1.wcbForce m (ws.foldl (fun e w => e.merge w.bytes w.writer) (s1.newEntry g line))

/-- A full 32-byte word is written to a channel: directly, or, when its line is buffered, into the buffer (R284, R285). -/
def State.chanWriteWord (s : State) (g off : Nat) (bs : List Byte) : State :=
  if s.lineHeld (g / 16) (g % 16) (off / 64) then
    s.wcbPut g (off / 64) (((bs.take 32).zipIdx).map (fun x => (off / 32 * 32 % 64 + x.2, some x.1))) none
  else s.hbmWriteDirect g off bs

/-! ### Accesses of the device's own units -/

/-- What a unit's read of a 32-byte word meets: its bytes, a flag for poison or an uncorrectable error, and whether it
completed UNAVAILABLE. -/
structure UnitWord where
  bytes : List Byte
  bad : Bool
  unavail : Bool
  deriving DecidableEq, Repr

/-- A domain that a memory access needs is not ON: the controller of global channel `g` (DEDUCED, log entry 15). -/
def State.chanServed (s : State) (g : Nat) : Bool := s.domOn (43 + g / 16)

/-- DEGRADED.0x206 with a device address (R274, Table 18-5). -/
def State.addrInvalid (s : State) (a : Nat) (req : Nat := 0) : State := s.report 1 0x206 (uStack 0) [(48, a), (16, req)]

/-- Whether a word's check state flags its reader. -/
def EccState.bad (e : EccState) : Bool := e == .uncorrectable || e == .poisoned

/-- The offsets of the 64-bit core-store words that `n` bytes from an offset touch. -/
def storeWords (off n : Nat) : List Nat :=
  (List.range ((off + n + 7) / 8 - off / 8)).map (fun i => (off / 8 + i) * 8)

/-- `n` bytes of a core store as a read by `who` meets them (R64): CORRECTED.0x023 for each word corrected,
DEGRADED.0x024 once for the request, with the first bad word; the Bool flags the requester. -/
def State.storeMeet (s : State) (c off n who : Nat) : State × Bool :=
  let ws := storeWords off n
  let s1 := (ws.filter (fun w => s.eccAt (storeKey c w) == .correctable)).foldl (fun s w =>
    (s.addF (Reg.CC_TALLY c 14) 1).report 0 0x023 (uCore c) [(22, w)]) s
  match ws.find? (fun w => (s.eccAt (storeKey c w)).bad) with
  | none => (s1, false)
  | some w => (s1.report 1 0x024 (uCore c) [(22, w), (16, who)], true)

/-- Bytes of a core store written (R64): a partly covered word that is bad becomes poisoned and its writer receives
DEGRADED; a wholly covered word is clean again. `seen` is what the check of the partly covered words finds beside their stored state. -/
def State.storePut (s : State) (c off who : Nat) (bs : List Byte) (seen : EccSeen := .clean) : State × Bool :=
  let n := bs.length
  let ws := storeWords off n
  let full := fun (w : Nat) => decide (off ≤ w ∧ w + 8 ≤ off + n)
  let badW := ws.filter (fun w => !full w && (metState (s.eccAt (storeKey c w)) seen).bad)
  let s1 := ws.foldl (fun s w =>
    if full w then s.setEccAt (storeKey c w) .clean
    else match metState (s.eccAt (storeKey c w)) seen with
      | .clean => s
      | .correctable =>
        ((s.setEccAt (storeKey c w) .clean).addF (Reg.CC_TALLY c 14) 1).report 0 0x023 (uCore c) [(22, w)]
      | _ => s.setEccAt (storeKey c w) .poisoned) (s.wrBytes (storeKey c off) bs)
  match badW with
  | [] => (s1, false)
  | w :: _ => (s1.report 1 0x024 (uCore c) [(22, w), (16, who)], true)

/-- ADDRESS_UNAVAILABLE for an access of a unit (R62): DEGRADED.0x029. -/
def State.unitAbsent (s : State) (c a : Nat) : State := s.report 1 0x029 (uCore c) [(43, a / 32), (16, s.dom c)]

/-- A unit's write to a core in RETAIN is held until the core next enters ON, or fails after 1 ms (R62). -/
def State.unitHold (s : State) (c a : Nat) (bs : List Byte) : State :=
  let id := s.nextReq
  let s1 := (s.putReq id { left := 1, dest := .nowhere }).setNextReq (id + 1)
  s1.setHeld (s1.held ++ [{ id := id, unit := c, addr := a / 32 * 32, len := 32, pos := 0, data := some (bs.take 32), req := 0,
                            due := s1.now + 1000000 }])

/-- A unit's read of a core in RETAIN waits until the core next enters ON, or fails after 1 ms; which of the two, and when, lies beyond
the command: a free value, and the waiting takes no time of its own (R62; DESIGN CHOICE, log entry 108). The Bool says that the core
answers. -/
def State.unitWait (s : State) (c : Nat) : State × Bool :=
  if s.dom c = 1 then (s.freeNext, s.freeVal.toNat % 2 == 0) else (s, s.domHolds c)

/-- Four entries of a carry buffer as a read by `who` meets them (R64): CORRECTED.0x027 for each corrected, DEGRADED.0x028 once for
the request; the Bool flags the requester. -/
def State.carryMeet4 (s : State) (c e who : Nat) : State × Bool :=
  let ent := fun (i : Nat) => SMap.get (fun _ => ({} : CarryEntry)) s.carry (c * 32768 + i)
  let es := (List.range 4).map (fun i => e / 4 * 4 + i)
  let s1 := (es.filter (fun i => (ent i).ecc == .correctable)).foldl (fun s i =>
    (s.addF (Reg.CC_TALLY c 14) 1).report 0 0x027 (uCore c) [(22, i)]) s
  match es.find? (fun i => (ent i).ecc.bad) with
  | none => (s1, false)
  | some i => (s1.report 1 0x028 (uCore c) [(22, i), (16, who)], true)

/-- A unit reads the 32-byte word of a device address (R62, R274, R286, R288, R289, R292). It meets what is stored; errors that are new
come with the commands that carry what a check finds (DESIGN CHOICE, log entry 118). -/
def State.unitRead (s : State) (a req : Nat) : State × UnitWord :=
  let zero := List.replicate 32 (0#8)
  match s.place a with
  | .hbm g off =>
    if !s.chanServed g then (s.addrInvalid a req, ⟨zero, true, true⟩)
    else if s.chanLost g then (s, ⟨zero, true, true⟩)
    else
      let s1 := s.wcbDrainLine g (off / 64)
      let r := s1.hbmReadStored g off req .clean
      let s2 := if r.2.poisoned then r.1.report 1 0x205 (uChan g) [(30, off / 32 * 32), (16, req)] else r.1
      (s2, ⟨r.2.bytes, r.2.flagged, false⟩)
  | .host off => (s, ⟨s.rdBytes (hostKey (off / 32 * 32)) 32, false, false⟩)
  | .store c off =>
    let w := s.unitWait c
    if w.2 then
      let r := w.1.storeMeet c (off / 32 * 32) 32 req
      (r.1, ⟨s.rdBytes (storeKey c (off / 32 * 32)) 32, r.2, false⟩)
    else (w.1.unitAbsent c a, ⟨zero, true, true⟩)
  | .carry c e _ =>
    let w := s.unitWait c
    if w.2 then
      let r := w.1.carryMeet4 c e req
      let es := (List.range 4).map (fun i => SMap.get (fun _ => ({} : CarryEntry)) s.carry (c * 32768 + e / 4 * 4 + i))
      (r.1, ⟨es.flatMap (fun x => leBytes 8 (x.value.signExtend 64).toNat), r.2, false⟩)
    else (w.1.unitAbsent c a, ⟨zero, true, true⟩)
  | .unusedCore c => (s.unitAbsent c a, ⟨zero, true, true⟩)
  | _ => (s.addrInvalid a req, ⟨zero, true, true⟩)

/-- The bytes of a stored word under those that the write-combining buffer holds for it, oldest entry first, and then those that
wait for it (R286). -/
def State.wcbOver (s : State) (g off : Nat) (bs : List Byte) : List Byte :=
  let es := ((s.wcbOf (g / 16)).filter (fun e => e.chan == g % 16 && e.line == off / 64)).map WcbEntry.bytes ++
    ((s.wcbWaits (g / 16)).filter (fun w => w.chan == g % 16 && w.line == off / 64)).map WcbWait.bytes
  es.foldl (fun bs e => bs.zipIdx.map (fun x => (SMap.get (fun _ => none) e (off / 32 * 32 % 64 + x.2)).getD x.1)) bs

/-- A word as it stands, looked at without a request: the test read of R174, which raises no record, and the bytes of a request
already made. Answers its bytes and whether it is bad. -/
def State.unitPeek (s : State) (a : Nat) : List Byte × Bool :=
  match s.place a with
  | .hbm g off =>
    if s.chanLost g || !s.chanServed g then (List.replicate 32 (0#8), true)
    else
      let k := hbmKey g (off / 32 * 32)
      (s.wcbOver g off (s.rdBytes k 32), s.eccAt k == .uncorrectable || s.eccAt k == .poisoned)
  | .host off => (s.rdBytes (hostKey (off / 32 * 32)) 32, false)
  | .store c off =>
    (s.rdBytes (storeKey c (off / 32 * 32)) 32,
      !s.domHolds c || (storeWords (off / 32 * 32) 32).any (fun w => (s.eccAt (storeKey c w)).bad))
  | _ => (List.replicate 32 (0#8), true)

/-- A unit writes a whole 32-byte word; the Bool says that it completed UNAVAILABLE (R62, R274, R284, R292). -/
def State.unitWrite (s : State) (a : Nat) (bs : List Byte) : State × Bool :=
  match s.place a with
  | .hbm g off =>
    if !s.chanServed g then (s.addrInvalid a, true)
    else if s.chanLost g then (s, true)
    else (s.chanWriteWord g off bs, false)
  | .host off => (s.hostPut (off / 32 * 32) (bs.take 32), false)
  | .store c off =>
    if s.dom c = 1 then (s.unitHold c a bs, false)
    else if s.domHolds c then
      let r := s.storePut c (off / 32 * 32) 0 (bs.take 32)
      (r.1, false)
    else (s.unitAbsent c a, true)
  | .carry c e _ =>
    if s.dom c = 1 then (s.unitHold c a bs, false)
    else if s.domHolds c then
      (s.setCarry ((List.range 4).foldl (fun m i => SMap.put (fun _ => ({} : CarryEntry)) m (c * 32768 + e / 4 * 4 + i)
        { SMap.get (fun _ => ({} : CarryEntry)) m (c * 32768 + e / 4 * 4 + i) with
          value := BitVec.ofNat 48 (fieldLe bs (8 * i) 6), ecc := .clean }) s.carry), false)
    else (s.unitAbsent c a, true)
  | .unusedCore c => (s.unitAbsent c a, true)
  | _ => (s.addrInvalid a, true)

/-- Read `n` whole words from a 32-byte aligned address; bad or unavailable when any word is. -/
def State.unitReadN : Nat → State → Nat → Nat → State × UnitWord
  | 0, s, _, _ => (s, ⟨[], false, false⟩)
  | n + 1, s, a, req =>
    let r := s.unitRead a req
    let q := State.unitReadN n r.1 (a + 32) req
    (q.1, ⟨r.2.bytes ++ q.2.bytes, r.2.bad || q.2.bad, r.2.unavail || q.2.unavail⟩)

/-- Read whole words as their memory answers; the Bools say which of them are poisoned or uncorrectable. -/
def State.unitReadEach : Nat → State → Nat → State × List Byte × List Bool
  | 0, s, _ => (s, [], [])
  | n + 1, s, a =>
    let r := s.unitRead a 0
    let q := State.unitReadEach n r.1 (a + 32)
    (q.1, r.2.bytes ++ q.2.1, r.2.bad :: q.2.2)

/-- Write whole words from a 32-byte aligned address; the Bool says that some write completed UNAVAILABLE. -/
def State.unitWriteN : Nat → State → Nat → List Byte → State × Bool
  | 0, s, _, _ => (s, false)
  | n + 1, s, a, bs =>
    let r := s.unitWrite a (sliceB bs 0 32)
    let q := State.unitWriteN n r.1 (a + 32) (bs.drop 32)
    (q.1, r.2 || q.2)

/-- Whether [a, a + n) lies wholly in committed HBM, or in host-core memory (R374, R468). -/
def State.rangeOk (s : State) (a n : Nat) (hostToo : Bool) : Bool :=
  let cap := s.activeChans.length * 0x40000000
  (s.committed && decide (a + n ≤ cap)) ||
  (s.committed && decide (0x1000000000 ≤ a) && decide (a + n ≤ 0x2000000000) &&
    (List.range 64).all (fun g => s.activeChans.contains g ||
      decide (a + n ≤ 0x1000000000 + g * 0x40000000) || decide (0x1000000000 + (g + 1) * 0x40000000 ≤ a))) ||
  (hostToo && decide (0x3000000000 ≤ a) && decide (a + n ≤ 0x3002000000))

end Sys2Proof.Machine
end

