-- ==== Sys2Proof/Machine/Scale.lean ====
section
/-!
DEFINITION. Codes, scales and rescaling (spec/06_quantisation_and_rescaling.md R154 to R178): the scale a range gives,
the quantiser, the rescale unit with its fused epilogue, and the scale records in HBM.
-/

namespace Sys2Proof

/-! ### Scales (R157 to R160) -/

/-- 2^-24 in FP32. -/
def tinyScale : Nat := 103 * 2 ^ 23

/-- A scale, its zero point and whether the range was collapsed. -/
structure ScaleSZ where
  s : Nat
  z : Nat
  collapsed : Bool
  deriving DecidableEq, Repr

/-- Clamp an integer into a range. -/
def clampI (lo hi x : Int) : Int := if x < lo then lo else if x > hi then hi else x

/-- The zero point of R158 for uint8 codes, from lo and a positive finite s. -/
def zeroPoint (lo s : Nat) : Nat :=
  match Fp.decode Fmt.fp32 lo with
  | .inf true => 255
  | .inf false => 0
  | .nan => 0
  | .fin neg m => (clampI 0 255 (-((Fp.val neg m).div (Fmt.fp32.valOf s)).rne)).toNat

/-- S, Z and COLLAPSED of uint8 codes from lo and hi (R158); a NaN limit is read as 0. -/
def deriveScale (lo hi : Nat) : ScaleSZ :=
  let lo := if Fmt.fp32.isNan lo then 0 else lo
  let hi := if Fmt.fp32.isNan hi then 0 else hi
  let d0 := Fmt.fp32.sub hi lo
  if Fmt.fp32.isNan d0 then
    let o := Config.oddScale lo hi
    ⟨o.1.toNat, o.2.toNat, false⟩
  else
    let d := if Fmt.fp32.isFin d0 then d0 else Fmt.fp32.maxFin false
    if d % 2 ^ 31 < 2 ^ 23 then ⟨tinyScale, 0, true⟩
    else
      let s0 := Fmt.fp32.div d (Fmt.fp32.ofInt 255)
      let s := if Fmt.fp32.lt s0 tinyScale then tinyScale else s0
      ⟨s, zeroPoint lo s, false⟩

/-- A code and whether a range clamp is counted (R154, R155), for limits lo and hi. -/
def toCode (v : Rat2) (z lo hi : Int) : Nat × Bool :=
  let u := v.rne + z
  ((clampI lo hi u).toNat, decide (u < 0 ∨ u > 255))

/-- The quotient of a value and a scale; a scale that is not a positive finite number gives a free value (DESIGN CHOICE, log entry
17). -/
def quantQuot (v : Rat2) (x s : Nat) : Rat2 :=
  if Fmt.fp32.isFin s && s % 2 ^ 31 != 0 then v.div (Fmt.fp32.valOf s)
  else let o := Config.oddRatio x s; ⟨o.1, o.2 + 1⟩

/-- The quantiser of R160: the code of an FP32 value, and whether a range clamp is counted. -/
def quantise (x s z : Nat) : Nat × Bool :=
  match Fp.decode Fmt.fp32 x with
  | .nan => (z, false)
  | .inf neg => (if neg then 0 else 255, true)
  | .fin neg m => toCode (quantQuot (Fp.val neg m) x s) z 0 255

/-- The running range of a first pass or an observation: lo and hi as FP32 bits, non-finite values left out (R157). -/
def rangeTake (r : Nat × Nat) (x : Nat) : Nat × Nat :=
  if Fmt.fp32.isFin x then
    (if Fmt.fp32.lt x r.1 then x else r.1, if Fmt.fp32.lt r.2 x then x else r.2)
  else r

/-! ### Ratios (R164) -/

/-- A positive-scale quotient as an exact rational; operands the rule does not state give a free value. -/
def scaleQuot (a b : Nat) : Rat2 :=
  if Fmt.fp32.isFin a && Fmt.fp32.isFin b && b % 2 ^ 31 != 0 then (Fmt.fp32.valOf a).div (Fmt.fp32.valOf b)
  else let o := Config.oddRatio a b; ⟨o.1, o.2 + 1⟩

/-- The value of a scale; one that is not finite has a free value. -/
def scaleVal (a : Nat) : Rat2 :=
  if Fmt.fp32.isFin a then Fmt.fp32.valOf a else let o := Config.oddRatio a 0; ⟨o.1, o.2 + 1⟩

/-- The FP32 ratio of two scales as an exact rational (R164, R170): one rounding, overflow to the largest finite. -/
def frameRatio (a b : Nat) : Rat2 :=
  if Fmt.fp32.isFin a && Fmt.fp32.isFin b && b % 2 ^ 31 != 0 then
    Fmt.fp32.valOf (Fmt.fp32.capFin (Fmt.fp32.div a b))
  else let o := Config.oddRatio a b; ⟨o.1, o.2 + 1⟩

/-! ### Descriptors (Tables 6-3 and 6-4) -/

/-- A stage rescale descriptor. -/
structure RescDesc where
  layer : Bool
  /-- 0 U8_STREAM, 1 U8_FIXED, 2 WIDE, 3 RAW -/
  out : Nat
  /-- 0 NONE, 1 ADD, 2 MUL -/
  epi : Nat
  adaptA : Nat
  outT : Nat
  inT : Nat
  epiT : Nat
  cap : Nat
  sFixed : Nat
  deriving DecidableEq, Repr

/-- The descriptor held in two words. -/
def RescDesc.ofWords (w0 w1 : Nat) : RescDesc :=
  { layer := bit1 w0 0, out := bits w0 1 2, epi := bits w0 3 2, adaptA := bits w0 5 4, outT := bits w0 16 12,
    inT := bits w0 28 12, epiT := bits w0 40 12, cap := bits w1 0 32, sFixed := bits w1 32 32 }

/-- A rescale entry. -/
structure RescEntry where
  m : Nat
  shift : Nat
  zp : Nat
  lo : Nat
  hi : Nat
  /-- 0 NONE, 1 RELU, 2 RELU_CAP -/
  act : Nat
  deriving DecidableEq, Repr

/-- The entry held in a word. -/
def RescEntry.ofWord (w : Nat) : RescEntry :=
  { m := bits w 0 31, shift := bits w 31 6, zp := bits w 37 8, lo := bits w 45 8, hi := bits w 53 8, act := bits w 61 2 }

/-- What the rescale unit gives: the code or the 32-bit datum, whether a range clamp is counted, and v (R175). -/
structure RescOut where
  q : Nat
  clamp : Bool
  v : Option Rat2
  deriving DecidableEq, Repr

/-- The scales and the epilogue operand that a rescale uses: s_in, s_out and z_out of the frame's bank, the pass's
Retally step, and the code b with its scale and zero point. -/
structure RescCtx where
  sIn : Nat
  sOut : Nat
  zOut : Nat
  r : Nat
  b : Nat
  sB : Nat
  zB : Nat
  deriving DecidableEq, Repr

/-- T · M · 2^(r − n) (R167, R169). -/
def scaledTotal (t : Int) (e : RescEntry) (r : Nat) : Rat2 :=
  (Rat2.ofInt (t * e.m)).shl ((r : Int) - e.shift)

/-- The value v of R167 and R170 for U8 outputs. -/
def rescaleV (t : Int) (e : RescEntry) (d : RescDesc) (c : RescCtx) : Rat2 :=
  let v := (scaledTotal t e c.r).mul (frameRatio c.sIn c.sOut)
  let b : Int := (c.b : Int) - c.zB
  if d.epi = 1 then
    let u1 := (v.shl 16).rne
    let u2 := (((Rat2.ofInt b).mul (frameRatio c.sB c.sOut)).shl 16).rne
    (Rat2.ofInt (u1 + u2)).shl (-16)
  else if d.epi = 2 then
    let p := Fmt.fp32.capFin (Fmt.fp32.mul c.sIn c.sB)
    ((scaledTotal t e c.r).mul (Rat2.ofInt b)).mul (frameRatio p c.sOut)
  else v

/-- The rescale unit (R167 to R170). -/
def rescale (t : Int) (e : RescEntry) (d : RescDesc) (c : RescCtx) : RescOut :=
  if d.out = 3 then ⟨uint 32 t, false, none⟩
  else if d.out = 2 then
    let b : Int := (c.b : Int) - c.zB
    let x := (scaledTotal t e c.r).mul (scaleVal c.sIn)
    let y := if d.epi = 1 then x.add ((Rat2.ofInt b).mul (scaleVal c.sB))
      else if d.epi = 2 then (x.mul (Rat2.ofInt b)).mul (scaleVal c.sB) else x
    ⟨y.toFmt Fmt.fp32, false, none⟩
  else
    let v := rescaleV t e d c
    let z : Int := if d.out = 0 then c.zOut else e.zp
    let lo : Int := if e.act = 0 then e.lo else z
    let hi : Int := if e.act = 0 then e.hi
      else if e.act = 2 then min 255 (z + (scaleQuot d.cap c.sOut).rne) else 255
    let q := toCode v z lo hi
    ⟨q.1, q.2, some v⟩

/-- The observed real value of v (R175), as FP32 bits. -/
def observed (v : Rat2) (e : RescEntry) (d : RescDesc) (sOut : Nat) : Nat :=
  let x0 := Fmt.fp32.capFin (v.toFmt Fmt.fp32)
  let x := Fmt.fp32.capFin (Fmt.fp32.mul x0 sOut)
  let x1 := if e.act ≠ 0 ∧ Fmt.fp32.lt x 0 then 0 else x
  if e.act = 2 ∧ Fmt.fp32.lt d.cap x1 then d.cap else x1

/-! ### Scale records (Table 6-6, R176, R177) -/

/-- A scale record. -/
structure ScaleRec where
  runLo : Nat
  runHi : Nat
  s : Nat
  z : Nat
  collapsed : Bool
  seq : Nat
  obsLo : Nat
  obsHi : Nat
  deriving DecidableEq, Repr

/-- The record read from its 32 bytes. -/
def ScaleRec.ofBytes (bs : List Byte) : ScaleRec :=
  { runLo := fieldLe bs 0 4, runHi := fieldLe bs 4 4, s := fieldLe bs 8 4, z := fieldLe bs 12 1,
    collapsed := bit1 (fieldLe bs 13 1) 0, seq := fieldLe bs 14 2, obsLo := fieldLe bs 16 4, obsHi := fieldLe bs 20 4 }

/-- The record's 32 bytes, reserved bytes 0. -/
def ScaleRec.bytes (r : ScaleRec) : List Byte :=
  leBytes 4 r.runLo ++ leBytes 4 r.runHi ++ leBytes 4 r.s ++ leBytes 1 r.z ++ leBytes 1 (b2n r.collapsed) ++
  leBytes 2 r.seq ++ leBytes 4 r.obsLo ++ leBytes 4 r.obsHi ++ leBytes 8 0

/-- A record with S, Z and COLLAPSED derived from its limits (R158). -/
def ScaleRec.make (lo hi seq obsLo obsHi : Nat) : ScaleRec :=
  let d := deriveScale lo hi
  { runLo := lo, runHi := hi, s := d.s, z := d.z, collapsed := d.collapsed, seq := seq, obsLo := obsLo, obsHi := obsHi }

/-- One limit of a fold: RUN + (OBS − RUN) · 2^-a, each step rounded once; a limit that is not finite takes OBS
(R176). -/
def foldLimit (run obs a : Nat) : Nat :=
  if Fmt.fp32.isFin run then
    let d := Fmt.fp32.sub obs run
    match Fp.decode Fmt.fp32 d with
    | .fin neg m =>
      let y := ((Fp.val neg m).shl (-(a : Int))).add (Fmt.fp32.valOf run)
      y.toFmt Fmt.fp32
    | _ => d
  else obs

/-- The fold of a frame's observation (R176). -/
def ScaleRec.fold (r : ScaleRec) (obs : Nat × Nat) (a seq : Nat) : ScaleRec :=
  ScaleRec.make (foldLimit r.runLo obs.1 a) (foldLimit r.runHi obs.2 a) (seq % 2 ^ 16) obs.1 obs.2

/-- The rewrite for a VOID frame (R177). -/
def ScaleRec.keep (r : ScaleRec) (seq : Nat) : ScaleRec := { r with seq := seq % 2 ^ 16, obsLo := 0, obsHi := 0 }

namespace Machine

/-- The running-scale tensors of a pipeline in record order, with their number t (R172, R326). -/
def Pipe.running (p : Pipe) : List TensorRec := p.tensors.filter (fun t => t.kind == 0)

/-- The address of record `t` of stream `m` (R172). -/
def Pipe.recAddr (p : Pipe) (m t : Nat) : Nat := p.tbase + (m * p.running.length + t) * 32

/-- Write every record of a stream to its initial state (R173); the Bool says that a write completed UNAVAILABLE. -/
def State.initRecords (p : Pipe) (m : Nat) (s : State) : State × Bool :=
  p.running.zipIdx.foldl (fun (acc : State × Bool) tr =>
    let w := acc.1.unitWrite (p.recAddr m tr.2) (ScaleRec.make tr.1.initLo.toNat tr.1.initHi.toNat 0xFFFF 0 0).bytes
    (w.1, acc.2 || w.2)) (s, false)

/-- Write every record of a stream to its initial state (R173). -/
def State.initScales (p : Pipe) (m : Nat) (s : State) : State := (State.initRecords p m s).1

/-- The SEQ test of R174: the first record of the stream found behind, with its tensor and the SEQ found. A record that
cannot be read counts as met. -/
def State.scaleBehind (s : State) (p : Pipe) (m j : Nat) : Option (Nat × Nat) :=
  p.running.zipIdx.findSome? (fun tr =>
    let w := s.unitPeek (p.recAddr m tr.2)
    let seq := (ScaleRec.ofBytes w.1).seq
    if w.2 || seq == (j + 65535) % 65536 then none else some (tr.1.idx, seq))

/-- Rewrite a stream's records for a VOID or not admitted frame (R177, R388). A record that cannot be read is left as
found and reported (R176). -/
def State.keepScale (p : Pipe) (m j t tensor : Nat) (s : State) (frame : Option (Nat × Nat)) (pipe : Nat) : State :=
  let r := s.unitRead (p.recAddr m t) 0
  if r.2.bad || r.2.unavail then
    r.1.raise { cls := 1, code := 0x109, unit := uSol, time := r.1.now, frame := frame, pipe := some pipe,
                detail := packDetail [(12, tensor), (43, p.recAddr m t / 32)] }
  else (r.1.unitWrite (p.recAddr m t) ((ScaleRec.ofBytes r.2.bytes).keep j).bytes).1

end Machine
end Sys2Proof
end

