-- ==== Sys2Proof/Machine/Pipeline.lean ====
section
/-!
DEFINITION. Access to the records of pipelines, streams, cores, tiles and threads, the states of beat machines and
streams (R50, R376), and what the loss of a unit does (R88, R89, R235, R479).
-/

namespace Sys2Proof

/-- The rescale descriptor of a stem or tail. -/
def ConvConf.desc (k : ConvConf) : RescDesc := RescDesc.ofWords k.rsc0.toNat k.rsc1.toNat

namespace Machine

/-! ### Records by number -/

def State.pipe (s : State) (p : Nat) : Pipe := SMap.get (fun _ => {}) s.pipes p
def State.putPipe (s : State) (p : Nat) (v : Pipe) : State := s.setPipes (SMap.put (fun _ => {}) s.pipes p v)
def State.onPipe (s : State) (p : Nat) (f : Pipe → Pipe) : State := s.putPipe p (f (s.pipe p))
def State.beat (s : State) (n : Nat) : BeatM := SMap.get (fun _ => {}) s.bm n
def State.putBeat (s : State) (n : Nat) (v : BeatM) : State := s.setBm (SMap.put (fun _ => {}) s.bm n v)
def State.onBeat (s : State) (n : Nat) (f : BeatM → BeatM) : State := s.putBeat n (f (s.beat n))
def State.strm (s : State) (m : Nat) : Stream := SMap.get (fun _ => {}) s.streams m
def State.putStrm (s : State) (m : Nat) (v : Stream) : State := s.setStreams (SMap.put (fun _ => {}) s.streams m v)
def State.onStrm (s : State) (m : Nat) (f : Stream → Stream) : State := s.putStrm m (f (s.strm m))
def State.core (s : State) (c : Nat) : CoreSt := SMap.get (fun _ => {}) s.cores c
def State.putCore (s : State) (c : Nat) (v : CoreSt) : State := s.setCores (SMap.put (fun _ => {}) s.cores c v)
def State.onCore (s : State) (c : Nat) (f : CoreSt → CoreSt) : State := s.putCore c (f (s.core c))
def State.tile (s : State) (c t : Nat) : Tile := SMap.get (fun _ => {}) s.tiles (c * 256 + t)
def State.putTile (s : State) (c t : Nat) (v : Tile) : State := s.setTiles (SMap.put (fun _ => {}) s.tiles (c * 256 + t) v)
def State.onTile (s : State) (c t : Nat) (f : Tile → Tile) : State := s.putTile c t (f (s.tile c t))
def State.seqr (s : State) (c q : Nat) : SeqSt := SMap.get (fun _ => {}) s.seqs (c * 8 + q)
def State.putSeqr (s : State) (c q : Nat) (v : SeqSt) : State := s.setSeqs (SMap.put (fun _ => {}) s.seqs (c * 8 + q) v)
def State.thr (s : State) (c j : Nat) : VThread := SMap.get (fun _ => {}) s.threads (c * 16 + j)
def State.putThr (s : State) (c j : Nat) (v : VThread) : State :=
  s.setThreads (SMap.put (fun _ => {}) s.threads (c * 16 + j) v)
def State.onThr (s : State) (c j : Nat) (f : VThread → VThread) : State := s.putThr c j (f (s.thr c j))
def State.port (s : State) (p : Nat) : EthPort := SMap.get (fun _ => {}) s.eth p
def State.putPort (s : State) (p : Nat) (v : EthPort) : State := s.setEth (SMap.put (fun _ => {}) s.eth p v)

/-! ### Who holds what -/

/-- One Quosk link beside its registers. -/
def State.qlink (s : State) (l : Nat) : QLink := SMap.get (fun _ => {}) s.qsk.links l
def State.onLink (s : State) (l : Nat) (f : QLink → QLink) : State :=
  s.setQsk { s.qsk with links := SMap.put (fun _ => {}) s.qsk.links l (f (s.qlink l)) }
/-- A link is UP (Table 22-9). -/
def State.linkUp (s : State) (l : Nat) : Bool := s.getF (Reg.QSK_L_STAT_PHASE l) == 5
/-- The pending instant of a link's slot-frame port at an Almanac instant: the one it holds, or, where none is held or the
Almanac has been carried past it, the first multiple of 128 ns from then on (R57, R404). -/
def QLink.sfPending (x : QLink) (now : Nat) : Nat :=
  match x.sfNext with
  | some t => if now ≤ t then t else ceilDiv now 128 * 128
  | none => ceilDiv now 128 * 128

/-- WVL_PIPEn.STATE is LOADED (R329). -/
def State.loaded (s : State) (p : Nat) : Bool := s.getF (Reg.WVL_PIPE_STATE p) == 2

/-- WVL_PIPEn.STATE is not EMPTY. -/
def State.resident (s : State) (n : Nat) : Bool := s.getF (Reg.WVL_PIPE_STATE n) != 0

/-- The physical cores of a pipeline (R330), from the claim of its load on (R337). -/
def State.coresOf (s : State) (p : Nat) : List Nat := (s.pipe p).place

/-- The loaded or failed pipeline that a core is placed in. -/
def State.coreOwner (s : State) (c : Nat) : Option Nat := (List.range 4).find? (fun p => (s.coresOf p).contains c)

/-- The streams bound to a pipeline (R376). -/
def State.boundTo (s : State) (p : Nat) : List Nat :=
  (List.range 64).filter (fun m => s.getF (Reg.ING_STR_STATE m) != 0 && s.getF (Reg.ING_STR_CFG_PIPE m) == p)

/-- The frame of a pipeline that holds a frame-in-flight number. -/
def Pipe.frame (p : Pipe) (fif : Nat) : Option Frame := p.frames.find? (fun f => f.admitted && f.fif == fif)

/-- Change the frame that holds a number. -/
def Pipe.onFrame (p : Pipe) (fif : Nat) (g : Frame → Frame) : Pipe :=
  { p with frames := p.frames.map (fun f => if f.admitted && f.fif == fif then g f else f) }

/-- Change a frame of a pipeline. -/
def State.onFrame (s : State) (p fif : Nat) (g : Frame → Frame) : State := s.onPipe p (fun q => q.onFrame fif g)

/-- Make a frame VOID; the first record, by time, names the reason, and the times of the others are kept (R393, R476, R478). -/
def Frame.kill (f : Frame) (reason time : Nat) : Frame :=
  match f.void with
  | some (r, t) =>
    if time < t then { f with void := some (reason, time), moreVoids := t :: f.moreVoids }
    else { f with void := some (r, t), moreVoids := time :: f.moreVoids }
  | none => { f with void := some (reason, time) }

/-- A unit that the frame still needs is lost (R89). -/
def Frame.lose (f : Frame) (time : Nat) : Frame := { f.kill 2 time with lostUnit := true }

/-- Make the frame of a tag VOID. -/
def State.voidFrame (s : State) (p fif reason : Nat) : State := s.onFrame p fif (fun f => f.kill reason s.now)

/-- The frame named by FLAGS.FRAME of a record about a frame-in-flight number. -/
def State.frameId (s : State) (p fif : Nat) : Option (Nat × Nat) :=
  ((s.pipe p).frame fif).map (fun f => (f.stream, f.frameNo))

/-- A record about an admitted frame (R465). -/
def State.reportF (s : State) (cls code unit p fif : Nat) (detail : List (Nat × Nat)) : State :=
  s.raise { cls := cls, code := code, unit := unit, time := s.now, frame := s.frameId p fif, pipe := some p,
            fif := if ((s.pipe p).frame fif).isSome then some fif else none, detail := packDetail detail }

/-! ### States of beat machines and streams -/

/-- ALM_BMn_STAT.STATE: 0 IDLE, 1 ARMED, 2 ON_GRID, 3 LAGGING, 4 HALTED, 5 STOPPING. -/
def State.bmState (s : State) (n : Nat) : Nat := s.getF (Reg.ALM_BM_STAT_STATE n)

/-- Set a stream's STATE; every change sets its bit of ING_STATE_IRQ and raises source 65 (R376). -/
def State.setStrState (s : State) (m v : Nat) : State :=
  if s.getF (Reg.ING_STR_STATE m) = v then s
  else
    let s1 := s.setF (Reg.ING_STR_STATE m) v
    (s1.setF Reg.ING_STATE_IRQ (s1.getF Reg.ING_STATE_IRQ ||| 2 ^ m)).irqSource 65

/-- STATE of a bound stream under a beat-machine state (R376). -/
def strStateOf (bm : Nat) : Nat := if bm = 0 then 1 else if bm = 4 then 3 else 2

/-- Move a beat machine to a state, with the STATE of every bound stream (R376). -/
def State.setBmState (s : State) (n v : Nat) : State :=
  (s.boundTo n).foldl (fun s m => s.setStrState m (strStateOf v)) (s.setF (Reg.ALM_BM_STAT_STATE n) v)

/-- Close an open LAG_LIMIT excursion with CORRECTED.0xA11 (R53). -/
def State.closeExcursion (s : State) (n : Nat) (frame : Option (Nat × Nat)) : State :=
  if s.flag (Reg.ALM_BM_STAT_EXCURSION n) then
    let s1 := s.setF (Reg.ALM_BM_STAT_EXCURSION n) 0
    (s1.raise { cls := 0, code := 0xA11, unit := uBeat n, time := s1.now, frame := frame,
                pipe := frame.map (fun _ => n), detail := packDetail [(48, (s1.beat n).maxLag)] }).onBeat n
      (fun b => { b with maxLag := 0 })
  else s

/-- A finished frame still runs its last section (R80). After a loss no section is waited for: a stop then needs only the records
(R50). -/
def Pipe.sectOpen (p : Pipe) : Bool := !p.halted && p.past.any (fun f => f.inSect)

/-- A beat machine enters IDLE (R50, R53). -/
def State.enterIdle (s : State) (n : Nat) : State :=
  ((s.setBmState n 0).closeExcursion n none).onBeat n (fun b => { b with idleAt := s.now })

/-- No frame in flight: every admitted frame has its record (R50). -/
def Pipe.quiet (p : Pipe) : Bool := p.frames.all (fun f => !f.admitted)

/-- A stopping machine enters IDLE once no frame is in flight and the last of them has finished its last section (R50, R80). -/
def State.settleStop (s : State) (n : Nat) : State :=
  if s.bmState n = 5 ∧ (s.pipe n).quiet ∧ (s.pipe n).sectOpen = false then s.enterIdle n else s

/-- The pipeline stops admitting: its beat machine enters HALTED (R50, R89). -/
def State.halt (s : State) (n : Nat) : State :=
  let s1 := s.onPipe n (fun p => { p with halted := true })
  if s.bmState n = 1 ∨ s.bmState n = 2 ∨ s.bmState n = 3 then s1.setBmState n 4 else s1

/-! ### Parts of a spread pipeline (R411, R414) -/

/-- Send a CONTROL notice to a device (Table 15-4): 0 HELLO, 1 BIND, 2 BEAT, 3 STATUS, 4 RETALLY, 5 LOSS. -/
def State.notice (s : State) (d kind : Nat) (fields : List Nat) : State := s.emit (.notice d kind fields)

/-- This device holds a follower part of pipeline `p`. -/
def State.isFollower (s : State) (p : Nat) : Bool := (s.pipe p).quosk && !s.flag (Reg.QSK_PART_IS_HEAD p)

/-- A fault record of the frame, a record of an instant that made it VOID, or an open summary waits to become visible
(R476). -/
def State.recordHeld (s : State) (f : Frame) : Bool :=
  s.flt.pend.any (fun r => r.summary.isSome || r.frame == some (f.stream, f.frameNo) ||
    (r.cls != 0 && (f.void.any (fun v => v.2 == r.time) || f.moreVoids.contains r.time)))

/-- The QUALITY byte of a frame (Table 14-9). -/
def Frame.quality (f : Frame) : Nat :=
  b2n f.saturated + 2 * b2n f.retallied + 4 * b2n (f.lag != 0 || f.peerLagged) + 8 * b2n f.collapsed + 16 * b2n f.poisonSeen

/-- A notice from a follower part to its head, beginning with the head's pipeline number. -/
def State.tellHead (s : State) (p kind : Nat) (fields : List Nat) : State :=
  s.notice (s.getF (Reg.QSK_PART_HEAD_DEV p)) kind (s.getF (Reg.QSK_PART_HEAD_PIPE p) :: fields)

/-- STATUS of a frame (Table 15-4): frame-in-flight, frame number, QUALITY, VOID reason, instant of the first fault
record, completion instant and FOLD_DONE. -/
def State.sendStatus (s : State) (p : Nat) (f : Frame) (folded : Bool) : State :=
  s.tellHead p 3 [f.fif, f.frameNo, f.quality, (f.void.map (fun v => v.1)).getD 0, (f.void.map (fun v => v.2)).getD 0,
    f.completion.getD 0, b2n folded]

/-- Every running tensor of a pipeline has been folded for a frame (R176). -/
def Pipe.foldsDone (p : Pipe) (f : Frame) : Bool :=
  p.tensors.all (fun t => t.kind != 0 || f.folded.contains t.idx)

/-- A frame whose record is written leaves the frames in flight. It is kept beside them while a fold of it (R176, R177) or its
last section (R80) is still to end. -/
def Pipe.retire (p : Pipe) (f : Frame) : Pipe :=
  let g := { f with inSect := decide (2 ≤ p.nsect) && f.completion.isSome }
  { p with frames := p.frames.filter (fun x => x.id != f.id)
           past := if f.admitted && (g.inSect || !p.foldsDone f) then p.past ++ [g] else p.past }

/-- Forget the past frames for which nothing is still to end. -/
def Pipe.sweep (p : Pipe) : Pipe := { p with past := p.past.filter (fun f => f.inSect || !p.foldsDone f) }

/-- A follower sends the LOSS notice that it owes, with the unit's kind and coordinate, once it has sent STATUS for every frame that the
loss made VOID (R414). -/
def State.settleLoss (s : State) (p : Nat) : State :=
  match (s.pipe p).lossDue with
  | some unit =>
    if (s.pipe p).frames.any (fun f => f.lostUnit) then s
    else (s.tellHead p 5 [unit / 2 ^ 28, unit % 2 ^ 28]).onPipe p (fun q => { q with lossDue := none })
  | none => s

/-- A follower sends STATUS for every frame whose outputs have been released, whose folds are written and whose fault
records are visible (R411), and for every frame lost with a unit, once its fault records are visible (R414); it holds them no
longer. -/
def State.settleFollower (s : State) (p : Nat) : State :=
  if s.isFollower p then
    let fin := fun (f : Frame) => ((f.completion.isSome && (s.pipe p).foldsDone f) || f.lostUnit) && !s.recordHeld f
    let done := (s.pipe p).frames.filter fin
    ((done.foldl (fun s f => s.sendStatus p f ((s.pipe p).foldsDone f)) s).onPipe p
      (fun q => { q with frames := q.frames.filter (fun f => !fin f) })).settleLoss p
  else s

/-- Every follower part of the device. -/
def State.settleFollowers (s : State) : State := [0, 1, 2, 3].foldl (fun s p => s.settleFollower p) s

/-- The tag tables, join queues, gateway queues and delay registers of a core are empty (R80, R117). -/
def State.coreEmpty (s : State) (c : Nat) : Bool :=
  s.tiles.all (fun e => e.1 / 256 != c ||
    (e.2.tags.all (fun x => x.2.isNone) && e.2.qs.all (fun x => x.2.isEmpty) && e.2.delay.isNone)) &&
  s.edges.all (fun e => e.1 / 128 != c || e.2.words.isEmpty) && s.gws.all (fun e => e.1 / 64 != c || e.2.words.isEmpty)

/-! ### Loss of a unit (R89, R479) -/

/-- Every frame in flight that has not passed the lost unit becomes VOID with UNIT_LOST, and the machine halts. A
follower part sends STATUS for each such frame once its fault records are visible, then LOSS (R411, R414). -/
def State.losePipe (s : State) (n unit : Nat) (needs : Frame → Bool) : State :=
  let s1 := s.onPipe n (fun p => { p with frames := p.frames.map (fun f =>
    if f.admitted && needs f then f.lose s.now else f) })
  if s.isFollower n then (s1.onPipe n (fun p => { p with lossDue := some unit })).settleFollower n else s1.halt n

/-- The frame has stages of a set still to be released. -/
def Frame.owes (f : Frame) (stages : List Nat) : Bool := stages.any (fun g => !f.stagesDone.contains g)

/-- The stages of a pipeline on a core. -/
def Pipe.stagesOn (p : Pipe) (c : Nat) : List Nat :=
  (p.stages.filter (fun g => g.cores.contains c)).map (fun g => g.stage)

/-- A core is lost with a cause (R88, R89); a core already lost is not lost again. -/
def State.loseCore (s : State) (c cause : Nat) : State :=
  if bit1 (s.getF Reg.MGT_CORE_LOST) c then s
  else
    let s1 := s.setF Reg.MGT_CORE_LOST (s.getF Reg.MGT_CORE_LOST ||| 2 ^ c)
    match s1.coreOwner c with
    | none => s1.report 3 0x021 (uCore c) [(4, cause)]
    | some n =>
      (s1.reportP 3 0x021 (uCore c) n [(4, cause)]).losePipe n (uCore c) (fun f => f.owes ((s1.pipe n).stagesOn c))

/-- A pipeline uses the Solstice engine (R235). -/
def Pipe.usesSol (p : Pipe) : Bool := p.usesStem || p.usesTail || p.usesScale

/-- A frame still needs the Solstice engine: a stage that uses it, or a fold, is not done (R235). -/
def Pipe.needsSol (p : Pipe) (f : Frame) : Bool :=
  f.owes ((p.stages.filter (fun g => g.needsSol)).map (fun g => g.stage)) || p.running.any (fun t => !f.folded.contains t.idx)

/-- The Solstice engine is lost with a cause (R235). -/
def State.loseSol (s : State) (cause : Nat) : State :=
  if s.sol.lost then s
  else
    let s1 := (s.setSol { s.sol with lost := true }).report 3 0x033 uSol [(4, cause)]
    [0, 1, 2, 3].foldl (fun s n =>
      if (s.getF (Reg.WVL_PIPE_STATE n) == 2) && (s.pipe n).usesSol then
        s.losePipe n uSol (fun f => (s.pipe n).needsSol f) else s) s1

/-- A stage thread is lost (R240): UNIT.0x802, and its stage is treated as a lost core's. -/
def State.loseThread (s : State) (c j cause : Nat) : State :=
  let t := s.thr c j
  (s.reportP 3 0x802 (uThread c j) t.pipe [(4, cause)]).losePipe t.pipe (uThread c j) (fun f => f.owes [t.stage])

/-- A frame has still to cross a spine port: some circuit of its pipeline crosses it, and the stages on the cores at the circuit's ends
are not all done. A frame crosses a circuit between two units until it is complete (DESIGN CHOICE, log entry 19). -/
def Pipe.crosses (p : Pipe) (port : Nat) (f : Frame) : Bool :=
  f.completion.isNone && (p.circs.filter (fun c => c.ports.contains port)).any (fun c =>
    c.cores.isEmpty || c.cores.any (fun k => f.owes (p.stagesOn k)))

/-- A channel, a link or a spine port is lost to a pipeline: frames that have still to cross it become VOID (R106, R292, R413, R479). -/
def State.losePath (s : State) (n unit port : Nat) : State := s.losePipe n unit ((s.pipe n).crosses port)

/-! ### The first pass of a section input (R157, R163) -/

/-- The scanned tensor that a frame's scan threads pass over: the first, in table order, that has no scale yet and is no stem input
(DESIGN CHOICE, log entry 113). -/
def Pipe.scanTensor (p : Pipe) (f : Frame) : Option Nat :=
  ((p.tensors.filter (fun t => t.kind == 2 && !(p.usesStem && t.idx == p.sol.stem.desc.inT) &&
    !f.bank.any (fun b => b.1 == t.idx))).map TensorRec.idx).head?

/-- A stage thread's FRANGE takes values of the section input into its frame's range (R157, R265). -/
def State.scanTake (s : State) (c j : Nat) (xs : List Nat) : State :=
  let p := (s.thr c j).pipe
  let fif := s.getF (Reg.CC_VT_SLOT_TAG c j) / 32
  match (s.pipe p).frame fif with
  | none => s
  | some f =>
    if s.flag (Reg.CC_VT_SLOT_STAGE c j) && (s.pipe p).usesScale && ((s.pipe p).scanTensor f).isSome then
      s.onFrame p fif (fun f => { f with scan := some (xs.foldl rangeTake (f.scan.getD (0, 0))) })
    else s

/-- The first pass of a tensor ends: its scale joins the frame's bank, and a collapsed range is reported (R158, R159, R163). -/
def State.passScale (s : State) (p fif tensor : Nat) (r : Nat × Nat) : State :=
  let d := deriveScale r.1 r.2
  let s1 := s.onFrame p fif (fun f => { f with
    bank := f.bank ++ [(tensor, (BitVec.ofNat 32 d.s, d.z))], collapsed := f.collapsed || d.collapsed, scan := none })
  if d.collapsed then s1.reportF 0 0x106 uSol p fif [(12, tensor), (4, 0)] else s1

/-- The scan threads' pass over a section input ends with the stage thread's first SEND of the frame's tag (DESIGN CHOICE, log entry
113). -/
def State.scanEnd (s : State) (c j fif : Nat) : State :=
  let p := (s.thr c j).pipe
  match (s.pipe p).frame fif with
  | none => s
  | some f =>
    match f.scan, (s.pipe p).scanTensor f with
    | some r, some t => if s.flag (Reg.CC_VT_SLOT_STAGE c j) && !s.sol.lost && s.domOn 32 then s.passScale p fif t r else s
    | _, _ => s

end Machine
end Sys2Proof
end

