-- ==== Sys2Proof/Machine/Access.lean ====
section
/-!
DEFINITION. Accesses of software and threads to memory (spec/03 R61, R62, R64; spec/10 R274, R281 to R286; spec/20
R503, R535): an access is cut into parts of one region each, parts are performed or held, and the access completes
with the worst status of its parts.
-/

namespace Sys2Proof.Machine

/-! ### One part -/

/-- What one part answers: data (for a read) and status; none while a write waits in the write-combining buffer. -/
abbrev PartOut := State × Option (List Byte × Status)

/-- Raise a record once for the access (R64, R289). -/
def State.onceFor (s : State) (id code : Nat) (f : State → State) : State :=
  let r := s.reqOf id
  if r.codes.contains code then s else (f s).putReq id { r with codes := code :: r.codes }

/-- ADDRESS_UNAVAILABLE (R62): DEGRADED.0x029 with the address and the core's state. -/
def State.coreUnavailable (s : State) (id c a : Nat) : State :=
  s.onceFor id 0x029 (fun s => s.report 1 0x029 (uCore c) [(43, a / 32), (16, s.dom c)])

/-- The slots of 8 bytes that `n` bytes from an offset touch. -/
def slotsOf (off n : Nat) : List Nat := (List.range ((off + n + 7) / 8 - off / 8)).map (fun i => off / 8 + i)

/-- A carry entry. -/
def State.carryEnt (s : State) (c e : Nat) : CarryEntry := SMap.get (fun _ => {}) s.carry (c * 32768 + e)

/-- A corrected carry entry (R64). -/
def State.carryCorrected (s : State) (c e : Nat) : State :=
  (s.addF (Reg.CC_TALLY c 14) 1).report 0 0x027 (uCore c) [(22, e)]

/-- A read of carry-buffer bytes (R61, R64); `seen` is what the check of the entries finds beside their stored state. -/
def State.carryRead (s : State) (id c off n req : Nat) (seen : EccSeen) : PartOut :=
  let es := slotsOf off n
  let met := fun (e : Nat) => metState (s.carryEnt c e).ecc seen
  let s1 := (es.filter (fun e => met e == .correctable)).foldl (fun s e => s.carryCorrected c e) s
  let bad := es.find? (fun e => (met e).bad)
  let s2 := match bad with
    | some e => s1.onceFor id 0x028 (fun s => s.report 1 0x028 (uCore c) [(22, e), (16, req)])
    | none => s1
  let bs := (List.range n).map (fun i =>
    (leBytes 8 ((s.carryEnt c ((off + i) / 8)).value.signExtend 64).toNat).getD ((off + i) % 8) 0)
  (s2, some (bs, if bad.isSome then .degraded else .ok))

/-- A write of the bytes of one carry slot that lie in [off, off + n) (R61, R64). -/
def State.carryWrite1 (s : State) (id c off req : Nat) (bs : List Byte) (seen : EccSeen) (e : Nat) : State × Bool :=
  let x := s.carryEnt c e
  let old := leBytes 8 (x.value.signExtend 64).toNat
  let inW := fun (i : Nat) => decide (off ≤ e * 8 + i ∧ e * 8 + i < off + bs.length)
  let new := (List.range 8).map (fun i => if inW i then bs.getD (e * 8 + i - off) 0 else old.getD i 0)
  let full := (List.range 6).all inW
  let put := fun (s : State) (st : EccState) =>
    s.setCarry (SMap.put (fun _ => {}) s.carry (c * 32768 + e) { x with value := BitVec.ofNat 48 (ofLe new), ecc := st })
  if full then (put s .clean, false)
  else match metState x.ecc seen with
    | .clean => (put s .clean, false)
    | .correctable => (put (s.carryCorrected c e) .clean, false)
    | _ => (put (s.onceFor id 0x028 (fun s => s.report 1 0x028 (uCore c) [(22, e), (16, req)])) .poisoned, true)

/-- A write of carry-buffer bytes. -/
def State.carryWrite (s : State) (id c off req : Nat) (bs : List Byte) (seen : EccSeen) : PartOut :=
  let r := (slotsOf off bs.length).foldl (fun (acc : State × Bool) (e : Nat) =>
    let q := acc.1.carryWrite1 id c off req bs seen e
    (q.1, acc.2 || q.2)) (s, false)
  (r.1, some ([], if r.2 then .degraded else .ok))

/-- A read of host-core memory (R503): `seen` is what its error check reports. A load by a hart of an uncorrectable word takes
an access fault. -/
def State.hostRead (s : State) (off n req : Nat) (seen : EccSeen) : PartOut :=
  let bs := s.rdBytes (hostKey off) n
  match seen with
  | .clean => (s, some (bs, .ok))
  | .single => (s.addSat Reg.MGT_HCM_ECC_CORR 1, some (bs, .ok))
  | .double => ((s.addSat Reg.MGT_HCM_ECC_UNCORR 1).setF Reg.MGT_HCM_ECC_ADDR off,
      some (bs, if isHartReq req then .accessFault else .degraded))

/-- The staging area: the top 4 MiB of host-core memory (R533). -/
def inStaging (off n : Nat) : Bool := decide (0x1C00000 < off + n)

/-- Perform a read of `n` bytes within one 32-byte block. `seen` is what the error check of the word finds beside its
stored state. -/
def State.partRead (s : State) (id a n req : Nat) (seen : EccSeen) : PartOut :=
  let zero := List.replicate n (0#8)
  match s.place a with
  | .hbm g off =>
    if !s.chanServed g then
      (s.onceFor id 0x206 (fun s => s.addrInvalid a req), some (zero, .unavailable))
    else if s.chanLost g then (s, some (zero, .degraded))
    else
      let s1 := s.wcbDrainLine g (off / 64)
      let r := s1.hbmReadStored g off req seen
      let s2 := if r.2.poisoned then
          r.1.onceFor id 0x205 (fun s => s.report 1 0x205 (uChan g) [(30, off / 32 * 32), (16, req)]) else r.1
      (s2, some ((r.2.bytes.drop (off % 32)).take n, if r.2.flagged then .degraded else .ok))
  | .store c off =>
    if !s.domHolds c then (s.coreUnavailable id c a, some (zero, .addressUnavailable))
    else
      let w := storeWords off n
      let s1 := (w.filter (fun x => metState (s.eccAt (storeKey c x)) seen == .correctable)).foldl (fun s x =>
        (s.addF (Reg.CC_TALLY c 14) 1).report 0 0x023 (uCore c) [(22, x)]) s
      let bad := w.find? (fun x => (metState (s.eccAt (storeKey c x)) seen).bad)
      let s2 := match bad with
        | some x => s1.onceFor id 0x024 (fun s => s.report 1 0x024 (uCore c) [(22, x), (16, req)])
        | none => s1
      (s2, some (s.rdBytes (storeKey c off) n, if bad.isSome then .degraded else .ok))
  | .carry c e b =>
    if !s.domHolds c then (s.coreUnavailable id c a, some (zero, .addressUnavailable))
    else s.carryRead id c (e * 8 + b) n req seen
  | .unusedCore c => (s.coreUnavailable id c a, some (zero, .addressUnavailable))
  | .host off =>
    if s.domHolds 37 then s.hostRead off n req seen
    else (s.onceFor id 0x206 (fun s => s.addrInvalid a req), some (zero, .unavailable))
  | .noHbm => (s.onceFor id 0x206 (fun s => s.addrInvalid a req), some (zero, .unavailable))
  | .ctl _ | .nowhere => (s.onceFor id 0x206 (fun s => s.addrInvalid a req), some (zero, .accessFault))

/-- Perform a write of bytes within one 32-byte block. `stew` says that the steward core writes (R535); `seen` is what the check of a partly
written word of a core store or carry buffer finds beside its stored state. -/
def State.partWrite (s : State) (id a req : Nat) (bs : List Byte) (stew : Bool) (seen : EccSeen) : PartOut :=
  let n := bs.length
  match s.place a with
  | .hbm g off =>
    if !s.chanServed g then (s.onceFor id 0x206 (fun s => s.addrInvalid a req), some ([], .unavailable))
    else if s.chanLost g then (s, some ([], .unavailable))
    else
      let line := off / 64
      if n = 32 ∧ s.lineHeld (g / 16) (g % 16) line = false then (s.hbmWriteDirect g off bs, some ([], .ok))
      else (s.wcbPut g line (bs.zipIdx.map (fun x => (off % 64 + x.2, some x.1))) (some id), none)
  | .store c off =>
    if !s.domHolds c then (s.coreUnavailable id c a, some ([], .addressUnavailable))
    else
      let r := s.storePut c off req bs seen
      (r.1, some ([], if r.2 then .degraded else .ok))
  | .carry c e b =>
    if !s.domHolds c then (s.coreUnavailable id c a, some ([], .addressUnavailable))
    else s.carryWrite id c (e * 8 + b) req bs seen
  | .unusedCore c => (s.coreUnavailable id c a, some ([], .addressUnavailable))
  | .host off =>
    if !s.domHolds 37 then (s.onceFor id 0x206 (fun s => s.addrInvalid a req), some ([], .unavailable))
    else if s.flag Reg.MGT_HCM_LOCK && inStaging off n && !stew then
      let s1 := s.addSat Reg.MGT_HOST_DENY_COUNT 1
      (if s1.denyArmed then (s1.setF Reg.MGT_HOST_DENY_ADDR a).setDenyArmed false else s1, some ([], .accessFault))
    else (s.hostPut off bs, some ([], .ok))
  | .noHbm => (s.onceFor id 0x206 (fun s => s.addrInvalid a req), some ([], .unavailable))
  | .ctl _ | .nowhere => (s.onceFor id 0x206 (fun s => s.addrInvalid a req), some ([], .accessFault))

/-! ### Whole accesses -/

/-- The number of the steward core as a requester. -/
def reqSteward : Nat := agentReq .steward

/-- Why a part of an access is held: for the core of a retained window (R62), or for a channel whose generator runs
(R295); none when it proceeds at once. -/
def State.holdFor (s : State) (a : Nat) (slotted : Bool) : Option Nat :=
  match s.place a with
  | .store c _ | .carry c _ _ => if s.dom c == 1 then some c else none
  | .hbm g _ => if !slotted && s.flag (Reg.MC_TG_CTL_BUSY (g / 16) (g % 16)) then some (32 + g) else none
  | _ => none

/-- The blocks that `n` bytes from an address touch: address, position and length of each. -/
def blocksOf (a n : Nat) : List (Nat × Nat × Nat) :=
  (List.range ((a + n + 31) / 32 - a / 32)).map (fun i =>
    let lo := max a ((a / 32 + i) * 32)
    let hi := min (a + n) ((a / 32 + i + 1) * 32)
    (lo, lo - a, hi - lo))

/-- Perform one part and complete it with what it answers. -/
def State.runPart (s : State) (h : HeldPart) (seen : EccSeen) : State :=
  let r := match h.data with
    | none => s.partRead h.id h.addr h.len h.req seen
    | some bs => s.partWrite h.id h.addr h.req bs (h.req == reqSteward) seen
  match r.2 with
  | some (bs, st) => r.1.finishPart h.id h.pos bs st
  | none => r.1

/-- Start one part: it is performed now, or held. -/
def State.startPart (s : State) (h : HeldPart) (slotted : Bool) (seen : EccSeen) : State :=
  let s1 := s.addPart h.id
  match s1.holdFor h.addr slotted with
  | some u =>
    let due := if u < 32 then s1.now + 1000000 else 0
    s1.setHeld (s1.held ++ [{ h with unit := u, due := due, seen := seen }])
  | none => s1.runPart h seen

/-- One piece of an access: an address and a position, and its bytes or its length. -/
structure Piece where
  addr : Nat
  pos : Nat
  len : Nat
  data : Option (List Byte) := none
  deriving DecidableEq, Repr

/-- Open an access with its data as it stands before any part completes; it stays open until `closeReq`. Answers its
number. -/
def State.openReq (s : State) (init : List Byte) (dest : Dest) : State × Nat :=
  ((s.putReq s.nextReq { left := 1, bytes := init, dest := dest }).setNextReq (s.nextReq + 1), s.nextReq)

/-- Every part of an access has been started. -/
def State.closeReq (s : State) (id : Nat) : State := s.finishPart id 0 [] .ok

/-- Start every block of a piece. An error that the check finds beside the stored state lies in one of the blocks: which one, of several,
is a free value (DESIGN CHOICE, log entry 118). -/
def State.startPiece (s : State) (id req : Nat) (slotted : Bool) (seen : EccSeen) (p : Piece) : State :=
  let bs := blocksOf p.addr p.len
  let many := seen != .clean && decide (1 < bs.length)
  let k := if many then s.freeVal.toNat % bs.length else 0
  bs.zipIdx.foldl (fun s x =>
    let b := x.1
    s.startPart { id := id, unit := 0, addr := b.1, len := b.2.2, pos := p.pos + b.2.1,
                  data := p.data.map (fun bs => sliceB bs b.2.1 b.2.2), req := req } slotted
      (if x.2 = k then seen else .clean)) (if many then s.freeNext else s)

/-- A whole access: its pieces in order (R62, R286). -/
def State.access (s : State) (ps : List Piece) (init : List Byte) (dest : Dest) (req : Nat) (slotted : Bool)
    (seen : EccSeen) : State :=
  let o := s.openReq init dest
  ((ps.foldl (fun s p => s.startPiece o.2 req slotted seen p) o.1)).closeReq o.2

/-- Perform the parts held for a unit, oldest first: a core that has entered ON (R62), or a channel whose generator has
ended (R295). -/
def State.releaseHeld (s : State) (u : Nat) : State :=
  let hs := s.held.filter (fun h => h.unit == u)
  hs.foldl (fun s h => s.runPart h h.seen) (s.setHeld (s.held.filter (fun h => h.unit != u)))

/-- Complete a held part of a core with ADDRESS_UNAVAILABLE (R62). -/
def State.failHeld (s : State) (h : HeldPart) : State :=
  let s1 := (s.setHeld (s.held.erase h)).coreUnavailable h.id h.unit h.addr
  s1.finishPart h.id h.pos (if h.data.isSome then [] else List.replicate h.len 0) .addressUnavailable

/-- Complete every part held for a core that has lost its state (R62). -/
def State.failHeldAll (s : State) (c : Nat) : State :=
  (s.held.filter (fun h => h.unit == c)).foldl (fun s h => s.failHeld h) s

end Sys2Proof.Machine
end

