-- ==== Sys2Proof/Machine/Almanac.lean ====
section
/-!
DEFINITION. The Almanac's own commands: its adjustments, its read latch, the crystal's measurement and failure, and
the return from the crystal to the time clock (spec/02_almanac_and_beats.md R28 to R38, spec/22 R552, R553).
-/

namespace Sys2Proof.Machine

/-- The value of ALM_SLEW_REM: the slew not yet absorbed, in whole ns (R33, R553). -/
def State.slewRemNs (s : State) : Int := s.alm.slewRem.tdiv 500

/-- The Almanac in units of 2^-16 ns, as R36 measures it. -/
def State.nowFine (s : State) : Nat := s.alm.alm / unitFrac

/-- ALM_RATE: the signed frequency offset, stored at its bound when beyond it, acts from the next tick (R33). -/
def State.writeRate (w : WriteReq) (s : State) : State :=
  match wField w Reg.ALM_RATE with
  | none => s
  | some v => s.setI Reg.ALM_RATE (clampRate (sint 32 v))

/-- ALM_SLEW: adds to ALM_SLEW_REM, the sum limited to ±1,000,000 ns (R33, R553). -/
def State.writeSlew (w : WriteReq) (s : State) : State :=
  match wField w Reg.ALM_SLEW with
  | none => s
  | some v =>
    let x := s.alm.slewRem + 500 * sint 32 v
    let lim : Int := 500000000
    s.setAlm { s.alm with slewRem := if x > lim then lim else if x < -lim then -lim else x }

/-- A read of ALM_NOW_LO: the low 32 bits of the ns count; HI and FRAC of the same instant go to the reader's own
latch (R30, R552). -/
def State.readNowLo (a : Agent) (s : State) : State × W64 :=
  let n := s.now
  (s.setAlm { s.alm with latch := SMap.put (fun _ => (0, 0)) s.alm.latch (agentIdx a) (n / 2 ^ 32, s.nowFrac) },
   BitVec.ofNat 64 (n % 2 ^ 32))

/-- ALM_RATE (R33). -/
def execAlmRate (w : WriteReq) (s : State) : Out :=
  .next (s.gated w.agent w.half Reg.ALM_RATE.off (State.writeRate w))

/-- ALM_SLEW (R33, R553). -/
def execAlmSlew (w : WriteReq) (s : State) : Out :=
  .next (s.gated w.agent w.half Reg.ALM_SLEW.off (State.writeSlew w))

/-- ALM_NOW_LO (R30, R552): only a read that covers the low half latches. -/
def execAlmNowLo (r : ReadReq) (s : State) : Out :=
  if coversLo r.half then
    let p := s.readNowLo r.agent
    .next (p.1.answer .ok p.2)
  else .next (s.answer .ok 0#64)

/-- A measuring window of 32,768 crystal cycles ends `ticks` time-clock ticks from now (R36): ALM_AON_PERIOD takes the
span in 2^-16 ns over 32,768, rounded to nearest with ties to even, unless a step was written within the window. A window
discarded so has been followed since the step by a new one, whose end is a later command. The measurement runs in Active. -/
def execAonPeriodMeasure (ticks : Nat) (s : State) : Out :=
  if s.pwr.dev = .active ∧ ¬ s.alm.crystal then
    let s1 := s.ticks ticks
    let span := s1.nowFine - s1.alm.winStart
    let s2 := if s1.alm.winBad then s1
      else s1.setF Reg.ALM_AON_PERIOD (divRNE span 32768).toNat
    .next (s2.setAlm { s2.alm with
      winStart := if s1.alm.winBad then s1.alm.winStart else s2.nowFine, winBad := false, aonFail := false })
  else .next s

/-- The crystal fails to toggle for 1 ms while the time clock runs, in Waking from the acceptance of the reference and
in Active (R36): DEGRADED.0xA20 once for that failure, with the last valid period, which is kept. -/
def execAonClockFail (s : State) : Out :=
  if (s.pwr.dev = .active ∨ (s.pwr.dev = .waking ∧ s.pwr.refOk)) ∧ ¬ s.alm.aonFail then
    let s1 := if s.alm.crystal then s else s.elapse 1000000
    .next ((s1.report 1 0xA20 (uBeat 7) [(48, s1.getF Reg.ALM_AON_PERIOD)]).setAlm { s1.alm with aonFail := true })
  else .next s

/-- The Almanac returns to the time clock on leaving Dormant (R38): at a crystal edge, which adds ALM_AON_PERIOD, or,
when none arrives within 1 ms of the reference's acceptance, from the value it holds, with DEGRADED.0xA20 unless this Waking
has reported the same failure already (R36: once for that failure). A new measuring window starts at this
return, still in Waking: the manual has the device measure in Active and does not say when the first window after Waking begins
(DESIGN CHOICE, log entry 101). -/
def execAlmanacClockReturn (edge : Bool) (s : State) : Out :=
  if s.pwr.dev = .waking ∧ s.pwr.refOk ∧ s.alm.crystal then
    let s1 := if edge then s.crystals 1
      else if s.alm.aonFail then s
      else s.report 1 0xA20 (uBeat 7) [(48, s.getF Reg.ALM_AON_PERIOD)]
    let s2 := s1.setAlm { s1.alm with crystal := false, winStart := s1.nowFine, winBad := false, aonFail := !edge }
    .next (s2.setPwr { s2.pwr with almBack := true })
  else .next s

end Sys2Proof.Machine
end

