-- ==== Sys2Proof/Machine/Remote.lean ====
section
/-!
DEFINITION. Requests to joined devices: coordinates (R400), routes (R401, R563), and what a request that cannot be
carried completes with (R402, R413).
-/

namespace Sys2Proof.Machine

/-- Coordinates of a device number (R400). -/
def devX (d : Nat) : Nat := d % 4
def devY (d : Nat) : Nat := d / 4 % 4
def devZ (d : Nat) : Nat := d / 16

/-- The dimensions of the system, from the logarithms in QSK_TOPO. -/
def State.nx (s : State) : Nat := 2 ^ s.getF Reg.QSK_TOPO_NX
def State.ny (s : State) : Nat := 2 ^ s.getF Reg.QSK_TOPO_NY
def State.nz (s : State) : Nat := 2 ^ s.getF Reg.QSK_TOPO_NZ

/-- A device number names a device of the system: each coordinate is below its dimension (R400). -/
def State.devPresent (s : State) (d : Nat) : Bool :=
  decide (devX d < s.nx) && decide (devY d < s.ny) && decide (devZ d < s.nz)

/-- The link toward a device, when a route is valid and the link is up. -/
def State.routeTo (s : State) (d : Nat) : Option Nat :=
  let l := s.getF (Reg.QSK_ROUTE_LINK d)
  if s.flag (Reg.QSK_ROUTE_VALID d) && s.linkUp l then some l else none

/-- Send a SERVICE request toward a device. When no link carries it, it completes UNAVAILABLE, with DEGRADED.0x40B once
per destination (R413, R563); the Bool says that it was sent. -/
def State.serviceSend (s : State) (d op addr : Nat) (data : List Byte) (req : Nat) : State × Bool :=
  match s.routeTo d with
  | some l => (s.emit (.service l d op addr data req), true)
  | none =>
    if s.qsk.unreach.contains d then (s, false)
    else
      ((s.setQsk { s.qsk with unreach := s.qsk.unreach ++ [d] }).report 1 0x40B
        (uLink (s.getF (Reg.QSK_ROUTE_LINK d)) d) [], false)

/-- The follower devices of a head pipeline; none unless this device heads a spread pipeline. -/
def State.followers (s : State) (p : Nat) : List Nat :=
  if (s.pipe p).quosk && s.flag (Reg.QSK_PART_IS_HEAD p) then
    (List.range 64).filter (fun d => bit1 (s.getF (Reg.QSK_PART_FOLLOW p)) d)
  else []

end Sys2Proof.Machine
end

