-- ==== Sys2Proof/Machine/Crc.lean ====
section
/-!
DEFINITION. CRC-32C, which spec/14 Tables 14-6 and 14-9, spec/11, spec/12 and spec/16 name.
-/

namespace Sys2Proof

/-- `n` shift steps of the reflected CRC-32C register. -/
def crcShift : Nat → Nat → Nat
  | 0, c => c
  | n + 1, c => crcShift n (if c % 2 = 1 then (c / 2) ^^^ 0x82F63B78 else c / 2)

/-- Take bytes into the register. -/
def crcTake : List Byte → Nat → Nat
  | [], c => c
  | b :: bs, c => crcTake bs (crcShift 8 (c ^^^ b.toNat))

/-- CRC-32C of bytes: register all ones at the start, complemented at the end. -/
def crc32c (bs : List Byte) : Nat := crcTake bs 0xFFFFFFFF ^^^ 0xFFFFFFFF

end Sys2Proof
end

