-- ==== Sys2Proof/Machine/Flags.lean ====
section
/-!
DEFINITION. The flags of TSTAT and of floating-point operations (spec/09_vector_engine_and_threads.md Table 9-1, R261,
R262), with each operation's result beside its flags.
-/

namespace Sys2Proof

/-! ### TSTAT bits (Table 9-1) -/

def fNV : Nat := 1
def fOF : Nat := 2
def fUF : Nat := 4
def fNX : Nat := 8
def fSV : Nat := 16
def fPS : Nat := 32
def fDS : Nat := 64

/-- A result with the flags it sets. -/
abbrev Flagged := Nat × Nat

/-- A flag word that holds one flag or none. -/
def flagIf (b : Bool) (f : Nat) : Nat := if b then f else 0

/-- A signalling NaN: a NaN whose leading fraction bit is 0. -/
def Fmt.isSnan (f : Fmt) (x : Nat) : Bool := f.isNan x && !x.testBit (f.p - 2)

/-- The exact value is non-zero and below the smallest normal after rounding to unbounded exponent (R262). -/
def Fmt.tiny (f : Fmt) (m : Rat2) : Bool :=
  -- |q| < 2^emin (1 − 2^(−p−1)), with emin = 2 − 2^(eb−1)
  m.n != 0 && decide (m.n.natAbs * 2 ^ (2 ^ (f.eb - 1) - 2) * 2 ^ (f.p + 1) < m.d * (2 ^ (f.p + 1) - 1))

/-- OF, UF and NX of a finite exact value and its rounded bits (R262). -/
def Fmt.roundFlags (f : Fmt) (exact : Rat2) (r : Nat) : Nat :=
  if f.isFin r then
    if (f.valOf r).eq exact then 0 else fNX + flagIf (f.tiny exact) fUF
  else fOF + fNX

/-- NV of an operation on operands: a signalling NaN, or a NaN result from operands that are none (R262). -/
def Fmt.invalid (f : Fmt) (ops : List Nat) (r : Nat) : Bool :=
  ops.any (fun x => f.isSnan x) || (f.isNan r && !ops.any (fun x => f.isNan x))

/-- The flags of an operation with operands, the exact result when it is finite, and the rounded bits. -/
def Fmt.opFlags (f : Fmt) (ops : List Nat) (exact : Option Rat2) (r : Nat) : Nat :=
  if f.invalid ops r then fNV
  else match exact with
    | some q => f.roundFlags q r
    | none => 0

/-- All operands finite. -/
def Fmt.allFin (f : Fmt) (ops : List Nat) : Bool := ops.all (fun x => f.isFin x)

def Fmt.addX (f : Fmt) (x y : Nat) : Flagged :=
  let r := f.add x y
  (r, f.opFlags [x, y] (if f.allFin [x, y] then some ((f.valOf x).add (f.valOf y)) else none) r)

def Fmt.subX (f : Fmt) (x y : Nat) : Flagged :=
  let r := f.sub x y
  (r, f.opFlags [x, y] (if f.allFin [x, y] then some ((f.valOf x).sub (f.valOf y)) else none) r)

def Fmt.mulX (f : Fmt) (x y : Nat) : Flagged :=
  let r := f.mul x y
  (r, f.opFlags [x, y] (if f.allFin [x, y] then some ((f.valOf x).mul (f.valOf y)) else none) r)

/-- Division; by ±0 it sets no flag unless the dividend is 0 (R262). -/
def Fmt.divX (f : Fmt) (x y : Nat) : Flagged :=
  let r := f.div x y
  (r, f.opFlags [x, y]
    (if f.allFin [x, y] && (f.valOf y).n != 0 then some ((f.valOf x).div (f.valOf y)) else none) r)

/-- Fused multiply-add; 0 × ∞ is invalid whatever the addend (R262). -/
def Fmt.fmaX (f : Fmt) (x y z : Nat) : Flagged :=
  let r := f.fma x y z
  let zi := fun (a b : Nat) => f.isFin a && (f.valOf a).n == 0 && !f.isFin b && !f.isNan b
  if zi x y || zi y x then (f.qnan, fNV)
  else (r, f.opFlags [x, y, z]
    (if f.allFin [x, y, z] then some (((f.valOf x).mul (f.valOf y)).add (f.valOf z)) else none) r)

/-- Square root: NX when the root is not exact; its results are never tiny. -/
def Fmt.sqrtX (f : Fmt) (x : Nat) : Flagged :=
  let r := f.sqrt x
  if f.invalid [x] r then (r, fNV)
  else if f.isFin x && !((f.valOf r).mul (f.valOf r)).eq (f.valOf x) then (r, fNX)
  else (r, 0)

/-- The order of FMIN, FMAX, FRMAX and FRMIN: numeric, with −0 below +0. -/
def Fmt.below (f : Fmt) (x y : Nat) : Bool :=
  f.lt x y || (f.feq x y && x.testBit (f.p - 1 + f.eb) && !y.testBit (f.p - 1 + f.eb))

/-- minimumNumber and maximumNumber (R262). -/
def Fmt.minmaxX (f : Fmt) (max : Bool) (x y : Nat) : Flagged :=
  let fl := flagIf (f.isSnan x || f.isSnan y) fNV
  if f.isNan x then (if f.isNan y then f.qnan else y, fl)
  else if f.isNan y then (x, fl)
  else if f.below x y == max then (y, fl) else (x, fl)

/-- The comparison of FCMP: 0 EQ, 1 NE, 2 LT, 3 LE, 4 GT, 5 GE, with its flags (R262). -/
def Fmt.cmpX (f : Fmt) (op x y : Nat) : Bool × Nat :=
  let nan := f.isNan x || f.isNan y
  let fl := flagIf (f.isSnan x || f.isSnan y || (nan && decide (2 ≤ op))) fNV
  let r := match op with
    | 0 => f.feq x y
    | 1 => !f.feq x y
    | 2 => f.lt x y
    | 3 => f.lt x y || f.feq x y
    | 4 => f.lt y x
    | _ => f.lt y x || f.feq x y
  (r, fl)

/-- FCLASS (Table 9-7). -/
def Fmt.classX (f : Fmt) (x : Nat) : Nat :=
  let neg := x.testBit (f.p - 1 + f.eb)
  let mag := x % 2 ^ (f.p - 1 + f.eb)
  if f.isNan x then (if f.isSnan x then 256 else 512)
  else if !f.isFin x then (if neg then 1 else 128)
  else if mag = 0 then (if neg then 8 else 16)
  else if mag < 2 ^ (f.p - 1) then (if neg then 4 else 32)
  else (if neg then 2 else 64)

/-- FCVT between formats (R263). -/
def Fmt.convertX (f g : Fmt) (x : Nat) : Flagged :=
  let r := f.convert g x
  if f.isSnan x then (r, fNV)
  else if f.isFin x then (r, g.roundFlags (f.valOf x) r)
  else (r, 0)

/-- ITOF (R263). -/
def Fmt.ofIntX (f : Fmt) (x : Int) : Flagged :=
  let r := f.ofInt x
  (r, f.roundFlags (Rat2.ofInt x) r)

/-- FTOI to an integer range: nearest even, saturating; NV for a NaN, which gives 0, and out of range (R263). -/
def Fmt.toIntX (f : Fmt) (lo hi : Int) (x : Nat) : Int × Nat :=
  match Fp.decode f x with
  | .nan => (0, fNV)
  | .inf neg => (if neg then lo else hi, fNV)
  | .fin neg m =>
    let v := Fp.val neg m
    let i := v.rne
    if i < lo then (lo, fNV) else if i > hi then (hi, fNV)
    else (i, flagIf (!v.eq (Rat2.ofInt i)) fNX)

/-! ### Approximations (R264, Table 9-12) -/

/-- Flags of a result with a bound only: NX, and OF or UF as R262 gives them for the value returned. -/
def approxFlags (y : Nat) : Nat :=
  fNX + flagIf (!Fmt.fp32.isFin y && !Fmt.fp32.isNan y) fOF + flagIf (decide (y % 2 ^ 31 < 2 ^ 23)) fUF

/-- ln 2 as a rational, close enough that no FP32 datum lies between a multiple used here and its exact value. -/
def ln2 : Rat2 := ⟨693147180559945309417232121458, 10 ^ 30⟩

/-- The unit of the fixed-point evaluation. -/
def fixUnit : Nat := 2 ^ 128

/-- A non-negative rational in fixed point. -/
def toFix (v : Rat2) : Nat := v.n.toNat * fixUnit / v.d

/-- `n` terms of the exponential series at a fixed-point argument, from term `k` on, divided by the terms before it. -/
def expSeries (y : Nat) : Nat → Nat → Nat
  | 0, _ => fixUnit
  | n + 1, k => fixUnit + y * expSeries y n (k + 1) / k / fixUnit

/-- 2 to a rational, with a relative error below 2^-90. -/
def exp2Of (t : Rat2) : Rat2 :=
  let i := t.n / (t.d : Int)
  let f : Rat2 := ⟨t.n - i * t.d, t.d⟩
  (Rat2.ofInt (expSeries (toFix (f.mul ln2)) 40 1 : Nat)).shl (i - 128)

/-- e to a rational. -/
def expOf (v : Rat2) : Rat2 := exp2Of (v.div ln2)

/-- `n` terms of the series of atanh, from the term of exponent `k` on, with the power `p` and the square of the
argument in fixed point. -/
def atanhSeries (z2 : Nat) : Nat → Nat → Nat → Nat
  | 0, _, _ => 0
  | n + 1, k, p => p / k + atanhSeries z2 n (k + 2) (p * z2 / fixUnit)

/-- The base-2 logarithm of a positive rational, with an absolute error below 2^-90. -/
def log2Of (v : Rat2) : Rat2 :=
  let k : Int := (Nat.log2 v.n.toNat : Int) - Nat.log2 v.d
  let m := v.shl (-k)
  let z := toFix ((m.sub (Rat2.ofInt 1)).div (m.add (Rat2.ofInt 1)))
  let l : Rat2 := ⟨(2 * atanhSeries (z * z / fixUnit) 40 1 z : Nat), fixUnit⟩
  (Rat2.ofInt k).add (l.div ln2)

/-- The function that an approximation approximates, with a relative error below 2^-60 (Table 9-12): 0 FRCP, 1 FRSQ,
2 FEXP2, 3 FLOG2, 4 FEXP, 5 FSIG, 6 FTANH. -/
def approxExact (fn x : Nat) : Rat2 :=
  let v := Fmt.fp32.valOf x
  let one := Rat2.ofInt 1
  match fn with
  | 0 => one.div v
  | 1 => ⟨(isqrt (v.d * 2 ^ 400 / v.n.toNat) : Nat), 2 ^ 200⟩
  | 2 => exp2Of v
  | 3 => log2Of v
  | 4 => expOf v
  | 5 => one.div (one.add (expOf ⟨-v.n, v.d⟩))
  | _ => let e := expOf (v.add v); (e.sub one).div (e.add one)

/-- The bound in ulp (Table 9-12); below 2^-126 the functions that name the subnormal grid have its bound. -/
def approxBound (fn x : Nat) : Nat :=
  let v := Fmt.fp32.valOf x
  match fn with
  | 0 | 1 => 1
  | 2 => if v.lt (Rat2.ofInt (-126)) then 1 else 2
  | 3 => 2
  | 4 => if v.lt ⟨-873, 10⟩ ∨ Rat2.lt ⟨887, 10⟩ v then (if (v.div ln2).lt (Rat2.ofInt (-126)) then 1 else 2) else 3
  | 5 => if v.lt (Rat2.ofInt (-87)) then 2 else 3
  | _ => 3

/-- One ulp of FP32 at a non-zero rational. -/
def fp32Ulp (v : Rat2) : Rat2 :=
  let k : Int := (Nat.log2 v.n.natAbs : Int) - Nat.log2 v.d
  let k1 := if (Rat2.ofInt (v.n.natAbs : Int)).lt ((Rat2.ofInt v.d).shl k) then k - 1 else k
  (Rat2.ofInt 1).shl (max k1 (-126) - 23)

/-- A result that Table 9-12 does not state, of −0 under FRSQ and FLOG2: a free value (DESIGN CHOICE, log entry 20). -/
def approxOpen (fn x : Nat) : Flagged := let y := (Config.approx fn x).toNat; (y, approxFlags y)

/-- A result that Table 9-12 only bounds: a free value within the bound (DESIGN CHOICE, log entry 20); an exact value that rounds
beyond the largest finite one overflows, as the reciprocal of a datum below 2^-128 does (R262). -/
def approxFree (fn x : Nat) : Flagged :=
  let e := approxExact fn x
  let near := e.toFmt Fmt.fp32
  let y := (Config.approx fn x).toNat
  let d := (Fmt.fp32.valOf y).sub e
  let room := ((fp32Ulp e).mul (Rat2.ofInt (approxBound fn x))).mul ⟨2 ^ 20 + 1, 2 ^ 20⟩
  let ok := Fmt.fp32.isFin y && !room.lt ⟨(d.n.natAbs : Int), d.d⟩
  if Fmt.fp32.isFin near then
    let r := if ok then y else near
    (r, approxFlags r)
  else (near, fOF + fNX)

/-- The exponent of a power of two, none otherwise; x is a positive finite FP32 datum. -/
def pow2Exp (x : Nat) : Option Int :=
  let v := Fmt.fp32.valOf x
  if v.n ≤ 0 then none
  else
    let a := Nat.log2 v.n.natAbs
    let b := Nat.log2 v.d
    if v.n.natAbs = 2 ^ a ∧ v.d = 2 ^ b then some ((a : Int) - b) else none

/-- 2^k as FP32 bits. -/
def fp32Pow2 (k : Int) : Nat := ((Rat2.ofInt 1).shl k).toFmt Fmt.fp32

def fp32One : Nat := 0x3F800000

/-- FRCP. -/
def frcpX (x : Nat) : Flagged :=
  let neg := x.testBit 31
  if x % 2 ^ 31 = 0 then (Fmt.fp32.inf neg, 0)
  else if !Fmt.fp32.isFin x then (Fmt.fp32.signBit neg, 0)
  else match pow2Exp (x % 2 ^ 31) with
    | some k => if -126 ≤ -k ∧ -k ≤ 127 then (Fmt.fp32.signBit neg + fp32Pow2 (-k), 0) else approxFree 0 x
    | none => approxFree 0 x

/-- FRSQ. -/
def frsqX (x : Nat) : Flagged :=
  if x = 0 then (Fmt.fp32.inf false, 0)
  else if x = Fmt.fp32.inf false then (0, 0)
  else if x = 2 ^ 31 then approxOpen 1 x
  else if x.testBit 31 then (Fmt.fp32.qnan, fNV)
  else approxFree 1 x

/-- FEXP2. -/
def fexp2X (x : Nat) : Flagged :=
  match Fp.decode Fmt.fp32 x with
  | .inf true => (0, fUF + fNX)
  | .fin neg m =>
    let v := Fp.val neg m
    if !v.lt (Rat2.ofInt 128) then (Fmt.fp32.inf false, fOF + fNX)
    else if v.lt (Rat2.ofInt (-150)) then (0, fUF + fNX)
    else if v.eq (Rat2.ofInt v.rne) && decide (-149 ≤ v.rne) then (fp32Pow2 v.rne, 0)
    else approxFree 2 x
  | _ => (Fmt.fp32.inf false, fOF + fNX)

/-- FLOG2. -/
def flog2X (x : Nat) : Flagged :=
  if x = 0 then (Fmt.fp32.inf true, 0)
  else if x = Fmt.fp32.inf false then (Fmt.fp32.inf false, 0)
  else if x = 2 ^ 31 then approxOpen 3 x
  else if x.testBit 31 then (Fmt.fp32.qnan, fNV)
  else match pow2Exp x with
    | some k => (Fmt.fp32.ofInt k, 0)
    | none => approxFree 3 x

/-- FEXP: beyond its domain it follows FEXP2 of x · log2 e. -/
def fexpX (x : Nat) : Flagged :=
  match Fp.decode Fmt.fp32 x with
  | .inf true => (0, fUF + fNX)
  | .fin neg m =>
    let v := Fp.val neg m
    if v.n = 0 then (fp32One, 0)
    else if !v.lt (ln2.mul (Rat2.ofInt 128)) then (Fmt.fp32.inf false, fOF + fNX)
    else if v.lt (ln2.mul (Rat2.ofInt (-150))) then (0, fUF + fNX)
    else approxFree 4 x
  | _ => (Fmt.fp32.inf false, fOF + fNX)

/-- FSIG. -/
def fsigX (x : Nat) : Flagged :=
  match Fp.decode Fmt.fp32 x with
  | .inf true => (0, fUF + fNX)
  | .fin neg m =>
    let v := Fp.val neg m
    if !v.lt (Rat2.ofInt 17) then (fp32One, 0)
    else if v.lt (Rat2.ofInt (-104)) then (0, fUF + fNX)
    else approxFree 5 x
  | _ => (fp32One, 0)

/-- FTANH. -/
def ftanhX (x : Nat) : Flagged :=
  let s := Fmt.fp32.signBit (x.testBit 31)
  match Fp.decode Fmt.fp32 (x % 2 ^ 31) with
  | .fin _ m =>
    if !m.lt ⟨91, 10⟩ then (s + fp32One, 0)
    else if m.lt ⟨1, 4096⟩ then (x, 0)
    else approxFree 6 x
  | _ => (s + fp32One, 0)

/-- An approximation function in FP32 (Table 9-12): a NaN gives the canonical NaN, with NV when it signals. -/
def approxFp32 (fn x : Nat) : Flagged :=
  if Fmt.fp32.isNan x then (Fmt.fp32.qnan, flagIf (Fmt.fp32.isSnan x) fNV)
  else match fn with
    | 0 => frcpX x
    | 1 => frsqX x
    | 2 => fexp2X x
    | 3 => flog2X x
    | 4 => fexpX x
    | 5 => fsigX x
    | _ => ftanhX x

/-- An approximation in any format: FP16 and BF16 forms evaluate the FP32 form and round once (R264). -/
def approxX (f : Fmt) (fn x : Nat) : Flagged :=
  if f = Fmt.fp32 then approxFp32 fn x
  else if f.isNan x then (f.qnan, flagIf (f.isSnan x) fNV)
  else
    let y := approxFp32 fn (f.convert Fmt.fp32 x)
    let z := Fmt.fp32.convertX f y.1
    (z.1, y.2 ||| z.2)

end Sys2Proof
end

