-- ==== Sys2Proof/Machine/Operands.lean ====
section
/-!
DEFINITION. Operand forms of vector instructions (spec/09_vector_engine_and_threads.md R237, R259, R260): elements of a
vector register, scalar and mask registers, the enabled elements and the write of VD.
-/

namespace Sys2Proof

/-- The element width of a format code, in bits (R260). -/
def fmtBits (fmt : Nat) : Nat :=
  match fmt with
  | 0 => 32
  | 1 => 16
  | 2 => 8
  | 3 => 8
  | 4 => 32
  | 5 => 16
  | 6 => 16
  | _ => 32

/-- The elements a register holds in a format. -/
def fmtCount (fmt : Nat) : Nat := 512 / fmtBits fmt

/-- A format code is one of the integer formats I32, I16, I8, U8. -/
def fmtInt (fmt : Nat) : Bool := decide (fmt ≤ 3)

/-- A format code is FP32, FP16 or BF16. -/
def fmtFp (fmt : Nat) : Bool := decide (4 ≤ fmt ∧ fmt ≤ 6)

/-- The floating-point format of a code. -/
def fmtOf (fmt : Nat) : Fmt := if fmt = 5 then Fmt.fp16 else if fmt = 6 then Fmt.bf16 else Fmt.fp32

/-- Smallest and largest integer of a format code. -/
def fmtLo (fmt : Nat) : Int := if fmt = 3 then 0 else -((2 ^ (fmtBits fmt - 1) : Nat) : Int)
def fmtHi (fmt : Nat) : Int :=
  if fmt = 3 then 255 else ((2 ^ (fmtBits fmt - 1) : Nat) : Int) - 1

/-- An element read as an integer of its format: U8 unsigned, the others signed. -/
def elemInt (fmt x : Nat) : Int := if fmt = 3 then ((x % 256 : Nat) : Int) else sint (fmtBits fmt) x

/-- Element `e` of a register, of width `b` (R260). -/
def elemAt (b : Nat) (r : W512) (e : Nat) : Nat := bits r.toNat (e * b) b

/-- The register whose elements of width `b`, lowest first, are given. -/
def ofElems (b : Nat) : List Nat → Nat
  | [] => 0
  | x :: xs => x % 2 ^ b + 2 ^ b * ofElems b xs

/-- Write the enabled elements of a register: a disabled element keeps its value, or is set to 0 under MZ (R260). -/
def writeElems (fmt : Nat) (mask : W64) (mz : Bool) (old : W512) (f : Nat → Nat) : W512 :=
  let b := fmtBits fmt
  BitVec.ofNat 512 (ofElems b ((List.range (fmtCount fmt)).map (fun e =>
    if mask.toNat.testBit e then f e else if mz then 0 else elemAt b old e)))

/-- The flags that the enabled elements set. -/
def elemFlags (fmt : Nat) (mask : W64) (f : Nat → Nat) : Nat :=
  (List.range (fmtCount fmt)).foldl (fun fl e => if mask.toNat.testBit e then fl ||| f e else fl) 0

/-- One bit per element into a mask register: bits of disabled elements keep their value, or are 0 under MZ. -/
def writeMask (fmt : Nat) (mask : W64) (mz : Bool) (old : W64) (f : Nat → Bool) : W64 :=
  BitVec.ofNat 64 ((List.range 64).foldl (fun m e =>
    let b := if e < fmtCount fmt then
        (if mask.toNat.testBit e then f e else if mz then false else old.toNat.testBit e)
      else old.toNat.testBit e
    m + b2n b * 2 ^ e) 0)

namespace Machine

/-! ### Registers of a thread (Table 9-1) -/

def VThread.rdVx (t : VThread) (r : Nat) : W512 := SMap.get (fun _ => 0#512) t.vx r
def VThread.wrVx (t : VThread) (r : Nat) (v : W512) : VThread := { t with vx := SMap.put (fun _ => 0#512) t.vx r v }
/-- SX0 reads 0. -/
def VThread.rdSx (t : VThread) (r : Nat) : W64 := if r = 0 then 0#64 else SMap.get (fun _ => 0#64) t.sx r
/-- SX0 ignores writes. -/
def VThread.wrSx (t : VThread) (r : Nat) (v : W64) : VThread :=
  if r = 0 then t else { t with sx := SMap.put (fun _ => 0#64) t.sx r v }
/-- MK0 reads all ones. -/
def VThread.rdMk (t : VThread) (r : Nat) : W64 := if r = 0 then (BitVec.allOnes 64) else SMap.get (fun _ => 0#64) t.mask r
/-- MK0 ignores writes. -/
def VThread.wrMk (t : VThread) (r : Nat) (v : W64) : VThread :=
  if r = 0 then t else { t with mask := SMap.put (fun _ => 0#64) t.mask r v }

/-- IMM as a signed number. -/
def immInt (imm : BitVec 24) : Int := sint 24 imm.toNat

/-- An unsigned IMM field. -/
def immF (v : VecInstr) (lo w : Nat) : Nat := bits v.imm.toNat lo w

/-- The enabled elements: the mask register's bits. -/
def enabled (s : State) (v : VecInstr) : W64 := (s.thr v.core v.slot).rdMk v.mreg

/-- A vector source register. -/
def vx (s : State) (v : VecInstr) (r : Nat) : W512 := (s.thr v.core v.slot).rdVx r

/-- A scalar source register. -/
def sx (s : State) (v : VecInstr) (r : Nat) : W64 := (s.thr v.core v.slot).rdSx r

/-! ### Thread slots -/

/-- The state of a slot: 0 FREE, 1 READY, 2 WAIT_MEM, 3 WAIT_SYNC, 4 WAIT_TIME, 5 TRAPPED. -/
def State.slotState (s : State) (c j : Nat) : Nat := s.getF (Reg.CC_VT_SLOT_STATE c j)

/-- OR flags into TSTAT; they are sticky (R262). -/
def State.orTstat (s : State) (c j fl : Nat) : State :=
  s.setF (Reg.CC_VT_SLOT_TSTAT c j) (s.getF (Reg.CC_VT_SLOT_TSTAT c j) ||| fl)

/-- Advance or set the PC, 12 bits. -/
def State.setPc (s : State) (c j pc : Nat) : State := s.setF (Reg.CC_VT_SLOT_PC c j) pc

/-- A thread stops by a trap: a free thread is TRAPPED with DEGRADED.0x801, a stage thread is lost with UNIT.0x802
(R240, R244, Table 9-15). -/
def State.trap (s : State) (c j cause : Nat) : State :=
  let pc := s.getF (Reg.CC_VT_SLOT_PC c j)
  let s1 := ((s.setF (Reg.CC_VT_SLOT_STATE c j) 5).setF (Reg.CC_VT_SLOT_CAUSE c j) cause).onThr c j
    (fun t => { t with wait := .none })
  if s1.flag (Reg.CC_VT_SLOT_STAGE c j) then s1.loseThread c j cause
  else s1.report 1 0x801 (uThread c j) [(16, pc), (4, cause)]

/-- A thread can issue: its core is ON, its slot READY (R241), and no store is owed that a completed wait put before its next instruction
(R248). -/
def State.canIssue (s : State) (v : VecInstr) : Bool :=
  s.domOn v.core && s.slotState v.core v.slot == 1 &&
  !(s.thr v.core v.slot).fence.any (fun id => s.held.any (fun h => h.id == id))

/-- The fields every instruction checks: the reserved bits and the reserved FMT code (R259). -/
def wellEncoded (v : VecInstr) : Bool := v.rsv == 0 && v.fmt != 7

/-- The address that CORRECTED.0x803 and Table 18-5 give: the instruction's index, or a register error of the slot. -/
def eccWhere (s : State) (v : VecInstr) : Nat :=
  if v.eccInstr then 2 ^ 15 + s.getF (Reg.CC_VT_SLOT_PC v.core v.slot) else 0

/-- The word of Table 9-6 for operation `k`, which is CLS + 8 · OP, with a command's fields. -/
def vecWord (v : VecInstr) (k : Nat) : W64 :=
  BitVec.ofNat 64 (k + v.vd.val * 2 ^ 8 + v.va.val * 2 ^ 13 + v.vb.val * 2 ^ 18 + v.vc.val * 2 ^ 23 + v.mreg.val * 2 ^ 28 +
    b2n v.mz * 2 ^ 31 + v.fmt.val * 2 ^ 32 + v.rsv.val * 2 ^ 35 + v.imm.toNat * 2 ^ 40)

/-- The instruction that a slot's PC names in its core's instruction memory (R259, R571). -/
def State.nextInstr (s : State) (c j : Nat) : W64 :=
  s.word (0x1000000 + 0x100000 * c + 0xC0000 + 8 * s.getF (Reg.CC_VT_SLOT_PC c j))

/-- The operations that a class lists (Table 9-7). -/
def opCount (cls : Nat) : Nat := [12, 10, 12, 3, 7, 9, 12, 11].getD cls 0

/-- A word whose CLS and OP are reserved (Table 9-7). -/
def reservedOp (w : W64) : Bool := decide (opCount (bits w.toNat 0 3) ≤ bits w.toNat 3 5)

/-- Issue an instruction (R241, R242, R259): nothing happens unless the thread can issue and its next instruction is the command's, of
operation `k` (DESIGN CHOICE, log entry 97); a next instruction with a reserved CLS and OP traps with cause 0 whatever command comes.
An uncorrectable error of a register or of the instruction traps with cause 3, a reserved encoding with cause 0; otherwise the PC
advances and the body acts. `legal` is the instruction's own check of its fields. -/
def State.issue (s : State) (v : VecInstr) (k : Nat) (legal : Bool) (body : State → State) : State :=
  if !s.canIssue v then s
  else if s.nextInstr v.core v.slot ≠ vecWord v k then
    (if reservedOp (s.nextInstr v.core v.slot) then s.trap v.core v.slot 0 else s)
  else if v.ecc = .double then s.trap v.core v.slot 3
  else
    let s1 := if v.ecc = .single then s.report 0 0x803 (uThread v.core v.slot) [(16, eccWhere s v)] else s
    if !wellEncoded v || !legal then s1.trap v.core v.slot 0
    else body (s1.setPc v.core v.slot (s1.getF (Reg.CC_VT_SLOT_PC v.core v.slot) + 1))

/-- The elements of VD that an instruction writes, and how: its mask register, MZ and FMT. -/
def destForm (v : VecInstr) : DestForm := ⟨v.mreg, v.mz, v.fmt⟩

/-- The low `n` bits of a vector register take data, in the enabled elements only (R260). -/
def VThread.putLow (t : VThread) (d : DestForm) (vd n x : Nat) : VThread :=
  let old := t.rdVx vd
  let b := fmtBits d.fmt
  t.wrVx vd (writeElems d.fmt (t.rdMk d.mreg) d.mz old (fun e => if e * b < n then bits x (e * b) b else elemAt b old e))

/-- Write VD element by element under the mask, with the flags the enabled elements set. -/
def State.writeVd (s : State) (v : VecInstr) (f : Nat → Flagged) : State :=
  let m := enabled s v
  let t := s.thr v.core v.slot
  let r := writeElems v.fmt m v.mz (t.rdVx v.vd) (fun e => (f e).1)
  (s.putThr v.core v.slot (t.wrVx v.vd r)).orTstat v.core v.slot (elemFlags v.fmt m (fun e => (f e).2))

/-- Write the mask register VD, one bit per element (CMP, FCMP). -/
def State.writeMd (s : State) (v : VecInstr) (f : Nat → Bool × Nat) : State :=
  let m := enabled s v
  let t := s.thr v.core v.slot
  let r := writeMask v.fmt m v.mz (t.rdMk v.vd) (fun e => (f e).1)
  (s.putThr v.core v.slot (t.wrMk v.vd r)).orTstat v.core v.slot (elemFlags v.fmt m (fun e => (f e).2))

/-- Write a scalar register of the issuing thread. -/
def State.writeSd (s : State) (v : VecInstr) (r : Nat) (x : W64) : State :=
  s.onThr v.core v.slot (fun t => t.wrSx r x)

end Machine
end Sys2Proof
end

