-- ==== Sys2Proof/Machine/Sync.lean ====
section
/-!
DEFINITION. Barriers, message queues, Almanac waits and the control of thread slots (spec/09 R238 to R240, R252 to
R258; spec/22 R550; spec/23 R575, R576), and the scalar instructions of class 7.
-/

namespace Sys2Proof.Machine

/-! ### Waits -/

/-- A thread's wait ends: it becomes READY, which ends its core's quiescence (R495). -/
def State.wake (s : State) (c j : Nat) : State :=
  ((s.setF (Reg.CC_VT_SLOT_STATE c j) 1).onThr c j (fun t => { t with wait := .none })).busyCore c

/-- A thread begins a wait in a slot state (2 WAIT_MEM, 3 WAIT_SYNC, 4 WAIT_TIME). -/
def State.sleep (s : State) (c j st : Nat) (w : ThreadWait) : State :=
  (s.setF (Reg.CC_VT_SLOT_STATE c j) st).onThr c j (fun t => { t with wait := w })

/-- Write a scalar register of a thread. -/
def State.putSx (s : State) (c j r : Nat) (x : Nat) : State := s.onThr c j (fun t => t.wrSx r (BitVec.ofNat 64 x))

/-- Forget a thread in the orders of queue waiters, and the answer that a wait at a joined device still brings. -/
def State.dropWaiter (s : State) (c j : Nat) : State :=
  s.setSync { s.sync with recvs := s.sync.recvs.filter (fun w => w.2 != (c, j)),
                          sends := s.sync.sends.filter (fun w => w.2 != (c, j)),
                          farLate := match (s.thr c j).wait with
                            | .remote _ _ _ d _ => s.sync.farLate ++ [(c * 16 + j, d)]
                            | _ => s.sync.farLate }

/-- A completion acts as if followed by FENCE ALL: the thread's next instruction waits for the stores that are not visible yet (R248). -/
def State.fenceAll (s : State) (c j : Nat) : State :=
  if s.storesOwed c j then
    s.onThr c j (fun t => { t with fence := (s.held.filter (fun h => h.data.isSome &&
      decide ((s.reqOf h.id).dest = .store c j))).map (fun h => h.id) })
  else s

/-- Issue an instruction that acts as if preceded by FENCE ALL: while a store of the thread is not visible, nothing happens (R246,
R248; DESIGN CHOICE, log entry 114). -/
def State.issueFenced (s : State) (v : VecInstr) (k : Nat) (legal : Bool) (body : State → State) : State :=
  if s.storesOwed v.core v.slot then s else s.issue v k legal body

/-! ### Barriers (R252 to R254) -/

/-- Answer a wait of a joined device with the value of its result register (R402). -/
def State.farReply (s : State) (w : FarWait) (v : Nat) : State :=
  s.emit (.service w.link w.dev 4 0 (leBytes 8 v) w.req)

/-- The deadline of a wait of a joined device has passed. -/
def State.farPast (s : State) (w : FarWait) : Bool := w.deadline != 0 && decide (w.deadline ≤ s.now)

/-- The waits and blocking sends of joined devices whose deadline has passed are answered TIMEOUT (R253, R256, R402). -/
def State.expireFar (s : State) : State :=
  let s1 := (s.sync.farBar.filter s.farPast).foldl (fun s w => s.farReply w (1 + s.getF (Reg.MGT_BAR_GEN w.target) * 2 ^ 16))
    (s.setSync { s.sync with farBar := s.sync.farBar.filter (fun w => !s.farPast w),
                             farSend := s.sync.farSend.filter (fun w => !s.farPast w) })
  (s.sync.farSend.filter s.farPast).foldl (fun s w => s.farReply w 3) s1

/-- Release the waits of joined devices on a barrier whose generation has passed; one past its deadline is answered
TIMEOUT (R253, R402). -/
def State.releaseFar (s : State) (b gen : Nat) : State :=
  let hit := fun (w : FarWait) => w.target == b && w.gen != gen
  (s.sync.farBar.filter hit).foldl (fun s w => s.farReply w (b2n (s.farPast w) + gen * 2 ^ 16))
    (s.setSync { s.sync with farBar := s.sync.farBar.filter (fun w => !hit w) })

/-- Release every wait on a barrier whose generation has passed, with status RELEASED and the generation (R253). -/
def State.releaseBar (s : State) (b : Nat) : State :=
  let gen := s.getF (Reg.MGT_BAR_GEN b)
  (s.threads.foldl (fun s e =>
    match e.2.wait with
    | .bar b' g _ vd =>
      if b' = b ∧ g ≠ gen then ((s.putSx (e.1 / 16) (e.1 % 16) vd (gen * 2 ^ 16)).wake (e.1 / 16) (e.1 % 16)).fenceAll (e.1 / 16) (e.1 % 16) else s
    | _ => s) s).releaseFar b gen

/-- One arrival at a barrier (R252). -/
def State.arriveBar (s : State) (b : Nat) : State :=
  let n := s.getF (Reg.MGT_BAR_ARRIVED b) + 1
  if n ≥ s.getF (Reg.MGT_BAR_EXPECT b) then
    ((s.setF (Reg.MGT_BAR_ARRIVED b) 0).addF (Reg.MGT_BAR_GEN b) 1).releaseBar b
  else s.setF (Reg.MGT_BAR_ARRIVED b) n

/-- CORRECTED.0x805: a rejected control write, with the value written (Table 9-15). -/
def State.controlReject (s : State) (unit v : Nat) : State := s.report 0 0x805 unit [(32, v)]

/-- A deadline that has passed; 0 stands for none. -/
def deadlinePast (s : State) (d : Nat) : Bool := d != 0 && decide (d ≤ s.now)

/-- Wait out a generation (R253): RELEASED at once when it has passed, TIMEOUT at a deadline already reached. -/
def State.waitBar (s : State) (v : VecInstr) (b gen deadline : Nat) : State :=
  let cur := s.getF (Reg.MGT_BAR_GEN b)
  if cur ≠ gen then (s.putSx v.core v.slot v.vd (cur * 2 ^ 16)).fenceAll v.core v.slot
  else if deadlinePast s deadline then s.putSx v.core v.slot v.vd (1 + cur * 2 ^ 16)
  else s.sleep v.core v.slot 3 (.bar b gen deadline v.vd)

/-- A synchronising request to another device: the thread waits for its response; a request that no link carries leaves
a free value in its register (R402, R413, DESIGN CHOICE, log entry 2). -/
def State.remoteSync (s : State) (v : VecInstr) (d op kind : Nat) (data : List Byte) (deadline : Nat) : State :=
  let r := s.serviceSend d op kind data (v.core.val * 16 + v.slot.val)
  if r.2 then r.1.sleep v.core v.slot 3 (.remote (if kind < 64 then 3 else 4) v.vd deadline d (s.getF (Reg.QSK_ROUTE_LINK d)))
  else (r.1.putSx v.core v.slot v.vd r.1.freeVal.toNat).freeNext

/-- The barrier operation `op` (0 ARRIVE, 1 WAIT, 2 SYNC) of a thread (R253). ARRIVE waits for nothing, and returns the generation that it
arrived in: in bits [15:0], a place that R253 gives for waits only (DESIGN CHOICE, log entry 21). -/
def State.barOp (s : State) (v : VecInstr) (op : Nat) : State :=
  let a := (sx s v v.va).toNat
  let b := bits a 0 6
  let d := bits a 8 6
  let gen := (sx s v v.vb).toNat % 2 ^ 16
  let deadline := (sx s v v.vc).toNat
  if d ≠ s.getF Reg.MGT_DEVNUM then
    s.remoteSync v d (16 + op) b (leBytes 2 gen ++ leBytes 8 deadline) (if op = 0 then 0 else deadline)
  else
    let g0 := s.getF (Reg.MGT_BAR_GEN b)
    match op with
    | 0 => (s.arriveBar b).putSx v.core v.slot v.vd g0
    | 1 => s.waitBar v b gen deadline
    | _ => (s.arriveBar b).waitBar v b g0 deadline

/-- A BAR of operation `op`, or of the reserved operation 3, which traps (R253, R259). One that arrives waits until the thread's stores
are visible (R248; DESIGN CHOICE, log entry 114). -/
def State.issueBar (s : State) (v : VecInstr) (op : Nat) : State :=
  let o := immF v 0 2
  if (o = op ∨ o = 3) ∧ ¬ (o ≠ 1 ∧ s.storesOwed v.core v.slot) then s.issue v 39 (o != 3) (fun s => s.barOp v op) else s

def execBarArrive (v : VecInstr) (s : State) : Out := .next (s.issueBar v 0)
def execBarWait (v : VecInstr) (s : State) : Out := .next (s.issueBar v 1)
def execBarSync (v : VecInstr) (s : State) : Out := .next (s.issueBar v 2)

/-- MGT_BARnn_ARRIVE (R252). -/
def execMgtBarArrive (b : Fin 64) (w : WriteReq) (s : State) : Out :=
  .next (s.gatedAct w.agent w.half (Reg.MGT_BAR_ARRIVE b).off (fun s =>
    if wBit w (Reg.MGT_BAR_ARRIVE b) then s.arriveBar b else s))

/-- A write of EXPECT: accepted only while ARRIVED is 0 and within 1 to 1,023 (R254). -/
def State.writeExpect (b : Nat) (w : WriteReq) (s : State) : State :=
  match wField w (Reg.MGT_BAR_EXPECT b) with
  | none => s
  | some x =>
    if s.getF (Reg.MGT_BAR_ARRIVED b) ≠ 0 ∨ x < 1 then s.controlReject (uBar b) (written w)
    else s.setF (Reg.MGT_BAR_EXPECT b) x

def execMgtBarExpect (b : Fin 64) (w : WriteReq) (s : State) : Out :=
  .next (s.gated w.agent w.half (Reg.MGT_BAR_EXPECT b).off (State.writeExpect b w))

/-! ### Message queues (R255 to R257, R550) -/

/-- The messages of a queue, oldest first. -/
def State.queue (s : State) (q : Nat) : List (List Byte) := SMap.get (fun _ => []) s.sync.queues q

/-- Replace a queue's messages; COUNT follows. -/
def State.putQueue (s : State) (q : Nat) (ms : List (List Byte)) : State :=
  (s.setSync { s.sync with queues := SMap.put (fun _ => []) s.sync.queues q ms }).setF (Reg.MGT_MQ_COUNT q) ms.length

/-- The messages a depth code stands for: 4 to 256 for codes 0 to 6 (R255). -/
def depthOf (code : Nat) : Nat := 4 * 2 ^ code

/-- ENABLE of a queue. -/
def State.qEnabled (s : State) (q : Nat) : Bool := s.flag (Reg.MGT_MQ_CFG_ENABLE q)

/-- A queue holds as many messages as its depth. -/
def State.qFull (s : State) (q : Nat) : Bool := decide (depthOf (s.getF (Reg.MGT_MQ_CFG_DEPTH q)) ≤ (s.queue q).length)

/-- A message of 32 bytes: SOURCE, zeros, ENQ_TIME and PAYLOAD (Table 9-4). -/
def mkMessage (source time : Nat) (payload : List Byte) : List Byte :=
  leBytes 2 source ++ leBytes 6 0 ++ leBytes 8 time ++ sliceB payload 0 16

/-- SOURCE of a kind and an index. -/
def sourceOf (kind idx : Nat) : Nat := kind * 2 ^ 13 + idx

/-- Give a message to a thread in QRECV: the enabled elements of its 32 bytes in VX[VD] (R260), and status
RECEIVED. -/
def State.giveMessage (s : State) (c j : Nat) (m : List Byte) : State :=
  match (s.thr c j).wait with
  | .qrecv _ _ vd vb form =>
    let s1 := s.onThr c j (fun t => (t.putLow form vd 256 (ofLe m)).wrSx vb 0#64)
    ((s1.dropWaiter c j).wake c j).fenceAll c j
  | _ => s

/-- The queue unit accepts a message (R256): it goes to the thread that began waiting first, or into the queue. -/
def State.acceptMsg (s : State) (q : Nat) (m : List Byte) : State :=
  match s.sync.recvs.find? (fun w => w.1 == q) with
  | some w => s.giveMessage w.2.1 w.2.2 m
  | none => s.putQueue q (s.queue q ++ [m])

/-- The first blocking send of a joined device sends; those past their deadline are answered TIMEOUT (R256, R402). -/
def State.admitFar (s : State) (q : Nat) : State :=
  let old := s.sync.farSend.filter (fun w => w.target == q && s.farPast w)
  let s1 := old.foldl (fun s w => s.farReply w 3)
    (s.setSync { s.sync with farSend := s.sync.farSend.filter (fun w => !(w.target == q && s.farPast w)) })
  match s1.sync.farSend.find? (fun w => w.target == q) with
  | none => s1
  | some w =>
    ((s1.setSync { s1.sync with farSend := s1.sync.farSend.filter (fun x => !decide (x = w)) }).acceptMsg q
      (mkMessage (sourceOf 4 w.dev) s1.now w.payload)).farReply w 0

/-- Room has appeared in a queue: the first thread in a blocking QSEND sends, before those of joined devices (R256). -/
def State.admitSender (s : State) (q : Nat) : State :=
  match s.sync.sends.find? (fun w => w.1 == q) with
  | none => s.admitFar q
  | some w =>
    match (s.thr w.2.1 w.2.2).wait with
    | .qsend _ payload _ vd =>
      let s1 := (s.dropWaiter w.2.1 w.2.2).acceptMsg q
        (mkMessage (sourceOf 0 (w.2.1 * 16 + w.2.2)) s.now payload)
      (s1.putSx w.2.1 w.2.2 vd 0).wake w.2.1 w.2.2
    | _ => s.dropWaiter w.2.1 w.2.2

/-- Remove the head message of a queue. -/
def State.popQueue (s : State) (q : Nat) : State × Option (List Byte) :=
  match s.queue q with
  | [] => (s, none)
  | m :: ms => ((s.putQueue q ms).admitSender q, some m)

/-- Send to a local queue: 0 SENT, 1 FULL, 2 DISABLED. -/
def State.trySend (s : State) (q source : Nat) (payload : List Byte) : State × Nat :=
  if !s.qEnabled q then (s, 2)
  else if s.qFull q then (s, 1)
  else (s.acceptMsg q (mkMessage source s.now payload), 0)

/-- The 16-byte payload of a thread's message: SX[VB] then SX[VC]. -/
def sendPayload (s : State) (v : VecInstr) : List Byte :=
  leBytes 8 (sx s v v.vb).toNat ++ leBytes 8 (sx s v v.vc).toNat

/-- QSEND (R256). A disabled queue answers 2 in either mode (DESIGN CHOICE, log entry 21). It waits until
the thread's stores are visible (R248). -/
def execQsend (v : VecInstr) (s : State) : Out :=
  .next (s.issueFenced v 47 true (fun s =>
    let a := (sx s v v.va).toNat
    let q := bits a 0 8
    let d := bits a 8 6
    let deadline := (sx s v v.vd).toNat
    if d ≠ s.getF Reg.MGT_DEVNUM then
      s.remoteSync v d (20 + immF v 0 1) (64 + q) (sendPayload s v ++ leBytes 8 deadline) (if immF v 0 1 = 1 then deadline else 0)
    else
      let r := s.trySend q (sourceOf 0 (v.core.val * 16 + v.slot.val)) (sendPayload s v)
      if r.2 = 1 ∧ immF v 0 1 = 1 then
        if deadline ≤ s.now then s.putSx v.core v.slot v.vd 3
        else
          (s.sleep v.core v.slot 3 (.qsend q (sendPayload s v) deadline v.vd)).setSync
            { s.sync with sends := s.sync.sends ++ [(q, v.core.val, v.slot.val)] }
      else r.1.putSx v.core v.slot v.vd r.2))

/-- QRECV (R256): the head message at once, or a wait; a disabled queue with no message answers DISABLED. -/
def execQrecv (v : VecInstr) (s : State) : Out :=
  .next (s.issue v 55 true (fun s =>
    let q := bits (sx s v v.va).toNat 0 8
    let deadline := (sx s v v.vc).toNat
    if !s.qEnabled q then s.putSx v.core v.slot v.vb 2
    else match s.queue q with
      | [] =>
        if deadlinePast s deadline then s.putSx v.core v.slot v.vb 3
        else
          (s.sleep v.core v.slot 3 (.qrecv q deadline v.vd v.vb (destForm v))).setSync
            { s.sync with recvs := s.sync.recvs ++ [(q, v.core.val, v.slot.val)] }
      | m :: _ =>
        let s1 := (s.sleep v.core v.slot 3 (.qrecv q deadline v.vd v.vb (destForm v))).giveMessage v.core v.slot m
        (s1.popQueue q).1))

/-- A configuration write takes effect only while the queue is disabled and empty, with a DEPTH code up to 6, and when
the enabled depths total 8,192 or fewer (R255). -/
def State.writeMqCfg (q : Nat) (w : WriteReq) (s : State) : State :=
  match wField w (Reg.MGT_MQ_CFG_ENABLE q), wField w (Reg.MGT_MQ_CFG_DEPTH q) with
  | some en, some d =>
    let total := ((List.range 256).filter (fun i => i != q && s.qEnabled i)).foldl
      (fun n i => n + depthOf (s.getF (Reg.MGT_MQ_CFG_DEPTH i))) (if en = 1 then depthOf d else 0)
    if s.qEnabled q ∨ (s.queue q).length ≠ 0 ∨ d = 7 ∨ 8192 < total then
      s.controlReject (uQueue q) (written w)
    else (s.setF (Reg.MGT_MQ_CFG_ENABLE q) en).setF (Reg.MGT_MQ_CFG_DEPTH q) d
  | _, _ => s

def execMqCfg (q : Fin 256) (w : WriteReq) (s : State) : Out :=
  .next (s.gated w.agent w.half (Reg.MGT_MQ_CFG_ENABLE q).off (State.writeMqCfg q w))

/-- The part of a 64-bit word that an access covers. -/
def halfOf (h : Half) (x : Nat) : Nat := (BitVec.ofNat 64 x &&& halfMask h).toNat

/-- A read of POP word `k` (R550): word 0, when its low half is covered, takes the head message into the reader's latch;
every other read returns the latch. -/
def State.readPop (s : State) (a : Agent) (h : Half) (q k : Nat) : State × W64 :=
  let key := agentIdx a * 256 + q
  let get := fun (s : State) => SMap.get (fun _ => List.replicate 32 (0#8)) s.sync.popLatch key
  let s1 :=
    if k = 0 ∧ coversLo h then
      let r := s.popQueue q
      let l := r.2.getD (List.replicate 32 (0xFF#8))
      r.1.setSync { r.1.sync with popLatch := SMap.put (fun _ => List.replicate 32 (0#8)) r.1.sync.popLatch key l }
    else s
  (s1, BitVec.ofNat 64 (halfOf h (fieldLe (get s1) (8 * k) 8)))

def execMgtMqPop (q : Fin 256) (k : Fin 4) (r : ReadReq) (s : State) : Out :=
  let x := s.readPop r.agent r.half q k
  .next (x.1.answer .ok x.2)

/-- SOURCE that the hardware fills for a pushing agent (R550); for the debug unit the manual names none, and SOURCE is
a free value (DESIGN CHOICE, log entry 2). -/
def State.pushSource (s : State) (a : Agent) : Nat :=
  match a with
  | .steward => sourceOf 2 0
  | .hart h => sourceOf 1 h
  | .pcie => sourceOf 1 4
  | .thread c j => sourceOf 0 (c.val * 16 + j.val)
  | .debug => s.freeVal.toNat % 2 ^ 16

/-- Replace the covered part of bytes [i + 7 : i] of a latch. -/
def stageBytes (bs : List Byte) (i : Nat) (w : WriteReq) : List Byte :=
  let old := BitVec.ofNat 64 (fieldLe bs i 8)
  let m := halfMask w.half
  sliceB bs 0 i ++ leBytes 8 ((old &&& ~~~m) ||| (w.value &&& m)).toNat ++ (bs.drop (i + 8))

/-- A write of PUSH word `k` (R550): words 2 and 3 stage the payload, and a write that covers the top of word 3
enqueues; a full or disabled queue counts a drop. -/
def State.writePush (q k : Nat) (w : WriteReq) (s : State) : State :=
  if k < 2 then s
  else
    let key := agentIdx w.agent * 256 + q
    let d : Nat → List Byte := fun _ => List.replicate 16 (0#8)
    let l := stageBytes (SMap.get d s.sync.pushLatch key) (8 * (k - 2)) w
    let s1 := s.setSync { s.sync with pushLatch := SMap.put d s.sync.pushLatch key l }
    if k = 3 ∧ coversHi w.half then
      let r := s1.trySend q (s1.pushSource w.agent) l
      let s2 := if r.2 = 0 then r.1 else r.1.addSat Reg.MGT_MQ_PUSHDROP 1
      if w.agent = .debug then s2.freeNext else s2
    else s1

def execMgtMqPush (q : Fin 256) (k : Fin 4) (w : WriteReq) (s : State) : Out :=
  .next (s.gated w.agent w.half (Reg.MGT_MQ_PUSH q k).off (State.writePush q k w))

def execMgtMqPushdropRead (r : ReadReq) (s : State) : Out :=
  let x := s.readRc r.half Reg.MGT_MQ_PUSHDROP
  .next (x.1.answer .ok x.2)

/-! ### Instants (R258) -/

/-- AWAIT: an instant already reached continues at once. -/
def execAwait (v : VecInstr) (s : State) : Out :=
  .next (s.issue v 63 true (fun s =>
    let t := (sx s v v.va).toNat
    if t ≤ s.now then s else s.sleep v.core v.slot 4 (.time t)))

/-- The instant at which a thread's wait ends by itself. -/
def waitInstant : ThreadWait → Option Nat
  | .time t => some t
  | .bar _ _ d _ => if d = 0 then none else some d
  | .qsend _ _ d _ => some d
  | .qrecv _ d _ _ _ => if d = 0 then none else some d
  | .remote _ _ d _ _ => if d = 0 then none else some d
  | _ => none

/-- What a passed instant does to a waiting thread: its status is written; it becomes READY when its core is ON, and at
the core's next entry to ON otherwise (R258). The generation that a remote barrier has at the deadline is not known here: it is a free
value (DESIGN CHOICE, log entry 2). -/
def State.expireThread (s : State) (c j : Nat) : State :=
  let t := s.thr c j
  match waitInstant t.wait with
  | none => s
  | some d =>
    if s.now < d then s
    else
      let s1 := match t.wait with
        | .bar b _ _ vd => s.putSx c j vd (1 + s.getF (Reg.MGT_BAR_GEN b) * 2 ^ 16)
        | .qsend _ _ _ vd => (s.dropWaiter c j).putSx c j vd 3
        | .qrecv _ _ _ vb _ => (s.dropWaiter c j).putSx c j vb 3
        | .remote op r _ _ _ =>
          let s2 := s.dropWaiter c j
          if op = 3 then (s2.putSx c j r (1 + s2.freeVal.toNat % 2 ^ 16 * 2 ^ 16)).freeNext else s2.putSx c j r 3
        | _ => s
      if s1.domOn c then s1.wake c j
      else s1.onThr c j (fun t => { t with wait := .time d })

/-- End every wait whose instant has passed (R56, R258). -/
def State.expireAll (s : State) : State :=
  (s.threads.foldl (fun s e => s.expireThread (e.1 / 16) (e.1 % 16)) s).expireFar

/-- End the passed waits of one core's threads (at its entry to ON, R258). -/
def State.expireCore (s : State) (c : Nat) : State :=
  (List.range 16).foldl (fun s j => s.expireThread c j) s

/-- AWAIT_EXPIRY: the Almanac reaches the thread's AWAIT instant. -/
def execAwaitExpiry (c : Fin 32) (j : Fin 16) (s : State) : Out :=
  match (s.thr c j).wait with
  | .time t => .next ((s.reach t).expireThread c j)
  | _ => .next s

/-- WAIT_DEADLINE: a BAR, QSEND or QRECV deadline passes. -/
def execWaitDeadline (c : Fin 32) (j : Fin 16) (s : State) : Out :=
  match (s.thr c j).wait with
  | .time _ => .next s
  | w =>
    match waitInstant w with
    | some d => .next ((s.reach d).expireThread c j).expireFar
    | none => .next s

/-! ### Scalar instructions (Table 9-7, class 7) -/

/-- The operations of SOP: 64-bit, wrapping, shift amounts mod 64. -/
def sopFn (op : Nat) (a b : W64) : W64 :=
  match op with
  | 0 => a + b
  | 1 => a - b
  | 2 => a &&& b
  | 3 => a ||| b
  | 4 => a ^^^ b
  | 5 => a <<< (b.toNat % 64)
  | 6 => a >>> (b.toNat % 64)
  | 7 => a.sshiftRight (b.toNat % 64)
  | 8 => a * b
  | 9 => if a.slt b then 1#64 else 0#64
  | _ => if a.ult b then 1#64 else 0#64

/-- SOP: B is SX[VB], or IMM[19:4] sign-extended when IMM[23] is 1; operation codes above 10 are reserved. -/
def execSop (v : VecInstr) (s : State) : Out :=
  .next (s.issue v 7 (decide (immF v 0 4 ≤ 10)) (fun s =>
    let b := if immF v 23 1 = 1 then BitVec.ofInt 64 (sint 16 (immF v 4 16)) else sx s v v.vb
    s.writeSd v v.vd (sopFn (immF v 0 4) (sx s v v.va) b)))

/-- SLI: SX[VD] = IMM sign-extended. -/
def execSli (v : VecInstr) (s : State) : Out :=
  .next (s.issue v 15 true (fun s => s.writeSd v v.vd (BitVec.ofInt 64 (immInt v.imm))))

/-- The tests of BR: 0 EQ, 1 NE, 2 LT, 3 GE, 4 LTU, 5 GEU. -/
def brTest (fmt : Nat) (a b : W64) : Bool :=
  match fmt with
  | 0 => a == b
  | 1 => a != b
  | 2 => a.slt b
  | 3 => !a.slt b
  | 4 => a.ult b
  | _ => !a.ult b

/-- Branch from the issuing instruction's index by IMM. -/
def State.branch (s : State) (v : VecInstr) : State :=
  let pc : Int := (s.getF (Reg.CC_VT_SLOT_PC v.core v.slot) : Int) - 1 + immInt v.imm
  s.setPc v.core v.slot (uint 12 pc)

/-- BR: PC += IMM when the test holds. -/
def execBr (v : VecInstr) (s : State) : Out :=
  .next (s.issue v 23 (decide (v.fmt.val ≤ 5)) (fun s =>
    if brTest v.fmt (sx s v v.va) (sx s v v.vb) then s.branch v else s))

/-- JMP: SX[VD] = PC + 1; PC += IMM. -/
def execJmp (v : VecInstr) (s : State) : Out :=
  .next (s.issue v 31 true (fun s =>
    (s.writeSd v v.vd (BitVec.ofNat 64 (s.getF (Reg.CC_VT_SLOT_PC v.core v.slot)))).branch v))

/-- CSR: SX[VD] = TSTAT, then each 1 in IMM[6:0] clears that bit. -/
def execCsr (v : VecInstr) (s : State) : Out :=
  .next (s.issue v 87 true (fun s =>
    let f := Reg.CC_VT_SLOT_TSTAT v.core v.slot
    let x := s.getF f
    (s.writeSd v v.vd (BitVec.ofNat 64 x)).setF f (x &&& (127 - immF v 0 7))))

/-- FENCE (R246): a thread's loads complete before it goes on; kinds ST and ALL wait until its stores are visible; kind 0 is
reserved. -/
def execFence (v : VecInstr) (s : State) : Out :=
  .next (if immF v 0 2 = 1 then s.issue v 78 true (fun s => s) else s.issueFenced v 78 (immF v 0 2 != 0) (fun s => s))

/-! ### Thread slots (R238 to R240, R575, R576) -/

/-- A slot becomes FREE and its thread's records are dropped from every order of waiters. -/
def State.freeSlot (s : State) (c j : Nat) : State :=
  (((s.dropWaiter c j).setF (Reg.CC_VT_SLOT_STATE c j) 0).onThr c j (fun t => { t with wait := .none })).disownStores c j

/-- Start a thread in a FREE slot (R238). -/
def State.startSlot (s : State) (c j pc : Nat) (args : List Nat) : State :=
  let s1 := (((((s.setF (Reg.CC_VT_SLOT_STATE c j) 1).setF (Reg.CC_VT_SLOT_STAGE c j) 0).setF
    (Reg.CC_VT_SLOT_CAUSE c j) 0).setF (Reg.CC_VT_SLOT_TSTAT c j) 0).setF (Reg.CC_VT_SLOT_TAG c j) 0).setPc c j pc
  let t := args.zipIdx.foldl (fun (t : VThread) a => t.wrSx (a.2 + 1) (BitVec.ofNat 64 a.1)) {}
  (s1.putThr c j t).busyCore c

/-- Serve a start request (R238): 0 STARTED with the slot taken, 1 BUSY, 2 NO_SLOT for a slot that does not exist. -/
def State.startReq (s : State) (c slot pc : Nat) (args : List Nat) : State × Nat × Nat :=
  if !bit1 (s.getF Reg.MGT_CORE_MASK) c then (s, 2, 0)
  else if slot = 31 then
    match (List.range 16).find? (fun j => s.slotState c j == 0) with
    | some j => (s.startSlot c j pc args, 0, j)
    | none => (s, 1, 0)
  else if slot < 16 then
    if s.slotState c slot = 0 then (s.startSlot c slot pc args, 0, slot) else (s, 1, 0)
  else (s, 2, 0)

/-- TSTART: core SX[VA][4:0], slot SX[VA][12:8], entry SX[VB], arguments SX1 to SX4, status in SX[VD]. A core that is
OFF or GATED has no slots to start, and the status is then a free value (DESIGN CHOICE, log entry 2); one in RETAIN keeps its slots
(R241) and takes the request. -/
def execTstart (v : VecInstr) (s : State) : Out :=
  .next (s.issue v 71 true (fun s =>
    let a := (sx s v v.va).toNat
    let c := bits a 0 5
    let args := [1, 2, 3, 4].map (fun r => (sx s v r).toNat)
    if bit1 (s.getF Reg.MGT_CORE_MASK) c && !s.domHolds c then
      (s.writeSd v v.vd s.freeVal).freeNext
    else
      let r := s.startReq c (bits a 8 5) ((sx s v v.vb).toNat % 4096) args
      r.1.putSx v.core v.slot v.vd r.2.1))

/-- EXIT: a free thread's slot becomes FREE; a stage thread must not exit and is lost with cause 4 (R240). -/
def execExit (v : VecInstr) (s : State) : Out :=
  .next (s.issue v 79 true (fun s =>
    if s.flag (Reg.CC_VT_SLOT_STAGE v.core v.slot) then (s.loseThread v.core v.slot 4).freeSlot v.core v.slot
    else s.freeSlot v.core v.slot))

/-- An agent's copy of a core's start request. -/
def State.vtOf (s : State) (a : Agent) (c : Nat) : VtCopy := SMap.get (fun _ => {}) s.vtCopy (agentIdx a * 32 + c)
def State.putVt (s : State) (a : Agent) (c : Nat) (x : VtCopy) : State :=
  s.setVtCopy (SMap.put (fun _ => {}) s.vtCopy (agentIdx a * 32 + c) x)

/-- A write to CCnn_VT_START (R575): SLOT and PC go to the writer's copy, and GO submits it. The request is served
within the command (DESIGN CHOICE, log entry 22). -/
def State.writeVtStart (c : Nat) (w : WriteReq) (s : State) : State :=
  let x := s.vtOf w.agent c
  let x1 := if coversLo w.half then
      { x with slot := bits w.value.toNat 0 5, pc := bits w.value.toNat 16 12 } else x
  let s1 := s.putVt w.agent c x1
  if wBit w (Reg.CC_VT_START_GO c) then
    let r := s1.startReq c x1.slot x1.pc ([0, 1, 2, 3].map (fun k => (SMap.get (fun _ => 0#64) x1.args k).toNat))
    r.1.putVt w.agent c { x1 with status := r.2.1, taken := r.2.2 }
  else s1

def execVtStart (c : Fin 32) (w : WriteReq) (s : State) : Out :=
  .next (s.gatedAct w.agent w.half (Reg.CC_VT_START_GO c).off (State.writeVtStart c w))

/-- A KILL bit (R239, R576): it frees a slot that holds a free thread; for a stage thread it is ignored with
CORRECTED.0x805. -/
def State.killSlot (s : State) (c j v : Nat) : State :=
  let st := s.slotState c j
  if st = 0 then s
  else if s.flag (Reg.CC_VT_SLOT_STAGE c j) then s.controlReject (uThread c j) v
  else if st = 5 then s
  else s.freeSlot c j

/-- A FREE bit acts on a TRAPPED slot (R576). -/
def State.freeTrapped (s : State) (c j : Nat) : State := if s.slotState c j = 5 then s.freeSlot c j else s

/-- The KILL bits of a write to CCnn_VT_CTL. -/
def State.writeKill (c : Nat) (w : WriteReq) (s : State) : State :=
  match wField w (Reg.CC_VT_CTL_KILL c) with
  | none => s
  | some m => (List.range 16).foldl (fun s j => if bit1 m j then s.killSlot c j (written w) else s) s

/-- The FREE bits of a write to CCnn_VT_CTL. -/
def State.writeFree (c : Nat) (w : WriteReq) (s : State) : State :=
  match wField w (Reg.CC_VT_CTL_FREE c) with
  | none => s
  | some m => (List.range 16).foldl (fun s j => if bit1 m j then s.freeTrapped c j else s) s

def execVtKill (c : Fin 32) (w : WriteReq) (s : State) : Out :=
  .next (s.gatedAct w.agent w.half (Reg.CC_VT_CTL_KILL c).off (State.writeKill c w))

def execVtFree (c : Fin 32) (w : WriteReq) (s : State) : Out :=
  .next (s.gatedAct w.agent w.half (Reg.CC_VT_CTL_FREE c).off (State.writeFree c w))

/-- LOAD_DATA_ARRIVAL (R251): the data reach the register, a poisoned or uncorrectable word sets PS and makes the frame
of a stage thread's tag VOID with POISON, and the thread becomes READY. -/
def State.loadArrive (s : State) (c j : Nat) : State :=
  let t := s.thr c j
  match t.wait with
  | .load scalar r x ps =>
    let s1 := s.onThr c j (fun t => if scalar then t.wrSx r (x.truncate 64) else t.wrVx r x)
    let s2 := if ps then s1.orTstat c j 32 else s1
    let s3 := if ps && s2.flag (Reg.CC_VT_SLOT_STAGE c j) then
        s2.voidFrame t.pipe (s2.getF (Reg.CC_VT_SLOT_TAG c j) / 32) 3 else s2
    s3.wake c j
  | _ => s

def execLoadDataArrival (c : Fin 32) (j : Fin 16) (s : State) : Out :=
  if s.domHolds c then .next (s.loadArrive c j) else .next s

/-- THREAD_BUDGET (R240): a stage thread's count of cycles for a frame exceeds its budget: CORRECTED.0x806 once per
frame. -/
def execThreadBudget (c : Fin 32) (j : Fin 16) (fif : Fin 8) (cycles : Nat) (s : State) : Out :=
  let t := s.thr c j
  if s.flag (Reg.CC_VT_SLOT_STAGE c j) && t.counting.contains fif.val && !t.overrun.contains fif.val &&
      decide (t.budget < cycles) then
    .next ((s.reportF 0 0x806 (uThread c j) t.pipe fif [(16, cycles)]).onThr c j
      (fun t => { t with overrun := t.overrun ++ [fif.val] }))
  else .next s

end Sys2Proof.Machine
end

