-- ==== Sys2Proof/Machine/Endpoint.lean ====
section
/-!
DEFINITION. The endpoint table (spec/14 R371, R372, Tables 14-2 to 14-4), the grid instants of a beat machine (R47,
R51, R377) and the EXPOSE and STROBE launch ports (R24, R378, R379).
-/

namespace Sys2Proof.Machine

/-! ### Endpoint entries -/

/-- The 64 bytes in force of an entry. -/
def State.epBytes (s : State) (i : Nat) : List Byte :=
  (List.range 8).foldl (fun bs k => bs ++ leBytes 8 (s.getF (Reg.ETH_EP i k))) []

/-- A little-endian field of an entry. -/
def State.epF (s : State) (i pos n : Nat) : Nat := fieldLe (s.epBytes i) pos n

def State.epKind (s : State) (i : Nat) : Nat := s.epF i 0 1
def State.epPort (s : State) (i : Nat) : Nat := s.epF i 2 1
def State.epStream (s : State) (i : Nat) : Nat := s.epF i 32 2
def State.epScale (s : State) (i : Nat) : Nat := s.epF i 34 2
def State.epLead (s : State) (i : Nat) : Nat := s.epF i 36 4
/-- EXP_OFFSET of a CAMERA entry; DURATION of a LIGHT entry. -/
def State.epOffset (s : State) (i : Nat) : Nat := s.epF i 40 4
def State.epExposure (s : State) (i : Nat) : Nat := s.epF i 44 4

/-! ### The grid ahead of a beat machine -/

/-- Grid instant of the beat with total index `k`, at or after the next beat (R47, R51, R57). -/
def State.gridAt (s : State) (n k : Nat) : Nat :=
  let b := s.beat n
  b.gNext + (k - b.kTot) * s.getF (Reg.ALM_BM_PERIOD n)

/-- Rotation entry at a position (R377): bit 7 VALID and bits [5:0] a stream. -/
def State.rotEntry (s : State) (n i : Nat) : Nat := bits (s.getF (Reg.ING_ROT_ENT n (i / 8))) (8 * (i % 8)) 8

/-- The stream that the beat with total index `k` serves; none for an empty entry. -/
def State.serves (s : State) (n k : Nat) : Option Nat :=
  let b := s.beat n
  let e := s.rotEntry n ((b.pos + (k - b.kTot)) % max 1 (s.getF (Reg.ING_ROT_LEN n)))
  if bit1 e 7 then some (e % 64) else none

/-- EXPOSE and STROBE ports issue for the grid in these states (Table 2-4). -/
def exposing (st : Nat) : Bool := decide (1 ≤ st ∧ st ≤ 4)

/-- The launch instant of an endpoint's datagram for a target: the target less its lead (R24, R378). -/
def State.launchOf (s : State) (i target : Nat) : Nat := target - s.epLead i

/-- The first beat index whose launch instant, EXP_OFFSET and a lead before its grid instant, is `t` or later (R378). -/
def State.firstFrom (s : State) (n t offset lead : Nat) : Nat :=
  let b := s.beat n
  b.kTot + ceilDiv (t + offset + lead - b.gNext) (max 1 (s.getF (Reg.ALM_BM_PERIOD n)))

/-- The first beat index from which the launch instant lies at least 10 µs after the arming write (R378). -/
def State.firstAfterArm (s : State) (n offset lead : Nat) : Nat := s.firstFrom n ((s.beat n).armedAt + 10000) offset lead

/-- The first beat from `k0` on that serves a stream, within one turn of the rotation. -/
def State.nextServing (s : State) (n m k0 : Nat) : Option Nat :=
  ((List.range (s.getF (Reg.ING_ROT_LEN n))).map (fun i => k0 + i)).find? (fun k => s.serves n k == some m)

/-- The beat machine that commands the exposures of a CAMERA entry, when its stream is bound to it through that
entry. -/
def State.cameraPipe (s : State) (i : Nat) : Option (Nat × Nat) :=
  let m := s.epStream i
  if s.epKind i == 1 && decide (m < 64) && s.getF (Reg.ING_STR_STATE m) != 0 &&
      s.getF (Reg.ING_STR_CFG_CAMERA m) == i then some (s.getF (Reg.ING_STR_CFG_PIPE m), m)
  else none

/-- The next exposure of a CAMERA entry: beat index and target. -/
def State.nextExpose (s : State) (i : Nat) : Option (Nat × Nat × Nat × Nat) :=
  match s.cameraPipe i with
  | none => none
  | some (n, m) =>
    if exposing (s.bmState n) then
      let k0 := max (max (SMap.get (fun _ => 0) s.ep.nextK i) (s.beat n).kTot)
        (s.firstAfterArm n (s.epOffset i) (s.epLead i))
      (s.nextServing n m k0).map (fun k => (n, m, k, s.gridAt n k - s.epOffset i))
    else none

/-- The 32-byte payload of an EXPOSE or STROBE datagram (Table 14-6). -/
def cmdPayload (type ep target duration stream seq level : Nat) (late : Bool) : List Byte :=
  let body := leBytes 4 0x544C4345 ++ leBytes 1 1 ++ leBytes 1 type ++ leBytes 2 ep ++ leBytes 8 target ++
    leBytes 4 duration ++ leBytes 2 stream ++ leBytes 2 seq ++ leBytes 1 level ++ leBytes 1 (b2n late) ++ leBytes 2 0
  body ++ leBytes 4 (crc32c body)

/-- Where an entry's datagrams are addressed: its MAC, IP and RPORT, with its VLAN tag when VLAN is set (R379, Table 14-2). -/
def State.udpDest (s : State) (i : Nat) : UdpDest :=
  let b := s.epBytes i
  let v6 := bit1 (s.epF i 1 1) 0
  { mac := sliceB b 6 6, v6 := v6, ip := sliceB b 16 (if v6 then 16 else 4), rport := s.epF i 12 2,
    vlan := if bit1 (s.epF i 1 1) 1 then some (s.epF i 3 1 % 8, s.epF i 4 2 % 4096) else none }

/-- Queue a datagram behind those that wait, before the STROBEs of its own launch instant when it is an EXPOSE (R41). -/
def queueAt (x : TxItem) : List TxItem → List TxItem
  | [] => [x]
  | y :: q => if y.due = x.due ∧ x.rank < y.rank then x :: y :: q else y :: queueAt x q

/-- A datagram is queued on its lane port, or discarded and counted when the port is down (R370); SEQ counts datagrams
sent. `due` is its launch instant, and for a late one the present instant, at which all late launches act (R41, R56). The
Bool says that it was queued. -/
def State.queueCmd (s : State) (i type target duration stream level : Nat) (late : Bool) (due : Nat) : State × Bool :=
  let p := s.epPort i
  if s.flag (Reg.ETH_P_STAT_LINK_UP p) then
    let seq := SMap.get (fun _ => 0) s.ep.seq i
    let s1 := s.setEp { s.ep with seq := SMap.put (fun _ => 0) s.ep.seq i ((seq + 1) % 2 ^ 16) }
    let pt := s1.port p
    (s1.putPort p { pt with cmdq := queueAt { kind := 0, bytes := cmdPayload type i target duration stream seq level late,
                                              ref := i, dest := some (s.udpDest i), due := due, rank := type - 1 } pt.cmdq }, true)
  else (s.addF (Reg.ETH_P_TXDROP p) 1, false)

/-- The instant at which a datagram launches. -/
def State.cmdDue (s : State) (i target : Nat) (late : Bool) : Nat := if late then s.now else s.launchOf i target

/-- An EXPOSE launches for a beat: its frame is outstanding from then on when it was sent (R384). -/
def State.exposeNow (s : State) (i m k target : Nat) (late : Bool) : State :=
  let s0 := s.setEp { s.ep with nextK := SMap.put (fun _ => 0) s.ep.nextK i (k + 1) }
  let r := s0.queueCmd i 1 target (s.epExposure i) m 0 late (s.cmdDue i target late)
  if r.2 then r.1.onStrm m (fun x => { x with outs := x.outs ++ [{ k := k, target := target }] }) else r.1

/-- EXPOSE_LAUNCH: the next exposure of a CAMERA endpoint launches at its target instant less the endpoint's lead; none does
while the Almanac runs on the crystal (R37). -/
def execExposeLaunch (ep : Fin 1024) (s : State) : Out :=
  match s.nextExpose ep with
  | none => .next s
  | some (_, m, k, target) => if s.alm.crystal then .next s else .next ((s.reach (s.launchOf ep target)).exposeNow ep m k target false)

/-- The camera endpoint that exposes a stream. -/
def State.cameraOf (s : State) (m : Nat) : Nat := s.getF (Reg.ING_STR_CFG_CAMERA m)

/-- Whether the EXPOSE of a beat has been sent, or is still to launch. -/
def State.exposeStands (s : State) (m k : Nat) : Bool :=
  let i := s.cameraOf m
  if k < SMap.get (fun _ => 0) s.ep.nextK i then (s.strm m).outs.any (fun e => e.k == k) else true

/-- The next strobe of a LIGHT entry: beat machine, stream, beat index and target (R378). Its launch instant follows the commit
of the entry (R372). -/
def State.nextStrobe (s : State) (i : Nat) : Option (Nat × Nat × Nat × Nat) :=
  let m := s.epStream i
  if s.epKind i == 2 && decide (m < 64) && s.getF (Reg.ING_STR_STATE m) != 0 then
    let n := s.getF (Reg.ING_STR_CFG_PIPE m)
    let c := s.cameraOf m
    if exposing (s.bmState n) then
      let k0 := max (max (max (SMap.get (fun _ => 0) s.ep.nextK i) (s.beat n).kTot)
          (s.firstFrom n (SMap.get (fun _ => 0) s.ep.commitAt i + 1) (s.epOffset c) (s.epLead i)))
        (max (s.firstAfterArm n (s.epOffset c) (s.epLead c)) (s.firstAfterArm n (s.epOffset c) (s.epLead i)))
      let span := SMap.get (fun _ => 0) s.ep.nextK c - k0 + s.getF (Reg.ING_ROT_LEN n)
      (((List.range span).map (fun x => k0 + x)).find?
        (fun k => s.serves n k == some m && s.exposeStands m k)).map (fun k => (n, m, k, s.gridAt n k - s.epOffset c))
    else none
  else none

/-- A STROBE launches for a beat. -/
def State.strobeNow (s : State) (i m k target : Nat) (late : Bool) : State :=
  let s0 := s.setEp { s.ep with nextK := SMap.put (fun _ => 0) s.ep.nextK i (k + 1) }
  (s0.queueCmd i 2 target (s.epOffset i) m (s.epF i 44 1) late (s.cmdDue i target late)).1

/-- STROBE_LAUNCH: the next strobe of a LIGHT endpoint launches at its target instant less the endpoint's lead; none does while
the Almanac runs on the crystal (R37). -/
def execStrobeLaunch (ep : Fin 1024) (s : State) : Out :=
  match s.nextStrobe ep with
  | none => .next s
  | some (_, m, k, target) => if s.alm.crystal then .next s else .next ((s.reach (s.launchOf ep target)).strobeNow ep m k target false)

end Sys2Proof.Machine
end

