-- ==== Sys2Proof/Machine/Beat.lean ====
section
/-!
DEFINITION. The beat machines (spec/02_almanac_and_beats.md R44 to R55, spec/14 R388, spec/06 R163, R174, R177, R178,
spec/22 R555) and the general launch ports (spec/22 R556).
-/

namespace Sys2Proof.Machine

/-! ### The pipeline entry -/

/-- A finished frame of a stream waits for its fault records, or for room in the result ring (R391, R476). -/
def State.streamHeld (s : State) (p m : Nat) : Bool :=
  (s.strm m).pend != 0 ||
  (s.pipe p).frames.any (fun f => f.stream == m && (f.completion.isSome || !f.admitted) && s.recordHeld f)

/-- The first stage accepts a frame and the frame-in-flight number that the next frame takes is free (R48, R230, R388); in
section mode the cores hold one frame at a time, to the end of its last section (R80). -/
def State.entryFree (s : State) (p : Nat) : Bool :=
  let q := s.pipe p
  let n := (q.frames.filter (fun f => f.admitted)).length
  (if q.nsect ≤ 1 then decide (n < 8) && (q.frame q.nextFif).isNone else decide (n = 0) && !q.sectOpen) &&
  (!q.usesStem || (s.sol.scan.isNone && !s.sol.lost))

/-- Every follower has answered FOLD_DONE for the stream's frame `j` − 1 (R412). -/
def State.followersFolded (s : State) (p m j : Nat) : Bool :=
  (s.followers p).all (fun d =>
    SMap.get (fun _ => none) s.qsk.foldDone ((p * 64 + d) * 64 + m) == some ((j + 65535) % 65536))

/-- The exposure that the next beat of a machine serves: its stream and what ingest holds (R384, R388). -/
def State.nextExposure (s : State) (n : Nat) : Option (Nat × Exposure) :=
  let k := (s.beat n).kTot
  match s.serves n k with
  | none => none
  | some m => ((s.strm m).outs.find? (fun e => e.k == k)).map (fun e => (m, e))

/-- The entry is ready for the next beat as far as state shows it (R48, R174, R391, R412, R476). -/
def State.entryReady (s : State) (n : Nat) : Bool :=
  s.entryFree n &&
  match s.nextExposure n with
  | none => true
  | some (m, _) =>
    let j := s.getF (Reg.ING_STR_FRAME m)
    !s.streamHeld n m && (s.scaleBehind (s.pipe n) m j).isNone && s.followersFolded n m j

/-! ### Admission -/

/-- The bank entry of one running tensor, latched from its record (R163); a record that cannot be read is reported
(R178), a collapsed one too (R159, R176). Answers the bank entry and whether the record was bad. -/
def State.latchScale (s : State) (n m t tensor j fif : Nat) : State × (Nat × (W32 × Nat)) × Bool × Bool :=
  let a := (s.pipe n).recAddr m t
  let r := s.unitRead a 0
  let rec' := ScaleRec.ofBytes r.2.bytes
  let bad := r.2.bad || r.2.unavail
  let fr : FaultRec := { cls := 1, code := 0x109, unit := uSol, time := s.now, frame := some (m, j), pipe := some n,
                         fif := some fif, detail := packDetail [(12, tensor), (43, a / 32)] }
  let s1 := if bad then r.1.raise fr else r.1
  let s2 := if rec'.collapsed then
      s1.raise { fr with cls := 0, code := 0x106, detail := packDetail [(12, tensor), (4, 1)] }
    else s1
  (s2, (tensor, (BitVec.ofNat 32 rec'.s, rec'.z)), bad, rec'.collapsed)

/-- Fill a frame's scale bank at admission: the running tensors from their records, the fixed ones from the Weave
(R163; DESIGN CHOICE, log entry 18). Answers the bank, the tensors whose record was bad (R178) and whether one was collapsed. -/
def State.fillBank (s : State) (n m j fif : Nat) : State × List (Nat × (W32 × Nat)) × List Nat × Bool :=
  let p := s.pipe n
  let fixed := p.fixedS.map (fun e => (e.1, (e.2, ((p.fixedZ.find? (fun z => z.1 == e.1)).map (fun z => z.2)).getD (Config.fixedZp n e.1).toNat)))
  p.running.zipIdx.foldl (fun acc tr =>
    let r := acc.1.latchScale n m tr.2 tr.1.idx j fif
    (r.1, acc.2.1 ++ [r.2.1], acc.2.2.1 ++ (if r.2.2.1 then [tr.1.idx] else []), acc.2.2.2 || r.2.2.2))
    (s, fixed, [], false)

/-- Put a wake in its place by instant, behind those of the same instant. -/
def insWake (w : Nat × Nat × Nat) : List (Nat × Nat × Nat) → List (Nat × Nat × Nat)
  | [] => [w]
  | v :: q => if w.1 < v.1 then w :: v :: q else v :: insWake w q

/-- Add the wake of every core of the pipeline that has a stage in its section, and the token expected of it when the
beat admits a frame (R43, R84, R85, R495). -/
def State.launchWakes (s : State) (n k a : Nat) (admits : Bool) : State :=
  (s.coresOf n).foldl (fun s c =>
    let off := s.getF (Reg.CC_WAKE_OFF c (s.getF (Reg.CC_CTX_STAT_ACTIVE c)))
    if off = 0xFFFFFFFF then s
    else
      let wake := a + off - s.getF (Reg.PWR_CC_IDLE_LEAD c)
      s.onCore c (fun x => { x with
        wakes := insWake (wake, a + off, k) x.wakes,
        expects := if admits then x.expects ++ [{ beat := k, pipe := n, due := wake + 10000 }] else x.expects })) s

/-- A heartbeat token (Table 3-4): kind, unit, pipeline, state and beat. -/
def hbToken (kind unit pipe state beat : Nat) : W64 :=
  BitVec.ofNat 64 (beat % 2 ^ 32 + state * 2 ^ 44 + pipe * 2 ^ 46 + unit * 2 ^ 48 + kind * 2 ^ 56)

/-- The Solstice engine's token at an admitting beat of a pipeline that uses it (R227), expected within 10 µs of the
launch. Its bookkeeping stands beside the cores' under number 32. -/
def State.solToken (s : State) (n k a : Nat) : State :=
  if (s.pipe n).usesSol && !s.sol.lost then
    let s1 := s.onCore 32 (fun x => { x with expects := x.expects ++ [{ beat := k, pipe := n, due := a + 10000 }] })
    if s1.domOn 32 then s1.emit (.heartbeat (hbToken 2 0 n 3 k)) else s1
  else s

/-- A frame-in-flight number begins anew: what the pipeline's tiles, gateways, sequencers and streams held under it for
an earlier frame is gone. -/
def State.newFif (s : State) (n fif : Nat) : State :=
  (s.coresOf n).foldl (fun s c =>
    let s1 := s.setTiles (s.tiles.map (fun e => if e.1 / 256 == c then
      (e.1, { e.2 with expIter := SMap.put (fun _ => 0) e.2.expIter fif 0,
                       occRaised := SMap.drop (fun k => k % 8 == fif) e.2.occRaised }) else e))
    let s2 := s1.setGws (s1.gws.map (fun e => if e.1 / 64 == c then
      (e.1, { e.2 with occRaised := e.2.occRaised.filter (fun k => k != fif) }) else e))
    let s3 := s2.setSeqs (s2.seqs.map (fun e => if e.1 / 8 == c then
      (e.1, { e.2 with occRaised := e.2.occRaised.filter (fun k => k != fif) }) else e))
    s3.setFstr (s3.fstr.map (fun e => if e.1 / 8 == c then
      (e.1, { e.2 with again := e.2.again.filter (fun k => k != fif),
                       settled := e.2.settled.filter (fun k => k != fif) }) else e))) s

/-- Admit a complete frame at launch `a` with lag `l` (R388): its frame number and frame-in-flight number, its scale
bank, its wakes, its tokens, its notice to followers and its scan. -/
def State.admitFrame (s : State) (n m : Nat) (e : Exposure) (j k a l : Nat) : State :=
  let fif := (s.pipe n).nextFif
  let r := s.fillBank n m j fif
  let f : Frame :=
    { fif := fif, stream := m, frameNo := j, k := k, launch := a, lag := l, target := e.target,
      slot := e.slot.getD 0, evidence := e.evidence, collapsed := r.2.2.2, bank := r.2.1, noFold := r.2.2.1,
      void := if r.2.2.1.isEmpty then none else some (3, s.now), waitStatus := s.followers n, id := (s.pipe n).nextId }
  let s1 := (r.1.newFif n fif).onPipe n (fun p =>
    { p with frames := p.frames ++ [f], nextFif := (fif + 1) % 8, nextId := p.nextId + 1 })
  let s2 := (s1.launchWakes n k a true).solToken n k a
  let s3 := (s2.followers n).foldl (fun s d => s.notice d 2 [n, k, a, fif, m, j]) s2
  if (s3.pipe n).usesStem then s3.setSol { s3.sol with scan := some (n, fif) } else s3

/-- A served beat whose frame is not complete (R388): VOID.0x303, a place among the records with reason
INPUT_INCOMPLETE, and the scale records rewritten with the frame's number. -/
def State.refuseInput (s : State) (n m : Nat) (e : Exposure) (j k a l : Nat) : State :=
  let i := s.cameraOf m
  let rows := ((List.range (s.epF i 54 2)).filter (fun r =>
    SMap.get (fun _ => 0) e.rows r != s.epF i 52 2)).length
  let s1 := s.raise { cls := 2, code := 0x303, unit := uIngest, time := s.now, frame := some (m, j), pipe := some n,
                      detail := packDetail [(16, e.packets + e.refusedPackets), (16, rows), (4, b2n e.refused)] }
  let s2 := (s1.pipe n).running.zipIdx.foldl (fun s tr =>
    s.keepScale (s1.pipe n) m j tr.2 tr.1.idx (some (m, j)) n) s1
  let f : Frame := { fif := 0, admitted := false, stream := m, frameNo := j, k := k, launch := a, lag := l,
                     target := e.target, slot := 0, void := some (1, s.now), id := (s.pipe n).nextId }
  (s2.onPipe n (fun p => { p with frames := p.frames ++ [f], nextId := p.nextId + 1 })).launchWakes n k a false

/-- The RTP timestamp of a target (R380). -/
def rtpStamp (target : Nat) : Nat := target * 9 / 100000 % 2 ^ 32

/-- CORRECTED.0x307 with a stream's or a frame's count of malformed packets, and the RTP timestamp so reported is remembered: the record
comes once per frame (R383). -/
def State.malformedRaise (s : State) (n m ts : Nat) (frame : Option (Nat × Nat)) (count cond : Nat) : State :=
  (s.raise { cls := 0, code := 0x307, unit := uIngest, time := s.now, frame := frame, pipe := frame.map (fun _ => n),
             detail := packDetail ((if frame.isSome then [] else [(16, m)]) ++ [(16, count), (4, cond)]) }).onStrm m (fun x =>
    { x with malTs := (ts :: x.malTs).take 64 })

/-- CORRECTED.0x307 for the malformed packets of a frame, once, at its beat or when ingest discards it (R383). -/
def State.malformedReport (s : State) (n m : Nat) (frame : Option (Nat × Nat)) (e : Exposure) : State :=
  if e.malformed = 0 then s else s.malformedRaise n m (rtpStamp e.target) frame e.malformed e.malCond

/-- The beat's input: an empty beat, an admission or an incomplete frame (R26, R378, R388). -/
def State.beatInput (s : State) (n k a l : Nat) : State :=
  match s.nextExposure n with
  | none => s.launchWakes n k a false
  | some (m, e) =>
    let j := s.getF (Reg.ING_STR_FRAME m)
    let s0 := s.malformedReport n m (some (m, j)) e
    let s1 := (s0.setF (Reg.ING_STR_FRAME m) (j + 1)).onStrm m (fun x => { x with
      outs := x.outs.filter (fun o => o.k != e.k),
      recent := ((rtpStamp e.target, j, 0) :: x.recent).take 64 })
    if e.complete then s1.admitFrame n m e j k a l else s1.refuseInput n m e j k a l

/-! ### The launch -/

/-- The beat length after a lag (R52). -/
def nextLength (b bmin l seff : Nat) : Nat := max bmin (b - min l seff)

/-- The report of a lag above the limit, and of a lag cleared (R53). -/
def State.lagReports (s : State) (n l : Nat) (frame : Option (Nat × Nat)) : State :=
  if l = 0 then s.closeExcursion n frame
  else if s.flag (Reg.ALM_BM_STAT_EXCURSION n) then s.onBeat n (fun b => { b with maxLag := max b.maxLag l })
  else if s.getF (Reg.ALM_BM_LAGLIM n) < l then
    ((s.setF (Reg.ALM_BM_STAT_EXCURSION n) 1).raise
      { cls := 1, code := 0xA10, unit := uBeat n, time := s.now, frame := frame, pipe := frame.map (fun _ => n),
        detail := packDetail [(48, l)] }).onBeat n (fun b => { b with maxLag := l })
  else s

/-- Move the grid past a beat: its index, its rotation position and, after a write to B, its origin (R51, R377). -/
def State.passBeat (s : State) (n : Nat) : State :=
  let b := s.beat n
  let s1 := if b.rebase then (s.setF (Reg.ALM_BM_ORIGIN n) b.gNext).setF (Reg.ALM_BM_INDEX n) 0 else s
  (s1.setF (Reg.ALM_BM_INDEX n) (s1.getF (Reg.ALM_BM_INDEX n) + 1)).onBeat n (fun b => { b with
    kTot := b.kTot + 1, gNext := b.gNext + s.getF (Reg.ALM_BM_PERIOD n), rebase := false, scaleWait := false, late := false,
    pos := (b.pos + 1) % max 1 (s.getF (Reg.ING_ROT_LEN n)) })

/-- The grid index of the next beat, a pending re-base counted (R51, R84). -/
def State.beatIndex (s : State) (n : Nat) : Nat :=
  if (s.beat n).rebase then 0 else s.getF (Reg.ALM_BM_INDEX n)

/-- Set a bit of ALM_LATE. -/
def State.setLate (s : State) (f : Fld) (bit : Nat) : State := s.setF f (s.getF f ||| 2 ^ bit)

/-- The instant of a launch due at `t`, once the Almanac has reached it: `t` itself in the tick that reaches it, which may pass it by
less than one tick's increment, and the present instant later (R40, R48). -/
def State.launchAt (s : State) (t : Nat) : Nat :=
  if s.alm.alm < t * unitNs + (tickBase s + slewUnit) then t else s.now

/-- A beat launches at instant `a` (R48, R52, R53); one that a forward step has passed sets its bit of ALM_LATE (R56). -/
def State.launchBeat (s0 : State) (n a : Nat) : State :=
  let b := s0.beat n
  let s := if b.late then s0.setLate Reg.ALM_LATE_BEAT n else s0
  let l := a - b.gNext
  let frame := (s.nextExposure n).map (fun x => (x.1, s.getF (Reg.ING_STR_FRAME x.1)))
  let k := s.beatIndex n
  let s1 := (s.setF (Reg.ALM_BM_STAT_LAG n) (satN 32 l)).setBmState n (if l = 0 then 2 else 3)
  let s2 := (s1.lagReports n l frame).beatInput n k a l
  let s3 := s2.passBeat n
  let len := nextLength (s3.getF (Reg.ALM_BM_PERIOD n)) (s3.getF (Reg.ALM_BM_FLOOR n)) l
    (s3.getF (Reg.ALM_BM_SHRINK_EFFECTIVE n))
  s3.onBeat n (fun x => { x with nNext := if l = 0 then x.gNext else a + len })

/-- SCALE_WAIT (R174): once per frame, when the entry waits at the scheduled instant for a scale record. -/
def State.reportScaleWait (s : State) (n : Nat) : State :=
  match s.nextExposure n with
  | none => s
  | some (m, _) =>
    let j := s.getF (Reg.ING_STR_FRAME m)
    match s.scaleBehind (s.pipe n) m j with
    | none => s
    | some (t, seq) =>
      if (s.beat n).scaleWait then s
      else
        (s.raise { cls := 0, code := 0x107, unit := uSol, time := s.now, frame := some (m, j), pipe := some n,
                   detail := packDetail [(12, t), (32, seq)] }).onBeat n (fun b => { b with scaleWait := true })

/-- The beat of a pipeline of lower index finds the scan unit idle at this instant too: it is accepted first (R230). -/
def State.scanYields (s : State) (n : Nat) : Bool :=
  (s.pipe n).usesStem && (List.range n).any (fun m => (s.pipe m).usesStem &&
    decide (1 ≤ s.bmState m ∧ s.bmState m ≤ 3) && decide ((s.beat m).nNext ≤ s.now) && s.entryReady m)

/-- BEAT_LAUNCH: the next beat of a machine. `ready` is the instant at which the first stage accepts a frame, so the
beat launches at the later of it and the scheduled instant (R48), after those of lower pipelines that wait for the same scan
unit (R230). A HALTED machine only moves its grid on. No beat launches while the Almanac runs on the crystal (R37). -/
def execBeatLaunch (n : Fin 4) (ready : Nat) (s : State) : Out :=
  let st := s.bmState n
  if s.alm.crystal then .next s
  else if st = 1 ∨ st = 2 ∨ st = 3 then
    let t := max ready (s.beat n).nNext
    let s1 := s.reach t
    if s1.entryReady n && !s1.scanYields n then .next (s1.launchBeat n (s1.launchAt t)) else .next (s1.reportScaleWait n)
  else if st = 4 then .next ((s.reach (s.beat n).gNext).passBeat n)
  else .next s

/-! ### Control writes (R45 to R47, R50, R51, R555) -/

/-- CORRECTED.0xA02 with the value written (R45, R47). -/
def State.beatReject (s : State) (n v : Nat) : State := s.report 0 0xA02 (uBeat n) [(32, v)]

/-- Ingest discards every frame it holds of a stream, counting them (R375, R386). -/
def State.discardFrames (s : State) (m : Nat) : State :=
  let held := ((s.strm m).outs.filter (fun e => e.slot.isSome)).length
  let s1 := (s.strm m).outs.foldl (fun s e => s.malformedReport (s.getF (Reg.ING_STR_CFG_PIPE m)) m none e) s
  (s1.addF (Reg.ING_STR_DISCARDS m) held).onStrm m (fun x => { x with outs := [] })

/-- Arm an IDLE machine of a LOADED pipeline at ORIGIN (R47, R377, R378, R386). -/
def State.armBeat (s : State) (n : Nat) : State :=
  if s.bmState n = 0 ∧ s.loaded n then
    let g := s.getF (Reg.ALM_BM_ORIGIN n)
    if g < s.now + 100000 then s.beatReject n g
    else
      let s1 := (s.boundTo n).foldl (fun s m =>
        (s.discardFrames m).setEp { (s.discardFrames m).ep with
          nextK := SMap.drop (fun i => s.epStream i == m) (s.discardFrames m).ep.nextK })
        (s.onPipe n (fun p => { p with halted := false }))
      ((s1.putBeat n { gNext := g, nNext := g, armedAt := s1.now }).setF (Reg.ALM_BM_INDEX n) 0).setBmState n 1
  else s

/-- A stop write (R50). -/
def State.stopBeat (s : State) (n : Nat) : State :=
  if s.bmState n = 0 then s else (s.setBmState n 5).settleStop n

/-- A write of ALM_BMn_CTL: ARM and STOP (R50, R555). -/
def State.writeBmCtl (n : Nat) (w : WriteReq) (s : State) : State :=
  let s1 := if wBit w (Reg.ALM_BM_CTL_ARM n) then s.armBeat n else s
  if wBit w (Reg.ALM_BM_CTL_STOP n) then s1.stopBeat n else s1

/-- Recompute EFFECTIVE, and raise CORRECTED.0xA03 when S lies above ⌊B/4⌋ (R46). -/
def State.setEffective (s : State) (n : Nat) (raises : Bool) : State :=
  let sh := s.getF (Reg.ALM_BM_SHRINK_S n)
  let q := s.getF (Reg.ALM_BM_PERIOD n) / 4
  let s1 := s.setF (Reg.ALM_BM_SHRINK_EFFECTIVE n) (min sh q)
  if raises && decide (q < sh) then s1.report 0 0xA03 (uBeat n) [(27, sh), (27, min sh q)] else s1

/-- A write to B (R45, R46, R51). -/
def State.writePeriod (n : Nat) (w : WriteReq) (s : State) : State :=
  match wField w (Reg.ALM_BM_PERIOD n) with
  | none => s
  | some b =>
    if b < 50000 ∨ 100000000 < b ∨ b < s.getF (Reg.ALM_BM_FLOOR n) then s.beatReject n b
    else
      let s1 := (s.setF (Reg.ALM_BM_PERIOD n) b).setEffective n true
      if s1.bmState n = 0 then s1 else s1.onBeat n (fun x => { x with rebase := true })

/-- A write to S (R46). -/
def State.writeShrink (n : Nat) (w : WriteReq) (s : State) : State :=
  match wField w (Reg.ALM_BM_SHRINK_S n) with
  | none => s
  | some v => (s.setF (Reg.ALM_BM_SHRINK_S n) v).setEffective n true

/-- ALM_BM_ARM: a write of ALM_BMn_CTL that arms. -/
def execAlmBmArm (n : Fin 4) (w : WriteReq) (s : State) : Out :=
  .next (s.gated w.agent w.half (Reg.ALM_BM_CTL_ARM n).off (State.writeBmCtl n w))

/-- ALM_BM_STOP: a write of ALM_BMn_CTL that stops. -/
def execAlmBmStop (n : Fin 4) (w : WriteReq) (s : State) : Out :=
  .next (s.gated w.agent w.half (Reg.ALM_BM_CTL_ARM n).off (State.writeBmCtl n w))

/-- ALM_BM_PERIOD (R45, R51). -/
def execAlmBmPeriod (n : Fin 4) (w : WriteReq) (s : State) : Out :=
  .next (s.gated w.agent w.half (Reg.ALM_BM_PERIOD n).off (State.writePeriod n w))

/-- ALM_BM_SHRINK (R46). -/
def execAlmBmShrink (n : Fin 4) (w : WriteReq) (s : State) : Out :=
  .next (s.gated w.agent w.half (Reg.ALM_BM_SHRINK_S n).off (State.writeShrink n w))

/-- ALM_BM_LAGLIM: the limit is read at each launch, so a write takes effect at the next beat (R555). -/
def execAlmBmLaglim (n : Fin 4) (w : WriteReq) (s : State) : Out :=
  .next (s.gated w.agent w.half (Reg.ALM_BM_LAGLIM n).off
    (fun s => s.plainWrite (Reg.ALM_BM_LAGLIM n).off w))

/-! ### General launch ports (R556) -/

/-- Copy a core's 16 tally counters into their shadows (R91, R574). -/
def State.tallySnap (s : State) (c : Nat) : State :=
  let s1 := (List.range 16).foldl (fun s i => s.setF (Reg.CC_TALLY_SH c i) (s.getF (Reg.CC_TALLY c i))) s
  s1.setF (Reg.CC_TALLY_SNAPT c) s1.now

/-- What one firing of a general port does: interrupt, message and snapshot (R257, R556). A snapshot is an action of a
core, so a core that is not ON takes none (R545). -/
def State.glAct (s : State) (p : Nat) : State :=
  let s1 := s.irqSource (78 + p)
  let s2 := if s1.flag (Reg.ALM_GL_CTL_MSG p) then
      let q := s1.getF (Reg.ALM_GL_CTL_QUEUE p)
      let r := s1.trySend q (sourceOf 3 p) (leBytes 2 p ++ leBytes 6 0 ++ leBytes 8 (s1.getF (Reg.ALM_GL_TIME p)))
      if r.2 = 0 then r.1 else r.1.report 1 0x804 (uQueue q) [(16, p)]
    else s1
  if s2.flag (Reg.ALM_GL_CTL_SNAP p) then
    ((List.range 32).filter (fun c => bit1 (s2.getF (Reg.ALM_GL_CTL_SNAP_CORES p)) c && s2.domOn c)).foldl
      (fun s c => s.tallySnap c) s2
  else s2

/-- One firing on its instant: a one-shot port clears EN, a periodic port moves to its next instant. -/
def State.glFire (s : State) (p : Nat) : State :=
  let s1 := s.glAct p
  let per := s1.getF (Reg.ALM_GL_PERIOD p)
  if per = 0 then s1.setF (Reg.ALM_GL_CTL_EN p) 0 else s1.setF (Reg.ALM_GL_TIME p) (s1.getF (Reg.ALM_GL_TIME p) + per)

/-- One late firing for all the instants that have passed (R38, R556): LATE, and a periodic port resumes at its first
grid instant after the Almanac. -/
def State.glFireLate (s : State) (p : Nat) : State :=
  let s1 := s.glAct p
  let s2 := s1.setF Reg.ALM_LATE_GENERAL (s1.getF Reg.ALM_LATE_GENERAL ||| 2 ^ p)
  let per := s2.getF (Reg.ALM_GL_PERIOD p)
  let t := s2.getF (Reg.ALM_GL_TIME p)
  if per = 0 then s2.setF (Reg.ALM_GL_CTL_EN p) 0
  else s2.setF (Reg.ALM_GL_TIME p) (t + ((s2.now - t) / per + 1) * per)

/-- The late firing of a port that finds its instant already passed. -/
def State.glCheck (s : State) (p : Nat) : State :=
  if s.flag (Reg.ALM_GL_CTL_EN p) && decide (s.getF (Reg.ALM_GL_TIME p) ≤ s.now) then s.glFireLate p else s

/-- A snapshot core of a port has a wake launch due at the port's instant or before: at one unit the wake goes first (R41). -/
def State.glYields (s : State) (p : Nat) : Bool :=
  s.flag (Reg.ALM_GL_CTL_SNAP p) && (List.range 32).any (fun c => bit1 (s.getF (Reg.ALM_GL_CTL_SNAP_CORES p)) c &&
    (s.core c).wakes.any (fun w => decide (w.1 ≤ s.getF (Reg.ALM_GL_TIME p))))

/-- GENERAL_PORT_FIRE: the Almanac reaches an enabled port's instant; the port acts after the core wakes of that instant. -/
def execGeneralPortFire (p : Fin 16) (s : State) : Out :=
  if s.flag (Reg.ALM_GL_CTL_EN p) && !s.alm.crystal && !s.glYields p then
    .next ((s.reach (s.getF (Reg.ALM_GL_TIME p))).glFire p)
  else .next s

/-- The field that a general-port write begins at. -/
def glOff (p : Nat) (r : GlReg) : Nat :=
  match r with
  | .time => (Reg.ALM_GL_TIME p).off
  | .period => (Reg.ALM_GL_PERIOD p).off
  | .ctl => (Reg.ALM_GL_CTL_EN p).off

/-- A write of a general port's register (R556): a passed instant fires at once when EN is set to 1, or when TIME is
written while EN is 1. -/
def State.writeGl (p : Nat) (r : GlReg) (w : WriteReq) (s : State) : State :=
  let wasEn := s.flag (Reg.ALM_GL_CTL_EN p)
  let s1 := s.plainWrite (glOff p r) w
  match r with
  | .time => s1.glCheck p
  | .period => s1
  | .ctl => if wasEn then s1 else s1.glCheck p

/-- ALM_GL_TIME: a write of a general port's TIME, PERIOD or CTL. -/
def execAlmGlTime (p : Fin 16) (reg : GlReg) (w : WriteReq) (s : State) : Out :=
  .next (s.gated w.agent w.half (glOff p reg) (State.writeGl p reg w))

end Sys2Proof.Machine
end

