-- ==== Sys2Proof/Machine/Fabric.lean ====
section
/-!
DEFINITION. The slotted fabric (spec/04_fabric.md R93 to R118): words, tile routers, edge ports, gateways, quadrant
switches, join queues, hold, and the wake of a retained core by an arriving word (R86, R495).
-/

namespace Sys2Proof.Machine

/-! ### Tags, frames and reports -/

/-- The frame-in-flight number of a tag (R67). -/
def fifOf (tag : Byte) : Nat := tag.toNat / 32

/-- The iteration number of a tag (R67). -/
def iterOf (tag : Byte) : Nat := tag.toNat % 32

/-- A report about the frame of a pipeline that a tag names (R465). -/
def State.reportTagP (s : State) (cls code unit : Nat) (p : Option Nat) (tag : Byte) (detail : List (Nat × Nat)) : State :=
  match p with
  | some p => s.reportF cls code unit p (fifOf tag) detail
  | none => s.report cls code unit detail

/-- A report about the frame that a tag names on a core. -/
def State.reportTag (s : State) (cls code unit c : Nat) (tag : Byte) (detail : List (Nat × Nat)) : State :=
  s.reportTagP cls code unit (s.coreOwner c) tag detail

/-- The frame of a pipeline that a tag names becomes VOID, with the TIME of the record that caused it (R478). -/
def State.voidTagP (s : State) (p : Option Nat) (tag : Byte) (reason time : Nat) : State :=
  match p with
  | some p => s.onFrame p (fifOf tag) (fun f => f.kill reason time)
  | none => s

/-- The frame that a tag names on a core becomes VOID. -/
def State.voidTagAt (s : State) (c : Nat) (tag : Byte) (reason time : Nat) : State :=
  s.voidTagP (s.coreOwner c) tag reason time

/-- The frame that a tag names becomes VOID now. -/
def State.voidTag (s : State) (c : Nat) (tag : Byte) (reason : Nat) : State := s.voidTagAt c tag reason s.now

/-- The frame that a tag names on a core. -/
def State.tagFrame (s : State) (c : Nat) (tag : Byte) : Option Frame :=
  match s.coreOwner c with
  | some p => (s.pipe p).frame (fifOf tag)
  | none => none

/-- The device is in debug mode (spec/21 R529). -/
def State.debugMode (s : State) : Bool := s.flag Reg.MGT_STRAP_DEBUG

/-- The active context slot of a core. -/
def State.ctx (s : State) (c : Nat) : Nat := s.getF (Reg.CC_CTX_STAT_ACTIVE c)

/-- The control word of a tile's active context (spec/23 Table 23-3). -/
def State.tileCtl (s : State) (c t : Nat) : Nat := s.getF (Reg.CC_CTX_CTL c (s.ctx c) t)

/-- The stage of a tile. -/
def State.tileStage (s : State) (c t : Nat) : Nat := bits (s.tileCtl c t) 48 8

/-- CORRECTED.0x005, once per stage per frame (R114). -/
def State.departs (s : State) (c unit stage slot cause : Nat) (tag : Byte) : State :=
  match s.coreOwner c with
  | none => s
  | some p =>
    match (s.pipe p).frame (fifOf tag) with
    | none => s
    | some f =>
      if f.departed.contains stage then s
      else
        (s.onFrame p (fifOf tag) (fun f => { f with departed := f.departed ++ [stage] })).reportF 0 0x005 unit p
          (fifOf tag) [(8, stage), (16, slot), (4, cause)]

/-- CHECK of an arriving word of a pipeline (R94): corrected, or delivered with MARK. A mark that the word carries already
names the earlier cause and stays. -/
def State.checkWord (s : State) (unit pos : Nat) (p : Option Nat) (w : QWord) (ecc : EccSeen) : State × QWord :=
  match ecc with
  | .clean => (s, w)
  | .single => (s.report 0 0x001 unit [(16, pos)], w)
  | .double =>
    (s.reportTagP 1 0x002 unit p w.tag [(16, pos), (8, w.tag.toNat)],
     { w with mark := w.mark.or (some { reason := 6, time := s.now }) })

/-- A word lost at a full queue or an overwritten delay register (R99, R113). -/
def State.overrun (s : State) (unit : Nat) (p : Option Nat) (queue : Nat) (tag : Byte) : State :=
  (s.reportTagP 1 0x003 unit p tag [(5, queue), (8, tag.toNat)]).voidTagP p tag 7 s.now

/-- A word in a slot that routes nothing from its input (R118); a UNIT that carries the slot leaves it out of DETAIL (R467). -/
def State.strayWord (s : State) (unit : Nat) (p : Option Nat) (input : Nat) (slot : Option Nat) (tag : Byte) : State :=
  (s.reportTagP 1 0x004 unit p tag ((16, input) :: (slot.toList.map (fun k => (16, k)) ++ [(8, tag.toNat)]))).voidTagP p tag 7 s.now

/-- Traffic from a core, or from the Solstice engine under number 32, that the management view holds OFF or GATED (R86, R227): the
Bool says that it is discarded. -/
def State.offTraffic (s : State) (src : Nat) : State × Bool :=
  if s.domHolds src then (s, false)
  else if SMap.get (fun _ => false) s.pwr.offRaised src then (s, true)
  else
    ((s.setPwr { s.pwr with offRaised := SMap.put (fun _ => false) s.pwr.offRaised src true }).report 1 0x022
      (if src < 32 then uCore src else uSol) [(4, 1)], true)

/-! ### Wakes (R495) -/

/-- A wake of a core (R495): it cancels an entry to RETAIN, begins RETAIN to ON, or does nothing. -/
def State.beginWake (s : State) (c kind : Nat) : State :=
  if s.domOn c then s.busyCore c
  else if s.dom c = 1 ∧ s.coreMove c ≤ 1 then
    let s1 := s.setCoreMove c kind
    if kind = 3 then s1.addF (Reg.PWR_CC_AWAKES c) 1 else s1
  else s

/-! ### Queues -/

/-- Margin, declared occupancy and queue length of a tile queue (Table 4-4). -/
def State.tileMargin (s : State) (c t q : Nat) : Nat := bits (s.getF (Reg.CC_CTX_ROUTER_HDR c (s.ctx c) t)) (3 * q) 3
def State.tileOcc (s : State) (c t q : Nat) : Nat := bits (s.getF (Reg.CC_CTX_ROUTER_HDR c (s.ctx c) t)) (12 + 4 * q) 4
def Tile.q (x : Tile) (q : Nat) : List QWord := SMap.get (fun _ => []) x.qs q
def Tile.putQ (x : Tile) (q : Nat) (ws : List QWord) : Tile := { x with qs := SMap.put (fun _ => []) x.qs q ws }
def Tile.holds (x : Tile) (q : Nat) : Bool := SMap.get (fun _ => false) x.held q
def Tile.setHold (x : Tile) (q : Nat) (b : Bool) : Tile :=
  { x with held := SMap.put (fun _ => false) x.held q b,
           stalled := if b then x.stalled else SMap.put (fun _ => false) x.stalled q false }

/-- Hold state of a tile queue after its occupancy changed (R113), with the departure of the held word's frame. -/
def State.tileHold (s : State) (c t q slot : Nat) (tag : Byte) : State :=
  let x := s.tile c t
  let on := decide (8 - (x.q q).length ≤ s.tileMargin c t q)
  if on = x.holds q then s
  else
    let s1 := s.onTile c t (fun x => x.setHold q on)
    if on then s1.departs c (uTile c t) (s.tileStage c t) slot 0 tag else s1

/-- A word enters a tile's local queue (R113, R116). -/
def State.tilePush (s : State) (c t q slot : Nat) (w : QWord) : State :=
  let x := s.tile c t
  if 8 ≤ (x.q q).length then s.overrun (uTile c t) (s.coreOwner c) q w.tag
  else
    let n := (x.q q).length + 1
    let key := q * 8 + fifOf w.tag
    let over' := s.debugMode && decide (s.tileOcc c t q < n) && !SMap.get (fun _ => false) x.occRaised key
    let s1 := s.putTile c t (x.putQ q (x.q q ++ [w]))
    let s2 := if over' then
        (s1.onTile c t (fun x => { x with occRaised := SMap.put (fun _ => false) x.occRaised key true })).reportTag 0 0x007
          (uTile c t) c w.tag [(5, q), (16, n), (8, w.tag.toNat)]
      else s1
    (s2.tileHold c t q slot w.tag).busyCore c

/-- An edge port's queue; side 0 N, 1 E, 2 S, 3 W, direction 0 from the tiles, 1 toward them. -/
def State.edge (s : State) (c side lane dir : Nat) : FabQueue :=
  SMap.get (fun _ => {}) s.edges (((c * 4 + side) * 16 + lane) * 2 + dir)
def State.putEdge (s : State) (c side lane dir : Nat) (v : FabQueue) : State :=
  s.setEdges (SMap.put (fun _ => {}) s.edges (((c * 4 + side) * 16 + lane) * 2 + dir) v)

/-- The end code of the attached unit on a port of a quadrant (Tables 4-5 and 12-7a): channels, the two Solstice ports, ingest,
codec, host-core cluster and PCIe. -/
def endCode (q port : Nat) : Option Nat :=
  if 8 ≤ port ∧ port < 24 then some (0x2000 + 16 * q + (port - 8))
  else match q, port with
    | 0, 38 => some 0x3000
    | 0, 39 => some 0x3001
    | 1, 38 => some 0x3002
    | 1, 39 => some 0x3003
    | 2, 38 => some 0x3004
    | 2, 39 => some 0x3005
    | _, _ => none

/-- The core on port 0 to 7 of a quadrant (Table 4-5). -/
def coreAt (q port : Nat) : Nat := (2 * (q / 2) + port / 4) * 8 + 4 * (q % 2) + port % 4

/-- The gateway on a port of a quadrant, if the port has one (R109). -/
def gateAt (q port : Nat) : Option Nat :=
  if port < 8 then some (coreAt q port) else (endCode q port).map (fun _ => 32 + 40 * q + port)

/-- The quadrant and port of a gateway. -/
def gatePort (g : Nat) : Nat × Nat :=
  if g < 32 then (2 * (g / 16) + g % 8 / 4, 4 * (g / 8 % 2) + g % 4) else ((g - 32) / 40, (g - 32) % 40)

/-- The unit coordinate of a gateway. -/
def uGate (g : Nat) : Nat :=
  if g < 32 then uCore g
  else match endCode ((g - 32) / 40) ((g - 32) % 40) with
    | some 0x3000 | some 0x3001 => uSol
    | some 0x3002 => uIngest
    | some 0x3003 => uCodec
    | some 0x3004 | some 0x3005 | none => uSpine ((g - 32) / 40) ((g - 32) % 40)
    | some e => uChan (e % 0x1000)

/-- The margin of a gateway queue: the declared one for a core's inbound queues; any other holds when it is full
(R108; DESIGN CHOICE, log entry 23). -/
def State.gwMargin (s : State) (g dir : Nat) : Nat :=
  if dir = 1 ∧ g < 32 then s.getF (Reg.CC_GW_HDR_MARGIN g (s.ctx g)) else 0

/-- The stage that the words of a core's gateway queue belong to: that of the top tile of the lane's column, and for codes 16 to 24
the first stage that the core holds in the section it runs. R114 names the stage and no table gives it (DESIGN CHOICE,
log entry 102). -/
def State.gwStage (s : State) (c code : Nat) : Nat :=
  if code < 16 then s.tileStage c code
  else match s.coreOwner c with
    | none => 0
    | some p => match (s.pipe p).stages.find? (fun g =>
        g.cores.contains c && g.sect == s.getF (Reg.CC_CTX_STAT_SECTION c)) with
      | some g => g.stage
      | none => 0

/-- Hold state of a gateway queue after its occupancy changed (R113); a core's gateway serves a stage, whose departure is
reported (R114). -/
def State.gwHold (s : State) (g dir code slot : Nat) (tag : Byte) : State :=
  let x := s.gw g dir code
  let on := decide (32 - x.words.length ≤ s.gwMargin g dir)
  if on = x.held then s
  else
    let s1 := s.putGw g dir code { x with held := on, stalled := x.stalled && on }
    if on && decide (g < 32) then s1.departs g (uCore g) (s.gwStage g code) slot 3 tag else s1

/-- A word of a pipeline enters a gateway queue (R113, R116); one that enters a core's inbound queue wakes a retained core,
and one in any queue of a core's gateway ends its idle time (R495). -/
def State.gwPush (s : State) (p : Option Nat) (g dir code slot : Nat) (w : QWord) : State :=
  let x := s.gw g dir code
  if 32 ≤ x.words.length then s.overrun (uGate g) p code w.tag
  else
    let n := x.words.length + 1
    let over' := s.debugMode && dir == 1 && decide (g < 32) && decide (s.getF (Reg.CC_GW_HDR_OCC g (s.ctx g)) < n) &&
      !x.occRaised.contains (fifOf w.tag)
    let s1 := s.putGw g dir code { x with
      words := x.words ++ [w], occRaised := if over' then x.occRaised ++ [fifOf w.tag] else x.occRaised }
    let s2 := if over' then
        s1.reportTagP 0 0x007 (uGate g) p w.tag [(5, code), (16, n), (8, w.tag.toNat)] else s1
    let s3 := s2.gwHold g dir code slot w.tag
    if g < 32 then (if dir = 1 then s3.beginWake g 3 else s3.busyCore g) else s3

/-- A word enters an edge port's 8-entry queue, which holds when it is full (R101; DESIGN CHOICE, log entry 23). R113 has the
record of a lost word name the queue: UNIT is the core, and the queue item is the lane, without side or direction (DESIGN CHOICE,
log entry 102). The hold of an edge port is no timing departure: the causes of R114 name tiles and gateways (DESIGN CHOICE, log
entry 102). -/
def State.edgePush (s : State) (c side lane dir : Nat) (w : QWord) : State :=
  let g := s.edge c side lane dir
  if 8 ≤ g.words.length then s.overrun (uCore c) (s.coreOwner c) lane w.tag
  else (s.putEdge c side lane dir { g with words := g.words ++ [w], held := decide (8 ≤ g.words.length + 1) }).busyCore c

/-- The queue in which a word sent on an engine port waits: an east-edge port toward the tiles, or the outbound queue of
the gateway's memory port (R266). Answers whether it has room. -/
def State.portRoom (s : State) (c port : Nat) : Bool :=
  if port < 16 then decide ((s.edge c 1 port 1).words.length < 8) else decide ((s.gw c 0 24).words.length < 32)

/-- Enqueue a word on an engine port (R266). -/
def State.portPush (s : State) (c port : Nat) (w : QWord) : State :=
  if port < 16 then s.edgePush c 1 port 1 w else s.gwPush (s.coreOwner c) c 0 24 (s.core c).slot w

/-- The thread that waits for room in the outbound queue of a port, if there is room, sends its word and is READY. Of several, the one
in the lowest slot is served first: R266 orders none (DESIGN CHOICE, log entry 102). -/
def State.roomAt (s : State) (c port : Nat) : State :=
  if s.portRoom c port then
    match (List.range 16).find? (fun j =>
      match (s.thr c j).wait with | .room p _ => p == port | _ => false) with
    | none => s
    | some j =>
      match (s.thr c j).wait with
      | .room _ w => (s.portPush c port w).wake c j
      | _ => s
  else s

/-- The memory channel whose gateway a number names (R109). -/
def chanOfGate (g : Nat) : Option Nat :=
  let qp := gatePort g
  if 32 ≤ g ∧ 8 ≤ qp.2 ∧ qp.2 < 24 then some (16 * qp.1 + (qp.2 - 8)) else none

/-- The head of a gateway queue leaves; a completion word of a channel that waits for its place follows (R109). -/
def State.gwPop (s : State) (g dir code slot : Nat) : State × Option QWord :=
  let x := s.gw g dir code
  match x.words with
  | [] => (s, none)
  | w :: ws =>
    let s1 := (s.putGw g dir code { x with words := ws }).gwHold g dir code slot w.tag
    (if dir = 0 ∧ code = 24 ∧ g < 32 then s1.roomAt g 16
     else match chanOfGate g with
       | some h => if dir = 0 then s1.settleReturns h else s1
       | none => s1, some w)

/-- The head of an edge port's queue leaves. -/
def State.edgePop (s : State) (c side lane dir : Nat) : State × Option QWord :=
  let g := s.edge c side lane dir
  match g.words with
  | [] => (s, none)
  | w :: ws =>
    let s1 := s.putEdge c side lane dir { g with words := ws, held := false }
    (if side = 1 ∧ dir = 1 then s1.roomAt c lane else s1, some w)

/-! ### Vector-engine ports (R266) -/

/-- A word for a thread: the enabled elements of lanes 0 and 1 of VD (R260), tag and MARK in SX[VB], and the current tag; with the first word of a frame
the budget count of a stage thread begins (R240). -/
def State.giveWord (s : State) (c j vd vb : Nat) (form : DestForm) (w : QWord) : State :=
  let s1 := s.onThr c j (fun t =>
    (t.putLow form vd 64 w.data.toNat).wrSx vb (BitVec.ofNat 64 (w.tag.toNat + 256 * b2n w.mark.isSome)))
  let s2 := s1.setF (Reg.CC_VT_SLOT_TAG c j) w.tag.toNat
  let f := fifOf w.tag
  let s3 := if s2.flag (Reg.CC_VT_SLOT_STAGE c j) && !(s2.thr c j).counting.contains f then
      s2.onThr c j (fun t => { t with counting := t.counting ++ [f], overrun := t.overrun.filter (fun x => x != f) })
    else s2
  match w.mark with
  | some m => s3.voidTagAt c w.tag m.reason m.time
  | none => s3

/-- The head of the inbound queue of an engine port: 0 to 15 the east-edge ports, 16 the gateway's memory port. -/
def State.portPop (s : State) (c port : Nat) : State × Option QWord :=
  if port < 16 then s.edgePop c 1 port 0 else s.gwPop c 1 24 0

/-- A thread that waits in RECV on a port takes the word that came; of several, the one in the lowest slot, for R266 orders none (DESIGN
CHOICE, log entry 102). -/
def State.recvDeliver (s : State) (c port : Nat) : State :=
  match (List.range 16).find? (fun j =>
    match (s.thr c j).wait with | .recv p _ _ _ => p == port | _ => false) with
  | none => s
  | some j =>
    match (s.thr c j).wait with
    | .recv _ vd vb form =>
      let r := s.portPop c port
      match r.2 with
      | some w => (r.1.giveWord c j vd vb form w).wake c j
      | none => s
    | _ => s

/-! ### Tile routers -/

/-- The input of the neighbour that a link leads to: direction 0 N, 1 E, 2 S, 3 W; none at the edge of the array. -/
def neighbour (t dir : Nat) : Option (Nat × Nat) :=
  match dir with
  | 0 => if t < 16 then none else some (t - 16, 3)
  | 1 => if t % 16 = 15 then none else some (t + 1, 4)
  | 2 => if 240 ≤ t then none else some (t + 16, 1)
  | _ => if t % 16 = 0 then none else some (t - 1, 2)

/-- The lane of the edge port that a boundary tile's link leads to. -/
def edgeLane (t dir : Nat) : Nat := if dir % 2 = 0 then t % 16 else t / 16

/-- Words in transit toward a router input or an edge port. -/
def wireKey (c t src : Nat) : Nat := (c * 256 + t) * 8 + src
def edgeWire (c side lane : Nat) : Nat := 65536 + (c * 4 + side) * 16 + lane
def State.wire (s : State) (k : Nat) : List QWord := SMap.get (fun _ => []) s.wires k
def State.putWire (s : State) (k : Nat) (ws : List QWord) : State := s.setWires (SMap.put (fun _ => []) s.wires k ws)

/-- A word leaves a tile in a direction. -/
def State.sendLink (s : State) (c t dir : Nat) (w : QWord) : State :=
  let k := match neighbour t dir with
    | some (t', src) => wireKey c t' src
    | none => edgeWire c dir (edgeLane t dir)
  s.putWire k (s.wire k ++ [w])

/-- A tile's slot entry (Table 4-2) in a slot of its schedule; none past the period (R96). -/
def State.slotEntry (s : State) (c t slot : Nat) : Option Nat :=
  if slot < s.getF (Reg.CC_CTX_PERIOD c (s.ctx c)) then
    some (s.getF (Reg.CC_CTX_SLOT c (s.ctx c) t slot)) else none

/-- The source code of an output (0 N to 3 W) in an entry. -/
def outSrc (e dir : Nat) : Nat := bits e (3 * dir) 3

/-- The tile fires (R569). -/
def State.fires (s : State) (c t : Nat) : Bool := bit1 (s.tileCtl c t) 47

/-- The word of a source goes to every place an entry names it for (R97 to R99), a local queue receiving it as `wl`; the Bool says that it
went somewhere. A lost word
of the delay register is reported with 4 as its queue item, beside 0 to 3 for queues A to P: R99 gives it no number (DESIGN CHOICE,
log entry 102). -/
def State.routeWord (s : State) (c t slot src e : Nat) (w wl : QWord) : State × Bool :=
  let dirs := (List.range 4).filter (fun d => outSrc e d == src)
  let loc := bits e 12 3 == src && s.fires c t
  let dly := bits e 17 3 == src && src != 6
  let s1 := dirs.foldl (fun s d => s.sendLink c t d w) s
  let s2 := if loc then s1.tilePush c t (bits e 15 2) slot wl else s1
  let s3 := if dly then
      match (s2.tile c t).delay with
      | some old => (s2.overrun (uTile c t) (s.coreOwner c) 4 old.tag).onTile c t (fun x => { x with delay := some w })
      | none => s2.onTile c t (fun x => { x with delay := some w })
    else s2
  (s3, !dirs.isEmpty || loc || dly)

/-- The hold bit that applies in a slot, of those recorded from `base` on: the last one received, in that slot or before it (`back` 0), or
before it (`back` 1). No table says which reverse hold slots are paired with a circuit's forward slots: the model takes the nearest
before them (R110; DESIGN CHOICE, log entry 102). -/
def lastHold (m : List (Nat × Nat)) (base slot back : Nat) : Bool :=
  match ((List.range 128).map (fun i => SMap.get (fun _ => 0) m (base + (slot + 256 - back - i) % 128))).find? (fun v => v != 0) with
  | some v => v == 2
  | none => false

/-- Record a hold bit received in a slot. -/
def putHold (m : List (Nat × Nat)) (base slot : Nat) (bit : Bool) : List (Nat × Nat) :=
  SMap.put (fun _ => 0) m (base + slot) (if bit then 2 else 1)

/-- OUT_HOLD: the tile output is gated in a slot by the last hold bits received (R110). -/
def State.outHeld (s : State) (c t slot e : Nat) : Bool :=
  (List.range 4).any (fun d => bit1 (bits e 52 4) d && lastHold (s.tile c t).holdIn (128 * d) slot 1)

/-- The word that feeds a router input: a link in transit or an edge port's queue, the output queue, or the delay
register. -/
def State.routerFeed (s : State) (c t src slot e : Nat) : State × Option QWord :=
  if src = 5 then
    if s.outHeld c t slot e then (s, none)
    else match (s.tile c t).outq with
      | [] => (s, none)
      | w :: ws => (s.onTile c t (fun x => { x with outq := ws }), some w)
  else if src = 6 then
    match (s.tile c t).delay with
    | none => (s, none)
    | some w => (s.onTile c t (fun x => { x with delay := none }), some w)
  else
    let dir := src - 1
    match neighbour t dir with
    | some _ =>
      match s.wire (wireKey c t src) with
      | [] => (s, none)
      | w :: ws => (s.putWire (wireKey c t src) ws, some w)
    | none =>
      if lastHold (s.edge c dir (edgeLane t dir) 1).holdAt 0 slot 1 then (s, none) else s.edgePop c dir (edgeLane t dir) 1

/-- The word a unit supplies, as a queue word. -/
def unitWordOf (w : FabWord) (time : Nat) : QWord :=
  { data := w.data, tag := w.tag, mark := if w.mark then some { time := time } else none }

/-- The next released output of a sequencer. -/
def State.takeReleased (s : State) (c q : Nat) : State × Option QWord :=
  let x := s.seqr c q
  match x.rel with
  | [] => (s, none)
  | w :: ws => (s.putSeqr c q { x with rel := ws }, some w)

/-- The word that arrives, and the core it was sent by, under the source of the command. `inb` takes the head of an inbound
gateway queue of the core's store. -/
def State.fetchWord (s : State) (src : WordFrom) (own : Option Nat) (feed : State × Option QWord)
    (inb : Nat → State × Option QWord) : State × Option (QWord × Option Nat) :=
  match src with
  | .feed => (feed.1, feed.2.map (fun w => (w, own)))
  | .inbound k => let r := inb k; (r.1, r.2.map (fun w => (w, none)))
  | .released c q => let r := s.takeReleased c q; (r.1, r.2.map (fun w => (w, some c.val)))
  | .unit w => (s, some (unitWordOf w s.now, w.src.map (fun c => c.val)))

/-- Run an arrival: the source's word, the OFF_TRAFFIC check (R86), CHECK (R94) under the pipeline whose circuit it is, then its
effect. -/
def State.arrive (s : State) (r : State × Option (QWord × Option Nat)) (unit pos : Nat) (p : Option Nat) (ecc : EccSeen)
    (eff : State → QWord → State) : State :=
  match r.2 with
  | none => s
  | some (w, from') =>
    let o := match from' with | some c => r.1.offTraffic c | none => (r.1, false)
    if o.2 then o.1
    else
      let k := o.1.checkWord unit pos p w ecc
      eff k.1 k.2

/-! ### Row buffers and sequencers, as places of arrival -/

def State.rbuf (s : State) (c b : Nat) : RowBuf := SMap.get (fun _ => {}) s.rbufs (c * 8 + b)
def State.putRbuf (s : State) (c b : Nat) (v : RowBuf) : State := s.setRbufs (SMap.put (fun _ => {}) s.rbufs (c * 8 + b) v)

/-- A row-buffer descriptor (Table 8-4). -/
structure RbufDesc where
  base : Nat
  layout : Nat
  nbands : Nat
  rowBytes : Nat
  bandRows : Nat
  rcBase : Nat
  rows : Nat
  holdBound : Nat
  deriving DecidableEq, Repr

/-- The descriptor of row buffer `b` in the active context slot. -/
def State.rbufDesc (s : State) (c b : Nat) : RbufDesc :=
  let w0 := s.getF (Reg.CC_RBUF c (s.ctx c) b 0)
  let w1 := s.getF (Reg.CC_RBUF c (s.ctx c) b 1)
  { base := bits w0 0 22, layout := bits w0 22 2, nbands := bits w0 24 8, rowBytes := bits w0 32 16,
    bandRows := bits w0 48 8, rcBase := bits w1 0 22, rows := bits w1 22 16, holdBound := bits w1 38 16 }

/-- Bands of a frame. -/
def RbufDesc.bands (d : RbufDesc) : Nat := ceilDiv d.rows (max 1 d.bandRows)

/-- Rows of band `b`. -/
def RbufDesc.rowsOf (d : RbufDesc) (b : Nat) : Nat := min d.bandRows (d.rows - b * d.bandRows)

/-- A word is written at an offset of the open band; the last word of the band's last row makes it valid with its
release count (R213). -/
def State.bandWord (s : State) (c b off : Nat) (endRow : Bool) (w : QWord) : State :=
  let x := s.rbuf c b
  match x.cur with
  | none => s
  | some (slot, rows) =>
    let d := s.rbufDesc c b
    let a := d.base + slot * (d.rowBytes * d.bandRows) + off / 8 * 8
    let s1 := (s.storePut c a 0 (leBytes 8 w.data.toNat)).1
    if endRow then
      let sl := SMap.get (fun _ => {}) x.slots slot
      if d.rowsOf sl.band ≤ rows + 1 then
        let rc := (s1.rdByte (storeKey c (d.rcBase + sl.band))).toNat
        let sl1 : RingSlot := { sl with valid := true, remaining := rc }
        s1.putRbuf c b { x with cur := none, slots := SMap.put (fun _ => {}) x.slots slot sl1 }
      else s1.putRbuf c b { x with cur := some (slot, rows + 1) }
    else s1

/-- A sequencer entry (spec/23 Table 23-5). -/
structure SeqDesc where
  outCount : Nat
  stage : Nat
  retallyMax : Nat
  pipe : Nat
  valid : Bool
  base : Nat
  len : Nat
  deriving DecidableEq, Repr

/-- The entry of sequencer `q` in the active context slot. -/
def State.seqDesc (s : State) (c q : Nat) : SeqDesc :=
  let w0 := s.getF (Reg.CC_SEQ c (s.ctx c) q 0)
  let w1 := s.getF (Reg.CC_SEQ c (s.ctx c) q 1)
  { outCount := bits w0 0 32, stage := bits w0 32 8, retallyMax := bits w0 40 2, pipe := bits w0 42 2, valid := bit1 w0 44,
    base := bits w1 0 22, len := bits w1 32 22 }

/-- The oldest admitted frame whose outputs a stage has not released (R76). -/
def Pipe.oldestOwing (p : Pipe) (stage : Nat) : Option Frame :=
  p.frames.find? (fun f => f.admitted && !f.stagesDone.contains stage)

/-- Offsets of a sequencer's reorder area that hold an output. -/
def SeqSt.stored (x : SeqSt) : List Nat := x.frames.flatMap (fun f => f.held.filterMap (fun w => w.addr))

/-- Bytes in a sequencer's reorder area (R76, R363). -/
def State.reorderBytes (s : State) (c q : Nat) : Nat := 8 * (s.seqr c q).stored.length

/-- The lowest free 8 bytes of a sequencer's reorder area (R76; DESIGN CHOICE, log entry 103: the spec orders none). -/
def State.reorderSlot (s : State) (c q : Nat) : Option Nat :=
  let d := s.seqDesc c q
  ((List.range (d.len / 8)).map (fun i => d.base + 8 * i)).find? (fun a => !(s.seqr c q).stored.contains a)

/-- An output is held in the reorder area: those of frames behind the oldest, and all outputs of an armed stage (R76, R144). -/
def State.reorders (s : State) (c q fif : Nat) : Bool :=
  let d := s.seqDesc c q
  d.retallyMax != 0 || some fif != ((s.pipe d.pipe).oldestOwing d.stage).map (fun f => f.fif)

/-- The output that a sequencer would take next has room: it goes past the reorder area, or the area has 8 bytes free (R77). -/
def State.seqRoom (s : State) (c q : Nat) (w : QWord) : Bool :=
  !s.reorders c q (fifOf w.tag) || (s.reorderSlot c q).isSome

/-- The sequencer holds its producers, and its stage departs (R77, R114). -/
def State.seqFull (s : State) (c q slot : Nat) (tag : Byte) : State :=
  if (s.seqr c q).full then s
  else (s.putSeqr c q { s.seqr c q with full := true }).departs c (uCore c) (s.seqDesc c q).stage slot 2 tag

/-- An output of a stage reaches its sequencer, which has room for it: it is counted and held for its frame, in the reorder area of
the core store when it must wait there (R76, R363). -/
def State.seqPush (s : State) (c q slot : Nat) (w : QWord) : State :=
  let x := s.seqr c q
  let fif := fifOf w.tag
  let at' := if s.reorders c q fif then s.reorderSlot c q else none
  let fs : List SeqFrame := if x.frames.any (fun f => f.fif == fif) then x.frames else x.frames ++ [{ fif := fif }]
  let fs1 := fs.map (fun f => if f.fif == fif then { f with got := f.got + 1, held := f.held ++ [{ word := w, addr := at' }] } else f)
  let s0 := s.putSeqr c q { x with frames := fs1 }
  let s1 := match at' with
    | some a => (s0.storePut c a 0 (leBytes 8 w.data.toNat)).1
    | none => s0
  let n := s1.reorderBytes c q
  let s2 := if s.debugMode && decide (s.getF (Reg.CC_HZ_SEQ c (s.ctx c) q) < n) && !x.occRaised.contains fif then
      (s1.putSeqr c q { s1.seqr c q with occRaised := x.occRaised ++ [fif] }).reportTag 0 0x00B (uCore c) c w.tag
        [(16, q), (22, n)]
    else s1
  if at'.isSome && (s2.reorderSlot c q).isNone then s2.seqFull c q slot w.tag else s2

/-- The word that an arrival would bring, left where it is. -/
def State.peekWord (s : State) (src : WordFrom) (c : Nat) (feed : List QWord) : Option QWord :=
  match src with
  | .feed => feed.head?
  | .inbound k => (s.gw c 1 (16 + k)).words.head?
  | .released c q => (s.seqr c q).rel.head?
  | .unit w => some (unitWordOf w s.now)

/-! ### Spine tables -/

/-- A spine table word (Table 4-7). -/
def State.spineWord (s : State) (q port bank slot : Nat) : Nat :=
  (SMap.get (fun _ => 0#32) s.spine (((q * 40 + port) * 4 + bank) * 128 + slot)).toNat

/-- The owning pipeline of a slot, the same in all banks (R105). -/
def State.slotOwner (s : State) (q port slot : Nat) : Option Nat :=
  let e := s.spineWord q port 0 slot
  if bit1 e 14 then some (bits e 12 2) else none

/-- The context slot that a pipeline runs in. -/
def State.pipeCtx (s : State) (p : Nat) : Nat :=
  match s.coresOf p with
  | [] => 0
  | c :: _ => s.ctx c

/-- The table word in force for an output port in a slot (R105, R106): none for an unowned or uncorrectable entry, and for slot 127. -/
def State.spineRow (s : State) (q port slot : Nat) : Option Nat :=
  match s.slotOwner q port slot with
  | none => none
  | some p =>
    let bank := s.pipeCtx p
    if slot = 127 || SMap.get (fun _ => false) s.spineBad (((q * 40 + port) * 4 + bank) * 128 + slot) then none
    else some (s.spineWord q port bank slot)

/-- The input port that an output port forwards in a slot. -/
def State.spineEntry (s : State) (q port slot : Nat) : Option Nat :=
  (s.spineRow q port slot).bind (fun e => if bits e 0 6 < 40 then some (bits e 0 6) else none)

/-- The port whose reverse hold vector leaves through a port in a slot (R110). -/
def State.holdEntry (s : State) (q port slot : Nat) : Option Nat :=
  (s.spineRow q port slot).bind (fun e => if bits e 6 6 < 40 then some (bits e 6 6) else none)

/-- The output port that takes an input port's flit in a slot; at most one does (R106). -/
def State.outputOf (s : State) (q port slot : Nat) : Option Nat :=
  (List.range 40).find? (fun o => s.spineEntry q o slot == some port)

/-- The pipeline whose circuit an input port carries in a slot: the owner of the output's slot, or, where no output takes the
flit, the owner of the slot at the port itself (DESIGN CHOICE, log entry 102). -/
def State.inputOwner (s : State) (q port slot : Nat) : Option Nat :=
  match s.outputOf q port slot with
  | some o => s.slotOwner q o slot
  | none => s.slotOwner q port slot

/-- The spine has reached a slot: its counter runs with the Almanac, slot 0 at each multiple of 128 ns (R104, R403). While the
time base runs on the crystal, or the relation is lost, no instant is known for a slot and none is reached. -/
def State.atSpineSlot (s : State) (slot : Nat) : State :=
  if s.alm.crystal || !s.flag Reg.QSK_SFRAME_STAT_LOCK then s else s.reach (s.now + (slot + 128 - s.now % 128) % 128)

/-- A slot that a core's counter reaches: the core is ON, and the slot lies before its period (R86, R96). -/
def State.inPeriod (s : State) (c slot : Nat) : Bool := s.domOn c && decide (slot < s.getF (Reg.CC_CTX_PERIOD c (s.ctx c)))

/-- A core's slot counter has reached a slot of its schedule (R96). -/
def State.atCoreSlot (s : State) (c slot : Nat) : State := s.onCore c (fun x => { x with slot := slot })

def flitKey (q port slot : Nat) : Nat := (q * 40 + port) * 128 + slot
def State.flit (s : State) (k : Nat) : List (Nat × QWord) := SMap.get (fun _ => []) s.flits k
def State.putFlit (s : State) (k : Nat) (ws : List (Nat × QWord)) : State := s.setFlits (SMap.put (fun _ => []) s.flits k ws)

/-- A word at a switch input waits for the output that its slot routes it to, or is a stray (R118). -/
def State.switchWord (s : State) (q port pos slot : Nat) (w : QWord) : State :=
  if (s.outputOf q port slot).isSome then
    s.putFlit (flitKey q port slot) (s.flit (flitKey q port slot) ++ [(pos, w)])
  else s.strayWord (uSpineSlot q port slot) (s.inputOwner q port slot) pos none w.tag

/-! ### Gateway tables (R107 to R109) -/

/-- The table word of a gateway in a slot; direction 0 outbound, 1 inbound. A core's bank is its active context slot; an attached unit's
is that of the pipeline that owns the slot, and without one the word is idle. -/
def State.gwEntry (s : State) (g dir slot : Nat) (p : Option Nat) : Option Nat :=
  if g < 32 then
    some (if dir = 0 then s.getF (Reg.CC_GWOUT g (s.ctx g) slot) else s.getF (Reg.CC_GWIN g (s.ctx g) slot))
  else match endCode ((g - 32) / 40) ((g - 32) % 40), p with
    | some e, some p => some (SMap.get (fun _ => 0#64) s.unitGw (((e * 2 + dir) * 4 + s.pipeCtx p) * 128 + slot)).toNat
    | _, _ => none

/-- The queue that a gateway's table names for a position of a slot: 0 to 24; none is idle. -/
def State.gwCode (s : State) (g dir slot pos : Nat) (p : Option Nat) : Option Nat :=
  (s.gwEntry g dir slot p).bind (fun e => if bits e (5 * pos) 5 ≤ 24 then some (bits e (5 * pos) 5) else none)

/-- How a hold route is named at a gateway: the position, under the pipeline that owns the slot. -/
def holdKey (pos : Nat) (p : Option Nat) : Nat := pos + 8 * p.getD 0

/-- The word that a gateway sends in a position of a slot: the head of the queue that its outbound table names, unless that
position is held, when the queue keeps its head (R107, R108, R110). -/
def State.gwSend (s : State) (g slot pos : Nat) (p : Option Nat) : State × Option QWord :=
  match s.gwCode g 0 slot pos p with
  | none => (s, none)
  | some code =>
    if (s.gw g 0 code).holdIn.contains (holdKey pos p) then (s, none) else s.gwPop g 0 code slot

/-! ### The commands -/

/-- A word at a router's input in a slot of its schedule (R97 to R99, R118). Of the output and delay registers' words, the local queue
that takes one checks it, and each link's receiver its own copy (R94). A tile with FIRE_EN at 0 has no local queues to write, so
LOC_IN reads as idle (R569). -/
def State.routerWord (s : State) (c t k slot : Nat) (src : WordFrom) (ecc : EccSeen) : State :=
  match s.slotEntry c t slot with
  | none => s
  | some e =>
    if k = 0 then s
    else if k = 5 ∨ k = 6 then
      if (List.range 4).any (fun d => outSrc e d == k) || (bits e 12 3 == k && s.fires c t) || (k == 5 && bits e 17 3 == k) then
        let r := s.routerFeed c t k slot e
        match r.2 with
        | none => s
        | some w =>
          let l := if bits e 12 3 == k && s.fires c t then r.1.checkWord (uTile c t) k (s.coreOwner c) w ecc else (r.1, w)
          (l.1.routeWord c t slot k e w l.2).1
      else s
    else
      s.arrive (s.fetchWord src (some c) (s.routerFeed c t k slot e) (fun _ => (s, none))) (uTile c t) k (s.coreOwner c) ecc (fun s w =>
        let r := s.routeWord c t slot k e w w
        if r.2 then r.1 else s.strayWord (uTile c t) (s.coreOwner c) k (some slot) w.tag)

/-- A word at an edge port (R101). Toward the tiles, a gateway lane's inbound queue moves its head unless the port holds; from the
tiles, the word in transit on the link arrives. -/
def State.edgeWord (s : State) (c side lane slot : Nat) (inward : Bool) (src : WordFrom) (ecc : EccSeen) : State :=
  let feed := if inward then (if side = 0 ∧ (s.edge c 0 lane 1).held = false then s.gwPop c 1 lane slot else (s, none))
    else
      match s.wire (edgeWire c side lane) with
      | [] => (s, none)
      | w :: ws => (s.putWire (edgeWire c side lane) ws, some w)
  s.arrive (s.fetchWord src (some c) feed (fun _ => (s, none))) (uCore c) lane (s.coreOwner c) ecc (fun s w =>
    let s1 := s.edgePush c side lane (b2n inward) w
    if side = 1 ∧ inward = false then s1.recvDeliver c lane else s1)

/-- A word for an outbound gateway queue (R108): a lane takes what its edge port holds, unless the queue holds. -/
def State.laneWord (s : State) (c code slot : Nat) (src : WordFrom) (ecc : EccSeen) : State :=
  let feed := if code < 16 ∧ (s.gw c 0 code).held = false then s.edgePop c 0 code 0 else (s, none)
  s.arrive (s.fetchWord src (some c) feed (fun _ => (s, none))) (uCore c) code (s.coreOwner c) ecc
    (fun s w => s.gwPush (s.coreOwner c) c 0 code slot w)

/-- A word at an output sequencer (R76, R77): one that the sequencer has no room for stays where it is, and the sequencer holds. -/
def State.seqWord (s : State) (c q row slot : Nat) (src : WordFrom) (ecc : EccSeen) : State :=
  match s.peekWord src c (s.edge c 3 row 0).words with
  | none => s
  | some w =>
    if s.seqRoom c q w then
      s.arrive (s.fetchWord src (some c) (s.edgePop c 3 row 0) (fun k => s.gwPop c 1 (16 + k) slot)) (uCore c) row
        (s.coreOwner c) ecc (fun s w => s.seqPush c q slot w)
    else s.seqFull c q slot w.tag

/-- A word at a row buffer: while no band is open the producer is held, and the word stays where it is (R213). -/
def State.rowWord (s : State) (c b off slot : Nat) (endRow : Bool) (src : WordFrom) (ecc : EccSeen) : State :=
  if (s.rbuf c b).cur.isNone then s
  else
    s.arrive (s.fetchWord src none (s, none) (fun k => s.gwPop c 1 (16 + k) slot)) (uCore c) b (s.coreOwner c) ecc
      (fun s w => s.bandWord c b off endRow w)

/-- The domain whose traffic a port brings: a core's, or 32 at the ports of the Solstice engine (R86, R227). -/
def portSrc (q port : Nat) : Option Nat :=
  if port < 8 then some (coreAt q port) else if q = 0 ∧ (port = 38 ∨ port = 39) then some 32 else none

/-- A word at a switch input; `feed` is what the gateway on the port sends in that position of the slot (R107, R108). -/
def State.portWord (s : State) (q port pos slot : Nat) (src : WordFrom) (ecc : EccSeen) : State :=
  let p := s.inputOwner q port slot
  let feed := match gateAt q port with
    | some g => s.gwSend g slot pos p
    | none => (s, none)
  s.arrive (s.fetchWord src (portSrc q port) feed (fun _ => (s, none))) (uSpine q port) pos p
    ecc (fun s w => s.switchWord q port pos slot w)

/-- Outputs of a frame of a pipeline that have left their stages and are not yet written: words in sequencers, outbound gateways and
switches, or at a unit's gateway, and writes that have not completed (R27). Words that a channel returned, and those in a core's
inbound queues, are no outputs on their way. -/
def State.inTransit (s : State) (p fif : Nat) : Bool :=
  let cs := s.coresOf p
  let has := fun (ws : List QWord) => ws.any (fun w => !w.back && fifOf w.tag == fif)
  s.reqs.any (fun e => e.2.frame == some (p, fif)) ||
  s.seqs.any (fun e => cs.contains (e.1 / 8) && has e.2.rel) ||
  s.gws.any (fun e => if e.1 < 2048 then e.1 / 32 % 2 == 0 && cs.contains (e.1 / 64) && has e.2.words
    else has (e.2.words.filter (fun w => w.pipe == some p))) ||
  s.flits.any (fun e => s.inputOwner (e.1 / 5120) (e.1 / 128 % 40) (e.1 % 128) == some p && has (e.2.map (fun w => w.2)))

/-- A frame whose stages have all released their outputs completes at the instant its last word has left the fabric (R27). -/
def State.settleFrame (s : State) (p : Nat) (f : Frame) : State :=
  if f.admitted && f.completion.isNone && !f.stagesDone.isEmpty &&
      (s.pipe p).stages.all (fun g => f.stagesDone.contains g.stage) && !s.inTransit p f.fif then
    (s.onPipe p (fun q => { q with
      frames := q.frames.map (fun x => if x.id == f.id then { x with completion := some s.now } else x) })).settleFollower p
  else s

/-- The frames in flight that complete now. -/
def State.settleDone (s : State) : State :=
  [0, 1, 2, 3].foldl (fun s p => (s.pipe p).frames.foldl (fun s f => s.settleFrame p f) s) s

/-- WORD_ARRIVAL (R93, R94, R97, R99, R101, R108, R113, R118): a word arrives at a place in a slot of the core's schedule, or of the
spine's. -/
def execWordArrival (site : FabSite) (slot : Fin 128) (src : WordFrom) (ecc : EccSeen) (s : State) : Out :=
  match site with
  | .router c t k => .next (if s.inPeriod c slot then (s.atCoreSlot c slot).routerWord c t k slot src ecc else s)
  | .edge c side lane inward =>
    .next (if s.inPeriod c slot then (s.atCoreSlot c slot).edgeWord c side lane slot inward src ecc else s)
  | .gateway c code => .next (if s.inPeriod c slot then (s.atCoreSlot c slot).laneWord c code slot src ecc else s)
  | .seq c q row => .next (if s.inPeriod c slot then (s.atCoreSlot c slot).seqWord c q row slot src ecc else s)
  | .rowBuf c b off endRow =>
    .next (if s.inPeriod c slot then ((s.atCoreSlot c slot).rowWord c b off slot endRow src ecc).settleDone else s)
  | .switch q port pos => .next ((s.atSpineSlot slot).portWord q port pos slot src ecc)

/-! ### The slot frame (R403) -/

/-- A resident pipeline has a circuit over the link. -/
def State.linkUsed (s : State) (l : Nat) : Bool := [0, 1, 2, 3].any (fun n => s.loaded n && (s.pipe n).links.contains l)

/-- LOCK falls, with the phase error in ns: DEGRADED.0x40A while any link carries owned slots, once per excursion (R403). -/
def State.loseLock (s : State) (err : Int) : State :=
  if !s.flag Reg.QSK_SFRAME_STAT_LOCK then s
  else
    let s1 := s.setF Reg.QSK_SFRAME_STAT_LOCK 0
    if (List.range 8).any (fun l => s.linkUsed l) && !s.qsk.unlocked then
      (s1.report 1 0x40A uDevice [(24, uint 24 (satI 24 err))]).setQsk { s1.qsk with unlocked := true }
    else s1

/-! ### Holds (R110) -/

/-- The hold bit that a tile router sends in a direction under an entry: the OR of the hold bits and queue holds that its mask
selects (Table 4-2). -/
def State.holdBit (s : State) (c t slot e d : Nat) : Bool :=
  let x := s.tile c t
  let m := bits e (20 + 8 * d) 8
  (List.range 4).any (fun i => bit1 m i && lastHold x.holdIn (128 * i) slot 0) ||
  (List.range 4).any (fun q => bit1 m (4 + q) && x.holds q)

/-- The hold bit that reaches a tile from a direction in a slot: what the neighbour sent in the slot before (Table 4-6), or the hold
of the edge port that the tile's link leads to. -/
def State.holdToTile (s : State) (c t dir slot : Nat) : Bool :=
  match neighbour t dir with
  | none => (s.edge c dir (edgeLane t dir) 0).held
  | some (t', src) =>
    let n := s.getF (Reg.CC_CTX_PERIOD c (s.ctx c))
    match s.slotEntry c t' ((slot + n - 1) % max 1 n) with
    | some e => s.holdBit c t' ((slot + n - 1) % max 1 n) e (src - 1)
    | none => false

/-- The tile whose link leads to an edge port. -/
def edgeTile (side lane : Nat) : Nat :=
  match side with
  | 0 => lane
  | 1 => lane * 16 + 15
  | 2 => 240 + lane
  | _ => lane * 16

/-- A quadrant's peer over a trunk port (Table 4-5). -/
def trunkPeer (q port : Nat) : Nat := if port < 28 then q ^^^ 1 else if port < 32 then q ^^^ 2 else q ^^^ 3

/-- The hold bit of a position that leaves a switch port in a slot (R110): HOLD_SRC names the port it comes from, where a gateway
sends the hold of the queue that its inbound table names for the hold slot, 0 where that names none: no table names the queue otherwise
(DESIGN CHOICE, log entry 102). A trunk brings what the peer sent 7 slots before (R323), and `n` bounds the trunks of a route. A Quosk link
brings the vector that the peer sent for the slot (R405). -/
def State.holdAtPort (s : State) : Nat → Nat → Nat → Nat → Nat → Bool
  | 0, _, _, _, _ => false
  | n + 1, q, port, slot, pos =>
    match s.holdEntry q port slot with
    | none => false
    | some h =>
      match gateAt q h with
      | some g => match s.gwCode g 1 slot pos (s.slotOwner q port slot) with
        | some code => (s.gw g 1 code).held
        | none => false
      | none =>
        if 24 ≤ h ∧ h < 36 then State.holdAtPort s n (trunkPeer q h) h ((slot + 121) % 128) pos
        else SMap.get (fun _ => 0) (s.qlink (2 * q + (h - 36))).holdRx (slot * 8 + pos) == 2

/-- Record the last hold bit of a route at a queue. -/
def FabQueue.setHoldIn (x : FabQueue) (k : Nat) (bit : Bool) : FabQueue :=
  { x with holdIn := if bit then x.holdIn.filter (fun i => i != k) ++ [k] else x.holdIn.filter (fun i => i != k) }

/-- The hold bit that a tile sends to the edge port on its link in a slot. -/
def State.holdToEdge (s : State) (c side lane slot : Nat) : Bool :=
  match s.slotEntry c (edgeTile side lane) slot with
  | some e => s.holdBit c (edgeTile side lane) slot e side
  | none => false

/-- The hold bit of a sample: the route's, or the one that comes from outside. -/
def holdBitOf (src : HoldFrom) (route : Bool) : Bool :=
  match src with
  | .route => route
  | .unit b => b

/-- HOLD_SAMPLE (R110): a hold bit reaches a producer along its route, and the producer applies it to its next forward slots. -/
def execHoldSample (site : HoldSite) (slot : Fin 128) (src : HoldFrom) (s : State) : Out :=
  match site with
  | .tile c t dir =>
    .next (if s.inPeriod c slot then
      let s1 := s.atCoreSlot c slot
      s1.onTile c t (fun x => { x with holdIn := putHold x.holdIn (128 * dir.val) slot (holdBitOf src (s1.holdToTile c t dir slot)) })
      else s)
  | .edge c side lane =>
    .next (if s.inPeriod c slot then
      let s1 := s.atCoreSlot c slot
      let g := s1.edge c side lane 1
      s1.putEdge c side lane 1 { g with holdAt := putHold g.holdAt 0 slot (holdBitOf src (s1.holdToEdge c side lane slot)) }
      else s)
  | .link l pos =>
    .next (match src with
      | .unit b => if s.linkUp l then
          let k := (slot.val + 3) % 128 * 8 + pos.val
          s.onLink l (fun x => { x with holdRx := SMap.put (fun _ => 0) x.holdRx k (if b then 2 else 1) })
        else s
      | .route => s)
  | .gateway g code pos =>
    let qp := gatePort g
    let s1 := s.atSpineSlot slot
    .next (s1.putGw g 0 code ((s1.gw g 0 code).setHoldIn (holdKey pos (s1.slotOwner qp.1 qp.2 slot))
      (holdBitOf src (s1.holdAtPort 4 qp.1 qp.2 slot pos))))

/-! ### The tag table -/

def Tile.tagAt (x : Tile) (j : Nat) : Option TagSlot := SMap.get (fun _ => none) x.tags j
def Tile.putTag (x : Tile) (j : Nat) (v : Option TagSlot) : Tile := { x with tags := SMap.put (fun _ => none) x.tags j v }

/-- The slot that holds a tag, and the lowest free slot (R68). -/
def Tile.slotOf (x : Tile) (tag : Byte) : Option Nat :=
  (List.range 8).find? (fun j => match x.tagAt j with | some y => y.tag == tag | none => false)
def Tile.freeTag (x : Tile) : Option Nat := (List.range 8).find? (fun j => (x.tagAt j).isNone)
def Tile.tagsHeld (x : Tile) : Nat := ((List.range 8).filter (fun j => (x.tagAt j).isSome)).length

/-- A dynamic register of a tag slot. -/
def Tile.rdDyn (x : Tile) (j off : Nat) : W32 := SMap.get (fun _ => 0#32) x.dyn (j * 8 + off % 8)
def Tile.wrDyn (x : Tile) (j off : Nat) (v : W32) : Tile := { x with dyn := SMap.put (fun _ => 0#32) x.dyn (j * 8 + off % 8) v }

/-- The word's registers: low half at OFF_X, high half after it (R568). -/
def Tile.takeWord (x : Tile) (j off q : Nat) (y : TagSlot) (w : QWord) : Tile :=
  ((x.wrDyn j off (BitVec.ofNat 32 w.data.toNat)).wrDyn j (off + 1) (BitVec.ofNat 32 (w.data.toNat / 2 ^ 32))).putTag j
    (some { y with present := y.present ||| 2 ^ q, marks := y.marks ++ w.mark.toList })

/-- TAG_OCCUPANCY_EXCEEDED, in debug mode, once per tile per frame (R362). -/
def State.tagOcc (s : State) (c t : Nat) (tag : Byte) : State :=
  let x := s.tile c t
  let n := x.tagsHeld
  let decl := bits (s.getF (Reg.CC_HZ_TAG c (s.ctx c) (t / 16))) (4 * (t % 16)) 4
  let key := 32 + fifOf tag
  if s.debugMode && decide (decl < n) && !SMap.get (fun _ => false) x.occRaised key then
    (s.onTile c t (fun x => { x with occRaised := SMap.put (fun _ => false) x.occRaised key true })).reportTag 0 0x00A
      (uTile c t) c tag [(16, n), (8, tag.toNat)]
  else s

/-- QUEUE_HEAD_MOVE (R68 to R70, R112, R182): a local queue's head moves into the tag table when its tag is held or a
tag slot is free; a second operand for a present port is discarded. -/
def execQueueHeadMove (c : Fin 32) (t : Fin 256) (q : Fin 4) (s : State) : Out :=
  let x := s.tile c t
  match x.q q with
  | [] => .next s
  | w :: ws =>
    let off := bits (s.tileCtl c t) (32 + 3 * q.val) 3
    match x.slotOf w.tag with
    | some j =>
      match x.tagAt j with
      | none => .next s
      | some y =>
        let s1 := s.putTile c t (x.putQ q ws)
        let s2 := if bit1 y.present q then
            (s1.reportTag 1 0x025 (uTile c t) c w.tag [(8, w.tag.toNat), (5, q)]).voidTag c w.tag 4
          else s1.onTile c t (fun x => x.takeWord j off q y w)
        .next (s2.tileHold c t q (s.core c).slot w.tag)
    | none =>
      match x.freeTag with
      | none => .next (s.departs c (uTile c t) (s.tileStage c t) (s.core c).slot 1 w.tag)
      | some j =>
        let x1 := { x.putQ q ws with dyn := SMap.drop (fun k => k / 8 == j) x.dyn }
        let s1 := s.putTile c t (x1.takeWord j off q { tag := w.tag } w)
        .next ((s1.tagOcc c t w.tag).tileHold c t q (s.core c).slot w.tag)

/-- The bound of a sequencer's hold, which R77 takes from R70: the largest HOLD_BOUND of the stage's tiles on the core (DEDUCED, log entry
103). -/
def State.seqBound (s : State) (c q : Nat) : Nat :=
  maxOf (((List.range 256).filter (fun t => s.fires c t && s.tileStage c t == (s.seqDesc c q).stage)).map
    (fun t => bits (s.getF (Reg.CC_CTX_ROUTER_HDR c (s.ctx c) t)) 28 16))

/-- JOIN_STALL (R115): one continuous hold of a queue has lasted `cycles` cycles. -/
def execJoinStall (site : StallSite) (slot : Fin 128) (cycles : Nat) (s : State) : Out :=
  match site with
  | .tile c t q =>
    let x := s.tile c t
    let bound := bits (s.getF (Reg.CC_CTX_ROUTER_HDR c (s.ctx c) t)) 28 16
    if x.holds q && !SMap.get (fun _ => false) x.stalled q && decide (bound * 16 < cycles) then
      .next ((s.onTile c t (fun x => { x with stalled := SMap.put (fun _ => false) x.stalled q true })).report 1 0x006
        (uTile c t) [(5, q), (16, slot)])
    else .next s
  | .gateway c code =>
    let g := s.gw c 1 code
    let bound := s.getF (Reg.CC_GW_HDR_HOLD_BOUND c (s.ctx c))
    if g.held && !g.stalled && decide (bound * 16 < cycles) then
      .next ((s.putGw c 1 code { g with stalled := true }).report 1 0x006 (uCore c) [(5, code), (16, slot)])
    else .next s
  | .seq c q =>
    let x := s.seqr c q
    if x.full && !x.stalled && decide (s.seqBound c q * 16 < cycles) then
      .next ((s.putSeqr c q { x with stalled := true }).report 1 0x006 (uCore c) [(5, q), (16, slot)])
    else .next s

/-! ### Quadrant switches -/

/-- The words that enter a switch on a port in a slot: those that wait there, and, where the port has a gateway, what it sends in
the other positions, checked by the switch (R94, R107, R108). -/
def State.inputFlit (s : State) (q port slot : Nat) (p : Option Nat) (ecc : List EccSeen) : State × List (Nat × QWord) :=
  let ws := s.flit (flitKey q port slot)
  let s1 := s.putFlit (flitKey q port slot) []
  match gateAt q port with
  | none => (s1, ws)
  | some g =>
    (List.range 8).foldl (fun (acc : State × List (Nat × QWord)) (j : Nat) =>
      if ws.any (fun x => x.1 == j) then acc
      else
        let r := acc.1.gwSend g slot j p
        match r.2 with
        | none => acc
        | some w =>
          let k := r.1.checkWord (uSpine q port) j p w (ecc.getD j .clean)
          (k.1, acc.2 ++ [(j, k.2)])) (s1, ws)

/-- The words of the frame that the tail path serves leave the queues of its port; those of a waiting frame stay, held on their circuit
(R232). -/
def State.settleTail (s : State) : State :=
  match s.sol.tail with
  | [] => s
  | (p, fif) :: _ =>
    let mine := fun (w : QWord) => w.pipe == some p && fifOf w.tag == fif
    (List.range 25).foldl (fun (s : State) (code : Nat) =>
      let x := s.gw 71 1 code
      let ws := x.words.takeWhile mine
      if ws.isEmpty then s
      else
        let rest := x.words.dropWhile mine
        (s.putGw 71 1 code { x with words := rest, held := decide (32 ≤ rest.length) }).setSol { s.sol with
          tailIn := SMap.put (fun _ => []) s.sol.tailIn (p * 8 + fif)
            (SMap.get (fun _ => []) s.sol.tailIn (p * 8 + fif) ++ ws) }) s

/-- A word reaches an attached unit's inbound gateway queue (R109). A memory channel's words wait there for the request that they
are; the tail path and the block codec take theirs as R232 and R307 say; a unit whose reading the spec leaves to itself takes them at
once. -/
def State.unitWord (s : State) (g code slot : Nat) (p : Option Nat) (w : QWord) : State :=
  let v := { w with pipe := p }
  match endCode ((g - 32) / 40) ((g - 32) % 40) with
  | some 0x3001 =>
    let s1 := s.gwPush p g 1 code slot v
    let id := (p.getD 0, fifOf w.tag)
    (s1.setSol { s1.sol with tail := if s1.sol.tail.contains id then s1.sol.tail else s1.sol.tail ++ [id] }).settleTail
  | some 0x3003 =>
    let k := p.getD 0 * 32 + code
    s.setCodec (SMap.put (fun _ => []) s.codec k (SMap.get (fun _ => []) s.codec k ++ [v]))
  | some 0x3000 | some 0x3002 | some 0x3004 | some 0x3005 | none =>
    s.emit (.word 1 ((g - 32) / 40) ((g - 32) % 40) w.data w.tag w.mark.isSome)
  | some _ => s.gwPush p g 1 code slot v

/-- A flit reaches a gateway: each word, once checked, enters the queue that the inbound table names (R94, R107, R108, R118). -/
def State.gateFlit (s : State) (g slot : Nat) (p : Option Nat) (ws : List (Nat × QWord)) (ecc : List EccSeen) : State :=
  ws.foldl (fun s x =>
    let k := s.checkWord (uGate g) x.1 p x.2 (ecc.getD x.1 .clean)
    match k.1.gwCode g 1 slot x.1 p with
    | none => k.1.strayWord (uGate g) p x.1 (some slot) k.2.tag
    | some code =>
      if g < 32 then
        let s1 := k.1.gwPush p g 1 code slot k.2
        if code = 24 ∧ s1.domOn g = true then s1.recvDeliver g 16 else s1
      else k.1.unitWord g code slot p k.2) s

/-- Bits [73:0] of a fabric word (Table 4-1). -/
def fabBits (w : QWord) : Nat := w.data.toNat + w.tag.toNat * 2 ^ 64 + b2n w.mark.isSome * 2 ^ 72 + 2 ^ 73

/-- A link unit of Table 15-1: TYPE, SLOT, FRAME, the hold sample of slot `hold.1` if there is one, and the payload. The grouping of units
into codewords, with CWSEQ, the code and the alignment blocks, is left out (log entry 121). -/
def linkUnit (type slot frame : Nat) (hold : Option (Nat × Nat)) (payload : Nat) : List Byte :=
  let h := match hold with
    | some x => 2 ^ 19 + x.1 * 2 ^ 20 + x.2 * 2 ^ 27
    | none => 0
  leBytes 80 (type + slot * 2 ^ 4 + frame * 2 ^ 11 + h + payload * 2 ^ 48)

/-- The hold sample that a switch forwards into a link in a slot: the bits of its 8 positions, where the entry of the link's port names a
source for them (R110, R405). -/
def State.linkHold (s : State) (q port slot : Nat) : Option (Nat × Nat) :=
  (s.holdEntry q port slot).map (fun _ =>
    (slot, (List.range 8).foldl (fun v pos => v + b2n (s.holdAtPort 4 q port slot pos) * 2 ^ pos) 0))

/-- A switch forwards into an UP link that is not looped back: a FLIT unit, in two copies, where its entry names an input, and otherwise,
where there is a hold sample to send, an IDLE unit with it (R405). -/
def State.sendFlit (s : State) (q port slot : Nat) (flit : Option (List (Nat × QWord))) : State :=
  let l := 2 * q + (port - 36)
  if s.linkUp l && s.getF (Reg.QSK_L_LOOP l) == 0 then
    let hold := s.linkHold q port slot
    match flit with
    | some ws =>
      let u := linkUnit 1 slot (s.qlink l).frame hold (ws.foldl (fun v x => v + fabBits x.2 * 2 ^ (74 * x.1)) 0)
      (s.emit (.quosk l u)).emit (.quosk l u)
    | none => if hold.isSome then s.emit (.quosk l (linkUnit 0 0 0 hold 0)) else s
  else s

/-- A flit leaves an output port of a quadrant switch (R94, R103, R118): over a trunk it reaches the peer switch 7 slots later, which
checks it; a gateway takes it. An UP link sends it even when no position is VALID, with the FRAME number that its slot-frame port has
set (R404, R405). -/
def State.outFlit (s : State) (q port slot : Nat) (p : Option Nat) (ws : List (Nat × QWord)) (ecc : List EccSeen) : State :=
  if port = 36 ∨ port = 37 then s.sendFlit q port slot (some ws)
  else if 24 ≤ port ∧ port < 36 then
    ws.foldl (fun s x =>
      let k := s.checkWord (uSpine (trunkPeer q port) port) x.1 p x.2 (ecc.getD x.1 .clean)
      k.1.switchWord (trunkPeer q port) port x.1 ((slot + 7) % 128) k.2) s
  else match gateAt q port with
    | some g => s.gateFlit g slot p ws ecc
    | none => ws.foldl (fun s x => s.emit (.word 1 q port x.2.data x.2.tag x.2.mark.isSome)) s

/-- A spine table entry is lost (R106): frames that have still to cross its port become VOID. -/
def State.loseEntry (s : State) (p q port slot : Nat) : State := s.losePath p (uSpineSlot q port slot) (q * 40 + port)

/-- FLIT_FORWARD (R105, R106): in a slot of the spine a switch reads the entry of an output port and moves the input's flit through
it. A corrected entry is reported; an uncorrectable one idles its slot, in which the words that waited for it are strays (R118), and
loses the path of its pipeline. `ecc` holds what the checks of the
flit's words find. -/
def execFlitForward (q : Fin 4) (port : Fin 40) (slot : Fin 128) (tab : EccSeen) (ecc : FlitEcc) (s : State) : Out :=
  let s := s.atSpineSlot slot
  match s.slotOwner q port slot with
  | none => .next s
  | some p =>
    let k := ((q.val * 40 + port.val) * 4 + s.pipeCtx p) * 128 + slot.val
    if tab = .double ∧ ¬ SMap.get (fun _ => false) s.spineBad k then
      let s1 := (((s.setSpineBad (SMap.put (fun _ => false) s.spineBad k true)).reportP 3 0x009
        (uSpineSlot q port slot) p []).loseEntry p q port slot)
      .next (match s.spineEntry q port slot with
        | some src => (s1.flit (flitKey q src slot)).foldl (fun s x => s.strayWord (uSpineSlot q src slot) (some p) x.1 none x.2.tag)
            (s1.putFlit (flitKey q src slot) [])
        | none => s1)
    else
      let s1 := if tab = .single then s.report 0 0x008 (uSpineSlot q port slot) [] else s
      match s1.spineEntry q port slot with
      | none => .next (if port.val = 36 ∨ port.val = 37 then s1.sendFlit q port slot none else s1)
      | some src =>
        let o := match portSrc q src with
          | some d => s1.offTraffic d
          | none => (s1, false)
        let r := o.1.inputFlit q src slot (some p) ecc.sent
        if o.2 then .next (if r.2.isEmpty then s1 else r.1)
        else .next (r.1.outFlit q port slot (some p) r.2 ecc.got).settleDone

end Sys2Proof.Machine
end

