-- ==== Sys2Proof/Machine/Tile.lean ====
section
/-!
DEFINITION. Tile operations (spec/07_tile_operations.md R180 to R205, with spec/03 R65 to R74 and spec/05 R120 to R148):
firings, the accumulator slots, spills, element-wise and conversion operations and emission.
-/

namespace Sys2Proof.Machine

/-! ### The firing -/

/-- Where a micro-instruction issues: core, tile, tag slot and tag. -/
structure FireAt where
  c : Nat
  t : Nat
  j : Nat
  tag : Byte
  deriving DecidableEq, Repr

/-- Count an event of a tile in a tally counter, under the stage filter (R91, R92). -/
def State.tallyTile (s : State) (c t i n : Nat) : State :=
  if s.flag (Reg.CC_TALLY_CTL_STAGE_EN c) && s.getF (Reg.CC_TALLY_CTL_STAGE c) != s.tileStage c t then s
  else s.addF (Reg.CC_TALLY c i) n

/-- Age of a frame-in-flight number in admission order (R72); 8 when no admitted frame has it. -/
def State.frameAge (s : State) (c fif : Nat) : Nat :=
  match s.coreOwner c with
  | none => 8
  | some p => (((s.pipe p).frames.filter (fun f => f.admitted)).findIdx? (fun f => f.fif == fif)).getD 8

/-- The expected iteration of a frame (R71). -/
def Tile.iterAt (x : Tile) (fif : Nat) : Nat := SMap.get (fun _ => 0) x.expIter fif
def Tile.setIter (x : Tile) (fif n : Nat) : Tile := { x with expIter := SMap.put (fun _ => 0) x.expIter fif n }

/-- A tag slot is complete and, where the context is iteration-ordered, its turn has come (R68, R71). -/
def State.eligible (s : State) (c t j : Nat) : Bool :=
  match (s.tile c t).tagAt j with
  | none => false
  | some y =>
    let ctl := s.tileCtl c t
    let need := bits ctl 8 4
    y.present &&& need == need &&
      (!bit1 ctl 12 || (s.tile c t).iterAt (fifOf y.tag) % 32 == iterOf y.tag)

/-- The order in which eligible tags fire: the oldest frame, then the lowest iteration number of the tag (R72). -/
def State.fireRank (s : State) (c t j : Nat) : Nat :=
  match (s.tile c t).tagAt j with
  | none => 0
  | some y => s.frameAge c (fifOf y.tag) * 32 + iterOf y.tag

/-- The tag slot that fires next. -/
def State.nextFire (s : State) (c t : Nat) : Option Nat :=
  let js := (List.range 8).filter (fun j => s.eligible c t j)
  js.find? (fun j => js.all (fun k => s.fireRank c t j ≤ s.fireRank c t k))

/-- A firing consumes a marked word (R65, R94): its frame becomes VOID; a poisoned core-store or carry word is reported
with its address and the tile. -/
def State.consumeMark (s : State) (c t : Nat) (tag : Byte) (m : Mark) : State :=
  match m.addr with
  | none => s.voidTagAt c tag m.reason m.time
  | some a =>
    let r := match s.place a with
      | .store _ off => s.reportTag 1 0x024 (uTile c t) c tag [(22, off)]
      | .carry _ e _ => s.reportTag 1 0x028 (uTile c t) c tag [(22, e)]
      | _ => s
    r.voidTag c tag 3

/-- Start the firing of a tag slot (R71, R72, R91). -/
def State.startFiring (s : State) (c t j : Nat) : State :=
  match (s.tile c t).tagAt j with
  | none => s
  | some y =>
    let fif := fifOf y.tag
    let n := (s.tile c t).iterAt fif + 1
    let trip := bits (s.tileCtl c t) 16 16 + 1
    let s1 := s.onTile c t (fun x => (x.setIter fif (if trip ≤ n then 0 else n)).putTag j (some { y with marks := [] }))
    let s2 := s1.onTile c t (fun x => { x with firing := some { slot := j, tag := y.tag } })
    (y.marks.foldl (fun s m => s.consumeMark c t y.tag m) s2).tallyTile c t 2 1

/-- FIRING: an idle tile of a core that is ON starts the body of its next eligible tag. -/
def execFiring (c : Fin 32) (t : Fin 256) (s : State) : Out :=
  if s.domOn c && s.fires c t && (s.tile c t).firing.isNone then
    match s.nextFire c t with
    | some j => .next (s.startFiring c t j)
    | none => .next s
  else .next s

/-- The micro-instruction has issued: the next one follows, or the firing ends and its tag slot is freed (R68, R72). -/
def State.tileNext (s : State) (f : FireAt) : State :=
  s.onTile f.c f.t (fun x => match x.firing with
    | none => x
    | some g =>
      if g.pc < bits (s.tileCtl f.c f.t) 0 4 then { x with firing := some { g with pc := g.pc + 1 } }
      else ({ x with firing := none }).putTag g.slot none)

/-- The codes of PM and TY (Table 7-1). -/
def pmCode (m : PredMode) : Nat := match m with | .always => 0 | .ifP => 1 | .ifNotP => 2
def tyCode (t : TileTy) : Nat := match t with | .i32 => 0 | .i8 => 1 | .u8 => 2

/-- A body word holds operation `op` with a command's fields (Table 7-1). -/
def bodyIs (op : Nat) (mi : TileInstr) (w : Nat) : Bool :=
  bits w 0 6 == op && bits w 6 6 == mi.dst.val && bits w 12 6 == mi.sa.val && bits w 18 6 == mi.sb.val &&
  bits w 24 6 == mi.sc.val && bits w 30 2 == pmCode mi.pm && bits w 32 2 == tyCode mi.ty && bits w 34 4 == mi.acc.val &&
  bit1 w 38 == mi.fx && bit1 w 39 == mi.imb && bits w 40 3 == mi.md.val && bits w 48 16 == mi.imm.toNat

/-- The body word at a place of the active context (Table 23-2). -/
def State.bodyWord (s : State) (c t pc : Nat) : Nat := s.getF (Reg.CC_CTX_BODY c (s.ctx c) t pc)

/-- The slots of the core's schedule that take a word of the tile's output queue, to a link, to one of its own queues or to its delay
register, with their entries (Table 4-3). -/
def State.outSlots (s : State) (c t : Nat) : List (Nat × Nat) :=
  ((List.range 64).filterMap (fun k => (s.slotEntry c t k).map (fun e => (k, e)))).filter (fun x =>
    (List.range 4).any (fun d => outSrc x.2 d == 5) || (bits x.2 12 3 == 5 && s.fires c t) || bits x.2 17 3 == 5)

/-- A tile's output is held: it has slots to send in, and the hold bits last received stop it in each of them (R110; DEDUCED,
log entry 112). -/
def State.outStopped (s : State) (c t : Nat) : Bool :=
  let es := s.outSlots c t
  !es.isEmpty && es.all (fun x => s.outHeld c t x.1 x.2)

/-- Issue a micro-instruction (R72, R73, R180, R203): nothing happens unless a firing is in progress on a core that is ON, the command
is the body's next word, of operation `op`, and every word of the last one has entered the output queue; `sends` says that it
sends a word of its own, for which there must be room and no hold (R110). -/
def State.tileIssue (s : State) (op : Nat) (mi : TileInstr) (sends : State → FireAt → Bool) (body : State → FireAt → State) :
    State :=
  if !s.domOn mi.core then s
  else
    match (s.tile mi.core mi.tile).firing with
    | none => s
    | some g =>
      let f : FireAt := ⟨mi.core, mi.tile, g.slot, g.tag⟩
      let n := (s.tile mi.core mi.tile).outq.length
      if bodyIs op mi (s.bodyWord mi.core mi.tile g.pc) = true ∧
          (sends s f = false ∧ n ≤ 2 ∨ n ≤ 1 ∧ s.outStopped mi.core mi.tile = false) then (body s f).tileNext f
      else s

/-- An operation that sends no word. -/
def sendsNone (_ : State) (_ : FireAt) : Bool := false

/-- A word enters the output queue with a tag; it carries MARK when the frame is VOID (R78, R94, R202). -/
def State.tileSend (s : State) (f : FireAt) (data : W64) (tag : Byte) : State :=
  let mark : Option Mark := match s.tagFrame f.c f.tag with
    | some fr => fr.void.map (fun v => { reason := v.1, time := v.2 })
    | none => none
  s.onTile f.c f.t (fun x => { x with outq := x.outq ++ [{ data := data, tag := tag, mark := mark }] })

/-! ### Registers (R181, Table 7-2) -/

/-- Read the register of an operand specifier. -/
def State.rdReg (s : State) (f : FireAt) (n : Nat) : Nat :=
  if n < 56 then bits (s.getF (Reg.CC_CTX_ST f.c (s.ctx f.c) f.t (n / 2))) (32 * (n % 2)) 32
  else ((s.tile f.c f.t).rdDyn f.j (n - 56)).toNat

/-- Write the register of an operand specifier. -/
def State.wrReg (s : State) (f : FireAt) (n v : Nat) : State :=
  if n < 56 then
    let r := Reg.CC_CTX_ST f.c (s.ctx f.c) f.t (n / 2)
    s.setF ⟨r.off, 32 * (n % 2), 32⟩ v
  else s.onTile f.c f.t (fun x => x.wrDyn f.j (n - 56) (BitVec.ofNat 32 v))

/-- Byte `k` of the run at a specifier: byte k mod 4 of register n + ⌊k/4⌋. -/
def State.runByte (s : State) (f : FireAt) (n k : Nat) : Nat := bits (s.rdReg f (n + k / 4)) (8 * (k % 4)) 8

/-- Replace a byte lane of a register. -/
def State.wrLane (s : State) (f : FireAt) (n lane v : Nat) : State :=
  let x := s.rdReg f n
  s.wrReg f n (x - bits x (8 * lane) 8 * 2 ^ (8 * lane) + v % 256 * 2 ^ (8 * lane))

/-- The predicate: bit 0 of the register of port P (R188, R568). -/
def State.predicate (s : State) (f : FireAt) : Bool :=
  bit1 ((s.tile f.c f.t).rdDyn f.j (bits (s.tileCtl f.c f.t) 41 3)).toNat 0

/-- Whether the instruction writes DST (R188). -/
def predWrites (m : PredMode) (p : Bool) : Bool :=
  match m with
  | .always => true
  | .ifP => p
  | .ifNotP => !p

/-! ### Element-wise operations (R183, R198, R199) -/

/-- The lanes of a register under an element type, as integers. -/
def lanesOf (ty : TileTy) (x : Nat) : List Int :=
  match ty with
  | .i32 => [sint 32 x]
  | .i8 => (List.range 4).map (fun l => sint 8 (bits x (8 * l) 8))
  | .u8 => (List.range 4).map (fun l => ((bits x (8 * l) 8 : Nat) : Int))

/-- The register that holds lanes. -/
def ofLanes (ty : TileTy) (ls : List Int) : Nat :=
  match ty with
  | .i32 => uint 32 (ls.getD 0 0)
  | _ => (List.range 4).foldl (fun acc l => acc + uint 8 (ls.getD l 0) * 2 ^ (8 * l)) 0

/-- The bounds of an element type. -/
def tyLo (ty : TileTy) : Int := match ty with | .i32 => -2147483648 | .i8 => -128 | .u8 => 0
def tyHi (ty : TileTy) : Int := match ty with | .i32 => 2147483647 | .i8 => 127 | .u8 => 255

/-- The immediate as a register (R183). -/
def immReg (mi : TileInstr) : Nat :=
  match mi.ty with
  | .i32 => uint 32 (sint 16 mi.imm.toNat)
  | _ => (mi.imm.toNat % 256) * 0x01010101

/-- The second source: SB or the immediate. -/
def State.srcB (s : State) (f : FireAt) (mi : TileInstr) : Nat := if mi.imb then immReg mi else s.rdReg f mi.sb

/-- An element-wise result, lane by lane, saturated to the type; the Bool says that a lane saturated. -/
def laneMap (ty : TileTy) (g : Nat → Int) : Nat × Bool :=
  let xs := (List.range (if ty = .i32 then 1 else 4)).map g
  (ofLanes ty (xs.map (fun x => clampI (tyLo ty) (tyHi ty) x)), xs.any (fun x => x != clampI (tyLo ty) (tyHi ty) x))

/-- Add to a stage's counts of a frame: outputs released, saturated outputs, SV instructions. -/
def State.stageCount (s : State) (c : Nat) (tag : Byte) (stage : Nat) (sat sv : Nat) : State :=
  match s.coreOwner c with
  | none => s
  | some p => s.onFrame p (fifOf tag) (fun fr =>
      let o := SMap.get (fun _ => (0, 0, 0)) fr.outs stage
      { fr with outs := SMap.put (fun _ => (0, 0, 0)) fr.outs stage (o.1, o.2.1 + sat, o.2.2 + sv) })

/-- An instruction set SV (R199). -/
def State.svEvent (s : State) (f : FireAt) : State :=
  (s.addF (Reg.CC_TALLY f.c 13) 1).stageCount f.c f.tag (s.tileStage f.c f.t) 0 1

/-- Write an element-wise result under the predicate (R188). -/
def State.elemWrite (s : State) (f : FireAt) (mi : TileInstr) (r : Nat × Bool) : State :=
  if predWrites mi.pm (s.predicate f) then
    let s1 := s.wrReg f mi.dst r.1
    if r.2 then s1.svEvent f else s1
  else s

/-- An element-wise operation of lanes of SA, SB (or the immediate) and SC. -/
def State.elemOp (mi : TileInstr) (g : Int → Int → Int → Int) (s : State) (f : FireAt) : State :=
  let a := lanesOf mi.ty (s.rdReg f mi.sa)
  let b := lanesOf mi.ty (s.srcB f mi)
  let k := lanesOf mi.ty (s.rdReg f mi.sc)
  s.elemWrite f mi (laneMap mi.ty (fun l => g (a.getD l 0) (b.getD l 0) (k.getD l 0)))

/-- The condition of CMP: 0 EQ, 1 NE, 2 LT, 3 LE, 4 GT, 5 GE. -/
def cmpCond (md : Nat) (a b : Int) : Bool :=
  match md with
  | 0 => decide (a = b)
  | 1 => decide (a ≠ b)
  | 2 => decide (a < b)
  | 3 => decide (a ≤ b)
  | 4 => decide (a > b)
  | _ => decide (a ≥ b)

/-- RSHR of a lane: k is the lane of SB read as unsigned; a shift of the width and one or more gives 0 (R198). -/
def rshrLane (a : Int) (k : Nat) : Int := if 40 ≤ k then 0 else divRNE a (2 ^ k)

/-- NOP. -/
def execNop (mi : TileInstr) (s : State) : Out := .next (s.tileIssue 0 mi sendsNone (fun s _ => s))

/-- ADD. -/
def execTileAdd (mi : TileInstr) (s : State) : Out :=
  .next (s.tileIssue 8 mi sendsNone (State.elemOp mi (fun a b _ => a + b)))

/-- SUB. -/
def execTileSub (mi : TileInstr) (s : State) : Out :=
  .next (s.tileIssue 9 mi sendsNone (State.elemOp mi (fun a b _ => a - b)))

/-- MAX. -/
def execTileMax (mi : TileInstr) (s : State) : Out :=
  .next (s.tileIssue 10 mi sendsNone (State.elemOp mi (fun a b _ => if a < b then b else a)))

/-- MIN. -/
def execTileMin (mi : TileInstr) (s : State) : Out :=
  .next (s.tileIssue 11 mi sendsNone (State.elemOp mi (fun a b _ => if b < a then b else a)))

/-- CMP. -/
def execTileCmp (mi : TileInstr) (s : State) : Out :=
  .next (s.tileIssue 12 mi sendsNone (State.elemOp mi (fun a b _ => if cmpCond mi.md a b then 1 else 0)))

/-- SEL. -/
def execTileSel (mi : TileInstr) (s : State) : Out :=
  .next (s.tileIssue 13 mi sendsNone (State.elemOp mi (fun a b k => if k ≠ 0 then a else b)))

/-- The width of a lane. -/
def tyBits (ty : TileTy) : Nat := if ty = .i32 then 32 else 8

/-- RSHR. -/
def execTileRshr (mi : TileInstr) (s : State) : Out :=
  .next (s.tileIssue 14 mi sendsNone (State.elemOp mi (fun a b _ => rshrLane a (uint (tyBits mi.ty) b))))

/-- CLAMP: lo and hi from SB and SC, or with IMB from the two bytes of IMM; hi wins when lo exceeds it. -/
def execClamp (mi : TileInstr) (s : State) : Out :=
  .next (s.tileIssue 15 mi sendsNone (fun s f =>
    if mi.imb then
      let lo := (lanesOf mi.ty (mi.imm.toNat % 256)).getD 0 0
      let hi := (lanesOf mi.ty (mi.imm.toNat / 256)).getD 0 0
      State.elemOp mi (fun a _ _ => let x := if a < lo then lo else a; if hi < x then hi else x) s f
    else State.elemOp mi (fun a b k => let x := if a < b then b else a; if k < x then k else x) s f))

/-- MOV. -/
def execMov (mi : TileInstr) (s : State) : Out :=
  .next (s.tileIssue 16 mi sendsNone (fun s f =>
    State.elemOp mi (fun a b _ => if mi.imb then b else a) s f))

/-- EMIT (R202): the pair at SA, tagged with the firing's frame and its iteration moved on by IMM[4:0]. -/
def execEmit (mi : TileInstr) (s : State) : Out :=
  .next (s.tileIssue 19 mi (fun _ _ => true) (fun s f =>
    let data := s.rdReg f mi.sa + 2 ^ 32 * s.rdReg f (mi.sa + 1)
    let tag := fifOf f.tag * 32 + (iterOf f.tag + mi.imm.toNat % 32) % 32
    s.tileSend f (BitVec.ofNat 64 data) (BitVec.ofNat 8 tag)))

/-! ### The accumulator header and slots (R184 to R187) -/

/-- The accumulator header of a context (Table 7-4); `gsize` is G in elements, 0 in a SUM context. -/
structure AccHdr where
  rows : Nat
  cols : Nat
  /-- 0 A32, 1 A32X, 2 A16S -/
  fmt : Nat
  int4 : Bool
  carry : Bool
  spillK : Nat
  gsize : Nat
  corr : Nat
  gmul : Nat
  corrEn : Bool
  plen : Nat
  deriving DecidableEq, Repr

/-- The header of a tile's active context. -/
def State.accHdr (s : State) (c t : Nat) : AccHdr :=
  let w := s.getF (Reg.CC_CTX_ACC_HDR c (s.ctx c) t)
  let rc : Nat × Nat := match bits w 0 3 with
    | 0 => (4, 8)
    | 1 => (8, 4)
    | 2 => (2, 16)
    | 3 => (16, 2)
    | _ => (1, 32)
  { rows := rc.1, cols := rc.2, fmt := bits w 3 2, int4 := bit1 w 5, carry := bit1 w 6, spillK := bits w 7 4,
    gsize := if bits w 11 2 = 0 then 0 else 16 * 2 ^ bits w 11 2, corr := bits w 13 6, gmul := bits w 19 6,
    corrEn := bit1 w 25, plen := bits w 32 32 }

/-- Accumulator slots per cell (Table 5-1). -/
def AccHdr.slots (h : AccHdr) : Nat := if h.fmt = 0 then 8 else if h.fmt = 1 then 4 else 16

/-- The groups of a part (R185). -/
def AccHdr.ng (h : AccHdr) : Nat := ceilDiv h.plen (max 1 h.gsize)

/-- The slot that ACC and FX name (Table 7-1). -/
def accSlotOf (h : AccHdr) (f : FireAt) (mi : TileInstr) : Nat :=
  if mi.fx then (mi.acc + fifOf f.tag) % h.slots else mi.acc

def Tile.slotAcc (x : Tile) (k : Nat) : AccSlot := SMap.get (fun _ => {}) x.acc k
def State.accOf (s : State) (f : FireAt) (k : Nat) : AccSlot := (s.tile f.c f.t).slotAcc k
def State.putAcc (s : State) (f : FireAt) (k : Nat) (a : AccSlot) : State :=
  s.onTile f.c f.t (fun x => { x with acc := SMap.put (fun _ => {}) x.acc k a })

def AccSlot.cellOf (a : AccSlot) (k : Nat) : Int := SMap.get (fun _ => 0) a.cell k
def AccSlot.satOf (a : AccSlot) (k : Nat) : Bool := SMap.get (fun _ => false) a.sat k
def AccSlot.chunkOf (a : AccSlot) (k : Nat) : Int := SMap.get (fun _ => 0) a.chunk k
def AccSlot.elemOf (a : AccSlot) (k : Nat) : Option Nat := SMap.get (fun _ => none) a.elem k
def AccSlot.rowSumOf (a : AccSlot) (c : Nat) : Int := SMap.get (fun _ => 0) a.rowSum c

/-- The reduction element of a cell's i-th element (R191). -/
def AccHdr.elemNo (h : AccHdr) (col i : Nat) : Nat := 16 * (i / 16 * h.cols + col) + i % 16

/-- Every element 0 to PLEN − 1 has been taken once each cell has been offered `n` (R191). -/
def AccHdr.partDone (h : AccHdr) (n : Nat) : Bool :=
  let jl := (h.plen - 1) / 16
  let rl := jl / h.cols
  if jl % h.cols = 0 then decide (16 * rl + (h.plen - 16 * jl) ≤ n) else decide (16 * rl + 16 ≤ n)

/-- Promotion (R121, R122): the chunk register is added, saturating, into the cell register. -/
def AccSlot.promote (a : AccSlot) (k : Nat) : AccSlot :=
  let x := a.cellOf k + a.chunkOf k
  let y := clampI (-2147483648) 2147483647 x
  { a with
    cell := SMap.put (fun _ => 0) a.cell k y
    sat := SMap.put (fun _ => false) a.sat k (a.satOf k || x != y)
    chunk := SMap.put (fun _ => 0) a.chunk k 0 }

/-- A cell takes one product as its i-th element (R121, R126, R191). -/
def AccSlot.takeProduct (h : AccHdr) (a : AccSlot) (row col i : Nat) (p : Int) : AccSlot :=
  let k := row * h.cols + col
  let e := h.elemNo col i
  if h.plen ≤ e then a
  else if h.fmt = 2 then
    let x := a.cellOf k + p
    let y := clampI (-32768) 32767 x
    { a with
      cell := SMap.put (fun _ => 0) a.cell k y
      sat := SMap.put (fun _ => false) a.sat k (a.satOf k || x != y) }
  else
    let a1 := { a with chunk := SMap.put (fun _ => 0) a.chunk k (a.chunkOf k + p) }
    if i % 16 = 15 ∨ e + 1 = h.plen then a1.promote k else a1

/-- A column's row-sum register takes an activation operand (R193). -/
def AccSlot.takeSum (h : AccHdr) (a : AccSlot) (col i : Nat) (x : Int) : AccSlot :=
  if h.plen ≤ h.elemNo col i then a
  else { a with rowSum := SMap.put (fun _ => 0) a.rowSum col (a.rowSumOf col + x) }

/-- Column 0 has just completed a chunk with its i-th element (R130, R187). -/
def AccHdr.chunkEnds (h : AccHdr) (i : Nat) : Bool :=
  let e := h.elemNo 0 i
  decide (e < h.plen) && (decide (i % 16 = 15) || decide (e + 1 = h.plen))

/-! ### Frames seen from a tile -/

/-- The Retally pass of a tag's frame in a stage (R145, R146). -/
def State.passOf (s : State) (c : Nat) (tag : Byte) (stage : Nat) : Nat :=
  match s.tagFrame c tag with
  | some fr => SMap.get (fun _ => 0) fr.attempt stage
  | none => 0

/-- Scale and zero point of a tensor in a frame's bank (R163); where no bank holds the tensor they are free values (DESIGN CHOICE, log
entry 17). -/
def State.bankOf (s : State) (c : Nat) (tag : Byte) (tensor : Nat) : Nat × Nat :=
  match (s.tagFrame c tag).bind (fun fr => fr.bank.find? (fun e => e.1 == tensor)) with
  | some e => (e.2.1.toNat, e.2.2)
  | none => let o := Config.oddScale (fifOf tag) tensor; (o.1.toNat, o.2.toNat)

/-- The stage's rescale descriptor (R569, Table 6-3). -/
def State.rescDesc (s : State) (c t : Nat) : RescDesc :=
  let g := bits (s.tileCtl c t) 44 3
  RescDesc.ofWords (s.getF (Reg.CC_RSC c (s.ctx c) g 0)) (s.getF (Reg.CC_RSC c (s.ctx c) g 1))

/-- The scales that a rescale uses (R163 to R170), with the code b of the epilogue. -/
def State.rescCtx (s : State) (f : FireAt) (d : RescDesc) (b : Nat) : RescCtx :=
  let out := s.bankOf f.c f.tag d.outT
  let epi := s.bankOf f.c f.tag d.epiT
  { sIn := (s.bankOf f.c f.tag d.inT).1, sOut := if d.out = 1 then d.sFixed else out.1, zOut := out.2,
    r := s.passOf f.c f.tag (s.tileStage f.c f.t), b := b, sB := epi.1, zB := epi.2 }

/-- Change the frame of a tag. -/
def State.onTag (s : State) (c : Nat) (tag : Byte) (g : Frame → Frame) : State :=
  match s.coreOwner c with
  | some p => s.onFrame p (fifOf tag) g
  | none => s

/-- A range clamp of a tensor (R156). -/
def State.countClamp (s : State) (c : Nat) (tag : Byte) (stage tensor : Nat) : State :=
  (s.addF (Reg.CC_TALLY c 13) 1).onTag c tag (fun fr =>
    let k := stage * 4096 + tensor
    { fr with clamps := SMap.put (fun _ => 0) fr.clamps k (SMap.get (fun _ => 0) fr.clamps k + 1) })

/-- Fold an observed value into the range of a tensor (R175). -/
def Frame.observe (fr : Frame) (tensor x : Nat) : Frame :=
  let r := SMap.get (fun _ => (0#32, 0#32)) fr.ranges tensor
  let q := rangeTake (r.1.toNat, r.2.toNat) x
  { fr with ranges := SMap.put (fun _ => (0#32, 0#32)) fr.ranges tensor (BitVec.ofNat 32 q.1, BitVec.ofNat 32 q.2) }

/-- Rescale a total (R167 to R170), count its clamp and its SAT, and observe a U8_STREAM value (R142, R156, R175). -/
def State.rescaleCount (s : State) (f : FireAt) (t : Int) (sat : Bool) (e : RescEntry) (b : Nat) : State × RescOut :=
  let d := s.rescDesc f.c f.t
  let x := s.rescCtx f d b
  let o := rescale t e d x
  let g := s.tileStage f.c f.t
  let s1 := if o.clamp then s.countClamp f.c f.tag g d.outT else s
  let s2 := if sat then s1.stageCount f.c f.tag g 1 0 else s1
  let s3 := match o.v with
    | some v => if d.out = 0 then s2.onTag f.c f.tag (fun fr => fr.observe d.outT (observed v e d x.sOut)) else s2
    | none => s2
  (s3, o)

/-! ### Spills (R128 to R131, R138, R194) -/

/-- The correction addend of a row's part or group (R161, R162, R185): the block's registers, and the row sums of the
columns that hold it. -/
def State.addend (s : State) (f : FireAt) (h : AccHdr) (a : AccSlot) (block : Nat) (cols : List Nat) : Int :=
  if !h.corrEn then 0
  else
    let r0 := s.rdReg f (h.corr + 3 * block)
    let r1 := s.rdReg f (h.corr + 3 * block + 1)
    let r2 := s.rdReg f (h.corr + 3 * block + 2)
    let w := sint 40 (r0 + 2 ^ 32 * bits r2 0 8)
    let k := sint 40 (r1 + 2 ^ 32 * bits r2 8 8)
    let zw := sint 8 (bits r2 16 8)
    let sum := (cols.map (fun c => a.rowSumOf c)).foldl (· + ·) 0
    let d := s.rescDesc f.c f.t
    let za : Int := if s.passOf f.c f.tag (s.tileStage f.c f.t) = 0 then ((s.bankOf f.c f.tag d.inT).2 : Int) else 0
    za * k - za * w - zw * sum

/-- The sum of a row's cells over columns; the tree of Table 5-3 is exact, so its order cannot change it (R129). -/
def AccSlot.rowTotal (h : AccHdr) (a : AccSlot) (row : Nat) (cols : List Nat) : Int :=
  (cols.map (fun c => a.cellOf (row * h.cols + c))).foldl (· + ·) 0

/-- The OR of a row's SAT bits. -/
def AccSlot.rowSat (h : AccHdr) (a : AccSlot) (row : Nat) (cols : List Nat) : Bool :=
  cols.any (fun c => a.satOf (row * h.cols + c))

/-- The merge of R141 of two candidates with indices; none is EMPTY. -/
def pickX (isMin : Bool) (x y : Option (Int × Nat)) : Option (Int × Nat) :=
  match x, y with
  | none, y => y
  | x, none => x
  | some (h, k), some (v, i) =>
    if (if isMin then decide (v < h) else decide (v > h)) || (v == h && decide (i < k)) then some (v, i) else some (h, k)

/-- The merged pair of a row (R141). -/
def AccSlot.rowPick (h : AccHdr) (a : AccSlot) (row : Nat) : Option (Int × Nat) :=
  (List.range h.cols).foldl (fun acc c =>
    let k := row * h.cols + c
    pickX a.isMin acc ((a.elemOf k).map (fun i => (a.cellOf k, i)))) none

/-- A value word of a spill (Table 5-4). -/
def spillWord (value : Int) (sat last : Bool) (index : Nat) : W64 :=
  BitVec.ofNat 64 (uint 48 value + b2n sat * 2 ^ 48 + b2n last * 2 ^ 49 + index % 2 ^ 14 * 2 ^ 50)

/-- An index word of an A32X spill (Table 5-4). -/
def indexWord (p : Option (Int × Nat)) : W64 :=
  match p with
  | some (_, i) => BitVec.ofNat 64 (i % 2 ^ 31)
  | none => BitVec.ofNat 64 (2 ^ 31)

/-- The words of one spill in order: rows ascending, and within a row groups ascending (R194). `round` is the round of
columns that a GROUP spill closes. A group's sum with its addend is scaled exactly where it leaves int32, which R138 does
not bound (DESIGN CHOICE, log entry 104). -/
def State.spillWords (s : State) (f : FireAt) (h : AccHdr) (a : AccSlot) (last : Bool) (round : Nat) : List W64 :=
  let all := List.range h.cols
  (List.range h.rows).flatMap (fun row =>
    if h.fmt = 1 then
      let p := a.rowPick h row
      [spillWord ((p.map (fun x => x.1)).getD 0) false last (a.index + row), indexWord p]
    else if h.gsize = 0 then
      let v := a.rowTotal h row all + (if last then s.addend f h a row all else 0)
      [spillWord v (a.rowSat h row all) last (a.index + row)]
    else
      let w := h.gsize / 16
      let per := h.cols / w
      let gs := (List.range per).filter (fun g => decide ((round * h.cols + g * w) * 16 < h.plen))
      gs.map (fun g =>
        let cols := (List.range w).map (fun i => g * w + i)
        let k := round * per + g
        let sum := a.rowTotal h row cols + s.addend f h a (row * h.ng + k) cols
        let p := sum * (s.rdReg f (h.gmul + row * h.ng + k) : Int)
        spillWord (divRNE p (2 ^ 16)) (a.rowSat h row cols) (last && g + 1 == gs.length) (a.index + row)))

/-- The slot after a spill: the cell registers are cleared; a GROUP spill clears the row sums of its columns too
(R130, R193). -/
def AccSlot.afterSpill (h : AccHdr) (a : AccSlot) : AccSlot :=
  { a with cell := [], elem := [], chunks := 0, rowSum := if h.gsize = 0 then a.rowSum else [] }

/-- The slot after its final spill or OUT: value 0, SAT 0 and EMPTY 1, closed, with its index base and INDEX (R194); in a GROUP
context the columns of its last groups clear their row sums too (R193). -/
def AccSlot.finish (h : AccHdr) (a : AccSlot) : AccSlot :=
  { a with cell := [], sat := [], chunk := [], elem := [], chunks := 0, closed := true,
           rowSum := if h.gsize = 0 then a.rowSum else [] }

/-- What a spill condition makes the slot do after its elements have been taken (R130, R138, R194): the interval, a
group end, or the end of the part. -/
inductive SpillKind where
  | no | interval | final
  deriving DecidableEq, Repr

/-- The spill that the slot's `n` offered elements call for; an A16S register is an output of its own and spills nothing (R126,
R130). -/
def AccHdr.spillAt (h : AccHdr) (a : AccSlot) (n : Nat) : SpillKind :=
  if !h.carry ∨ h.fmt = 2 then .no
  else if h.partDone n then .final
  else if h.gsize = 0 then (if 2 ^ h.spillK ≤ a.chunks then .interval else .no)
  else if n % 16 = 0 then .interval else .no

/-- Spill, or close a direct-output part, after an accumulating operation. -/
def State.spill (s : State) (f : FireAt) (h : AccHdr) (k : Nat) (a : AccSlot) : State :=
  let done := h.partDone a.count
  match h.spillAt a a.count with
  | .no => s.putAcc f k { a with closed := done }
  | .interval =>
    let ws := s.spillWords f h a false ((a.count - 1) / 16)
    (ws.foldl (fun s w => s.tileSend f w f.tag) s).putAcc f k (a.afterSpill h)
  | .final =>
    let ws := s.spillWords f h a true ((a.count - 1) / 16)
    (ws.foldl (fun s w => s.tileSend f w f.tag) s).putAcc f k (a.finish h)

/-- Whether an accumulating operation that offers `d` elements to the slot has spill words (R203). -/
def State.spillsNext (mi : TileInstr) (d : Nat) (s : State) (f : FireAt) : Bool :=
  let h := s.accHdr f.c f.t
  let a := s.accOf f (accSlotOf h f mi)
  let ch := ((List.range d).filter (fun i => h.chunkEnds (a.count + i))).length
  !a.closed && h.spillAt { a with chunks := a.chunks + ch } (a.count + d) != .no

/-! ### MAC (R190 to R193) -/

/-- The activation operand of a byte: the code, or in Retally pass r the centred code divided by 2^r (R146, R192). -/
def actOperand (za r : Nat) (a : Nat) : Int := if r = 0 then (a : Int) else divRNE ((a : Int) - za) (2 ^ r)

/-- The weight operand of a cell: a signed byte, or a nibble of an int4 pair, the low one earlier (R190). -/
def weightOperand (int4 : Bool) (b half : Nat) : Int := if int4 then sint 4 (bits b (4 * half) 4) else sint 8 b

/-- Every cell takes the half-th element of one MAC (R190, R191); answers the slot and the products computed. -/
def State.macHalf (s : State) (f : FireAt) (mi : TileInstr) (h : AccHdr) (za r half : Nat) (a : AccSlot) (ops : Nat) :
    AccSlot × Nat :=
  let i := a.count
  let act := fun (c : Nat) => actOperand za r (s.runByte f mi.sb (if h.int4 then 2 * c + half else c))
  let wgt := fun (k : Nat) => weightOperand h.int4 (s.runByte f mi.sa k) half
  let a1 := (List.range (h.rows * h.cols)).foldl (fun a k =>
    a.takeProduct h (k / h.cols) (k % h.cols) i (wgt k * act (k % h.cols))) a
  let a2 := if mi.md.val % 2 = 1 then (List.range h.cols).foldl (fun a c => a.takeSum h c i (act c)) a1 else a1
  let n := ((List.range h.cols).filter (fun c => decide (h.elemNo c i < h.plen))).length * h.rows
  ({ a2 with count := i + 1, chunks := a2.chunks + b2n (h.chunkEnds i) }, ops + n)

/-- MAC. -/
def execMac (mi : TileInstr) (s : State) : Out :=
  .next (s.tileIssue 1 mi (fun s f => State.spillsNext mi (if (s.accHdr f.c f.t).int4 then 2 else 1) s f) (fun s f =>
    let h := s.accHdr f.c f.t
    let k := accSlotOf h f mi
    let a := s.accOf f k
    if a.closed then s
    else
      let r := s.passOf f.c f.tag (s.tileStage f.c f.t)
      let za := (s.bankOf f.c f.tag (s.rescDesc f.c f.t).inT).2
      let x1 := s.macHalf f mi h za r 0 a 0
      let x := if h.int4 then s.macHalf f mi h za r 1 x1.1 x1.2 else x1
      (s.tallyTile f.c f.t 3 x.2).spill f h k x.1))

/-! ### MAXX, MINX, RESUME (R195, R197) -/

/-- A cell takes a candidate as the reduction's element `e`. -/
def AccSlot.takeCand (h : AccHdr) (a : AccSlot) (k e : Nat) (v : Int) : AccSlot :=
  if h.plen ≤ e then a
  else
    match pickX a.isMin ((a.elemOf k).map (fun i => (a.cellOf k, i))) (some (v, (a.base + e) % 2 ^ 31)) with
    | some (v', i) =>
      { a with
        cell := SMap.put (fun _ => 0) a.cell k v'
        elem := SMap.put (fun _ => none) a.elem k (some i) }
    | none => a

/-- MAXX and MINX: candidates of SA are merged into the slot (R197). A slot that has taken both is merged by the rule of its last
operation: R141 names one rule a slot and does not say which then (DESIGN CHOICE, log entry 104). -/
def State.candidates (mi : TileInstr) (isMin : Bool) (s : State) (f : FireAt) : State :=
  let h := s.accHdr f.c f.t
  let k := accSlotOf h f mi
  let a0 := s.accOf f k
  if a0.closed then s
  else
    let a := { a0 with isMin := isMin }
    let i := a.count
    let a1 := match mi.ty with
      | .i32 =>
        let col := i / 16 % h.cols
        (List.range h.rows).foldl (fun (a : AccSlot) row => a.takeCand h (row * h.cols + col) i (sint 32 (s.rdReg f (mi.sa + row)))) a
      | _ =>
        (List.range (h.rows * h.cols)).foldl (fun (a : AccSlot) k =>
          let b := s.runByte f mi.sa k
          a.takeCand h k (h.elemNo (k % h.cols) i) (if mi.ty = TileTy.i8 then sint 8 b else (b : Int))) a
    let ends := match mi.ty with
      | .i32 => decide (i / 16 % h.cols = 0) && decide (i < h.plen) && (decide (i % 16 = 15) || decide (i + 1 = h.plen))
      | _ => h.chunkEnds i
    let a2 := { a1 with count := i + 1, chunks := a1.chunks + b2n ends }
    -- an I32 part ends when its one element counter reaches PLEN
    let done := match mi.ty with | .i32 => decide (h.plen ≤ a2.count) | _ => h.partDone a2.count
    if !h.carry then s.putAcc f k { a2 with closed := done }
    else if done then
      ((s.spillWords f h a2 true 0).foldl (fun s w => s.tileSend f w f.tag) s).putAcc f k (a2.finish h)
    else if 2 ^ h.spillK ≤ a2.chunks then
      ((s.spillWords f h a2 false 0).foldl (fun s w => s.tileSend f w f.tag) s).putAcc f k (a2.afterSpill h)
    else s.putAcc f k a2

/-- Whether MAXX or MINX has spill words. -/
def State.candSpills (mi : TileInstr) (s : State) (f : FireAt) : Bool :=
  let h := s.accHdr f.c f.t
  let a := s.accOf f (accSlotOf h f mi)
  let i := a.count
  let done := match mi.ty with | .i32 => decide (h.plen ≤ i + 1) | _ => h.partDone (i + 1)
  let ends := match mi.ty with
    | .i32 => decide (i / 16 % h.cols = 0) && decide (i < h.plen) && (decide (i % 16 = 15) || decide (i + 1 = h.plen))
    | _ => h.chunkEnds i
  !a.closed && h.carry && (done || decide (2 ^ h.spillK ≤ a.chunks + b2n ends))

/-- MAXX. -/
def execMaxx (mi : TileInstr) (s : State) : Out :=
  .next (s.tileIssue 2 mi (State.candSpills mi) (State.candidates mi false))

/-- MINX. -/
def execMinx (mi : TileInstr) (s : State) : Out :=
  .next (s.tileIssue 3 mi (State.candSpills mi) (State.candidates mi true))

/-- RESUME: open the slot for a new output tile. -/
def execResume (mi : TileInstr) (s : State) : Out :=
  .next (s.tileIssue 4 mi sendsNone (fun s f =>
    s.putAcc f (accSlotOf (s.accHdr f.c f.t) f mi)
      { index := mi.imm.toNat % 2 ^ 14,
        base := if mi.md.val % 2 = 1 then s.rdReg f mi.sb % 2 ^ 31 else 0 }))

/-! ### OUT, RESCALE, QUANT (R196, R200, R201) -/

/-- The rescale entry in the pair of registers at a specifier. -/
def State.rescEntry (s : State) (f : FireAt) (n : Nat) : RescEntry :=
  RescEntry.ofWord (s.rdReg f n + 2 ^ 32 * s.rdReg f (n + 1))

/-- Write one rescaled output of OUT by its form: a code in lane `i`, a WIDE value, or RAW with SAT (R196). -/
def State.outWrite (s : State) (f : FireAt) (dst i form : Nat) (o : RescOut) (sat : Bool) : State :=
  if form = 3 then (s.wrReg f (dst + 2 * i) o.q).wrReg f (dst + 2 * i + 1) (b2n sat)
  else if form = 2 then s.wrReg f (dst + i) o.q
  else s.wrLane f (dst + i / 4) (i % 4) o.q

/-- OUT in A32: the row's total with its addend, saturated to int32, rescaled and written; its sources are those of state `s0`, at
issue (R182). -/
def State.outA32 (mi : TileInstr) (h : AccHdr) (a : AccSlot) (s s0 : State) (f : FireAt) (row : Nat) : State :=
  let all := List.range h.cols
  let x := a.rowTotal h row all + s0.addend f h a row all
  let t := clampI (-2147483648) 2147483647 x
  let sat := a.rowSat h row all || x != t
  let d := s.rescDesc f.c f.t
  let e := s0.rescEntry f (if d.layer then mi.sb.val else mi.sb.val + 2 * row)
  let r := s.rescaleCount f t sat e (s0.runByte f mi.sc row)
  r.1.outWrite f mi.dst row d.out r.2 sat

/-- OUT in A16S: each cell's register, sign-extended, with the entry of its row and no addend. -/
def State.outA16 (mi : TileInstr) (h : AccHdr) (a : AccSlot) (s s0 : State) (f : FireAt) (k : Nat) : State :=
  let d := s.rescDesc f.c f.t
  let e := s0.rescEntry f (if d.layer then mi.sb.val else mi.sb.val + 2 * (k / h.cols))
  let r := s.rescaleCount f (a.cellOf k) (a.satOf k) e (s0.runByte f mi.sc k)
  r.1.outWrite f mi.dst k d.out r.2 (a.satOf k)

/-- OUT in A32X: the merged value, and its index with EMPTY in bit 31. -/
def State.outA32X (mi : TileInstr) (h : AccHdr) (a : AccSlot) (s : State) (f : FireAt) (row : Nat) : State :=
  let p := a.rowPick h row
  (s.wrReg f (mi.dst + 2 * row) (uint 32 ((p.map (fun x => x.1)).getD 0))).wrReg f (mi.dst + 2 * row + 1)
    (indexWord p).toNat

/-- OUT. -/
def execOut (mi : TileInstr) (s : State) : Out :=
  .next (s.tileIssue 5 mi sendsNone (fun s f =>
    let h := s.accHdr f.c f.t
    let k := accSlotOf h f mi
    let a := s.accOf f k
    let s1 :=
      if h.fmt = 0 then (List.range h.rows).foldl (fun u r => State.outA32 mi h a u s f r) s
      else if h.fmt = 1 then (List.range h.rows).foldl (fun s r => State.outA32X mi h a s f r) s
      else (List.range (h.rows * h.cols)).foldl (fun u k => State.outA16 mi h a u s f k) s
    s1.putAcc f k (a.finish h)))

/-- RESCALE: T in SA and its SAT in bit 0 of SA + 1, the entry pair at SB, the epilogue code in the output lane of SC. IMB has no effect on
it, nor on MAC, RESUME and OUT: they read a run or a pair at SB, and an immediate stands for one register (DESIGN CHOICE, log entry
122). -/
def execRescale (mi : TileInstr) (s : State) : Out :=
  .next (s.tileIssue 17 mi sendsNone (fun s f =>
    let t := sint 32 (s.rdReg f mi.sa)
    let sat := bit1 (s.rdReg f (mi.sa + 1)) 0
    let lane := mi.md.val % 4
    let d := s.rescDesc f.c f.t
    let r := s.rescaleCount f t sat (s.rescEntry f mi.sb) (bits (s.rdReg f mi.sc) (8 * lane) 8)
    if d.out ≤ 1 then r.1.wrLane f mi.dst lane r.2.q else r.1.wrReg f mi.dst r.2.q))

/-- Count a non-finite input of a tensor (R160). -/
def Frame.countNonfinite (fr : Frame) (k x : Nat) : Frame :=
  if Fmt.fp32.isFin x then fr
  else
    let n := SMap.get (fun _ => (0, 0, 0)) fr.nonfin k
    let n1 := if Fmt.fp32.isNan x then (n.1 + 1, n.2.1, n.2.2)
      else if x.testBit 31 then (n.1, n.2.1, n.2.2 + 1) else (n.1, n.2.1 + 1, n.2.2)
    { fr with nonfin := SMap.put (fun _ => (0, 0, 0)) fr.nonfin k n1 }

/-- QUANT: SA as FP32 under the scale and zero point of the tensor IMM[11:0]. -/
def execQuant (mi : TileInstr) (s : State) : Out :=
  .next (s.tileIssue 18 mi sendsNone (fun s f =>
    let tensor := mi.imm.toNat % 4096
    let x := s.rdReg f mi.sa
    let b := s.bankOf f.c f.tag tensor
    let q := quantise x b.1 b.2
    let g := s.tileStage f.c f.t
    let s1 := if q.2 then s.countClamp f.c f.tag g tensor else s
    (s1.onTag f.c f.tag (fun fr => fr.countNonfinite (g * 4096 + tensor) x)).wrLane f mi.dst (mi.md.val % 4) q.1))

end Sys2Proof.Machine
end

