-- ==== Sys2Proof/Machine/Array.lean ====
section
/-!
DEFINITION. What follows the tiles (spec/05_accumulation.md R132 to R149, spec/03 R75 to R83, spec/06 R156, R176, R177): the
carry unit, the output sequencers, Retally, the fold of running scales and the end of a section.
-/

namespace Sys2Proof.Machine

/-! ### The carry unit (R132 to R135) -/

/-- A carry region descriptor (Table 5-5). -/
structure CarryDesc where
  base : Nat
  len : Nat
  stride : Nat
  parts : Nat
  /-- 0 SUM, 1 GROUP, 2 MAX, 3 MIN -/
  mode : Nat
  valid : Bool
  outCol : Nat
  deriving DecidableEq, Repr

/-- The descriptor of a region in the active context slot. -/
def State.carryDesc (s : State) (c r : Nat) : CarryDesc :=
  let w := s.getF (Reg.CC_CARRY_DESC c (s.ctx c) r)
  { base := bits w 0 15, len := bits w 15 14, stride := bits w 32 15, parts := 2 ^ bits w 47 2, mode := bits w 49 2,
    valid := bit1 w 51, outCol := bits w 52 4 }

/-- Entries per output: a MAX or MIN pair takes two. -/
def CarryDesc.width (d : CarryDesc) : Nat := if 2 ≤ d.mode then 2 else 1

def State.carryAt (s : State) (c e : Nat) : CarryEntry := SMap.get (fun _ => {}) s.carry (c * 32768 + e % 32768)
def State.putCarry (s : State) (c e : Nat) (x : CarryEntry) : State :=
  s.setCarry (SMap.put (fun _ => {}) s.carry (c * 32768 + e % 32768) x)

/-- The index entry of a pair that holds no candidate: ELEM 0 with EMPTY at 1 (R135, R136). -/
def emptyIndex : CarryEntry := { value := 0x80000000#48 }

/-- The physical key of a carry entry (R61). -/
def carryKey (c e : Nat) : Nat := 0x2100000000 + c * 0x100000 + e * 8

/-- Reset an output's entries as a drain does (R135). -/
def State.resetCarry (s : State) (c : Nat) (d : CarryDesc) (e : Nat) : State :=
  let s1 := s.putCarry c e {}
  if 2 ≤ d.mode then s1.putCarry c (e + 1) emptyIndex else s1

/-- Read an entry for a spill (R64): a correctable error is reported; a bad entry becomes poisoned and is reported. -/
def State.carryMeet (s : State) (c e : Nat) (seen : EccSeen) : State × CarryEntry :=
  let x := s.carryAt c e
  match x.ecc, seen with
  | .clean, .clean => (s, x)
  | .correctable, .clean | .correctable, .single | .clean, .single =>
    ((s.addF (Reg.CC_TALLY c 14) 1).report 0 0x027 (uCore c) [(22, e)], { x with ecc := .clean })
  | _, _ => (s.report 1 0x028 (uCore c) [(22, e), (16, 0)], { x with ecc := .poisoned })

/-- The value that leaves at a drain and whether it saturated (R135, R139). -/
def CarryDesc.total (d : CarryDesc) (v : Int) : Int × Bool :=
  let x := if d.mode = 1 then divRNE v 256 else v
  let y := clampI (-2147483648) 2147483647 x
  (y, x != y)

/-- Drain an entry whose LAST count has reached the number of parts (R135): the output words leave through OUT_COL
with the tag of the completing spill, marked when the entry is poisoned, and the entry is reset. -/
def State.drain (s : State) (c : Nat) (d : CarryDesc) (e index : Nat) (tag : Byte) (mark : Option Mark) : State :=
  let x := s.carryAt c e
  let m : Option Mark := if x.ecc.bad then some { reason := 3, time := s.now, addr := some (carryKey c e) } else mark
  let v := sint 48 x.value.toNat
  let s1 := s.resetCarry c d e
  if 2 ≤ d.mode then
    let i := s.carryAt c (e + 1)
    let m2 : Option Mark :=
      if i.ecc.bad then some { reason := 3, time := s.now, addr := some (carryKey c (e + 1)) } else m
    (s1.edgePush c 2 d.outCol 1 { data := spillWord v x.sat false index, tag := tag, mark := m }).edgePush c 2 d.outCol 1
      { data := BitVec.ofNat 64 (i.value.toNat % 2 ^ 32), tag := tag, mark := m2 }
  else
    let y := d.total v
    let data := uint 32 y.1 + b2n (x.sat || y.2) * 2 ^ 32 + index % 2 ^ 14 * 2 ^ 50
    s1.edgePush c 2 d.outCol 1 { data := BitVec.ofNat 64 data, tag := tag, mark := m }

/-- Apply a spill to its entry (R134); `idx` is the index word of a pair. A SUM entry wraps where the exact sum leaves its 48 bits,
which no rule states (DESIGN CHOICE, log entry 104). -/
def State.applySpill (s : State) (c : Nat) (d : CarryDesc) (w : QWord) (idx : Option QWord) (seen : EccSeen) : State :=
  let n := w.data.toNat
  let index := bits n 50 14
  let e := d.base + fifOf w.tag * d.stride + index * d.width
  let value := sint 48 n
  let r := s.carryMeet c e seen
  let x := r.2
  let last := x.last + b2n (bit1 n 49)
  let s1 :=
    if 2 ≤ d.mode then
      let i := r.1.carryMeet c (e + 1) .clean
      let held : Option (Int × Nat) :=
        if bit1 i.2.value.toNat 31 then none else some (sint 48 x.value.toNat, i.2.value.toNat % 2 ^ 31)
      let iw := (idx.map (fun q => q.data.toNat)).getD (2 ^ 31)
      let cand : Option (Int × Nat) := if bit1 iw 31 then none else some (value, iw % 2 ^ 31)
      match pickX (d.mode == 3) held cand with
      | some (v, k) =>
        (i.1.putCarry c e { x with value := BitVec.ofNat 48 (uint 48 v), sat := x.sat || bit1 n 48, last := last }).putCarry c
          (e + 1) { i.2 with value := BitVec.ofNat 48 k }
      | none => i.1.putCarry c e { x with sat := x.sat || bit1 n 48, last := last }
    else
      let sum := sint 48 x.value.toNat + value
      let y := if d.mode = 1 then satI 48 sum else sum
      r.1.putCarry c e { x with
        value := BitVec.ofNat 48 (uint 48 y)
        sat := x.sat || bit1 n 48 || y != sum
        last := last }
  if d.parts ≤ last then s1.drain c d e index w.tag (w.mark.or (idx.bind (fun q => q.mark))) else s1

/-- A spill that drains its entry waits until OUT_COL has room for the output words (R110, R135). -/
def State.drainRoom (s : State) (c : Nat) (d : CarryDesc) (w : QWord) : Bool :=
  let e := d.base + fifOf w.tag * d.stride + bits w.data.toNat 50 14 * d.width
  decide ((s.carryAt c e).last + b2n (bit1 w.data.toNat 49) < d.parts) ||
    decide ((s.edge c 2 d.outCol 1).words.length + d.width ≤ 8)

/-- CARRY_SPILL_ARRIVAL: the spill at the head of a carry column port is applied, a MAX or MIN pair once its index word
has come too, and one that drains its entry once the drain has room. `seen` is what the check of the stored entry finds. An INDEX beyond LEN is discarded (R133). -/
def execCarrySpillArrival (c : Fin 32) (col : Fin 16) (seen : EccSeen) (s : State) : Out :=
  let d := s.carryDesc c col
  let q := (s.edge c 2 col 0).words
  match q with
  | [] => .next s
  | w :: rest =>
    if 2 ≤ d.mode ∧ rest.isEmpty then .next s
    else if bits w.data.toNat 50 14 ≤ d.len ∧ s.drainRoom c d w = false then .next s
    else
      let r1 := s.edgePop c 2 col 0
      let r2 := if 2 ≤ d.mode then r1.1.edgePop c 2 col 0 else (r1.1, none)
      let s1 := match w.mark with | some m => r2.1.voidTagAt c w.tag m.reason m.time | none => r2.1
      if d.len < bits w.data.toNat 50 14 then
        .next ((s1.reportTag 1 0x103 (uCore c) c w.tag [(5, col), (16, bits w.data.toNat 50 14), (8, w.tag.toNat)]).voidTag
          c w.tag 8)
      else .next (s1.applySpill c d w r2.2 seen)

/-! ### Leaving a stage (R76, R143, R156, R160, R199) -/

/-- Change the frame that holds a number, in flight or, with its record written, past. -/
def Pipe.onFrameOrPast (p : Pipe) (fif : Nat) (g : Frame → Frame) : Pipe :=
  if (p.frame fif).isSome then p.onFrame fif g
  else { p with past := p.past.map (fun f => if f.fif == fif then g f else f) }

/-- The tiles of a stage: core and tile of each (R569). -/
def State.stageTiles (s : State) (p stage : Nat) : List (Nat × Nat) :=
  (s.coresOf p).flatMap (fun c => ((List.range 256).filter (fun t =>
    s.fires c t && s.tileStage c t == stage)).map (fun t => (c, t)))

/-- The rescale descriptors of a stage: of its tiles, those of a core whose depthwise path makes it, or of the stem or the tail (Table 6-3). -/
def State.stageResc (s : State) (p stage : Nat) : List RescDesc :=
  match (s.pipe p).stages.find? (fun g => g.stage == stage) with
  | some g =>
    if g.kind = 1 then g.cores.flatMap (fun c => (List.range 8).map (fun i =>
      RescDesc.ofWords (s.getF (Reg.CC_RSC c (s.ctx c) i 0)) (s.getF (Reg.CC_RSC c (s.ctx c) i 1))))
    else if g.kind = 3 then let k := (s.pipe p).sol.stem; [RescDesc.ofWords k.rsc0.toNat k.rsc1.toNat]
    else if g.kind = 4 then let k := (s.pipe p).sol.tail; [RescDesc.ofWords k.rsc0.toNat k.rsc1.toNat]
    else (s.stageTiles p stage).map (fun x => s.rescDesc x.1 x.2)
  | none => []

/-- A stage of a frame is done, and the running tensors that it made are released, each with the ADAPT_A that its fold will use (R176);
once all stages are, and no output of the frame is on its way any longer, the frame is complete (R27). -/
def State.stageDone (s : State) (p fif stage : Nat) : State :=
  let ts := ((s.stageResc p stage).filter (fun d => d.out == 0)).map (fun d => (d.outT, stage, d.adaptA))
  let s1 := s.onPipe p (fun q => q.onFrameOrPast fif (fun f => { f with
    stagesDone := f.stagesDone ++ [stage], made := f.made ++ ts }))
  match (s1.pipe p).frame fif with
  | some f => s1.settleFrame p f
  | none => s1

/-- A frame's scanned tensor holds non-finite values: NaN, +∞ and −∞, reported once per tensor per frame, by the first stage or
quantiser that has met them (R160; DEDUCED, log entry 111). -/
def State.nonfinite (s : State) (p fif tensor : Nat) (n : Nat × Nat × Nat) : State :=
  match (s.pipe p).frame fif with
  | none => s
  | some f =>
    if f.nonfinSaid.contains tensor then s
    else (s.reportF 0 0x108 uSol p fif [(12, tensor), (16, n.1), (16, n.2.1), (16, n.2.2)]).onFrame p fif (fun f =>
      { f with nonfinSaid := f.nonfinSaid ++ [tensor] })

/-- The range clamps of a tensor that a frame has counted, over all the stages that quantise it (R156). -/
def Frame.clampCount (f : Frame) (tensor : Nat) : Nat :=
  ((f.clamps.filter (fun e => e.1 % 4096 == tensor)).map (fun e => e.2)).sum

/-- The reports of a frame that leaves a stage of a unit: saturated outputs, SV instructions, range clamps and non-finite inputs,
each once. A tensor that several stages quantise is reported by the first that leaves with a clamp, with the count so far (R156; DEDUCED,
log entry 111). -/
def State.leaveStage (s : State) (unit p fif stage : Nat) : State :=
  match (s.pipe p).frame fif with
  | none => s
  | some f =>
    let o := SMap.get (fun _ => (0, 0, 0)) f.outs stage
    let s1 := if o.2.1 != 0 && f.void.isNone then
        (s.reportF 0 0x101 unit p fif [(8, stage), (16, o.2.1)]).onFrame p fif (fun f => { f with saturated := true })
      else s
    let s2 := if o.2.2 != 0 then s1.reportF 0 0x10A unit p fif [(8, stage), (16, o.2.2)] else s1
    let ts := (((f.clamps.filter (fun e => e.1 / 4096 == stage)).map (fun e => e.1 % 4096)).filter (fun t =>
      !f.clampSaid.contains t)).eraseDups
    let s3 := (ts.foldl (fun s t => s.reportF 0 0x105 unit p fif [(8, stage), (12, t), (16, f.clampCount t)]) s2).onFrame p fif
      (fun f => { f with clampSaid := f.clampSaid ++ ts })
    (f.nonfin.filter (fun e => e.1 / 4096 == stage)).foldl (fun s e => s.nonfinite p fif (e.1 % 4096) e.2) s3

/-- The outputs that a sequencer held for a frame, those of the reorder area read from the core store: a word found poisoned or
uncorrectable is reported and carries MARK (R64, R65, R76). -/
def State.heldWords (s : State) (c : Nat) (ws : List SeqWord) : State × List QWord :=
  ws.foldl (fun (acc : State × List QWord) (w : SeqWord) =>
    match w.addr with
    | none => (acc.1, acc.2 ++ [w.word])
    | some a =>
      let r := acc.1.storeMeet c a 8 0
      let m : Option Mark := if r.2 then some { reason := 3, time := r.1.now, addr := some (storeKey c a) } else none
      (r.1, acc.2 ++ [{ w.word with data := BitVec.ofNat 64 (fieldLe (r.1.rdBytes (storeKey c a) 8) 0 8),
                                    mark := w.word.mark.or m }])) (s, [])

/-- A sequencer that has released outputs holds its producers no longer once its area has room (R77). -/
def State.seqFree (s : State) (c q : Nat) : State :=
  let x := s.seqr c q
  if x.full && (s.reorderSlot c q).isSome then s.putSeqr c q { x with full := false, stalled := false } else s

/-- SEQUENCER_RELEASE (R76 to R78, R143): the oldest frame that a sequencer's stage owes is released once its declared
outputs are there, and, in an armed stage, its pass is settled. A VOID frame's words carry MARK. -/
def execSequencerRelease (c : Fin 32) (q : Fin 8) (s : State) : Out :=
  let d := s.seqDesc c q
  match (s.pipe d.pipe).oldestOwing d.stage with
  | none => .next s
  | some f =>
    let x := s.seqr c q
    match x.frames.find? (fun y => y.fif == f.fif) with
    | none => .next s
    | some y =>
      if d.valid && decide (d.outCount ≤ y.got) && (d.retallyMax == 0 || y.settled) then
        let mark : Option Mark := f.void.map (fun v => { reason := v.1, time := v.2 })
        let r := s.heldWords c y.held
        let ws := r.2.map (fun w => if mark.isSome then { w with mark := mark } else w)
        let s1 := r.1.putSeqr c q { x with
          frames := x.frames.filter (fun z => z.fif != f.fif), rel := x.rel ++ ws,
          occRaised := x.occRaised.filter (fun n => n != f.fif) }
        let s2 := s1.seqFree c q
        .next (((s2.leaveStage (uCore c) d.pipe f.fif d.stage).stageDone d.pipe f.fif d.stage).settleFollower d.pipe)
      else .next s

/-! ### Retally (R144 to R149) -/

/-- The tensors that a stage's tiles observe (R175). -/
def State.stageTensors (s : State) (p stage : Nat) : List Nat :=
  ((s.stageTiles p stage).filter (fun x => (s.rescDesc x.1 x.2).out == 0)).map (fun x => (s.rescDesc x.1 x.2).outT)

/-- A release token (Table 8-6): SETTLE is OP 0, REFETCH OP 1. -/
def releaseToken (core stream fif op : Nat) : W64 :=
  BitVec.ofNat 64 (0x04 * 2 ^ 56 + core * 2 ^ 50 + stream * 2 ^ 47 + fif * 2 ^ 44 + op * 2 ^ 42)

/-- A stage sends a token to each of its streams (R219). -/
def State.sendTokens (s : State) (streams : List (Fin 32 × Fin 8)) (fif op : Nat) : State :=
  streams.foldl (fun s x => s.emit (.release (releaseToken x.1 x.2 fif op))) s

/-- The beat hold of a Retally (R55): this device's next unlaunched beat moves by D_R, or, on a follower, the head is
told. -/
def State.retallyHold (s : State) (p fif dR : Nat) : State :=
  if s.isFollower p then
    s.tellHead p 4 [fif, dR]
  else if s.bmState p = 1 ∨ s.bmState p = 2 ∨ s.bmState p = 3 then
    s.onBeat p (fun b => { b with nNext := b.nNext + dR })
  else s

/-- Start a Retally of a frame in a stage (R145). -/
def State.startRetally (s : State) (p fif c q r dR : Nat) (streams : List (Fin 32 × Fin 8)) : State :=
  let stage := (s.seqDesc c q).stage
  let x := s.seqr c q
  let s1 := s.putSeqr c q { x with
    frames := x.frames.map (fun y => if y.fif == fif then { y with got := 0, held := [] } else y) } |>.seqFree c q
  let s2 := (s1.reportF 0 0x102 (uCore c) p fif [(8, stage), (4, r + 1)]).addF (Reg.CC_TALLY c 12) 1
  let s3 := (s2.stageTiles p stage).foldl (fun s x => s.onTile x.1 x.2 (fun t => t.setIter fif 0)) s2
  let ts := s3.stageTensors p stage
  let s4 := s3.onFrame p fif (fun f =>
    let o := SMap.get (fun _ => (0, 0, 0)) f.outs stage
    { f with
      retallied := true
      attempt := SMap.put (fun _ => 0) f.attempt stage (r + 1)
      outs := SMap.put (fun _ => (0, 0, 0)) f.outs stage (0, 0, o.2.2)
      ranges := SMap.drop (fun t => ts.contains t) f.ranges })
  (s4.sendTokens streams fif 1).retallyHold p fif dR

/-- PASS_END: the pass of a frame in an armed stage ends, its declared outputs counted at the stage's sequencer. A
saturated pass below RETALLY_MAX starts a Retally; otherwise the pass is settled. `streams` are the stage's fetch
streams. -/
def execPassEnd (c : Fin 32) (q : Fin 8) (fif : Fin 8) (streams : List (Fin 32 × Fin 8)) (s : State) : Out :=
  let d := s.seqDesc c q
  match (s.pipe d.pipe).frame fif, (s.seqr c q).frames.find? (fun y => y.fif == fif.val) with
  | some f, some y =>
    if d.valid && d.retallyMax != 0 && decide (d.outCount ≤ y.got) && !y.settled then
      let r := SMap.get (fun _ => 0) f.attempt d.stage
      let sat := (SMap.get (fun _ => (0, 0, 0)) f.outs d.stage).2.1
      if sat != 0 && f.void.isNone && decide (r < d.retallyMax) then
        let dR := match (s.pipe d.pipe).stages.find? (fun g => g.stage == d.stage) with
          | some g => g.dR
          | none => 0
        .next (s.startRetally d.pipe fif c q r dR streams)
      else
        let x := s.seqr c q
        .next ((s.putSeqr c q { x with
          frames := x.frames.map (fun y => if y.fif == fif.val then { y with settled := true } else y) }).sendTokens
          streams fif 0)
    else .next s
  | _, _ => .next s

/-! ### The fold (R175 to R177) -/

/-- The record index of a running tensor (R172). -/
def Pipe.recOf (p : Pipe) (tensor : Nat) : Option Nat := p.running.findIdx? (fun t => t.idx == tensor)

/-- A record of the fold that cannot be read (R176). -/
def State.foldFail (s : State) (p fif tensor addr : Nat) : State :=
  s.reportF 1 0x109 uSol p fif [(12, tensor), (43, addr / 32)]

/-- The fold of one tensor of a frame whose last output is released, with ADAPT_A `adapt`. The read comes first, and a record that the frame
could not read at its admission is read but not written (R176 to R178). -/
def State.foldScale (s : State) (p : Nat) (f : Frame) (tensor t adapt : Nat) : State :=
  let q := s.pipe p
  let a := q.recAddr f.stream t
  if f.noFold.contains tensor then
    let r := s.unitRead a 0
    if r.2.bad || r.2.unavail then r.1.foldFail p f.fif tensor a else r.1
  else if f.void.isSome then s.keepScale q f.stream f.frameNo t tensor (some (f.stream, f.frameNo)) p
  else
    let r := s.unitRead a 0
    if r.2.bad || r.2.unavail then r.1.foldFail p f.fif tensor a
    else
      let o := SMap.get (fun _ => (0#32, 0#32)) f.ranges tensor
      (r.1.unitWrite a ((ScaleRec.ofBytes r.2.bytes).fold (o.1.toNat, o.2.toNat) adapt
        f.frameNo).bytes).1

/-- The frame whose fold of a tensor is due, with ADAPT_A: the earliest that holds the number, the tensor released by its stage and not
folded, be its record written or not (R176, R177). -/
def Pipe.toFold (p : Pipe) (fif stage tensor : Nat) : Option (Frame × Nat) :=
  (p.past ++ p.frames).findSome? (fun f =>
    if f.admitted && f.fif == fif && !f.folded.contains tensor then
      (f.made.find? (fun m => m.1 == tensor && m.2.1 == stage)).map (fun m => (f, m.2.2))
    else none)

/-- A frame's tensor has been folded. -/
def Pipe.noteFold (p : Pipe) (id tensor : Nat) : Pipe :=
  let g := fun (f : Frame) => if f.id == id then { f with folded := f.folded ++ [tensor] } else f
  ({ p with frames := p.frames.map g, past := p.past.map g } : Pipe).sweep

/-- SCALE_FOLD: after the last output of a frame for a running tensor has been released by its stage, the scale unit
folds the observation, or keeps the record of a VOID frame; the frame's result may have been written before. A lost engine
folds nothing (R235). -/
def execScaleFold (p : Fin 4) (fif : Fin 8) (stage : Fin 256) (tensor : Fin 4096) (s : State) : Out :=
  match (s.pipe p).toFold fif stage tensor, (s.pipe p).recOf tensor with
  | some f, some t =>
    if s.sol.lost then .next s
    else .next (((s.foldScale p f.1 tensor t f.2).onPipe p (fun q => q.noteFold f.1.id tensor)).settleFollower p)
  | _, _ => .next s

/-! ### Sections (R80 to R83, R136, R323, R572) -/

/-- Outputs of a region that hold a LAST count: bank and index. -/
def State.residue (s : State) (c : Nat) (d : CarryDesc) : List Nat :=
  ((List.range 8).flatMap (fun f => (List.range (d.len + 1)).map (fun i => d.base + f * d.stride + i * d.width))).eraseDups.filter
    (fun e => (s.carryAt c e).last != 0)

/-- CARRY_RESIDUE at a section's end (R136). -/
def State.carryResidue (s : State) (p c : Nat) : State :=
  (List.range 16).foldl (fun s r =>
    let d := s.carryDesc c r
    if d.valid then
      (s.residue c d).foldl (fun s e =>
        let f := (s.pipe p).frames.find? (fun f => f.admitted)
        let s1 := match f with
          | some f => (s.reportF 1 0x104 (uCore c) p f.fif [(16, r), (22, e), (16, (s.carryAt c e).last)]).voidFrame p f.fif 8
          | none => s.report 1 0x104 (uCore c) [(16, r), (22, e), (16, (s.carryAt c e).last)]
        s1.resetCarry c d e) s
    else s) s

/-- The section that runs after section `n` (R82). -/
def Pipe.nextSect (p : Pipe) (n : Nat) : Nat := (n + 1) % max 1 p.nsect

/-- Every stage of a section that a core holds is in a list. -/
def Pipe.sectDone (p : Pipe) (c sect : Nat) (done : List Nat) : Bool :=
  p.stages.all (fun g => !(g.sect == sect && g.cores.contains c) || done.contains g.stage)

/-- The key of a spine entry of a port (quadrant · 40 + port) in a bank and slot. -/
def spineKey (port bank slot : Nat) : Nat := (port * 4 + bank) * 128 + slot

/-- A pipeline's own entry that routes nothing (Table 4-7). -/
def idleEntry (p : Nat) : W32 := BitVec.ofNat 32 (0x3F + 0x3F * 2 ^ 6 + p * 2 ^ 12 + 2 ^ 14)

/-- Every slot of a bank that a pipeline owns becomes idle. -/
def State.idleBank (s : State) (p bank : Nat) : State :=
  ((s.spine.filter (fun e => bit1 e.2.toNat 14 && bits e.2.toNat 12 2 == p && e.1 / 128 % 4 == bank)).map (fun e => e.1)).foldl
    (fun s k => s.setSpine (SMap.put (fun _ => 0#32) s.spine k (idleEntry p))) s

/-- The bank of a section that runs next is reloaded when a section ends: every owned slot, from the section's image in the arena
(R323), and the gateway entries of channels and units of that section (R324). The Bool says that a word of the image is
bad or unavailable. -/
def State.reloadSpine (s : State) (p a next : Nat) : State × Bool :=
  let bank := (a + 1) % 4
  match (s.pipe p).spineImg.find? (fun x => x.1 == next) with
  | none => (s, false)
  | some x =>
    let r := State.unitReadN (ceilDiv x.2.2 4) s x.2.1 0
    let s1 := (List.range x.2.2).foldl (fun (s : State) (i : Nat) =>
      let k := fieldLe r.2.bytes (8 * i + 4) 4
      s.setSpine (SMap.put (fun _ => 0#32) s.spine (spineKey (k / 128) bank (k % 128))
        (BitVec.ofNat 32 (fieldLe r.2.bytes (8 * i) 4)))) (r.1.idleBank p bank)
    let us := ((s.pipe p).unitImg.find? (fun y => y.1 == next)).map (fun y => y.2)
    ((us.getD []).foldl (fun (s : State) (e : Nat × W64) =>
      s.setUnitGw (SMap.put (fun _ => 0#64) s.unitGw ((e.1 / 128 * 4 + bank) * 128 + e.1 % 128) e.2)) s1,
     r.2.bad || r.2.unavail)

/-- A context reload into slot `j` failed on the word at an address: CONTEXT_ERROR (R83). -/
def State.reloadFailed (s : State) (p c j a : Nat) : State :=
  let s2 := match (s.pipe p).frames.find? (fun f => f.admitted) with
    | some f => (s.reportF 1 0x026 (uCore c) p f.fif [(4, j), (43, a / 32)]).voidFrame p f.fif 5
    | none => s.report 1 0x026 (uCore c) [(4, j), (43, a / 32)]
  (s2.onPipe p (fun q => { q with ctxFail := true })).halt p

/-- The spine's part of a section's end; a bad image is a failed reload of the core that ended last (DEDUCED, log entry 36). -/
def State.spineEnd (s : State) (p c a next : Nat) : State :=
  let r := s.reloadSpine p a next
  if r.2 then r.1.reloadFailed p c ((a + 1) % 4) ((((s.pipe p).spineImg.find? (fun x => x.1 == next)).map (fun x => x.2.1)).getD 0)
  else r.1

/-- SECTION_END: a core's stages of the section are released for the frame in flight and its tag tables, queues and delay registers are
empty, so it reports the end; in a pipeline of more than 4 sections its reload begins, and with the last core the spine banks are
reloaded. -/
def execSectionEnd (c : Fin 32) (s : State) : Out :=
  match s.coreOwner c with
  | none => .next s
  | some p =>
    let q := s.pipe p
    let sect := s.getF (Reg.CC_CTX_STAT_SECTION c)
    match (q.past.filter (fun f => f.inSect) ++ q.frames).find? (fun f => f.admitted) with
    | none => .next s
    | some f =>
      if 2 ≤ q.nsect ∧ q.sectDone c sect f.stagesDone = true ∧ ¬ q.ended.contains c.val ∧ s.domOn c = true ∧
          s.coreEmpty c = true then
        let s1 := (s.carryResidue p c).setF (Reg.CC_CTX_STAT_ENDED c) 1
        let s2 := s1.onPipe p (fun q => { q with ended := q.ended ++ [c.val] })
        let s3 := if s2.flag (Reg.CC_CIMG_CTL_EN c) then s2.setF (Reg.CC_CTX_STAT_RELOAD c) 1 else s2
        let all := (s3.coresOf p).all (fun c => (s3.pipe p).ended.contains c)
        .next (if all && decide (4 < q.nsect) then s3.spineEnd p c (s.ctx c) (q.nextSect sect) else s3)
      else .next s

/-- The near channels of a core (R275): global numbers. -/
def nearChan (c k : Nat) : Nat :=
  let x := c % 8
  let y := c / 8
  16 * (x / 4 + 2 * (y / 2)) + 2 * (4 * (y % 2) + x % 4) + k

/-- Read `n` 32-byte words of a channel from an offset; answers the bytes and the address of the first word that is bad
or unavailable. -/
def State.chanRead : Nat → State → Nat → Nat → State × List Byte × Option Nat
  | 0, s, _, _ => (s, [], none)
  | n + 1, s, g, off =>
    let r := s.unitRead (hbmKey g off) 0
    let q := State.chanRead n r.1 g (off + 32)
    (q.1, r.2.bytes ++ q.2.1, if r.2.bad || r.2.unavail then some (hbmKey g off) else q.2.2)

/-- `n` ones from bit `lo`. -/
def onesAt (lo n : Nat) : Nat := (2 ^ n - 1) * 2 ^ lo

/-- The reserved bits of a word of a tile context, of a gateway table or of a descriptor page, by its offset in the core's block (Tables
4-2, 4-4, 5-5, 6-3, 7-1, 7-4, 8-4, 8-5, 9-13, 23-3, 23-4 and 23-5, R107). -/
def winReserved (o : Nat) : Nat :=
  if o < 0xC0000 then
    let r := o % 0x300
    if r = 0 then onesAt 56 8
    else if r = 8 then onesAt 44 20
    else if r = 0x10 then onesAt 26 6
    else if 0x20 ≤ r ∧ r < 0xA0 then onesAt 43 5
    else if 0x180 ≤ r ∧ r < 0x280 then onesAt 56 8
    else if r = 0x18 ∨ 0x280 ≤ r then onesAt 0 64
    else 0
  else if 0xC8000 ≤ o ∧ o < 0xCA000 then onesAt 40 24
  else if 0xD0000 ≤ o ∧ o < 0xD4000 then
    let r := o % 0x1000
    if r = 0 then onesAt 6 58
    else if r = 8 then onesAt 5 3 + onesAt 14 2 + onesAt 32 32
    else if 0x40 ≤ r ∧ r < 0xC0 then onesAt 29 3 + onesAt 56 8
    else if 0x100 ≤ r ∧ r < 0x180 then if r % 16 = 0 then onesAt 56 8 else onesAt 54 10
    else if 0x200 ≤ r ∧ r < 0x300 then if r % 32 = 0 then onesAt 61 2 else 0
    else if 0x300 ≤ r ∧ r < 0x380 then if r % 16 = 0 then onesAt 9 7 + onesAt 52 12 else 0
    else if r = 0x380 then onesAt 58 6
    else if r = 0x388 then onesAt 49 15
    else if 0x400 ≤ r ∧ r < 0x480 then if r % 16 = 0 then onesAt 45 19 else onesAt 22 10 + onesAt 54 10
    else 0
  else 0

/-- A word of an image enters a register of a core's block; reserved bits, and those of no field, stay 0 (R17). -/
def State.imageWord (s : State) (off : Nat) (v : W64) : State :=
  let mask := (Reg.fields off).foldl (fun (m : Nat) f => m ||| (2 ^ f.w - 1) * 2 ^ f.lo) 0
  s.setWord off (v &&& BitVec.ofNat 64 mask &&& ~~~(BitVec.ofNat 64 (winReserved ((off - 0x1000000) % 0x100000))))

/-- Write a stretch of the image into registers from an offset. -/
def State.imageWrite : Nat → State → Nat → List Byte → State
  | 0, s, _, _ => s
  | n + 1, s, off, bs => (s.imageWord off (BitVec.ofNat 64 (fieldLe bs 0 8))).imageWrite n (off + 8) (bs.drop 8)

/-- Write a context image into a slot of a core's window (R572). -/
def State.writeImage (s : State) (c j : Nat) (bs : List Byte) : State :=
  let base := 0x1000000 + 0x100000 * c
  let s1 := s.imageWrite (0x30000 / 8) (base + j * 0x30000) bs
  let s2 := s1.imageWrite (0x1000 / 8) (base + 0xD0000 + j * 0x1000) (bs.drop 0x30000)
  let s3 := s2.imageWrite (0x400 / 8) (base + 0xC8000 + j * 0x400) (bs.drop 0x31000)
  s3.imageWrite (0x400 / 8) (base + 0xC9000 + j * 0x400) (bs.drop 0x31400)

/-- `n` words from each of a core's two near channels, and the address of a bad or unavailable word, if any. -/
def State.readNear (n : Nat) (s : State) (c off : Nat) : State × List Byte × Option Nat :=
  let r0 := State.chanRead n s (nearChan c 0) off
  let r1 := State.chanRead n r0.1 (nearChan c 1) off
  (r1.1, r0.2.1 ++ r1.2.1, r0.2.2.or r1.2.2)

/-- The words of a context image that lie in each near channel of a core of the device (R572). -/
def imageWords (c : Nat) : Nat := if c < 32 then 3168 else 0

/-- The image of a section, half in each near channel (R82, R572). -/
def State.readImage (s : State) (c off : Nat) : State × List Byte × Option Nat := State.readNear (imageWords c) s c off

/-- CONTEXT_RELOAD_DONE: the image of the section that runs next is read from the core's near channels into the slot
after the active one; a bad or unavailable word is a CONTEXT_ERROR (R83). -/
def execContextReloadDone (c : Fin 32) (s : State) : Out :=
  match s.coreOwner c with
  | none => .next s
  | some p =>
    if !s.flag (Reg.CC_CTX_STAT_RELOAD c) then .next s
    else
      let q := s.pipe p
      let next := q.nextSect (s.getF (Reg.CC_CTX_STAT_SECTION c))
      let j := (s.ctx c + 1) % 4
      let off := s.getF (Reg.CC_CIMG_BASE c) + next * s.getF (Reg.CC_CIMG_STRIDE c)
      let r := s.readImage c off
      let s1 := r.1.setF (Reg.CC_CTX_STAT_RELOAD c) 0
      match r.2.2 with
      | some a => .next (s1.reloadFailed p c j a)
      | none => .next ((s1.writeImage c j r.2.1).onPipe p (fun q => { q with reloaded := q.reloaded ++ [c.val] }))

/-- One core switches to the context of the section that runs next (R81, R82): its slot counter restarts (R96), and its row buffers and
streams begin anew. -/
def State.switchCore (s : State) (q : Pipe) (c : Nat) : State :=
  let next := q.nextSect (s.getF (Reg.CC_CTX_STAT_SECTION c))
  let s1 := (s.setF (Reg.CC_CTX_STAT_ACTIVE c) ((s.ctx c + 1) % (if q.nsect ≤ 4 then max 1 q.nsect else 4))).setF
    (Reg.CC_CTX_STAT_SECTION c) next
  let s2 := ((s1.setF (Reg.CC_CTX_STAT_ENDED c) 0).addF (Reg.CC_TALLY c 10) 1).onCore c (fun x => { x with slot := 0 })
  (s2.setRbufs (SMap.drop (fun k => k / 8 == c) s2.rbufs)).setFstr (SMap.drop (fun k => k / 8 == c) s2.fstr)

/-- CONTEXT_SWITCH: once every core of the pipeline has reported the end, and reloaded where it must, all switch. With the return to
section 0 the frame has run its last section, and a stop takes effect (R80). -/
def execContextSwitch (p : Fin 4) (s : State) : Out :=
  let q := s.pipe p
  let cs := s.coresOf p
  if 2 ≤ q.nsect ∧ ¬ q.ctxFail ∧ cs.all (fun c => q.ended.contains c) = true ∧
      (q.nsect ≤ 4 ∨ cs.all (fun c => q.reloaded.contains c) = true) then
    let last := cs.all (fun c => q.nextSect (s.getF (Reg.CC_CTX_STAT_SECTION c)) == 0)
    .next (((cs.foldl (fun s c => s.switchCore q c) s).onPipe p (fun q => ({ q with
      ended := [], reloaded := [], frames := q.frames.map (fun f => { f with sent := [] })
      past := if last then q.past.map (fun f => { f with inSect := false }) else q.past } : Pipe).sweep)).settleStop p)
  else .next s

end Sys2Proof.Machine
end

