-- ==== Sys2Proof/Machine/Crypto.lean ====
section
/-!
DEFINITION. The public algorithms that the spec names and does not define: SHA-256, ECDSA over P-256 (spec/12 R319,
spec/20 R521) and the AES-128 CMAC (spec/16 R432), as their standards give them (PRESUMED, log entry 33).
-/

namespace Sys2Proof

/-! ### SHA-256 -/

/-- The round constants. -/
def shaK : List Nat :=
  [0x428A2F98, 0x71374491, 0xB5C0FBCF, 0xE9B5DBA5, 0x3956C25B, 0x59F111F1, 0x923F82A4, 0xAB1C5ED5,
   0xD807AA98, 0x12835B01, 0x243185BE, 0x550C7DC3, 0x72BE5D74, 0x80DEB1FE, 0x9BDC06A7, 0xC19BF174,
   0xE49B69C1, 0xEFBE4786, 0x0FC19DC6, 0x240CA1CC, 0x2DE92C6F, 0x4A7484AA, 0x5CB0A9DC, 0x76F988DA,
   0x983E5152, 0xA831C66D, 0xB00327C8, 0xBF597FC7, 0xC6E00BF3, 0xD5A79147, 0x06CA6351, 0x14292967,
   0x27B70A85, 0x2E1B2138, 0x4D2C6DFC, 0x53380D13, 0x650A7354, 0x766A0ABB, 0x81C2C92E, 0x92722C85,
   0xA2BFE8A1, 0xA81A664B, 0xC24B8B70, 0xC76C51A3, 0xD192E819, 0xD6990624, 0xF40E3585, 0x106AA070,
   0x19A4C116, 0x1E376C08, 0x2748774C, 0x34B0BCB5, 0x391C0CB3, 0x4ED8AA4A, 0x5B9CCA4F, 0x682E6FF3,
   0x748F82EE, 0x78A5636F, 0x84C87814, 0x8CC70208, 0x90BEFFFA, 0xA4506CEB, 0xBEF9A3F7, 0xC67178F2]

/-- The initial hash value. -/
def shaInit : List W32 := [0x6A09E667#32, 0xBB67AE85#32, 0x3C6EF372#32, 0xA54FF53A#32, 0x510E527F#32, 0x9B05688C#32, 0x1F83D9AB#32, 0x5BE0CD19#32]

/-- Expand the message schedule by one word; the list is newest first. -/
def shaNext (w : List W32) : W32 :=
  let a := w.getD 1 0
  let b := w.getD 14 0
  let s1 := a.rotateRight 17 ^^^ a.rotateRight 19 ^^^ (a >>> 10)
  let s0 := b.rotateRight 7 ^^^ b.rotateRight 18 ^^^ (b >>> 3)
  s1 + w.getD 6 0 + s0 + w.getD 15 0

/-- The 64-word schedule of a block of 16 words. -/
def shaSched (block : List W32) : List W32 :=
  ((List.range 48).foldl (fun (w : List W32) (_ : Nat) => shaNext w :: w) block.reverse).reverse

/-- One round on the eight working variables. -/
def shaRound (v : List W32) (kw : W32) : List W32 :=
  match v with
  | [a, b, c, d, e, f, g, h] =>
    let t1 := h + (e.rotateRight 6 ^^^ e.rotateRight 11 ^^^ e.rotateRight 25) + ((e &&& f) ^^^ (~~~e &&& g)) + kw
    let t2 := (a.rotateRight 2 ^^^ a.rotateRight 13 ^^^ a.rotateRight 22) + ((a &&& b) ^^^ (a &&& c) ^^^ (b &&& c))
    [t1 + t2, a, b, c, d + t1, e, f, g]
  | _ => v

/-- Compress one block. -/
def shaBlock (h : List W32) (block : List W32) : List W32 :=
  let v := ((shaSched block).zip shaK).foldl (fun (v : List W32) (x : W32 × Nat) =>
    shaRound v (x.1 + BitVec.ofNat 32 x.2)) h
  (h.zip v).map (fun x => x.1 + x.2)

/-- The padded message as big-endian words. -/
def shaWords (bs : List Byte) : List W32 :=
  let n := bs.length
  let padded := bs ++ [0x80#8] ++ List.replicate ((119 - n % 64) % 64) (0#8) ++ beBytes 8 (8 * n)
  (List.range (padded.length / 4)).map (fun i => BitVec.ofNat 32 (ofBe ((padded.drop (4 * i)).take 4)))

/-- Hash `n` blocks. -/
def shaRun : Nat → List W32 → List W32 → List W32
  | 0, h, _ => h
  | n + 1, h, ws => shaRun n (shaBlock h (ws.take 16)) (ws.drop 16)

/-- The SHA-256 digest of a message, as 32 bytes. -/
def sha256 (bs : List Byte) : List Byte :=
  let ws := shaWords bs
  (shaRun (ws.length / 16) shaInit ws).flatMap (fun x => beBytes 4 x.toNat)

/-! ### ECDSA over P-256 -/

/-- The field prime, the group order, and the curve's coefficient b. -/
def p256P : Nat := 0xFFFFFFFF00000001000000000000000000000000FFFFFFFFFFFFFFFFFFFFFFFF
def p256N : Nat := 0xFFFFFFFF00000000FFFFFFFFFFFFFFFFBCE6FAADA7179E84F3B9CAC2FC632551
def p256B : Nat := 0x5AC635D8AA3A93E7B3EBBD55769886BC651D06B0CC53B0F63BCE3C3E27D2604B
def p256G : Nat × Nat :=
  (0x6B17D1F2E12C4247F8BCE6E563A440F277037D812DEB33A0F4A13945D898C296,
   0x4FE342E2FE1A7F9B8EE7EB4A7C0F9E162BCE33576B315ECECBB6406837BF51F5)

/-- A power modulo `m`, over the low bits of the exponent. -/
def powMod (m : Nat) : Nat → Nat → Nat → Nat
  | 0, _, _ => 1 % m
  | n + 1, b, e =>
    let r := powMod m n (b * b % m) (e / 2)
    if e % 2 = 1 then r * b % m else r

/-- The inverse modulo a prime of 256 bits. -/
def invMod (m x : Nat) : Nat := powMod m 256 (x % m) (m - 2)

/-- Points in affine form; none is the point at infinity. -/
abbrev EcPoint := Option (Nat × Nat)

/-- The sum of two points. -/
def ecAdd (p q : EcPoint) : EcPoint :=
  match p, q with
  | none, _ => q
  | _, none => p
  | some (x1, y1), some (x2, y2) =>
    if x1 = x2 ∧ (y1 + y2) % p256P = 0 then none
    else
      let l := if x1 = x2 then (3 * x1 * x1 + (p256P - 3)) * invMod p256P (2 * y1) % p256P
        else (y2 + (p256P - y1)) * invMod p256P (x2 + (p256P - x1)) % p256P
      let x3 := (l * l + 2 * p256P - x1 - x2) % p256P
      some (x3, (l * (x1 + (p256P - x3)) + (p256P - y1)) % p256P)

/-- A multiple of a point, over the low bits of the scalar. -/
def ecMul : Nat → Nat → EcPoint → EcPoint
  | 0, _, _ => none
  | n + 1, k, p =>
    let r := ecMul n (k / 2) (ecAdd p p)
    if k % 2 = 1 then ecAdd r p else r

/-- A point lies on the curve, with both coordinates in the field. -/
def ecOn (x y : Nat) : Bool :=
  decide (x < p256P) && decide (y < p256P) &&
  y * y % p256P == (x * x * x + (p256P - 3) * x + p256B) % p256P

/-- An ECDSA signature (r, s) over a digest verifies against a public point. -/
def ecdsaOk (digest : List Byte) (x y r s : Nat) : Bool :=
  if r = 0 ∨ p256N ≤ r ∨ s = 0 ∨ p256N ≤ s ∨ !ecOn x y then false
  else
    let w := invMod p256N s
    let u1 := ofBe digest * w % p256N
    let u2 := r * w % p256N
    match ecAdd (ecMul 256 u1 (some p256G)) (ecMul 256 u2 (some (x, y))) with
    | none => false
    | some (px, _) => px % p256N == r

/-! ### AES-128 and its CMAC -/

/-- Doubling in the field of AES. -/
def aesX (a : Byte) : Byte := (a <<< 1) ^^^ (if a.msb then 0x1B#8 else 0#8)

/-- A product in the field of AES, over the low bits of the second factor. -/
def aesMul : Nat → Byte → Byte → Byte
  | 0, _, _ => 0#8
  | n + 1, a, b => (if b.getLsbD 0 then a else 0#8) ^^^ aesMul n (aesX a) (b >>> 1)

/-- The substitution: the inverse (the power 254), then the affine map. -/
def aesSub (a : Byte) : Byte :=
  let sq := fun (x : Byte) => aesMul 8 x x
  let a2 := sq a
  let a3 := aesMul 8 a2 a
  let a12 := sq (sq a3)
  let a15 := aesMul 8 a12 a3
  let a240 := sq (sq (sq (sq a15)))
  let i := aesMul 8 (aesMul 8 a240 a12) a2
  i ^^^ i.rotateLeft 1 ^^^ i.rotateLeft 2 ^^^ i.rotateLeft 3 ^^^ i.rotateLeft 4 ^^^ 0x63#8

/-- Two byte strings combined by exclusive or. -/
def xorB (a b : List Byte) : List Byte := a.zipWith (fun x y => x ^^^ y) b

/-- The next round key. -/
def aesNextKey (k : List Byte) (rcon : Byte) : List Byte :=
  let t := [aesSub (k.getD 13 0) ^^^ rcon, aesSub (k.getD 14 0), aesSub (k.getD 15 0), aesSub (k.getD 12 0)]
  let w0 := xorB (k.take 4) t
  let w1 := xorB ((k.drop 4).take 4) w0
  let w2 := xorB ((k.drop 8).take 4) w1
  w0 ++ w1 ++ w2 ++ xorB (k.drop 12) w2

/-- Substitute and shift the rows of a block held column by column. -/
def aesShift (b : List Byte) : List Byte :=
  (List.range 16).map (fun i => aesSub (b.getD ((i + 4 * (i % 4)) % 16) 0))

/-- Mix the columns of a block. -/
def aesMix (b : List Byte) : List Byte :=
  (List.range 16).map (fun i =>
    let g := fun (j : Nat) => b.getD (i / 4 * 4 + (i + j) % 4) 0
    aesX (g 0) ^^^ (aesX (g 1) ^^^ g 1) ^^^ g 2 ^^^ g 3)

/-- Encrypt one block under AES-128. -/
def aes128 (key block : List Byte) : List Byte :=
  let r := (List.range 10).foldl (fun (a : List Byte × List Byte × Byte) (i : Nat) =>
    let k := aesNextKey a.2.1 a.2.2
    let b := aesShift a.1
    (xorB (if i = 9 then b else aesMix b) k, k, aesX a.2.2)) (xorB block key, key, 1#8)
  r.1

/-- Doubling of a block for the CMAC's sub-keys. -/
def cmacDbl (b : List Byte) : List Byte :=
  let n := ofBe b
  beBytes 16 ((n * 2 % 2 ^ 128) ^^^ (if n.testBit 127 then 0x87 else 0))

/-- Chain `n` whole blocks. -/
def cmacRun (key : List Byte) : Nat → List Byte → List Byte → List Byte
  | 0, st, _ => st
  | n + 1, st, m => cmacRun key n (aes128 key (xorB st (m.take 16))) (m.drop 16)

/-- The AES-128 CMAC of a message. -/
def cmac (key m : List Byte) : List Byte :=
  let k1 := cmacDbl (aes128 key (List.replicate 16 (0#8)))
  let n := if m.length = 0 then 1 else (m.length + 15) / 16
  let tail := m.drop (16 * (n - 1))
  let fin := if tail.length = 16 then xorB tail k1
    else xorB (tail ++ [0x80#8] ++ List.replicate (15 - tail.length) (0#8)) (cmacDbl k1)
  aes128 key (xorB (cmacRun key (n - 1) (List.replicate 16 (0#8)) m) fin)

end Sys2Proof
end

