-- ==== Sys2Proof/Machine/Codec.lean ====
section
/-!
DEFINITION. The block codec, bit for bit (spec/11_block_codec.md R299 to R309): element kinds, segments, the encoder's choice
of block types, the decoder with its conditions, and the encoder on the spine.
-/

namespace Sys2Proof

/-! ### Elements (R299, R300) -/

/-- Element width in bits. -/
def kindBits (kind : Nat) : Nat := if kind = 0 then 8 else if kind = 1 then 16 else 32

/-- Width Q of q (Table 11-1). -/
def qWidth (kind k : Nat) : Nat := if kind = 0 then 9 - k else if kind = 1 then 17 - k else if kind = 2 then 32 - k else 32

/-- Largest W (Table 11-1). -/
def maxW (kind : Nat) : Nat := if kind = 0 then 10 else if kind = 1 then 18 else 33

/-- SLOT in 32-byte words (Table 11-3). -/
def segSlot (kind : Nat) : Nat := if kind = 0 then 19 else if kind = 1 then 35 else 65

/-- q of an F32 element (R300). -/
def f32ToQ (k x0 : Nat) : Int :=
  let x := if k > 0 ∧ Fmt.fp32.isNan x0 then 0x7FC00000 else x0
  let m : Nat := x % 2 ^ 31
  let m1 : Nat := if k > 0 ∧ Fmt.fp32.isFin x then
      let r := (divRNE (m : Int) (2 ^ k)).toNat * 2 ^ k
      if 0x7F800000 ≤ r then 0x7F800000 - 2 ^ k else r
    else m
  let y := sint 32 (x / 2 ^ 31 * 2 ^ 31 + m1)
  let t := if x < 2 ^ 31 then y else sint 32 (uint 32 y ^^^ 0x7FFFFFFF)
  t / (2 ^ k : Nat)

/-- The F32 element of q (R300). -/
def f32OfQ (k : Nat) (q : Int) : Nat :=
  let t := q * (2 ^ k : Nat) + (if q < 0 then (2 ^ k : Nat) - 1 else 0)
  if t < 0 then uint 32 t ^^^ 0x7FFFFFFF else uint 32 t

/-- q of an element (Table 11-1). -/
def toQ (kind k x : Nat) : Int :=
  match kind with
  | 0 | 1 => divRNE (x : Int) (2 ^ k)
  | 2 => f32ToQ k x
  | _ => sint 32 x

/-- The element of q (Table 11-1). -/
def ofQ (kind k : Nat) (q : Int) : Nat :=
  match kind with
  | 0 => min (q.toNat * 2 ^ k) 255
  | 1 => min (q.toNat * 2 ^ k) 65535
  | 2 => f32OfQ k q
  | _ => uint 32 q

/-- Zigzag code of a residual and back (R303). -/
def zig (r : Int) : Nat := if 0 ≤ r then (2 * r).toNat else (-2 * r - 1).toNat
def unzig (z : Nat) : Int := if z % 2 = 0 then ((z / 2 : Nat) : Int) else -(((z + 1) / 2 : Nat) : Int)

/-! ### Encoding (R302 to R304) -/

/-- A bit stream: the number of fields packed from bit 0, least significant first, and its length. -/
structure BitStr where
  val : Nat := 0
  len : Nat := 0
  deriving DecidableEq, Repr

/-- Append a field. -/
def BitStr.put (b : BitStr) (w v : Nat) : BitStr := ⟨b.val + v % 2 ^ w * 2 ^ b.len, b.len + w⟩

/-- The residuals of a segment's elements at distance `d`. -/
def residuals (d : Nat) (qs : List Int) : List Int :=
  qs.zipIdx.map (fun x => if d ≤ x.2 then x.1 - qs.getD (x.2 - d) 0 else x.1)

/-- Append a block under the choice of R304: the fewest bits, ties to CONST, then PACKED, then RAW. -/
def putBlock (q : Nat) (b : BitStr) (qs : List Int) (rs : List Int) : BitStr :=
  let n := qs.length
  let w := maxOf (rs.map (fun r => (zig r).size))
  let packed := 8 + n * w
  let raw := 8 + n * q
  let same := qs.all (fun x => x == qs.getD 0 0)
  if same && decide (8 + q ≤ packed) && decide (8 + q ≤ raw) then (b.put 8 (2 * 64)).put q (uint q (qs.getD 0 0))
  else if packed ≤ raw then rs.foldl (fun b r => b.put w (zig r)) (b.put 8 w)
  else qs.foldl (fun b x => b.put q (uint q x)) (b.put 8 64)

/-- Append the blocks of a segment, 64 elements each. -/
def putBlocks (q : Nat) : Nat → BitStr → List Int → List Int → BitStr
  | 0, b, _, _ => b
  | n + 1, b, qs, rs =>
    if qs.isEmpty then b else putBlocks q n (putBlock q b (qs.take 64) (rs.take 64)) (qs.drop 64) (rs.drop 64)

/-- The bytes of one coded segment of at most 512 elements. -/
def encodeSegment (kind k d : Nat) (marked : Bool) (xs : List Nat) : List Byte :=
  let qs := xs.map (toQ kind k)
  let b := putBlocks (qWidth kind k) 8 {} qs (residuals d qs)
  let nw := ceilDiv (32 + b.len) 256
  let head := nw + kind * 2 ^ 7 + k * 2 ^ 9 + (d - 1) * 2 ^ 13 + (xs.length - 1) * 2 ^ 18 + b2n marked * 2 ^ 27
  leBytes (nw * 32) (head + 2 ^ 32 * b.val)

/-- Cut a list into segments of 512 elements; the fuel bounds their number. -/
def cut512 : Nat → List Nat → List (List Nat)
  | 0, _ => []
  | n + 1, xs => if xs.isEmpty then [] else xs.take 512 :: cut512 n (xs.drop 512)

/-- The elements of a kind in a byte stream. -/
def elemsOf (kind : Nat) (bs : List Byte) : List Nat :=
  let w := kindBits kind / 8
  (List.range (bs.length / w)).map (fun i => fieldLe bs (w * i) w)

/-- Segments of a tensor packed end to end (R302, R311): their bytes and their number. `marks` says which 32-byte source words are bad,
and a segment is of 16 times as many words as an element has bytes. Bytes past the last whole element belong to no segment (DESIGN
CHOICE, log entry 110). -/
def encodeTensor (kind k d : Nat) (bs : List Byte) (marks : List Bool) : List Byte × Nat :=
  let n := 2 * kindBits kind
  let segs := cut512 (bs.length + 1) (elemsOf kind bs)
  (segs.zipIdx.flatMap (fun x => encodeSegment kind k d (((marks.drop (n * x.2)).take n).any id) x.1), segs.length)

/-! ### Decoding (R303, R305) -/

/-- What the decoder has read: elements q so far, the bit position and the first broken condition. -/
structure DecSt where
  qs : List Int := []
  pos : Nat := 32
  bad : Option Nat := none
  deriving DecidableEq, Repr

/-- Note a broken condition; the one first in the order of R305 stands. -/
def DecSt.fail (d : DecSt) (c : Bool) (n : Nat) : DecSt :=
  if c then { d with bad := some (match d.bad with | some m => min m n | none => n) } else d

/-- One stored q: unsigned for U8 and U16, signed for the others. -/
def readQ (kind k v pos : Nat) : Int :=
  let w := qWidth kind k
  if kind ≤ 1 then ((bits v pos w : Nat) : Int) else sint w (bits v pos w)

/-- Decode one block (R303). -/
def decBlock (kind k d v nbits n : Nat) (s : DecSt) : DecSt :=
  let w := bits v s.pos 6
  let bt := bits v (s.pos + 6) 2
  let qw := qWidth kind k
  let s0 := (s.fail (bt == 3) 0).fail (decide (maxW kind < w) || (w != 0 && (bt == 1 || bt == 2))) 3
  let p := s.pos + 8
  let qs := (List.range n).foldl (fun (qs : List Int) i =>
    let at' := qs.length
    let x :=
      if bt = 0 then unzig (bits v (p + w * i) w) + (if d ≤ at' then qs.getD (at' - d) 0 else 0)
      else if bt = 1 then readQ kind k v (p + qw * i)
      else readQ kind k v p
    qs ++ [x]) s.qs
  let len := if bt = 0 then n * w else if bt = 1 then n * qw else qw
  let s1 := { s0 with qs := qs, pos := p + len }
  let s2 := s1.fail (decide (nbits < p + len)) 4
  let hi : Int := (2 ^ (kindBits kind - k) : Nat)
  s2.fail (decide (kind ≤ 1) && (qs.drop s.qs.length).any (fun x => decide (x < 0) || decide (hi < x))) 5

/-- Decode blocks until all elements are read. -/
def decBlocks (kind k d v nbits : Nat) : Nat → Nat → DecSt → DecSt
  | 0, _, s => s
  | f + 1, left, s =>
    if left = 0 then s
    else decBlocks kind k d v nbits f (left - min 64 left) (decBlock kind k d v nbits (min 64 left) s)

/-- A decoded segment: its elements, MARKED and the first broken condition of R305, numbered in its order. -/
structure Decoded where
  elems : List Nat
  marked : Bool
  bad : Option Nat
  deriving DecidableEq, Repr

/-- Decode a segment's bytes, declared with KIND and K within a slot of `slot` words, as its own header lays them out. -/
def decodeSegment (kind k slot : Nat) (bs : List Byte) : Decoded :=
  let v := ofLe bs
  let nw := bits v 0 7
  let n := bits v 18 9 + 1
  let kd := bits v 7 2
  let kk := bits v 9 4
  let s0 : DecSt := (({} : DecSt).fail (bits v 28 4 != 0) 0).fail (kd != kind || kk != k) 1
  let s1 := s0.fail (decide (slot < nw)) 2
  let r := decBlocks kd kk (bits v 13 5 + 1) v (nw * 256) 8 n s1
  { elems := r.qs.map (ofQ kd kk), marked := bit1 v 27, bad := r.bad }

namespace Machine

/-! ### Coded regions (R306 to R309) -/

/-- Bytes per element. -/
def CodedRegion.width (g : CodedRegion) : Nat := kindBits g.kind / 8

/-- Segments of a region. -/
def CodedRegion.segs (g : CodedRegion) : Nat := ceilDiv g.ntotal 512

/-- Elements of segment `i`. -/
def CodedRegion.elems (g : CodedRegion) (i : Nat) : Nat := min 512 (g.ntotal - 512 * i)

/-- The address of segment `i`. -/
def CodedRegion.addr (g : CodedRegion) (i : Nat) : Nat := g.base + i * segSlot g.kind * 32

/-- SEGMENT_ENCODE (R307): once the words of a region's next segment have arrived in the codec's inbound queue that takes its circuit,
the encoder writes the segment as whole words. The region is the `r`-th of its section. -/
def execSegmentEncode (p : Fin 4) (r : Fin 16) (code : Fin 25) (s : State) : Out :=
  let sect := match s.coresOf p with | c :: _ => s.getF (Reg.CC_CTX_STAT_SECTION c) | [] => 0
  match ((s.pipe p).coded.filter (fun g => g.sect == sect))[r.val]? with
  | none => .next s
  | some g =>
    let n := g.elems g.done
    let nw := ceilDiv (n * g.width) 8
    let k := p.val * 32 + code.val
    let q := SMap.get (fun _ => []) s.codec k
    if nw = 0 ∨ q.length < nw then .next s
    else
      let ws := q.take nw
      let bs := ws.flatMap (fun w => leBytes 8 w.data.toNat)
      let seg := encodeSegment g.kind g.k g.d (ws.any (fun w => w.mark.isSome)) ((elemsOf g.kind bs).take n)
      let s1 := s.setCodec (SMap.put (fun _ => []) s.codec k (q.drop nw))
      let s2 := (State.unitWriteN (seg.length / 32) s1 (g.addr g.done) seg).1
      let next := if g.done + 1 < g.segs then g.done + 1 else 0
      .next (s2.onPipe p (fun x => { x with coded := x.coded.map (fun h => if h == g then { h with done := next } else h) }))

/-- Read and decode segment `i` of a region: the header word, then NWORDS − 1 further words (R308). The reason is that of the MARK which
its elements carry, if they do: CODEC_ERROR of a malformed segment, which is reported for the frame, else POISON (R309). -/
def State.fetchSegment (s : State) (p fif : Nat) (g : CodedRegion) (i : Nat) : State × Decoded × Option Nat :=
  let a := g.addr i
  let r0 := s.unitRead a 0
  let nw := min (segSlot g.kind) (max 1 (fieldLe r0.2.bytes 0 1 % 128))
  let r1 := State.unitReadN (nw - 1) r0.1 (a + 32) 0
  let d := decodeSegment g.kind g.k (segSlot g.kind) (r0.2.bytes ++ r1.2.bytes)
  (match d.bad with
    | some c => r1.1.reportF 1 0x210 uCodec p fif [(43, a / 32), (4, c)]
    | none => r1.1,
   d,
   if d.bad.isSome then some 9
   else if d.marked || r0.2.bad || r1.2.bad || r0.2.unavail || r1.2.unavail then some 3 else none)

/-- A segment that a stream forwards: its elements' bytes and the reason of their MARK. A malformed one makes the frame VOID (R309). -/
def State.readSegment (s : State) (p fif : Nat) (g : CodedRegion) (i : Nat) : State × List Byte × Option Nat :=
  let r := s.fetchSegment p fif g i
  (if r.2.1.bad.isSome then r.1.voidFrame p fif 9 else r.1, r.2.1.elems.flatMap (fun x => leBytes g.width x), r.2.2)

end Machine
end Sys2Proof
end

