-- ==== Sys2Proof/Machine/Hbm.lean ====
section
/-!
DEFINITION. The memory controllers: requests of slot circuits (spec/10 R277 to R279, R283, R284), retry (R288), the
write-combining buffer (R285, R286), periodic work and channel loss (R291, R292), training and the commit (R293, R294,
spec/23 R583), the traffic generators (R295 to R297, R581, R582), injection (R579) and the counters (R578, R580).
-/

namespace Sys2Proof

/-- The header word of a request, as bits (Table 10-3), for an operation code. -/
def MemHdr.word (h : MemHdr) (op : Nat) : Nat :=
  h.idx.toNat + h.len.val * 2 ^ 25 + op * 2 ^ 28 + h.mask.toNat * 2 ^ 30 + h.rsv.val * 2 ^ 62

/-- A request with a reserved field, a LEN that crosses a granule, a NARROW with LEN above 0, or a partial MASK with LEN
above 0 (R279). -/
def MemHdr.bad (h : MemHdr) (op : Nat) : Bool :=
  h.rsv.val != 0 || decide (7 < h.idx.toNat % 8 + h.len.val) || (op == 1 && h.len.val != 0) ||
  (h.len.val != 0 && h.mask.toNat != 2 ^ 32 - 1)

namespace Machine

/-- DEGRADED.0x206 with a request header (R279, Table 18-4). -/
def State.headerInvalid (s : State) (g : Nat) (h : MemHdr) (op req : Nat) : State :=
  s.report 1 0x206 (uChan g + 2 ^ 11) [(48, h.word op % 2 ^ 48), (16, req)]

/-- A committed, active channel whose controller is ON serves requests (R274, DEDUCED, log entry 15). -/
def State.chanLive (s : State) (g : Nat) : Bool :=
  s.committed && s.activeChans.contains g && s.chanServed g

/-! ### Reads -/

/-- The gateway of a channel (R109). -/
def chanGate (g : Nat) : Nat := 40 + 40 * (g / 16) + g % 16

/-- The request words at the head of a queue of the channel's gateway, if some queue holds them: a header, and a WRITE's data (R277).
Answers the queue, from which they are taken; none for a request from outside. -/
def State.takeWords (s : State) (g : Nat) (ws : List W64) (tag : Byte) : State × Option Nat :=
  match (List.range 25).find? (fun k =>
    ((s.gw (chanGate g) 1 k).words.take ws.length).map (fun w => w.data) == ws &&
      (s.gw (chanGate g) 1 k).words.head?.any (fun w => w.tag == tag)) with
  | none => (s, none)
  | some k => ((List.range ws.length).foldl (fun s _ => (s.gwPop (chanGate g) 1 k 0).1) s, some k)

/-- A circuit is held while a partial write that came by it waits for an entry of the buffer (R284). -/
def State.circuitHeld (s : State) (g req : Nat) : Bool :=
  (s.chanReqs g).any (fun r => r.req == req && r.wr.any (fun id => (s.wcbWaits (g / 16)).any (fun w => w.writer == some id)))

/-- The lines of 64 bytes that a request touches. -/
def ChanReq.lines (r : ChanReq) : List Nat := (List.range (r.len + 1)).map (fun i => (r.word + i) / 2)

/-- A read starts the flush of the entries of its lines (R285). -/
def State.flushFor (s : State) (g : Nat) (r : ChanReq) : State :=
  s.setWcb (g / 16) ((s.wcbOf (g / 16)).map (fun e =>
    if e.chan == g % 16 && r.lines.contains e.line then { e with flushing := true } else e))

/-- A read request reaches its channel (R277 to R279, R283): it waits there, and its lines' entries start their flush. -/
def State.takeRead (s : State) (g : Nat) (h : MemHdr) (op : Nat) (tag : Byte) (req : Nat) (first : List EccSeen) : State :=
  let bad := h.bad op
  let q := s.takeWords g [BitVec.ofNat 64 (h.word op)] tag
  let s := q.1
  let r : ChanReq := { word := h.idx.toNat, len := h.len.val, narrow := op == 1, bad := bad, tag := tag, req := req,
                       retry := s.flag (Reg.MC_RETRY_CFG_EN (g / 16)), first := first, code := q.2, id := s.nextReq }
  let s1 := if bad then s.headerInvalid g h op req
    else if !s.chanLive g then s.addrInvalid (0x1000000000 + g * 0x40000000 + h.idx.toNat * 32) req
    else s.flushFor g r
  (s1.setChanReqs g (s1.chanReqs g ++ [r])).setNextReq (s.nextReq + 1)

/-- READ: a request for LEN + 1 words, on a circuit that is not held. `op3` says that OP holds the reserved code, for which no return is
stated. -/
def execRead (g : Fin 64) (h : MemHdr) (op3 : Bool) (tag : Byte) (req : Fin 65536) (first : List EccSeen) (s : State) : Out :=
  if s.circuitHeld g req then .next s
  else if op3 then .next ((s.takeWords g [BitVec.ofNat 64 (h.word 3)] tag).1.headerInvalid g h 3 req)
  else .next (s.takeRead g h 0 tag req first)

/-- NARROW: one word; a channel with 32 narrow requests outstanding accepts no further one (R283). -/
def execNarrow (g : Fin 64) (h : MemHdr) (tag : Byte) (req : Fin 65536) (first : List EccSeen) (s : State) : Out :=
  if 32 ≤ ((s.chanReqs g).filter (fun r => r.narrow)).length ∨ s.circuitHeld g req = true then .next s
  else .next (s.takeRead g h 1 tag req first)

/-- Word `i` of a read as it stood when the read arrived, the writes before it stored: its bytes and check state (R286). -/
def State.wordFor (s : State) (g : Nat) (r : ChanReq) (i : Nat) : List Byte × EccState :=
  match r.snap.find? (fun x => x.1 == i) with
  | some x => x.2
  | none => (s.rdBytes (hbmKey g ((r.word + i) * 32)) 32, s.eccAt (hbmKey g ((r.word + i) * 32)))

/-- The check state that the first read of word `i` of a request meets. -/
def State.firstMet (s : State) (g : Nat) (r : ChanReq) (i : Nat) : EccState :=
  metState (s.wordFor g r i).2 (r.first.getD i .clean)

/-- A word of the request waits for its reissue (R288). -/
def State.needsRetry (s : State) (g : Nat) (r : ChanReq) (i : Nat) : Bool :=
  r.retry && !r.bad && s.firstMet g r i == .uncorrectable && !r.retried.any (fun x => x.1 == i)

/-- Nothing holds the return of a read: no write to its lines that arrived before it is still buffered, no word waits for its reissue, and the queue that its words
leave by has room for them. -/
def State.returnable (s : State) (g : Nat) (r : ChanReq) : Bool :=
  r.wr.isNone && s.returnRoom g (4 * (r.len + 1)) r.code &&
  !(s.wcbOf (g / 16)).any (fun e => e.chan == g % 16 && decide (e.id ≤ r.id) && r.lines.contains e.line) &&
  !(s.wcbWaits (g / 16)).any (fun w => w.chan == g % 16 && decide (w.id ≤ r.id) && r.lines.contains w.line) &&
  !(List.range (r.len + 1)).any (fun i => s.needsRetry g r i)

/-- The four return words of one 32-byte word (R278). -/
def State.returnWords (s : State) (g : Nat) (r : ChanReq) (bs : List Byte) (mark : Bool) : State :=
  [0, 1, 2, 3].foldl (fun (s : State) (k : Nat) =>
    s.returnWord g r.code (BitVec.ofNat 64 (fieldLe bs (8 * k) 8)) r.tag mark) s

/-- Return one word of a request under Table 10-4; the Bool says that it was poisoned. -/
def State.returnOne (s : State) (g : Nat) (r : ChanReq) (i : Nat) : State × Bool :=
  let zero := List.replicate 32 (0#8)
  if r.bad || !s.chanLive g || s.chanLost g then (s.returnWords g r zero true, false)
  else
    let w := s.wordFor g r i
    let q := s.hbmReadAs g ((r.word + i) * 32) r.req r.tag.toNat w.1 w.2 (r.first.getD i .clean)
      ((r.retried.find? (fun x => x.1 == i)).map (fun x => x.2))
    (q.1.returnWords g r q.2.bytes q.2.flagged, q.2.poisoned)

/-- READ_RETURN: the channel returns the words of the oldest request of a requester, in order, with DEGRADED.0x205
once for a request that met poison, and then the completions that waited behind it (R278, R289). -/
def execReadReturn (g : Fin 64) (req : Fin 65536) (s : State) : Out :=
  match (s.chanReqs g).find? (fun r => r.req == req.val) with
  | none => .next s
  | some r =>
    if !s.returnable g r then .next s
    else
      let q := (List.range (r.len + 1)).foldl (fun (acc : State × Option Nat) (i : Nat) =>
        let x := acc.1.returnOne g r i
        (x.1, match acc.2 with | some j => some j | none => if x.2 then some i else none)) (s, none)
      let s1 := (q.1.setChanReqs g ((q.1.chanReqs g).erase r)).settleReturns g
      match q.2 with
      | some i => .next (s1.report 1 0x205 (uChan g) [(30, (r.word + i) * 32), (16, r.req), (8, r.tag.toNat)])
      | none => .next s1

/-- READ_RETRY: an uncorrectable word of the oldest request of a requester is reissued once, no sooner than 60 ns
later, and meets `second` (R288). -/
def execReadRetry (g : Fin 64) (req : Fin 65536) (i : Fin 8) (second : EccSeen) (s : State) : Out :=
  match (s.chanReqs g).find? (fun r => r.req == req.val) with
  | none => .next s
  | some r =>
    if i.val ≤ r.len ∧ s.needsRetry g r i then
      let s1 := s.elapse 60
      .next (s1.setChanReqs g ((s1.chanReqs g).map (fun x =>
        if x = r then { x with retried := x.retried ++ [(i.val, second)] } else x)))
    else .next s

/-! ### Writes -/

/-- One word of a WRITE: `bs` holds its covered bytes by position (R284). -/
def State.writeWord (s : State) (g id off : Nat) (bs : List (Nat × Byte)) : State :=
  let line := off / 64
  let s1 := s.addPart id
  if bs.isEmpty then s1.finishPart id 0 [] .ok
  else if bs.length = 32 ∧ s1.lineHeld (g / 16) (g % 16) line = false then
    (s1.hbmWriteDirect g off (bs.map (fun x => x.2))).finishPart id 0 [] .ok
  else s1.wcbPut g line (bs.map (fun x => (off % 64 + x.1, some x.2))) (some id)

/-- The covered bytes of a word under MASK. -/
def coveredBytes (mask : W32) (bs : List Byte) : List (Nat × Byte) :=
  (bs.zipIdx.filter (fun x => mask.toNat.testBit x.2)).map (fun x => (x.2, x.1))

/-- The pipeline whose frame a request at a channel serves: that of the word at the head of the queue it came by, or, for a request from
outside, the one that streams through the channel. -/
def State.writeOwner (s : State) (g : Nat) (tag : Byte) (data : W64) : Option Nat :=
  match ((List.range 25).findSome? (fun k => (s.gw (chanGate g) 1 k).words.head?.filter (fun w => w.tag == tag && w.data == data))) with
  | some w => w.pipe
  | none => [0, 1, 2, 3].find? (fun p => (s.pipe p).chans.contains g && ((s.pipe p).frame (fifOf tag)).isSome)

/-- A WRITE takes its place among the channel's requests, so that its completion word leaves in request order (R278). Answers the number
of its access. -/
def State.openWrite (s : State) (g : Nat) (h : MemHdr) (tag : Byte) (req : Nat) (code : Option Nat) : State × Nat :=
  let o := s.openReq [] (.circuit g)
  (o.1.setChanReqs g (o.1.chanReqs g ++ [{ word := h.idx.toNat, len := h.len.val, narrow := false, bad := h.bad 2, tag := tag,
                                           req := req, retry := false, wr := some o.2, code := code }]), o.2)

/-- The words of a WRITE are stored, or the request is not performed (R274, R279, R284, R292). -/
def State.performWrite (s : State) (g id : Nat) (h : MemHdr) (data : List W64) (req : Nat) : State :=
  if h.bad 2 then ((s.headerInvalid g h 2 req).addPart id).finishPart id 0 [] .unavailable
  else if !s.chanLive g then
    ((s.addrInvalid (0x1000000000 + g * 0x40000000 + h.idx.toNat * 32) req).addPart id).finishPart id 0 [] .unavailable
  else if s.chanLost g then (s.addPart id).finishPart id 0 [] .unavailable
  else
    let bytes := data.flatMap (fun w => leBytes 8 w.toNat)
    (List.range (h.len.val + 1)).foldl (fun (s : State) (i : Nat) =>
      s.writeWord g id ((h.idx.toNat + i) * 32) (coveredBytes h.mask (sliceB bytes (32 * i) 32))) s

/-- WRITE: whole words are stored, partial words go to the write-combining buffer, and the completion word follows when
all are stored (R278, R284, R286). `data` holds 4 data words per 32-byte word. While a partial write of the circuit waits for an
entry, the request stays on its circuit (R284). -/
def execWrite (g : Fin 64) (h : MemHdr) (data : List W64) (tag : Byte) (req : Fin 65536) (s : State) : Out :=
  if s.circuitHeld g req then .next s
  else
    let q := s.takeWords g (BitVec.ofNat 64 (h.word 2) :: data) tag
    let o := q.1.openWrite g h tag req q.2
    let s1 := o.1.forFrame o.2 ((s.writeOwner g tag (BitVec.ofNat 64 (h.word 2))).map (fun p => (p, fifOf tag)))
    .next ((s1.performWrite g o.2 h data req).closeReq o.2).settleDone

/-- The entry, of those whose flush has not started, that reaches its AGE first; of equals the oldest. -/
def firstAged (es : List WcbEntry) : Option WcbEntry :=
  es.foldl (fun (b : Option WcbEntry) e =>
    if e.flushing then b
    else match b with
      | none => some e
      | some x => if e.taken + e.age < x.taken + x.age then some e else some x) none

/-- WCB_AGE_FLUSH: the first of the entries whose flush has not started reaches its AGE (R285). -/
def execWcbAgeFlush (m : Fin 4) (s : State) : Out :=
  match firstAged (s.wcbOf m) with
  | none => .next s
  | some e =>
    let s1 := s.reach (e.taken + e.age)
    .next (s1.setWcb m ((s1.wcbOf m).map (fun x => if x = e then { x with flushing := true } else x)))

/-- FLUSH_COMPLETE: the oldest flush in progress completes (R286). `seen` holds, for each half of the line, what the
read of its word finds beside its stored state, and what a reissue finds (R288). -/
def execFlushComplete (m : Fin 4) (seen : List (EccSeen × EccSeen)) (s : State) : Out :=
  match (s.wcbOf m).find? (fun e => e.flushing) with
  | none => .next s
  | some e => .next (s.wcbComplete m e seen).settleDone

/-- RETAIN_ACCESS_TIMEOUT: the oldest part held for a core has waited 1 ms (R62). -/
def execRetainAccessTimeout (c : Fin 32) (s : State) : Out :=
  match s.held.find? (fun h => h.unit == c.val) with
  | some h => .next ((s.reach h.due).failHeld h).settleDone
  | none => .next s

/-! ### Periodic work and channel loss -/

/-- A channel is lost (R292): UNIT.0x207, its buffered and waiting writes complete UNAVAILABLE, and every pipeline with a
circuit to it is treated under R89. -/
def State.loseChan (s : State) (g cause : Nat) : State :=
  if s.chanLost g || !s.chanServed g then s
  else
    let m := g / 16
    let c := g % 16
    let mine := (s.wcbOf m).filter (fun e => e.chan == c)
    let waits := (s.wcbWaits m).filter (fun w => w.chan == c)
    let s1 := ((s.setF (Reg.MC_CH_MAP_LOST m) (s.getF (Reg.MC_CH_MAP_LOST m) ||| 2 ^ c)).setWcb m
      ((s.wcbOf m).filter (fun e => e.chan != c))).setWcbWaits m ((s.wcbWaits m).filter (fun w => w.chan != c))
    let s2 := (s1.report 3 0x207 (uChan g) [(4, cause)]).notifyWriters
      (mine.flatMap (fun e => e.writers) ++ waits.filterMap (fun w => w.writer.map (fun id => (0, id)))) (fun _ => .unavailable)
      |>.wcbAdmit m |>.wcbRelieve m
    [0, 1, 2, 3].foldl (fun s n => if s.loaded n && (s.pipe n).chans.contains g then s.losePath n (uChan g) (g / 16 * 40 + 8 + g % 16) else s) s2

/-- CHANNEL_LOST: re-centring fails (0), the PHY loses lock (1) or the stack falls silent (2). -/
def execChannelLost (g : Fin 64) (cause : Fin 3) (s : State) : Out := .next (s.loseChan g cause)

/-- REFRESH: a per-bank refresh changes nothing that software sees (R291). -/
def execRefresh (_g : Fin 64) (s : State) : Out := .next s

/-- RECENTRE: re-centring that succeeds changes nothing that software sees; one that fails loses the channel (R291,
R292). -/
def execRecentre (g : Fin 64) (fails : Bool) (s : State) : Out := if fails then .next (s.loseChan g 0) else .next s

/-- STACK_TEMP_READ: the controller reads its stack's temperature in °C, signed; above 95 °C DEGRADED.0x20A is raised
once per excursion (R291, Table 23-8). -/
def execStackTempRead (m : Fin 4) (t : BitVec 8) (s : State) : Out :=
  if !s.domOn (43 + m) then .next s
  else
    let hot := decide (t.toInt > 95)
    let was := s.flag (Reg.MC_TEMP_HOT m)
    let s1 := (s.setF (Reg.MC_TEMP_C m) t.toNat).setF (Reg.MC_TEMP_HOT m) (b2n hot)
    if hot && !was then .next (s1.report 1 0x20A (uStack m) [(16, t.toNat)]) else .next s1

/-! ### Training and the commit -/

/-- Set the training mark of a controller's channels. -/
def State.setTraining (s : State) (gs : List Nat) (v : Bool) : State :=
  s.setHbm { s.hbm with training := gs.foldl (fun m g => SMap.put (fun _ => false) m g v) s.hbm.training }

/-- The channels of a controller. -/
def chansOf (m : Nat) : List Nat := (List.range 16).map (fun c => m * 16 + c)

/-- A write of MCm_TRAIN_CTL (R583). -/
def State.writeTrainCtl (m : Nat) (w : WriteReq) (s : State) : State :=
  if wBit w (Reg.MC_TRAIN_CTL_GO m) && !s.committed then
    let s1 := (List.range 16).foldl (fun s c => s.setWord (Reg.MC_TRAIN_STAT_PASS m c).off 0)
      (s.setF (Reg.MC_TRAIN_CTL_DONE m) 0)
    (s1.setTraining (chansOf m) true).setHbm
      { (s1.setTraining (chansOf m) true).hbm with byGo := SMap.put (fun _ => false) s1.hbm.byGo m true }
  else s

/-- MC_TRAIN_GO. -/
def execMcTrainGo (m : Fin 4) (w : WriteReq) (s : State) : Out :=
  .next (s.gatedAct w.agent w.half (Reg.MC_TRAIN_CTL_GO m).off (State.writeTrainCtl m w))

/-- A channel is in training. -/
def State.inTraining (s : State) (g : Nat) : Bool := SMap.get (fun _ => false) s.hbm.training g

/-- TRAINING_DONE: training of a channel ends and writes PASS, repaired lanes and margin; a failed channel raises
DEGRADED.0x209, and is lost when it fails on return from Dormant (R292, R293, R583). -/
def execTrainingDone (g : Fin 64) (pass : Bool) (repaired : Fin 16) (margin : Fin 256) (s : State) : Out :=
  if !s.inTraining g then .next s
  else
    let m := g.val / 16
    let c := g.val % 16
    let s1 := (((s.setTraining [g.val] false).setF (Reg.MC_TRAIN_STAT_PASS m c) (b2n pass)).setF
      (Reg.MC_TRAIN_STAT_REPAIRED m c) repaired).setF (Reg.MC_TRAIN_STAT_MARGIN m c) margin
    let s2 := if pass then s1 else s1.report 1 0x209 (uChan g) [(16, repaired), (16, margin)]
    let go := SMap.get (fun _ => false) s2.hbm.byGo m
    let s3 := if !pass && !go && s2.committed && s2.activeChans.contains g.val then s2.loseChan g 3 else s2
    if go && !(chansOf m).any (fun x => s3.inTraining x) then .next (s3.setF (Reg.MC_TRAIN_CTL_DONE m) 1) else .next s3

/-- CORRECTED.0x208 with the register and the value written (R294, R295). -/
def State.memReject (s : State) (unit off : Nat) (w : WriteReq) : State :=
  s.report 0 0x208 unit [(26, off), (32, written w)]

/-- A write of MGT_HBM_CTL (R294): COMMIT fixes the channel map and the capacity. -/
def State.writeHbmCtl (w : WriteReq) (s : State) : State :=
  let off := Reg.MGT_HBM_CTL_COMMIT.off
  if wBit w Reg.MGT_HBM_CTL_COMMIT then
    let act := s.activeChans
    if s.committed || act.isEmpty || act.any (fun g => !s.flag (Reg.MC_TRAIN_STAT_PASS (g / 16) (g % 16))) then
      s.memReject (uStack 0) off w
    else (s.setF Reg.MGT_HBM_CTL_COMMITTED 1).setF Reg.MGT_HBM_CAP act.length
  else s

/-- MGT_HBM_COMMIT. -/
def execMgtHbmCommit (w : WriteReq) (s : State) : Out :=
  .next (s.gated w.agent w.half Reg.MGT_HBM_CTL_COMMIT.off (State.writeHbmCtl w))

/-- A write of MCm_CH_MAP: ignored with CORRECTED.0x208 once the map is committed (R294). -/
def State.writeChMap (m : Nat) (w : WriteReq) (s : State) : State :=
  let off := (Reg.MC_CH_MAP_ACTIVE m).off
  if s.committed then s.memReject (uStack m) off w else s.plainWrite off w

/-! ### Traffic generators -/

/-- One step of the PRBS31 generator, polynomial x^31 + x^28 + 1; the bit supplied is the register's last (DESIGN CHOICE, log entry
31). -/
def prbsStep (x : Nat) : Nat := x * 2 % 2 ^ 31 + b2n (x.testBit 30 != x.testBit 27)

/-- The next `n` bits and the register after them. -/
def prbsBits : Nat → Nat → List Bool × Nat
  | 0, x => ([], x)
  | n + 1, x =>
    let r := prbsBits n (prbsStep x)
    (x.testBit 30 :: r.1, r.2)

/-- Bytes of a list of bits, bit 0 of byte 0 first. -/
def packBits (bs : List Bool) : List Byte :=
  (List.range (bs.length / 8)).map (fun i =>
    BitVec.ofNat 8 ((List.range 8).foldl (fun v k => v + b2n (bs.getD (8 * i + k) false) * 2 ^ k) 0))

/-- The settings of a run (Table 10-5, R581). -/
structure TgConf where
  mode : Nat
  pattern : Nat
  first : Nat
  stride : Nat
  passes : Nat
  seed : Nat
  const : Nat
  /-- words visited in a pass -/
  perPass : Nat
  deriving DecidableEq, Repr

/-- Read the settings of channel `g` (R581). -/
def State.tgConf (s : State) (g : Nat) : TgConf :=
  let m := g / 16
  let c := g % 16
  let seed := s.getF (Reg.MC_TG_SEED m c)
  let stride := let x := s.getF (Reg.MC_TG_STRIDE m c); if x = 0 then 2 ^ 24 else x
  let a := s.getF (Reg.MC_TG_RANGE_START_WORD m c)
  let b := min (s.getF (Reg.MC_TG_RANGE_END_WORD m c)) 0x1FFFFFF
  let pat := s.getF (Reg.MC_TG_CTL_PATTERN m c)
  { mode := s.getF (Reg.MC_TG_CTL_MODE m c), pattern := pat, first := a, stride := stride,
    passes := max 1 (s.getF (Reg.MC_TG_CTL_PASSES m c)),
    seed := if pat = 0 ∧ seed = 0 then 0x7FFFFFFF else seed,
    const := s.getF (Reg.MC_TG_CONST m c), perPass := if b < a then 0 else (b - a) / stride + 1 }

/-- Visits of a whole run. -/
def TgConf.total (t : TgConf) : Nat := t.perPass * t.passes * (if t.mode = 2 then 2 else 1)

/-- What a generator has counted (R297). -/
structure TgAcc where
  prbs : Nat := 0
  mismatch : Nat := 0
  first : Option (Nat × Nat) := none
  corrected : Nat := 0
  uncorrectable : Nat := 0
  poison : Nat := 0
  deriving DecidableEq, Repr

/-- The data of visit `k` of a pass to word `idx`, and the PRBS register after it (R296). -/
def TgConf.data (t : TgConf) (k idx prbs : Nat) : List Byte × Nat :=
  match t.pattern with
  | 0 =>
    let r := prbsBits 256 prbs
    (packBits r.1, r.2)
  | 1 => ((List.range 4).flatMap (fun u => leBytes 8 ((idx * 32 + 8 * u) ^^^ t.seed)), prbs)
  | 2 => ((List.range 4).flatMap (fun _ => leBytes 8 t.const), prbs)
  | _ => (leBytes 32 (2 ^ (k % 256)), prbs)

/-- One visit (R296): in MODE 2 every pass writes before any pass reads (DESIGN CHOICE, log entry 89); a write stores the pattern; a read counts what it meets and compares in modes 1 and 2. A lost channel discards the
write, and its read returns 0 with the poison flag (R292). -/
def State.tgVisit (s : State) (g : Nat) (t : TgConf) (acc : TgAcc) (i : Nat) : State × TgAcc :=
  let k := i % t.perPass
  let idx := t.first + k * t.stride
  let d := t.data k idx (if k = 0 then t.seed else acc.prbs)
  let acc := { acc with prbs := d.2 }
  let writes := t.mode == 0 || (t.mode == 2 && decide (i < t.perPass * t.passes))
  if writes then (if s.chanLost g then s else s.chanWriteWord g (idx * 32) d.1, acc)
  else
    let s1 := if s.chanLost g then s else s.wcbDrainLine g (idx / 2)
    let e := if s.chanLost g then EccState.poisoned else s1.eccAt (hbmKey g (idx * 32))
    let bs := if s.chanLost g then List.replicate 32 (0#8) else s1.rdBytes (hbmKey g (idx * 32)) 32
    let acc := { acc with
      corrected := acc.corrected + b2n (e == .correctable), poison := acc.poison + b2n (e == .poisoned),
      uncorrectable := acc.uncorrectable + b2n (e == .uncorrectable) }
    if t.mode = 3 ∨ bs = d.1 then (s1, acc)
    else
      (s1, { acc with mismatch := acc.mismatch + 1,
                      first := acc.first.orElse (fun _ => some (idx, fieldLe bs 0 8 ^^^ fieldLe d.1 0 8)) })

/-- A generator ends after a number of visits (R297, R582): its results, DONE, and the accesses that waited for it. -/
def State.tgFinish (s : State) (g visits : Nat) (aborted : Bool) : State :=
  let m := g / 16
  let c := g % 16
  let t := s.tgConf g
  let r := (List.range visits).foldl (fun (x : State × TgAcc) (i : Nat) => x.1.tgVisit g t x.2 i) (s, {})
  let a := r.2
  let el := s.now - SMap.get (fun _ => 0) s.hbm.tgStart g
  let s1 := (((r.1.setF (Reg.MC_TG_MISMATCH m c) (satN 48 a.mismatch)).setF (Reg.MC_TG_ECC_CORRECTED m c)
    (satN 32 a.corrected)).setF (Reg.MC_TG_ECC_UNCORRECTABLE m c) (satN 32 a.uncorrectable)).setF
    (Reg.MC_TG_POISON m c) (satN 32 a.poison)
  let s2 := match a.first with
    | some f => ((s1.setF (Reg.MC_TG_FIRST_WORD m c) f.1).setF (Reg.MC_TG_FIRST_VALID m c) 1).setF
        (Reg.MC_TG_FIRST_XOR m c) f.2
    | none => s1
  let s3 := (((s2.setF (Reg.MC_TG_ELAPSED m c) (satN 48 el)).setF (Reg.MC_TG_CTL_BUSY m c) 0).setF
    (Reg.MC_TG_CTL_ABORTED m c) (b2n aborted)).setF (Reg.MC_TG_CTL_DONE m c) 1
  s3.releaseHeld (32 + g)

/-- A resident pipeline has a circuit to a channel (R295). -/
def State.chanUsed (s : State) (g : Nat) : Bool := [0, 1, 2, 3].any (fun n => s.resident n && (s.pipe n).chans.contains g)

/-- Clear the results of a generator (R581). -/
def State.tgClear (s : State) (g : Nat) : State :=
  let m := g / 16
  let c := g % 16
  ([Reg.MC_TG_MISMATCH m c, Reg.MC_TG_FIRST_WORD m c, Reg.MC_TG_FIRST_XOR m c, Reg.MC_TG_ECC_CORRECTED m c,
    Reg.MC_TG_POISON m c, Reg.MC_TG_ELAPSED m c].foldl (fun s f => s.setWord f.off 0) s).setF
    (Reg.MC_TG_CTL_DONE m c) 0 |>.setF (Reg.MC_TG_CTL_ABORTED m c) 0

/-- A write of MCm_TGc_CTL (R295, R577, R581): while BUSY only START is looked at, and it is rejected. A run that visits
no word is DONE at once. -/
def State.writeTgCtl (g : Nat) (w : WriteReq) (s : State) : State :=
  let m := g / 16
  let c := g % 16
  let off := (Reg.MC_TG_CTL_START m c).off
  let start := wBit w (Reg.MC_TG_CTL_START m c)
  let busy := s.flag (Reg.MC_TG_CTL_BUSY m c)
  if start && (busy || !s.chanLive g || s.chanUsed g) then s.memReject (uChan g) off w
  else if busy then s
  else
    let s1 := s.plainWrite off w
    if start then
      let s2 := ((s1.tgClear g).setF (Reg.MC_TG_CTL_BUSY m c) 1).setHbm
        { (s1.tgClear g).hbm with tgStart := SMap.put (fun _ => 0) s1.hbm.tgStart g s1.now }
      if (s2.tgConf g).perPass = 0 then s2.tgFinish g 0 false else s2
    else s1

/-- TG_START. -/
def execTgStart (g : Fin 64) (w : WriteReq) (s : State) : Out :=
  .next (s.gatedAct w.agent w.half (Reg.MC_TG_CTL_START (g.val / 16) (g.val % 16)).off (State.writeTgCtl g w))

/-- TG_DONE: the generator finishes, `ns` after it started; its visits are performed here as a whole. -/
def execTgDone (g : Fin 64) (ns : Nat) (s : State) : Out :=
  if s.flag (Reg.MC_TG_CTL_BUSY (g.val / 16) (g.val % 16)) then
    let s1 := s.reach (SMap.get (fun _ => 0) s.hbm.tgStart g + ns)
    .next (s1.tgFinish g (s1.tgConf g).total false).settleDone
  else .next s

/-- A commit claims a circuit to a channel whose generator runs (R582): it stops at its next word boundary. How many
words it has visited is a free value (DESIGN CHOICE, log entry 2). -/
def State.tgAbort (s : State) (g : Nat) : State :=
  if s.flag (Reg.MC_TG_CTL_BUSY (g / 16) (g % 16)) then
    s.freeNext.tgFinish g (s.freeVal.toNat % ((s.tgConf g).total + 1)) true
  else s

/-! ### Injection and counters -/

/-- A write of MCm_INJ (R579): ARM at 1 arms with the mask as it stands, unless it selects no symbol or more than two;
ARM at 0 disarms. -/
def State.writeInj (m : Nat) (w : WriteReq) (s : State) : State :=
  let mask := s.getF (Reg.MC_INJ_MASK m)
  let n := ((List.range 32).filter (fun k => bit1 mask k)).length
  let off := (Reg.MC_INJ_ARM m).off
  if wBit w (Reg.MC_INJ_ARM m) then
    if 1 ≤ n ∧ n ≤ 2 then
      let s1 := s.plainWrite off w
      s1.setHbm { s1.hbm with injMask := SMap.put (fun _ => 0) s1.hbm.injMask m mask }
    else s
  else s.plainWrite off w

/-- MC_INJ. -/
def execMcInj (m : Fin 4) (w : WriteReq) (s : State) : Out :=
  .next (s.gated w.agent w.half (Reg.MC_INJ_ARM m).off (State.writeInj m w))

/-- ECC_COUNTER_READ: a read of MCm_ECCc_CNT0 to CNT2 returns its counters and clears them, both halves of a register
(R580). -/
def execEccCounterRead (g : Fin 64) (k : Fin 3) (r : ReadReq) (s : State) : Out :=
  let m := g.val / 16
  let c := g.val % 16
  let f := match k.val with
    | 0 => Reg.MC_ECC_CNT0_CORRECTED m c
    | 1 => Reg.MC_ECC_CNT1_POISON_READ m c
    | _ => Reg.MC_ECC_CNT2_RETRY_RECOVERED m c
  if s.regLive f.off then
    let x := s.readRc r.half f
    .next (x.1.answer .ok x.2)
  else .next (s.answer .ok 0#64)

/-- WCB_COUNTER_READ: a read of MCm_WCB_FLUSH, or of MCm_WCB_WAIT, returns and clears the count (R578). -/
def execWcbCounterRead (m : Fin 4) (wait : Bool) (r : ReadReq) (s : State) : Out :=
  let f := if wait then Reg.MC_WCB_WAIT m else Reg.MC_WCB_FLUSH m
  if s.regLive f.off then
    let x := s.readRc r.half f
    .next (x.1.answer .ok x.2)
  else .next (s.answer .ok 0#64)

end Machine
end Sys2Proof
end

