-- ==== Sys2Proof/Machine/Window.lean ====
section
/-!
DEFINITION. Row buffers, fetch streams and release tokens (spec/08_windows_and_solstice.md R206 to R221), and the vector
depthwise path (R224, R225, spec/09 R267, R268).
-/

namespace Sys2Proof

/-- A tensor's byte offset within a row (Table 8-2). -/
def rowOffset (layout w c x ch : Nat) : Nat :=
  match layout with
  | 0 => x * c + ch
  | 1 => ch * w + x
  | 2 => ch / 16 * w * 16 + x * 16 + ch % 16
  | _ => ch / 32 * w * 32 + x * 32 + ch % 32

/-- The row pitch of a layout (Table 8-2). -/
def rowPitch (layout w c : Nat) : Nat :=
  match layout with
  | 0 | 1 => w * c
  | 2 => ceilDiv c 16 * w * 16
  | _ => ceilDiv c 32 * w * 32

/-- Bytes of one output element outside the tiles: a code, an FP32 value, or the int32 T with SAT in bit 32. R169 gives the forms
and no rule their place in a row or in the output area; an element takes this many bytes where Table 8-2 counts one (DESIGN
CHOICE, log entry 110). -/
def RescDesc.elemBytes (d : RescDesc) : Nat := if d.out = 3 then 8 else if d.out = 2 then 4 else 1

/-- A byte of a row that stands for an unused channel of a partial block (R210). -/
def unusedByte (layout w c o : Nat) : Bool :=
  match layout with
  | 0 | 1 => false
  | 2 => decide (c ≤ o / max 1 (w * 16) * 16 + o % 16)
  | _ => decide (c ≤ o / max 1 (w * 32) * 32 + o % 32)

namespace Machine

/-! ### Fetch-stream descriptors (Table 8-5) -/

structure FstrDesc where
  src : Nat
  buf : Nat
  rhold : Bool
  padMode : Nat
  padv : Nat
  kh : Nat
  kw : Nat
  sh : Nat
  sw : Nat
  dh : Nat
  dw : Nat
  padT : Nat
  padL : Nat
  shapeC : Nat
  int4 : Bool
  rowsOnly : Bool
  valid : Bool
  orowFirst : Nat
  orowCount : Nat
  wOut : Nat
  wordsPerIt : Nat
  hIn : Nat
  wIn : Nat
  cG : Nat
  cOff : Nat
  hbmBase : Nat
  layout : Nat
  cTotal : Nat
  deriving DecidableEq, Repr

/-- The descriptor of stream engine `e` in the active context slot. -/
def State.fstrDesc (s : State) (c e : Nat) : FstrDesc :=
  let w := fun i => s.getF (Reg.CC_FSTR c (s.ctx c) e i)
  { src := bits (w 0) 0 6, buf := bits (w 0) 6 3, rhold := bit1 (w 0) 9, padMode := bits (w 0) 10 2,
    padv := bits (w 0) 12 8, kh := bits (w 0) 20 4, kw := bits (w 0) 24 4, sh := bits (w 0) 28 3 + 1,
    sw := bits (w 0) 31 3 + 1, dh := bits (w 0) 34 3 + 1, dw := bits (w 0) 37 3 + 1, padT := bits (w 0) 40 4,
    padL := bits (w 0) 44 4, shapeC := 2 ^ bits (w 0) 56 3, int4 := bit1 (w 0) 59, rowsOnly := bit1 (w 0) 60,
    valid := bit1 (w 0) 63, orowFirst := bits (w 1) 0 16, orowCount := bits (w 1) 16 16, wOut := bits (w 1) 32 16,
    wordsPerIt := bits (w 1) 48 16, hIn := bits (w 2) 0 16, wIn := bits (w 2) 16 16, cG := bits (w 2) 32 16,
    cOff := bits (w 2) 48 16, hbmBase := bits (w 3) 0 48, layout := bits (w 3) 48 2, cTotal := bits (w 3) 50 14 }

/-- Elements of the reduction (R206). -/
def FstrDesc.n (d : FstrDesc) : Nat := d.kh * d.kw * d.cG

/-- First input row that the stripe's windows reach, and the row past the last one, within the input (R214). -/
def FstrDesc.rowLo (d : FstrDesc) : Nat := ((d.orowFirst * d.sh : Int) - d.padT).toNat
def FstrDesc.rowEnd (d : FstrDesc) : Nat :=
  (min (((d.orowFirst + d.orowCount - 1) * d.sh + (d.kh - 1) * d.dh : Int) - d.padT) ((d.hIn : Int) - 1) + 1).toNat

/-- MACs of one output position, for a part of length N (R191, R216). -/
def FstrDesc.macs (d : FstrDesc) : Nat :=
  let h : AccHdr := { rows := 32 / d.shapeC, cols := d.shapeC, fmt := 0, int4 := d.int4, carry := false, spillK := 0,
                      gsize := 0, corr := 0, gmul := 0, corrEn := false, plen := d.n }
  let jl := (d.n - 1) / 16
  let n := if jl % h.cols = 0 then 16 * (jl / h.cols) + (d.n - 16 * jl) else 16 * (jl / h.cols) + 16
  if d.int4 then ceilDiv n 2 else n

/-- Bytes of one MAC's activation run: whole registers (R190). -/
def FstrDesc.macBytes (d : FstrDesc) : Nat := if d.int4 then 4 * ceilDiv d.shapeC 2 else 4 * ceilDiv d.shapeC 4

/-- Words of one output position, and of the frame's stripe (R216). -/
def FstrDesc.posWords (d : FstrDesc) : Nat := ceilDiv (d.macs * d.macBytes) 8
def FstrDesc.rowWords (d : FstrDesc) : Nat := ceilDiv (rowPitch d.layout d.wIn d.cTotal) 8
def FstrDesc.total (d : FstrDesc) : Nat :=
  if d.rowsOnly then (d.rowEnd - d.rowLo) * d.rowWords else d.orowCount * d.wOut * d.posWords

/-- Where a byte of a word comes from: a constant, or a row and byte offset of the source tensor. -/
inductive ByteSrc where
  | const (b : Nat)
  | src (y off : Nat)
  deriving DecidableEq, Repr

/-- The source of window element `e` of an output position, with the pad code of ZA (R206). -/
def FstrDesc.elemSrc (d : FstrDesc) (za oy ox e : Nat) : ByteSrc :=
  if d.n ≤ e then .const 0
  else
    let ch := d.cOff + e % d.cG
    let k := e / d.cG
    let y : Int := (oy * d.sh + k / d.kw * d.dh : Int) - d.padT
    let x : Int := (ox * d.sw + k % d.kw * d.dw : Int) - d.padL
    let inside := decide (0 ≤ y ∧ y < d.hIn ∧ 0 ≤ x ∧ x < d.wIn)
    if inside || d.padMode == 2 then
      let yy := (clampI 0 ((d.hIn : Int) - 1) y).toNat
      let xx := (clampI 0 ((d.wIn : Int) - 1) x).toNat
      .src yy (rowOffset d.layout d.wIn d.cTotal xx ch)
    else .const (if d.padMode = 1 then d.padv else za)

/-- The source of byte `b` of one MAC's run (R190, R191). -/
def FstrDesc.macByte (d : FstrDesc) (za oy ox m b : Nat) : ByteSrc :=
  let col := if d.int4 then b / 2 else b
  let i := if d.int4 then 2 * m + b % 2 else m
  if d.shapeC ≤ col then .const 0 else d.elemSrc za oy ox (16 * (i / 16 * d.shapeC + col) + i % 16)

/-- The sources of the 8 bytes of word `i` of the frame's stripe (R216). -/
def FstrDesc.wordSrc (d : FstrDesc) (za i : Nat) : List ByteSrc :=
  if d.rowsOnly then
    let y := d.rowLo + i / max 1 d.rowWords
    (List.range 8).map (fun b =>
      let o := 8 * (i % max 1 d.rowWords) + b
      if o < rowPitch d.layout d.wIn d.cTotal ∧ unusedByte d.layout d.wIn d.cTotal o = false then .src y o else .const 0)
  else
    let pos := i / max 1 d.posWords
    let k := i % max 1 d.posWords
    (List.range 8).map (fun b =>
      let o := 8 * k + b
      if o < d.macs * d.macBytes then
        d.macByte za (d.orowFirst + pos / max 1 d.wOut) (pos % max 1 d.wOut) (o / d.macBytes) (o % d.macBytes)
      else .const 0)

/-- The rows that a word reads. -/
def srcRows (bs : List ByteSrc) : List Nat :=
  (bs.filterMap (fun b => match b with | .src y _ => some y | .const _ => none)).eraseDups

/-! ### Ring slots (R213, R216, R217) -/

def State.fstr' (s : State) (c e : Nat) : FStream := SMap.get (fun _ => {}) s.fstr (c * 8 + e)
def State.putFstr' (s : State) (c e : Nat) (v : FStream) : State := s.setFstr (SMap.put (fun _ => {}) s.fstr (c * 8 + e) v)

/-- The ring slot that holds a valid band of a frame. -/
def RowBuf.slotFor (x : RowBuf) (n fif band : Nat) : Option Nat :=
  (List.range n).find? (fun j =>
    let r := SMap.get (fun _ => {}) x.slots j
    r.valid && r.fif == fif && r.band == band && r.remaining != 0)

/-- The core-store offset of a byte of a row in a row buffer, when its band is there. -/
def State.ringOff (s : State) (core buf fif y off : Nat) : Option Nat :=
  let d := s.rbufDesc core buf
  ((s.rbuf core buf).slotFor d.nbands fif (y / max 1 d.bandRows)).map (fun j =>
    d.base + j * (d.rowBytes * d.bandRows) + y % max 1 d.bandRows * d.rowBytes + off)

/-- Lower the remaining count of a frame's band (R217). -/
def State.releaseBand (s : State) (core buf fif band : Nat) : State :=
  let x := s.rbuf core buf
  match x.slotFor (s.rbufDesc core buf).nbands fif band with
  | none => s
  | some j =>
    let r := SMap.get (fun _ => {}) x.slots j
    let r1 : RingSlot := { r with remaining := r.remaining - 1 }
    s.putRbuf core buf { x with slots := SMap.put (fun _ => {}) x.slots j r1 }

/-- The bands of a stripe (R214). -/
def State.stripeBands (s : State) (d : FstrDesc) : List Nat :=
  let br := max 1 (s.rbufDesc d.src d.buf).bandRows
  (List.range (ceilDiv d.rowEnd br)).filter (fun b => decide (d.rowLo / br ≤ b ∧ d.rowLo < d.rowEnd))

/-- The last word that a stream takes from a band: the last that reads it, or, for a band that no word reads, the last
that reads a lower one (R214, R217). -/
def FstrDesc.lastUse (d : FstrDesc) (br band : Nat) : Nat :=
  let rows := fun k => srcRows (d.wordSrc 0 k)
  let ks := List.range d.total
  match (ks.filter (fun k => (rows k).any (fun y => y / br == band))).getLast? with
  | some k => k
  | none => ((ks.filter (fun k => (rows k).any (fun y => decide (y / br < band)))).getLast?).getD 0

/-- A stream releases all of a frame's bands at once; it holds none of them any longer (R217, R219). -/
def State.releaseAll (s : State) (c e : Nat) (d : FstrDesc) (fif : Nat) : State :=
  let s1 := if d.src = 63 then s else (s.stripeBands d).foldl (fun s b => s.releaseBand d.src d.buf fif b) s
  s1.putFstr' c e { s1.fstr' c e with freed := (s1.fstr' c e).freed ++ [fif] }

/-- The streams of a row buffer hold the bands of a frame whose first band is being written (R219). -/
def State.bandAnew (s : State) (c b fif : Nat) : State :=
  (List.range 8).foldl (fun (s : State) (e : Nat) =>
    if (s.fstrDesc c e).src = c ∧ (s.fstrDesc c e).buf = b then
      s.putFstr' c e { s.fstr' c e with freed := (s.fstr' c e).freed.filter (fun f => f != fif) }
    else s) s

/-! ### Reading the source -/

/-- A coded region that a stream decodes (R308): one of its core's section, else one that another section declares. -/
def State.codedFor (s : State) (p c : Nat) (d : FstrDesc) : Option CodedRegion :=
  let gs := (s.pipe p).coded.filter (fun g => g.base == d.hbmBase)
  (gs.find? (fun g => g.sect == s.getF (Reg.CC_CTX_STAT_SECTION c))).or gs.head?

/-- The tensor byte of a row and offset in HBM. -/
def FstrDesc.hbmOff (d : FstrDesc) (y off : Nat) : Nat := y * rowPitch d.layout d.wIn d.cTotal + off

/-- The HBM words that sources name, and the segments of a coded region. -/
def FstrDesc.srcWords (d : FstrDesc) (bs : List ByteSrc) : List Nat :=
  (bs.filterMap (fun b => match b with
    | .src y off => some ((d.hbmBase + d.hbmOff y off) / 32 * 32) | .const _ => none)).eraseDups
def FstrDesc.srcSegs (d : FstrDesc) (g : CodedRegion) (bs : List ByteSrc) : List Nat :=
  (bs.filterMap (fun b => match b with
    | .src y off => some (d.hbmOff y off / (512 * g.width)) | .const _ => none)).eraseDups

/-- A unit requests words of HBM, each met as a read meets it (R274, R289); the Bool says that one is bad. -/
def State.meetWords (s : State) (ws : List Nat) : State × Bool :=
  ws.foldl (fun (acc : State × Bool) a =>
    let q := acc.1.unitRead a 0
    (q.1, acc.2 || q.2.bad || q.2.unavail)) (s, false)

/-- The value of a word from its byte sources, each read by `rd`. -/
def srcValue (rd : Nat → Nat → Nat) (bs : List ByteSrc) : Nat :=
  bs.zipIdx.foldl (fun acc x => acc + 256 ^ x.2 * (match x.1 with | .const b => b | .src y off => rd y off)) 0

/-- The word that a stream sends from HBM: its data, and the reason of its MARK if it has one. `prev` are the sources of the
word before it, whose words and segments are in hand and make no fresh request (R289). -/
def State.hbmWord (s : State) (p c fif : Nat) (d : FstrDesc) (bs prev : List ByteSrc) : State × Nat × Option Nat :=
  match s.codedFor p c d with
  | some g =>
    let old := d.srcSegs g prev
    let r := (d.srcSegs g bs).foldl (fun (acc : State × List (Nat × List Byte) × Option Nat) i =>
      let q := acc.1.readSegment p fif g i
      (if old.contains i then acc.1 else q.1, acc.2.1 ++ [(i, q.2.1)], acc.2.2.or q.2.2)) (s, [], none)
    (r.1, srcValue (fun y off =>
      match r.2.1.find? (fun e => e.1 == d.hbmOff y off / (512 * g.width)) with
      | some e => fieldLe e.2 (d.hbmOff y off % (512 * g.width)) 1
      | none => 0) bs, r.2.2)
  | none =>
    let ws := d.srcWords bs
    let s1 := (s.meetWords (ws.filter (fun a => !(d.srcWords prev).contains a))).1
    (s1, srcValue (fun y off =>
      let a := d.hbmBase + d.hbmOff y off
      fieldLe (s1.unitPeek (a / 32 * 32)).1 (a % 32) 1) bs,
      if ws.any (fun a => (s1.unitPeek a).2) then some 3 else none)

/-- The sources of every byte of a tensor row. -/
def FstrDesc.rowSrc (d : FstrDesc) (y : Nat) : List ByteSrc :=
  (List.range (rowPitch d.layout d.wIn d.cTotal)).map (fun o => .src y o)

/-- The rows of a stripe that a stream from HBM has read when its last word is sent: a bad word or segment that none of the sent words
took reaches no tile, and sets POISON_SEEN (R280, R309; DEDUCED, log entry 109). -/
def State.strayPoison (s : State) (p c fif : Nat) (d : FstrDesc) : State :=
  let all := (List.range d.total).map (d.wordSrc 0)
  let rows := ((List.range d.rowEnd).filter (fun y => decide (d.rowLo ≤ y))).map d.rowSrc
  let r := match s.codedFor p c d with
    | some g =>
      let took := (all.flatMap (d.srcSegs g)).eraseDups
      ((rows.flatMap (d.srcSegs g)).eraseDups.filter (fun i => !took.contains i)).foldl (fun (acc : State × Bool) i =>
        let q := acc.1.fetchSegment p fif g i
        (q.1, acc.2 || q.2.2.isSome)) (s, false)
    | none =>
      let took := (all.flatMap d.srcWords).eraseDups
      s.meetWords ((rows.flatMap d.srcWords).eraseDups.filter (fun a => !took.contains a))
  if r.2 then r.1.onFrame p fif (fun f => { f with poisonSeen := true }) else r.1

/-- The word that a stream sends, once its sources are there: its data, and a mark for a bad source. `prev` are the
sources of the word before it. -/
def State.streamWord (s : State) (p c fif : Nat) (d : FstrDesc) (bs prev : List ByteSrc) :
    Option (State × Nat × Option Mark) :=
  let poison : Mark := { reason := 3, time := s.now }
  if d.src = 63 then
    let r := s.hbmWord p c fif d bs prev
    some (r.1, r.2.1, r.2.2.map (fun n => { poison with reason := n }))
  else
    let offs := bs.map (fun b => match b with
      | .const b => some (Sum.inl b)
      | .src y off => (s.ringOff d.src d.buf fif y off).map Sum.inr)
    if offs.all (fun o => o.isSome) then
      let words := (offs.filterMap (fun o => match o with
        | some (Sum.inr (o : Nat)) => some (o / 8 * 8) | _ => none)).eraseDups
      let s1 := (words.filter (fun w => s.eccAt (storeKey d.src w) == .correctable)).foldl (fun s w =>
        (s.addF (Reg.CC_TALLY d.src 14) 1).report 0 0x023 (uCore d.src) [(22, w)]) s
      let bad := words.find? (fun w => (s.eccAt (storeKey d.src w)).bad)
      let v := offs.zipIdx.foldl (fun acc x => acc + 256 ^ x.2 * (match x.1 with
        | some (Sum.inl (b : Nat)) => b
        | some (Sum.inr (o : Nat)) => (s.rdByte (storeKey d.src o)).toNat
        | none => 0)) 0
      some (s1, v, bad.map (fun w => { poison with addr := some (storeKey d.src w) }))
    else none

/-! ### Sending (R215 to R219) -/

/-- The next word that a stream sends: a frame to send again, the frame in hand, or the oldest admitted frame not yet
sent. A REFETCH takes over between output positions (R219). -/
def State.streamNext (s : State) (p c e : Nat) (d : FstrDesc) : Option (Nat × Nat × FStream) :=
  let x := s.fstr' c e
  let step := if d.rowsOnly then max 1 d.rowWords else max 1 d.posWords
  let fresh := fun (x : FStream) =>
    ((s.pipe p).frames.find? (fun f => f.admitted && !f.sent.contains (c * 8 + e))).map (fun f => (f.fif, 0, x))
  match x.cur, x.again, x.back with
  | some (f, i), a :: rest, none =>
    if i % step = 0 then some (a, 0, { x with again := rest, back := some (f, i) }) else some (f, i, x)
  | some (f, i), _, _ => some (f, i, x)
  | none, a :: rest, _ => some (a, 0, { x with again := rest })
  | none, [], _ => fresh x

/-- Room for a stream's word where the Weave routes it (R110, R215). -/
def State.fetchRoom (s : State) (c : Nat) (dst : FetchDst) : Bool :=
  match dst with
  | .row r => decide ((s.edge c 3 r 1).words.length < 8)
  | .gateway code => decide ((s.gw c 0 code).words.length < 32)

/-- Where a stream engine's words can enter: the gateway queue of the engine (Table 4-8), or a row port. -/
def fetchDstOk (e : Nat) (dst : FetchDst) : Bool :=
  match dst with
  | .row _ => true
  | .gateway code => code.val == 16 + e

/-- The word enters its circuit. -/
def State.fetchPush (s : State) (c : Nat) (dst : FetchDst) (w : QWord) : State :=
  match dst with
  | .row r => s.edgePush c 3 r 1 w
  | .gateway code => s.gwPush (s.coreOwner c) c 0 code (s.core c).slot w

/-- After word `i` of a frame has entered: bands no longer needed are released, and after the last word the frame is
sent (R217). -/
def State.streamAfter (s : State) (p c e fif i : Nat) (d : FstrDesc) (x : FStream) : State :=
  let br := max 1 (s.rbufDesc d.src d.buf).bandRows
  let s1 := if d.src = 63 || d.rhold then s
    else ((s.stripeBands d).filter (fun b => d.lastUse br b == i)).foldl (fun s b => s.releaseBand d.src d.buf fif b) s
  if i + 1 < d.total then s1.putFstr' c e { x with cur := some (fif, i + 1) }
  else
    let s2 := s1.onFrame p fif (fun f =>
      if f.sent.contains (c * 8 + e) then f else { f with sent := f.sent ++ [c * 8 + e] })
    let s3 := if d.src = 63 then s2.strayPoison p c fif d else s2
    if d.rhold && x.settled.contains fif then
      (s3.putFstr' c e { x with cur := x.back, back := none, settled := x.settled.filter (· != fif) }).releaseAll c e d fif
    else s3.putFstr' c e { x with cur := x.back, back := none }

/-- FETCH_STREAM_SEND (R215 to R217, R221): a stream of a core that is ON sends its next word where the Weave routes it,
once its bands are there and there is room. `tensor` is the input tensor whose zero point pads (R206). -/
def execFetchStreamSend (c : Fin 32) (e : Fin 8) (tensor : Fin 4096) (dst : FetchDst) (s : State) : Out :=
  let d := s.fstrDesc c e
  match s.coreOwner c with
  | none => .next s
  | some p =>
    if !d.valid || !fetchDstOk e dst || !s.domOn c || !s.fetchRoom c dst || d.total == 0 then .next s
    else
      match s.streamNext p c e d with
      | none => .next s
      | some (fif, i, x) =>
        let tag : Byte := BitVec.ofNat 8 (fif * 32 + i / max 1 d.wordsPerIt % 32)
        let za := (s.bankOf c tag tensor).2
        match s.streamWord p c fif d (d.wordSrc za i) (if i = 0 then [] else d.wordSrc za (i - 1)) with
        | none => .next s
        | some (s1, v, bad) =>
          let void : Option Mark := ((s1.pipe p).frame fif).bind (fun f => f.void.map (fun v => { reason := v.1, time := v.2 }))
          let w : QWord := { data := BitVec.ofNat 64 v, tag := tag, mark := bad.or void }
          .next ((s1.fetchPush c dst w).streamAfter p c e fif i d x)

/-- A stream holds bands of a frame: they are in the ring, and it has not released them (R219). -/
def State.holdsBands (s : State) (c e : Nat) (d : FstrDesc) (fif : Nat) : Bool :=
  d.src != 63 && !(s.fstr' c e).freed.contains fif && (s.stripeBands d).any (fun b =>
    ((s.rbuf d.src d.buf).slotFor (s.rbufDesc d.src d.buf).nbands fif b).isSome)

/-- A token for a wrong stream or frame (R219). -/
def State.tokenError (s : State) (p c e fif op : Nat) : State :=
  (s.reportF 1 0x032 (uCore c) p fif [(5, e), (4, op)]).voidFrame p fif 7

/-- SETTLE: a stream may release all of a frame's bands, once it has sent its last word (R217, R219). -/
def execSettle (c : Fin 32) (e : Fin 8) (fif : Fin 8) (s : State) : Out :=
  let d := s.fstrDesc c e
  match s.coreOwner c with
  | none => .next s
  | some p =>
    if !d.valid || !d.rhold || !s.holdsBands c e d fif then .next (s.tokenError p c e fif 0)
    else
      let sent := match (s.pipe p).frame fif with | some f => f.sent.contains (c.val * 8 + e.val) | none => false
      let x := s.fstr' c e
      if sent && !x.again.contains fif.val then .next (s.releaseAll c e d fif)
      else .next (s.putFstr' c e { x with settled := x.settled ++ [fif.val] })

/-- REFETCH: the stream sends a frame's stripe again from its first position (R219). -/
def execRefetch (c : Fin 32) (e : Fin 8) (fif : Fin 8) (s : State) : Out :=
  let d := s.fstrDesc c e
  match s.coreOwner c with
  | none => .next s
  | some p =>
    if !d.valid || !d.rhold || !s.holdsBands c e d fif then .next (s.tokenError p c e fif 1)
    else
      let x := s.fstr' c e
      .next (s.putFstr' c e { x with again := x.again ++ [fif.val] })

/-! ### Beginning a band (R213) -/

/-- The frame of the next band: that of the band before it, or the next in rotation (R48, R213). -/
def State.nextBandFif (s : State) (p : Nat) (x : RowBuf) : Option Nat :=
  if x.band != 0 then x.fif
  else
    let want : Option Nat := match x.fif with
      | some f => some ((f + 1) % 8)
      | none => ((s.pipe p).frames.find? (fun (f : Frame) => f.admitted)).map (fun (f : Frame) => f.fif)
    want.filter (fun f => ((s.pipe p).frame f).isSome)

/-- The producer of a row buffer: its core, or the Solstice engine for the buffer that a stem writes (Table 8-9). -/
def State.bandUnit (s : State) (c b : Nat) : Nat :=
  match s.coreOwner c with
  | some p =>
    let q := s.pipe p
    if q.usesStem && q.sol.stem.outCore == c && q.sol.stem.outBuf == b then uSol else uCore c
  | none => uCore c

/-- Open the next band of a row buffer, when its ring slot's remaining count is 0; otherwise the producer, which is of stage `stage`, is
held as under R77, and that is a departure (Table 13-3; its cause number is the model's, log entry 102). The Bool says that it was
opened. -/
def State.openBand (s : State) (p c b stage : Nat) : State × Bool :=
  let d := s.rbufDesc c b
  let x := s.rbuf c b
  match s.nextBandFif p x with
  | none => (s, false)
  | some fif =>
    let j := x.next % max 1 d.nbands
    if x.cur.isSome then (s, false)
    else if (SMap.get (fun _ => {}) x.slots j).remaining != 0 then
      ((s.putRbuf c b { x with held := true }).departs c (s.bandUnit c b) stage (s.core c).slot 2 (BitVec.ofNat 8 (fif * 32)), false)
    else
      let slot : RingSlot := { fif := fif, band := x.band }
      let s1 := if x.band = 0 then s.bandAnew c b fif else s
      (s1.putRbuf c b { x with
        slots := SMap.put (fun _ => {}) x.slots j slot
        next := x.next + 1
        band := (x.band + 1) % max 1 d.bands
        fif := some fif
        cur := some (j, 0)
        held := false
        stalled := false }, true)

/-- Write whole rows of the open band, from its first row, and make it valid with its release count (R213). -/
def State.fillBand (s : State) (c b : Nat) (rows : List (List Byte)) : State :=
  let d := s.rbufDesc c b
  let x := s.rbuf c b
  match x.cur with
  | none => s
  | some (j, _) =>
    let s1 := rows.zipIdx.foldl (fun s r =>
      (s.storePut c (d.base + j * (d.rowBytes * d.bandRows) + r.2 * d.rowBytes) 0
        (r.1.take d.rowBytes ++ List.replicate (d.rowBytes - r.1.length) 0)).1) s
    let sl := SMap.get (fun _ => {}) x.slots j
    let sl1 : RingSlot := { sl with valid := true, remaining := (s1.rdByte (storeKey c (d.rcBase + sl.band))).toNat }
    s1.putRbuf c b { x with cur := none, slots := SMap.put (fun _ => {}) x.slots j sl1 }

/-- RELEASE_STALL (R213, R231): a continuous release hold has lasted `cycles` core cycles. -/
def execReleaseStall (c : Fin 32) (b : Fin 8) (cycles : Nat) (s : State) : Out :=
  let d := s.rbufDesc c b
  let x := s.rbuf c b
  if x.held && !x.stalled && decide (d.holdBound * 256 < cycles) then
    let j := x.next % max 1 d.nbands
    .next ((s.putRbuf c b { x with stalled := true }).report 1 0x031 (s.bandUnit c b)
      [(5, b), (8, j), (16, (SMap.get (fun _ => {}) x.slots j).remaining)])
  else .next s

/-! ### Rescaling outside the tiles -/

/-- A frame's scale and zero point of a tensor (R163). -/
def State.bankFif (s : State) (p fif tensor : Nat) : Nat × Nat :=
  match ((s.pipe p).frame fif).bind (fun fr => fr.bank.find? (fun e => e.1 == tensor)) with
  | some e => (e.2.1.toNat, e.2.2)
  | none => let o := Config.oddScale fif tensor; (o.1.toNat, o.2.toNat)

/-- The scales of a descriptor for a frame. -/
def State.rescCtxFif (s : State) (p fif : Nat) (d : RescDesc) (b : Nat) : RescCtx :=
  let out := s.bankFif p fif d.outT
  let epi := s.bankFif p fif d.epiT
  { sIn := (s.bankFif p fif d.inT).1, sOut := if d.out = 1 then d.sFixed else out.1, zOut := out.2, r := 0, b := b,
    sB := epi.1, zB := epi.2 }

/-- Count and observe one output of a stage made outside the tiles (R142, R156, R175). -/
def State.noteOut (s : State) (p fif stage : Nat) (d : RescDesc) (e : RescEntry) (o : RescOut) (sat : Bool) (sOut : Nat) :
    State :=
  s.onFrame p fif (fun f =>
    let k := stage * 4096 + d.outT
    let c := SMap.get (fun _ => (0, 0, 0)) f.outs stage
    let f1 := if o.clamp then { f with clamps := SMap.put (fun _ => 0) f.clamps k (SMap.get (fun _ => 0) f.clamps k + 1) } else f
    let f2 := if sat then { f1 with outs := SMap.put (fun _ => (0, 0, 0)) f1.outs stage (c.1, c.2.1 + 1, c.2.2) } else f1
    match o.v with
    | some v => if d.out = 0 then f2.observe d.outT (observed v e d sOut) else f2
    | none => f2)

/-- Put rescaled outputs of `n` bytes each into a row of a layout; `cells` lists column, channel and output. -/
def rowOfCells (layout w c n : Nat) (cells : List (Nat × Nat × Nat)) : List Byte :=
  (List.range (rowPitch layout w c * n)).map (fun o =>
    match cells.find? (fun x => rowOffset layout w c x.1 x.2.1 == o / max 1 n) with
    | some x => BitVec.ofNat 8 (x.2.2 / 256 ^ (o % max 1 n))
    | none => 0#8)

/-! ### The depthwise path (R224, R225, R267, R268) -/

structure DwDesc where
  kh : Nat
  kw : Nat
  sh : Nat
  sw : Nat
  dh : Nat
  dw : Nat
  padT : Nat
  padL : Nat
  padB : Nat
  padR : Nat
  mode : Nat
  padMode : Nat
  padv : Nat
  engine : Nat
  outBuf : Nat
  wbase : Nat
  c : Nat
  wIn : Nat
  hIn : Nat
  valid : Bool
  deriving DecidableEq, Repr

/-- The depthwise descriptor of the active context slot (Table 9-13). -/
def State.dwDesc (s : State) (c : Nat) : DwDesc :=
  let w := fun i => s.getF (Reg.CC_DW_DESC c (s.ctx c) i)
  { kh := bits (w 0) 0 3 + 1, kw := bits (w 0) 3 3 + 1, sh := bits (w 0) 6 1 + 1, sw := bits (w 0) 7 1 + 1,
    dh := bits (w 0) 8 1 + 1, dw := bits (w 0) 9 1 + 1, padT := bits (w 0) 10 2, padL := bits (w 0) 12 2,
    padB := bits (w 0) 14 2, padR := bits (w 0) 16 2, mode := bits (w 0) 18 2, padMode := bits (w 0) 20 2,
    padv := bits (w 0) 22 8, engine := bits (w 0) 30 3, outBuf := bits (w 0) 33 3, wbase := bits (w 0) 36 22,
    c := bits (w 1) 0 16, wIn := bits (w 1) 16 16, hIn := bits (w 1) 32 16, valid := bit1 (w 1) 48 }

def DwDesc.wOut (d : DwDesc) : Nat := (d.wIn + d.padL + d.padR - ((d.kw - 1) * d.dw + 1)) / d.sw + 1
def DwDesc.hOut (d : DwDesc) : Nat := (d.hIn + d.padT + d.padB - ((d.kh - 1) * d.dh + 1)) / d.sh + 1

/-- The input row past the last one that output row `r` reads, and the first that it reads; under EDGE a row outside stands for
the nearest one inside (R206, R267). -/
def DwDesc.rowEnd (d : DwDesc) (r : Nat) : Nat :=
  let hi : Int := ((r * d.sh + (d.kh - 1) * d.dh : Nat) : Int) - d.padT
  (min (if d.padMode = 2 then max 0 hi else hi) ((d.hIn : Int) - 1) + 1).toNat
def DwDesc.rowLo (d : DwDesc) (r : Nat) : Nat :=
  let lo := (((r * d.sh : Nat) : Int) - d.padT).toNat
  if d.padMode = 2 then min lo (d.hIn - 1) else lo

/-- The input rows that output rows `r0` to `r1` read. -/
def DwDesc.rows (d : DwDesc) (r0 r1 : Nat) : List Nat :=
  (List.range (d.rowEnd r1)).filter (fun y => decide (d.rowLo r0 ≤ y))

/-- The input rows taken, and the rows no longer needed, once the output rows below `r` are made: both from row 0 on. -/
def DwDesc.taken (d : DwDesc) (r : Nat) : Nat := if r = 0 then 0 else d.rowEnd (r - 1)
def DwDesc.spent (d : DwDesc) (r : Nat) : Nat := if d.hOut ≤ r then d.hIn else d.rowLo r

/-- The bytes of a stream's source row, when it is there. -/
def State.sourceRow (s : State) (p c : Nat) (d : FstrDesc) (fif y : Nat) : Option (List Byte) :=
  let n := rowPitch d.layout d.wIn d.cTotal
  if d.src = 63 then
    match s.codedFor p c d with
    | some g =>
      let segs := (d.srcSegs g (d.rowSrc y)).map (fun i => (i, (s.readSegment p fif g i).2.1))
      some ((List.range n).map (fun o =>
        let k := d.hbmOff y o
        (((segs.find? (fun e => e.1 == k / (512 * g.width))).map (fun e => e.2)).getD []).getD (k % (512 * g.width)) 0))
    | none => some ((List.range n).map (fun o =>
        let a := d.hbmBase + d.hbmOff y o
        (s.unitPeek (a / 32 * 32)).1.getD (a % 32) 0))
  else (s.ringOff d.src d.buf fif y 0).map (fun o => s.rdBytes (storeKey d.src o) n)

/-- The windows' sum and count of in-range elements for one output of the depthwise path, centred on z_a and z_w. -/
def dwSum (d : DwDesc) (code : Nat → Nat → Int) (w : Nat → Int) (za : Int) (oy ox : Nat) : Int × Nat :=
  (List.range (d.kh * d.kw)).foldl (fun (acc : Int × Nat) (k : Nat) =>
    let y : Int := (oy * d.sh + k / d.kw * d.dh : Int) - d.padT
    let x : Int := (ox * d.sw + k % d.kw * d.dw : Int) - d.padL
    let inside := decide (0 ≤ y ∧ y < d.hIn ∧ 0 ≤ x ∧ x < d.wIn)
    let a : Int :=
      if inside then code y.toNat x.toNat
      else if d.padMode = 2 then
        code (clampI 0 ((d.hIn : Int) - 1) y).toNat (clampI 0 ((d.wIn : Int) - 1) x).toNat
      else if d.padMode = 1 then (d.padv : Int) else za
    (acc.1 + w k * (a - za), acc.2 + b2n inside)) (0, 0)

/-- COUNT_VALID (R224): the exact quotient, rounded once; a window with no in-range element has no stated result
(DESIGN CHOICE, log entry 17). -/
def avgValid (t : Int) (n : Nat) (e : RescEntry) (d : RescDesc) (c : RescCtx) : RescOut :=
  let q : Rat2 := if n = 0 then let o := Config.oddRatio 0 0; ⟨o.1, o.2 + 1⟩
    else ((Rat2.ofInt t).mul (frameRatio c.sIn c.sOut)).div (Rat2.ofInt n)
  let z : Int := if d.out = 0 then c.zOut else e.zp
  let lo : Int := if e.act = 0 then e.lo else z
  let hi : Int := if e.act = 0 then e.hi
    else if e.act = 2 then min 255 (z + (scaleQuot d.cap c.sOut).rne) else 255
  let x := toCode q z lo hi
  ⟨x.1, x.2, some q⟩

/-- Output row `oy` of the depthwise path from its source rows: the state with its counts, and the row's bytes. `g` is
the local stage slot of its rescale descriptor, `b` the epilogue code of a column and channel. Each channel is rescaled by
the entry of its own record (R268), in LAYER mode too (R165 lets one entry serve every channel there and does not say whose
record holds it: DESIGN CHOICE, log entry 110). -/
def State.dwRow (s : State) (p c fif stage g : Nat) (d : DwDesc) (f : FstrDesc) (layout : Nat) (oy : Nat)
    (b : Nat → Nat → Nat) : State × List Byte :=
  let rd := RescDesc.ofWords (s.getF (Reg.CC_RSC c (s.ctx c) g 0)) (s.getF (Reg.CC_RSC c (s.ctx c) g 1))
  let za : Int := ((s.bankFif p fif rd.inT).2 : Int)
  let src := (d.rows oy oy).map (fun y => (y, (s.sourceRow p c f fif y).getD []))
  let code := fun (k y x : Nat) =>
    match src.find? (fun r => r.1 == y) with
    | some r => ((fieldLe r.2 (rowOffset f.layout f.wIn f.cTotal x (f.cOff + k)) 1 : Nat) : Int)
    | none => za
  let r := (List.range (d.wOut * d.c)).foldl (fun (acc : State × List (Nat × Nat × Nat)) i =>
    let ox := i / max 1 d.c
    let k := i % max 1 d.c
    let rec' := s.rdBytes (storeKey c (d.wbase + 64 * k)) 64
    let e := RescEntry.ofWord (fieldLe rec' 56 8)
    let zw := sint 8 (fieldLe rec' 49 1)
    let w := fun j => if d.mode = 0 then sint 8 (fieldLe rec' j 1) - zw else 1
    let t := dwSum d (code k) w za oy ox
    let x := acc.1.rescCtxFif p fif rd (b ox k)
    let o := if d.mode = 2 then avgValid t.1 t.2 e rd x else rescale t.1 e rd x
    let s1 := acc.1.noteOut p fif stage rd e o false x.sOut
    let s2 := if o.clamp then s1.addF (Reg.CC_TALLY c 13) 1 else s1
    (s2, acc.2 ++ [(ox, k, o.q)])) (s, [])
  (r.1, rowOfCells layout d.wOut d.c rd.elemBytes r.2)

/-- The depthwise stage of a core in its section. -/
def State.dwStage (s : State) (p c : Nat) : Option StageRec :=
  (s.pipe p).stages.find? (fun g => g.kind == 1 && g.cores.contains c && g.sect == s.getF (Reg.CC_CTX_STAT_SECTION c))

/-- Meet what a request finds for a frame: a bad word makes it VOID with reason POISON (R65, R280; DEDUCED, log entry 109: the path
and the stem consume a word as a tile does). -/
def State.meetFor (s : State) (p fif : Nat) (ws : List Nat) : State :=
  let r := s.meetWords ws
  if r.2 then r.1.voidFrame p fif 3 else r.1

/-- The path takes the rows `from'` to `upto - 1` of a stream, each word and segment once: what they hold of bad words, or a
malformed segment, makes the frame VOID (R65, R289, R309). The path is no requester of R279, and a bad word of the core store is
reported for requester 0 (DESIGN CHOICE, log entry 87). -/
def State.takeRows (s : State) (p c fif : Nat) (f : FstrDesc) (from' upto : Nat) : State :=
  let rows := (List.range upto).filter (fun y => decide (from' ≤ y))
  let old := if from' = 0 then [] else f.rowSrc (from' - 1)
  if f.src = 63 then
    match s.codedFor p c f with
    | some g =>
      (((rows.flatMap (fun y => f.srcSegs g (f.rowSrc y))).eraseDups).filter (fun i => !(f.srcSegs g old).contains i)).foldl
        (fun s i =>
          let q := s.readSegment p fif g i
          match q.2.2 with | some n => q.1.voidFrame p fif n | none => q.1) s
    | none =>
      s.meetFor p fif (((rows.flatMap (fun y => f.srcWords (f.rowSrc y))).eraseDups).filter (fun a =>
        !(f.srcWords old).contains a))
  else
    rows.foldl (fun s y =>
      match s.ringOff f.src f.buf fif y 0 with
      | none => s
      | some o =>
        let r := s.storeMeet f.src o (rowPitch f.layout f.wIn f.cTotal) 0
        if r.2 then r.1.voidFrame p fif 3 else r.1) s

/-- Release the bands of a stream whose last needed row lies in rows `from'` to `upto - 1` (R171, R217). -/
def State.freeRows (s : State) (fif : Nat) (f : FstrDesc) (from' upto : Nat) : State :=
  if f.src = 63 then s
  else
    let br := max 1 (s.rbufDesc f.src f.buf).bandRows
    ((s.stripeBands f).filter (fun b =>
      decide (min ((b + 1) * br) f.hIn ≤ upto) && decide (from' < min ((b + 1) * br) f.hIn))).foldl
      (fun s b => s.releaseBand f.src f.buf fif b) s

/-- The number of a frame that stays its own (`Frame.id`). -/
def State.idOf (s : State) (p fif : Nat) : Nat := match (s.pipe p).frame fif with | some f => f.id | none => 0

/-- The depthwise path makes one band of its output (R213, R225): once the ring slot is free and the rows of its input, and of
the stream of its epilogue if it has one (R170, R171), are there, the band's rows are computed and written, and bands no longer needed are released (R171,
R217). -/
def State.dwBand (s : State) (p c b g : Nat) (epi : Option (Fin 8)) : State :=
  let d := s.dwDesc c
  let f := s.fstrDesc c d.engine
  let rb := s.rbufDesc c b
  match s.dwStage p c, s.nextBandFif p (s.rbuf c b) with
  | some st, some fif =>
    let band := (s.rbuf c b).band
    let r0 := band * rb.bandRows
    let n := rb.rowsOf band
    let epiRows := (List.range n).map (fun i => r0 + i)
    let epiThere := match epi with
      | none => true
      | some e => epiRows.all (fun y => (s.sourceRow p c (s.fstrDesc c e) fif y).isSome)
    let desc := RescDesc.ofWords (s.getF (Reg.CC_RSC c (s.ctx c) g 0)) 0
    if !d.valid || d.outBuf != b || !epiThere || (epi.isNone && desc.epi != 0) ||
        !((d.rows r0 (r0 + n - 1)).all (fun y => (s.sourceRow p c f fif y).isSome)) then s
    else
      let o := s.openBand p c b st.stage
      if !o.2 then o.1
      else
        let s1 := o.1.takeRows p c fif f (d.taken r0) (d.taken (r0 + n))
        let s2 := match epi with
          | none => s1
          | some e => s1.takeRows p c fif (s.fstrDesc c e) r0 (r0 + n)
        let epiCode := fun (oy ox k : Nat) => match epi with
          | none => 0
          | some e =>
            let h := s.fstrDesc c e
            fieldLe ((s2.sourceRow p c h fif oy).getD []) (rowOffset h.layout h.wIn h.cTotal ox (h.cOff + k)) 1
        let rows := (List.range n).foldl (fun (acc : State × List (List Byte)) i =>
          let r := acc.1.dwRow p c fif st.stage g d f rb.layout (r0 + i) (epiCode (r0 + i))
          (r.1, acc.2 ++ [r.2])) (s2, [])
        let s3 := (rows.1.fillBand c b rows.2).freeRows fif f (d.spent r0) (d.spent (r0 + n))
        match epi with
        | none => s3
        | some e => s3.freeRows fif (s.fstrDesc c e) r0 (r0 + n)
  | _, _ => s

/-- DEPTHWISE_FRAME: the depthwise path has written every band of a frame, so its sequencer has the stage's declared
outputs (R225). -/
def execDepthwiseFrame (c : Fin 32) (s : State) : Out :=
  match s.coreOwner c with
  | none => .next s
  | some p =>
    let d := s.dwDesc c
    let x := s.rbuf c d.outBuf
    match s.dwStage p c, x.fif with
    | some st, some fif =>
      let q := s.seqr st.seqCore st.seq
      let owes := match (s.pipe p).frame fif with | some f => !f.stagesDone.contains st.stage | none => false
      if d.valid && x.band == 0 && x.cur.isNone && owes && !q.frames.any (fun y => y.fif == fif) then
        .next (s.putSeqr st.seqCore st.seq { q with frames := q.frames ++ [{ fif := fif, got := st.outCount }] })
      else .next s
    | _, _ => .next s

end Machine
end Sys2Proof
end

