-- ==== Sys2Proof/Machine/Reset.lean ====
section
/-!
DEFINITION. What a power domain loses with its supply (spec/19 R483, Table 19-1, spec/22 R545): its registers return to
their reset values and everything it holds is lost.
-/

namespace Sys2Proof.Machine

/-- Drop the listed entries of a sparse map whose key satisfies a test. -/
abbrev dropKeys {α : Type} (p : Nat → Bool) (m : List (Nat × α)) : List (Nat × α) := SMap.drop p m

/-- MCm_CH_MAP: the committed map outlives the controller's own supply (R487, R294). -/
def keepsOff (off : Nat) : Bool := decide (0x3000000 ≤ off) && off % 0x100000 == 0x10

/-- The registers of a domain return to their reset values (R545). -/
def State.wipeRegs (s : State) (d : Nat) : State :=
  s.setRegs (dropKeys (fun off => regDomain off == some d && !keepsOff off) s.regs)

/-- Memory bytes and check states in [lo, hi) are lost. -/
def State.wipeMem (s : State) (lo hi : Nat) : State :=
  (s.setMem (dropKeys (fun a => decide (lo ≤ a ∧ a < hi)) s.mem)).setEcc
    (dropKeys (fun a => decide (lo ≤ a ∧ a < hi)) s.ecc)

/-- A wire ends within a core: on a tile link, or on a boundary link into it (R95, R101). -/
def onCoreWire (c k : Nat) : Bool := if k < 65536 then k / 2048 == c else (k - 65536) / 64 == c

/-- A compute core loses its state; the stores of its threads complete for nobody (R251). The launch port and the expected heartbeats stand outside the core. -/
def State.wipeCore (s0 : State) (c : Nat) : State :=
  let s := (List.range 16).foldl (fun s j => s.disownStores c j) s0
  let s1 := (s.wipeRegs c).wipeMem (storeKey c 0) (storeKey c 0x1000000)
  let s2 := (s1.setCarry (dropKeys (fun k => k / 32768 == c) s1.carry)).setTiles
    (dropKeys (fun k => k / 256 == c) s1.tiles)
  let s3 := (s2.setEdges (dropKeys (fun k => k / 128 == c) s2.edges)).setGws (dropKeys (fun k => k / 64 == c) s2.gws)
  let s4 := (s3.setSeqs (dropKeys (fun k => k / 8 == c) s3.seqs)).setThreads
    (dropKeys (fun k => k / 16 == c) s3.threads)
  let s5 := (s4.setVtCopy (dropKeys (fun k => k % 32 == c) s4.vtCopy)).setRbufs (dropKeys (fun k => k / 8 == c) s4.rbufs)
  let s6 := (s5.setFstr (dropKeys (fun k => k / 8 == c) s5.fstr)).setWires (dropKeys (fun k => onCoreWire c k) s5.wires)
  (s6.setSync { s6.sync with recvs := s6.sync.recvs.filter (fun w => w.2.1 != c),
                             sends := s6.sync.sends.filter (fun w => w.2.1 != c) }).onCore c
    (fun x => { x with owe := [] })

/-- The Solstice engine loses its state: weight memory, trace memory, banks and configuration. -/
def State.wipeSol (s : State) : State := ((s.wipeRegs 32).setSol { lost := s.sol.lost, miss := s.sol.miss }).setLearn {}

/-- A quadrant switch loses its tables and the words it holds. -/
def State.wipeQuad (s : State) (q : Nat) : State :=
  let s1 := (s.wipeRegs (39 + q)).setSpine (dropKeys (fun k => k / 128 / 4 / 40 == q) s.spine)
  (s1.setSpineBad (dropKeys (fun k => k / 128 / 4 / 40 == q) s1.spineBad)).setFlits
    (dropKeys (fun k => k / 128 / 40 == q) s1.flits)

/-- A memory controller and its stack lose their state; the committed map stays (R487). -/
def State.wipeMemCtl (s : State) (m : Nat) : State :=
  let s1 := (s.wipeRegs (43 + m)).wipeMem (hbmKey (16 * m) 0) (hbmKey (16 * m + 16) 0)
  let keyM := fun (k : Nat) => k == m
  let keyG := fun (k : Nat) => k / 16 == m
  s1.setHbm { s1.hbm with
    wcb := dropKeys keyM s1.hbm.wcb, wait := dropKeys keyM s1.hbm.wait, reqs := dropKeys keyG s1.hbm.reqs,
    injMask := dropKeys keyM s1.hbm.injMask, training := dropKeys keyG s1.hbm.training,
    byGo := dropKeys keyM s1.hbm.byGo, tgStart := dropKeys keyG s1.hbm.tgStart }

/-- Two Ethernet ports lose their state. -/
def State.wipePorts (s : State) (k : Nat) : State :=
  (s.wipeRegs (47 + k)).setEth (dropKeys (fun p => p / 2 == k) s.eth)

/-- The two links of a pair lose their state. -/
def State.wipeLinks (s : State) (k : Nat) : State :=
  (s.wipeRegs (50 + k)).setQsk { s.qsk with links := dropKeys (fun l => l / 2 == k) s.qsk.links }

/-- Ingest and the block codec lose their state. -/
def State.wipeIngest (s : State) : State :=
  ((((s.wipeRegs 54).setStreams []).setCodec []).setEp { s.ep with nextK := [] }).setEv {}

/-- A domain loses its supply, or its logic is switched off: all state is lost (R483). -/
def State.wipeDomain (s : State) (d : Nat) : State :=
  if d < 32 then s.wipeCore d
  else if d = 32 then s.wipeSol
  else if d < 37 then
    ((s.wipeRegs d).setAlm { s.alm with mtimecmp := dropKeys (fun k => k == d - 33) s.alm.mtimecmp }).setStw
      { s.stw with harts := s.stw.harts.filter (fun e => e.1 != d - 33) }
  else if d = 37 then (s.wipeRegs 37).wipeMem (hostKey 0) (hostKey 0x2000000)
  else if d = 38 then s.wipeRegs 38
  else if d < 43 then s.wipeQuad (d - 39)
  else if d < 47 then s.wipeMemCtl (d - 43)
  else if d < 50 then s.wipePorts (d - 47)
  else if d < 54 then s.wipeLinks (d - 50)
  else if d = 54 then s.wipeIngest
  else if d = 55 then (s.wipeRegs 55).setStw { s.stw with msix := [] }
  else s.wipeRegs d

end Sys2Proof.Machine
end

