-- ==== Sys2Proof/Machine/Power.lean ====
section
/-!
DEFINITION. Power domains, clocks, core voltage, schedule-aware wake and thermal limits (spec/19_power_and_clocks.md R482
to R499, spec/22 R557).
-/

namespace Sys2Proof.Machine

/-! ### Domains -/

/-- The spine quadrant that a domain attaches to (Table 4-5, R102); none for the domains that attach to none. -/
def attachedQuad (d : Nat) : Option Nat :=
  if d < 32 then some (d % 8 / 4 + 2 * (d / 16))
  else if d = 32 then some 0
  else if d < 38 then some 2
  else if d = 38 then some 3
  else if d < 43 then none
  else if d < 47 then some (d - 43)
  else if d < 50 then none
  else if d < 54 then some (d - 50)
  else if d = 54 then some 1
  else if d = 55 then some 2
  else some 3

/-- A state is listed for a domain in Table 19-1: 0 OFF, 1 RETAIN, 2 GATED, 3 ON. -/
def stateListed (d v : Nat) : Bool :=
  if v = 3 then true
  else if d ≤ 32 then true
  else if d ≤ 37 then v != 2
  else if d = 38 then v == 1
  else if d ≤ 42 then v == 0
  else if d ≤ 46 then v != 2
  else v == 0

/-- Fused off: a core outside MGT_CORE_MASK, or the controller of an unpopulated stack (R9). -/
def State.fused (s : State) (d : Nat) : Bool :=
  (decide (d < 32) && !bit1 (s.getF Reg.MGT_CORE_MASK) d) || ((d == 45 || d == 46) && s.getF Reg.MGT_REVID_GRADE == 2)

/-- A core, or the Solstice engine (32), is held by a pipeline that is not EMPTY (Table 19-2). -/
def State.heldByPipe (s : State) (d : Nat) : Bool :=
  [0, 1, 2, 3].any (fun n => s.resident n &&
    (if d < 32 then (s.coresOf n).contains d else d == 32 && (s.pipe n).usesSol))

/-- A requested state change of a domain is in progress (R484). -/
def State.transOf (s : State) (d : Nat) : Option Nat := SMap.get (fun _ => none) s.pwr.trans d
def State.setTrans (s : State) (d : Nat) (v : Option Nat) : State :=
  (s.setPwr { s.pwr with trans := SMap.put (fun _ => none) s.pwr.trans d v }).setF (Reg.PWR_DOM_STAT_TRANS d)
    (b2n (v.isSome || s.coreMove d != 0))

/-- The cause for which a request is refused, the first in the order of Table 19-2 (R485). Between an accepted SLEEP and the WFI that
ends its sequence the domains are in transition (DEDUCED, log entry 117). -/
def State.domRefusal (s : State) (d v : Nat) : Option Nat :=
  let attachedOn := (List.range 57).any (fun x => attachedQuad x == some (d - 39) && s.domHolds x)
  let quadOff := match attachedQuad d with
    | some q => !s.domOn (39 + q)
    | none => false
  if s.fused d then some 0
  else if !stateListed d v then some 3
  else if (v == 0 || v == 2) && s.heldByPipe d then some 4
  else if decide (39 ≤ d ∧ d ≤ 42) && v != 3 && s.domOn d && attachedOn then some 6
  else if v != 0 && s.dom d == 0 && quadOff then some 6
  else if (s.transOf d).isSome || s.pwr.dev != .active || s.pwr.sleeping then some 7
  else if decide (d < 32) && s.coreMove d != 0 && !(s.coreMove d == 1 && v == 3) then some 7
  else if d == 38 && v == 1 then some 8
  else none

/-- DONE of a completed state change; it interrupts the steward core (R484, Table 22-4). -/
def State.domDone (s : State) : State := (s.setF Reg.PWR_IRQ_STAT_DONE 1).irqSteward 1

/-- The largest divider that the throttle allows to be the least (R498): stage 1 caps at the floor, or at 400 MHz
without one; stage 2 at 400 MHz. -/
def capOf (stage floor : Nat) : Nat :=
  if stage = 0 then 0 else if stage = 1 ∧ floor ≠ 0 then min 448 (179200 / floor) else 448

/-- The clock fields of a core, or of the Solstice engine under number 32. -/
def clkN (d : Nat) : Fld := if d < 32 then Reg.PWR_CC_CLK_N d else Reg.PWR_SOL_CLK_N
def clkEff (d : Nat) : Fld := if d < 32 then Reg.PWR_CC_CLK_EFF d else Reg.PWR_SOL_CLK_EFF
def clkFmax (d : Nat) : Fld := if d < 32 then Reg.PWR_CC_FMAX d else Reg.PWR_SOL_FMAX
def clkFloor (d : Nat) : Fld := if d < 32 then Reg.PWR_CC_FLOOR d else Reg.PWR_SOL_FLOOR
def avsEn (d : Nat) : Fld := if d < 32 then Reg.PWR_CC_AVS_EN d else Reg.PWR_SOL_AVS_EN
def avsLow (d : Nat) : Fld := if d < 32 then Reg.PWR_CC_AVS_LOW d else Reg.PWR_SOL_AVS_LOW
def avsHigh (d : Nat) : Fld := if d < 32 then Reg.PWR_CC_AVS_HIGH d else Reg.PWR_SOL_AVS_HIGH
def avsCeil (d : Nat) : Fld := if d < 32 then Reg.PWR_CC_AVS_CEIL d else Reg.PWR_SOL_AVS_CEIL
def vSet (d : Nat) : Fld := if d < 32 then Reg.PWR_CC_VSET d else Reg.PWR_SOL_VSET
def vTarget (d : Nat) : Fld := if d < 32 then Reg.PWR_CC_VSET_TARGET d else Reg.PWR_SOL_VSET_TARGET
def vMinF (d : Nat) : Fld := if d < 32 then Reg.PWR_CC_VSET_VMIN d else Reg.PWR_SOL_VSET_VMIN

/-- A voltage within the LDO's range, 600 to 850 mV (R492). -/
def ldoRange (v : Nat) : Nat := min 850 (max 600 v)

/-- The fused minimum voltage of a domain at a divider (R492); at the reset divider it is the value that VMIN resets to (DESIGN CHOICE,
log entry 32). -/
def fusedMin (d n : Nat) : Nat := if n = 128 then 600 else ldoRange (Config.vMin d n)

/-- The LDO target of a domain that runs at a divider: the fused starting voltage under the loop, VSET without it; never below the
fused minimum of that divider (R490, R492). -/
def State.startVolt (s : State) (d n : Nat) : State :=
  s.setF (vTarget d) (max (fusedMin d n) (if s.flag (avsEn d) then ldoRange (Config.vStart d n) else s.getF (vSet d)))

/-- The divider switches (R490); VMIN is that of the new frequency, and the target of an LDO that regulates does not stay below it
(R492). -/
def State.switchDiv (s : State) (d n : Nat) : State :=
  let s1 := (s.setF (clkEff d) n).setF (vMinF d) (fusedMin d n)
  if 2 ≤ s1.dom d then s1.setF (vTarget d) (max (fusedMin d n) (s1.getF (vTarget d))) else s1

/-- The divider waiting for its LDO. -/
def State.setDivWait (s : State) (d : Nat) (v : Option Nat) : State :=
  s.setPwr { s.pwr with divWait := SMap.put (fun _ => none) s.pwr.divWait d v }

/-- Bring the divider in use to min(requested, cap) (R490, R498): a lower frequency at once, a higher one once the LDO has
settled at its starting voltage, or at once where the LDO does not regulate (OFF and RETAIN, R483). -/
def State.retune (s : State) (d : Nat) : State :=
  let n := max (s.getF (clkN d)) (capOf (s.getF Reg.PWR_THERM_STAT_STAGE) (s.getF (clkFloor d)))
  let e := s.getF (clkEff d)
  if n < e ∧ 2 ≤ s.dom d then (s.startVolt d n).setDivWait d (some n)
  else if n ≠ e then (s.setDivWait d none).switchDiv d n
  else s.setDivWait d none

/-- A core sends its heartbeat token for beat `k` of pipeline `n` (R84). -/
def State.sendToken (s : State) (c n k : Nat) : State :=
  (s.addF (Reg.CC_TALLY c 15) 1).emit (.heartbeat (hbToken 1 c n 3 k))

/-- The tokens a core owes. -/
def State.payTokens (s : State) (c : Nat) : State :=
  ((s.core c).owe.foldl (fun s o => s.sendToken c o.1 o.2) s).onCore c (fun x => { x with owe := [] })

/-- A core enters ON: its LDO regulates, the owed tokens are sent, words that came at its memory port meanwhile go to the threads that
wait for them, held accesses complete and passed waits end (R62, R84, R258, R352, R483). -/
def State.coreOn (s : State) (c : Nat) : State :=
  let s1 := ((s.setF (Reg.PWR_DOM_STAT_STATE c) 3).setCoreMove c 0).startVolt c (s.getF (clkEff c))
  ((((List.range 16).foldl (fun s _ => s.recvDeliver c 16) (s1.payTokens c)).releaseHeld c).expireCore c).settleDone

/-- The committed channels of a controller that returns to ON from Dormant are trained again, once (R5, R487, R583). Its first entry
to ON after Dormant is that return, whatever is committed by then. -/
def State.retrain (s : State) (m : Nat) : State :=
  let s0 := s.setPwr { s.pwr with slept := SMap.put (fun _ => false) s.pwr.slept m false }
  if SMap.get (fun _ => false) s.pwr.slept m && s.committed then
    let s1 := s0.setTraining ((chansOf m).filter (fun g => s.activeChans.contains g)) true
    s1.setHbm { s1.hbm with byGo := SMap.put (fun _ => false) s1.hbm.byGo m false }
  else s0

/-- The LDO of a domain that enters OFF is off; in GATED it keeps regulating, from its starting voltage when it did not
regulate before (R483). -/
def State.gateVolt (s : State) (d v was : Nat) : State :=
  if v = 0 then s.setF (vTarget d) 0 else if was = 3 then s else s.startVolt d (s.getF (clkEff d))

/-- A domain takes a state (R483): a divider that waits for an LDO which no longer regulates switches (R490); OFF and GATED lose
everything, RETAIN keeps what Table 19-1 lists. The management state of a core has changed, so its OFF_TRAFFIC report is armed again (R86). -/
def State.enter (s : State) (d v : Nat) : State :=
  let s0 := if d ≤ 32 then s.setPwr { s.pwr with offRaised := SMap.put (fun _ => false) s.pwr.offRaised d false } else s
  if v = 3 then
    if d < 32 then s0.coreOn d
    else if d = 32 then (s0.setF (Reg.PWR_DOM_STAT_STATE d) 3).startVolt 32 (s0.getF (clkEff 32))
    else if 43 ≤ d ∧ d ≤ 46 then (s0.setF (Reg.PWR_DOM_STAT_STATE d) 3).retrain (d - 43)
    else s0.setF (Reg.PWR_DOM_STAT_STATE d) 3
  else if v = 1 then
    let s1 := s0.setF (Reg.PWR_DOM_STAT_STATE d) 1
    if d ≤ 32 then (s1.retune d).setF (vTarget d) 600 else s1
  else
    let s1 := (s0.wipeDomain d).setF (Reg.PWR_DOM_STAT_STATE d) v
    if d < 32 then
      (((s1.setCoreMove d 0).failHeldAll d).retune d).gateVolt d v (s.dom d)
    else if d = 32 then (s1.retune 32).gateVolt 32 v (s.dom d)
    else s1

/-- A write of PWR_DOMnn_REQ (R484, R485). -/
def State.writeDomReq (d : Nat) (w : WriteReq) (s : State) : State :=
  match wField w (Reg.PWR_DOM_REQ_STATE d) with
  | none => s
  | some v =>
    match s.domRefusal d v with
    | some cause => s.powerRefuse d (Reg.PWR_DOM_REQ_STATE d).off (written w) cause
    | none =>
      let s1 := s.setF (Reg.PWR_DOM_REQ_STATE d) v
      if s1.dom d = v then
        (if d < 32 ∧ s1.coreMove d = 1 then s1.setCoreMove d 0 else s1).domDone
      else s1.setTrans d (some v)

/-- PWR_DOM_REQ. -/
def execPwrDomReq (d : Fin 57) (w : WriteReq) (s : State) : Out :=
  .next (s.gated w.agent w.half (Reg.PWR_DOM_REQ_STATE d).off (State.writeDomReq d w))

/-- A requested state change of a domain completes (R484). -/
def State.transitionDone (s : State) (d : Nat) : State :=
  match s.transOf d with
  | some v => ((s.setTrans d none).enter d v).domDone
  | none => s

/-! ### Idle entry and wakes (R495, R496) -/

/-- Nothing waits or runs in a core (R495). The depthwise path is idle between commands: DW_BAND runs a whole band. -/
def State.quiescent (s : State) (c : Nat) : Bool :=
  s.coreEmpty c && s.tiles.all (fun e => e.1 / 256 != c || e.2.firing.isNone) &&
  s.seqs.all (fun e => e.1 / 8 != c || (e.2.rel.isEmpty && e.2.frames.all (fun f => f.held.isEmpty))) &&
  !s.flag (Reg.CC_CTX_STAT_RELOAD c) &&
  (List.range 16).all (fun j => s.slotState c j != 1 && s.slotState c j != 2)

/-- IDLE_ENTRY: a core in ON that has been quiescent for DELAY, with IDLE.STATE at RETAIN, begins to enter RETAIN; with
`done`, an entry in progress completes, unless quiescence has ended, which cancels it. -/
def execIdleEntry (c : Fin 32) (done : Bool) (s : State) : Out :=
  if !s.domOn c then .next s
  else if done then
    if s.coreMove c = 1 then
      let s1 := s.setCoreMove c 0
      .next (if s.quiescent c then s1.enter c 1 else s1)
    else .next s
  else if s.coreMove c = 0 ∧ (s.transOf c).isNone ∧ s.flag (Reg.PWR_CC_IDLE_STATE c) ∧ s.quiescent c then
    .next ((s.elapse (s.getF (Reg.PWR_CC_IDLE_DELAY c))).setCoreMove c 1)
  else .next s

/-- The token that a core owes for a beat: its pipeline, when the beat admitted a frame (R84). -/
def State.tokenFor (s : State) (c k : Nat) : Option Nat :=
  ((s.core c).expects.find? (fun e => e.beat == k && !e.got)).map (fun e => e.pipe)

/-- The oldest wake launch of a core fires at the present instant (R43, R495): a core that is OFF or GATED does nothing;
one that is ON begins its ON period for the beat; a retained one begins its wake and owes its token. -/
def State.wakeLaunch (s : State) (c : Nat) : State :=
  match (s.core c).wakes with
  | [] => s
  | (_, work, k) :: rest =>
    let s1 := s.onCore c (fun x => { x with wakes := rest })
    let tok := s1.tokenFor c k
    if s1.domOn c then
      let s2 := s1.beginWake c 2
      match tok with
      | some n => s2.sendToken c n k
      | none => s2
    else if s1.dom c = 1 then
      let s2 := if s1.coreMove c = 0 then
          (s1.beginWake c 2).setPwr { (s1.beginWake c 2).pwr with
            workAt := SMap.put (fun _ => 0) s1.pwr.workAt c work }
        else s1
      match tok with
      | some n => s2.onCore c (fun x => { x with owe := x.owe ++ [(n, k)] })
      | none => s2
    else s1

/-- CORE_WAKE_LAUNCH: the Almanac reaches the oldest wake instant of a core and its launch port fires. -/
def execCoreWakeLaunch (c : Fin 32) (s : State) : Out :=
  match (s.core c).wakes with
  | [] => .next s
  | (wake, _) :: _ => if s.alm.crystal then .next s else .next ((s.reach wake).wakeLaunch c)

/-- CORE_WAKE_DONE: a waking core reaches ON, `ns` later. A core woken by its launch port that is late for its work
instant raises CORRECTED.0x607 with the lateness (R496). -/
def execCoreWakeDone (c : Fin 32) (ns : Nat) (s : State) : Out :=
  let kind := s.coreMove c
  if s.dom c = 1 ∧ (kind = 2 ∨ kind = 3) then
    let s1 := s.elapse ns
    let work := SMap.get (fun _ => 0) s1.pwr.workAt c
    let s2 := if kind = 2 ∧ work < s1.now then s1.report 0 0x607 (uDom c) [(48, s1.now - work)] else s1
    let s3 := s2.setPwr { s2.pwr with workAt := SMap.put (fun _ => 0) s2.pwr.workAt c 0 }
    .next (s3.enter c 3)
  else .next s

/-! ### Clocks (R489 to R491) -/

/-- A domain is in transition: a requested change, or a core's idle entry or wake (R484). -/
def State.moving (s : State) (d : Nat) : Bool := (s.transOf d).isSome || (decide (d < 32) && s.coreMove d != 0)

/-- The cause for which a divider is refused (R485, R489, R494). -/
def State.clkRefusal (s : State) (d n : Nat) : Option Nat :=
  if s.fused d then some 0
  else if 179200 < s.getF (clkFloor d) * n then some 1
  else if n < 112 ∨ 448 < n ∨ s.getF (clkFmax d) * n < 179200 ∨ (s.debugMode ∧ n < 224) then some 5
  else if s.moving d || s.pwr.dev != .active then some 7
  else none

/-- A write of PWR_CCnn_CLK or PWR_SOL_CLK. -/
def State.writeClk (d : Nat) (w : WriteReq) (s : State) : State :=
  match wField w (clkN d) with
  | none => s
  | some n =>
    match s.clkRefusal d n with
    | some cause => s.powerRefuse d (clkN d).off (written w) cause
    | none => (s.setF (clkN d) n).retune d

/-- PWR_CLK. -/
def execPwrClk (d : Fin 33) (w : WriteReq) (s : State) : Out :=
  .next (s.gated w.agent w.half (clkN d).off (State.writeClk d w))

/-- DIVIDER_SWITCH: the LDO has settled and the divider switches to the higher frequency (R490). -/
def execDividerSwitch (d : Fin 33) (s : State) : Out :=
  match SMap.get (fun _ => none) s.pwr.divWait d with
  | some n => .next ((s.setDivWait d none).switchDiv d n)
  | none => .next s

/-- QUADRANT_PLL_LOST: UNIT.0x605, then UNIT.0x021 with cause 3 for every enabled core of the quadrant that is ON or
RETAIN, and for quadrant 0 UNIT.0x033 with cause 2 (R491). -/
def execQuadrantPllLost (q : Fin 4) (s : State) : Out :=
  if s.flag (Reg.PWR_QPLL_CTL_LOCK q) then
    let s1 := (s.setF (Reg.PWR_QPLL_CTL_LOCK q) 0).report 3 0x605 (0x40000000 + q.val) []
    let s2 := ((List.range 32).filter (fun c => attachedQuad c == some q.val && !s1.fused c && s1.domHolds c)).foldl
      (fun s c => s.loseCore c 3) s1
    .next (if q.val = 0 then s2.loseSol 2 else s2)
  else .next s

/-- A write of PWR_QPLLq_CTL (R491): RELOCK is accepted only when no core of the quadrant belongs to a pipeline that is
not EMPTY. -/
def State.writeQpll (q : Nat) (w : WriteReq) (s : State) : State :=
  if wBit w (Reg.PWR_QPLL_CTL_RELOCK q) &&
      !(List.range 32).any (fun c => attachedQuad c == some q && s.heldByPipe c) then
    (s.setF (Reg.PWR_QPLL_CTL_LOCK q) 0).setPwr { s.pwr with relock := SMap.put (fun _ => false) s.pwr.relock q true }
  else s

/-- PWR_QPLL_RELOCK. -/
def execPwrQpllRelock (q : Fin 4) (w : WriteReq) (s : State) : Out :=
  .next (s.gated w.agent w.half (Reg.PWR_QPLL_CTL_RELOCK q).off (State.writeQpll q w))

/-- QPLL_LOCKED: a relocking PLL achieves lock, or stays unlocked after 100 µs (R491). -/
def execQpllLocked (q : Fin 4) (ok : Bool) (s : State) : Out :=
  if SMap.get (fun _ => false) s.pwr.relock q then
    .next ((s.setPwr { s.pwr with relock := SMap.put (fun _ => false) s.pwr.relock q false }).setF
      (Reg.PWR_QPLL_CTL_LOCK q) (b2n ok))
  else .next s

/-! ### Voltage (R492, R493) -/

/-- Iterations below LOW at 0.85 V. -/
def State.setCeil (s : State) (d n : Nat) : State :=
  s.setPwr { s.pwr with ceilCnt := SMap.put (fun _ => 0) s.pwr.ceilCnt d n }

/-- AVS_ITERATION: the loop of a domain reads the smallest margin in ps and steps its target (R492). -/
def execAvsIteration (d : Fin 33) (margin : Int) (s : State) : Out :=
  if !s.domOn d || !s.flag (avsEn d) then .next s
  else
    let t := s.getF (vTarget d)
    let low := decide (margin < (s.getF (avsLow d) : Int))
    if low then
      if t < 850 then .next ((s.setF (vTarget d) (min 850 (t + 5))).setCeil d 0)
      else
        let k := SMap.get (fun _ => 0) s.pwr.ceilCnt d + 1
        .next (if 64 ≤ k then (s.setF (avsCeil d) 1).setCeil d 64 else s.setCeil d k)
    else
      let s1 := s.setCeil d 0
      .next (if (s.getF (avsHigh d) : Int) < margin then s1.setF (vTarget d) (max (s.getF (vMinF d)) (t - 5)) else s1)

/-- The cause for which a setting of an AVS or VSET register is refused (R485, R492, R557). -/
def State.voltRefusal (s : State) (d : Nat) (bad : Bool) : Option Nat :=
  if s.fused d then some 0
  else if bad then some 5
  else if s.moving d || s.pwr.dev != .active then some 7
  else none

/-- A write of an AVS register: LOW from 25 to 200 ps, HIGH at least 20 ps above it. Setting EN leaves the target to the
loop; clearing it makes VSET the target, or VMIN where a divider change has put that above VSET. -/
def State.writeAvs (d : Nat) (w : WriteReq) (s : State) : State :=
  let off := (avsEn d).off
  let s1 := s.plainWrite off w
  let lo := s1.getF (avsLow d)
  let hi := s1.getF (avsHigh d)
  match s.voltRefusal d (decide (lo < 25) || decide (200 < lo) || decide (hi < lo + 20)) with
  | some cause => s.powerRefuse d off (written w) cause
  | none =>
    if !s1.flag (avsEn d) && decide (2 ≤ s1.dom d) then s1.setF (vTarget d) (max (s1.getF (vMinF d)) (s1.getF (vSet d)))
    else s1

/-- A write of a VSET register: within the LDO's range in steps of 5 mV and not below VMIN. -/
def State.writeVset (d : Nat) (w : WriteReq) (s : State) : State :=
  match wField w (vSet d) with
  | none => s
  | some v =>
    match s.voltRefusal d (decide (v < 600) || decide (850 < v) || v % 5 != 0 || decide (v < s.getF (vMinF d))) with
    | some cause => s.powerRefuse d (vSet d).off (written w) cause
    | none =>
      let s1 := s.setF (vSet d) v
      if !s1.flag (avsEn d) && decide (2 ≤ s1.dom d) then s1.setF (vTarget d) v else s1

/-- A write of PWR_CCnn_IDLE: LEAD up to 1,000,000 ns (R495, R557). -/
def State.writeIdle (c : Nat) (w : WriteReq) (s : State) : State :=
  let off := (Reg.PWR_CC_IDLE_STATE c).off
  let s1 := s.plainWrite off w
  match s.voltRefusal c (decide (1000000 < s1.getF (Reg.PWR_CC_IDLE_LEAD c))) with
  | some cause => s.powerRefuse c off (written w) cause
  | none => s1

/-- The clock of the host cores in use: the requested one, capped at 500 MHz while the device throttles (R498). -/
def State.retuneHost (s : State) : State :=
  s.setPwr { s.pwr with hostEff := if s.getF Reg.PWR_THERM_STAT_STAGE = 0 then s.getF Reg.PWR_HOST_CLK else 3 }

/-- A write of PWR_HOST_CLK: 1,000 and 2,000 MHz are refused in debug mode; the record names domain 33 (R489, R557). -/
def State.writeHostClk (w : WriteReq) (s : State) : State :=
  match wField w Reg.PWR_HOST_CLK with
  | none => s
  | some v =>
    match s.voltRefusal 33 (s.debugMode && decide (v < 2)) with
    | some cause => s.powerRefuse 33 Reg.PWR_HOST_CLK.off (written w) cause
    | none => (s.setF Reg.PWR_HOST_CLK v).retuneHost

/-- LDO_OUT_OF_REGULATION: the core is lost with cause 2, or the Solstice engine with cause 3 (R493). -/
def execLdoOutOfRegulation (d : Fin 33) (s : State) : Out :=
  if s.domOn d then .next (if d.val < 32 then s.loseCore d 2 else s.loseSol 3) else .next s

/-- PM_ALERT: the device reads the alerting address and the regulator's STATUS_WORD over PMBus and raises
DEGRADED.0x608 with both (R493). -/
def execPmAlert (addr : Fin 128) (status : Fin 65536) (s : State) : Out :=
  if s.pwr.dev = .active then
    .next ((s.emit (.pmbus addr)).report 1 0x608 uDevice [(16, addr), (16, status)])
  else .next s

/-! ### Device states (R486 to R488) -/

/-- Domains enter OFF in the order given. -/
def State.allOff (s : State) (ds : List Nat) : State :=
  ds.foldl (fun s d => ((if s.dom d = 0 then s else s.enter d 0)).setTrans d none) s

/-- The host-side domains in descending number. -/
def domsDown : List Nat := (List.range 57).reverse

/-- The domains that SLEEP moves to OFF first (R486 step 1). -/
def State.sleepFirst (s : State) : List Nat :=
  domsDown.filter (fun d => d != 38 && !(decide (39 ≤ d ∧ d ≤ 42)) &&
    !(s.flag Reg.PWR_DORMANT_CFG_HBM_KEEP && decide (43 ≤ d ∧ d ≤ 46)))

/-- A SLEEP request (R486): refused with cause 2 or 4, or its steps 1 to 3 are taken and the device waits for WFI. -/
def State.writeSleep (w : WriteReq) (s : State) : State :=
  if !wBit w Reg.PWR_DEV_CTL_SLEEP then s
  else
    let refuse := fun cause => s.powerRefuse 38 Reg.PWR_DEV_CTL_SLEEP.off (written w) cause
    if [0, 1, 2, 3].any (fun n => s.bmState n != 0) then refuse 2
    else if [0, 1, 2, 3].any (fun n => s.resident n) then refuse 4
    else if s.pwr.dev ≠ .active ∨ s.pwr.sleeping then refuse 7
    else
      let s1 := s.allOff s.sleepFirst
      let s2 := if s1.flag Reg.PWR_DORMANT_CFG_HBM_KEEP then
          [46, 45, 44, 43].foldl (fun s d => (if s.domOn d then s.enter d 1 else s).setTrans d none) s1
        else s1
      let s3 := s2.allOff [42, 41, 40, 39]
      s3.setPwr { s3.pwr with sleeping := true }

/-- PWR_SLEEP. -/
def execPwrSleep (w : WriteReq) (s : State) : Out :=
  .next (s.gated w.agent w.half Reg.PWR_DEV_CTL_SLEEP.off (State.writeSleep w))

/-- The device is Dormant: domain 38 in RETAIN, OSC_EN low, the Almanac on the crystal (R37, R486). -/
def State.goDormant (s : State) : State :=
  let s0 := (s.setF Reg.BGW_STAT_UP 0).setBgw { s.bgw with good := [], expect := [] }
  let s1 := s0.setF (Reg.PWR_DOM_STAT_STATE 38) 1
  (s1.setPwr { s1.pwr with dev := .dormant, oscEn := false, sleeping := false, refOk := false, almBack := false,
                           coolSince := none,
                           slept := [0, 1, 2, 3].foldl (fun l m => SMap.put (fun _ => false) l m true) s1.pwr.slept }).setAlm
    { s1.alm with crystal := true, aonFail := false }

/-- The PLLs of the quadrants lock, or are off. -/
def State.setLocks (s : State) (v : Nat) : State :=
  [0, 1, 2, 3].foldl (fun s q => s.setF (Reg.PWR_QPLL_CTL_LOCK q) v) s

/-- DORMANT_ENTRY: the steward core executes WFI after an accepted SLEEP (R486 steps 4 and 5). -/
def execDormantEntry (s : State) : Out :=
  if s.pwr.sleeping then .next ((s.setLocks 0).goDormant) else .next s

/-- Waking begins (R487): OSC_EN rises. -/
def State.startWaking (s : State) (src : Nat) : State :=
  (s.setF Reg.PWR_DEV_STAT_WAKE_SRC src).setPwr
    { s.pwr with dev := .waking, oscEn := true, refOk := false, almBack := false, fromDormant := true }

/-- DEVICE_WAKE_FIRE: in Dormant the armed device-wake port fires at the first crystal cycle that brings the Almanac to
or past its instant; a one-shot port clears EN (R37, R487). -/
def execDeviceWakeFire (s : State) : Out :=
  if s.pwr.dev = .dormant ∧ s.flag Reg.ALM_WAKE_CTL_EN then
    .next (((s.reach (s.getF Reg.ALM_WAKE_TIME)).setF Reg.ALM_WAKE_CTL_EN 0).startWaking 1)
  else if s.pwr.dev = .active ∧ s.flag Reg.ALM_WAKE_CTL_EN then
    .next ((s.reach (s.getF Reg.ALM_WAKE_TIME)).setF Reg.ALM_WAKE_CTL_EN 0)
  else .next s

/-- PW_WAKE_N held low for a number of crystal cycles: at least 2 of them in Dormant start Waking (R487). -/
def execPwWakeN (cycles : Nat) (s : State) : Out :=
  if s.pwr.dev = .dormant ∧ 2 ≤ cycles then .next ((s.crystals 2).startWaking 2) else .next s

/-- REFERENCE_CHECK: 3 ms after OSC_EN rises, the reference cycles of 8 crystal cycles are counted, and accepted within
±1,000 ppm of 24,414; otherwise DEVICE.0x606 with cause 0 and back to Dormant (R488). -/
def execReferenceCheck (count : Nat) (s : State) : Out :=
  if s.pwr.dev = .waking ∧ ¬ s.pwr.refOk then
    let s1 := s.elapse 3244140
    if 24414 * 999 ≤ count * 1000 ∧ count * 1000 ≤ 24414 * 1001 then .next (s1.setPwr { s1.pwr with refOk := true })
    else .next ((s1.report 4 0x606 uDevice [(4, 0)]).goDormant)
  else .next s

/-- Late general launches fire on entry to Active (R38). -/
def State.lateGenerals (s : State) : State := (List.range 16).foldl (fun s p => s.glCheck p) s

/-- The end of Waking: the PLLs lock, domain 38 is ON, kept memory controllers return, and the device is Active with
WAKE set (R487, Table 19-6). -/
def State.wakingComplete (s : State) : State :=
  if s.pwr.dev = .waking ∧ s.pwr.refOk ∧ s.pwr.almBack then
    let s1 := (s.setLocks 1).setF (Reg.PWR_DOM_STAT_STATE 38) 3
    let s2 := if s1.pwr.fromDormant && s1.flag Reg.PWR_DORMANT_CFG_HBM_KEEP then
        let s := [39, 40, 41, 42].foldl (fun s d => s.enter d 3) s1
        [43, 44, 45, 46].foldl (fun s d => if s.dom d = 1 then s.enter d 3 else s) s
      else s1
    let s3 := s2.setPwr { s2.pwr with dev := .active, fromDormant := false }
    ((s3.setF Reg.PWR_IRQ_STAT_WAKE 1).irqSteward 1).lateGenerals
  else s

/-- Frames in flight receive no records (R488, R499). -/
def State.dropFrames (s : State) : State :=
  [0, 1, 2, 3].foldl (fun s n => s.onPipe n (fun p => { p with frames := [] })) s

/-- REFERENCE_LOST: DEVICE.0x606 with cause 1, every fast clock stops, every domain but 38 goes OFF and the device is
Dormant (R488). -/
def execReferenceLost (s : State) : Out :=
  if s.pwr.dev = .active then
    let s1 := (s.report 4 0x606 uDevice [(4, 1)]).allOff (domsDown.filter (fun d => d != 38))
    .next (((s1.setLocks 0).dropFrames).goDormant)
  else .next s

/-! ### Thermal limits (R497 to R499) -/

/-- Sensors are read in Active, and in Waking from the acceptance of the reference (R497). -/
def State.thermalRuns (s : State) : Bool := s.pwr.dev == .active || (s.pwr.dev == .waking && s.pwr.refOk)

/-- Every core, the Solstice engine and the host cores take the present caps. -/
def State.retuneAll (s : State) : State := ((List.range 33).foldl (fun s d => s.retune d) s).retuneHost

/-- The thermal trip (R499): DEVICE.0x604, PW_TRIP_N low, every host-side domain OFF, OSC_EN low; pending records are
lost. -/
def State.trip (s : State) (sensor : Nat) (temp : Int) : State :=
  let s1 := s.report 4 0x604 uDevice [(16, sensor), (16, temp.toNat)]
  let s2 := (s1.allOff domsDown).dropFrames
  let s3 := (s2.setF (Reg.PWR_DOM_STAT_STATE 38) 0).setFlt { pend := [] }
  ((s3.setLocks 0).setPwr { s3.pwr with dev := .tripped, tripLow := true, oscEn := false, sleeping := false }).setAlm
    { s3.alm with crystal := true }

/-- The highest reading and its sensor, the first of equals. -/
def hottest (ts : List Int) : Nat × Int :=
  ts.zipIdx.foldl (fun (m : Nat × Int) x => if m.2 < x.1 then (x.2, x.1) else m) (0, ts.headD 0)

/-- Engage a stage: its caps and DEGRADED.0x602 (R498). -/
def State.throttle (s : State) (stage sensor : Nat) (temp : Int) : State :=
  ((s.setF Reg.PWR_THERM_STAT_STAGE stage).retuneAll).report 1 0x602 uDevice [(16, sensor), (16, temp.toNat)]

/-- THERMAL_SAMPLE: the 44 sensors are sampled, Tj is formed, and the trip and stage 1 follow (R497 to R499). -/
def execThermalSample (ts : List (BitVec 8)) (s : State) : Out :=
  if !s.thermalRuns then .next s
  else
    let v : List Int := (List.range 44).map (fun i => (ts.getD i 0#8).toInt)
    let h := hottest v
    let s1 := (List.range 44).foldl (fun s i => s.setI (Reg.PWR_TSENSE i) (v.getD i 0)) s
    let s2 := s1.setI Reg.PWR_THERM_STAT_TJ h.2
    let hot := (List.range 44).filter (fun i => decide (115 ≤ v.getD i 0))
    let again := hot.find? (fun i => s2.pwr.hot115.contains i)
    let s3 := s2.setPwr { s2.pwr with hot115 := hot }
    match again with
    | some i => .next (s3.trip i (v.getD i 0))
    | none =>
      let st := s3.getF Reg.PWR_THERM_STAT_STAGE
      if st = 0 then
        if 105 ≤ h.2 then
          let s4 := s3.setPwr { s3.pwr with stage1At := some s3.now, coolSince := none, maxTemp := h }
          .next (s4.throttle 1 h.1 h.2)
        else .next s3
      else
        let cool := if h.2 ≤ 100 then s3.pwr.coolSince.orElse (fun _ => some s3.now) else none
        .next (s3.setPwr { s3.pwr with
          coolSince := cool, maxTemp := if s3.pwr.maxTemp.2 < h.2 then h else s3.pwr.maxTemp })

/-- THROTTLE_STAGE2: 10 ms after stage 1 engaged, Tj still at or above 105 °C engages stage 2 (R498). -/
def execThrottleStage2 (s : State) : Out :=
  match s.pwr.stage1At with
  | none => .next s
  | some t =>
    if s.getF Reg.PWR_THERM_STAT_STAGE = 1 ∧ s.thermalRuns = true then
      let s1 := s.reach (t + 10000000)
      let s2 := s1.setPwr { s1.pwr with stage1At := none }
      let tj := s2.getI Reg.PWR_THERM_STAT_TJ
      let hot := hottest ((List.range 44).map (fun i => s2.getI (Reg.PWR_TSENSE i)))
      .next (if 105 ≤ tj then s2.throttle 2 hot.1 hot.2 else s2)
    else .next s

/-- THROTTLE_RELEASE: Tj has stayed at or below 100 °C for 10 ms: every cap is removed, with CORRECTED.0x603 (R498). -/
def execThrottleRelease (s : State) : Out :=
  match s.pwr.coolSince with
  | none => .next s
  | some t =>
    if s.getF Reg.PWR_THERM_STAT_STAGE = 0 ∨ s.thermalRuns = false then .next s
    else
      let s1 := s.reach (t + 10000000)
      let m := s1.pwr.maxTemp
      let s2 := s1.setPwr { s1.pwr with coolSince := none, stage1At := none, maxTemp := (0, 0) }
      .next (((s2.setF Reg.PWR_THERM_STAT_STAGE 0).retuneAll).report 0 0x603 uDevice [(16, m.1), (16, m.2.toNat)])

/-- OVERTEMP_COMPARATOR: an analogue comparator fires and the device trips, with the sensor's last reading (R499). -/
def execOvertempComparator (sensor : Fin 44) (s : State) : Out :=
  if s.thermalRuns then .next (s.trip sensor (s.getI (Reg.PWR_TSENSE sensor))) else .next s

end Sys2Proof.Machine
end

