-- ==== Sys2Proof/Machine/CoreUnit.lean ====
section
/-!
DEFINITION. What a core's controller and the data-path monitor do beside power: heartbeats (spec/03 R84 to R87), loss
(R88), tally counters (R91, spec/23 R574) and the guarded windows of a core's block (R566).
-/

namespace Sys2Proof.Machine

/-! ### Heartbeats -/

/-- MISS_LIMIT, 0 taken as 1 (Table 22-2). -/
def State.missLimit (s : State) : Nat := max 1 (s.getF Reg.MGT_HB_CFG_MISS_LIMIT)

/-- The miss count of a unit: a core, or the Solstice engine under number 32 (R85, R227). -/
def State.missOf (s : State) (u : Nat) : Nat := if u < 32 then s.getF (Reg.CC_HB_STAT_MISS u) else s.sol.miss
def State.setMiss (s : State) (u n : Nat) : State :=
  if u < 32 then s.setF (Reg.CC_HB_STAT_MISS u) n else s.setSol { s.sol with miss := n }

/-- A unit is lost already. -/
def State.unitLost (s : State) (u : Nat) : Bool := if u < 32 then bit1 (s.getF Reg.MGT_CORE_LOST) u else s.sol.lost

/-- A missing token (R85): one is counted while the management view holds the unit ON or RETAIN; at MISS_LIMIT, DEGRADED.0x022 with
direction ON_NO_TOKEN and the loss of the unit, once. -/
def State.missToken (s : State) (u : Nat) : State :=
  if !s.domHolds u || s.unitLost u then s
  else
    let n := min 15 (s.missOf u + 1)
    let s1 := s.setMiss u n
    if s1.missLimit ≤ n then
      let s2 := s1.report 1 0x022 (if u < 32 then uCore u else uSol) [(4, 0)]
      if u < 32 then s2.loseCore u 0 else s2.loseSol 0
    else s1

/-- The unit that a token names: KIND 1 a core, KIND 2 the Solstice engine. -/
def tokenUnit (t : W64) : Option Nat :=
  let n := t.toNat
  match bits n 56 8 with
  | 1 => if bits n 48 8 < 32 then some (bits n 48 8) else none
  | 2 => some 32
  | _ => none

/-- HEARTBEAT_TOKEN: a token reaches the monitor (R85). One in time resets the miss count; one after its deadline counts
as missing; one that no beat expects has no effect. A token of a unit that is held OFF or GATED is traffic of such a unit: it is
discarded (R86, R227). -/
def execHeartbeatToken (token : W64) (s : State) : Out :=
  match tokenUnit token with
  | none => .next s
  | some u =>
    if (s.offTraffic u).2 then .next (s.offTraffic u).1
    else
    match (s.core u).expects.find? (fun e => e.beat % 2 ^ 32 == bits token.toNat 0 32 && e.pipe == bits token.toNat 46 2) with
    | none => .next s
    | some e =>
      let s1 := s.onCore u (fun x => { x with expects := x.expects.erase e })
      .next (if s1.now ≤ e.due then s1.setMiss u 0 else s1.missToken u)

/-- HEARTBEAT_DEADLINE: the oldest token expected of a unit has not come by its wake instant plus 10 µs (R85). -/
def execHeartbeatDeadline (u : Fin 33) (s : State) : Out :=
  match (s.core u).expects with
  | [] => .next s
  | e :: rest =>
    let s1 := s.reach e.due
    .next ((s1.onCore u (fun x => { x with expects := rest })).missToken u)

/-- A write of MGT_HB_CFG: MISS_LIMIT, and REARM re-arms the OFF_TRAFFIC reports (R86). -/
def State.writeHbCfg (w : WriteReq) (s : State) : State :=
  let s1 := s.plainWrite Reg.MGT_HB_CFG_REARM.off w
  if wBit w Reg.MGT_HB_CFG_REARM then s1.setPwr { s1.pwr with offRaised := [] } else s1

/-- MGT_HB_REARM. -/
def execMgtHbRearm (w : WriteReq) (s : State) : Out :=
  .next (s.gated w.agent w.half Reg.MGT_HB_CFG_REARM.off (State.writeHbCfg w))

/-- CORE_LOST: a core's controller reports a fatal error, of its context storage (cause 1) or internal (cause 4) (R88). -/
def execCoreLost (c : Fin 32) (storage : Bool) (s : State) : Out :=
  if s.domHolds c then .next (s.loseCore c (if storage then 1 else 4)) else .next s

/-! ### Tally counters -/

/-- Set all counters to 0. -/
def State.tallyClear (s : State) (c : Nat) : State := (List.range 16).foldl (fun s i => s.setF (Reg.CC_TALLY c i) 0) s

/-- A write of CCnn_TALLY_CTL (R91, R574): the stage filter, a snapshot, then a clear. -/
def State.writeTallyCtl (c : Nat) (w : WriteReq) (s : State) : State :=
  let s1 := s.plainWrite (Reg.CC_TALLY_CTL_SNAP c).off w
  let act := s1.regActs (Reg.CC_TALLY_CTL_SNAP c).off
  let s2 := if act && wBit w (Reg.CC_TALLY_CTL_SNAP c) then s1.tallySnap c else s1
  if act && wBit w (Reg.CC_TALLY_CTL_CLEAR c) then s2.tallyClear c else s2

/-- TALLY_SNAP: a write of CCnn_TALLY_CTL with SNAP. -/
def execTallySnap (c : Fin 32) (w : WriteReq) (s : State) : Out :=
  .next (s.gated w.agent w.half (Reg.CC_TALLY_CTL_SNAP c).off (State.writeTallyCtl c w))

/-- TALLY_CLEAR: a write of CCnn_TALLY_CTL with CLEAR. -/
def execTallyClear (c : Fin 32) (w : WriteReq) (s : State) : Out :=
  .next (s.gated w.agent w.half (Reg.CC_TALLY_CTL_SNAP c).off (State.writeTallyCtl c w))

/-! ### Guarded windows (R566) -/

/-- A core belongs to a pipeline that is LOADING, LOADED or FAILED. -/
def State.corePlaced (s : State) (c : Nat) : Bool :=
  [0, 1, 2, 3].any (fun n => s.resident n && (s.coresOf n).contains c)

/-- An offset of a core's block lies in its instruction memory (Table 23-1). -/
def inImem (o : Nat) : Bool := decide (0xC0000 ≤ o ∧ o < 0xC8000)

/-- A write to a tile context, gateway table, descriptor page or the instruction memory of a core, by an agent other than
the loader (R566); reserved bits stay 0 (R17). -/
def State.writeWindow (c o : Nat) (w : WriteReq) (s : State) : State :=
  let ok := if inImem o then (List.range 16).all (fun j => s.slotState c j != 1) else !s.corePlaced c
  if ok then s.plainWrite (0x1000000 + 0x100000 * c + o / 8 * 8)
      { w with value := w.value &&& ~~~(BitVec.ofNat 64 (winReserved (o / 8 * 8))) } else s.addSat (Reg.CC_WDENY_COUNT c) 1

/-- CONTEXT_WINDOW_WRITE. -/
def execContextWindowWrite (c : Fin 32) (o : Fin 0xE0000) (w : WriteReq) (s : State) : Out :=
  .next (s.gated w.agent w.half (0x1000000 + 0x100000 * c.val + o.val / 8 * 8) (State.writeWindow c o w))

/-- CC_WDENY_READ: a read of CCnn_WDENY returns the count and clears it. -/
def execCcWdenyRead (c : Fin 32) (r : ReadReq) (s : State) : Out :=
  if s.domHolds c then
    let x := s.readRc r.half (Reg.CC_WDENY_COUNT c)
    .next (x.1.answer .ok x.2)
  else .next (s.answer .ok 0#64)

end Sys2Proof.Machine
end

