-- ==== Sys2Proof/Machine/Launch.lean ====
section
/-!
DEFINITION. Time steps: ALM_STEP and what it does to every launch (spec/02_almanac_and_beats.md R34, R36, R56, R57, spec/22
R554).
-/

namespace Sys2Proof.Machine

/-- Add a number of late launches to a count beside the state. -/
abbrev Late := State × Nat

/-- Core wakes whose instants have passed fire at once (R56). -/
def lateWakes (s : State) (c : Nat) : Late :=
  let n := ((s.core c).wakes.filter (fun w => decide (w.1 ≤ s.now))).length
  ((List.range n).foldl (fun s _ => s.wakeLaunch c) s, n)

/-- A beat machine whose next grid instant has passed launches that beat at once, subject to R48: not before its scheduled
instant, which a Retally hold or R52 may have put later, and not before its entry is ready; a beat so held is late, and launches with
BEAT_LAUNCH. It then follows R52; its grid does not move (R56). Whether the first stage accepts a frame at this instant is a free value
(DESIGN CHOICE, log entry 101). -/
def lateBeat (s : State) (n : Nat) : Late :=
  let st := s.bmState n
  if (st = 1 ∨ st = 2 ∨ st = 3) ∧ (s.beat n).gNext ≤ s.now ∧ (s.beat n).nNext ≤ s.now then
    let s1 := (s.onBeat n (fun b => { b with late := true })).freeNext
    if s1.entryReady n && !s1.scanYields n && s.freeVal.toNat % 2 == 1 then (s1.launchBeat n (s.launchAt (s.beat n).nNext), 1)
    else (s1.reportScaleWait n, 0)
  else (s, 0)

/-- The slot-frame port of an UP link fires for each of its instants passed; it sends nothing (R56, R404). -/
def lateFrames (was : Nat) (s : State) (l : Nat) : Late :=
  let t := (s.qlink l).sfPending was
  if s.linkUp l ∧ t ≤ s.now then
    ((s.setLate Reg.ALM_LATE_SFRAME l).onLink l (fun x => { x with sfNext := some (s.now / 128 * 128 + 128) }),
      (s.now - t) / 128 + 1)
  else (s, 0)

/-- The exposures of an endpoint whose instants have passed, in instant order (R56). -/
def lateExpose : Nat → State → Nat → Late
  | 0, s, _ => (s, 0)
  | fuel + 1, s, i =>
    match s.nextExpose i with
    | some (_, m, k, target) =>
      if s.launchOf i target ≤ s.now then
        let r := lateExpose fuel (s.exposeNow i m k target true) i
        (r.1.setLate Reg.ALM_LATE_EXPOSE 0, r.2 + 1)
      else (s, 0)
    | none => (s, 0)

/-- The strobes of an endpoint whose instants have passed, in instant order (R56). -/
def lateStrobe : Nat → State → Nat → Late
  | 0, s, _ => (s, 0)
  | fuel + 1, s, i =>
    match s.nextStrobe i with
    | some (_, m, k, target) =>
      if s.launchOf i target ≤ s.now then
        let r := lateStrobe fuel (s.strobeNow i m k target true) i
        (r.1.setLate Reg.ALM_LATE_EXPOSE 0, r.2 + 1)
      else (s, 0)
    | none => (s, 0)

/-- A general port fires once for each of its instants that have passed (R56). -/
def lateGeneral : Nat → State → Nat → Late
  | 0, s, _ => (s, 0)
  | fuel + 1, s, p =>
    if s.flag (Reg.ALM_GL_CTL_EN p) && decide (s.getF (Reg.ALM_GL_TIME p) ≤ s.now) then
      let r := lateGeneral fuel ((s.glFire p).setLate Reg.ALM_LATE_GENERAL p) p
      (r.1, r.2 + 1)
    else (s, 0)

/-- The device-wake port, a one-shot port (R56, Table 22-3). -/
def lateWakePort (s : State) : Late :=
  if s.flag Reg.ALM_WAKE_CTL_EN && decide (s.getF Reg.ALM_WAKE_TIME ≤ s.now) then
    ((s.setF Reg.ALM_WAKE_CTL_EN 0).setF Reg.ALM_LATE_WAKE 1, 1)
  else (s, 0)

/-- Run one kind of launch over its ports, adding up. -/
def lateAll (f : State → Nat → Late) (ports : List Nat) (a : Late) : Late :=
  ports.foldl (fun (a : Late) (i : Nat) => ((f a.1 i).1, a.2 + (f a.1 i).2)) a

/-- Machine timer compares that have been reached (R504). -/
def State.timerCompares (s : State) : State :=
  s.alm.mtimecmp.foldl (fun s e =>
    match e.2 with
    | some t => if t ≤ s.now then s.setIrq { s.irq with mtip := SMap.put (fun _ => false) s.irq.mtip e.1 true } else s
    | none => s) s

/-- After a forward step of `d` ns from `was`: every launch whose instant now lies in the past (R56). Launches at different
units take effect together (R41), so the exposures of a beat and the strobes that go with them stand before the beat itself
moves the grid on; at one lane port every EXPOSE goes before the STROBEs. Those of one endpoint go in the order of their instants,
and those of different endpoints in the order of their indices (DESIGN CHOICE, log entry 106). Answers their number. -/
def State.stepForward (s : State) (was d : Nat) : Late :=
  let a1 := lateAll lateWakes (List.range 32) (s, 0)
  let a2 := lateAll (lateExpose (d / 50000 + 2)) (List.range 1024) a1
  let a3 := lateAll (lateStrobe (d / 50000 + 2)) (List.range 1024) a2
  let a4 := lateAll (lateFrames was) (List.range 8) (lateAll lateBeat [0, 1, 2, 3] a3)
  let a5 := lateAll (lateGeneral (d + 1)) (List.range 16) a4
  let w := lateWakePort a5.1
  ((w.1.expireAll).timerCompares, a5.2 + w.2)

/-- After a backward step of `d` ns from `was`: the pending instants of periodic general ports, of the slot-frame ports and of
the beat machines move earlier, and each machine's next grid instant becomes its G (R57). A pending core wake keeps its
instant: it is taken as a one-shot, of which the port holds one for each launched beat (DESIGN CHOICE, log entry 101). -/
def State.stepBack (s : State) (was d : Nat) : State :=
  let s0 := (List.range 8).foldl (fun s l =>
    if s.linkUp l then s.onLink l (fun x => { x with sfNext := some (x.sfPending was - d) }) else s) s
  let s1 := (List.range 16).foldl (fun s p =>
    if s.flag (Reg.ALM_GL_CTL_EN p) && s.getF (Reg.ALM_GL_PERIOD p) != 0 then
      s.setF (Reg.ALM_GL_TIME p) (s.getF (Reg.ALM_GL_TIME p) - d) else s)
    (s0.setEp { s0.ep with commitAt := (s0.ep.commitAt.map (fun e => (e.1, e.2 - d))).filter (fun e => e.2 != 0) })
  [0, 1, 2, 3].foldl (fun s n =>
    if s.bmState n = 0 then s
    else
      let b := s.beat n
      let s2 := s.putBeat n { b with gNext := b.gNext - d, nNext := b.nNext - d, armedAt := b.armedAt - d, rebase := false }
      (s2.setF (Reg.ALM_BM_ORIGIN n) (b.gNext - d)).setF (Reg.ALM_BM_INDEX n) 0) s1

/-- Apply a step of a signed number of 2^-16 ns at the next tick (R34, R36, R554), with CORRECTED.0xA01. Its step size is in
whole ns, the fraction rounded towards minus infinity (DESIGN CHOICE, log entry 101). The measuring window is discarded, and
the new one starts at the first crystal edge after the step: an instant within one period of it that only the crystal fixes,
a free value (DESIGN CHOICE, log entries 2 and 101). -/
def State.stepTime (s : State) (x : Int) : State :=
  let s1 := if s.alm.crystal then s else s.ticks 1
  let was := s1.now
  let stepped := ((s1.alm.alm : Int) + x * (unitFrac : Int)).toNat
  let s2 := (s1.setAlm { s1.alm with
    alm := stepped, winBad := true,
    winStart := stepped / unitFrac + 1 + s1.freeVal.toNat % max 1 (s1.getF Reg.ALM_AON_PERIOD) }).freeNext
  let ns := x / 65536
  let r : Late := if 0 ≤ x then s2.stepForward was (s2.now - was) else (s2.stepBack was (was - s2.now), 0)
  let err : Int := (x % (128 * 65536) + 64 * 65536) % (128 * 65536) / 65536 - 64
  let s3 := if x % (128 * 65536) = 0 then r.1 else r.1.loseLock err
  s3.raise { cls := 0, code := 0xA01, unit := uBeat 7, time := s2.now,
             detail := packDetail [(48, uint 48 (satI 48 ns)), (16, r.2)] }

/-- A write of ALM_STEP (R554): the low half is staged; a write that covers the high half steps with the staged low half, which the next
TIME frame tells (Table 16-8). -/
def State.writeStep (w : WriteReq) (s : State) : State :=
  let s1 := if coversLo w.half then s.setAlm { s.alm with stepLow := w.value.toNat % 2 ^ 32 } else s
  if coversHi w.half then
    let s2 := s1.stepTime (sint 64 (w.value.toNat / 2 ^ 32 * 2 ^ 32 + s1.alm.stepLow))
    s2.setBgw { s2.bgw with stepped := true }
  else s1

/-- ALM_STEP. -/
def execAlmStep (w : WriteReq) (s : State) : Out :=
  .next (s.gated w.agent w.half Reg.ALM_STEP_FRAC.off (State.writeStep w))

/-- MTIMECMP_COMPARE: the Almanac reaches the mtimecmp `t` of a hart, which the hart has written, and its machine timer
interrupt is raised (R504). -/
def execMtimecmpCompare (h : Fin 4) (t : Nat) (s : State) : Out :=
  if s.alm.crystal || !s.domOn (33 + h) then .next s
  else
    let s1 := s.setAlm { s.alm with mtimecmp := SMap.put (fun _ => none) s.alm.mtimecmp h (some t) }
    .next ((s1.reach t).timerCompares)

end Sys2Proof.Machine
end

