-- ==== Sys2Proof/Machine/Solstice.lean ====
section
/-!
DEFINITION. The Solstice engine's stem and tail (spec/08_windows_and_solstice.md R227 to R235): the scan, the stem's bands,
the tail's outputs, weight-memory errors and the engine's loss; and BAND_WRITE_START (R213).
-/

namespace Sys2Proof

def ConvConf.wOut (k : ConvConf) : Nat := (k.inW + k.padL + k.padR - k.kw) / k.sw + 1

def ConvConf.hOut (k : ConvConf) : Nat := (k.inH + k.padT + k.padB - k.kh) / k.sh + 1

def ConvConf.n (k : ConvConf) : Nat := k.kh * k.kw * k.inC


/-- The rescale entry of an output channel: its own, or the one of LAYER mode. -/
def ConvConf.entry (k : ConvConf) (oc : Nat) : RescEntry :=
  RescEntry.ofWord (k.entries.getD (if k.desc.layer then 0 else oc) 0#64).toNat

/-- Normalisation of an element (R228). -/
def SolConf.norm (k : SolConf) (ch v : Nat) : Nat :=
  Fmt.fp32.mul (Fmt.fp32.sub (Fmt.fp32.ofInt (v : Int)) (k.mean.getD ch 0#32).toNat) (k.istd.getD ch 0#32).toNat

/-- The words of a tail input. -/
def ConvConf.inWords (k : ConvConf) : Nat := ceilDiv (rowPitch k.inLayout k.inW k.inC) 8 * k.inH

/-- Bytes per output element in the output area: 4 for WIDE and 8 for RAW, T in its low half and SAT in bit 32 (DESIGN CHOICE, log
entry 110). -/
def ConvConf.elemBytes (k : ConvConf) : Nat := k.desc.elemBytes

/-- The input rows that the MAC unit has read once the output rows below `r` are made. -/
def ConvConf.taken (k : ConvConf) (r : Nat) : Nat :=
  if r = 0 then 0 else (min ((((r - 1) * k.sh + k.kh : Nat) : Int) - k.padT) (k.inH : Int)).toNat

namespace Machine

/-! ### Convolutions (R206, R161, R167 to R170) -/

/-- A weight of the Solstice memory: channel `oc`, reduction element `e`. -/
def State.solWeight (s : State) (base : Nat) (k : ConvConf) (oc e : Nat) : Int :=
  sint 8 (SMap.get (fun _ => 0#8) s.sol.wmem (base + k.wOff + oc * k.n + e)).toNat

/-- The corrected total of one output: Σ(w − z_w)(a − z_a) over the window; padded elements stand for z_a (R207). `code`
gives the centred code of a row, column and channel. -/
def State.convTotal (s : State) (base : Nat) (k : ConvConf) (code : Nat → Nat → Nat → Int) (oy ox oc : Nat) : Int :=
  (List.range k.n).foldl (fun (acc : Int) (e : Nat) =>
    let ch := e % max 1 k.inC
    let j := e / max 1 k.inC
    let y : Int := ((oy * k.sh + j / max 1 k.kw : Nat) : Int) - k.padT
    let x : Int := ((ox * k.sw + j % max 1 k.kw : Nat) : Int) - k.padL
    if 0 ≤ y ∧ y < k.inH ∧ 0 ≤ x ∧ x < k.inW then
      acc + (s.solWeight base k oc e - k.zw.getD oc 0) * code y.toNat x.toNat ch
    else acc) 0

/-- One output of a Solstice path: its total saturated to int32, rescaled, counted and observed (R233). The epilogue code that an
EPI other than NONE combines it with (R170) is open (DESIGN CHOICE, log entry 110). -/
def State.convOut (s : State) (p fif stage base : Nat) (k : ConvConf) (code : Nat → Nat → Nat → Int) (oy ox oc : Nat) :
    State × RescOut × Bool :=
  let x := s.convTotal base k code oy ox oc
  let t := clampI (-2147483648) 2147483647 x
  let c := s.rescCtxFif p fif k.desc
    (Config.epiCode p k.desc.epiT (s.idOf p fif) ((oy * k.wOut + ox) * k.outC + oc)).toNat
  let o := rescale t (k.entry oc) k.desc c
  (s.noteOut p fif stage k.desc (k.entry oc) o (x != t) c.sOut, o, x != t)

/-! ### The stem -/

/-- The stage of a pipeline of a kind: 3 STEM, 4 TAIL. -/
def Pipe.stageOf (p : Pipe) (kind : Nat) : Nat := ((p.stages.find? (fun g => g.kind == kind)).map (fun g => g.stage)).getD 0

/-- The byte address of an input element in the stream's slot (R386, Table 8-8). -/
def State.inputAddr (s : State) (p : Nat) (f : Frame) (y x ch : Nat) : Nat :=
  let io := (s.pipe p).io
  let w := if io.u16 then 2 else 1
  let i := if io.layout = 0 then (y * io.w + x) * io.chans + ch else (ch * io.h + y) * io.w + x
  s.getF (Reg.ING_STR_IBUF_BASE f.stream) + f.slot * s.getF (Reg.ING_STR_IBUF_STRIDE f.stream) + i * w

/-- An input element. -/
def State.inputElem (s : State) (p : Nat) (f : Frame) (y x ch : Nat) : Nat :=
  let a := s.inputAddr p f y x ch
  let w := if (s.pipe p).io.u16 then 2 else 1
  fieldLe (s.unitPeek (a / 32 * 32)).1 (a % 32) w

/-- Every normalised element of a frame's input. -/
def State.stemInputs (s : State) (p : Nat) (f : Frame) : List Nat :=
  let io := (s.pipe p).io
  (List.range (io.h * io.w * io.chans)).map (fun i =>
    let ch := i % max 1 io.chans
    let j := i / max 1 io.chans
    (s.pipe p).sol.norm ch (s.inputElem p f (j / max 1 io.w) (j % max 1 io.w) ch))

/-- The words of some rows of a frame's input. -/
def State.inputWords (s : State) (p : Nat) (f : Frame) (ys : List Nat) : List Nat :=
  let io := (s.pipe p).io
  (ys.flatMap (fun y => (List.range (io.w * io.chans)).map (fun i =>
    s.inputAddr p f y (i / max 1 io.chans) (i % max 1 io.chans) / 32 * 32))).eraseDups

/-- The scan unit reads the words of a frame's input slot; one that is bad makes the frame VOID, used as read (R229). -/
def State.readInput (s : State) (p : Nat) (f : Frame) : State :=
  s.meetFor p f.fif (s.inputWords p f (List.range (s.pipe p).io.h))

/-- The MAC unit reads input rows a second time, for the output rows `r0` to `r1 - 1` of a frame (R229). -/
def State.rereadInput (s : State) (p : Nat) (f : Frame) (r0 r1 : Nat) : State :=
  let k := (s.pipe p).sol.stem
  let old := s.inputWords p f (if k.taken r0 = 0 then [] else [k.taken r0 - 1])
  s.meetFor p f.fif ((s.inputWords p f ((List.range (k.taken r1)).filter (fun y => decide (k.taken r0 ≤ y)))).filter
    (fun a => !old.contains a))

/-- STEM_SCAN_DONE (R229, R157 to R159): the scan of the frame in the scan unit ends, and the scale of its input tensor
is placed in the frame's bank. -/
def execStemScanDone (s : State) : Out :=
  match s.sol.scan with
  | none => .next s
  | some (p, fif) =>
    match (s.pipe p).frame fif with
    | none => .next (s.setSol { s.sol with scan := none })
    | some f =>
      if s.sol.lost || !s.domOn 32 then .next s
      else
        let tensor := (s.pipe p).sol.stem.desc.inT
        let s1 := s.readInput p f
        let r := (s.stemInputs p f).foldl rangeTake (0, 0)
        let s3 := s1.passScale p fif tensor r
        .next (s3.setSol { s3.sol with scan := none, mac := s3.sol.mac ++ [(p, fif)] })

/-- The centred code of an input element after the quantiser (R160, R229). -/
def State.stemCode (s : State) (p : Nat) (f : Frame) (y x ch : Nat) : Int :=
  let k := (s.pipe p).sol
  let b := s.bankFif p f.fif k.stem.desc.inT
  ((quantise (k.norm ch (s.inputElem p f y x ch)) b.1 b.2).1 : Int) - b.2

/-- The Solstice range of a pipeline: its first byte. -/
def Pipe.solBase (p : Pipe) : Nat := p.solRange.1

/-- The stem makes one band of its output row buffer (R213, R231), for the frame whose MAC pass is first. -/
def State.stemBand (s : State) (p c b : Nat) : State :=
  let k := (s.pipe p).sol.stem
  match s.sol.mac with
  | [] => s
  | (p', fif) :: _ =>
    match (s.pipe p).frame fif with
    | none => s
    | some f =>
      let x := s.rbuf c b
      if p' != p || s.sol.lost || !s.domOn 32 || s.nextBandFif p x != some fif then s
      else
        let o := s.openBand p c b ((s.pipe p).stageOf 3)
        if !o.2 then o.1
        else
          let d := s.rbufDesc c b
          let stage := (s.pipe p).stageOf 3
          let r0 := x.band * d.bandRows
          let rows := (List.range (d.rowsOf x.band)).foldl (fun (acc : State × List (List Byte)) i =>
            let cells := (List.range (k.wOut * k.outC)).foldl (fun (a : State × List (Nat × Nat × Nat)) j =>
              let ox := j / max 1 k.outC
              let oc := j % max 1 k.outC
              let r := a.1.convOut p fif stage (s.pipe p).solBase k (s.stemCode p f) (r0 + i) ox oc
              (r.1, a.2 ++ [(ox, oc, r.2.1.q)])) (acc.1, [])
            (cells.1, acc.2 ++ [rowOfCells d.layout k.wOut k.outC 1 cells.2]))
            (o.1.rereadInput p f r0 (r0 + d.rowsOf x.band), [])
          rows.1.fillBand c b rows.2

/-- BAND_WRITE_START (R213): a producer begins the next band of a row buffer once its ring slot's remaining count is 0,
and is held until then. The stem and the depthwise path write the band's rows. -/
def execBandWriteStart (c : Fin 32) (b : Fin 8) (prod : BandProducer) (s : State) : Out :=
  match s.coreOwner c with
  | none => .next s
  | some p =>
    match prod with
    | .stage => .next (s.openBand p c b (s.gwStage c 18)).1
    | .stem => .next (s.stemBand p c b)
    | .depthwise g epi => .next (s.dwBand p c b g epi)

/-! ### Weight-memory errors (R234) -/

/-- Note the words that the check of a pass found in error. -/
def State.solErrs (s : State) (errs : List (Fin 327680 × Bool)) : State :=
  s.setSol { s.sol with wecc := errs.foldl (fun m e =>
    SMap.put (fun _ => EccState.clean) m (e.1.val * 8) (if e.2 then .uncorrectable else .correctable)) s.sol.wecc }

/-- The errors of the weight words that a path reads, each reported for the frame. -/
def State.solMem (s : State) (p fif path lo len : Nat) : State :=
  (s.sol.wecc.filter (fun e => decide (lo ≤ e.1 + 7 ∧ e.1 < lo + len))).foldl (fun s e =>
    if e.2.bad then (s.reportF 1 0x035 uSol p fif [(22, e.1), (4, path)]).voidFrame p fif 3
    else s.reportF 0 0x034 uSol p fif [(22, e.1)]) s

/-- The clamps and non-finite values of a frame's scanned input (R156, R160, R228). -/
def State.scanReports (s : State) (p : Nat) (f : Frame) : State :=
  let k := (s.pipe p).sol
  let tensor := k.stem.desc.inT
  let b := s.bankFif p f.fif tensor
  let xs := s.stemInputs p f
  let clamps := (xs.filter (fun x => (quantise x b.1 b.2).2)).length
  let nan := (xs.filter (fun x => Fmt.fp32.isNan x)).length
  let inf := xs.filter (fun x => !Fmt.fp32.isFin x && !Fmt.fp32.isNan x)
  let neg := (inf.filter (fun x => x.testBit 31)).length
  let s1 := if clamps != 0 then
      s.reportF 0 0x105 uSol p f.fif [(8, (s.pipe p).stageOf 3), (12, tensor), (16, clamps)] else s
  if nan + inf.length != 0 then s1.nonfinite p f.fif tensor (nan, inf.length - neg, neg) else s1

/-- STEM_PASS_DONE (R230): the MAC pass of the first waiting frame ends, its last band written. `errs` are the weight
words that the pass found in error: word index, and whether uncorrectable. -/
def execStemPassDone (errs : List (Fin 327680 × Bool)) (s : State) : Out :=
  match s.sol.mac with
  | [] => .next s
  | (p, fif) :: rest =>
    let q := s.pipe p
    let k := q.sol.stem
    match q.frame fif with
    | none => .next (s.setSol { s.sol with mac := rest })
    | some f =>
      let x := s.rbuf k.outCore k.outBuf
      if x.fif == some fif && x.band == 0 && x.cur.isNone && !s.sol.lost then
        let s1 := (s.solErrs errs).setSol { (s.solErrs errs).sol with mac := rest }
        let s2 := s1.solMem p fif 0 (q.solBase + k.wOff) (k.outC * k.n)
        let st := q.stageOf 3
        .next ((((s2.scanReports p f).leaveStage uSol p fif st).stageDone p fif st).settleFollower p)
      else .next s

/-! ### The tail (R232) -/

/-- The output bank of a frame (R392): one of eight, by frame-in-flight number. -/
def Pipe.bankAddr (p : Pipe) (fif : Nat) : Nat := p.outBase + fif * p.outBank

/-- TAIL_DONE (R232, R233): the frame at the head of the tail path, whose input words have all come, is finished and its
outputs are written. -/
def execTailDone (errs : List (Fin 327680 × Bool)) (s : State) : Out :=
  match s.sol.tail with
  | [] => .next s
  | (p, fif) :: rest =>
    let q := s.pipe p
    let k := q.sol.tail
    let ws := SMap.get (fun _ => []) s.sol.tailIn (p * 8 + fif)
    if ws.length < k.inWords ∨ s.sol.lost = true ∨ s.domOn 32 = false then .next s
    else
      let rowW := ceilDiv (rowPitch k.inLayout k.inW k.inC) 8
      let bs := ws.flatMap (fun w => leBytes 8 w.data.toNat)
      let za := ((s.bankFif p fif k.desc.inT).2 : Int)
      let code := fun (y x ch : Nat) =>
        ((fieldLe bs (y * rowW * 8 + rowOffset k.inLayout k.inW k.inC x ch) 1 : Nat) : Int) - za
      let st := q.stageOf 4
      let s0 := (s.solErrs errs).setSol { (s.solErrs errs).sol with
        tail := rest, tailIn := SMap.put (fun _ => []) s.sol.tailIn (p * 8 + fif) [] }
      let s1 := (ws.filterMap (fun w => w.mark)).foldl (fun s m => s.onFrame p fif (fun f => f.kill m.reason m.time)) s0
      let s2 := s1.solMem p fif 1 (q.solBase + k.wOff) (k.outC * k.n)
      let r := (List.range (k.hOut * k.wOut * k.outC)).foldl (fun (acc : State × List (Nat × List Byte)) i =>
        let oc := i % max 1 k.outC
        let j := i / max 1 k.outC
        let oy := j / max 1 k.wOut
        let ox := j % max 1 k.wOut
        let o := acc.1.convOut p fif st q.solBase k code oy ox oc
        let at' := (oy * rowPitch k.outLayout k.wOut k.outC + rowOffset k.outLayout k.wOut k.outC ox oc) * k.elemBytes
        (o.1, acc.2 ++ [(at', leBytes k.elemBytes (if k.desc.out = 3 then o.2.1.q + 2 ^ 32 * b2n o.2.2 else o.2.1.q))])) (s2, [])
      let n := rowPitch k.outLayout k.wOut k.outC * k.elemBytes * k.hOut
      let image := (List.range n).map (fun o =>
        match r.2.find? (fun x => decide (x.1 ≤ o ∧ o < x.1 + k.elemBytes)) with
        | some x => x.2.getD (o - x.1) 0#8
        | none => 0#8)
      let w := State.unitWriteN (ceilDiv n 32) r.1 (q.bankAddr fif + k.outOff) image
      .next ((((w.1.leaveStage uSol p fif st).stageDone p fif st).settleFollower p).settleTail)

/-- SOLSTICE_LOST (R235): the engine is lost, with cause 0 heartbeat, 1 internal error, 2 clock or 3 supply. -/
def execSolsticeLost (cause : Fin 4) (s : State) : Out := .next (s.loseSol cause)

end Machine
end Sys2Proof
end

