-- ==== Sys2Proof/Machine/Weave.lean ====
section
/-!
DEFINITION. The Weave container (spec/12_weave_bitstream.md R316 to R327) and the checks of its content that the loader
makes from the file alone (R336 steps 2 to 5, Table 12-12). Core images are read as writes of 64-bit words at offsets
relative to their context slot, in the order of the reload image of spec/23 R572.
-/

namespace Sys2Proof

/-! ### Container -/

/-- One directory entry (Table 12-2) with the bytes of its chunk. -/
structure WChunk where
  idx : Nat
  typ : Nat
  var : Nat
  sect : Nat
  lcore : Nat
  off : Nat
  len : Nat
  crc : Nat
  data : List Byte
  deriving DecidableEq, Repr

/-- The directory entry at an index of a file. -/
def wChunk (bs : List Byte) (i : Nat) : WChunk :=
  let e := sliceB bs (fieldLe bs 24 8 + 32 * i) 32
  { idx := i, typ := fieldLe e 0 1, var := fieldLe e 1 1, sect := fieldLe e 2 1, lcore := fieldLe e 3 1,
    off := fieldLe e 8 8, len := fieldLe e 16 8, crc := fieldLe e 24 4,
    data := (bs.drop (fieldLe e 8 8)).take (fieldLe e 16 8) }

/-- The chunks of a file in directory order. -/
def wChunks (bs : List Byte) : List WChunk := (List.range (fieldLe bs 12 4)).map (wChunk bs)

/-- Bytes of a list are all zero. -/
def allZero (bs : List Byte) : Bool := bs.all (fun b => b == 0#8)

/-- R336 step 2: the first wrong field of header or trailer, in the order of Table 18-5a. -/
def headerFault (bs : List Byte) (imageLen step : Nat) (debug : Bool) : Option Nat :=
  let t := bs.drop (bs.length - 144)
  let reserved := fieldLe bs 10 1 / 4 != 0 || fieldLe bs 11 1 != 0 || !allZero (sliceB bs 88 40) ||
    !allZero (sliceB t 129 11) || decide (fieldLe bs 9 1 = 0 ∨ 8 < fieldLe bs 9 1) ||
    decide (fieldLe bs 12 4 = 0 ∨ 65535 < fieldLe bs 12 4) || fieldLe bs 24 8 % 32 != 0
  if fieldLe bs 0 4 ≠ 0x31455657 then some 0
  else if fieldLe bs 4 2 ≠ 0x0100 then some 1
  else if fieldLe bs 6 2 ≠ 0x6432 then some 2
  else if fieldLe t 140 4 ≠ 0x47495357 then some 3
  else if reserved then some 4
  else if step < fieldLe bs 8 1 then some 5
  else if fieldLe bs 16 8 ≠ imageLen then some 6
  else if bit1 (fieldLe bs 10 1) 0 && !debug then some 7
  else none

/-- The conditions of R319 over a signed text and its trailer, for four or two key slots: the slot is programmed, not
revoked, its digest equals the public key's and the signature verifies. Answers the first failing cause, 0 empty, 1
revoked, 2 key digest, 3 signature. -/
def signatureFault (text trailer : List Byte) (slots prog revoked : Nat) (digest : Nat → List Byte) : Option Nat :=
  let k := fieldLe trailer 128 1
  if slots ≤ k ∨ !bit1 prog k then some 0
  else if bit1 revoked k then some 1
  else if sha256 (sliceB trailer 0 64) ≠ digest k then some 2
  else if ecdsaOk (sha256 text) (fieldBe trailer 0 32) (fieldBe trailer 32 32) (fieldBe trailer 64 32)
      (fieldBe trailer 96 32) then none
  else some 3

/-- The chunk of a type that belongs to a variant (or to every variant), for a section and a logical core. -/
def findChunk (cs : List WChunk) (typ var sect lcore : Nat) : Option WChunk :=
  cs.find? (fun c => c.typ == typ && (c.var == var || c.var == 255) && c.sect == sect && c.lcore == lcore)

/-- The bytes of such a chunk, empty when there is none. -/
def chunkBytes (cs : List WChunk) (typ var sect lcore : Nat) : List Byte :=
  ((findChunk cs typ var sect lcore).map (fun c => c.data)).getD []

/-- The directory index of such a chunk. -/
def chunkIdx (cs : List WChunk) (typ var sect lcore : Nat) : Nat :=
  ((findChunk cs typ var sect lcore).map (fun c => c.idx)).getD 0

/-- Records of a fixed length in a chunk. -/
def recordsOf (n : Nat) (bs : List Byte) : List (List Byte) := (List.range (bs.length / n)).map (fun i => sliceB bs (n * i) n)

/-! ### Variants, stages, segments, circuits, tensors -/

structure VarHdr where
  ncores : Nat
  nsect : Nat
  nstage : Nat
  flags : Nat
  bMin : Nat
  bNom : Nat
  latNear : Nat
  latFar : Nat
  lflags : List Nat
  fmin : List Nat
  deriving DecidableEq, Repr

/-- Table 12-5. -/
def VarHdr.ofBytes (b : List Byte) : VarHdr :=
  let n := fieldLe b 0 1
  { ncores := n, nsect := fieldLe b 1 1, nstage := fieldLe b 2 1, flags := fieldLe b 3 1, bMin := fieldLe b 4 4,
    bNom := fieldLe b 8 4, latNear := fieldLe b 12 2, latFar := fieldLe b 14 2,
    lflags := (List.range n).map (fun j => fieldLe b (32 + 4 * j) 1),
    fmin := (List.range n).map (fun j => fieldLe b (34 + 4 * j) 2) }

/-- A stage entry with logical cores (Table 12-6). -/
structure WStage where
  stage : Nat
  kind : Nat
  sect : Nat
  seqCore : Nat
  seq : Nat
  retallyMax : Nat
  minMhz : Nat
  workOff : Nat
  dR : Nat
  outCount : Nat
  reorderBase : Nat
  reorderLen : Nat
  cores : Nat
  deriving DecidableEq, Repr

def WStage.ofBytes (b : List Byte) : WStage :=
  { stage := fieldLe b 0 1, kind := fieldLe b 1 1, sect := fieldLe b 2 1, seqCore := fieldLe b 3 1, seq := fieldLe b 4 1,
    retallyMax := fieldLe b 5 1, minMhz := fieldLe b 6 2, workOff := fieldLe b 8 4, dR := fieldLe b 12 4,
    outCount := fieldLe b 16 4, reorderBase := fieldLe b 20 4, reorderLen := fieldLe b 24 4, cores := fieldLe b 28 4 }

/-- A segment record (Table 12-8). -/
structure WSeg where
  id : Nat
  place : Nat
  near : Nat
  align : Nat
  init : Nat
  dataChunk : Nat
  size : Nat
  dataLen : Nat
  role : Nat
  deriving DecidableEq, Repr

def WSeg.ofBytes (b : List Byte) : WSeg :=
  { id := fieldLe b 0 2, place := fieldLe b 2 1, near := fieldLe b 3 1, align := fieldLe b 4 1, init := fieldLe b 5 1,
    dataChunk := fieldLe b 6 2, size := fieldLe b 8 8, dataLen := fieldLe b 16 8, role := fieldLe b 24 1 }

/-- A circuit record (Table 12-7). -/
structure WCirc where
  src : Nat
  dst : Nat
  slot : Nat
  period : Nat
  hold : Nat
  flags : Nat
  deriving DecidableEq, Repr

def WCirc.ofBytes (b : List Byte) : WCirc :=
  { src := fieldLe b 0 2, dst := fieldLe b 2 2, slot := fieldLe b 4 1, period := fieldLe b 5 1, hold := fieldLe b 6 1,
    flags := fieldLe b 7 1 }

/-- A tensor record (R326). -/
def tensorOf (b : List Byte) : Machine.TensorRec :=
  { idx := fieldLe b 0 2, kind := fieldLe b 2 1, initLo := BitVec.ofNat 32 (fieldLe b 4 4),
    initHi := BitVec.ofNat 32 (fieldLe b 8 4) }

/-- A coded-region record (R306) of a section. -/
def codedOf (sect : Nat) (b : List Byte) : Machine.CodedRegion :=
  let k := fieldLe b 6 1
  { sect := sect, base := fieldLe b 0 6, kind := k % 4, k := bits k 2 4, d := fieldLe b 7 1 + 1, ntotal := fieldLe b 8 5 }

/-- The parts of one variant. -/
structure WVar where
  v : Nat
  hdr : VarHdr
  stages : List WStage
  segs : List WSeg
  deriving DecidableEq, Repr

def WVar.of (cs : List WChunk) (v : Nat) : WVar :=
  let h := VarHdr.ofBytes (chunkBytes cs 1 v 255 255)
  { v := v, hdr := h, stages := ((recordsOf 32 (chunkBytes cs 2 v 255 255)).take h.nstage).map WStage.ofBytes,
    segs := (recordsOf 32 (chunkBytes cs 6 v 255 255)).map WSeg.ofBytes }

def WVar.circuits (cs : List WChunk) (v sect : Nat) : List WCirc :=
  (recordsOf 16 (chunkBytes cs 4 v sect 255)).map WCirc.ofBytes

/-! ### Core images (R322) -/

/-- One word that a run writes: its window offset, its value and its place in the chunk. -/
structure RunWord where
  off : Nat
  val : Nat
  pos : Nat
  deriving DecidableEq, Repr

/-- The words of a core image's runs, none when a run is malformed. -/
def runWords : Nat → List Byte → Nat → Option (List RunWord)
  | 0, bs, pos => if bs.length ≤ pos then some [] else none
  | n + 1, bs, pos =>
    if bs.length ≤ pos then some []
    else
      let off := fieldLe bs pos 4
      let len := fieldLe bs (pos + 4) 4
      if off % 8 ≠ 0 ∨ len % 8 ≠ 0 ∨ bs.length < pos + 8 + len then none
      else
        match runWords n bs (pos + 8 + len) with
        | none => none
        | some ws => some ((List.range (len / 8)).map (fun i =>
            { off := off + 8 * i, val := fieldLe bs (pos + 8 + 8 * i) 8, pos := pos + 8 + 8 * i }) ++ ws)

/-- The offset within the reload image of a window offset of context slot `j` (R572); the reload settings of the core
follow the image at 0x40000 (DEDUCED, log entry 34). -/
def relOff (j off : Nat) : Option Nat :=
  if j * 0x30000 ≤ off ∧ off < (j + 1) * 0x30000 then some (off - j * 0x30000)
  else if 0xD0000 + j * 0x1000 ≤ off ∧ off < 0xD1000 + j * 0x1000 then some (0x30000 + (off - 0xD0000 - j * 0x1000))
  else if 0xC8000 + j * 0x400 ≤ off ∧ off < 0xC8400 + j * 0x400 then some (0x31000 + (off - 0xC8000 - j * 0x400))
  else if 0xC9000 + j * 0x400 ≤ off ∧ off < 0xC9400 + j * 0x400 then some (0x31400 + (off - 0xC9000 - j * 0x400))
  else if 0xE0008 ≤ off ∧ off < 0xE0020 then some (0x40000 + (off - 0xE0000))
  else none

/-- The image of a section on a logical core: words keyed by image offset; none when a run is malformed or falls
outside. -/
def coreImage (cs : List WChunk) (v sect j : Nat) : Option (List RunWord) :=
  let bs := chunkBytes cs 3 v sect j
  match runWords bs.length bs 0 with
  | none => none
  | some ws => ws.mapM (fun w => (relOff (sect % 4) w.off).map (fun r => { w with off := r }))

/-- The last word written at an image offset, 0 when none is. -/
def imgWord (img : List RunWord) (off : Nat) : Nat := ((img.reverse.find? (fun w => w.off == off)).map (fun w => w.val)).getD 0

/-- The place in the chunk of the word at an image offset. -/
def imgPos (img : List RunWord) (off : Nat) : Nat := ((img.reverse.find? (fun w => w.off == off)).map (fun w => w.pos)).getD 0

/-- The tiles whose contexts an image writes. -/
def imgTiles (img : List RunWord) : List Nat :=
  (List.range 256).filter (fun t => img.any (fun w => decide (t * 0x300 ≤ w.off ∧ w.off < (t + 1) * 0x300)))

/-! ### Content checks (Table 12-12) -/

/-- A failed check: class, directory index and byte offset within the chunk. -/
abbrev CheckFail := Nat × Nat × Nat

/-- The first failure of a list of checks. -/
def firstFail (cs : List (Option CheckFail)) : Option CheckFail := cs.findSome? id

/-- A check that fails when a condition holds. -/
def failIf (b : Bool) (cls chunk pos : Nat) : Option CheckFail := if b then some (cls, chunk, pos) else none

/-- A tile slot entry breaks R98: a reserved code or bit, or an output that names its own link. -/
def slotEntryBad (e : Nat) : Bool :=
  (List.range 5).any (fun i => bits e (3 * i) 3 == 7) || (List.range 4).any (fun i => bits e (3 * i) 3 == i + 1) ||
  decide (6 ≤ bits e 17 3) || bits e 56 8 != 0

/-- A tile router header breaks Table 4-4, or, in a queue that a slot entry writes, R346. -/
def routerHdrBad (h : Nat) (es : List Nat) : Bool :=
  (List.range 4).any (fun i => bits h (3 * i) 3 == 0 || decide (8 < bits h (12 + 4 * i) 4) ||
    (es.any (fun e => bits e 12 3 != 0 && bits e 15 2 == i) && decide (7 < bits h (12 + 4 * i) 4 + bits h (3 * i) 3))) ||
  bits h 28 16 == 0 || bits h 44 20 != 0

/-- A descriptor page breaks R570 or R346. -/
def pageBad (img : List RunWord) : Option Nat :=
  let p := imgWord img 0x30000
  let g := imgWord img 0x30008
  if bits p 0 6 = 0 ∨ 32 < bits p 0 6 then some 0x30000
  else if bits g 0 5 = 0 ∨ 32 < bits g 8 6 ∨ bits g 16 16 = 0 ∨ 31 < bits g 8 6 + bits g 0 5 then some 0x30008
  else ((List.range 16).find? (fun k =>
    (List.range 16).any (fun i => decide (8 < bits (imgWord img (0x30500 + 8 * k)) (4 * i) 4)))).map (fun k => 0x30500 + 8 * k)

/-- A gateway table entry breaks R107. -/
def gwEntryBad (e : Nat) : Bool :=
  bits e 40 24 != 0 || (List.range 8).any (fun i => decide (25 ≤ bits e (5 * i) 5 ∧ bits e (5 * i) 5 ≤ 30))

/-- Rows and columns of a mapping shape (Table 7-4). -/
def shapeOf (k : Nat) : Nat × Nat :=
  match k with
  | 0 => (4, 8)
  | 1 => (8, 4)
  | 2 => (2, 16)
  | 3 => (16, 2)
  | _ => (1, 32)

/-- A run of `n` registers from a specifier stays in its region (R181). -/
def runOk (st spec n : Nat) : Bool :=
  if spec < 56 then decide (spec + n ≤ st) else decide (spec - 56 + n ≤ (64 - st) / 8)

/-- A context header breaks R181, R186 or, where the tile fires, R568. -/
def contextBad (ctl acc : Nat) : Bool :=
  let st := 8 * bits ctl 13 3
  let share := (64 - st) / 8
  let need := bits ctl 8 4
  let decl := bits ctl 4 4
  let offs := (List.range 4).filter (fun i => bit1 decl i)
  let off := fun (i : Nat) => bits ctl (32 + 3 * i) 3
  let (r, c) := shapeOf (bits acc 0 3)
  let fmt := bits acc 3 2
  let gs := bits acc 11 2
  let plen := bits acc 32 32
  let g := 16 * 2 ^ gs
  let ng := if gs = 0 then 1 else ceilDiv plen g
  bits ctl 56 8 != 0 || st == 64 ||
  (bit1 ctl 47 && (need == 0 || (List.range 4).any (fun i => bit1 need i && !bit1 decl i) ||
    offs.any (fun i => decide (share ≤ off i + 1)) ||
    offs.any (fun i => offs.any (fun k => decide (i < k) && decide (off i ≤ off k + 1) && decide (off k ≤ off i + 1))))) ||
  decide (5 ≤ bits acc 0 3) || fmt == 3 || bits acc 26 6 != 0 || plen == 0 || decide (2 ^ 31 < plen) ||
  decide (12 < bits acc 7 4) || (fmt == 2 && !bit1 acc 5) || (gs != 0 && (fmt != 0 || !bit1 acc 6)) ||
  (gs != 0 && decide (c < g / 16)) ||
  (bit1 acc 25 && !runOk st (bits acc 13 6) (3 * r * ng)) ||
  (gs != 0 && (decide (56 ≤ bits acc 19 6) || !runOk st (bits acc 19 6) (r * ng)))

/-- The operand runs of a micro-instruction in a context (Table 7-3, R190, R196, R197): specifiers and lengths. -/
def operandRuns (mi acc rsc : Nat) : List (Nat × Nat) :=
  let dst := bits mi 6 6
  let sa := bits mi 12 6
  let sb := bits mi 18 6
  let sc := bits mi 24 6
  let imb := bit1 mi 39
  let (r, c) := shapeOf (bits acc 0 3)
  let fmt := bits acc 3 2
  let d := RescDesc.ofWords rsc 0
  let b := if imb then [] else [(sb, 1)]
  match bits mi 0 6 with
  | 0x01 => [(sa, 8), (sb, if bit1 acc 5 then ceilDiv c 2 else ceilDiv c 4)]
  | 0x02 | 0x03 => [(sa, if bits mi 32 2 = 0 then r else 8)]
  | 0x04 => if bits mi 40 3 = 1 then [(sb, 1)] else []
  | 0x05 =>
    if fmt = 1 then [(dst, 2 * r)]
    else
      let n := if fmt = 2 then 32 else r
      [(dst, if d.out ≤ 1 then ceilDiv n 4 else if d.out = 2 then n else 2 * n), (sb, if d.layer then 2 else 2 * r)] ++
      (if d.epi = 0 then [] else [(sc, ceilDiv n 4)])
  | 0x08 | 0x09 | 0x0A | 0x0B | 0x0C | 0x0E => [(dst, 1), (sa, 1)] ++ b
  | 0x0D => [(dst, 1), (sa, 1), (sc, 1)] ++ b
  | 0x0F => [(dst, 1), (sa, 1)] ++ (if imb then [] else [(sb, 1), (sc, 1)])
  | 0x10 => [(dst, 1)] ++ (if imb then [] else [(sa, 1)])
  | 0x11 => [(dst, 1), (sa, 2), (sb, 2)] ++ (if d.epi = 0 then [] else [(sc, 1)])
  | 0x12 => [(dst, 1), (sa, 1)]
  | 0x13 => [(sa, 2)]
  | _ => []

/-- A micro-instruction breaks Table 7-1 or 7-3, R189 or R204 (class 4). -/
def microBad (ctl mi acc rsc : Nat) : Bool :=
  let op := bits mi 0 6
  let md := bits mi 40 3
  let pm := bits mi 30 2
  let fmt := bits acc 3 2
  let carry := bit1 acc 6
  let slots := if fmt = 0 then 8 else if fmt = 1 then 4 else 16
  let elem := decide (0x08 ≤ op ∧ op ≤ 0x10)
  let mdBad := if op = 0x01 ∨ op = 0x04 then decide (1 < md) else if op = 0x0C then decide (5 < md)
    else if op = 0x11 ∨ op = 0x12 then decide (3 < md) else md != 0
  !([0, 1, 2, 3, 4, 5, 8, 9, 10, 11, 12, 13, 14, 15, 16, 17, 18, 19].contains op) || mdBad || bits mi 43 5 != 0 || pm == 3 ||
  bits mi 32 2 == 3 || (pm != 0 && (!elem || !bit1 ctl 11)) ||
  (op == 0x01 && (fmt == 1 || (fmt == 2 && (!bit1 acc 5 || md == 1)))) || ((op == 2 || op == 3) && fmt != 1) ||
  (op == 0x05 && ((carry && fmt != 2) || (fmt == 2 && decide (2 ≤ bits rsc 1 2)))) ||
  (op == 0x0F && bit1 mi 39 && bits mi 32 2 == 0) ||
  (decide (1 ≤ op ∧ op ≤ 5) && !bit1 mi 38 && decide (slots ≤ bits mi 34 4))

/-- A carry region descriptor breaks R133 or Table 5-5. -/
def carryDescBad (d : Nat) : Bool :=
  let w := if 2 ≤ bits d 49 2 then 2 else 1
  let len := bits d 15 14
  bit1 d 51 && (decide (32767 < bits d 0 15 + 7 * bits d 32 15 + (len + 1) * w - 1))

/-- FP32 positive and normal; positive and finite. -/
def posNormal (x : Nat) : Bool := decide (0x00800000 ≤ x ∧ x < 0x7F800000)
def posFinite (x : Nat) : Bool := decide (0 < x ∧ x < 0x7F800000)

/-- A rescale descriptor breaks R166. -/
def rescDescBad (w0 w1 : Nat) (capUsed : Bool) : Bool :=
  let d := RescDesc.ofWords w0 w1
  bits w0 9 7 != 0 || bits w0 52 12 != 0 || d.epi == 3 || (d.epi != 0 && d.out == 3) ||
  (capUsed && decide (d.out ≤ 1) && !posFinite d.cap) || (d.out == 1 && !posNormal d.sFixed)

/-- A rescale entry breaks R166. -/
def rescEntryBad (w0 e : Nat) : Bool :=
  let d := RescDesc.ofWords w0 0
  let x := RescEntry.ofWord e
  bit1 e 63 || x.act == 3 || decide (x.hi < x.lo) || (d.out == 0 && x.act == 0 && (x.lo != 0 || x.hi != 255))

/-- A row-buffer descriptor breaks R212; a descriptor of zeros is unused. -/
def rbufBad (w0 w1 : Nat) : Bool :=
  if w0 = 0 ∧ w1 = 0 then false
  else
    let size := bits w0 32 16 * bits w0 48 8 * bits w0 24 8
    let nb := ceilDiv (bits w1 22 16) (max 1 (bits w0 48 8))
    bits w0 56 8 != 0 || bits w1 54 10 != 0 || bits w0 0 22 % 8 != 0 || decide (bits w0 24 8 < 2) ||
    bits w0 32 16 % 8 != 0 || bits w0 48 8 == 0 || bits w1 22 16 == 0 || bits w1 38 16 == 0 ||
    decide (0x400000 < bits w0 0 22 + size) || decide (0x400000 < bits w1 0 22 + nb)

/-- A fetch-stream descriptor breaks R209 or R215. -/
def fstrBad (w0 w1 w2 w3 : Nat) : Bool :=
  bit1 w0 63 && (decide (32 ≤ bits w0 0 6 ∧ bits w0 0 6 ≠ 63) || bits w0 10 2 == 3 || bits w0 20 4 == 0 || bits w0 24 4 == 0 ||
    decide (5 < bits w0 56 3) || bits w0 61 2 != 0 || bits w1 16 16 == 0 || bits w1 48 16 == 0 || bits w2 0 16 == 0 ||
    bits w2 16 16 == 0 || bits w2 32 16 == 0 || bits w3 50 14 == 0 ||
    (bits w0 0 6 == 63 && bits w3 0 48 % 32 != 0))

/-- A depthwise descriptor breaks Table 9-13. -/
def dwBad (w0 w1 : Nat) : Bool :=
  bit1 w1 48 && (decide (6 < bits w0 0 3) || decide (6 < bits w0 3 3) || bits w0 18 2 == 3 || bits w0 20 2 == 3 ||
    bits w0 36 22 % 64 != 0 || bits w0 58 6 != 0 || bits w1 0 16 == 0 || bits w1 16 16 == 0 || bits w1 32 16 == 0 ||
    bits w1 49 15 != 0)

/-- The entry of sequencer `i` of logical core `j` in a section breaks Table 23-5 against the stage map; the pipeline is patched. -/
def seqBad (stages : List WStage) (sect j i w0 w1 : Nat) : Bool :=
  bit1 w0 44 && (match stages.find? (fun g => g.stage == bits w0 32 8) with
    | none => true
    | some g => g.sect != sect || g.seqCore != j || g.seq != i || bits w0 0 32 != g.outCount || bits w0 40 2 != g.retallyMax || bits w1 0 22 != g.reorderBase ||
        bits w1 32 22 != g.reorderLen || bits w0 45 19 != 0 || bits w1 22 10 != 0 || bits w1 54 10 != 0 ||
        decide (0x400000 < bits w1 0 22 + bits w1 32 22))

/-- Bits of the words of an int of a register: static register `r` of a tile of an image. -/
def imgStatic (img : List RunWord) (t r : Nat) : Nat :=
  bits (imgWord img (t * 0x300 + 0xA0 + r / 2 * 8)) (32 * (r % 2)) 32

/-- The rescale entries that the body of a tile names in static registers. -/
def imgEntries (img : List RunWord) (t rsc acc : Nat) : List Nat :=
  let d := RescDesc.ofWords rsc 0
  let n := bits (imgWord img (t * 0x300)) 0 4 + 1
  ((List.range n).flatMap (fun i =>
    let mi := imgWord img (t * 0x300 + 0x20 + 8 * i)
    let sb := bits mi 18 6
    let k := if bits mi 0 6 = 0x11 then 1
      else if bits mi 0 6 = 0x05 ∧ bits acc 3 2 ≠ 1 then (if d.layer then 1 else (shapeOf (bits acc 0 3)).1) else 0
    (List.range k).map (fun r => sb + 2 * r))).filter (fun r => decide (r < 55)) |>.map (fun r =>
      imgStatic img t r + 2 ^ 32 * imgStatic img t (r + 1))

/-- The checks of one tile context. R186 excepts no context, so a router-only one meets its checks too (DEDUCED, log entry 112). -/
def tileChecks (img : List RunWord) (chunk t : Nat) (stages : List WStage) : Option CheckFail :=
  let o := t * 0x300
  let ctl := imgWord img o
  let acc := imgWord img (o + 0x10)
  let r0 := imgWord img (0x30300 + 16 * bits ctl 44 3)
  let st := 8 * bits ctl 13 3
  let body := List.range (bits ctl 0 4 + 1)
  let spare := [o + 0x18] ++ (List.range 16).map (fun i => o + 0x280 + 8 * i)
  firstFail [
    ((List.range 32).find? (fun s => slotEntryBad (imgWord img (o + 0x180 + 8 * s)))).map (fun s =>
      (1, chunk, imgPos img (o + 0x180 + 8 * s))),
    failIf (routerHdrBad (imgWord img (o + 8)) ((List.range (bits (imgWord img 0x30000) 0 6)).map (fun s => imgWord img (o + 0x180 + 8 * s)))) 1 chunk (imgPos img (o + 8)),
    failIf (contextBad ctl acc) 3 chunk (imgPos img o),
    (spare.find? (fun k => imgWord img k != 0)).map (fun k => (3, chunk, imgPos img k)),
    (body.find? (fun i =>
      let mi := imgWord img (o + 0x20 + 8 * i)
      (operandRuns mi acc r0).any (fun x => !runOk st x.1 x.2))).map (fun i => (3, chunk, imgPos img (o + 0x20 + 8 * i))),
    (body.find? (fun i => microBad ctl (imgWord img (o + 0x20 + 8 * i)) acc r0)).map (fun i =>
      (4, chunk, imgPos img (o + 0x20 + 8 * i))),
    failIf (bit1 ctl 47 && (imgEntries img t r0 acc).any (rescEntryBad r0)) 6 chunk (imgPos img o),
    failIf (bit1 ctl 47 && !stages.any (fun g => g.stage == bits ctl 48 8)) 13 chunk (imgPos img o)]

/-- Two firing tiles of a context give one local stage slot with different stages (R569). -/
def lstageClash (img : List RunWord) (ts : List Nat) : Bool :=
  let cs := (ts.map (fun t => imgWord img (t * 0x300))).filter (fun c => bit1 c 47)
  cs.any (fun a => cs.any (fun b => bits a 44 3 == bits b 44 3 && bits a 48 8 != bits b 48 8))

/-- The entries with ACT = RELU_CAP of a local stage slot (R166). -/
def capUsed (img : List RunWord) (ts : List Nat) (g : Nat) : Bool :=
  ts.any (fun t =>
    let ctl := imgWord img (t * 0x300)
    bit1 ctl 47 && bits ctl 44 3 == g &&
    (imgEntries img t (imgWord img (0x30300 + 16 * g)) (imgWord img (t * 0x300 + 0x10))).any (fun e =>
      (RescEntry.ofWord e).act == 2))

/-- The ends that a stream's words go to: those of the core's circuits that start in a slot where the outbound table names the stream's
queue (Table 4-8), or, of a stream that no slot names, the core itself, by a row port (R215). -/
def streamEnds (circs : List WCirc) (j : Nat) (img : List RunWord) (e : Nat) : List Nat :=
  let slots := (List.range 128).filter (fun k => (List.range 8).any (fun i => bits (imgWord img (0x31000 + 8 * k)) (5 * i) 5 == 16 + e))
  if slots.isEmpty then [j]
  else ((circs.filter (fun c => c.src == j && slots.any (fun k => k % max 1 c.period == c.slot % max 1 c.period))).map
    (fun c => c.dst)).eraseDups

/-- A fetch stream breaks R212, R215 or R217 beside its core's row buffers: its source row buffer stands on its own core, has its
layout and at least its pitch. The stage that consumes it is the depthwise one whose input it is, else one of those at the ends that its
words go to; RHOLD is judged where these agree on being armed (DEDUCED, log entry 109). -/
def streamBad (circs : List WCirc) (x : WVar) (sect j : Nat) (img : List RunWord) (e : Nat) : Bool :=
  let w := fun (i : Nat) => imgWord img (0x30200 + 32 * e + 8 * i)
  let b := fun (i : Nat) => imgWord img (0x30100 + 16 * bits (w 0) 6 3 + 8 * i)
  let dw := fun (i : Nat) => imgWord img (0x30380 + 8 * i)
  let own := bit1 (dw 1) 48 && bits (dw 0) 30 3 == e
  let users := if own then x.stages.filter (fun g => g.kind == 1 && g.sect == sect && bit1 g.cores j)
    else x.stages.filter (fun g => g.sect == sect && (streamEnds circs j img e).any (fun d =>
      (decide (d < 32) && g.kind != 3 && bit1 g.cores d) || (d == 0x3001 && g.kind == 4)))
  bit1 (w 0) 63 &&
  ((bits (w 0) 0 6 != 63 && (bits (b 0) 22 2 != bits (w 3) 48 2 ||
      decide (bits (b 0) 32 16 < rowPitch (bits (w 3) 48 2) (bits (w 2) 16 16) (bits (w 3) 50 14)))) ||
   (bit1 (w 0) 9 && !users.isEmpty && users.all (fun g => g.retallyMax == 0)) ||
   (!bit1 (w 0) 9 && !users.isEmpty && users.all (fun g => g.retallyMax != 0)))

/-- The depthwise descriptor of an image is in use. -/
def dwUsed (img : List RunWord) : Bool := bit1 (imgWord img 0x30388) 48

/-- The rescale descriptors that a depthwise stage of an image may have: those that are set and that no firing tile's local stage slot
takes. No table says which slot is the depthwise stage's (DEDUCED, log entry 109). -/
def dwCands (img : List RunWord) : List Nat :=
  (List.range 8).filter (fun g => imgWord img (0x30300 + 16 * g) != 0 &&
    !(imgTiles img).any (fun t => bit1 (imgWord img (t * 0x300)) 47 && bits (imgWord img (t * 0x300)) 44 3 == g))

/-- The channel records of a depthwise descriptor (R268). -/
def dwRecords (chunk : List Byte) (img : List RunWord) : List (List Byte) :=
  if dwUsed img then
    (List.range (bits (imgWord img 0x30388) 0 16)).map (fun k =>
      (List.range 64).map (fun i => Config.storeByte chunk (bits (imgWord img 0x30380) 36 22 + 64 * k + i)))
  else []

/-- The rescale entries of the depthwise records. -/
def dwEntries (chunk : List Byte) (img : List RunWord) : List Nat := (dwRecords chunk img).map (fun r => fieldLe r 56 8)

/-- A channel record of a depthwise descriptor breaks R268. -/
def dwRecordsBad (chunk : List Byte) (img : List RunWord) : Bool :=
  let w0 := imgWord img 0x30380
  let used := if bits w0 18 2 = 0 then (bits w0 0 3 + 1) * (bits w0 3 3 + 1) else 49
  (dwRecords chunk img).any (fun r => !allZero (sliceB r 50 6) || !allZero (sliceB r used (49 - used)))

/-- The depthwise stage of an image breaks R166 under each descriptor that it may have: in an entry, or in the CAP that an entry
uses. -/
def dwRescBad (chunk : List Byte) (img : List RunWord) : Bool :=
  let es := dwEntries chunk img
  let gs := dwCands img
  !gs.isEmpty && gs.all (fun g =>
    let w0 := imgWord img (0x30300 + 16 * g)
    es.any (rescEntryBad w0) ||
    rescDescBad w0 (imgWord img (0x30308 + 16 * g)) (es.any (fun e => (RescEntry.ofWord e).act == 2)))

/-- The checks of one core image. -/
def imageChecks (cs : List WChunk) (x : WVar) (sect j : Nat) : Option CheckFail :=
  let ck := chunkIdx cs 3 x.v sect j
  match coreImage cs x.v sect j with
  | none => some (13, ck, 0)
  | some img =>
    let ts := imgTiles img
    let at' := fun (cls off : Nat) => some (cls, ck, imgPos img off)
    let page := fun (cls first step n words : Nat) (bad : List Nat → Bool) =>
      ((List.range n).find? (fun i =>
        bad ((List.range words).map (fun k => imgWord img (first + step * i + 8 * k))))).bind (fun i =>
          at' cls (first + step * i))
    firstFail [
      (pageBad img).bind (at' 1),
      ts.findSome? (fun t => tileChecks img ck t x.stages),
      failIf (lstageClash img ts) 13 ck 0,
      page 2 0x31000 8 256 1 (fun w => gwEntryBad (w.getD 0 0)),
      page 5 0x30040 8 16 1 (fun w => carryDescBad (w.getD 0 0) ||
        (x.hdr.nsect == 1 && bit1 (w.getD 0 0) 51 && decide (bits (w.getD 0 0) 32 15 <
          (bits (w.getD 0 0) 15 14 + 1) * (if 2 ≤ bits (w.getD 0 0) 49 2 then 2 else 1)))),
      ((List.range 8).find? (fun g =>
        rescDescBad (imgWord img (0x30300 + 16 * g)) (imgWord img (0x30308 + 16 * g)) (capUsed img ts g))).bind (fun g =>
          at' 6 (0x30300 + 16 * g)),
      page 7 0x30100 16 8 2 (fun w => rbufBad (w.getD 0 0) (w.getD 1 0)),
      page 7 0x30200 32 8 4 (fun w => fstrBad (w.getD 0 0) (w.getD 1 0) (w.getD 2 0) (w.getD 3 0)),
      ((List.range 8).find? (streamBad (WVar.circuits cs x.v sect) x sect j img)).bind (fun e => at' 7 (0x30200 + 32 * e)),
      failIf (dwRescBad (chunkBytes cs 3 x.v sect j) img) 6 ck (imgPos img 0x30380),
      page 12 0x30380 16 1 2 (fun w => dwBad (w.getD 0 0) (w.getD 1 0) || dwRecordsBad (chunkBytes cs 3 x.v sect j) img),
      ((List.range 8).find? (fun i => seqBad x.stages sect j i (imgWord img (0x30400 + 16 * i)) (imgWord img (0x30408 + 16 * i)))).bind
        (fun i => at' 13 (0x30400 + 16 * i))]

/-- A rescale descriptor asks for scales (R321). -/
def descScales (w0 : Nat) : Bool := let d := RescDesc.ofWords w0 0; d.out != 3 || d.epi != 0

/-- A descriptor or a QUANT that asks for USES_SCALE (R321); a QUANT counts in any context, be FIRE_EN 0 or 1. The descriptors of a depthwise stage are those that its core's image
lists. -/
def needsScale (cs : List WChunk) (x : WVar) : Bool :=
  bit1 x.hdr.flags 0 ||
  (bit1 x.hdr.flags 1 && descScales (Config.solConf (chunkBytes cs 11 x.v 255 255)).tail.rsc0.toNat) ||
  x.stages.any (fun g => g.kind == 1 && (List.range x.hdr.ncores).any (fun j => bit1 g.cores j &&
    ((coreImage cs x.v g.sect j).getD []).any (fun w =>
      decide (0x30300 ≤ w.off ∧ w.off < 0x30380) && w.off % 16 == 0 && descScales w.val))) ||
  ((recordsOf 16 (chunkBytes cs 8 x.v 255 255)).map tensorOf).any (fun t => t.kind == 0 || t.kind == 2) ||
  (List.range x.hdr.nsect).any (fun sc => (List.range x.hdr.ncores).any (fun j =>
    match coreImage cs x.v sc j with
    | none => false
    | some img => (imgTiles img).any (fun t =>
        let ctl := imgWord img (t * 0x300)
        (bit1 ctl 47 && descScales (imgWord img (0x30300 + 16 * bits ctl 44 3))) || (List.range (bits ctl 0 4 + 1)).any (fun i =>
          bits (imgWord img (t * 0x300 + 0x20 + 8 * i)) 0 6 == 0x12))))

/-- R320: the VARIANT chunk. -/
def variantBad (b : List Byte) : Bool :=
  let h := VarHdr.ofBytes b
  h.ncores == 0 || decide (32 < h.ncores) || h.nsect == 0 || h.nstage == 0 || decide (8 ≤ h.flags) ||
  decide (h.bMin < 50000) || decide (100000000 < h.bMin) || decide (h.bNom < h.bMin) || decide (h.latNear < 380) ||
  decide (h.latFar < 720) || !allZero (sliceB b 17 3) || !allZero (sliceB b 24 8) || h.lflags.any (fun l => decide (4 ≤ l)) ||
  (List.range h.ncores).any (fun j => fieldLe b (33 + 4 * j) 1 != 0) || b.length != 32 + 4 * h.ncores

/-- R321: one stage entry. -/
def stageBad (h : VarHdr) (g : WStage) : Bool :=
  decide (4 < g.kind) || decide (h.nsect ≤ g.sect) || decide (h.ncores ≤ g.seqCore) || decide (7 < g.seq) ||
  decide (2 < g.retallyMax) || decide (g.minMhz < 400) || decide (1600 < g.minMhz) || decide (2 ^ h.ncores ≤ g.cores) ||
  (g.kind == 3 && !bit1 h.flags 0) || (g.kind == 4 && !bit1 h.flags 1) || decide (0x400000 < g.reorderBase + g.reorderLen)

/-- R321: the stage map as a whole. -/
def stageMapBad (cs : List WChunk) (x : WVar) : Bool :=
  x.stages.length != x.hdr.nstage ||
  (List.range x.hdr.ncores).any (fun j =>
    (List.range x.hdr.nsect).any (fun sc =>
      decide (8 < (x.stages.filter (fun g => g.sect == sc && bit1 g.cores j)).length)) ||
    maxOf ((x.stages.filter (fun g => bit1 g.cores j)).map (fun g => g.minMhz)) != x.hdr.fmin.getD j 0) ||
  x.stages.zipIdx.any (fun g => x.stages.zipIdx.any (fun k => decide (g.2 < k.2) && g.1.sect == k.1.sect &&
    g.1.seqCore == k.1.seqCore && g.1.seq == k.1.seq)) ||
  (!bit1 x.hdr.flags 2 && needsScale cs x)

/-- R325: one segment record. -/
def segBad (cs : List WChunk) (x : WVar) (b : List Byte) : Bool :=
  let g := WSeg.ofBytes b
  decide (g.size < g.dataLen) || decide (g.align < 5) || decide (30 < g.align) || decide (2 < g.place) ||
  decide (2 < g.init) || decide (2 < g.role) || !allZero (sliceB b 25 7) ||
  decide ((x.segs.filter (fun k => k.id == g.id)).length ≠ 1) ||
  (g.place == 1 && (decide (64 ≤ g.near) || decide (x.hdr.ncores ≤ g.near % 32) ||
    (decide (x.hdr.nsect ≤ 4) && !bit1 (x.hdr.lflags.getD (g.near % 32) 0) (g.near / 32)))) ||
  (g.place == 2 && x.hdr.flags % 4 == 0) ||
  (g.init == 1 && !cs.any (fun c => c.idx == g.dataChunk && c.typ == 7 && (c.var == x.v || c.var == 255) &&
    decide (g.dataLen ≤ c.len)))

/-- The declaration of the IO chunk; a file without one declares no input and no output area (R327; DEDUCED, log entry 26). -/
def ioOf (cs : List WChunk) : IoDecl :=
  if (findChunk cs 9 255 255 255).isNone then {} else Config.ioDecl (chunkBytes cs 9 255 255 255)

/-- R327: an input outside the stem's limits of Table 8-8. -/
def ioBad (d : IoDecl) : Bool :=
  decide (d.w = 0 ∨ 4096 < d.w) || decide (d.h = 0 ∨ 3072 < d.h) || decide (d.chans = 0 ∨ 4 < d.chans) || decide (1 < d.layout)

/-- R326 and R327: tensors, tables, the input and the output area. -/
def tensorsBad (cs : List WChunk) (x : WVar) : Bool :=
  let ts := (recordsOf 16 (chunkBytes cs 8 x.v 255 255)).map tensorOf
  let running := (ts.filter (fun t => t.kind == 0)).length
  let io := ioOf cs
  ts.any (fun t => decide (3 < t.kind) || (t.kind == 0 &&
    (bits t.initLo.toNat 23 8 == 255 || bits t.initHi.toNat 23 8 == 255 ||
     (!bit1 t.initLo.toNat 31 && t.initLo.toNat != 0) || (bit1 t.initHi.toNat 31 && t.initHi.toNat != 2 ^ 31)))) ||
  (List.range (ts.length - 1)).any (fun i =>
    decide (((ts.getD (i + 1) default).idx) ≤ (ts.getD i default).idx)) ||
  ((findChunk cs 9 255 255 255).isSome && ioBad io) ||
  (running != 0 && !x.segs.any (fun g => g.role == 1 && decide (64 * running * 32 ≤ g.size))) ||
  (io.outLen != 0 && !x.segs.any (fun g => g.role == 2 && decide (8 * io.outLen ≤ g.size)))
where
  /-- A record past the end. -/
  default : Machine.TensorRec := { idx := 0, kind := 0, initLo := 0, initHi := 0 }

/-- R166 on a convolution: its descriptor and its entries. -/
def convRescBad (k : ConvConf) : Bool :=
  let es := (if (RescDesc.ofWords k.rsc0.toNat 0).layer then k.entries.take 1 else k.entries.take k.outC).map BitVec.toNat
  rescDescBad k.rsc0.toNat k.rsc1.toNat (es.any (fun e => (RescEntry.ofWord e).act == 2)) || es.any (rescEntryBad k.rsc0.toNat)

/-- Table 8-8: the Solstice limits of a convolution. -/
def solConvBad (tail : Bool) (k : ConvConf) : Bool :=
  let lim := fun (n lo hi : Nat) => decide (n < lo) || decide (hi < n)
  (if tail then
    lim k.inC 1 4096 || lim k.inW 1 1024 || lim k.inH 1 1024 || lim k.kh 1 3 || lim k.kw 1 3 || lim k.sh 1 2 || lim k.sw 1 2 ||
    [k.padT, k.padL, k.padB, k.padR].any (fun p => decide (1 < p)) || lim k.outC 1 64 ||
    decide (0x200000 < k.outC * (k.kh * k.kw * k.inC)) || (RescDesc.ofWords k.rsc0.toNat 0).out == 0
  else
    lim k.inC 1 4 || lim k.inW 1 4096 || lim k.inH 1 3072 || lim k.kh 1 7 || lim k.kw 1 7 || lim k.sh 1 4 || lim k.sw 1 4 ||
    [k.padT, k.padL, k.padB, k.padR].any (fun p => decide (3 < p)) || lim k.outC 1 128 ||
    decide (0x10000 < k.outC * (k.kh * k.kw * k.inC)) || decide (2 ≤ (RescDesc.ofWords k.rsc0.toNat 0).out) ||
    decide (1 < k.inLayout))

/-- R228: the normalisation of the stem. -/
def normBad (k : SolConf) : Bool :=
  k.mean.any (fun m => bits m.toNat 23 8 == 255) ||
  k.istd.any (fun i => bits i.toNat 23 8 == 0 || decide (0x5F800000 < i.toNat % 2 ^ 31))

/-- R306 and Table 11-4: one coded-region record by itself; D runs to 32 (R302). -/
def codedBad (b : List Byte) : Bool :=
  let g := codedOf 0 b
  bits (fieldLe b 6 1) 6 2 != 0 || !allZero (sliceB b 13 3) || g.base % 32 != 0 || g.kind != 2 || decide (31 < fieldLe b 7 1)

/-- The coded-region records of a section. -/
def codedRecs (cs : List WChunk) (v sect : Nat) : List Machine.CodedRegion :=
  (recordsOf 16 (chunkBytes cs 12 v sect 255)).map (codedOf sect)

/-- Two regions overlap (R306): two records of one section, or records of two sections that do not declare the same region
(DEDUCED, log entry 109: a section may declare again the region that an earlier one has written). -/
def codedOverlap (cs : List WChunk) (v nsect : Nat) : Bool :=
  let gs := ((List.range nsect).flatMap (codedRecs cs v)).zipIdx
  let len := fun (g : Machine.CodedRegion) => ceilDiv g.ntotal 512 * segSlot g.kind * 32
  gs.any (fun a => gs.any (fun b => decide (a.2 < b.2) &&
    decide (a.1.base < b.1.base + len b.1 ∧ b.1.base < a.1.base + len a.1) &&
    (a.1.sect == b.1.sect || a.1 != { b.1 with sect := a.1.sect })))

/-- R327, R238: the thread declarations of a logical core. -/
def threadsBad (x : WVar) (b : List Byte) : Bool :=
  let ds := Config.threadDecls b
  decide (4096 < (Config.threadCode b).length) ||
  ds.any (fun d => decide (15 < d.slot) || decide (4095 < d.pc) || decide (4 < d.args.length) ||
    (d.stage != 255 && !x.stages.any (fun g => g.stage == d.stage)) ||
    decide (1 < (ds.filter (fun e => e.slot == d.slot)).length))

/-- An end code of a circuit that no unit has (Table 12-7a). -/
def endBad (h : VarHdr) (e : Nat) : Bool :=
  match e / 4096 with
  | 0 => decide (h.ncores ≤ e % 4096)
  | 1 => decide (64 ≤ e % 4096) || decide (h.ncores ≤ e % 32)
  | 2 => decide (64 ≤ e % 4096)
  | 3 => decide (5 < e % 4096)
  | 4 => decide (7 < e % 4096)
  | _ => true

/-- One circuit record. -/
def circBad (h : VarHdr) (b : List Byte) : Bool :=
  let c := WCirc.ofBytes b
  endBad h c.src || endBad h c.dst || decide (128 ≤ c.slot) || decide (128 ≤ c.hold) || decide (8 ≤ c.flags) ||
  !([1, 2, 4, 8, 16, 32, 64, 128].contains c.period) || !allZero (sliceB b 8 8)

/-- CIMG settings of a variant of more than 4 sections (R572); the direct arena is given. -/
def cimgBad (x : WVar) (img : List RunWord) (chLo chHi : Nat) : Bool :=
  let base := bits (imgWord img 0x40008) 0 30
  let stride := bits (imgWord img 0x40010) 0 30
  decide (4 < x.hdr.nsect) && (decide (stride < 0x18C00) || base % 4096 != 0 || stride % 4096 != 0 ||
    decide (base < chLo) || decide (chHi < base + (x.hdr.nsect - 1) * stride + 0x18C00))

/-- Every content check of one variant that needs no placement, in the order of its chunks: the parts of the variant,
then its images section by section and core by core (R336 step 5). -/
def contentFault (cs : List WChunk) (v chLo chHi : Nat) : Option CheckFail :=
  let x := WVar.of cs v
  let vb := chunkBytes cs 1 v 255 255
  let ix := fun (typ : Nat) => chunkIdx cs typ v 255 255
  let recs := fun (cls typ sect n : Nat) (bad : List Byte → Bool) =>
    let rs := recordsOf n (chunkBytes cs typ v sect 255)
    (rs.findIdx? bad).map (fun i => (cls, chunkIdx cs typ v sect 255, n * i))
  let sol := Config.solConf (chunkBytes cs 11 v 255 255)
  firstFail [
    failIf (variantBad vb) 13 (ix 1) 0,
    recs 13 2 255 32 (fun b => stageBad x.hdr (WStage.ofBytes b)),
    failIf (stageMapBad cs x) 13 (ix 2) 0,
    recs 13 6 255 32 (segBad cs x),
    failIf (tensorsBad cs x) 13 (chunkIdx cs 8 v 255 255) 0,
    (List.range x.hdr.nsect).findSome? (fun sc => recs 2 4 sc 16 (circBad x.hdr)),
    (List.range x.hdr.nsect).findSome? (fun sc =>
      failIf ((Config.unitGwEntries (chunkBytes cs 5 v sc 255)).any (fun e =>
        endBad x.hdr e.1 || decide (2 ≤ e.2.1) || decide (128 ≤ e.2.2.1) || gwEntryBad e.2.2.2.toNat)) 2 (chunkIdx cs 5 v sc 255) 0),
    (List.range x.hdr.nsect).findSome? (fun sc => (List.range x.hdr.ncores).findSome? (fun j => imageChecks cs x sc j)),
    (List.range x.hdr.ncores).findSome? (fun j =>
      failIf (cimgBad x ((coreImage cs v 0 j).getD []) chLo chHi) 13 (chunkIdx cs 3 v 0 j) 0),
    failIf ((bit1 x.hdr.flags 0 && convRescBad sol.stem) || (bit1 x.hdr.flags 1 && convRescBad sol.tail)) 6 (ix 11) 0,
    failIf ((bit1 x.hdr.flags 0 && (solConvBad false sol.stem || normBad sol)) ||
      (bit1 x.hdr.flags 1 && solConvBad true sol.tail)) 9 (ix 11) 0,
    (List.range x.hdr.nsect).findSome? (fun sc =>
      (failIf (decide (16 < (codedRecs cs v sc).length)) 10 (chunkIdx cs 12 v sc 255) 0).or (recs 10 12 sc 16 codedBad)),
    (List.range x.hdr.ncores).findSome? (fun j =>
      failIf ((findChunk cs 10 v 255 j).isSome && threadsBad x (chunkBytes cs 10 v 255 j)) 11 (chunkIdx cs 10 v 255 j) 0)]

/-- R336 step 4: the directory. Answers the index and the cause of Table 18-5a. -/
def directoryFault (bs : List Byte) (cs : List WChunk) : Option (Nat × Nat) :=
  let nvar := fieldLe bs 9 1
  let dir := fieldLe bs 24 8
  let fin := bs.length - 144
  let dEnd := dir + 32 * cs.length
  let bounds := cs.find? (fun c => c.off % 32 != 0 || decide (c.off < 128) || decide (fin < c.off + c.len))
  let overlap := cs.find? (fun c =>
    decide (c.off < dEnd ∧ dir < c.off + c.len) || cs.any (fun d => decide (d.idx < c.idx) && decide (c.off < d.off + d.len)))
  let crc := cs.find? (fun c => crc32c c.data != c.crc)
  let typ := cs.find? (fun c => (decide (c.typ = 0 ∨ 0x0D < c.typ) && decide (c.typ < 0x80)))
  let nsect := fun (v : Nat) => (VarHdr.ofBytes (chunkBytes cs 1 v 255 255)).nsect
  let ncores := fun (v : Nat) => (VarHdr.ofBytes (chunkBytes cs 1 v 255 255)).ncores
  let hasS := fun (t : Nat) => t == 3 || t == 4 || t == 5 || t == 12
  let hasJ := fun (t : Nat) => t == 3 || t == 10
  let range := cs.find? (fun c => decide (c.typ < 0x80) &&
    ((if c.typ = 8 ∨ c.typ = 9 then c.var != 255 else if c.typ = 7 ∧ c.var = 255 then false else decide (nvar ≤ c.var)) ||
     (if hasS c.typ then decide (nsect c.var ≤ c.sect) else c.sect != 255) ||
     (if hasJ c.typ then decide (ncores c.var ≤ c.lcore) else c.lcore != 255)))
  let missing := (List.range nvar).find? (fun v =>
    (findChunk cs 1 v 255 255).isNone || (findChunk cs 2 v 255 255).isNone || (findChunk cs 6 v 255 255).isNone ||
    (List.range (nsect v)).any (fun sc => (findChunk cs 4 v sc 255).isNone ||
      (List.range (ncores v)).any (fun j => (findChunk cs 3 v sc j).isNone)))
  match bounds, overlap, crc, typ, range, missing with
  | some c, _, _, _, _, _ => some (c.idx, 0)
  | _, some c, _, _, _, _ => some (c.idx, 1)
  | _, _, some c, _, _, _ => some (c.idx, 2)
  | _, _, _, some c, _, _ => some (c.idx, 3)
  | _, _, _, _, some c, _ => some (c.idx, 4)
  | _, _, _, _, _, some _ => some (cs.length, 5)
  | _, _, _, _, _, _ => none

end Sys2Proof
end

