-- ==== Sys2Proof/Machine/Loader.lean ====
section
/-!
DEFINITION. The loader (spec/12_weave_bitstream.md R315, R328 to R340): the checks and choices of a load, its commit and
the unload.
-/

namespace Sys2Proof.Machine

/-! ### Reading the image -/

/-- `n` bytes from a device address as they stand; the Bool says that some word is uncorrectable, poisoned or unavailable. -/
def State.peekN (s : State) (a n : Nat) : List Byte × Bool :=
  let ws := (List.range ((a + n + 31) / 32 - a / 32)).map (fun i => s.unitPeek ((a / 32 + i) * 32))
  (sliceB (ws.flatMap (fun w => w.1)) (a % 32) n, ws.any (fun w => w.2))

/-- The loader's read of `n` bytes: each word is met as a read meets it, with what the memory system reports (R274, R289). -/
def State.meetN (s : State) (a n : Nat) : State :=
  (s.meetWords ((List.range ((a + n + 31) / 32 - a / 32)).map (fun i => (a / 32 + i) * 32))).1

/-- A loader fault (Table 12-13): its code stays in LAST_CODE and it interrupts the steward core under IRQ_EN. -/
def State.loadFault (s : State) (cls code pipe : Nat) (detail : List (Nat × Nat)) : State :=
  let s1 := (s.report cls code (uLoader pipe) detail).setF Reg.WVL_STATUS_LAST_CODE code
  if s1.flag Reg.WVL_STATUS_IRQ_EN then s1.irqSteward 2 else s1

/-! ### The request (R328) -/

/-- A load request (Table 12-9). -/
structure LoadReq where
  image : Nat
  len : Nat
  variant : Nat
  start : Nat
  pipe : Nat
  exclude : Nat
  arena : Nat
  arenaSize : Nat
  chLo : Nat
  chHi : Nat
  solBase : Nat
  solSize : Nat
  reserved : Bool
  deriving DecidableEq, Repr

def LoadReq.ofBytes (b : List Byte) : LoadReq :=
  { image := fieldLe b 0 8 % 2 ^ 48, len := fieldLe b 8 8, variant := fieldLe b 16 1, start := fieldLe b 17 1,
    pipe := fieldLe b 18 1, exclude := fieldLe b 20 4, arena := fieldLe b 24 8, arenaSize := fieldLe b 32 8,
    chLo := fieldLe b 40 4, chHi := fieldLe b 44 4, solBase := fieldLe b 48 4, solSize := fieldLe b 52 4,
    reserved := fieldLe b 19 1 != 0 || fieldLe b 56 8 != 0 }

/-- The pipeline that a request loads. -/
def State.loadPipe (s : State) (r : LoadReq) : Option Nat :=
  if r.pipe = 255 then (List.range 4).find? (fun n => !s.resident n)
  else if r.pipe < 4 ∧ !s.resident r.pipe then some r.pipe else none

/-- Two areas overlap. -/
def overlaps (a b : Nat × Nat) : Bool := decide (a.1 < b.2 ∧ b.1 < a.2)

/-- The channel offsets of the bytes [a, b) of the interleaved view over `n` active channels (R273): the first block, the last one
and the whole blocks between them. -/
def arenaSpans (n a b : Nat) : List (Nat × Nat) :=
  let g := a / 256
  let h := (b - 1) / 256
  if b ≤ a ∨ n = 0 then []
  else if g = h then [(g / n * 256 + a % 256, g / n * 256 + (b - 1) % 256 + 1)]
  else [(g / n * 256 + a % 256, g / n * 256 + 256), (h / n * 256, h / n * 256 + (b - 1) % 256 + 1)] ++
    (if g + 1 < h then [((g + 1) / n * 256, (h - 1) / n * 256 + 256)] else [])

/-- An interleaved arena shares storage with a direct one, which takes its offsets in every channel (R272). -/
def State.arenaMeets (s : State) (a ch : Nat × Nat) : Bool :=
  (arenaSpans s.activeChans.length a.1 a.2).any (fun x => overlaps x ch)

/-- The first field of a request that R328 rejects (Table 18-5a). -/
def State.reqFault (s : State) (r : LoadReq) : Option Nat :=
  let res := (List.range 4).filter (fun n => s.resident n)
  if r.reserved then some 1
  else if (s.loadPipe r).isNone then some 2
  else if res.any (fun n => overlaps (r.arena, r.arena + r.arenaSize) (s.pipe n).arena ||
      overlaps (r.chLo, r.chHi) (s.pipe n).chArena ||
      s.arenaMeets (r.arena, r.arena + r.arenaSize) (s.pipe n).chArena || s.arenaMeets (s.pipe n).arena (r.chLo, r.chHi) ||
      overlaps (r.solBase, r.solBase + r.solSize) (s.pipe n).solRange) then some 3
  else if !s.committed || decide (s.activeChans.length * 0x40000000 < r.arena + r.arenaSize) then some 4
  else if r.chHi ≤ r.chLo ∨ 0x40000000 < r.chHi then some 5
  else if 0x280000 < r.solBase + r.solSize then some 6
  else none

/-! ### Placement (R330, R331) -/

/-- A core that a pipeline may take. -/
def State.candidate (s : State) (exclude c : Nat) : Bool :=
  bit1 (s.getF Reg.MGT_CORE_MASK) c && !bit1 (s.getF Reg.MGT_CORE_LOST) c && !s.corePlaced c && !bit1 exclude c &&
  s.domHolds c

/-- A candidate suits a logical core; in a variant of more than 4 sections every logical core needs both near channels
(R322). -/
def State.suits (s : State) (x : WVar) (j c : Nat) : Bool :=
  let l := if 4 < x.hdr.nsect then 3 else x.hdr.lflags.getD j 0
  let fmin := x.hdr.fmin.getD j 0
  (List.range 2).all (fun k => !bit1 l k || s.activeChans.contains (nearChan c k)) &&
  decide (fmin * s.getF (Reg.PWR_CC_CLK_EFF c) ≤ 179200) && (!s.debugMode || decide (fmin ≤ 800))

/-- The core at a position of the serpentine walk. -/
def walkCore (w : Nat) : Nat := w / 8 * 8 + (if w / 8 % 2 = 0 then w % 8 else 7 - w % 8)

/-- The placement from a walk start, when every logical core gets a core. -/
def State.placeFrom (s : State) (x : WVar) (exclude start : Nat) : Option (List Nat) :=
  let r := (List.range 32).foldl (fun (acc : List Nat) (i : Nat) =>
    let c := walkCore ((start + i) % 32)
    if acc.length < x.hdr.ncores ∧ s.candidate exclude c = true ∧ s.suits x acc.length c = true then acc ++ [c] else acc) []
  if r.length = x.hdr.ncores then some r else none

/-! ### Circuits (R323, R332) -/

/-- The quadrant and port of an end code (Table 12-7a, Table 4-5). -/
def endPort (place : List Nat) (e : Nat) : Nat × Nat :=
  let coreQ := fun (c : Nat) => c % 8 / 4 + 2 * (c / 16)
  let coreP := fun (c : Nat) => 4 * (c / 8 % 2) + c % 4
  let a := e % 4096
  match e / 4096 with
  | 0 => (coreQ (place.getD a 0), coreP (place.getD a 0))
  | 1 => let g := nearChan (place.getD (a % 32) 0) (a / 32 % 2); (g / 16, 8 + g % 16)
  | 2 => (a / 16 % 4, 8 + a % 16)
  | 3 => match a with
    | 0 => (0, 38)
    | 1 => (0, 39)
    | 2 => (1, 38)
    | 3 => (1, 39)
    | 4 => (2, 38)
    | _ => (2, 39)
  | _ => (a / 2 % 4, 36 + a % 2)

/-- One hop of a circuit: a table entry field at a quadrant, port and slot residue. -/
structure Hop where
  q : Nat
  port : Nat
  slot : Nat
  period : Nat
  /-- a hold route, else a data route -/
  hold : Bool
  src : Nat
  deriving DecidableEq, Repr

/-- The trunk port of lane `lane` from quadrant `a` toward `b` (Table 4-5). -/
def trunkPort (a b lane : Nat) : Nat := 20 + 4 * (a ^^^ b) + lane

/-- The hops of a circuit after placement and rotation. -/
def circHops (c : WCirc) (place : List Nat) (rot : Nat) : List Hop :=
  let r := if bit1 c.flags 2 then 0 else rot
  let lane := c.flags % 4
  let a := endPort place c.src
  let b := endPort place c.dst
  let s0 := (c.slot + r) % 128 % c.period
  let h0 := (c.hold + r) % 128 % c.period
  let p := c.period
  if a.1 = b.1 then
    [⟨a.1, b.2, s0, p, false, a.2⟩, ⟨a.1, a.2, h0, p, true, b.2⟩]
  else
    let ta := trunkPort a.1 b.1 lane
    let tb := trunkPort b.1 a.1 lane
    [⟨a.1, ta, s0, p, false, a.2⟩, ⟨b.1, b.2, (s0 + 7) % p, p, false, tb⟩,
     ⟨b.1, tb, h0, p, true, b.2⟩, ⟨a.1, a.2, (h0 + 7) % p, p, true, ta⟩]

/-- The slots of a hop. -/
def Hop.slots (h : Hop) : List Nat := (List.range (128 / max 1 h.period)).map (fun i => h.slot + i * h.period)

/-- The hops of a section of a variant. -/
def sectHops (cs : List WChunk) (v sect : Nat) (place : List Nat) (rot : Nat) : List Hop :=
  (WVar.circuits cs v sect).flatMap (fun c => circHops c place rot)

/-- A spine port that the grade populates (R103): of cores that are not fused off and of present stacks. -/
def State.portThere (s : State) (q port : Nat) : Bool :=
  if port < 8 then bit1 (s.getF Reg.MGT_CORE_MASK) (coreAt q port)
  else if port < 24 then decide (s.getF Reg.MGT_REVID_GRADE < 2 ∨ q < 2)
  else !(port == 39 && q == 3) && !(port == 38 && q == 3)

/-- Hops of one section agree with R106: one source per output and slot, and one output per input and slot. -/
def hopsAgree (hs : List Hop) : Bool :=
  hs.all (fun a => hs.all (fun b => a == b || a.hold != b.hold || a.q != b.q ||
    !((a.port == b.port) || (a.src == b.src)) || a.slots.all (fun x => !b.slots.contains x)))

/-- Owned slots on a link port of one kind (R407). -/
def linkLoad (hs : List Hop) (q port : Nat) (hold : Bool) : Nat :=
  (((hs.filter (fun h => h.q == q && h.port == port && h.hold == hold)).flatMap Hop.slots).eraseDups).length

/-- A link port of the device would carry more than 32 owned slots for data or for hold, with those of the resident pipelines (R407). -/
def State.linksFull (s : State) (cs : List WChunk) (x : WVar) (place : List Nat) (rot : Nat) : Bool :=
  let hs := (List.range x.hdr.nsect).flatMap (fun sc => sectHops cs x.v sc place rot)
  (List.range 4).any (fun q => [36, 37].any (fun port => [(false, 0), (true, 6)].any (fun b =>
    decide (32 < linkLoad hs q port b.1 + ((List.range 128).filter (fun k =>
      bit1 (s.spineWord q port 0 k) 14 && [0, 1, 2, 3].any (fun bank => bits (s.spineWord q port bank k) b.2 6 != 0x3F))).length))))

/-- A rotation passes (R332). -/
def State.rotOk (s : State) (cs : List WChunk) (x : WVar) (place : List Nat) (rot : Nat) : Bool :=
  let sects := (List.range x.hdr.nsect).map (fun sc => sectHops cs x.v sc place rot)
  sects.all (fun hs => hopsAgree hs && hs.all (fun h => !h.slots.contains 127 && s.portThere h.q h.port &&
    (h.src == 63 || s.portThere h.q h.src) && h.slots.all (fun k => (s.slotOwner h.q h.port k).isNone)))

/-! ### Allocation (R333) -/

/-- Round up to a multiple of a power of two. -/
def alignUp (a k : Nat) : Nat := ceilDiv a (2 ^ k) * 2 ^ k

/-- Segments with their places: device addresses, or offsets in Solstice weight memory. -/
structure Alloc where
  /-- segment number, address, and channel offset of a NEAR segment -/
  segs : List (Nat × Nat × Nat) := []
  inter : Nat
  /-- next offset per global channel -/
  chan : List (Nat × Nat) := []
  sol : Nat
  ok : Bool := true
  deriving DecidableEq, Repr

/-- Place one segment. -/
def Alloc.add (r : LoadJob) (al : Alloc) (g : WSeg) : Alloc :=
  if g.place = 0 then
    let a := alignUp al.inter g.align
    { al with segs := al.segs ++ [(g.id, a, 0)], inter := a + g.size, ok := al.ok && decide (a + g.size ≤ r.arena + r.arenaSize) }
  else if g.place = 1 then
    let ch := nearChan (r.place.getD (g.near % 32) 0) (g.near / 32)
    let a := alignUp (SMap.get (fun _ => r.chLo) al.chan ch) g.align
    { al with segs := al.segs ++ [(g.id, 0x1000000000 + ch * 0x40000000 + a, a)],
              chan := SMap.put (fun _ => r.chLo) al.chan ch (a + g.size), ok := al.ok && decide (a + g.size ≤ r.chHi) }
  else
    let a := alignUp al.sol g.align
    { al with segs := al.segs ++ [(g.id, a, 0)], sol := a + g.size, ok := al.ok && decide (a + g.size ≤ r.solBase + r.solSize) }

/-- The bytes of the spine images of a variant of more than 4 sections: its owned entries of 8 bytes each, section by
section (R323; DESIGN CHOICE, log entry 36). -/
def spineImgSize (cs : List WChunk) (x : WVar) (r : LoadJob) : Nat :=
  if x.hdr.nsect ≤ 4 then 0
  else ((List.range x.hdr.nsect).map (fun sc =>
    ceilDiv (8 * ((sectHops cs x.v sc r.place r.rot).flatMap Hop.slots).length) 32 * 32)).foldl (· + ·) 0

/-- Insert a segment in ascending SEG_ID. -/
def insSeg (g : WSeg) : List WSeg → List WSeg
  | [] => [g]
  | h :: t => if g.id ≤ h.id then g :: h :: t else h :: insSeg g t

/-- Allocate every segment of a variant in ascending SEG_ID, then its spine images. -/
def allocate (cs : List WChunk) (x : WVar) (r : LoadJob) : Alloc :=
  let al := (x.segs.foldl (fun (l : List WSeg) (g : WSeg) => insSeg g l) []).foldl (Alloc.add r)
    { inter := r.arena, sol := r.solBase }
  let e := alignUp al.inter 5 + spineImgSize cs x r
  { al with ok := al.ok && (spineImgSize cs x r == 0 || decide (e ≤ r.arena + r.arenaSize)) }

/-! ### Choice (R334) -/

/-- The Solstice engine is there for a variant that uses it. -/
def State.solThere (s : State) (x : WVar) : Bool := x.hdr.flags % 8 == 0 || (!s.sol.lost && s.domHolds 32)

/-- Try one variant at one start: the job, or the step that failed: 0 placement, 1 rotation, 2 allocation. -/
def State.tryStart (s : State) (cs : List WChunk) (x : WVar) (r : LoadReq) (pipe start : Nat) (quosk : Bool) :
    Nat ⊕ LoadJob :=
  match s.placeFrom x r.exclude start with
  | none => .inl 0
  | some pl =>
    match (List.range (if quosk then 1 else 128)).find? (fun rot => s.rotOk cs x pl rot) with
    | none => .inl 1
    | some rot =>
      let job : LoadJob :=
        { pipe := pipe, image := r.image, len := r.len, variant := x.v, start := start, rot := rot,
          place := pl, arena := r.arena, arenaSize := r.arenaSize, chLo := r.chLo, chHi := r.chHi,
          solBase := r.solBase, solSize := r.solSize }
      if (allocate cs x job).ok then .inr job else .inl 2

/-- Insert a variant in descending NCORES, ties in ascending index. -/
def insVar (x : WVar) : List WVar → List WVar
  | [] => [x]
  | y :: t => if y.hdr.ncores < x.hdr.ncores then x :: y :: t else y :: insVar x t

/-- The first variant and start that fit, or the last variant tried and its failing step. -/
def State.chooseLoad (s : State) (bs : List Byte) (cs : List WChunk) (r : LoadReq) (pipe : Nat) : (Nat × Nat) ⊕ LoadJob :=
  let quosk := bit1 (fieldLe bs 10 1) 1
  let all := if r.variant = 255 then
      ((List.range (fieldLe bs 9 1)).map (WVar.of cs)).foldl (fun (l : List WVar) (x : WVar) => insVar x l) []
    else if r.variant < fieldLe bs 9 1 then [WVar.of cs r.variant] else []
  let starts := if r.start < 32 then [r.start] else List.range 32
  ((all.filter s.solThere).flatMap (fun x => starts.map (fun st => (x, st)))).foldl
    (fun (acc : (Nat × Nat) ⊕ LoadJob) (y : WVar × Nat) =>
      match acc with
      | .inr j => .inr j
      | .inl _ =>
        match s.tryStart cs y.1 r pipe y.2 quosk with
        | .inl step => .inl (y.1.v, step)
        | .inr j => .inr j) (.inl (r.variant % 16, 0))

/-! ### Patches (R335) -/

/-- The base of a patch (Table 12-11). -/
def patchBase (dev : Nat) (al : Alloc) (r : LoadJob) (kind arg : Nat) : Int :=
  let seg := (al.segs.find? (fun e => e.1 == arg)).getD (0, 0, 0)
  match kind with
  | 0 => (seg.2.1 : Int)
  | 1 => (seg.2.2 : Int)
  | 2 => ((r.place.getD (arg % 32) 0 : Nat) : Int)
  | 3 => ((nearChan (r.place.getD (arg % 32) 0) (arg / 32 % 2) : Nat) : Int)
  | 4 => (r.pipe : Int)
  | 5 => (dev : Int)
  | 6 => ((dev * 2 ^ 48 + seg.2.1 : Nat) : Int)
  | _ => (r.rot : Int)

/-- The bits that a patch record writes: chunk, first bit of the chunk and width. -/
def patchBits (b : List Byte) : Nat × Nat × Nat := (fieldLe b 0 2, 8 * fieldLe b 2 4 + fieldLe b 6 1, fieldLe b 7 1)

/-- The value v of a patch record (R335). -/
def patchVal (dev : Nat) (al : Alloc) (r : LoadJob) (b : List Byte) : Int :=
  let add := sint 32 (fieldLe b 12 4)
  let base := patchBase dev al r (fieldLe b 8 1) (fieldLe b 10 2)
  if fieldLe b 8 1 = 7 then (base + add) % 128 else base + add

/-- A patch record is invalid beside the others of its chunk. -/
def patchBad (dev : Nat) (cs : List WChunk) (al : Alloc) (r : LoadJob) (all : List (List Byte)) (i : Nat) : Bool :=
  let b := all.getD i []
  let v := patchVal dev al r b
  let sh := fieldLe b 9 1
  let w := fieldLe b 7 1
  let pb := patchBits b
  let len := ((cs.find? (fun c => c.idx == pb.1)).map (fun c => c.len)).getD 0
  decide (v < 0) || decide (31 < sh) || decide (7 < fieldLe b 8 1) || (fieldLe b 8 1 == 7 && sh != 0) ||
  v % ((2 ^ sh : Nat) : Int) != 0 || decide ((2 ^ (sh + w) : Nat) ≤ v) || w == 0 || decide (64 < fieldLe b 6 1 + w) ||
  fieldLe b 2 4 % 8 != 0 || decide (len < fieldLe b 2 4 + 8) ||
  (List.range all.length).any (fun k => decide (k < i) &&
    (let p := patchBits (all.getD k []); p.1 == pb.1 && decide (p.2.1 < pb.2.1 + pb.2.2) && decide (pb.2.1 < p.2.1 + p.2.2)))

/-- Apply one patch record to the chunks. -/
def applyPatch (dev : Nat) (al : Alloc) (r : LoadJob) (cs : List WChunk) (b : List Byte) : List WChunk :=
  let v := (patchVal dev al r b).toNat / 2 ^ fieldLe b 9 1
  let o := fieldLe b 2 4
  cs.map (fun c => if c.idx = fieldLe b 0 2 then
      { c with data := c.data.take o ++
          leBytes 8 (insField (BitVec.ofNat 64 (fieldLe c.data o 8)) (fieldLe b 6 1) (fieldLe b 7 1) v).toNat ++
          c.data.drop (o + 8) }
    else c)

/-- The patch records of a variant. -/
def patchesOf (cs : List WChunk) (v : Nat) : List (List Byte) := recordsOf 16 (chunkBytes cs 13 v 255 255)

/-- The chunks after every patch. -/
def patched (dev : Nat) (al : Alloc) (r : LoadJob) (cs : List WChunk) : List WChunk :=
  (patchesOf cs r.variant).foldl (applyPatch dev al r) cs

/-! ### Release counts (R214) -/

/-- The input rows that a stream reads, as in R214: lo, and hi + 1. -/
def streamRows (w : Nat → Nat) (rows : Nat) : Nat × Nat :=
  let d : Int → Nat := Int.toNat
  let sh : Int := ((bits (w 0) 28 3 + 1 : Nat) : Int)
  let pt : Int := ((bits (w 0) 40 4 : Nat) : Int)
  let first : Int := ((bits (w 1) 0 16 : Nat) : Int)
  let count : Int := ((bits (w 1) 16 16 : Nat) : Int)
  let lo := first * sh - pt
  let hi := (first + count - 1) * sh - pt + ((((bits (w 0) 20 4 - 1) * (bits (w 0) 34 3 + 1) : Nat) : Nat) : Int)
  (d lo, d (min hi ((rows : Int) - 1) + 1))

/-- The release count of band `b` of row buffer `k` of the core placed as `j`, in a section: streams of any core of the
variant whose SRC is that core and whose BUF is `k`. -/
def releaseCount (imgs : List (List RunWord)) (core k b : Nat) (w0 w1 : Nat) : Nat :=
  let rows := bits w1 22 16
  let first := b * bits w0 48 8
  let last := min (first + bits w0 48 8 - 1) (rows - 1)
  (imgs.flatMap (fun img => (List.range 8).filter (fun e =>
    let w := fun (i : Nat) => imgWord img (0x30200 + 32 * e + 8 * i)
    let r := streamRows w rows
    bit1 (w 0) 63 && bits (w 0) 0 6 == core && bits (w 0) 6 3 == k && decide (r.1 ≤ last) && decide (first < r.2)))).length

/-- A release-count byte: logical core, offset in its store, computed count, byte of the Weave, and the place of that byte in its
chunk, which tells row buffer and band (Table 13-5). -/
structure RcByte where
  j : Nat
  off : Nat
  count : Nat
  given : Nat
  pos : Nat
  deriving DecidableEq, Repr

/-- The release-count bytes of a section. -/
def releaseBytes (cs : List WChunk) (x : WVar) (r : LoadJob) (sect : Nat) : List RcByte :=
  let imgs := (List.range x.hdr.ncores).map (fun j => (coreImage cs x.v sect j).getD [])
  imgs.zipIdx.flatMap (fun im => (List.range 8).flatMap (fun k =>
    let w0 := imgWord im.1 (0x30100 + 16 * k)
    let w1 := imgWord im.1 (0x30108 + 16 * k)
    if w0 = 0 ∧ w1 = 0 then []
    else
      (List.range (ceilDiv (bits w1 22 16) (max 1 (bits w0 48 8)))).map (fun b =>
        { j := im.2, off := bits w1 0 22 + b, count := releaseCount imgs (r.place.getD im.2 0) k b w0 w1,
          given := (Config.storeByte (chunkBytes cs 3 x.v sect im.2) (bits w1 0 22 + b)).toNat,
          pos := Config.storePos (chunkBytes cs 3 x.v sect im.2) (bits w1 0 22 + b) })))

/-- A byte that differs from its count, or a count of 0 or above 255 (R214): the failure to report. -/
def releaseFault (cs : List WChunk) (x : WVar) (r : LoadJob) : Option CheckFail :=
  (List.range x.hdr.nsect).findSome? (fun sc =>
    ((releaseBytes cs x r sc).find? (fun e => e.count == 0 || decide (255 < e.count) || e.given != e.count)).map (fun e =>
      (8, chunkIdx cs 3 x.v sc e.j, e.pos)))

/-- The checks that need placed and patched fields (DEDUCED, log entry 25): a stream stands on the core that its SRC names (R215),
reload images lie in the direct arena (R572), and coded regions do not overlap (R306). -/
def patchedFault (cs : List WChunk) (x : WVar) (r : LoadJob) : Option CheckFail :=
  ((List.range x.hdr.nsect).findSome? (fun sc => (List.range x.hdr.ncores).findSome? (fun j =>
    let img := (coreImage cs x.v sc j).getD []
    ((List.range 8).find? (fun e =>
      let w := imgWord img (0x30200 + 32 * e)
      bit1 w 63 && bits w 0 6 != 63 && bits w 0 6 != r.place.getD j 0)).map (fun e =>
        (7, chunkIdx cs 3 x.v sc j, imgPos img (0x30200 + 32 * e)))))).or
  (((List.range x.hdr.ncores).findSome? (fun j =>
    failIf (cimgBad x ((coreImage cs x.v 0 j).getD []) r.chLo r.chHi) 13 (chunkIdx cs 3 x.v 0 j) 0)).or
  (failIf (codedOverlap cs x.v x.hdr.nsect) 10 (chunkIdx cs 12 x.v 0 255) 0))

/-! ### GO (R315, R336) -/

/-- R336 steps 2 to 8 over the bytes of an image whose request stands: the fault to raise, or the job. -/
def State.checkImage (s : State) (bs : List Byte) (r : LoadReq) (pipe : Nat) : (Nat × List (Nat × Nat)) ⊕ LoadJob :=
  let trailer := bs.drop (bs.length - 144)
  match headerFault bs r.len (s.getF Reg.MGT_REVID_STEP) s.debugMode with
  | some f => .inl (0x702, [(16, f)])
  | none =>
    match signatureFault (bs.take (bs.length - 144)) trailer 4 (s.getF Reg.MGT_OTP_STAT_WV_PROG)
        (s.getF Reg.MGT_OTP_STAT_WV_REVOKED) (fun k => SMap.get (fun _ => []) s.otp.digest (4 + k)) with
    | some c => .inl (0x703, [(4, fieldLe trailer 128 1), (4, c)])
    | none =>
      let cs := wChunks bs
      match directoryFault bs cs with
      | some (i, c) => .inl (0x704, [(16, i), (4, c)])
      | none =>
        match (List.range (fieldLe bs 9 1)).findSome? (fun v => (contentFault cs v r.chLo r.chHi).map (fun f => (v, f))) with
        | some (v, f) => .inl (0x706, [(4, v), (4, f.1), (16, f.2.1), (32, f.2.2)])
        | none =>
          match s.chooseLoad bs cs r pipe with
          | .inl f => .inl (0x705, [(4, f.1), (4, f.2)])
          | .inr job =>
            let x := WVar.of cs job.variant
            let al := allocate cs x job
            let dev := s.getF Reg.MGT_DEVNUM
            let ps := patchesOf cs job.variant
            match (List.range ps.length).find? (patchBad dev cs al job ps) with
            | some i => .inl (0x707, [(16, chunkIdx cs 13 job.variant 255 255), (16, i)])
            | none =>
              let cp := patched dev al job cs
              let xp := WVar.of cp job.variant
              match ((failIf (s.linksFull cs x job.place job.rot) 2 (chunkIdx cs 4 job.variant 0 255) 0).or (patchedFault cp xp job)).or
                  (releaseFault cp xp job) with
              | some f => .inl (0x706, [(4, job.variant), (4, f.1), (16, f.2.1), (32, f.2.2)])
              | none => .inr job

/-- Start the load that a request asks for (R328, R336). -/
def State.startRequest (s : State) (r : LoadReq) : State :=
  let n := (s.loadPipe r).getD (if r.pipe < 4 then r.pipe else 0)
  match s.reqFault r with
  | some f => s.loadFault 0 0x701 n [(4, f)]
  | none =>
    let s1 := s.meetN r.image r.len
    match s1.checkImage (s1.peekN r.image r.len).1 r n with
    | .inl f => s1.loadFault 0 f.1 n f.2
    | .inr job => (s1.setLoad (some job)).setF Reg.WVL_STATUS_BUSY 1

/-- Start a load from the request in memory (R315). -/
def State.startLoad (s : State) : State :=
  let a := s.getF Reg.WVL_REQ_ADDR / 32 * 32
  let s1 := s.meetN a 64
  s1.startRequest (LoadReq.ofBytes (s1.peekN a 64).1)

/-- A write of WVL_CTL: GO (R315). -/
def State.writeWvlCtl (w : WriteReq) (s : State) : State :=
  if wBit w Reg.WVL_CTL_GO then
    match s.load with
    | some j => s.loadFault 0 0x701 j.pipe [(4, 0)]
    | none => s.startLoad
  else s

/-- WVL_GO: a write of WVL_CTL with GO. -/
def execWvlGo (w : WriteReq) (s : State) : Out :=
  .next (s.gatedAct w.agent w.half Reg.WVL_CTL_GO.off (State.writeWvlCtl w))

/-! ### The commit (R337, R338) -/

/-- The chunks that a commit step reads for the second time. R337 reads them all, and says of no chunk in which step (DESIGN CHOICE, log
entry 55). -/
def stepTypes (step : Nat) : List Nat :=
  match step with
  | 2 => [6, 7, 13]
  | 3 => [3]
  | 4 => [1, 2]
  | 5 => [11]
  | 6 => [8, 9, 12]
  | 7 => [4, 5]
  | 8 => [10]
  | _ => []

/-- A placed core is OFF, GATED or lost (R338). -/
def State.placeGone (s : State) (r : LoadJob) : Bool :=
  r.place.any (fun c => !s.domHolds c || bit1 (s.getF Reg.MGT_CORE_LOST) c)

/-- Why a commit stops at a step, if it does: a failed CRC, a bad image word, or a core gone (R338). -/
def State.stepFault (s : State) (cs : List WChunk) (r : LoadJob) (step : Nat) : Option Nat :=
  let mine := cs.filter (fun c => (stepTypes step).contains c.typ && (c.var == r.variant || c.var == 255))
  if mine.any (fun c => crc32c c.data != c.crc) then some 0
  else if mine.any (fun c => (s.peekN (r.image + c.off) c.len).2) then some 1
  else if s.placeGone r then some 2
  else none

/-- A stage that takes banks, ratios or folds from the scale unit, or is a path of the Solstice engine (R235). -/
def stageNeedsSol (cs : List WChunk) (x : WVar) (g : WStage) : Bool :=
  g.kind == 3 || g.kind == 4 ||
  (List.range x.hdr.ncores).any (fun j => bit1 g.cores j &&
    (let img := (coreImage cs x.v g.sect j).getD []
     (g.kind == 1 && img.any (fun w => decide (0x30300 ≤ w.off ∧ w.off < 0x30380) && w.off % 16 == 0 && descScales w.val)) ||
     (imgTiles img).any (fun t =>
       let ctl := imgWord img (t * 0x300)
       bit1 ctl 47 && bits ctl 48 8 == g.stage && (descScales (imgWord img (0x30300 + 16 * bits ctl 44 3)) ||
         (List.range (bits ctl 0 4 + 1)).any (fun i => bits (imgWord img (t * 0x300 + 0x20 + 8 * i)) 0 6 == 0x12)))))

/-- The rescale descriptors and entries of a variant that make fixed-scale tensors (R163): of tiles and depthwise paths, and of the
Solstice paths. -/
def fixedOuts (cs : List WChunk) (x : WVar) : List (RescDesc × List RescEntry) :=
  let conv := fun (on : Bool) (k : ConvConf) =>
    if on then [(RescDesc.ofWords k.rsc0.toNat k.rsc1.toNat, k.entries.map (fun e => RescEntry.ofWord e.toNat))] else []
  let sol := Config.solConf (chunkBytes cs 11 x.v 255 255)
  (((List.range x.hdr.nsect).flatMap (fun sc => (List.range x.hdr.ncores).flatMap (fun j =>
    let img := (coreImage cs x.v sc j).getD []
    (List.range 8).map (fun k =>
      let w := imgWord img (0x30300 + 16 * k)
      (RescDesc.ofWords w (imgWord img (0x30308 + 16 * k)),
       ((imgTiles img).filter (fun t => bit1 (imgWord img (t * 0x300)) 47 && bits (imgWord img (t * 0x300)) 44 3 == k)).flatMap
         (fun t => (imgEntries img t w (imgWord img (t * 0x300 + 0x10))).map RescEntry.ofWord) ++
       (if (dwCands img).contains k then (dwEntries (chunkBytes cs 3 x.v sc j) img).map RescEntry.ofWord else []))))) ++
    conv (bit1 x.hdr.flags 0) sol.stem ++ conv (bit1 x.hdr.flags 1) sol.tail).filter (fun e => e.1.out == 1 && e.1.sFixed != 0))

/-- The zero point of a fixed-scale tensor: the ZP that all its entries state, when they agree (Table 6-4). -/
def fixedZps (fs : List (RescDesc × List RescEntry)) : List (Nat × Nat) :=
  ((fs.map (fun e => e.1.outT)).eraseDups).filterMap (fun t =>
    let zs := ((fs.filter (fun e => e.1.outT == t)).flatMap (fun e => e.2.map (fun x => x.zp))).eraseDups
    match zs with | [z] => some (t, z) | _ => none)

/-- The stage records of a variant with physical cores. -/
def stageRecs (cs : List WChunk) (x : WVar) (r : LoadJob) : List StageRec :=
  x.stages.map (fun g =>
    { stage := g.stage, kind := g.kind, sect := g.sect, seqCore := r.place.getD g.seqCore 0, seq := g.seq,
      retallyMax := g.retallyMax, minMhz := g.minMhz, workOff := g.workOff, dR := g.dR, outCount := g.outCount,
      reorderBase := g.reorderBase, reorderLen := g.reorderLen,
      cores := ((List.range x.hdr.ncores).filter (fun j => bit1 g.cores j)).map (fun j => r.place.getD j 0)
      needsSol := stageNeedsSol cs x g })

/-- The circuits of all sections of a variant, by the ports that they cross and the cores at their ends. -/
def circRecs (cs : List WChunk) (x : WVar) (r : LoadJob) : List CircRec :=
  ((List.range x.hdr.nsect).flatMap (WVar.circuits cs x.v)).map (fun c =>
    { ports := ((circHops c r.place r.rot).flatMap (fun h => [h.q * 40 + h.port, h.q * 40 + h.src])).eraseDups,
      cores := [endPort r.place c.src, endPort r.place c.dst].filterMap (fun e =>
        if e.2 < 8 then some (coreAt e.1 e.2) else none) })

/-- PWR_SOL_FLOOR: the largest contribution among resident pipelines (R494), which the cap of a throttle does not pass (R498). -/
def State.settleSolFloor (s : State) : State :=
  (s.setF Reg.PWR_SOL_FLOOR (maxOf (((List.range 4).filter (fun n => s.resident n)).map (fun n => (s.pipe n).solFloor)))).retune 32

/-- Step 1: claim the cores, the slots and the arenas, and set STATE to LOADING. `cs` are the patched chunks, `al` the allocation
and `hops` the hops that the choice of the load has settled. -/
def State.commitClaim (s : State) (bs : List Byte) (cs : List WChunk) (x : WVar) (r : LoadJob) (al : Alloc) (hops : List Hop) :
    State :=
  let seg := fun (role : Nat) => (x.segs.find? (fun g => g.role == role)).map (fun g =>
    (((al.segs.find? (fun e => e.1 == g.id)).map (fun e => e.2.1)).getD 0, g.size))
  let sol := Config.solConf (chunkBytes cs 11 x.v 255 255)
  let ports := hops.flatMap (fun h => [(h.q, h.port), (h.q, h.src)])
  let p : Pipe :=
    { usesStem := bit1 x.hdr.flags 0, usesTail := bit1 x.hdr.flags 1, usesScale := bit1 x.hdr.flags 2,
      quosk := bit1 (fieldLe bs 10 1) 1, nsect := x.hdr.nsect, stages := stageRecs cs x r,
      tensors := (recordsOf 16 (chunkBytes cs 8 x.v 255 255)).map tensorOf,
      fixedS := ((fixedOuts cs x).map (fun e => (e.1.outT, BitVec.ofNat 32 e.1.sFixed))).eraseDups,
      fixedZ := fixedZps (fixedOuts cs x),
      io := ioOf cs, tbase := ((seg 1).map (fun e => e.1)).getD 0,
      outBase := ((seg 2).map (fun e => e.1)).getD 0, outBank := ((seg 2).map (fun e => e.2 / 8)).getD 0,
      arena := (r.arena, r.arena + r.arenaSize), chArena := (r.chLo, r.chHi), solRange := (r.solBase, r.solBase + r.solSize),
      chans := ((ports.filter (fun p => decide (8 ≤ p.2 ∧ p.2 < 24))).map (fun p => 16 * p.1 + p.2 - 8)).eraseDups,
      links := ((ports.filter (fun p => p.2 == 36 || p.2 == 37)).map (fun p => 2 * p.1 + p.2 - 36)).eraseDups,
      circs := circRecs cs x r,
      sol := sol,
      coded := (List.range x.hdr.nsect).flatMap (codedRecs cs x.v),
      solFloor := maxOf ((x.stages.filter (fun g => g.kind == 3 || g.kind == 4)).map (fun g => g.minMhz)),
      place := r.place, unloadDue := (s.pipe r.pipe).unloadDue,
      frames := (s.pipe r.pipe).frames.filter (fun f => f.recPend), nextId := (s.pipe r.pipe).nextId }
  let s1 := ((s.putPipe r.pipe p).setF (Reg.WVL_PIPE_STATE r.pipe) 1).settleSolFloor
  let claimed := p.chans.foldl (fun s g => s.tgAbort g) s1
  -- an owned, idle entry in every bank of every claimed slot
  (hops.flatMap (fun h => h.slots.map (fun k => (h.q * 40 + h.port, k)))).eraseDups.foldl (fun s e =>
    (List.range 4).foldl (fun (s : State) (b : Nat) =>
      s.setSpine (SMap.put (fun _ => 0#32) s.spine (spineKey e.1 b e.2) (idleEntry r.pipe))) s) claimed

/-- Step 2: the segments with INIT ZERO or DATA, those of the Solstice engine in its weight memory (R325); the Bool says that a write completed UNAVAILABLE. -/
def State.commitSegs (s : State) (cs : List WChunk) (x : WVar) (al : Alloc) : State × Bool :=
  x.segs.foldl (fun (acc : State × Bool) (g : WSeg) =>
    let a := ((al.segs.find? (fun e => e.1 == g.id)).map (fun e => e.2.1)).getD 0
    let data := if g.init = 1 then sliceB (((cs.find? (fun c => c.idx == g.dataChunk)).map (fun c => c.data)).getD []) 0 g.dataLen
      else []
    if g.init = 2 then acc
    else if g.place = 2 then
      (acc.1.setSol { acc.1.sol with
        wmem := data.zipIdx.foldl (fun m b => SMap.put (fun _ => 0#8) m (a + b.2) b.1)
          (SMap.drop (fun k => decide (a ≤ k ∧ k < a + g.size)) acc.1.sol.wmem)
        wecc := SMap.drop (fun k => decide (a ≤ k ∧ k < a + g.size)) acc.1.sol.wecc }, acc.2)
    else
      let q := acc.1.unitWriteN (ceilDiv g.size 32) a data
      (q.1, acc.2 || q.2)) (s, false)

/-- The smallest WORK_OFF of the stages of a section that hold a core, all ones when there is none (R321). -/
def wakeOff (x : WVar) (sect j : Nat) : Nat :=
  match (x.stages.filter (fun g => g.sect == sect && bit1 g.cores j)).map (fun g => g.workOff) with
  | [] => 0xFFFFFFFF
  | w :: ws => minOr w ws

/-- The reload image of a section on a logical core as bytes (R572). -/
def imageBytes (cs : List WChunk) (x : WVar) (r : LoadJob) (sect j : Nat) : List Byte :=
  let img := (coreImage cs x.v sect j).getD []
  (List.range (0x31800 / 8)).flatMap (fun i =>
    leBytes 8 (if 8 * i = 0x30010 then wakeOff x sect j
      else if 0x31000 ≤ 8 * i then
        let bank := (8 * i - 0x31000) / 0x400
        let sl := (8 * i - 0x31000) % 0x400 / 8
        imgWord img (0x31000 + bank * 0x400 + 8 * ((sl + 128 - r.rot) % 128))
      else imgWord img (8 * i)))

/-- The runs of an image that lie in a context slot, into a core's window. -/
def State.commitRuns (s : State) (c : Nat) (bs : List Byte) : State :=
  ((runWords bs.length bs 0).getD []).foldl (fun s w =>
    if w.off < 0xC8000 ∨ 0xD0000 ≤ w.off then s.imageWord (0x1000000 + 0x100000 * c + w.off) (BitVec.ofNat 64 w.val) else s) s

/-- A core starts in section 0; its reload unit runs when the pipeline has more sections than context slots. -/
def State.commitActive (s : State) (nsect c : Nat) : State :=
  let ctl := (s.setF (Reg.CC_CTX_STAT_ACTIVE c) 0).setF (Reg.CC_CTX_STAT_SECTION c) 0
  if nsect ≤ 4 then ctl.setF (Reg.CC_CIMG_CTL_EN c) 0
  else (ctl.setF (Reg.CC_CIMG_CTL_EN c) 1).setF (Reg.CC_CIMG_CTL_NSECT c) nsect

/-- `2 n` words into a core's two near channels, half in each; the Bool says that some write completed UNAVAILABLE. -/
def State.writeNear (n : Nat) (s : State) (c off : Nat) (bs : List Byte) : State × Bool :=
  let a := s.unitWriteN n (hbmKey (nearChan c 0) off) (bs.take (32 * n))
  let b := a.1.unitWriteN n (hbmKey (nearChan c 1) off) (bs.drop (32 * n))
  (b.1, a.2 || b.2)

/-- One reload image, half in each near channel (R572). -/
def State.writeReload (s : State) (c off : Nat) (bs : List Byte) : State × Bool := State.writeNear (imageWords c) s c off bs

/-- Writes made in turn; the Bool says that one of them completed UNAVAILABLE. -/
def writeAll {α : Type} (f : State → α → State × Bool) (l : List α) (p : State × Bool) : State × Bool :=
  l.foldl (fun acc x => ((f acc.1 x).1, acc.2 || (f acc.1 x).2)) p

/-- The reload images of one instance. -/
def State.commitReload (s : State) (cs : List WChunk) (x : WVar) (r : LoadJob) (c i : Nat) : State × Bool :=
  writeAll (fun s sc => s.writeReload c (s.getF (Reg.CC_CIMG_BASE c) + sc * s.getF (Reg.CC_CIMG_STRIDE c))
    (imageBytes cs x r sc i)) (List.range x.hdr.nsect) (s, false)

/-- An offset of a core's window lies in a slot table of a tile or in a gateway table (Table 23-1, Table 23-2). -/
def inTables (o : Nat) : Bool :=
  (decide (o < 0xC0000) && decide (0x180 ≤ o % 0x300 ∧ o % 0x300 < 0x280)) || decide (0xC8000 ≤ o ∧ o < 0xCA000)

/-- A load clears the tables of its cores (R117; DEDUCED, log entry 25: before it writes the images). -/
def State.clearTables (s : State) (r : LoadJob) : State :=
  s.setRegs (SMap.drop (fun k => r.place.any (fun c =>
    decide (0x1000000 + 0x100000 * c ≤ k) && inTables (k - (0x1000000 + 0x100000 * c)))) s.regs)

/-- What a section's image puts into the stores of its cores: release counts and depthwise channel records (R322). -/
def State.commitStores (s : State) (cs : List WChunk) (x : WVar) (r : LoadJob) (sect : Nat) : State :=
  let s1 := (releaseBytes cs x r sect).foldl (fun (s : State) e =>
    (s.storePut (r.place.getD e.j 0) e.off 0 [BitVec.ofNat 8 e.count]).1) s
  r.place.zipIdx.foldl (fun (s : State) c =>
    let img := (coreImage cs x.v sect c.2).getD []
    let base := bits (imgWord img 0x30380) 36 22
    let n := 64 * bits (imgWord img 0x30388) 0 16
    if bit1 (imgWord img 0x30388) 48 then
      (s.storePut c.1 base 0 ((List.range n).map (fun i =>
        Config.storeByte (chunkBytes cs 3 x.v sect c.2) (base + i)))).1
    else s) s1

/-- Step 3: images of sections 0 to 3 into their context slots, reload images, and section 0 active. -/
def State.commitImages (s : State) (cs : List WChunk) (x : WVar) (r : LoadJob) : State × Bool :=
  let s := s.clearTables r
  let s1 := (List.range (min 4 x.hdr.nsect)).foldl (fun (s : State) (sc : Nat) =>
    r.place.zipIdx.foldl (fun s c => s.commitRuns c.1 (chunkBytes cs 3 x.v sc c.2)) s) s
  let s2 := (List.range x.hdr.nsect).foldl (fun (s : State) (sc : Nat) => s.commitStores cs x r sc) s1
  let s3 := r.place.foldl (fun s c => s.commitActive x.hdr.nsect c) s2
  if x.hdr.nsect ≤ 4 then (s3, false)
  else
    writeAll (fun s c => s.commitReload cs x r c.1 c.2) r.place.zipIdx (s3, false)

/-- Reset every entry of a carry region of a core, given its descriptor's word (R136). -/
def State.resetRegion (s : State) (c w : Nat) : State :=
  if bit1 w 51 then
    let wd := if 2 ≤ bits w 49 2 then 2 else 1
    (List.range 8).foldl (fun (s : State) (f : Nat) =>
      (List.range (bits w 15 14 + 1)).foldl (fun (s : State) (i : Nat) =>
        let e := bits w 0 15 + f * bits w 32 15 + i * wd
        let s1 := s.putCarry c e {}
        if wd = 2 then s1.putCarry c (e + 1) emptyIndex else s1) s) s
  else s

/-- Step 4: clear the placed cores' queues, delay registers, tag tables, accumulator slots and the carry regions of every section,
and write floors and wake offsets. -/
def State.commitCores (s : State) (cs : List WChunk) (x : WVar) (r : LoadJob) : State :=
  let on := fun (c : Nat) => r.place.contains c
  let s1 := (s.setTiles (SMap.drop (fun k => on (k / 256)) s.tiles)).setEdges
    (SMap.drop (fun k => decide (k < 4096) && on (k / 128)) s.edges)
  let s2 := (s1.setGws (SMap.drop (fun k => on (k / 64)) s1.gws)).setSeqs (SMap.drop (fun k => on (k / 8)) s1.seqs)
  let s3 := ((s2.setWires (SMap.drop (fun k => if k < 65536 then on (k / 2048) else on ((k - 65536) / 64)) s2.wires)).setRbufs
    (SMap.drop (fun k => on (k / 8)) s2.rbufs)).setFstr (SMap.drop (fun k => on (k / 8)) s2.fstr)
  r.place.zipIdx.foldl (fun s c =>
    let s4 := (List.range x.hdr.nsect).foldl (fun (s : State) (sc : Nat) =>
      let img := (coreImage cs x.v sc c.2).getD []
      let s5 := (List.range 16).foldl (fun (s : State) (k : Nat) =>
        s.resetRegion c.1 (if sc < 4 then s.getF (Reg.CC_CARRY_DESC c.1 sc k) else imgWord img (0x30040 + 8 * k))) s
      if sc < 4 then s5.setF (Reg.CC_WAKE_OFF c.1 sc) (wakeOff x sc c.2) else s5) s
    (s4.setF (Reg.PWR_CC_FLOOR c.1) (x.hdr.fmin.getD c.2 0)).retune c.1) s3

/-- Step 5: the Solstice configuration and weights, within the range that the load claims (R340). -/
def State.commitSol (s : State) (cs : List WChunk) (x : WVar) (r : LoadJob) : State :=
  if x.hdr.flags % 4 = 0 then s
  else
    let ws := (Config.solWeights (chunkBytes cs 11 x.v 255 255)).take r.solSize
    let s2 := ws.zipIdx.foldl (fun s b =>
      s.setSol { s.sol with wmem := SMap.put (fun _ => 0#8) s.sol.wmem (r.solBase + b.2) b.1 }) s
    s2.setSol { s2.sol with wecc := SMap.drop (fun k => decide (r.solBase ≤ k ∧ k < r.solBase + ws.length)) s2.sol.wecc }

/-- Step 6: the scale records of every stream number (R173); the Bool says that a write completed UNAVAILABLE. -/
def State.commitScales (s : State) (r : LoadJob) : State × Bool :=
  writeAll (fun s m => s.initRecords (s.pipe r.pipe) m) (List.range 64) (s, false)

/-- The table entries of the hops of a section, keyed by (quadrant · 40 + port) · 128 + slot. -/
def spineEntries (r : LoadJob) (hs : List Hop) : List (Nat × W32) :=
  let keys := (hs.flatMap (fun h => h.slots.map (fun k => (h.q * 40 + h.port) * 128 + k))).eraseDups
  keys.map (fun k =>
    let at' := fun (hold : Bool) => ((hs.find? (fun h => h.hold == hold && (h.q * 40 + h.port) == k / 128 &&
      h.slots.contains (k % 128))).map (fun h => h.src)).getD 0x3F
    (k, BitVec.ofNat 32 (at' false + at' true * 2 ^ 6 + r.pipe * 2 ^ 12 + 2 ^ 14)))

/-- The gateway entries of channels and attached units of a section, resolved and rotated: key (end code · 2 + direction) · 128 +
slot (R324). -/
def unitEntries (cs : List WChunk) (x : WVar) (r : LoadJob) (sect : Nat) : List (Nat × W64) :=
  (Config.unitGwEntries (chunkBytes cs 5 x.v sect 255)).map (fun e =>
    let code := if e.1 / 4096 = 1 then 0x2000 + nearChan (r.place.getD (e.1 % 32) 0) (e.1 / 32 % 2) else e.1
    ((code * 2 + e.2.1) * 128 + (e.2.2.1 + r.rot) % 128, e.2.2.2))

/-- The image of a section's spine entries in the arena: 8 bytes each, the entry and its port and slot (R323; log entry 36). -/
def spineBytes (es : List (Nat × W32)) : List Byte := es.flatMap (fun e => leBytes 4 e.2.toNat ++ leBytes 4 e.1)

/-- Where a section's spine image stands: behind the interleaved segments, section by section. -/
def spineAddr (cs : List WChunk) (x : WVar) (r : LoadJob) (al : Alloc) (sect : Nat) : Nat :=
  alignUp al.inter 5 + ((List.range sect).map (fun sc =>
    ceilDiv (8 * ((sectHops cs x.v sc r.place r.rot).flatMap Hop.slots).length) 32 * 32)).foldl (· + ·) 0

/-- The slot that a unit's gateway entry is for belongs to no other pipeline, so that a load may write it (R340). -/
def State.unitSlotFree (s : State) (r : LoadJob) (k : Nat) : Bool :=
  let e := endPort r.place (k / 256)
  let p := if k / 128 % 2 = 0 then s.inputOwner e.1 e.2 (k % 128) else s.slotOwner e.1 e.2 (k % 128)
  p.isNone || p == some r.pipe

/-- Step 7: the rotated gateway tables, the images of a variant of more than 4 sections, then the spine entries. `raw` are the chunks
that the hops were settled by. -/
def State.commitTables (s : State) (raw cs : List WChunk) (x : WVar) (r : LoadJob) (al : Alloc) : State :=
  let n := min 4 x.hdr.nsect
  let hops := fun (sc : Nat) => spineEntries r (sectHops raw x.v sc r.place r.rot)
  let s1 := (List.range n).foldl (fun (s : State) (sc : Nat) =>
    r.place.zipIdx.foldl (fun s c =>
      ((coreImage cs x.v sc c.2).getD []).foldl (fun s w =>
        if 0x31000 ≤ w.off ∧ w.off < 0x31800 then
          let o := w.off - 0x31000
          let sl := (o % 0x400 / 8 + r.rot) % 128
          s.setWord (0x1000000 + 0x100000 * c.1 + 0xC8000 + o / 0x400 * 0x1000 + sc * 0x400 + 8 * sl) (BitVec.ofNat 64 w.val)
        else s) s) s) s
  let s2 := (List.range n).foldl (fun (s : State) (sc : Nat) =>
    ((unitEntries cs x r sc).filter (fun e => s.unitSlotFree r e.1)).foldl (fun s e =>
      s.setUnitGw (SMap.put (fun _ => 0#64) s.unitGw ((e.1 / 128 * 4 + sc) * 128 + e.1 % 128) e.2)) s) s1
  let s3 := if x.hdr.nsect ≤ 4 then s2
    else ((List.range x.hdr.nsect).foldl (fun (s : State) (sc : Nat) =>
      (State.unitWriteN (ceilDiv (hops sc).length 4) s (spineAddr raw x r al sc) (spineBytes (hops sc))).1) s2).onPipe r.pipe (fun p =>
        { p with
          spineImg := (List.range x.hdr.nsect).map (fun sc => (sc, spineAddr raw x r al sc, (hops sc).length))
          unitImg := (List.range x.hdr.nsect).map (fun sc => (sc, unitEntries cs x r sc)) })
  (List.range n).foldl (fun (s : State) (sc : Nat) =>
    (hops sc).foldl (fun s e =>
      (s.setSpine (SMap.put (fun _ => 0#32) s.spine (spineKey (e.1 / 128) sc (e.1 % 128)) e.2)).setSpineBad
        (SMap.put (fun _ => false) s.spineBad (spineKey (e.1 / 128) sc (e.1 % 128)) false)) s) s3

/-- Step 8: instruction memories, and the declared threads (R238, R240). -/
def State.commitThreads (s : State) (cs : List WChunk) (x : WVar) (r : LoadJob) : State :=
  r.place.zipIdx.foldl (fun s c =>
    let b := chunkBytes cs 10 x.v 255 c.2
    let s1 := (Config.threadCode b).zipIdx.foldl (fun s w => s.setWord (0x1000000 + 0x100000 * c.1 + 0xC0000 + 8 * w.2) w.1) s
    if (findChunk cs 10 x.v 255 c.2).isNone then s
    else (Config.threadDecls b).foldl (fun s d =>
      if s.slotState c.1 d.slot = 0 then
        let s2 := s.startSlot c.1 d.slot d.pc (d.args.map (fun a => a.toNat))
        let s3 := if d.stage = 255 then s2
          else (s2.setF (Reg.CC_VT_SLOT_STAGE c.1 d.slot) 1).onThr c.1 d.slot (fun t =>
            { t with pipe := r.pipe, stage := d.stage, budget := d.budget })
        s3.onPipe r.pipe (fun p => { p with threads := p.threads ++ [c.1 * 16 + d.slot] })
      else s) s1) s

/-- Steps 9 and 10: the beat machine, the placement record and LOADED. -/
def State.commitEnd (s : State) (bs : List Byte) (x : WVar) (r : LoadJob) : State :=
  let n := r.pipe
  let s1 := (((s.putBeat n {}).setBmState n 0).setF (Reg.ALM_BM_FLOOR n) x.hdr.bMin).setF (Reg.ALM_BM_PERIOD n) x.hdr.bNom
  let s2 := s1.setEffective n false
  let s2 := r.place.zipIdx.foldl (fun s c =>
    (s.setF (Reg.WVL_PIPE_PLACE_CORE n c.2) c.1).setF (Reg.WVL_PIPE_PLACE_VALID n c.2) 1) s2
  let s3 := (((s2.setF (Reg.WVL_PIPE_INFO_VARIANT n) r.variant).setF (Reg.WVL_PIPE_INFO_START n) r.start).setF
    (Reg.WVL_PIPE_INFO_ROT n) r.rot).setF (Reg.WVL_PIPE_INFO_NCORES n) x.hdr.ncores
  let s4 := (s3.setF (Reg.WVL_PIPE_NETID_LO n) (fieldLe bs 32 8)).setF (Reg.WVL_PIPE_NETID_HI n) (fieldLe bs 40 8)
  let s5 := ((s4.setF (Reg.WVL_PIPE_STATE n) 2).setF Reg.WVL_STATUS_DONE 1).setF Reg.WVL_STATUS_LAST_CODE 0
  if s5.flag Reg.WVL_STATUS_IRQ_EN then s5.irqSteward 2 else s5

/-- Stop a commit at a step (R338): DEGRADED.0x708, STATE FAILED, and nothing undone. -/
def State.commitStop (s : State) (r : LoadJob) (step cause : Nat) : State :=
  (s.loadFault 1 0x708 r.pipe [(4, step), (4, cause)]).setF (Reg.WVL_PIPE_STATE r.pipe) 3

/-- Run the commit steps from 2 on, stopping at the first that fails. -/
def State.commitSteps (s : State) (bs : List Byte) (raw cs : List WChunk) (x : WVar) (r : LoadJob) (al : Alloc) : State :=
  let act := fun (s : State) (step : Nat) => (match step with
    | 2 => s.commitSegs cs x al
    | 3 => s.commitImages cs x r
    | 4 => (s.commitCores cs x r, false)
    | 5 => (s.commitSol cs x r, false)
    | 6 => s.commitScales r
    | 7 => (s.commitTables raw cs x r al, false)
    | 8 => (s.commitThreads cs x r, false)
    | _ => (s.commitEnd bs x r, false))
  ([2, 3, 4, 5, 6, 7, 8, 9].foldl (fun (acc : State × Bool) (step : Nat) =>
    if acc.2 then acc
    else match acc.1.stepFault raw r step with
      | some c => (acc.1.commitStop r step c, true)
      | none =>
        let q := act acc.1 step
        if q.2 then (q.1.commitStop r step 3, true) else (q.1, false)) (s, false)).1

/-! ### Unloading (R339) -/

/-- Release everything a pipeline holds; frames whose record waits for room stay until it is written (R391). Its beat machine enters IDLE, which closes an open excursion (R53). -/
def State.unload (s : State) (n : Nat) : State :=
  let s := if s.bmState n = 0 then s else s.enterIdle n
  let p := s.pipe n
  let cores := s.coresOf n
  let ths := (p.threads ++ (List.range 512).filter (fun k =>
    s.flag (Reg.CC_VT_SLOT_STAGE (k / 16) (k % 16)) && (s.thr (k / 16) (k % 16)).pipe == n)).eraseDups
  let s1 := ths.foldl (fun s k => s.freeSlot (k / 16) (k % 16)) s
  let mine := s1.spine.filter (fun e => bit1 e.2.toNat 14 && bits e.2.toNat 12 2 == n)
  let s2 := (s1.setSpine (SMap.drop (fun k => mine.any (fun e => e.1 == k)) s1.spine)).setSpineBad
    (SMap.drop (fun k => mine.any (fun e => e.1 == k)) s1.spineBad)
  let s3 := cores.foldl (fun s c => (s.setF (Reg.PWR_CC_FLOOR c) 0).retune c) s2
  let s4 := (List.range 32).foldl (fun (s : State) (j : Nat) =>
    (s.setF (Reg.WVL_PIPE_PLACE_CORE n j) 0).setF (Reg.WVL_PIPE_PLACE_VALID n j) 0) s3
  let s5 := ((((s4.setF (Reg.WVL_PIPE_INFO_VARIANT n) 0).setF (Reg.WVL_PIPE_INFO_START n) 0).setF
    (Reg.WVL_PIPE_INFO_ROT n) 0).setF (Reg.WVL_PIPE_INFO_NCORES n) 0)
  let s6 := (s5.setF (Reg.WVL_PIPE_NETID_LO n) 0).setF (Reg.WVL_PIPE_NETID_HI n) 0
  ((s6.putPipe n { frames := p.frames.filter (fun f => f.recPend), nextId := p.nextId }).setF (Reg.WVL_PIPE_STATE n) 0).settleSolFloor

/-- An unload that is asked for: carried out where R339 accepts it, else CORRECTED.0x709. A FAILED pipeline's machine may be in
any state; an accepted unload leaves it IDLE. -/
def State.tryUnload (s : State) (n : Nat) : State :=
  let st := s.getF (Reg.WVL_PIPE_STATE n)
  if (s.boundTo n).isEmpty ∧ (st = 3 ∨ (st = 2 ∧ s.bmState n = 0 ∧ (s.pipe n).quiet)) then s.unload n
  else s.loadFault 0 0x709 n [(16, st)]

/-- The unloads that were asked for during a load (R315). -/
def State.dueUnloads (s : State) : State :=
  [0, 1, 2, 3].foldl (fun s n =>
    if (s.pipe n).unloadDue then (s.onPipe n (fun q => { q with unloadDue := false })).tryUnload n else s) s

/-- The loader reads the image again, patches its chunks and commits the load whose checks passed (R335, R337);
an unload asked for meanwhile follows (R315). -/
def State.commitLoad (s : State) (r : LoadJob) : State :=
  let s0 := s.meetN r.image r.len
  let bs := (s0.peekN r.image r.len).1
  let raw := wChunks bs
  let x0 := WVar.of raw r.variant
  let al := allocate raw x0 r
  let cs := patched (s.getF Reg.MGT_DEVNUM) al r raw
  let x := WVar.of cs r.variant
  let s1 := s0.commitClaim bs cs x r al ((List.range x0.hdr.nsect).flatMap (fun sc => sectHops raw r.variant sc r.place r.rot))
  (((s1.commitSteps bs raw cs x r al).setLoad none).setF Reg.WVL_STATUS_BUSY 0).dueUnloads

/-- A write of WVL_PIPEn_CTL: UNLOAD (R339). The loader performs one load or unload at a time: during a load the unload waits for
its end (R315; DESIGN CHOICE, log entry 107: it waits rather than being refused). -/
def State.writeUnload (n : Nat) (w : WriteReq) (s : State) : State :=
  if wBit w (Reg.WVL_PIPE_CTL_UNLOAD n) then
    if s.load.isSome then s.onPipe n (fun q => { q with unloadDue := true }) else s.tryUnload n
  else s

/-- WVL_UNLOAD. -/
def execWvlUnload (n : Fin 4) (w : WriteReq) (s : State) : Out :=
  .next (s.gatedAct w.agent w.half (Reg.WVL_PIPE_CTL_UNLOAD n).off (State.writeUnload n w))

end Sys2Proof.Machine
end

