-- ==== Sys2Proof/Machine/Ports.lean ====
section
/-!
DEFINITION. The Ethernet ports (spec/14_streams_and_endpoints.md R366 to R370), commits of the endpoint table (R371,
R372), and the host and time rings (spec/20 R506, R507, spec/22 R561, R562).
-/

namespace Sys2Proof.Machine

/-! ### The endpoint table -/

/-- The bytes that a commit would put in force: the staged words, and the present ones where nothing is staged. -/
def State.epStaged (s : State) (i : Nat) : List Byte :=
  (List.range 8).foldl (fun bs k =>
    let f := Reg.ETH_EP i k
    bs ++ leBytes 8 ((SMap.get (fun _ => none) s.ep.stage f.off).getD (s.word f.off)).toNat) []

/-- Stage a write to word `k` of an entry (R371). -/
def State.stageEp (s : State) (i k : Nat) (w : WriteReq) : State :=
  let f := Reg.ETH_EP i k
  let old := (SMap.get (fun _ => none) s.ep.stage f.off).getD (s.word f.off)
  let m := halfMask w.half
  s.setEp { s.ep with stage := SMap.put (fun _ => none) s.ep.stage f.off (some ((old &&& ~~~m) ||| (w.value &&& m))) }

/-- A field of an entry lies in a range. -/
def fieldIn (b : List Byte) (pos n lo hi : Nat) : Bool := decide (lo ≤ fieldLe b pos n ∧ fieldLe b pos n ≤ hi)

/-- Bytes [lo, hi) are 0. -/
def zeroIn (b : List Byte) (lo hi : Nat) : Bool := (sliceB b lo (hi - lo)).all (fun x => x == 0#8)

/-- The evidence frame of a CAMERA entry is coded as U16: a 10-bit source kept unconverted (Table 11-4). -/
def camU16 (b : List Byte) : Bool := fieldLe b 49 1 % 4 == 1 && bit1 (fieldLe b 49 1) 3

/-- No reserved code or bit is set and every field lies in its range (Tables 14-2 to 14-4). -/
def epWellFormed (b : List Byte) : Bool :=
  let kind := fieldLe b 0 1
  let common := fieldIn b 0 1 0 5 && fieldIn b 1 1 0 3 && fieldIn b 2 1 0 5 && fieldIn b 3 1 0 7 && fieldIn b 4 2 0 4095 &&
    (bit1 (fieldLe b 1 1) 0 || zeroIn b 20 32) && (kind == 1 || zeroIn b 14 16)
  let own := match kind with
    | 1 => fieldIn b 32 2 0 63 && (fieldIn b 34 2 0 1023 || fieldIn b 34 2 0xFFFF 0xFFFF) &&
        fieldIn b 36 4 20000 10000000 && fieldIn b 40 4 1 1000000000 && fieldIn b 44 4 1 100000000 &&
        fieldIn b 48 1 0 127 && fieldIn b 49 1 0 15 && fieldLe b 49 1 % 4 != 3 && fieldIn b 50 1 1 8 &&
        fieldIn b 51 1 0 31 && decide (fieldLe b 51 1 % 16 ≤ (if camU16 b then 6 else 4)) &&
        fieldIn b 52 2 2 4096 && fieldIn b 54 2 1 3072 && zeroIn b 60 64
    | 2 => fieldIn b 32 2 0 63 && zeroIn b 34 36 && fieldIn b 36 4 20000 10000000 && fieldIn b 40 4 1 100000000 &&
        zeroIn b 45 64
    | 3 => fieldIn b 32 1 0 63 && zeroIn b 33 64
    | 4 => fieldIn b 32 1 0 7 && fieldIn b 33 1 1 16 && zeroIn b 34 64 && zeroIn b 2 3 && zeroIn b 6 32
    | _ => zeroIn b 32 64
  common && own

/-- The first condition of R372 that rejects a commit of `b` to entry `i`, as Table 18-5a numbers it. -/
def State.epRefusal (s : State) (i : Nat) (b : List Byte) : Option Nat :=
  let kind := fieldLe b 0 1
  let cam := kind == 1
  let cams := (List.range 1024).filter (fun j => j != i && s.epKind j == 1)
  let fmt := fieldLe b 49 1 % 4
  let scale := fieldLe b 34 2
  let odd := if fmt = 2 then bit1 (fieldLe b 49 1) 3 else fieldLe b 52 2 % 2 == 1 || fieldLe b 56 2 % 2 == 1
  let busy := (List.range 64).any (fun m =>
    let c := s.cameraOf m
    s.getF (Reg.ING_STR_STATE m) != 0 && s.bmState (s.getF (Reg.ING_STR_CFG_PIPE m)) != 0 &&
      (c == i || (s.epKind i == 4 && s.epScale c == i)))
  if !epWellFormed b then some 0
  else if cam && cams.any (fun j => s.epStream j == fieldLe b 32 2) then some 1
  else if cam && scale != 0xFFFF && !(s.epKind scale == 4 && scale != i) then some 2
  else if cam && odd then some 3
  else if cam && (decide (fieldLe b 52 2 ≤ fieldLe b 56 2) || decide (fieldLe b 54 2 ≤ fieldLe b 58 2)) then some 4
  else if cam && cams.any (fun j => s.epPort j == fieldLe b 2 1 && s.epF j 14 2 == fieldLe b 14 2) then some 5
  else if busy && b != s.epBytes i then some 6
  else if s.epKind i == 4 && kind != 4 && cams.any (fun j => s.epScale j == i) then some 7
  else none

/-- Put 64 bytes in force as an entry. -/
def State.putEp (s : State) (i : Nat) (b : List Byte) : State :=
  (List.range 8).foldl (fun s k => s.setWord (Reg.ETH_EP i k).off (BitVec.ofNat 64 (fieldLe b (8 * k) 8))) s

/-- The commit that a write to bytes 56 to 63 makes (R371, R372): the staged entry comes into force at once, or the
previous one stays with CORRECTED.0x301. An entry that changes its kind or stream takes part in that stream's beats from the next on. -/
def State.commitEp (i : Nat) (w : WriteReq) (s : State) : State :=
  let s1 := s.stageEp i 7 w
  let b := s1.epStaged i
  match s1.epRefusal i b with
  | some c => s1.report 0 0x301 (uEth (fieldLe b 2 1 % 8)) [(16, i), (4, c)]
  | none =>
    let offs := (List.range 8).map (fun k => (Reg.ETH_EP i k).off)
    let same := s1.epKind i == fieldLe b 0 1 && s1.epStream i == fieldLe b 32 2
    (s1.putEp i b).setEp { s1.ep with
      stage := SMap.drop (fun o => offs.contains o) s1.ep.stage, commitAt := SMap.put (fun _ => 0) s1.ep.commitAt i s1.now,
      nextK := if same then s1.ep.nextK else SMap.put (fun _ => 0) s1.ep.nextK i 0 }

/-- ENDPOINT_COMMIT. -/
def execEndpointCommit (i : Fin 1024) (w : WriteReq) (s : State) : Out :=
  .next (s.gated w.agent w.half (Reg.ETH_EP i 7).off (State.commitEp i w))

/-! ### Links and eyes (R369, R370) -/

/-- The power domain of a port (Table 22-1). -/
def portDom (p : Nat) : Nat := 47 + p / 2

/-- An eye below a threshold raises CORRECTED.0x30C once per excursion. -/
def State.checkEye (s : State) (p : Nat) : State :=
  let h := s.getF (Reg.ETH_P_EYE_HEIGHT p)
  let w := s.getF (Reg.ETH_P_EYE_WIDTH p)
  let min := s.getF (Reg.ETH_P_EYE_MIN p)
  let low := decide (h < min % 65536) || decide (w < min / 65536)
  let x := s.port p
  let s1 := s.putPort p { x with eyeLow := low }
  if low && !x.eyeLow then s1.report 0 0x30C (uEth p) [(16, h), (16, w)] else s1

/-- EYE_MEASURE: every 1 ms a lane port measures its eye. -/
def execEyeMeasure (p : Fin 4) (height width : Fin 65536) (s : State) : Out :=
  if s.domOn (portDom p) && s.getF (Reg.ETH_P_CFG_MODE p) != 0 then
    .next (((s.setF (Reg.ETH_P_EYE_HEIGHT p) height).setF (Reg.ETH_P_EYE_WIDTH p) width).checkEye p)
  else .next s

/-- PORT_LINK_DOWN: block lock or FEC alignment has been lost for `ns`; from 10 µs on the link is down with
DEGRADED.0x30A. -/
def execPortLinkDown (p : Fin 6) (lock fec : Bool) (ns : Nat) (s : State) : Out :=
  if s.flag (Reg.ETH_P_STAT_LINK_UP p) && !(lock && fec) then
    let s1 := (s.setF (Reg.ETH_P_STAT_BLOCK_LOCK p) (b2n lock)).setF (Reg.ETH_P_STAT_FEC_ALIGN p) (b2n fec)
    if 10000 ≤ ns then
      let s2 := s1.setF (Reg.ETH_P_STAT_LINK_UP p) 0
      .next ((s2.putPort p { s2.port p with down := true }).report 1 0x30A (uEth p) [])
    else .next s1
  else .next s

/-- PORT_LINK_UP: the link of a port that has a mode is up, with CORRECTED.0x30B when it was reported down. -/
def execPortLinkUp (p : Fin 6) (s : State) : Out :=
  if s.domOn (portDom p) && s.getF (Reg.ETH_P_CFG_MODE p) != 0 && !s.flag (Reg.ETH_P_STAT_LINK_UP p) then
    let s1 := ((s.setF (Reg.ETH_P_STAT_LINK_UP p) 1).setF (Reg.ETH_P_STAT_BLOCK_LOCK p) 1).setF
      (Reg.ETH_P_STAT_FEC_ALIGN p) 1
    if (s1.port p).down then .next ((s1.putPort p { s1.port p with down := false }).report 0 0x30B (uEth p) [])
    else .next s1
  else .next s

/-! ### Descriptor rings (Table 20-3) -/

/-- A port or engine stores bytes at a device address. -/
def State.devWrite (s : State) (a : Nat) (bs : List Byte) : State :=
  s.access [{ addr := a, pos := 0, len := bs.length, data := some bs }] [] .nowhere 0 false .clean

/-- A port or engine reads bytes at a device address; a word that is poisoned or cannot be read flags the Bool. -/
def State.devRead (s : State) (a n : Nat) : State × List Byte × Bool :=
  let lo := a / 32 * 32
  let r := s.unitReadN ((a + n + 31) / 32 - a / 32) lo 0
  (r.1, sliceB r.2.bytes (a - lo) n, r.2.bad)

/-- The registers of a descriptor ring: a port's host ring, or its time ring (R561, R562). -/
structure RingRegs where
  rxBase : Fld
  txBase : Fld
  log2 : Fld
  rxWr : Fld
  rxRd : Fld
  txWr : Fld
  txRd : Fld

def ringRegs (p : Nat) (tq : Bool) : RingRegs :=
  if tq then ⟨Reg.ETH_P_TQ_RXBASE p, Reg.ETH_P_TQ_TXBASE p, Reg.ETH_P_TQ_LOG2 p, Reg.ETH_P_TQ_RXWR p,
    Reg.ETH_P_TQ_RXRD p, Reg.ETH_P_TQ_TXWR p, Reg.ETH_P_TQ_TXRD p⟩
  else ⟨Reg.ETH_P_NIC_RXBASE p, Reg.ETH_P_NIC_TXBASE p, Reg.ETH_P_NIC_LOG2 p, Reg.ETH_P_NIC_RXWR p,
    Reg.ETH_P_NIC_RXRD p, Reg.ETH_P_NIC_TXWR p, Reg.ETH_P_NIC_TXRD p⟩

/-- A descriptor's bytes as the device completes it: OWN cleared, DONE and ERR set, time stamp and received length. -/
def doneDesc (d : List Byte) (port : Option Nat) (err : Bool) (ts : Option (Nat × Nat)) (rxlen : Option Nat) : List Byte :=
  let fl := bits (fieldLe d 10 1) 1 1 * 2 + 4 + 8 * b2n err
  sliceB d 0 10 ++ leBytes 1 fl ++ leBytes 1 (port.getD (fieldLe d 11 1)) ++
    (match ts with | some t => leBytes 8 t.1 ++ leBytes 2 t.2 | none => sliceB d 12 10) ++
    leBytes 2 (rxlen.getD (fieldLe d 22 2)) ++ sliceB d 24 8

/-- A received frame goes to the next descriptor the device owns; else it is discarded, and counted for the host ring
(R507). -/
def State.ringReceive (s : State) (p : Nat) (tq : Bool) (bs : List Byte) : State :=
  let r := ringRegs p tq
  let drop := fun (s : State) => if tq then s else s.addF (Reg.ETH_P_NIC_RXDROP p) 1
  if s.getF r.rxWr = s.getF r.rxRd then drop s
  else
    let a := s.getF r.rxBase + 32 * (s.getF r.rxRd % 2 ^ s.getF r.log2)
    let q := s.devRead a 32
    let d := q.2.1
    if !bit1 (fieldLe d 10 1) 0 || decide (fieldLe d 8 2 < bs.length) then drop q.1
    else
      let s1 := q.1.devWrite (fieldLe d 0 8) bs
      let s2 := s1.devWrite a (doneDesc d (if tq then some p else none) false (some (s.now, s.nowFrac)) (some bs.length))
      let s3 := s2.addF r.rxRd 1
      if tq then s3 else s3.irqSource (72 + p)

/-- EtherType of a frame, behind one IEEE 802.1Q tag or none, and where the payload begins. -/
def etherType (bs : List Byte) : Nat × Nat :=
  if fieldBe bs 12 2 = 0x8100 then (fieldBe bs 16 2, 18) else (fieldBe bs 12 2, 14)

/-- The port sends the descriptor at TXRD (R507, R561): a PTP frame of the host ring completes with ERR and is counted
instead; `held` says that a loopback drops it (R541). -/
def State.ringSend (s : State) (p : Nat) (tq held : Bool) : State :=
  let r := ringRegs p tq
  let a := s.getF r.txBase + 32 * (s.getF r.txRd % 2 ^ s.getF r.log2)
  let q := s.devRead a 32
  let d := q.2.1
  let len := fieldLe d 8 2
  let f := q.1.devRead (fieldLe d 0 8) len
  let deny := !tq && (etherType f.2.1).1 == 0x88F7
  let bad := deny || held || !decide (60 ≤ len ∧ len ≤ 9596)
  let s1 := if deny then f.1.addF (Reg.ETH_P_NIC_TXDENY p) 1
    else if held then f.1.addF (Reg.ETH_P_TXDROP p) 1
    else if bad then f.1
    else f.1.emit (.eth p f.2.1)
  let ts := if !bad && bit1 (fieldLe d 10 1) 1 then some (s.now, s.nowFrac) else none
  let s2 := (s1.devWrite a (doneDesc d (if tq then some p else none) bad ts none)).addF r.txRd 1
  if tq then s2 else s2.irqSource (72 + p)

/-- The port's next queued frame: EXPOSE and STROBE datagrams first (R379), then the time ring, then the host ring. -/
def State.sendNext (s : State) (p : Nat) (held : Bool) : State :=
  let x := s.port p
  match x.cmdq with
  | c :: rest =>
    let s1 := s.putPort p { x with cmdq := rest }
    if held then s1.addF (Reg.ETH_P_TXDROP p) 1 else s1.emit (.udp p c.ref c.dest (s.getF Reg.ETH_CMD_PORT) c.bytes)
  | [] =>
    if s.getF (Reg.ETH_P_TQ_TXWR p) != s.getF (Reg.ETH_P_TQ_TXRD p) then s.ringSend p true held
    else if s.getF (Reg.ETH_P_NIC_TXWR p) != s.getF (Reg.ETH_P_NIC_TXRD p) then s.ringSend p false held
    else s

/-- A loopback or pattern is set on a port (R541). -/
def State.portLooped (s : State) (p : Nat) : Bool :=
  s.getF (Reg.ETH_P_LOOP p) != 0 || s.flag (Reg.ETH_P_PRBS_EN p)

/-- FRAME_TRANSMIT: a frame boundary at Almanac instant `t`. -/
def execFrameTransmit (p : Fin 6) (t : Nat) (s : State) : Out :=
  if s.domOn (portDom p) && (s.flag (Reg.ETH_P_STAT_LINK_UP p) || s.portLooped p) then
    .next ((s.reach t).sendNext p (s.portLooped p))
  else .next s

/-- NIC_RX_POST: RXWR of a host or time ring advances (R561, R562). -/
def execNicRxPost (p : Fin 6) (tq : Bool) (w : WriteReq) (s : State) : Out :=
  .next (s.gated w.agent w.half (ringRegs p tq).rxWr.off (fun s => s.plainWrite (ringRegs p tq).rxWr.off w))

/-- NIC_TX_POST: TXWR of a host or time ring advances (R561, R562). -/
def execNicTxPost (p : Fin 6) (tq : Bool) (w : WriteReq) (s : State) : Out :=
  .next (s.gated w.agent w.half (ringRegs p tq).txWr.off (fun s => s.plainWrite (ringRegs p tq).txWr.off w))

end Sys2Proof.Machine
end

