-- ==== Sys2Proof/Machine/Boot.lean ====
section
/-!
DEFINITION. Resets, straps and OTP (spec/21 R527 to R530), the boot ROM and steward images (spec/20 R521, spec/21 R531 to
R536), the watchdog (R524, R551), the self tests (R538, R573), PCIe resets (R510) and the loopbacks (R541).
-/

namespace Sys2Proof.Machine

/-! ### Mailbox rings (R511 to R513) -/

/-- Steward firmware serves the mailbox: it runs and its start sequence has ended (R537). -/
def State.serving (s : State) : Bool := s.stw.run == .firmware && s.getF Reg.MGT_BOOT_STAT_PHASE == 0x16

/-- The response ring of a channel has room (R513). -/
def State.mbxRoom (s : State) (c : Nat) : Bool :=
  decide ((s.getF (Reg.MGT_MBX_RSP_WR c) + 2 ^ 32 - s.getF (Reg.MGT_MBX_RSP_RD c)) % 2 ^ 32 <
    2 ^ s.getF (Reg.MGT_MBX_CTL_LOG2 c))

/-- Write an entry of 60 bytes and its CRC to the response ring, which then advances (R513, Table 20-2). -/
def State.mbxPut (s : State) (c : Nat) (body : List Byte) : State :=
  let b := sliceB body 0 60
  let a := s.getF (Reg.MGT_MBX_RSPBASE c) + 64 * (s.getF (Reg.MGT_MBX_RSP_WR c) % 2 ^ s.getF (Reg.MGT_MBX_CTL_LOG2 c))
  ((s.devWrite a (b ++ leBytes 4 (crc32c b))).addF (Reg.MGT_MBX_RSP_WR c) 1).irqSource (69 + c)

/-- The count of events of a channel that found no room. -/
def State.setLost (s : State) (c n : Nat) : State :=
  s.setStw { s.stw with lost := SMap.put (fun _ => 0) s.stw.lost c n }

/-- One EVENTS_LOST event with the count, once there is room (R513). -/
def State.tellLost (s : State) (c : Nat) : State :=
  let n := SMap.get (fun _ => 0) s.stw.lost c
  if n = 0 ∨ s.mbxRoom c = false ∨ s.flag (Reg.MGT_MBX_CTL_EN c) = false then s
  else (s.setLost c 0).mbxPut c (leBytes 2 0xFFFF ++ leBytes 1 0x85 ++ leBytes 5 0 ++ leBytes 4 n)

/-- An event on one channel. -/
def State.eventOn (code : Nat) (result : List Byte) (c : Nat) (s : State) : State :=
  if s.flag (Reg.MGT_MBX_CTL_EN c) then
    let s1 := s.tellLost c
    if s1.mbxRoom c then s1.mbxPut c (leBytes 2 0xFFFF ++ leBytes 1 code ++ leBytes 5 0 ++ result)
    else s1.setLost c (SMap.get (fun _ => 0) s1.stw.lost c + 1)
  else s

/-- An unsolicited event to every enabled channel (R513, Table 20-8). -/
def State.mbxEvent (s : State) (code : Nat) (result : List Byte) : State :=
  State.eventOn code result 1 (State.eventOn code result 0 s)

/-- The request of a channel that firmware works on: its OP and pipeline. -/
def State.mbxJob (s : State) (c : Nat) : Option (Nat × Nat) := SMap.get (fun _ => none) s.stw.job c
def State.setJob (s : State) (c : Nat) (j : Option (Nat × Nat)) : State :=
  s.setStw { s.stw with job := SMap.put (fun _ => none) s.stw.job c j }

/-- A channel is disabled: the request in progress completes without a response, and unserved requests are dropped
(R513). -/
def State.mbxDisable (s : State) (c : Nat) : State := ((s.setF (Reg.MGT_MBX_CTL_EN c) 0).setJob c none).setLost c 0

/-- A write of MGT_MBXc_CTL (R511, R548): LOG2 takes a value of 4 to 8 while EN is 0; setting EN sets the four indexes
to 0. -/
def State.writeMbxCtl (c : Nat) (w : WriteReq) (s : State) : State :=
  match wField w (Reg.MGT_MBX_CTL_EN c), wField w (Reg.MGT_MBX_CTL_LOG2 c) with
  | some e, some l =>
    let en := s.flag (Reg.MGT_MBX_CTL_EN c)
    if !en && !decide (4 ≤ l ∧ l ≤ 8) then s
    else
      let s1 := if en then s else s.setF (Reg.MGT_MBX_CTL_LOG2 c) l
      if e = 0 then (if en then s1.mbxDisable c else s1)
      else if en then s1
      else ((((s1.setF (Reg.MGT_MBX_CTL_EN c) 1).setF (Reg.MGT_MBX_REQ_WR c) 0).setF (Reg.MGT_MBX_REQ_RD c) 0).setF
        (Reg.MGT_MBX_RSP_WR c) 0).setF (Reg.MGT_MBX_RSP_RD c) 0
  | _, _ => s

/-- A write of REQBASE or RSPBASE: while EN is 0, and 64-byte aligned (R511). -/
def State.writeMbxBase (c : Nat) (f : Fld) (w : WriteReq) (s : State) : State :=
  let s1 := s.plainWrite f.off w
  if s.flag (Reg.MGT_MBX_CTL_EN c) || s1.getF f % 64 != 0 then s else s1

/-- A write of REQ_WR: advancing it interrupts the steward core (R512). -/
def State.writeReqWr (c : Nat) (w : WriteReq) (s : State) : State :=
  let f := Reg.MGT_MBX_REQ_WR c
  let s1 := s.plainWrite f.off w
  if s1.getF f = s.getF f then s1 else s1.irqSteward 3

/-- A write of RSP_RD: lost events are told once there is room (R513). -/
def State.writeRspRd (c : Nat) (w : WriteReq) (s : State) : State :=
  let s1 := s.plainWrite (Reg.MGT_MBX_RSP_RD c).off w
  if s1.serving then s1.tellLost c else s1

/-- MGT_MBX_CTL. -/
def execMgtMbxCtl (c : Fin 2) (w : WriteReq) (s : State) : Out :=
  .next (s.gated w.agent w.half (Reg.MGT_MBX_CTL_EN c).off (State.writeMbxCtl c w))

/-- MBX_REQ_WR. -/
def execMbxReqWr (c : Fin 2) (w : WriteReq) (s : State) : Out :=
  .next (s.gated w.agent w.half (Reg.MGT_MBX_REQ_WR c).off (State.writeReqWr c w))

/-! ### Resets (R527, R528) -/

/-- The fields of a register that a device reset keeps: those marked POR, and the fuses. VMIN, the one of 10 bits, follows
the divider. -/
def keptMask (por : Bool) (off : Nat) : W64 :=
  BitVec.ofNat 64 (((Reg.fields off).filter (fun f =>
    (por && f.kind == .por) || (f.kind == .part && f.acc == .ro && f.w != 10))).foldl
      (fun m f => m + (2 ^ f.w - 1) * 2 ^ f.lo) 0)

/-- The registers after a reset. -/
def keptRegs (por : Bool) (regs : List (Nat × W64)) : List (Nat × W64) :=
  regs.foldl (fun m e =>
    SMap.put Reg.reset m e.1 ((Reg.reset e.1 &&& ~~~keptMask por e.1) ||| (e.2 &&& keptMask por e.1))) []

/-- The host side in reset: what is fused, flashed or on the island stays (R416, R522, R530), and the commands and the
messages already sent. -/
def State.resetWith (s : State) (por : Bool) (cause : Nat) : State :=
  let regs := keptRegs por s.regs
  State.setF
    { pending := s.pending, out := s.out, free := s.free, nextReq := s.nextReq, regs := regs
      alm := if por then { alm := s.alm.alm } else {}
      pwr := { dev := .reset, oscEn := false }
      isl := s.isl, otp := s.otp, stw := { nor := s.stw.nor } }
    Reg.MGT_RESET_CAUSE (2 ^ cause)

/-- A device reset (R528): 1 PIN, 2 MAILBOX, 3 JTAG. The Almanac keeps running on the crystal. -/
def State.deviceReset (s : State) (cause : Nat) : State := s.resetWith true cause

/-- POWER_ON_RESET: the always-on domain is cleared too. -/
def execPowerOnReset (s : State) : Out := .next (s.resetWith false 0)

/-- PW_RESET_N: the pin is low; a device already in reset stays so. -/
def execPwResetN (s : State) : Out := .next (if s.pwr.dev = .reset then s else s.deviceReset 1)

/-- JTAG_RESET: works only in debug mode (R529). -/
def execJtagReset (s : State) : Out := .next (if s.debugMode then s.deviceReset 3 else s)

/-- RESET_RELEASE: the straps are sampled (Table 21-2) and Waking begins (R527). -/
def execResetRelease (bootSrc : Fin 4) (debugEn : Bool) (s : State) : Out :=
  if s.pwr.dev = .reset then
    let s1 := (s.setF Reg.MGT_STRAP_BOOT_SRC bootSrc).setF Reg.MGT_STRAP_DEBUG
      (b2n (debugEn && s.flag Reg.MGT_OTP_STAT_DEBUG_PERMIT))
    .next (s1.setPwr { s1.pwr with dev := .waking, oscEn := true })
  else .next s

/-! ### Steward images (R521) -/

/-- A write by the steward core. -/
def stwW (v : Nat) : WriteReq := ⟨.steward, .both, BitVec.ofNat 64 v⟩

/-- Bytes of the host-side SPI NOR. -/
def State.norBytes (s : State) (a n : Nat) : List Byte :=
  (List.range n).map (fun i => SMap.get (fun _ => 0xFF#8) s.stw.nor (a + i))

/-- Write bytes of the host-side SPI NOR. -/
def State.putNor (s : State) (a : Nat) (bs : List Byte) : State :=
  s.setStw { s.stw with nor := bs.zipIdx.foldl (fun m e => SMap.put (fun _ => 0xFF#8) m (a + e.2) e.1) s.stw.nor }

/-- MAGIC and LENGTH of an image header. -/
def imageHead (h : List Byte) : Bool := fieldLe h 0 4 == 0x31575453 && decide (fieldLe h 12 4 ≤ 4194128)

/-- The code bytes that go to SRAM: at most 512 KiB (R535). -/
def codeLen (h : List Byte) : Nat := min (fieldLe h 12 4) 524288

/-- A steward image is valid (R521): header, code and trailer, signed under a steward key, with an SVN of at least the
blown fuses. -/
def State.imageValid (s : State) (im : List Byte) : Bool :=
  let n := im.length - 144
  let tr := im.drop n
  imageHead im && im.length == 176 + fieldLe im 12 4 && fieldLe tr 140 4 == 0x47495353 &&
  decide (fieldLe im 8 4 ≤ 64) && decide (s.getF Reg.MGT_OTP_STAT_SVN ≤ fieldLe im 8 4) &&
  (signatureFault (im.take n) tr 4 (s.getF Reg.MGT_OTP_STAT_STW_PROG) (s.getF Reg.MGT_OTP_STAT_STW_REVOKED)
    (fun k => SMap.get (fun _ => []) s.otp.digest k)).isNone

/-- A valid image whose ENTRY lies in the code copied (R535). -/
def State.imageBoots (s : State) (im : List Byte) : Bool := s.imageValid im && decide (fieldLe im 16 4 < codeLen im)

/-- The staging area: the top 4 MiB of host-core memory (R533). -/
def stagingKey : Nat := hostKey 0x1C00000

/-- The image that stands in the staging area, by its own LENGTH. -/
def State.staged (s : State) : List Byte :=
  let h := s.rdBytes stagingKey 32
  if imageHead h then s.rdBytes stagingKey (176 + fieldLe h 12 4) else h

/-- PHASE and ERROR of MGT_BOOT_STAT (Table 21-5). -/
def State.phase (s : State) (p : Nat) : State := s.setF Reg.MGT_BOOT_STAT_PHASE p
def State.bootError (s : State) (e : Nat) : State := s.setF Reg.MGT_BOOT_STAT_ERROR e

/-- The steward core runs, or waits. -/
def State.setRun (s : State) (r : StwRun) : State := s.setStw { s.stw with run := r }

/-- Start the image of the staging area (R535). -/
def State.startImage (s : State) (bank : Nat) (im : List Byte) : State :=
  let code := (im.drop 32).take (codeLen im)
  let s1 := ((s.setF Reg.MGT_HCM_LOCK 1).setF Reg.MGT_HOST_WMASK 0).setF Reg.MGT_BOOT_STAT_BANK bank
  (s1.phase 0x08).setStw { s1.stw with
    run := .firmware, bank := bank, version := fieldLe im 4 4, svn := fieldLe im 8 4, entry := fieldLe im 16 4
    begun := 0, params := [], job := [], lost := [], turn := 1, lock := false, small := 0
    sram := code.zipIdx.foldl (fun m e => SMap.put (fun _ => 0#8) m e.2 e.1) s1.stw.sram,
    sramEcc := SMap.drop (fun k => decide (8 * k < code.length)) s1.stw.sramEcc }

/-- The board record when MAGIC and CRC are right, else one of zeros (R533, Table 21-4). -/
def State.boardRecord (s : State) : List Byte :=
  let b := s.norBytes 0x800000 64
  if fieldLe b 0 4 = 0x43455242 ∧ fieldLe b 60 4 = crc32c (b.take 60) then b else List.replicate 64 0#8

/-- Try a bank: its image is read into the staging area and checked (R533). The Bool says that it started. -/
def State.tryBank (s : State) (b : Nat) : State × Bool :=
  let s1 := s.phase (3 + b)
  let h := s1.norBytes (b * 0x400000) 32
  if imageHead h then
    let im := s1.norBytes (b * 0x400000) (176 + fieldLe h 12 4)
    let s2 := (s1.wrBytes stagingKey im).phase 0x05
    if s2.imageBoots im then (s2.startImage b im, true) else (s2, false)
  else (s1, false)

/-- Wait for a PCIe image (R534), or halt with error 5 (R532). -/
def State.bootPcie (s : State) : State :=
  if s.flag Reg.MGT_OTP_STAT_PCIE_BOOT_EN then
    let s1 := State.writeDomReq 55 (stwW 3) s
    ((s1.setF Reg.MGT_HOST_WMASK (s1.getF Reg.MGT_HOST_WMASK ||| 1)).phase 0x06).setRun .pcie
  else (s.bootError 5).setRun .halted

/-- Choose the boot source and obtain an image (R532, R533). -/
def State.bootImage (s : State) : State :=
  if s.getF Reg.MGT_STRAP_BOOT_SRC = 1 then s.bootPcie
  else
    let first := fieldLe s.boardRecord 4 1 % 2
    let a := s.tryBank first
    if a.2 then a.1
    else
      let b := a.1.tryBank (1 - first)
      if b.2 then b.1
      else if s.getF Reg.MGT_STRAP_BOOT_SRC = 2 then (b.1.bootError 4).bootPcie
      else (b.1.bootError 5).setRun .halted

/-- BOOT_ROM_START: the steward core's first instruction after the device is Active (R531), with the outcomes of its
self-check, SRAM test and OTP check. The ROM then waits for domains 41 and 37: the command is given again when a domain
it waits for has come ON, and at last obtains the image. -/
def execBootRomStart (rom sram otp : Bool) (s : State) : Out :=
  match s.stw.run with
  | .held =>
    if s.pwr.dev = .active ∧ s.domOn 38 = true then
      let s1 := s.phase 0x01
      if !rom then .next ((s1.bootError 1).setRun .halted)
      else if !sram then .next ((s1.bootError 2).setRun .halted)
      else if !otp then .next ((s1.bootError 3).setRun .halted)
      else .next ((State.writeDomReq 41 (stwW 3) (s1.phase 0x02)).setRun .rom)
    else .next s
  | .rom =>
    if !s.domOn 41 then .next s
    else if s.domOn 37 then .next s.bootImage
    else if (s.transOf 37).isSome then .next s
    else .next (State.writeDomReq 37 (stwW 3) s)
  | _ => .next s

/-- A write of MGT_BOOT_PCIE: GO makes the waiting boot ROM check the image of LEN bytes in the staging area (R534). -/
def State.writeBootPcie (w : WriteReq) (s : State) : State :=
  let s1 := s.plainWrite Reg.MGT_BOOT_PCIE_LEN.off w
  if wBit w Reg.MGT_BOOT_PCIE_GO && s1.stw.run == .pcie then
    let n := s1.getF Reg.MGT_BOOT_PCIE_LEN
    let im := s1.rdBytes stagingKey n
    if n ≤ 0x400000 ∧ s1.imageBoots im = true then s1.startImage 0 im else (s1.bootError 4).phase 0x06
  else s1

/-- MGT_BOOT_PCIE_GO. -/
def execMgtBootPcieGo (w : WriteReq) (s : State) : Out :=
  .next (s.gated w.agent w.half Reg.MGT_BOOT_PCIE_LEN.off (State.writeBootPcie w))

/-- MGT_HCM_LOCK. -/
def execMgtHcmLock (w : WriteReq) (s : State) : Out :=
  .next (s.gated w.agent w.half Reg.MGT_HCM_LOCK.off (fun s => s.plainWrite Reg.MGT_HCM_LOCK.off w))

/-- A write of MGT_OTP_REVOKE: GO blows the revoke bit of the slot named (R530). -/
def State.writeRevoke (w : WriteReq) (s : State) : State :=
  if wBit w Reg.MGT_OTP_REVOKE_GO then
    let k := (wField w Reg.MGT_OTP_REVOKE_SLOT).getD 0
    let f := if wBit w Reg.MGT_OTP_REVOKE_KIND then Reg.MGT_OTP_STAT_WV_REVOKED else Reg.MGT_OTP_STAT_STW_REVOKED
    s.setF f (s.getF f ||| 2 ^ k)
  else s

/-- MGT_OTP_REVOKE. -/
def execMgtOtpRevoke (w : WriteReq) (s : State) : Out :=
  .next (s.gated w.agent w.half Reg.MGT_OTP_REVOKE_GO.off (State.writeRevoke w))

/-! ### Management registers -/

/-- A write of MGT_DEVNUM (R549). -/
def State.writeDevnum (w : WriteReq) (s : State) : State :=
  if [0, 1, 2, 3].any (fun n => s.resident n) || (List.range 8).any (fun l => s.flag (Reg.QSK_L_CTL_EN l)) then s
  else s.plainWrite Reg.MGT_DEVNUM.off w

/-- MGT_DEVNUM. -/
def execMgtDevnum (w : WriteReq) (s : State) : Out :=
  .next (s.gated w.agent w.half Reg.MGT_DEVNUM.off (State.writeDevnum w))

/-- A write of MGT_WDOG: KICK restarts the watchdog, and the first one arms it (R524, R551). -/
def State.writeWdog (w : WriteReq) (s : State) : State :=
  if wBit w Reg.MGT_WDOG_KICK then (s.setF Reg.MGT_WDOG_ARMED 1).setStw { s.stw with kicked := s.now } else s

/-- MGT_WDOG_KICK. -/
def execMgtWdogKick (w : WriteReq) (s : State) : Out :=
  .next (s.gated w.agent w.half Reg.MGT_WDOG_KICK.off (State.writeWdog w))

/-- WDOG_EXPIRE: 100 ms without a KICK. -/
def execWdogExpire (s : State) : Out :=
  if s.flag Reg.MGT_WDOG_ARMED && !s.flag Reg.MGT_WDOG_EXPIRED then
    .next (((s.reach (s.stw.kicked + 100000000)).setF Reg.MGT_WDOG_EXPIRED 1).irqSource 71)
  else .next s

/-- Release a hart at an address, once its domain is ON (R539, R545). -/
def State.releaseHart (s : State) (h entry : Nat) : State :=
  s.setStw { s.stw with harts := if s.stw.harts.any (fun e => e.1 == h) then s.stw.harts else s.stw.harts ++ [(h, entry)] }

/-- A write of MGT_HART_START: each bit written 1 releases its hart at MGT_HART_ENTRY, once until its domain loses power. -/
def State.writeHartStart (w : WriteReq) (s : State) : State :=
  let v := (wField w Reg.MGT_HART_START).getD 0
  (List.range 4).foldl (fun s h =>
    if bit1 v h && s.domOn (33 + h) then
      (s.setF Reg.MGT_HART_START (s.getF Reg.MGT_HART_START ||| 2 ^ h)).releaseHart h (s.getF Reg.MGT_HART_ENTRY)
    else s) s

/-- MGT_HART_START. -/
def execMgtHartStart (w : WriteReq) (s : State) : Out :=
  .next (s.gated w.agent w.half Reg.MGT_HART_START.off (State.writeHartStart w))

/-! ### Self tests (R538, R573) -/

/-- A self test of a core (or of the Solstice engine, 32) is in progress. -/
def State.testing (s : State) (u : Nat) : Bool := SMap.get (fun _ => false) s.stw.bist u
def State.setTesting (s : State) (u : Nat) (b : Bool) : State :=
  s.setStw { s.stw with bist := SMap.put (fun _ => false) s.stw.bist u b }

/-- A write of CCnn_BIST: GO on a core that is ON and belongs to no pipeline. -/
def State.writeBist (c : Nat) (w : WriteReq) (s : State) : State :=
  if wBit w (Reg.CC_BIST_GO c) && s.domOn c && !s.corePlaced c then
    ((s.setF (Reg.CC_BIST_DONE c) 0).setF (Reg.CC_BIST_PASS c) 0).setTesting c true
  else s

/-- CC_BIST_GO. -/
def execCcBistGo (c : Fin 32) (w : WriteReq) (s : State) : Out :=
  .next (s.gatedAct w.agent w.half (Reg.CC_BIST_GO c).off (State.writeBist c w))

/-- A write of SOL_BIST: GO while no pipeline that uses the engine is resident. -/
def State.writeSolBist (w : WriteReq) (s : State) : State :=
  if wBit w Reg.SOL_BIST_GO && s.domOn 32 && !s.heldByPipe 32 then
    ((s.setF Reg.SOL_BIST_DONE 0).setF Reg.SOL_BIST_PASS 0).setTesting 32 true
  else s

/-- SOL_BIST_GO. -/
def execSolBistGo (w : WriteReq) (s : State) : Out :=
  .next (s.gatedAct w.agent w.half Reg.SOL_BIST_GO.off (State.writeSolBist w))

/-- What a test leaves of a core (R573): memories, windows and counters 0, thread slots FREE; the other controller and
vector-engine registers stay. -/
def State.testedCore (s : State) (c : Nat) : State :=
  let b := 0x1000000 + 0x100000 * c
  let tested := fun (off : Nat) => decide (b ≤ off ∧ off < b + 0x100000) &&
    (decide (off - b < 0xE0000) || decide (0xE0180 ≤ off - b ∧ off - b < 0xE0200) || decide (0xE1100 ≤ off - b))
  (s.wipeCore c).setRegs (dropKeys tested s.regs)

/-- BIST_DONE: the test ends; a failure makes the unit lost with cause 4, or 1 for the Solstice engine (Table 21-7). -/
def execBistDone (u : Fin 33) (pass : Bool) (s : State) : Out :=
  if s.testing u then
    let s0 := s.setTesting u false
    if !s.domOn u then .next s0
    else if u.val < 32 then
      let s1 := (s0.testedCore u).setF (Reg.CC_BIST_DONE u) 1
      .next (if pass then s1.setF (Reg.CC_BIST_PASS u) 1 else s1.loseCore u 4)
    else
      let s1 := ((s0.setSol { s0.sol with wmem := [], wecc := [] }).setLearn { s0.learn with trace := [], gen := [], tecc := [] }).setF
        Reg.SOL_BIST_DONE 1
      .next (if pass then s1.setF Reg.SOL_BIST_PASS 1 else s1.loseSol 1)
  else .next s

/-! ### PCIe resets (R510, R594) -/

/-- What a PCIe reset does. The configuration space holds no state that the spec names. -/
def State.pcieReset (s : State) : State :=
  let s1 := (s.setRegs (dropKeys isPciWin s.regs)).setStw { s.stw with msix := [] }
  ((List.range 93).foldl (fun s i =>
    if s.getF (Reg.MGT_IRQ_ROUTE_DEST (i + 1)) = 1 then s.setF (Reg.MGT_IRQ_ROUTE_DEST (i + 1)) 2 else s) s1).mbxDisable 1

/-- PCIE_RESET: a function level reset, hot reset or link-down; absorbed while PE_PERST_N is low. -/
def execPcieReset (s : State) : Out := .next (if s.pwr.perst then s else s.pcieReset)

/-- PE_PERST_N changes level: low resets the endpoint and keeps its link down. -/
def execPePerstN (low : Bool) (s : State) : Out :=
  if low && !s.pwr.perst then
    let s1 := s.pcieReset
    .next ((s1.setF Reg.PCI_LINK_STAT_UP 0).setPwr { s1.pwr with perst := true })
  else if low then .next s
  else .next (s.setPwr { s.pwr with perst := false })

/-! ### Loopbacks and pattern checkers (R541) -/

/-- A resident pipeline uses a port: a stream bound to it comes from a camera on the port. -/
def State.portUsed (s : State) (p : Nat) : Bool :=
  (List.range 64).any (fun m => s.getF (Reg.ING_STR_STATE m) != 0 && s.epPort (s.cameraOf m) == p)

/-- A resident pipeline has a circuit through a link. -/
def State.linkCircuit (s : State) (l : Nat) : Bool :=
  [0, 1, 2, 3].any (fun n => s.resident n && (s.pipe n).links.contains l)

/-- The register of a loopback or pattern setting. -/
def loopFld : LoopSite → Fld
  | .ethLoop p => Reg.ETH_P_LOOP p
  | .ethPrbs p => Reg.ETH_P_PRBS_EN p
  | .linkLoop l => Reg.QSK_L_LOOP l
  | .linkPrbs l => Reg.QSK_L_PRBS_EN l

/-- A setting may be written now: no resident pipeline uses the port or link. -/
def State.loopFree (s : State) : LoopSite → Bool
  | .ethLoop p | .ethPrbs p => !s.portUsed p
  | .linkLoop l | .linkPrbs l => !s.linkCircuit l

/-- A write of a loopback or pattern setting; ETH_Pn_LOOP takes 0 to 2. -/
def State.writeLoop (k : LoopSite) (w : WriteReq) (s : State) : State :=
  let s1 := s.plainWrite (loopFld k).off w
  let f := loopFld k
  if s.regActs f.off && s.loopFree k && !(f.w == 2 && s1.getF f == 3) then s1 else s

/-- LOOPBACK_WRITE. -/
def execLoopbackWrite (k : LoopSite) (w : WriteReq) (s : State) : Out :=
  .next (s.gated w.agent w.half (loopFld k).off (State.writeLoop k w))

end Sys2Proof.Machine
end

