-- ==== Sys2Proof/Machine/FaultUnit.lean ====
section
/-!
DEFINITION. The fault unit: writing the fault ring, its configuration, its loss counters and its interrupt holdoff
(spec/18_faults_and_ordering.md R468 to R474, spec/22 R558).
-/

namespace Sys2Proof.Machine

/-- The status a whole-word write of the fault ring would complete with (R472). -/
def State.ringTarget (s : State) (a : Nat) : Option Place :=
  match s.place a with
  | .hbm g off => if s.chanLost g || !s.domOn (43 + g / 16) then none else some (.hbm g off)
  | .host off => if s.domHolds 37 then some (.host off) else none
  | _ => none

/-- Write one whole 32-byte word to HBM or host-core memory. -/
def State.wrWord32 (s : State) (p : Place) (bs : List Byte) : State :=
  match p with
  | .hbm g off => s.hbmWriteFull g off bs
  | .host off => s.hostPut off bs
  | _ => s

/-- The ring has room: WR − RD below 2^LOG2, and WR − HRD too under HOST_GATE, modulo 2^32 (R469, R558). -/
def State.ringRoom (s : State) : Bool :=
  let wr := s.getF Reg.FLT_Q_WR
  let size := 2 ^ s.getF Reg.FLT_Q_LOG2
  decide ((wr + 2 ^ 32 - s.getF Reg.FLT_Q_RD) % 2 ^ 32 < size) &&
  (!s.flag Reg.FLT_CTL_HOST_GATE || decide ((wr + 2 ^ 32 - s.getF Reg.FLT_Q_HRD) % 2 ^ 32 < size))

/-- The ring of weight source `n` holds as many unconsumed records as entries (R436). -/
def State.weightFull (s : State) (n : Nat) : Bool :=
  decide (2 ^ s.getF (Reg.BGW_SRC_CFG_LOG2 n) ≤
    (s.getF (Reg.BGW_SRC_WR n) + 2 ^ 32 - s.getF (Reg.BGW_SRC_RD n)) % 2 ^ 32)

/-- Deliver a weight record: two whole words of its ring, then WR, with the gateway's copy of STABLE, WSEQ and INSTANT
(R435), and DEGRADED.0x506 once per excursion of overwriting (R436). -/
def State.deliverWeight (s : State) (bs : List Byte) : State :=
  let n := fieldLe bs 8 1
  let i := s.getF (Reg.BGW_SRC_WR n) % 2 ^ s.getF (Reg.BGW_SRC_CFG_LOG2 n)
  let full := s.weightFull n
  let s1 := if full && !s.bgw.overrun.contains n then
      (s.report 1 0x506 (uSource n 0) []).setBgw { s.bgw with overrun := s.bgw.overrun ++ [n] }
    else if full then s
    else s.setBgw { s.bgw with overrun := s.bgw.overrun.filter (fun x => x != n) }
  let a := s.getF (Reg.BGW_SRC_BASE n) + 64 * i
  let put := fun (s : State) (k : Nat) =>
    match s.ringTarget (a + 32 * k) with
    | some p => s.wrWord32 p (sliceB bs (32 * k) 32)
    | none => s
  let s2 := (put (put s1 0) 1).addF (Reg.BGW_SRC_WR n) 1
  let copy := some (bit1 (fieldLe bs 9 1) 0, fieldLe bs 4 4, fieldLe bs 24 8)
  (s2.setBgw { s2.bgw with copies := SMap.put (fun _ => none) s2.bgw.copies (n * 256 + i) copy }).irqSource 66

/-- Deliver the weight records whose fault record waits no longer, oldest first (R436). -/
def State.releaseWeights (s : State) : State :=
  let wait := fun (d : FaultRec × List Byte) => s.flt.pend.contains d.1
  (s.bgw.due.filter (fun d => !wait d)).foldl (fun s d => s.deliverWeight d.2)
    (s.setBgw { s.bgw with due := s.bgw.due.filter wait })

/-- The pending fault record is written to the ring once there is room (R469, R470). A write that would complete
UNAVAILABLE stops the ring, sets RING_ERROR and RING, keeps the record first and raises DEGRADED.0xF02 (R472). -/
def execFaultRingWrite (s : State) : Out :=
  match s.flt.pend with
  | [] => .next s
  | r :: rest =>
    if s.domHolds 38 && s.flag Reg.FLT_CTL_EN && !s.flag Reg.FLT_STATUS_RING_ERROR && s.ringRoom then
      let wr := s.getF Reg.FLT_Q_WR
      let a := s.getF Reg.FLT_Q_BASE + 32 * (wr % 2 ^ s.getF Reg.FLT_Q_LOG2)
      match s.ringTarget a with
      | some p =>
        let s1 := (s.wrWord32 p (r.bytes wr)).addF Reg.FLT_Q_WR 1
        .next (((s1.setFlt { s1.flt with pend := rest }).fltVisible r.cls).settleFollowers.releaseWeights)
      | none =>
        .next (((s.setF Reg.FLT_STATUS_RING_ERROR 1).fltSpecial Reg.FLT_IRQ_STAT_RING).report 1 0xF02 uDevice
          [(43, a / 32), (4, 2)])
    else .next s

/-- A ring of 2^LOG2 entries at a base lies wholly in committed HBM or host-core memory (R468). -/
def State.ringCommitted (s : State) (base log2 : Nat) : Bool := s.rangeOk base (32 * 2 ^ log2) true

/-- A write of FLT_CTL (R468): EN from 0 to 1 sets WR, RD and HRD to 0 and clears RING_ERROR; HOST_GATE may change only
while EN is 0; LAST_CLR clears FLT_LAST_DEVICE (R473). A rejected write is ignored whole with CORRECTED.0xF03. -/
def State.writeFltCtl (w : WriteReq) (s : State) : State :=
  let en := s.flag Reg.FLT_CTL_EN
  let en' := match wField w Reg.FLT_CTL_EN with | some v => v == 1 | none => en
  let hg' := match wField w Reg.FLT_CTL_HOST_GATE with | some v => v | none => s.getF Reg.FLT_CTL_HOST_GATE
  let reject := (s.report 0 0xF03 uDevice [(26, Reg.FLT_CTL_EN.off), (32, written w)])
  if en && hg' != s.getF Reg.FLT_CTL_HOST_GATE then reject
  else
    let s1 := (s.setF Reg.FLT_CTL_EN (b2n en')).setF Reg.FLT_CTL_HOST_GATE hg'
    let s2 := if !en && en' then
        (((s1.setF Reg.FLT_Q_WR 0).setF Reg.FLT_Q_RD 0).setF Reg.FLT_Q_HRD 0).setF Reg.FLT_STATUS_RING_ERROR 0
      else s1
    if wBit w Reg.FLT_CTL_LAST_CLR then
      (List.range 4).foldl (fun s i => s.setF (Reg.FLT_LAST_DEVICE i) 0) s2
    else s2

/-- A write of FLT_Q_BASE or FLT_Q_LOG2 (R468): a change while EN is 1, or one that names a ring outside committed
memory, is ignored with CORRECTED.0xF03, and so is a base that is not aligned or a LOG2 outside 6 to 16 (R548). -/
def State.writeFltRing (f : Fld) (w : WriteReq) (s : State) : State :=
  let v := (mergeWrite (Reg.fields f.off) w.half w.value (s.word f.off)).toNat % 2 ^ f.w
  if v = s.getF f then s
  else
    let base := if f.off = Reg.FLT_Q_BASE.off then v else s.getF Reg.FLT_Q_BASE
    let l2 := if f.off = Reg.FLT_Q_LOG2.off then v else s.getF Reg.FLT_Q_LOG2
    if s.flag Reg.FLT_CTL_EN || decide (l2 < 6) || decide (16 < l2) || base % 32 != 0 || !s.ringCommitted base l2 then
      s.report 0 0xF03 uDevice [(26, f.off), (32, written w)]
    else s.setF f v

/-- FLT_CTL_EN: a write of FLT_CTL (R468). -/
def execFltCtlEn (w : WriteReq) (s : State) : Out :=
  .next (s.gated w.agent w.half Reg.FLT_CTL_EN.off (State.writeFltCtl w))

/-- FLT_LAST_CLR: a write of FLT_CTL with LAST_CLR (R473). -/
def execFltLastClr (w : WriteReq) (s : State) : Out :=
  .next (s.gated w.agent w.half Reg.FLT_CTL_EN.off (State.writeFltCtl w))

/-- A read of FLT_LOST_Cn returns the class's loss count and clears it (R471, R547). -/
def execFltLostRead (n : Fin 5) (r : ReadReq) (s : State) : Out :=
  if s.domHolds 38 then
    let v := s.word (Reg.FLT_LOST_C n).off
    let s1 := if coversLo r.half then s.setF (Reg.FLT_LOST_C n) 0 else s
    .next (s1.answer .ok (v &&& halfMask r.half))
  else .next (s.answer .ok 0#64)

/-- HOLDOFF has passed (R474): a CORRECTED or DEGRADED status bit of an enabled class that is still set asserts the
destination's interrupt. The Almanac is carried to the end of the holdoff when it lies ahead. -/
def execIrqHoldoffExpiry (d : Fin 3) (s : State) : Out :=
  let set := s.getF (Reg.FLT_IRQ_STAT_CLASS d) &&& s.getF (Reg.FLT_IRQ_CFG_CLASS_EN d)
  if set % 4 = 0 then .next s
  else
    let s1 := match SMap.get (fun _ => none) s.flt.irqLast d with
      | none => s
      | some t => s.reach (t + 1000 * s.getF (Reg.FLT_IRQ_CFG_HOLDOFF d))
    .next (s1.fltAssert d)

end Sys2Proof.Machine
end

