-- ==== Sys2Proof/Machine/Gateway.lean ====
section
/-!
DEFINITION. The barrier gateway: the link (spec/16_metrology_island.md R427 to R430), weight records (R431 to R436), the
message ring (R437), the send windows (R438), TIME frames (R439), and record-key programming (spec/21 R540).
-/

namespace Sys2Proof.Machine

/-! ### Frames -/

/-- Sources of one gateway list entry per channel. -/
def State.bgwPut (s : State) (f : Gateway → Gateway) : State := s.setBgw (f s.bgw)

/-- A legitimate island-to-host type of a channel (Table 16-6). -/
def toHost (c ty : Nat) : Bool := ty == 0 || (c == 0 && ty == 1) || (c == 1 && decide (2 ≤ ty ∧ ty ≤ 5))

/-- A legitimate host-to-island type of a channel (Table 16-6), IDLE apart. -/
def toIsland (c ty : Nat) : Bool := (c == 0 && decide (0x10 ≤ ty ∧ ty ≤ 0x14)) || (c == 1 && (ty == 0x15 || ty == 0x16))

/-- A frame's CRC holds (R428). -/
def frameCrcOk (bs : List Byte) : Bool := fieldLe bs 60 4 == crc32c (sliceB bs 0 60)

/-- A frame of 64 bytes from TYPE, LSEQ and body (R428). -/
def barFrame (ty lseq : Nat) (body : List Byte) : List Byte :=
  let b := leBytes 1 ty ++ leBytes 1 1 ++ leBytes 2 lseq ++ sliceB body 0 56
  b ++ leBytes 4 (crc32c b)

/-- A frame fails its CRC: discarded and counted, with CORRECTED.0x501 at most once per second per channel (R429). -/
def State.barCrc (s : State) (c : Nat) : State :=
  let s1 := (s.addF (Reg.BGW_CRC_ERR c) 1).bgwPut (fun b => { b with good := SMap.put (fun _ => 0) b.good c 0 })
  let due := match SMap.get (fun _ => none) s.bgw.crcAt c with | some t => decide (t + 1000000000 ≤ s.now) | none => true
  if due then
    (s1.report 0 0x501 (uBarrier c) [(16, s1.getF (Reg.BGW_CRC_ERR c))]).bgwPut
      (fun b => { b with crcAt := SMap.put (fun _ => none) b.crcAt c (some s.now) })
  else s1

/-- LSEQ of a frame, or of an IDLE, against the expected one (R428, R429): every value but the expected one lies beyond it
modulo 2^16. -/
def State.barSeq (s : State) (c ty lseq : Nat) : State :=
  let s1 := match SMap.get (fun _ => none) s.bgw.expect c with
    | some e => if e = lseq then s else s.report 1 0x502 (uBarrier c) [(16, e), (16, (lseq + 65535) % 65536)]
    | none => s
  s1.bgwPut (fun b => { b with
    expect := SMap.put (fun _ => none) b.expect c (some (if ty = 0 then lseq else (lseq + 1) % 65536)) })

/-- A valid frame while the link is down counts towards UP (R430); the first frame after UP sets the expected LSEQ. -/
def State.barTrain (s : State) (c : Nat) : State :=
  let s1 := s.bgwPut (fun b => { b with
    good := SMap.put (fun _ => 0) b.good c (min 16 (SMap.get (fun _ => 0) b.good c + 1)) })
  if 16 ≤ SMap.get (fun _ => 0) s1.bgw.good 0 ∧ 16 ≤ SMap.get (fun _ => 0) s1.bgw.good 1 then
    ((s1.setF Reg.BGW_STAT_UP 1).bgwPut (fun b => { b with expect := [] })).report 0 0x50A (uBarrier 0) []
  else s1

/-- A frame of the type `ty` that a command stands for arrives on an island-to-host channel (R429, R430). Bytes of another
legitimate type have no effect here: that type has a command of its own. -/
def State.barRx (s : State) (c ty : Nat) (bytes : List Byte) (act : List Byte → State → State) : State :=
  let bs := sliceB bytes 0 64
  let t := fieldLe bs 0 1
  if !s.domOn 38 then s
  else if !frameCrcOk bs then s.barCrc c
  else if fieldLe bs 1 1 = 1 ∧ toHost c t = true ∧ t ≠ ty then s
  else
    let up := s.flag Reg.BGW_STAT_UP
    let s1 := if up then s.barSeq c t (fieldLe bs 2 2) else s
    if fieldLe bs 1 1 ≠ 1 ∨ toHost c t = false then
      (s1.bgwPut (fun b => { b with good := SMap.put (fun _ => 0) b.good c 0 })).report 1 0x50C (uBarrier c) [(8, t)]
    else if up then act bs s1 else s1.barTrain c

/-! ### Weight records (R431 to R436) -/

/-- VER, EXP range and reserved bits (Table 16-9), SOURCE above 127 among them. -/
def weightFormatOk (bs : List Byte) : Bool :=
  let e := sint 8 (fieldLe bs 10 1)
  decide (fieldLe bs 8 1 < 128) && !bit1 (fieldLe bs 9 1) 7 && decide (-6 ≤ e ∧ e ≤ 0) && decide (fieldLe bs 11 1 < 2)

/-- The CMAC of a record holds under the host copy of its key slot, which is programmed (R432). -/
def State.weightMacOk (s : State) (bs : List Byte) : Bool :=
  let k := fieldLe bs 11 1
  bit1 (s.getF Reg.BGW_KEYSTAT_PROG) k &&
  cmac (SMap.get (fun _ => []) s.otp.recKey k) (sliceB bs 4 40) == sliceB bs 44 16

/-- DEGRADED.0x505 with a cause: 0 FORMAT, 1 ORDER, 2 TIME. -/
def State.weightReject (s : State) (bs : List Byte) (cause : Nat) : State :=
  s.report 1 0x505 (uSource (fieldLe bs 8 1 % 128) 0) [(32, fieldLe bs 4 4), (4, cause)]

/-- An accepted record is delivered, or waits behind a fault record that its checks raised and that is not visible yet
(R436), and behind earlier records of its source. -/
def State.weightAccept (s : State) (bs : List Byte) (raised : Bool) : State :=
  let n := fieldLe bs 8 1
  let s1 := s.bgwPut (fun b => { b with base := SMap.put (fun _ => none) b.base n (some (fieldLe bs 4 4, fieldLe bs 24 8)) })
  let behind := (s1.bgw.due.filter (fun d => fieldLe d.2 8 1 == n)).getLast?.map (fun d => d.1)
  match if raised then s1.flt.pend.getLast? else behind with
  | some r => s1.bgwPut (fun b => { b with due := b.due ++ [(r, bs)] })
  | none => s1.deliverWeight bs

/-- The checks of Table 16-9, in order. -/
def State.weight (bs : List Byte) (s : State) : State :=
  let n := fieldLe bs 8 1
  let wseq := fieldLe bs 4 4
  if !weightFormatOk bs then s.weightReject bs 0
  else if !s.flag (Reg.BGW_SRC_CFG_EN n) then
    if s.bgw.disabled.contains n then s
    else (s.report 0 0x508 (uSource n 0) []).bgwPut (fun b => { b with disabled := b.disabled ++ [n] })
  else if !s.weightMacOk bs then s.report 1 0x504 (uSource n 0) [(32, wseq), (4, fieldLe bs 11 1)]
  else
    match SMap.get (fun _ => none) s.bgw.base n with
    | none => s.weightAccept bs false
    | some (b, t) =>
      let d := (wseq + 2 ^ 32 - b) % 2 ^ 32
      if d = 0 ∨ 2 ^ 31 ≤ d then s.weightReject bs 1
      else if fieldLe bs 24 8 < t then s.weightReject bs 2
      else if d = 1 then s.weightAccept bs false
      else
        let s1 := s.report 1 0x503 (uSource n 0) [(32, (b + 1) % 2 ^ 32), (32, (wseq + 2 ^ 32 - 1) % 2 ^ 32)]
        s1.weightAccept bs (decide (s.flt.pend.length < s1.flt.pend.length))

/-- WEIGHT. -/
def execWeight (c : Fin 2) (bytes : List Byte) (s : State) : Out := .next (s.barRx c 1 bytes State.weight)

/-- A write of BGW_SRCnnn_CFG (R433): a changed LOG2 requires EN at 0, and LOG2 lies within 4 to 8 (R548); setting EN
clears WR, RD and the source's baseline. -/
def State.writeSrcCfg (n : Nat) (w : WriteReq) (s : State) : State :=
  let off := (Reg.BGW_SRC_CFG_EN n).off
  let s1 := s.plainWrite off w
  let lg := s1.getF (Reg.BGW_SRC_CFG_LOG2 n)
  let en := s.flag (Reg.BGW_SRC_CFG_EN n)
  if lg < 4 ∨ 8 < lg ∨ (en = true ∧ lg ≠ s.getF (Reg.BGW_SRC_CFG_LOG2 n)) then s
  else if !en && s1.flag (Reg.BGW_SRC_CFG_EN n) then
    ((s1.setF (Reg.BGW_SRC_WR n) 0).setF (Reg.BGW_SRC_RD n) 0).bgwPut (fun b => { b with
      base := SMap.put (fun _ => none) b.base n none,
      copies := SMap.drop (fun k => k / 256 == n) b.copies,
      disabled := b.disabled.filter (fun x => x != n), overrun := b.overrun.filter (fun x => x != n) })
  else s1

/-- BGW_SRC_CFG. -/
def execBgwSrcCfg (n : Fin 128) (w : WriteReq) (s : State) : Out :=
  .next (s.gated w.agent w.half (Reg.BGW_SRC_CFG_EN n).off (State.writeSrcCfg n w))

/-- A write of BGW_SRCnnn_RD: an overrun excursion ends when WR − RD falls below 2^LOG2 (R436). -/
def State.writeSrcRd (n : Nat) (w : WriteReq) (s : State) : State :=
  let s1 := s.plainWrite (Reg.BGW_SRC_RD n).off w
  if s1.weightFull n then s1 else s1.bgwPut (fun b => { b with overrun := b.overrun.filter (fun x => x != n) })

/-- A write of BGW_SRCnnn_BASE: only while EN is 0, and 64-byte aligned (R433, R548). -/
def State.writeSrcBase (n : Nat) (w : WriteReq) (s : State) : State :=
  let s1 := s.plainWrite (Reg.BGW_SRC_BASE n).off w
  if s.flag (Reg.BGW_SRC_CFG_EN n) || s1.getF (Reg.BGW_SRC_BASE n) % 64 != 0 then s else s1

/-! ### The message ring (R437, R564) -/

/-- The message ring has no room; while EN is 0 it counts as full. -/
def State.mrFull (s : State) : Bool :=
  !s.flag Reg.BGW_MR_CTL_EN ||
  decide (2 ^ s.getF Reg.BGW_MR_CTL_LOG2 ≤ (s.getF Reg.BGW_MR_WR + 2 ^ 32 - s.getF Reg.BGW_MR_RD) % 2 ^ 32)

/-- Write one frame to the message ring. -/
def State.mrPut (s : State) (bs : List Byte) : State :=
  let a := s.getF Reg.BGW_MR_BASE + 64 * (s.getF Reg.BGW_MR_WR % 2 ^ s.getF Reg.BGW_MR_CTL_LOG2)
  let put := fun (s : State) (k : Nat) =>
    match s.ringTarget (a + 32 * k) with
    | some p => s.wrWord32 p (sliceB bs (32 * k) 32)
    | none => s
  ((put (put s 0) 1).addF Reg.BGW_MR_WR 1).irqSource 67

/-- Write waiting frames while there is room, oldest first. -/
def State.mrDrain (s : State) : State :=
  s.bgw.wait.foldl (fun s bs => if s.mrFull then s else (s.mrPut bs).bgwPut (fun b => { b with wait := b.wait.drop 1 })) s

/-- A message frame: written, waiting, or discarded with DEGRADED.0x507 and the LSEQ range discarded, one frame at a
time. -/
def State.message (bs : List Byte) (s : State) : State :=
  if !s.mrFull && s.bgw.wait.isEmpty then s.mrPut bs
  else if s.bgw.wait.length < 16 then (s.bgwPut (fun b => { b with wait := b.wait ++ [bs] })).mrDrain
  else s.report 1 0x507 (uBarrier 0) [(16, fieldLe bs 2 2), (16, fieldLe bs 2 2)]

/-- IDENT. -/
def execIdent (c : Fin 2) (bytes : List Byte) (s : State) : Out := .next (s.barRx c 2 bytes State.message)
/-- RESULT. -/
def execResult (c : Fin 2) (bytes : List Byte) (s : State) : Out := .next (s.barRx c 3 bytes State.message)
/-- EVENT. -/
def execEvent (c : Fin 2) (bytes : List Byte) (s : State) : Out := .next (s.barRx c 4 bytes State.message)
/-- IMAGE_REQ. -/
def execImageReq (c : Fin 2) (bytes : List Byte) (s : State) : Out := .next (s.barRx c 5 bytes State.message)

/-- A write of BGW_MR_CTL (R564): LOG2, within 4 to 12, may change only while EN is 0; setting EN clears WR and RD. -/
def State.writeMrCtl (w : WriteReq) (s : State) : State :=
  let s1 := s.plainWrite Reg.BGW_MR_CTL_EN.off w
  let lg := s1.getF Reg.BGW_MR_CTL_LOG2
  let en := s.flag Reg.BGW_MR_CTL_EN
  if lg < 4 ∨ 12 < lg ∨ (en = true ∧ lg ≠ s.getF Reg.BGW_MR_CTL_LOG2) then s
  else if !en && s1.flag Reg.BGW_MR_CTL_EN then ((s1.setF Reg.BGW_MR_WR 0).setF Reg.BGW_MR_RD 0).mrDrain
  else s1

/-- BGW_MR_CTL. -/
def execBgwMrCtl (w : WriteReq) (s : State) : Out :=
  .next (s.gated w.agent w.half Reg.BGW_MR_CTL_EN.off (State.writeMrCtl w))

/-- A write of BGW_MR_BASE: only while EN is 0 (R564). -/
def State.writeMrBase (w : WriteReq) (s : State) : State :=
  if s.flag Reg.BGW_MR_CTL_EN then s else s.plainWrite Reg.BGW_MR_BASE.off w

/-- A write of BGW_MR_RD: waiting frames take the room. -/
def State.writeMrRd (w : WriteReq) (s : State) : State := (s.plainWrite Reg.BGW_MR_RD.off w).mrDrain

/-! ### Sending (R427, R438, R439) -/

/-- A frame leaves on a channel at instant `t`, occupying it for 2.56 µs. -/
def State.barSend (s : State) (c ty t : Nat) (body : List Byte) : State :=
  let q := SMap.get (fun _ => 0) s.bgw.txSeq c
  (s.bgwPut (fun b => { b with txSeq := SMap.put (fun _ => 0) b.txSeq c ((q + 1) % 65536),
                               txBusy := SMap.put (fun _ => 0) b.txBusy c (t + 2560) })).emit
    (.barrier c (barFrame ty q body))

/-- Send the queued frames of a channel whose turn has come by now. -/
def State.barDrain1 (s : State) (c : Nat) : State :=
  (SMap.get (fun _ => []) s.bgw.txq c).foldl (fun s f =>
    let t := max f.queued (SMap.get (fun _ => 0) s.bgw.txBusy c)
    if s.now < t then s
    else
      let s1 := (s.barSend c (fieldLe f.bytes 0 1) t (f.bytes.drop 4)).addF (Reg.BGW_TX_SENT c) 1
      let q := (SMap.get (fun _ => []) s1.bgw.txq c).drop 1
      (s1.bgwPut (fun b => { b with txq := SMap.put (fun _ => []) b.txq c q })).setF (Reg.BGW_TX_FILL c) q.length) s

/-- Send what is due on both channels. -/
def State.barDrain (s : State) : State := if s.domOn 38 then (s.barDrain1 0).barDrain1 1 else s

/-- BARRIER_LOST: either channel has delivered no valid frame for 200 µs; cause 0 silent or 1 frame lock (R430). Frames whose turn came
before have left. -/
def execBarrierLost (cause : Fin 2) (s : State) : Out :=
  let s := s.barDrain
  if s.flag Reg.BGW_STAT_UP then
    let drop := fun (s : State) (c : Nat) =>
      (s.addF (Reg.BGW_TX_DROP c) (SMap.get (fun _ => []) s.bgw.txq c).length).setF (Reg.BGW_TX_FILL c) 0
    let s1 := (drop (drop (s.setF Reg.BGW_STAT_UP 0) 0) 1).bgwPut
      (fun b => { b with good := [], expect := [], txq := [] })
    .next (s1.report 3 0x509 (uBarrier 0) [(4, cause)])
  else .next s

/-- The gateway sends IDLE on a channel of its own that has carried nothing for 10 µs (R428). -/
def State.barIdle (s : State) (c : Nat) : State :=
  let s1 := s.barDrain
  if !s1.domOn 38 || !(SMap.get (fun _ => []) s1.bgw.txq c).isEmpty then s1
  else
    let t := SMap.get (fun _ => 0) s1.bgw.txBusy c + 10000
    let s2 := s1.reach t
    (s2.bgwPut (fun b => { b with txBusy := SMap.put (fun _ => 0) b.txBusy c (t + 2560) })).emit
      (.barrier c (barFrame 0 (SMap.get (fun _ => 0) s2.bgw.txSeq c) []))

/-- The bytes in a channel's staging window. -/
def State.txWindow (s : State) (c : Nat) : List Byte :=
  (List.range 8).flatMap (fun k => leBytes 8 (s.getF (Reg.BGW_TX c k)))

/-- The first condition of R438 that rejects a GO, in its order. -/
def State.txFault (s : State) (c ty : Nat) : Option Nat :=
  if !toIsland c ty then some 0
  else if ty = 0x10 then some 1
  else if 16 ≤ (SMap.get (fun _ => []) s.bgw.txq c).length then some 2
  else if !s.flag Reg.BGW_STAT_UP then some 3
  else none

/-- A write of BGW_TXc_GO (R438). -/
def State.writeTxGo (c : Nat) (w : WriteReq) (s : State) : State :=
  let s := s.barDrain
  if wBit w (Reg.BGW_TX_GO c) then
    let bs := s.txWindow c
    let ty := fieldLe bs 0 1
    match s.txFault c ty with
    | some k => s.report 0 0x50B (uBarrier c) [(8, ty), (4, k)]
    | none =>
      let q := SMap.get (fun _ => []) s.bgw.txq c ++ [{ queued := s.now, bytes := sliceB bs 0 60 }]
      ((s.bgwPut (fun b => { b with txq := SMap.put (fun _ => []) b.txq c q })).setF (Reg.BGW_TX_FILL c) q.length).barDrain
  else s

/-- BGW_TX_GO. -/
def execBgwTxGo (c : Fin 2) (w : WriteReq) (s : State) : Out :=
  .next (s.gatedAct w.agent w.half (Reg.BGW_TX_GO c).off (State.writeTxGo c w))

/-- BARRIER_TIME_SEND: a PERIOD has passed; the TIME frame waits for a frame in progress and is stamped as its first bit
leaves (R439, Table 16-8). -/
def execBarrierTimeSend (s : State) : Out :=
  if s.domOn 38 && s.flag Reg.BGW_TIME_CFG_EN then
    let s1 := s.barDrain
    let s2 := s1.reach (SMap.get (fun _ => 0) s1.bgw.txBusy 0)
    let body := leBytes 4 0 ++ leBytes 8 s2.now ++ leBytes 2 s2.nowFrac ++ leBytes 2 (s2.getF Reg.BGW_TIME_CFG_UTC_OFFSET) ++
      leBytes 1 (b2n s2.bgw.stepped + 2 * s2.getF Reg.BGW_TIME_CFG_LOCKED)
    .next ((s2.barSend 0 0x10 s2.now body).bgwPut (fun b => { b with stepped := false }))
  else .next s

/-- A write of BGW_TIME_CFG: PERIOD lies within 1 to 1,000 (R548). -/
def State.writeTimeCfg (w : WriteReq) (s : State) : State :=
  let s1 := s.plainWrite Reg.BGW_TIME_CFG_EN.off w
  let p := s1.getF Reg.BGW_TIME_CFG_PERIOD
  if 1 ≤ p ∧ p ≤ 1000 then s1 else s

/-! ### Record keys (R540) -/

/-- A write of BGW_KEYPROGk_DATA or CHK: the last four words and the check value are held. -/
def State.writeKeyData (k : Nat) (w : WriteReq) (s : State) : State :=
  match wField w (Reg.BGW_KEYPROG_DATA k) with
  | some v => s.bgwPut (fun b =>
      let d := SMap.get (fun _ => []) b.keyData k ++ [BitVec.ofNat 32 v]
      { b with keyData := SMap.put (fun _ => []) b.keyData k (d.drop (d.length - 4)) })
  | none => s

def State.writeKeyChk (k : Nat) (w : WriteReq) (s : State) : State :=
  match wField w (Reg.BGW_KEYPROG_CHK k) with
  | some v => s.bgwPut (fun b => { b with keyChk := SMap.put (fun _ => 0#32) b.keyChk k (BitVec.ofNat 32 v) })
  | none => s

/-- A write of BGW_KEYPROGk_GO: the slot is blown only when it is unprogrammed and the CRC of the four words matches. -/
def State.writeKeyGo (k : Nat) (w : WriteReq) (s : State) : State :=
  if wBit w (Reg.BGW_KEYPROG_GO k) then
    let d := SMap.get (fun _ => []) s.bgw.keyData k
    let key := d.flatMap (fun x => leBytes 4 x.toNat)
    let s1 := s.bgwPut (fun b => { b with keyData := SMap.put (fun _ => []) b.keyData k [] })
    if !bit1 (s.getF Reg.BGW_KEYSTAT_PROG) k && d.length == 4 &&
        crc32c key == (SMap.get (fun _ => 0#32) s.bgw.keyChk k).toNat then
      (s1.setF Reg.BGW_KEYSTAT_PROG (s1.getF Reg.BGW_KEYSTAT_PROG ||| 2 ^ k)).setOtp
        { s1.otp with recKey := SMap.put (fun _ => []) s1.otp.recKey k key }
    else s1.setF Reg.BGW_KEYSTAT_ERR (s1.getF Reg.BGW_KEYSTAT_ERR ||| 2 ^ k)
  else s

/-- BGW_KEYPROG_GO. -/
def execBgwKeyprogGo (k : Fin 2) (w : WriteReq) (s : State) : Out :=
  .next (s.gatedAct w.agent w.half (Reg.BGW_KEYPROG_GO k).off (State.writeKeyGo k w))

end Sys2Proof.Machine
end

