-- ==== Sys2Proof/Machine/Island.lean ====
section
/-!
DEFINITION. The metrology island: island time and the bridge inputs (spec/16_metrology_island.md R416 to R420, R440), the
segments (R421 to R423), its barrier receiver (R429), the signing unit (R432), and its boot and update (R441 to R443).
Island firmware is a sender of commands: what it sets arrives through REGISTER_WRITE and ISL_TIME_STEP.
-/

namespace Sys2Proof.Machine

def State.islPut (s : State) (f : Island → Island) : State := s.setIsl (f s.isl)

/-- The island is powered and past its boot ROM's start. -/
def State.islOn (s : State) : Bool := decide (s.isl.run ≠ .off)

/-- Island firmware runs. -/
def State.islRuns (s : State) : Bool := decide (s.isl.run = .running)

/-! ### Island time (R440) -/

/-- Island time in ns. -/
def Island.ns (x : Island) : Nat := x.time / 2 ^ 43 % 2 ^ 64

/-- The 16-bit fraction of island time. -/
def Island.frac (x : Island) : Nat := x.time / 2 ^ 27 % 2 ^ 16

/-- Island time advances by steps of 15.625 ns, corrected by the rate; how much of a slew is absorbed by then is a free
value (DESIGN CHOICE, log entry 2). -/
def State.islTicks (s : State) (n : Nat) : State :=
  let x := s.isl
  let step := (125 * (2 ^ 40 + x.rate)).toNat
  let s1 := s.islPut (fun x => { x with time := x.time + n * step })
  if x.slew = 0 ∨ n = 0 then s1
  else
    let a : Int := ((s.freeVal.toNat % (x.slew.natAbs + 1) : Nat) : Int) * (if x.slew < 0 then -1 else 1)
    s1.freeNext.islPut (fun x => { x with time := ((x.time : Int) + a * ((2 ^ 43 : Nat) : Int)).toNat, slew := x.slew - a })

/-- ISL_TIME_STEP: firmware sets the rate within ±1,000 ppm, adds to the slew, or steps island time. -/
def execIslTimeStep (x : IslTime) (s : State) : Out :=
  if s.islRuns then
    match x with
    | .rate r => if r.natAbs ≤ 1099511627 then .next (s.islPut (fun i => { i with rate := r })) else .next s
    | .slew d => .next (s.islPut (fun i => { i with slew := i.slew + d }))
    | .step d => .next (s.islPut (fun i => { i with time := ((i.time : Int) + d * ((2 ^ 43 : Nat) : Int)).toNat }))
  else .next s

/-! ### Bridge inputs (R418 to R420) -/

def State.bridge (s : State) (c : Nat) : Bridge := SMap.get (fun _ => {}) s.isl.bridges c
def State.putBridge (s : State) (c : Nat) (b : Bridge) : State :=
  s.islPut (fun x => { x with bridges := SMap.put (fun _ => {}) x.bridges c b })

/-- Range R in mV/V by its code. -/
def bridgeRange (code : Nat) : Nat := 4 * 2 ^ code

/-- The rounded value of R419 before its clamp; a reference of 0 has no stated result, and the value is free (DESIGN CHOICE, log entry
2). -/
def State.bridgeCode (s : State) (range : Nat) (sig sen : Int) : State × Int :=
  if sen = 0 then (s.freeNext, sint 32 s.freeVal.toNat)
  else
    let n := sig * 1000 * 8388608
    (s, divRNE (if sen < 0 then -n else n) (sen.natAbs * bridgeRange range))

/-- BRIDGE_CONVERSION: `ticks` steps of island time lead to the centre of the conversion window; `sig` and `sen` are the
averages of V_SIG and V_SEN over it, in nV and taken with the excitation's polarity, which chopping reverses on each conversion
(Table 16-2). The entry goes to the channel's FIFO of 512, or is discarded and counted. The rate and the excitation voltage decide when
a conversion comes and what it measures, and leave R419's code as it is (log entry 123). -/
def execBridgeConversion (c : Fin 4) (sig : Int) (sen : Int) (ticks : Nat) (s : State) : Out :=
  let s := s.islTicks ticks
  if s.islOn && s.isl.afe then
    let b : Bridge := { s.bridge c with reversed := (s.bridge c).chop && !(s.bridge c).reversed }
    if 512 ≤ b.fifo.length then .next (s.putBridge c { b with lost := b.lost + 1, gap := true })
    else
      let r := s.bridgeCode b.range sig sen
      let v := if r.2 > 8388607 then 8388607 else if r.2 < -8388608 then -8388608 else r.2
      let e : BrEntry := { code := BitVec.ofInt 32 v, ovr := decide (r.2 > 8388607), undr := decide (r.2 < -8388608),
                           senseLow := decide (sen < 1000000000), gap := b.gap, time := s.isl.ns }
      .next (r.1.putBridge c { b with fifo := b.fifo ++ [e], gap := false })
  else .next s

/-! ### Segments (R421 to R423) -/

def State.seg (s : State) (g : Nat) : IslSeg := SMap.get (fun _ => {}) s.isl.segs g
def State.putSeg (s : State) (g : Nat) (v : IslSeg) : State :=
  s.islPut (fun x => { x with segs := SMap.put (fun _ => {}) x.segs g v })

/-- PLCA_BEACON: the island sends a beacon at the start of a cycle (R422). -/
def execPlcaBeacon (g : Fin 8) (s : State) : Out :=
  if s.islOn && (s.seg g).en then .next (s.emit (.beacon g)) else .next s

/-- The payload of a scale-node frame of the island (Table 16-4): KIND, SEQ and body. -/
def nodeFrame (kind seq : Nat) (body : List Byte) : List Byte :=
  leBytes 1 1 ++ leBytes 1 kind ++ leBytes 2 0 ++ leBytes 2 seq ++ leBytes 2 body.length ++ body

/-- SYNC: the island sends a SYNC frame whose start-of-frame delimiter stands `ticks` steps of island time ahead (R423,
Table 16-4). -/
def execSync (g : Fin 8) (ticks : Nat) (s : State) : Out :=
  let s := s.islTicks ticks
  if s.islOn && (s.seg g).en then
    let x := s.seg g
    let bs := nodeFrame 1 x.seq (leBytes 8 s.isl.ns ++ leBytes 2 s.isl.frac)
    .next ((s.putSeg g { x with seq := (x.seq + 1) % 65536 }).emit (.segment g s.isl.etype bs))
  else .next s

/-- A SAMPLE payload that the node engine takes from the node of a transmit opportunity (R423). -/
def sampleOk (node : Nat) (bs : List Byte) : Bool :=
  fieldLe bs 0 1 == 1 && fieldLe bs 2 1 == node && fieldLe bs 6 2 == 24 + 4 * fieldLe bs 8 2

/-- A frame goes to island firmware's receive queue. -/
def State.segQueue (s : State) (g etype : Nat) (bs : List Byte) : State :=
  s.islPut (fun x => { x with segRx := x.segRx ++ [(g, etype, bs)] })

/-- A frame can arrive on a segment in a node's transmit opportunity: the segment is enabled, and has that node beside the island, whose
ID is 0 (R421, R422). -/
def State.segHears (s : State) (g node : Nat) : Bool :=
  s.islOn && (s.seg g).en && decide (1 ≤ node ∧ node < (s.seg g).nodes)

/-- A scale-node frame of KIND SAMPLE, by its EtherType (R423). -/
def State.isSample (s : State) (etype : Nat) (bs : List Byte) : Bool := etype == s.isl.etype && fieldLe bs 1 1 == 2

/-- SAMPLE: a frame of KIND SAMPLE arrives in a node's transmit opportunity: into the sender's FIFO of 64, or counted as
malformed. What a full FIFO does is not stated: the newest or the oldest frame is dropped, by a free value (DESIGN CHOICE, log entry
2). -/
def execSample (g : Fin 8) (node : Fin 17) (frame : SegFrame) (ticks : Nat) (s : State) : Out :=
  let s := s.islTicks ticks
  if s.segHears g node && s.isSample frame.etype frame.payload then
    if sampleOk node frame.payload then
      let k := g.val * 32 + node.val
      let q := SMap.get (fun _ => []) s.isl.samples k
      let put := fun (s : State) (q : List (List Byte × Nat)) =>
        s.islPut (fun x => { x with samples := SMap.put (fun _ => []) x.samples k q })
      if q.length < 64 then .next (put s (q ++ [(frame.payload, s.isl.ns)]))
      else if s.freeVal.toNat % 2 = 0 then .next s.freeNext
      else .next (put s.freeNext (q.drop 1 ++ [(frame.payload, s.isl.ns)]))
    else .next ((s.putSeg g { s.seg g with err := (s.seg g).err + 1 }).segQueue g frame.etype frame.payload)
  else .next s

/-- REPLY: any other frame of a node goes to island firmware's receive queue unchanged. -/
def execReply (g : Fin 8) (node : Fin 17) (frame : SegFrame) (ticks : Nat) (s : State) : Out :=
  let s := s.islTicks ticks
  if s.segHears g node && !s.isSample frame.etype frame.payload then .next (s.segQueue g frame.etype frame.payload)
  else .next s

/-! ### The island's barrier receiver (R428, R429) and sender -/

/-- An island frame leaves on an island-to-host channel. -/
def State.islSend (s : State) (c ty : Nat) (body : List Byte) : State :=
  let q := SMap.get (fun _ => 0) s.isl.txSeq c
  (s.islPut (fun x => { x with txSeq := SMap.put (fun _ => 0) x.txSeq c ((q + 1) % 65536) })).emit (.barrier c (barFrame ty q body))

/-- LSEQ at the island receiver: a gap is counted in ISL_BAR_STAT. -/
def State.islSeq (s : State) (c ty lseq : Nat) : State :=
  let gap := match SMap.get (fun _ => none) s.isl.expect c with | some e => decide (e ≠ lseq) | none => false
  s.islPut (fun x => { x with
    barGap := x.barGap + b2n gap, barIrq := x.barIrq || gap,
    expect := SMap.put (fun _ => none) x.expect c (some (if ty = 0 then lseq else (lseq + 1) % 65536)) })

/-- A frame of type `ty` arrives on a host-to-island channel; bytes of another legitimate type have no effect here. -/
def State.islRx (s : State) (c ty : Nat) (bytes : List Byte) (act : List Byte → State → State) : State :=
  let bs := sliceB bytes 0 64
  let t := fieldLe bs 0 1
  let good := fieldLe bs 1 1 == 1 && (t == 0 || toIsland c t)
  if !s.islOn then s
  else if !frameCrcOk bs then s.islPut (fun x => { x with barErr := x.barErr + 1, barIrq := true })
  else if good && t != ty then s
  else
    let s1 := s.islSeq c t (fieldLe bs 2 2)
    if good then act bs s1 else s1.islPut (fun x => { x with barOdd := x.barOdd + 1, barIrq := true })

/-- IDLE (R428): on an island-to-host or a host-to-island channel an IDLE frame arrives, or a sender whose channel has carried nothing for
10 µs sends one. -/
def execIdle (c : Fin 2) (x : IdleFrame) (s : State) : Out :=
  match x with
  | .toHost bytes => .next (s.barRx c 0 bytes (fun _ s => s))
  | .toIsland bytes => .next (s.islRx c 0 bytes (fun _ s => s))
  | .hostSends => .next (s.barIdle c)
  | .islandSends =>
    .next (if s.islOn then s.emit (.barrier c (barFrame 0 (SMap.get (fun _ => 0) s.isl.txSeq c) [])) else s)

/-- A frame reaches island firmware; in BOOT_FAILED there is none to take it. -/
def State.toFirmware (c : Nat) (bs : List Byte) (s : State) : State :=
  if s.islRuns then s.islPut (fun x => { x with barRx := x.barRx ++ [(c, bs)] }) else s

/-- TIME: ISL_TIME_RX captures island time at the frame's first bit, `ticks` steps ahead (R440). -/
def execTime (c : Fin 2) (bytes : List Byte) (ticks : Nat) (s : State) : Out :=
  let s := s.islTicks ticks
  .next (s.islRx c 0x10 bytes (fun bs s => s.toFirmware c bs |>.islPut (fun x => { x with timeRx := x.ns })))

/-- IDENT_REQ. -/
def execIdentReq (c : Fin 2) (bytes : List Byte) (s : State) : Out := .next (s.islRx c 0x11 bytes (State.toFirmware c))
/-- ZERO_REQ. -/
def execZeroReq (c : Fin 2) (bytes : List Byte) (s : State) : Out := .next (s.islRx c 0x12 bytes (State.toFirmware c))
/-- TARE_REQ. -/
def execTareReq (c : Fin 2) (bytes : List Byte) (s : State) : Out := .next (s.islRx c 0x13 bytes (State.toFirmware c))
/-- EVENT_REQ. -/
def execEventReq (c : Fin 2) (bytes : List Byte) (s : State) : Out := .next (s.islRx c 0x14 bytes (State.toFirmware c))

/-! ### Weight records (R432) -/

/-- SIGN_HANDOVER: firmware hands bytes 4 to 43 of a record to the signing unit, which adds CMAC and frame. What an
unprogrammed slot yields is not stated: that tag is free (DESIGN CHOICE, log entry 2). -/
def execSignHandover (bytes : List Byte) (s : State) : Out :=
  if s.islRuns then
    let body := sliceB bytes 0 40
    let k := fieldLe body 7 1 % 2
    let key := SMap.get (fun _ => []) s.otp.islKey k
    if key.length = 16 then .next (s.islSend 0 1 (body ++ cmac key body))
    else
      let tag := leBytes 8 s.freeVal.toNat ++ leBytes 8 (Config.freeWord (s.free + 1)).toNat
      .next ((s.islSend 0 1 (body ++ tag)).setFree (s.free + 2))
  else .next s

/-! ### Boot and update (R441 to R443) -/

/-- A byte of the island flash. -/
def State.islFlash (s : State) (a : Nat) : Byte := SMap.get (fun _ => 0xFF#8) s.isl.flash a

/-- Bytes written to the island flash. -/
def State.putFlash (s : State) (a : Nat) (bs : List Byte) : State :=
  s.islPut (fun x => { x with flash := bs.zipIdx.foldl (fun m e => SMap.put (fun _ => 0xFF#8) m (a + e.2) e.1) x.flash })

/-- The image in a bank when it verifies (R441): its bytes, trailer included. -/
def State.islImage (s : State) (bank : Nat) : Option (List Byte) :=
  let at' := fun (o n : Nat) => (List.range n).map (fun i => s.islFlash (bank * 0x40000 + o + i))
  let h := at' 0 32
  let len := fieldLe h 8 4
  if fieldLe h 0 4 = 0x314C5349 ∧ len ≤ 229376 ∧ (h.drop 16).all (fun b => b == 0#8) = true then
    let body := at' 0 (32 + len)
    let tr := at' (32 + len) 144
    if fieldLe tr 140 4 = 0x47495349 ∧ (sliceB tr 129 11).all (fun b => b == 0#8) = true ∧
        (signatureFault body tr 2 s.otp.islProg s.otp.islRevoked (fun k => SMap.get (fun _ => []) s.otp.islDigest k)).isNone = true then
      some (body ++ tr)
    else none
  else none

/-- The boot ROM starts the image of a bank. -/
def State.islStart (s : State) (bank : Nat) (im : List Byte) : State :=
  let code := (im.drop 32).take (im.length - 176)
  s.islPut (fun x => { x with
    run := .running, bank := bank, version := fieldLe im 4 4, entry := fieldLe im 12 4, digest := sha256 im,
    sram := code.zipIdx.foldl (fun m e => SMap.put (fun _ => 0#8) m e.2 e.1) x.sram,
    sramEcc := SMap.drop (fun k => decide (8 * k < code.length)) x.sramEcc })

/-- The island starts from its power-on or reset: flash, boot selection and counters keep; the boot ROM tries the selected
bank and then the other (R442). -/
def State.islBoot (s : State) : State :=
  let s1 := s.setIsl { flash := s.isl.flash, bootSel := s.isl.bootSel, counters := s.isl.counters, sram := s.isl.sram,
                       sramEcc := s.isl.sramEcc }
  match s1.islImage s.isl.bootSel with
  | some im => s1.islStart s.isl.bootSel im
  | none =>
    match s1.islImage (1 - s.isl.bootSel) with
    | some im => s1.islStart (1 - s.isl.bootSel) im
    | none => s1.islPut (fun x => { x with run := .bootFailed })

/-- ISLAND_BOOT: the island is powered on. No row of the table takes its supply away: a stop is told by the power-on after it (log entry
123). -/
def execIslandBoot (s : State) : Out := .next s.islBoot

/-- BOOT_FAILED_IDENT: an unsolicited IDENT with BOOT_STATE 1 every second; with no image running, its other fields are
free values (R442, DESIGN CHOICE, log entry 2). -/
def execBootFailedIdent (s : State) : Out :=
  if s.isl.run = .bootFailed then
    let w := fun (i : Nat) => (Config.freeWord (s.free + i)).toNat
    let body := leBytes 2 0 ++ leBytes 4 (w 0) ++ leBytes 1 1 ++ leBytes 1 (w 1 % 2) ++ leBytes 4 (w 2) ++
      leBytes 8 (w 3) ++ leBytes 8 (w 4) ++ leBytes 8 (w 5) ++ leBytes 8 (w 6)
    .next ((s.islSend 1 2 body).setFree (s.free + 7))
  else .next s

/-- The boot ROM asks for the part of an offered image from `got` on, at most 65,520 bytes, a multiple of 48. -/
def State.askImage (s : State) (o : IslOffer) : State :=
  s.islSend 1 5 (leBytes 2 o.req ++ leBytes 2 0 ++ leBytes 4 o.got ++ leBytes 4 (min 65520 (o.len - o.got)))

/-- IMAGE_OFFER: to firmware; in BOOT_FAILED the boot ROM accepts the first offer that a bank holds (R442). -/
def execImageOffer (c : Fin 2) (bytes : List Byte) (s : State) : Out :=
  .next (s.islRx c 0x15 bytes (fun bs s =>
    if s.isl.run = .bootFailed then
      let len := fieldLe bs 8 4
      if s.isl.offer.isSome || len == 0 || decide (0x40000 < len) then s
      else
        let o : IslOffer := { req := fieldLe bs 4 2, len := len, version := fieldLe bs 12 4, digest := sliceB bs 16 32 }
        (s.islPut (fun x => { x with offer := some o })).askImage o
    else s.toFirmware c bs))

/-- IMAGE_DATA: to firmware, which discards what it did not ask for; in BOOT_FAILED the next bytes of the accepted offer go
to bank A, and after the last the boot selection is A and the island resets (R442). Data past a hole is asked for
again. -/
def execImageData (c : Fin 2) (bytes : List Byte) (s : State) : Out :=
  .next (s.islRx c 0x16 bytes (fun bs s =>
    if s.isl.run = .bootFailed then
      match s.isl.offer with
      | none => s
      | some o =>
        let off := fieldLe bs 8 4
        if fieldLe bs 4 2 != o.req || decide (o.len ≤ off) || decide (off < o.got) then s
        else if off != o.got then s.askImage o
        else
          let n := min 48 (o.len - off)
          let o1 := { o with got := off + n }
          let s1 := (s.putFlash off (sliceB bs 12 n)).islPut (fun x => { x with offer := some o1 })
          if o1.got = o.len then (s1.islPut (fun x => { x with bootSel := 0 })).islBoot
          else if o1.got % 65520 = 0 then s1.askImage o1
          else s1
    else s.toFirmware c bs))

/-! ### Island firmware's settings -/

/-- An act of island firmware on the island's registers and memories (R416 to R423, R441, R443). -/
def State.islWrite (s : State) (x : IslWrite) : State :=
  if !s.islRuns then s
  else
    match x with
    | .pwr on => s.islPut (fun i => { i with afe := on })
    | .bridge c range rate exc33 chop =>
      s.putBridge c { s.bridge c with range := range, rate := rate, exc33 := exc33, chop := chop }
    | .bridgeTake c => s.putBridge c { s.bridge c with fifo := (s.bridge c).fifo.drop 1 }
    | .segEnable g on => s.putSeg g { s.seg g with en := on }
    | .segPlca g nodes tx burst =>
      if 2 ≤ nodes ∧ nodes ≤ 17 ∧ burst ≤ 255 then s.putSeg g { s.seg g with nodes := nodes, txTimer := tx, burst := burst } else s
    | .segSync g ms => if 1 ≤ ms ∧ ms ≤ 1000 then s.putSeg g { s.seg g with sync := ms } else s
    | .etype v => s.islPut (fun i => { i with etype := v })
    | .sampleTake g node =>
      let k := g.val * 32 + node.val
      s.islPut (fun i => { i with samples := SMap.put (fun _ => []) i.samples k ((SMap.get (fun _ => []) i.samples k).drop 1) })
    | .segSend g body =>
      let x := s.seg g
      if x.en then (s.putSeg g { x with cmdSeq := (x.cmdSeq + 1) % 65536 }).emit (.segment g s.isl.etype (nodeFrame 3 x.cmdSeq body))
      else s
    | .gpio i level => s.islPut (fun x => { x with gpio := SMap.put (fun _ => false) x.gpio i level })
    | .segTake => s.islPut (fun i => { i with segRx := i.segRx.drop 1 })
    | .barTake => s.islPut (fun i => { i with barRx := i.barRx.drop 1, barIrq := false })
    | .flash a data => s.putFlash a.toNat data
    | .bootSel b => s.islPut (fun i => { i with bootSel := b })
    | .counter k => s.islPut (fun i => { i with
        counters := SMap.put (fun _ => 0) i.counters k ((SMap.get (fun _ => 0) i.counters k + 1) % 2 ^ 32) })

end Sys2Proof.Machine
end

