-- ==== Sys2Proof/Machine/Ingest.lean ====
section
/-!
DEFINITION. The evidence ring (spec/11_block_codec.md R310 to R313, spec/22 R560), reception and classification of
frames (spec/14_streams_and_endpoints.md R367, R368), ingest (R381 to R387), and binding and rotation (R374 to R377).
-/

namespace Sys2Proof.Machine

/-! ### The evidence ring -/

/-- The header fields of an evidence entry that its writer gives (Table 11-5). -/
structure EvHead where
  /-- 0 PAD, 1 INPUT, 2 RESULT -/
  type : Nat
  stream : Nat := 0
  frame : Nat := 0
  kind : Nat := 0
  k : Nat := 0
  exposure : Nat := 0
  width : Nat := 0
  height : Nat := 0
  channels : Nat := 0
  nseg : Nat := 0
  raw : Nat := 0

/-- The 64 bytes of a header with VALID set (Table 11-5). -/
def EvHead.bytes (h : EvHead) (len seq : Nat) (payload : List Byte) : List Byte :=
  let b := leBytes 4 len ++ leBytes 4 seq ++ leBytes 1 h.type ++ leBytes 1 1 ++ leBytes 2 h.stream ++ leBytes 2 h.frame ++
    leBytes 1 h.kind ++ leBytes 1 h.k ++ leBytes 8 h.exposure ++ leBytes 2 h.width ++ leBytes 2 h.height ++
    leBytes 1 h.channels ++ leBytes 3 0 ++ leBytes 4 h.nseg ++ leBytes 4 h.raw ++ leBytes 20 0
  b ++ leBytes 4 (crc32c (b ++ payload))

/-- Clear VALID in the header of an entry of the ring (R312). -/
def State.evClear (s : State) (a : Nat) : State :=
  let r := s.devRead a 32
  r.1.devWrite a (placeBytes r.2.1 9 [BitVec.ofNat 8 (fieldLe r.2.1 9 1 / 2 * 2)])

/-- Write an entry of `len` bytes at ING_EVR_WRITE: VALID of every entry it covers is cleared, then the payload is
written, then the header (R312). A PAD over less than 64 bytes holds the first bytes of its header. -/
def State.evPut (s : State) (h : EvHead) (payload : List Byte) (len : Nat) : State :=
  let a := s.getF Reg.ING_EVR_BASE + s.getF Reg.ING_EVR_WRITE
  let span := ceilDiv len 32 * 32
  let hit := fun (e : Nat × Nat) => decide (e.1 < a + span ∧ a < e.1 + e.2)
  let s1 := (s.ev.live.filter hit).foldl (fun s e => s.evClear e.1) s
  let s2 := if payload.isEmpty then s1 else s1.devWrite (a + 64) payload
  let s3 := s2.devWrite a ((h.bytes len (s.getF Reg.ING_EVR_SEQ) payload).take span)
  let w := s.getF Reg.ING_EVR_WRITE + span
  let s4 := s3.setEv { s3.ev with live := s3.ev.live.filter (fun e => !hit e) ++ [(a, span)], dropRun := false }
  (s4.setF Reg.ING_EVR_WRITE (if w < s.getF Reg.ING_EVR_SIZE then w else 0)).addF Reg.ING_EVR_SEQ 1

/-- Bytes from ING_EVR_WRITE to ING_EVR_HOLD in ring order; none when nothing is held (R313). -/
def State.evRoom (s : State) : Option Nat :=
  let size := s.getF Reg.ING_EVR_SIZE
  let hold := s.getF Reg.ING_EVR_HOLD
  let wr := s.getF Reg.ING_EVR_WRITE
  if s.flag Reg.ING_EVR_CTL_HOLD_EN && decide (hold < size) then
    some (if hold < wr then hold + size - wr else hold - wr) else none

/-- Write an evidence entry, with a PAD before it when it does not fit before the ring's end (R310), or drop it: one that
would reach HOLD (R313) or that no ring of this size holds. Answers its SEQ; none while the ring is disabled (R560). -/
def State.writeEvidence (s : State) (h : EvHead) (payload : List Byte) : State × Option Nat :=
  if !s.flag Reg.ING_EVR_CTL_EN then (s, none)
  else
    let len := 64 + payload.length
    let span := ceilDiv len 32 * 32
    let size := s.getF Reg.ING_EVR_SIZE
    let rest := size - s.getF Reg.ING_EVR_WRITE
    let pad := if rest < span then rest else 0
    let reach := match s.evRoom with | some d => decide (d < pad + span) | none => false
    if reach || decide (size < span) then
      let seq := s.getF Reg.ING_EVR_SEQ
      let s1 := ((s.addF Reg.ING_EVR_DROPS 1).addF Reg.ING_EVR_SEQ 1).setEv { s.ev with dropRun := true }
      (if s.ev.dropRun then s1 else s1.report 1 0x211 uCodec [(32, seq), (16, h.stream)], some seq)
    else
      let s1 := if pad = 0 then s else s.evPut { type := 0 } [] pad
      (s1.evPut h payload len, some (s1.getF Reg.ING_EVR_SEQ))

/-- A write of ING_EVR_CTL: EN from 0 to 1 sets the write offset to 0 (R560). -/
def State.writeEvrCtl (w : WriteReq) (s : State) : State :=
  let s1 := s.plainWrite Reg.ING_EVR_CTL_EN.off w
  if !s.flag Reg.ING_EVR_CTL_EN && s1.flag Reg.ING_EVR_CTL_EN then s1.setF Reg.ING_EVR_WRITE 0 else s1

/-- ING_EVR_CTL. -/
def execIngEvrCtl (w : WriteReq) (s : State) : Out :=
  .next (s.gated w.agent w.half Reg.ING_EVR_CTL_EN.off (State.writeEvrCtl w))

/-! ### UDP (R367) -/

/-- The 16-bit one's-complement sum of bytes, an odd last byte padded with 0. -/
def onesSum : List Byte → Nat
  | a :: b :: r => let t := a.toNat * 256 + b.toNat + onesSum r; if t < 65536 then t else t - 65535
  | [a] => a.toNat * 256
  | [] => 0

/-- A UDP datagram as R367 looks at it. -/
structure Datagram where
  v6 : Bool
  src : List Byte
  sport : Nat
  dport : Nat
  payload : List Byte
  /-- the IPv4 header checksum holds -/
  ipOk : Bool
  /-- the UDP checksum is zero or holds -/
  udpOk : Bool

/-- The datagram at a UDP header, with the bytes of the pseudo-header before its length. -/
def udpAt (v6 ipOk : Bool) (src dst u : List Byte) : Datagram :=
  let len := fieldBe u 4 2
  let seg := u.take len
  let pseudo := src ++ dst ++ [0#8, 17#8] ++ beBytes 2 len
  { v6 := v6, src := src, sport := fieldBe u 0 2, dport := fieldBe u 2 2, payload := seg.drop 8, ipOk := ipOk,
    udpOk := fieldBe u 6 2 == 0 || onesSum (pseudo ++ seg) == 0xFFFF }

/-- The unfragmented UDP datagram that a frame holds: IPv4, or IPv6 without extension headers. -/
def udpOf (bs : List Byte) : Option Datagram :=
  let t := etherType bs
  let ip := bs.drop t.2
  if t.1 = 0x0800 then
    let hl := fieldBe ip 0 1 % 16 * 4
    if fieldBe ip 0 1 / 16 = 4 ∧ 20 ≤ hl ∧ fieldBe ip 9 1 = 17 ∧ fieldBe ip 6 2 % 0x4000 = 0 then
      some (udpAt false (onesSum (ip.take hl) == 0xFFFF) (sliceB ip 12 4) (sliceB ip 16 4)
        ((ip.take (fieldBe ip 2 2)).drop hl))
    else none
  else if t.1 = 0x86DD then
    if fieldBe ip 0 1 / 16 = 6 ∧ fieldBe ip 6 1 = 17 then
      some (udpAt true true (sliceB ip 8 16) (sliceB ip 24 16) ((ip.take (40 + fieldBe ip 4 2)).drop 40))
    else none
  else none

/-- The CAMERA entry that claims a datagram on a port (R367 rule 4). -/
def State.claimedBy (s : State) (p : Nat) (d : Datagram) : Option Nat :=
  (List.range 1024).find? (fun i =>
    s.epKind i == 1 && s.epPort i == p && s.epF i 14 2 == d.dport && s.epF i 12 2 == d.sport &&
    bit1 (s.epF i 1 1) 0 == d.v6 && sliceB (s.epBytes i) 16 d.src.length == d.src)

/-! ### RFC 4175 packets (R382, R383) -/

/-- A sample row data header. -/
structure Srd where
  len : Nat
  f : Bool
  row : Nat
  off : Nat

/-- What a row of headers holds: the headers, the data after them, and whether the payload ended among them or an
eighth header announced a ninth. -/
structure Srds where
  hdrs : List Srd
  data : List Byte
  short : Bool
  more : Bool

/-- Read at most `n` headers, by the continuation bit. -/
def readSrds : Nat → List Byte → Srds
  | 0, bs => ⟨[], bs, false, true⟩
  | n + 1, bs =>
    if bs.length < 6 then ⟨[], [], true, false⟩
    else
      let x : Srd := ⟨fieldBe bs 0 2, bit1 (fieldBe bs 2 2) 15, fieldBe bs 2 2 % 32768, fieldBe bs 4 2 % 32768⟩
      if bit1 (fieldBe bs 4 2) 15 then
        let r := readSrds n (bs.drop 6)
        { r with hdrs := x :: r.hdrs }
      else ⟨[x], bs.drop 6, false, false⟩

/-- An RTP packet with its RFC 4175 payload header. -/
structure Rtp where
  ver : Nat
  pt : Nat
  marker : Bool
  ts : Nat
  /-- the 32-bit sequence number: extended above RTP -/
  seq : Nat
  srds : Srds

/-- Read a packet; contributing sources, a header extension and padding are skipped as RTP gives them. -/
def rtpOf (bs : List Byte) : Rtp :=
  let b0 := fieldBe bs 0 1
  let h := 12 + 4 * (b0 % 16)
  let h2 := if bit1 b0 4 then h + 4 + 4 * fieldBe bs (h + 2) 2 else h
  let body := if bit1 b0 5 then bs.take (bs.length - ((bs.getLast?.map BitVec.toNat).getD 0)) else bs
  let pay := body.drop h2
  { ver := b0 / 64, pt := fieldBe bs 1 1 % 128, marker := bit1 (fieldBe bs 1 1) 7, ts := fieldBe bs 4 4,
    seq := fieldBe pay 0 2 * 65536 + fieldBe bs 2 2, srds := readSrds 8 (pay.drop 2) }

/-- Bytes and pixels of a pgroup (Table 14-7), by the source code of FORMAT. -/
def pgroup (fmt : Nat) : Nat × Nat := if fmt = 0 then (4, 2) else if fmt = 1 then (5, 2) else (3, 1)

/-- Pixels of an SRD. -/
def Srd.pixels (x : Srd) (fmt : Nat) : Nat := x.len / (pgroup fmt).1 * (pgroup fmt).2

/-- The first condition of R383 that a packet of a CAMERA entry meets, as Table 18-5a numbers it. -/
def State.rtpFault (s : State) (i : Nat) (r : Rtp) : Option Nat :=
  let fmt := s.epF i 49 1 % 4
  let g := pgroup fmt
  let xs := r.srds.hdrs
  if r.ver != 2 || r.pt != s.epF i 48 1 then some 0
  else if xs.any (fun x => x.f) then some 1
  else if xs.any (fun x => decide (s.epF i 54 2 ≤ x.row) || decide (s.epF i 52 2 < x.off + ceilDiv (x.len * g.2) g.1)) then
    some 2
  else if xs.any (fun x => x.off % g.2 != 0 || x.len % g.1 != 0) then some 3
  else if r.srds.short || decide (r.srds.data.length < (xs.map (fun x => x.len)).foldl (· + ·) 0) then some 4
  else none

/-- The pixels of one pgroup, each as Y, Cb, Cr or R, G, B. -/
def pgroupPixels (fmt : Nat) (b : List Byte) : List (List Nat) :=
  if fmt = 0 then
    let c := fun i => fieldBe b i 1
    [[c 1, c 0, c 2], [c 3, c 0, c 2]]
  else if fmt = 1 then
    let v := fieldBe b 0 5
    [[bits v 20 10, bits v 30 10, bits v 10 10], [bits v 0 10, bits v 30 10, bits v 10 10]]
  else [[fieldBe b 0 1, fieldBe b 1 1, fieldBe b 2 1]]

/-- The pixels of an SRD's data. -/
def srdPixels (fmt : Nat) (b : List Byte) : List (List Nat) :=
  (List.range (b.length / (pgroup fmt).1)).flatMap (fun i => pgroupPixels fmt (sliceB b (i * (pgroup fmt).1) (pgroup fmt).1))

/-! ### Frames (R384, R385) -/

/-- The input slots of a stream in use: by frames that ingest holds, and by admitted frames (R386). -/
def State.slotsUsed (s : State) (m : Nat) : List Nat :=
  (s.strm m).outs.filterMap (fun e => e.slot) ++
  ((s.pipe (s.getF (Reg.ING_STR_CFG_PIPE m))).frames.filter (fun f => f.admitted && f.stream == m)).map (fun f => f.slot)

/-- The lowest free input slot. -/
def State.freeInput (s : State) (m : Nat) : Option Nat :=
  (List.range (s.getF (Reg.ING_STR_CFG_NSLOT m))).find? (fun i => !(s.slotsUsed m).contains i)

/-- Put the data of a packet's SRDs into a frame: pixels, and pixels delivered per row. -/
def Exposure.take (e : Exposure) (fmt : Nat) : List Srd → List Byte → Exposure
  | [], _ => e
  | x :: xs, bs =>
    let pix := srdPixels fmt (bs.take x.len)
    let px := pix.zipIdx.foldl (fun (m : List (Nat × Nat)) p =>
      p.1.zipIdx.foldl (fun (m : List (Nat × Nat)) c =>
        SMap.put (fun _ => 0) m ((x.row * 4096 + x.off + p.2) * 4 + c.2) c.1) m) e.px
    let rows := SMap.put (fun _ => 0) e.rows x.row (SMap.get (fun _ => 0) e.rows x.row + x.pixels fmt)
    Exposure.take { e with px := px, rows := rows } fmt xs (bs.drop x.len)

/-- Every sequence number from the lowest received to the marker's has arrived (R385); a number is taken as before the
marker when it lies less than 2^31 behind it. -/
def Exposure.whole (e : Exposure) : Bool :=
  match e.marker with
  | none => false
  | some last =>
    let back := (e.seqs.map (fun q => (last + 2 ^ 32 - q) % 2 ^ 32)).filter (fun d => decide (d < 2 ^ 31))
    back.length == maxOf back + 1

/-- The frame is complete (R385). -/
def State.frameWhole (s : State) (i : Nat) (e : Exposure) : Bool :=
  e.whole && (List.range (s.epF i 54 2)).all (fun r => SMap.get (fun _ => 0) e.rows r == s.epF i 52 2)

/-! ### Conversion (R387) -/

/-- Coefficients c_y, c_rv, c_gu, c_gv, c_bu (Table 14-8). -/
def convCoeff (bt709 : Bool) : List Int :=
  if bt709 then [76309, 117489, 13975, 34925, 138438] else [76309, 104597, 25675, 53279, 132201]

/-- Limit to 0 to 255. -/
def clamp8 (x : Int) : Nat := if x < 0 then 0 else if 255 < x then 255 else x.toNat

/-- The three channels of output pixel (u, v) of a CAMERA entry. -/
def State.convPixel (s : State) (i : Nat) (e : Exposure) (u v : Nat) : List Nat :=
  let fmt := s.epF i 49 1 % 4
  let down := s.epF i 50 1
  let b := if fmt = 1 then 10 else 8
  let n := down * down
  let sum := fun (c : Nat) => (List.range n).foldl (fun a k =>
    a + SMap.get (fun _ => 0) e.px
      (((s.epF i 58 2 + down * v + k / max 1 down) * 4096 + s.epF i 56 2 + down * u + k % max 1 down) * 4 + c)) 0
  if fmt = 2 || bit1 (s.epF i 49 1) 3 then
    [0, 1, 2].map (fun c => (divRNE ((sum c : Nat) : Int) n).toNat)
  else
    let c := convCoeff (bit1 (s.epF i 49 1) 2)
    let y := ((sum 0 : Nat) : Int) - ((n * 16 * 2 ^ (b - 8) : Nat) : Int)
    let cb := ((sum 1 : Nat) : Int) - ((n * 128 * 2 ^ (b - 8) : Nat) : Int)
    let cr := ((sum 2 : Nat) : Int) - ((n * 128 * 2 ^ (b - 8) : Nat) : Int)
    let d := 2 ^ (8 + b) * n
    [clamp8 (divRNE (c.getD 0 0 * y + c.getD 1 0 * cr) d),
     clamp8 (divRNE (c.getD 0 0 * y - c.getD 2 0 * cb - c.getD 3 0 * cr) d),
     clamp8 (divRNE (c.getD 0 0 * y + c.getD 4 0 * cb) d)]

/-- The bytes of the converted frame, in the layout that the IO chunk declares. -/
def State.convFrame (s : State) (i : Nat) (io : IoDecl) (e : Exposure) : List Byte :=
  let w := if io.u16 then 2 else 1
  let px := (List.range (io.h * io.w)).map (fun k => s.convPixel i e (k % max 1 io.w) (k / max 1 io.w))
  if io.layout = 0 then px.flatMap (fun p => p.flatMap (fun v => leBytes w v))
  else (List.range io.chans).flatMap (fun c => px.flatMap (fun p => leBytes w (p.getD c 0)))

/-- Free bytes to fill a whole word (DESIGN CHOICE, log entry 2). -/
def State.freeBytes (s : State) (n : Nat) : State × List Byte :=
  (s.setFree (s.free + ceilDiv n 8),
   ((List.range (ceilDiv n 8)).flatMap (fun i => leBytes 8 (Config.freeWord (s.free + i)).toNat)).take n)

/-- Replace the exposure of a beat. -/
def State.putExposure (s : State) (m : Nat) (e : Exposure) : State :=
  s.onStrm m (fun x => { x with outs := x.outs.map (fun o => if o.k == e.k then e else o) })

/-- The number a frame that is outstanding will take (R388). -/
def State.outFrame (s : State) (m : Nat) (e : Exposure) : Nat :=
  (s.getF (Reg.ING_STR_FRAME m) + ((s.strm m).outs.takeWhile (fun o => o.k != e.k)).length) % 65536

/-- Ingest completes a frame (R385, R387, R311): it is converted into its slot, and handed to the block codec when EV_EN
is 1. -/
def State.completeFrame (s : State) (m i : Nat) (e : Exposure) : State :=
  let io := (s.pipe (s.getF (Reg.ING_STR_CFG_PIPE m))).io
  let bs := s.convFrame i io e
  let a := s.getF (Reg.ING_STR_IBUF_BASE m) + e.slot.getD 0 * s.getF (Reg.ING_STR_IBUF_STRIDE m)
  let fill := s.freeBytes (ceilDiv bs.length 32 * 32 - bs.length)
  let s1 := (State.unitWriteN (ceilDiv bs.length 32) fill.1 a (bs ++ fill.2)).1
  let r := if bit1 (s.epF i 51 1) 4 then
      let kind := if io.u16 then 1 else 0
      let k := s.epF i 51 1 % 16
      let x := encodeTensor kind k io.chans bs []
      s1.writeEvidence { type := 1, stream := m, frame := s.outFrame m e, kind := kind, k := k, exposure := e.target,
                         width := io.w, height := io.h, channels := io.chans, nseg := x.2, raw := bs.length } x.1
    else (s1, none)
  r.1.putExposure m { e with complete := true, evidence := r.2 }

/-- A packet of an outstanding frame that is not malformed (R383, R385). A frame already complete takes no more. -/
def State.takePacket (s : State) (m i : Nat) (r : Rtp) (e : Exposure) : State :=
  if e.refused then s.putExposure m { e with refusedPackets := e.refusedPackets + 1 }
  else if e.complete || e.seqs.contains r.seq then s
  else
    match e.slot.orElse (fun _ => s.freeInput m) with
    | none =>
      let n := s.getF (Reg.ING_STR_CFG_PIPE m)
      let named := s.bmState n != 4
      let s1 := (s.addF (Reg.ING_STR_REFUSED m) 1).putExposure m { e with refused := true, refusedPackets := 1 }
      s1.raise { cls := 1, code := 0x304, unit := uIngest, time := s1.now,
                 frame := if named then some (m, s.outFrame m e) else none, pipe := if named then some n else none,
                 detail := packDetail ((if named then [] else [(16, m)]) ++ [(48, e.target)]) }
    | some k =>
      let e1 := { e with slot := some k, seqs := e.seqs ++ [r.seq], packets := e.packets + 1,
                         marker := if r.marker then some r.seq else e.marker }
      let e2 := e1.take (s.epF i 49 1 % 4) r.srds.hdrs r.srds.data
      if s.frameWhole i e2 then s.completeFrame m i e2 else s.putExposure m e2

/-- A malformed packet (R367, R383): counted, and reported once for its frame; one of no outstanding frame is reported
at once, unless its timestamp has been reported already, and names the frame that had that timestamp when its beat has launched. -/
def State.badPacket (s : State) (m ts cond : Nat) (e : Option Exposure) : State :=
  let s1 := s.addF (Reg.ING_STR_MALFORMED m) 1
  match e with
  | some e => s1.putExposure m { e with malformed := e.malformed + 1,
                                        malCond := if e.malformed = 0 then cond else e.malCond }
  | none =>
    if (s.strm m).malTs.contains ts then s1
    else
      let j := ((s.strm m).recent.find? (fun r => r.1 == ts)).map (fun r => (m, r.2.1))
      s1.malformedRaise (s.getF (Reg.ING_STR_CFG_PIPE m)) m ts j 1 cond

/-- A packet that matches no outstanding frame (R25, R384): late, or stray. -/
def State.lostPacket (s : State) (m ts : Nat) : State :=
  match (s.strm m).recent.find? (fun r => r.1 == ts) with
  | some (_, j, c) =>
    let s1 := (s.addF (Reg.ING_STR_LATE m) 1).onStrm m (fun x => { x with
      recent := x.recent.map (fun r => if r.2.1 == j && r.1 == ts then (r.1, r.2.1, r.2.2 + 1) else r) })
    if c = 0 then
      s1.raise { cls := 0, code := 0x305, unit := uIngest, time := s1.now, frame := some (m, j),
                 pipe := some (s.getF (Reg.ING_STR_CFG_PIPE m)), detail := packDetail [(16, 1)] }
    else s1
  | none =>
    let s1 := s.addF (Reg.ING_STR_STRAY m) 1
    if (s.strm m).stray.contains ts then s1
    else (s1.onStrm m (fun x => { x with stray := x.stray ++ [ts] })).report 0 0x306 uIngest [(16, m), (32, ts)]

/-- A claimed datagram of CAMERA entry `i` (R367, R383, R384). A ninth SRD has no stated condition number: it is a free
value (DESIGN CHOICE, log entry 2). -/
def State.ingest (s : State) (i : Nat) (d : Datagram) : State :=
  let m := s.epStream i
  let r := rtpOf d.payload
  let e := (s.strm m).outs.find? (fun o => rtpStamp o.target == r.ts)
  if !d.ipOk then s.badPacket m r.ts 5 e
  else if !d.udpOk then s.badPacket m r.ts 6 e
  else
    match s.rtpFault i r with
    | some c => s.badPacket m r.ts c e
    | none =>
      if r.srds.more then s.freeNext.badPacket m r.ts (s.freeVal.toNat % 16) e
      else
        match e with
        | some e => s.takePacket m i r e
        | none => s.lostPacket m r.ts

/-! ### Reception (R367, R368) -/

/-- The frame's destination is the port's address, broadcast, or in its multicast list (R367 rule 2). -/
def State.frameForPort (s : State) (p : Nat) (bs : List Byte) : Bool :=
  let d := sliceB bs 0 6
  d == leBytes 6 (s.getF (Reg.ETH_P_MAC p)) || d.all (fun b => b == 0xFF#8) ||
  (List.range 8).any (fun i => s.flag (Reg.ETH_P_MCAST_VALID p i) && d == leBytes 6 (s.getF (Reg.ETH_P_MCAST_ADDR p i)))

/-- ETH_FRAME_RECEIVE: a frame's first bit after the start-of-frame delimiter is at the pins at Almanac instant `t`.
`bytes` exclude the FCS, which `good` says holds. Frames outside 64 to 9,600 bytes are no frames of the port, and PAUSE
frames are discarded (Table 14-1). -/
def execEthFrameReceive (p : Fin 6) (t : Nat) (bytes : List Byte) (good : Bool) (s : State) : Out :=
  let s := s.reach t
  if !s.flag (Reg.ETH_P_STAT_LINK_UP p) || s.portLooped p || decide (bytes.length < 60) || decide (9596 < bytes.length) then
    .next s
  else if !good then .next (s.addF (Reg.ETH_P_FCSERR p) 1)
  else if !s.frameForPort p bytes && !s.flag (Reg.ETH_P_CFG_PROMISC p) then .next s
  else
    let ty := etherType bytes
    if ty.1 = 0x8808 ∧ fieldBe bytes ty.2 2 = 1 then .next s
    else if ty.1 = 0x88F7 then .next (s.ringReceive p true bytes)
    else
      match (udpOf bytes).bind (fun d => (s.claimedBy p d).map (fun i => (i, d))) with
      | some (i, d) => if s.domOn 54 then .next (s.ingest i d) else .next s
      | none => .next (s.ringReceive p false bytes)

/-! ### Binding (R374, R375) -/

/-- CORRECTED.0x302 with the stream or beat machine, and the register. -/
def State.strReject (s : State) (m off : Nat) : State := s.report 0 0x302 uIngest [(16, m), (26, off)]

/-- The CAMERA entry agrees with the IO chunk (R374). -/
def State.cameraFits (s : State) (i : Nat) (io : IoDecl) : Bool :=
  decide (s.epF i 56 2 + io.w * s.epF i 50 1 ≤ s.epF i 52 2) && decide (s.epF i 58 2 + io.h * s.epF i 50 1 ≤ s.epF i 54 2) &&
  io.chans == 3 && io.u16 == (s.epF i 49 1 % 4 == 1 && bit1 (s.epF i 49 1) 3)

/-- A bind of stream `m` is accepted (R374); a follower part takes none. -/
def State.bindOk (s : State) (m : Nat) : Bool :=
  let n := s.getF (Reg.ING_STR_CFG_PIPE m)
  let i := s.cameraOf m
  let io := (s.pipe n).io
  let slots := s.getF (Reg.ING_STR_CFG_NSLOT m)
  let lg := s.getF (Reg.ING_STR_CFG_RING_LOG2 m)
  let stride := s.getF (Reg.ING_STR_IBUF_STRIDE m)
  s.getF (Reg.ING_STR_STATE m) == 0 && s.loaded n && s.bmState n == 0 && !s.isFollower n &&
  s.epKind i == 1 && s.epStream i == m && decide (1 ≤ slots ∧ slots ≤ 16) && decide (4 ≤ lg ∧ lg ≤ 12) &&
  decide (ceilDiv (io.w * io.h * io.chans * (if io.u16 then 2 else 1)) 32 * 32 ≤ stride) &&
  s.rangeOk (s.getF (Reg.ING_STR_IBUF_BASE m)) (slots * stride) false &&
  s.rangeOk (s.getF (Reg.ING_STR_RING_BASE m)) (64 * 2 ^ lg) true && s.cameraFits i io

/-- An accepted bind (R374, R412). Records that wait for room stay (R391). -/
def State.bindNow (s : State) (m : Nat) : State :=
  let n := s.getF (Reg.ING_STR_CFG_PIPE m)
  let s1 := ((s.setF (Reg.ING_STR_RING_WR m) 0).setF (Reg.ING_STR_RING_RD m) 0).setF (Reg.ING_STR_FRAME m) 0
  let s2 := (s1.initScales (s.pipe n) m).putStrm m { stray := (s.strm m).stray, pend := (s.strm m).pend, maxPend := (s.strm m).maxPend, bound := true }
  let s3 := (s.followers n).foldl (fun s d => (s.setQsk { s.qsk with
    bindWait := s.qsk.bindWait ++ [(n, d, m)],
    foldDone := SMap.put (fun _ => none) s.qsk.foldDone ((n * 64 + d) * 64 + m) none }).notice d 1 [n, m]) s2
  s3.setStrState m (strStateOf (s.bmState n))

/-- An unbind of stream `m` is accepted (R375). -/
def State.unbindOk (s : State) (m : Nat) : Bool :=
  s.bmState (s.getF (Reg.ING_STR_CFG_PIPE m)) == 0 &&
  [0, 1, 2, 3].all (fun n => (List.range (s.getF (Reg.ING_ROT_LEN n))).all (fun i =>
    !(bit1 (s.rotEntry n i) 7 && s.rotEntry n i % 64 == m)))

/-- A write of ING_STRm_CTL: BIND (R374), then UNBIND (R375); an unbind of an unbound stream changes nothing. -/
def State.writeStrCtl (m : Nat) (w : WriteReq) (s : State) : State :=
  let off := (Reg.ING_STR_CTL_BIND m).off
  let s1 := if wBit w (Reg.ING_STR_CTL_BIND m) then (if s.bindOk m then s.bindNow m else s.strReject m off) else s
  if wBit w (Reg.ING_STR_CTL_UNBIND m) then
    if s1.getF (Reg.ING_STR_STATE m) = 0 then s1
    else if s1.unbindOk m then ((s1.discardFrames m).onStrm m (fun x => { x with bound := false })).setStrState m 0
    else s1.strReject m off
  else s1

/-- UNBIND. -/
def execUnbind (m : Fin 64) (w : WriteReq) (s : State) : Out :=
  .next (s.gatedAct w.agent w.half (Reg.ING_STR_CTL_UNBIND m).off (State.writeStrCtl m w))

/-- The rotation of a machine is legal (R377): LEN within 1 to 256, and every valid entry below it names a stream bound
to its pipeline. -/
def State.rotationOk (s : State) (n : Nat) : Bool :=
  let len := s.getF (Reg.ING_ROT_LEN n)
  decide (1 ≤ len ∧ len ≤ 256) && (List.range len).all (fun i =>
    !bit1 (s.rotEntry n i) 7 || (s.boundTo n).contains (s.rotEntry n i % 64))

/-- A write of entries 8g to 8g + 7, or of LEN for g = 32 (R377). -/
def State.writeRotation (n g : Nat) (w : WriteReq) (s : State) : State :=
  let off := if g < 32 then (Reg.ING_ROT_ENT n g).off else (Reg.ING_ROT_LEN n).off
  let s1 := s.plainWrite off w
  if s.bmState n == 0 && s1.rotationOk n then s1 else s.strReject n off

/-- ROTATION_WRITE. -/
def execRotationWrite (n : Fin 4) (g : Fin 33) (w : WriteReq) (s : State) : Out :=
  .next (s.gated w.agent w.half (if g.val < 32 then (Reg.ING_ROT_ENT n g).off else (Reg.ING_ROT_LEN n).off)
    (State.writeRotation n g w))

end Sys2Proof.Machine
end

