-- ==== Sys2Proof/Machine/Policy.lean ====
section
/-!
DEFINITION. The policy parameters of steward firmware (spec/20 R514, Table 20-10) and the commands that bring a unit into
use, after which firmware applies them again; and the steward restart (R524, R536).
-/

namespace Sys2Proof.Machine

/-- The default of a parameter (Table 20-10). -/
def paramDefault (id : Nat) : Nat :=
  ([0, 2020, 1, 500, 1, 100000, 200000, 1, 1, 0, 3, 30, 100, 100, 1000000, 1, 2000, 0x30000000, 4096] : List Nat).getD id 0

/-- The value of a parameter in force. -/
def State.param (s : State) (id : Nat) : Nat := (SMap.get (fun _ => none) s.stw.params id).getD (paramDefault id)

/-- A value lies in its parameter's range (Table 20-10). -/
def paramOk (id v : Nat) : Bool :=
  match id with
  | 1 => decide (v ≤ 1000000)
  | 2 | 7 | 8 | 9 | 15 => decide (v ≤ 1)
  | 3 => decide (v ≤ 65535)
  | 4 => decide (v ≤ 2)
  | 5 => decide (v ≤ 25000000)
  | 6 => decide (v ≤ 100000000)
  | 10 => decide (1 ≤ v ∧ v ≤ 15)
  | 11 => decide (v ≤ 31)
  | 12 => decide (v ≤ 1023)
  | 13 => decide (10 ≤ v ∧ v ≤ 100000)
  | 14 => decide (1000 ≤ v ∧ v ≤ 1000000000)
  | 16 => decide (500 ≤ v ∧ v ≤ 8000)
  | 17 => decide (v ≤ 0x30000000) && v % 0x4000000 == 0
  | 18 => decide (v ≤ 65536)
  | _ => false

/-- The divider that CLOCK_MODE asks of a core. -/
def State.modeDivider (s : State) (c : Nat) : Nat :=
  let f := s.getF (Reg.PWR_CC_FLOOR c)
  match s.param 4 with
  | 0 => if f = 0 then 448 else min 448 (179200 / f)
  | 1 => if f ≤ 1400 then 128 else 179200 / f
  | _ => min 448 (max 112 (ceilDiv 179200 (s.getF (Reg.PWR_CC_FMAX c))))

/-- Apply the parameters of a core. -/
def State.applyCore (s : State) (c : Nat) : State :=
  if bit1 (s.getF Reg.MGT_CORE_MASK) c then
    let s1 := State.writeIdle c (stwW (s.param 2 + s.param 3 * 2 ^ 16 + s.param 1 * 2 ^ 32)) s
    let n := s1.modeDivider c
    if s1.getF (Reg.PWR_CC_CLK_N c) = n then s1 else State.writeClk c (stwW n) s1
  else s

/-- Apply the parameters of a beat machine. -/
def State.applyBeat (s : State) (n : Nat) : State :=
  let s1 := s.setF (Reg.ALM_BM_LAGLIM n) (s.param 6)
  if s1.getF (Reg.ALM_BM_SHRINK_S n) = s1.param 5 then s1 else State.writeShrink n (stwW (s.param 5)) s1

/-- Apply the parameters of a memory controller. -/
def State.applyMem (s : State) (m : Nat) : State :=
  if s.domHolds (43 + m) then
    (s.setF (Reg.MC_RETRY_CFG_EN m) (s.param 7)).setF (Reg.MC_WCB_CFG_AGE m) (s.param 16 / 500 - 1)
  else s

/-- Apply the parameters of the fault unit, the heartbeat monitor and the power controller. -/
def State.applyDevice (s : State) : State :=
  let s1 := s.setF Reg.MGT_HB_CFG_MISS_LIMIT (s.param 10)
  let s2 := [1, 2].foldl (fun (s : State) (d : Nat) =>
    ((s.setF (Reg.FLT_IRQ_CFG_CLASS_EN d) (s.param 11)).setF (Reg.FLT_IRQ_CFG_HOLDOFF d) (s.param 12)).fltLevel d) s1
  s2.setF Reg.PWR_DORMANT_CFG_HBM_KEEP (s.param 15)

/-- Apply every parameter (R514). -/
def State.applyAll (s : State) : State :=
  let s1 := (List.range 32).foldl (fun s c => s.applyCore c) s
  let s2 := [0, 1, 2, 3].foldl (fun s n => (s.applyBeat n).applyMem n) s1
  s2.applyDevice

/-- Set a parameter and apply it to the registers of Table 20-10. -/
def State.setParam (s : State) (id v : Nat) : State :=
  let s1 := s.setStw { s.stw with params := SMap.put (fun _ => none) s.stw.params id (some v) }
  if id ≤ 4 then (List.range 32).foldl (fun s c => s.applyCore c) s1
  else if id ≤ 6 then [0, 1, 2, 3].foldl (fun s n => s.applyBeat n) s1
  else if id = 7 ∨ id = 16 then [0, 1, 2, 3].foldl (fun s m => s.applyMem m) s1
  else if 10 ≤ id ∧ id ≤ 12 ∨ id = 15 then s1.applyDevice
  else s1

/-- Firmware applies the parameters again to a pipeline's cores and beat machine. -/
def State.reapplyPipe (s : State) (n : Nat) : State :=
  if s.stw.run = .firmware then ((s.coresOf n).foldl (fun s c => s.applyCore c) s).applyBeat n else s

/-- Firmware applies the parameters again to the unit of a domain that has come ON. -/
def State.reapplyDom (s : State) (d : Nat) : State :=
  if s.stw.run = .firmware ∧ s.domOn d = true then
    if d < 32 then s.applyCore d else if 43 ≤ d ∧ d < 47 then s.applyMem (d - 43) else s
  else s

/-! ### What brings a unit into use -/

/-- DOMAIN_TRANSITION_DONE: a requested state change completes (R484). -/
def execDomainTransitionDone (d : Fin 57) (s : State) : Out :=
  .next (if (s.transOf d).isSome then (s.transitionDone d).reapplyDom d else s)

/-- WAKING_COMPLETE: the device is Active. -/
def execWakingComplete (s : State) : Out :=
  if s.pwr.dev = .waking ∧ s.pwr.refOk ∧ s.pwr.almBack then
    .next ([43, 44, 45, 46].foldl (fun s d => s.reapplyDom d) s.wakingComplete)
  else .next s

/-- The load in progress commits; firmware keeps the image's place for a recovery (R520). -/
def State.finishLoad (s : State) : State :=
  match s.load with
  | none => s
  | some r =>
    let s1 := s.commitLoad r
    let s2 := s1.setStw { s1.stw with image := SMap.put (fun _ => (0, 0)) s1.stw.image r.pipe (r.image, r.len) }
    if s2.loaded r.pipe then s2.reapplyPipe r.pipe else s2

/-- LOAD_COMMIT. -/
def execLoadCommit (s : State) : Out := .next s.finishLoad

/-- A write of ING_STRm_CTL, after which firmware applies the parameters to a pipeline that a stream was bound to. -/
def State.writeBind (m : Nat) (w : WriteReq) (s : State) : State :=
  let s1 := s.writeStrCtl m w
  if s.getF (Reg.ING_STR_STATE m) = 0 ∧ s1.getF (Reg.ING_STR_STATE m) ≠ 0 then s1.reapplyPipe (s1.getF (Reg.ING_STR_CFG_PIPE m))
  else s1

/-- BIND. -/
def execBind (m : Fin 64) (w : WriteReq) (s : State) : Out :=
  .next (s.gatedAct w.agent w.half (Reg.ING_STR_CTL_BIND m).off (State.writeBind m w))

/-! ### The steward restart (R524, R536) -/

/-- The requests of a channel wait. -/
def State.mbxWaits (s : State) (c : Nat) : Bool :=
  s.flag (Reg.MGT_MBX_CTL_EN c) && s.getF (Reg.MGT_MBX_REQ_WR c) != s.getF (Reg.MGT_MBX_REQ_RD c)

/-- The address of the entry at REQ_RD of a channel (R512). -/
def State.mbxHeadAt (s : State) (c : Nat) : Nat :=
  s.getF (Reg.MGT_MBX_REQBASE c) + 64 * (s.getF (Reg.MGT_MBX_REQ_RD c) % 2 ^ s.getF (Reg.MGT_MBX_CTL_LOG2 c))

/-- The entry at REQ_RD of a channel. -/
def State.mbxHead (s : State) (c : Nat) : List Byte := (s.peekN (s.mbxHeadAt c) 64).1

/-- Firmware reads the entry at REQ_RD, with what the memory system reports of its words (R274, R289). -/
def State.meetHead (s : State) (c : Nat) : State := s.meetN (s.mbxHeadAt c) 64

/-- Answer the request at REQ_RD (Table 20-6): status, fault code and result; REQ_RD passes it. -/
def State.mbxAnswer (s : State) (c : Nat) (status detail : Nat) (result : List Byte) : State :=
  let q := s.mbxHead c
  let s1 := s.mbxPut c (sliceB q 0 3 ++ leBytes 1 status ++ leBytes 4 detail ++ result)
  ((s1.setJob c none).addF (Reg.MGT_MBX_REQ_RD c) 1).setStw { (s1.setJob c none).stw with turn := c }

/-- The OP under which a request that was pending at a restart waits for room to be answered RESTARTED. -/
def opRestarted : Nat := 0x1FF

/-- The request that was pending at a restart is answered RESTARTED, now or when there is room. -/
def State.tellRestarted (s : State) (c : Nat) : State :=
  if s.mbxWaits c then
    if s.mbxRoom c then (s.meetHead c).mbxAnswer c 7 0 [] else s.setJob c (some (opRestarted, 0))
  else s

/-- Grant the host side what the started firmware grants (R501). -/
def State.grantHost (s : State) : State := s.setF Reg.MGT_HOST_WMASK (s.getF Reg.MGT_HOST_WMASK ||| 0x360)

/-- STEWARD_STARTED with its reason; Table 20-8 lays VERSION over the reason's byte, which keeps the reason (DESIGN CHOICE, log entry
38). -/
def State.tellStarted (s : State) (reason : Nat) : State :=
  s.mbxEvent 0x80 (leBytes 1 reason ++ (leBytes 4 s.stw.version).drop 1)

/-- What restarted firmware does (R524). -/
def State.restarted (s : State) : State :=
  let s1 := ((s.grantHost.phase 0x16).tellRestarted 0).tellRestarted 1
  s1.applyAll.tellStarted 1

/-- A write of MGT_STW_CTL: RESTART while EXPIRED resets the steward core and its SRAM, and the boot ROM checks and starts
the staging image again, or halts with error 6 (R536). -/
def State.writeStwCtl (w : WriteReq) (s : State) : State :=
  if wBit w Reg.MGT_STW_CTL_RESTART && s.flag Reg.MGT_WDOG_EXPIRED then
    let s1 := ((s.setF Reg.MGT_WDOG_EXPIRED 0).setF Reg.MGT_WDOG_ARMED 0).setStw { s.stw with sram := [], sramEcc := [] }
    let im := s1.staged
    if s1.domHolds 37 && s1.imageBoots im then (s1.startImage s1.stw.bank im).restarted
    else (s1.bootError 6).setRun .halted
  else s

/-- MGT_STW_RESTART. -/
def execMgtStwRestart (w : WriteReq) (s : State) : Out :=
  .next (s.gated w.agent w.half Reg.MGT_STW_CTL_RESTART.off (State.writeStwCtl w))

end Sys2Proof.Machine
end

