-- ==== Sys2Proof/Machine/Quosk.lean ====
section
/-!
DEFINITION. Quosk links, routes, system time, slots across chips and spread pipelines
(spec/15_joined_devices.md R396 to R415, spec/22_registers_device.md R563).
-/

namespace Sys2Proof.Machine

/-! ### Topology and routes (R398, R400, R401) -/

/-- A link is fitted (Table 15-2). -/
def State.linkFitted (s : State) (l : Nat) : Bool :=
  if l < 2 then decide (2 ≤ s.nx)
  else if l < 4 then decide (2 ≤ s.ny)
  else if l < 6 then decide (2 ≤ s.nz)
  else if l = 6 then s.nx == 4 && s.ny == 4 && s.nz == 4 && bit1 (s.getF Reg.QSK_TOPO_EXPRESS) 0
  else s.nx == 4 && s.ny == 4 && bit1 (s.getF Reg.QSK_TOPO_EXPRESS) 1

/-- The device that link `l` reaches (Table 15-2). -/
def State.neighbour (s : State) (l : Nat) : Nat :=
  let d := s.getF Reg.MGT_DEVNUM
  let move := fun (dx dy dz : Nat) =>
    (devX d + dx) % s.nx + 4 * ((devY d + dy) % s.ny) + 16 * ((devZ d + dz) % s.nz)
  match l with
  | 0 => move 1 0 0
  | 1 => move (s.nx - 1) 0 0
  | 2 => move 0 1 0
  | 3 => move 0 (s.ny - 1) 0
  | 4 => move 0 0 1
  | 5 => move 0 0 (s.nz - 1)
  | 6 => move 2 2 2
  | _ => move 2 2 0

/-- The opposite of a link: 0 with 1, 2 with 3, 4 with 5, 6 and 7 with themselves (R398). -/
def oppositeLink (l : Nat) : Nat := if l < 6 then l ^^^ 1 else l

/-- The default next link toward a device (R401). -/
def State.nextLink (s : State) (d : Nat) : Nat :=
  let me := s.getF Reg.MGT_DEVNUM
  let dx := (devX d + s.nx - devX me % s.nx) % s.nx
  let dy := (devY d + s.ny - devY me % s.ny) % s.ny
  let dz := (devZ d + s.nz - devZ me % s.nz) % s.nz
  if s.linkFitted 6 && dx == 2 && dy == 2 && dz == 2 then 6
  else if s.linkFitted 7 && dx == 2 && dy == 2 then 7
  else if dx != 0 then (if dx ≤ s.nx / 2 then 0 else 1)
  else if dy != 0 then (if dy ≤ s.ny / 2 then 2 else 3)
  else if dz ≤ s.nz / 2 then 4 else 5

/-- Fill the route of every device of the system (R401). -/
def State.fillRoutes (s : State) : State :=
  ((List.range 64).filter (fun d => s.devPresent d)).foldl (fun s d =>
    (s.setF (Reg.QSK_ROUTE_LINK d) (s.nextLink d)).setF (Reg.QSK_ROUTE_VALID d) 1) s

/-- A write of QSK_ROUTE_CTL (R401). -/
def State.writeRouteCtl (w : WriteReq) (s : State) : State :=
  if wBit w Reg.QSK_ROUTE_CTL_DEFAULT then s.fillRoutes else s

/-- QSK_ROUTE_DEFAULT. -/
def execQskRouteDefault (w : WriteReq) (s : State) : Out :=
  .next (s.gatedAct w.agent w.half Reg.QSK_ROUTE_CTL_DEFAULT.off (State.writeRouteCtl w))

/-- Every link has EN at 0. -/
def State.linksOff (s : State) : Bool := (List.range 8).all (fun l => !s.flag (Reg.QSK_L_CTL_EN l))

/-- A write of QSK_TOPO: accepted only while every link is disabled, with sizes 1, 2 or 4 (R397, R563). -/
def State.writeTopo (w : WriteReq) (s : State) : State :=
  let s1 := s.plainWrite Reg.QSK_TOPO_NX.off w
  if s.linksOff && decide (s1.getF Reg.QSK_TOPO_NX ≤ 2) && decide (s1.getF Reg.QSK_TOPO_NY ≤ 2) &&
      decide (s1.getF Reg.QSK_TOPO_NZ ≤ 2) then s1 else s

/-- QSK_TOPO. -/
def execQskTopo (w : WriteReq) (s : State) : Out :=
  .next (s.gated w.agent w.half Reg.QSK_TOPO_NX.off (State.writeTopo w))

/-! ### Training (R397 to R399) -/

/-- Link training is committed when every enabled link has reached UP or failed; the routes are then filled (R563). -/
def State.trainCommit (s : State) : State :=
  if !s.qsk.routed && (List.range 8).all (fun l => !s.flag (Reg.QSK_L_CTL_EN l) || (s.qlink l).reached || (s.qlink l).failed) then
    s.fillRoutes.setQsk { s.fillRoutes.qsk with routed := true }
  else s

/-- Move a link to a training phase. -/
def State.setPhase (s : State) (l ph : Nat) : State :=
  (s.setF (Reg.QSK_L_STAT_PHASE l) ph).onLink l (fun x => { x with phaseAt := s.now })

/-- A phase fails: DEGRADED.0x403 with the phase and cause, and the link stays down (R399). -/
def State.failLink (s : State) (l cause : Nat) : State :=
  let ph := s.getF (Reg.QSK_L_STAT_PHASE l)
  let s1 := ((s.setF (Reg.QSK_L_STAT_CAUSE l) cause).setPhase l 0).onLink l (fun x => { x with failed := true })
  (s1.report 1 0x403 (uLink l (s.qlink l).peer) [(4, ph), (4, cause)]).trainCommit

/-- A phase fails for a reason that the manual does not number: the cause is a free value (DESIGN CHOICE, log entry 2). -/
def State.failLinkFree (s : State) (l : Nat) : State := s.freeNext.failLink l (s.freeVal.toNat % 16)

/-- Requests that left on link `l` and wait for their response complete UNAVAILABLE, with reads of 0 (R413); a synchronising request
leaves a free value (DESIGN CHOICE, log entry 2). -/
def State.dropOver (s : State) (l : Nat) : State :=
  let hit := fun (h : HeldPart) => decide (128 ≤ h.unit) && h.link == l
  let s1 := (s.held.filter hit).foldl (fun s h => s.finishPart h.id h.pos (if h.data.isSome then [] else List.replicate h.len 0) .unavailable)
    (s.setHeld (s.held.filter (fun h => !hit h)))
  s1.threads.foldl (fun s e =>
    match e.2.wait with
    | .remote _ r _ _ k =>
      if k = l then ((s.putSx (e.1 / 16) (e.1 % 16) r s.freeVal.toNat).freeNext).wake (e.1 / 16) (e.1 % 16) else s
    | _ => s) s1

/-- What a link that goes down forgets. -/
def State.clearLink (s : State) (l : Nat) : State :=
  s.onLink l (fun x => { x with t1 := none, measured := 0, maxD := 0, hist := [], offExc := none, half := [], rx := [], holdRx := [],
                                late := [] })

/-- A write of QSK_Ln_CTL (R397): setting EN starts training; clearing it takes the link down. A link whose dimension has
size 1 is not enabled. -/
def State.writeLinkCtl (l : Nat) (w : WriteReq) (s : State) : State :=
  let f := Reg.QSK_L_CTL_EN l
  match wField w f with
  | none => s
  | some v =>
    if v = s.getF f then s
    else if v = 1 then
      if s.linkFitted l then
        let s1 := ((s.setF f 1).clearLink l).onLink l (fun x => { x with failed := false, reached := false })
        (s1.setQsk { s1.qsk with routed := false }).setPhase l 1
      else s
    else (((s.setF f 0).setPhase l 0).clearLink l).dropOver l

/-- QSK_LINK_EN. -/
def execQskLinkEn (l : Fin 8) (w : WriteReq) (s : State) : Out :=
  .next (s.gatedAct w.agent w.half (Reg.QSK_L_CTL_EN l).off (State.writeLinkCtl l w))

/-- CLOCK_RECOVERY_LOCK: PMA passes to ALIGN. -/
def execClockRecoveryLock (l : Fin 8) (s : State) : Out :=
  if s.getF (Reg.QSK_L_STAT_PHASE l) = 1 then .next (s.setPhase l 2) else .next s

/-- CODEWORD_LOCK: ALIGN passes to IDENTIFY, and HELLO is sent; with a loopback set training stops here (R397, Table
21-8). -/
def execCodewordLock (l : Fin 8) (s : State) : Out :=
  if s.getF (Reg.QSK_L_STAT_PHASE l) = 2 ∧ s.flag (Reg.QSK_L_LOOP l) = false then
    .next ((s.setPhase l 3).notice (s.neighbour l) 0
      [s.getF Reg.QSK_TOPO_SYSTEM_ID, s.getF Reg.QSK_TOPO_NX, s.getF Reg.QSK_TOPO_NY, s.getF Reg.QSK_TOPO_NZ,
       s.getF Reg.MGT_DEVNUM, l])
  else .next s

/-- TRAINING_PHASE_TIMEOUT: a phase has lasted 100 ms. -/
def execTrainingPhaseTimeout (l : Fin 8) (s : State) : Out :=
  let ph := s.getF (Reg.QSK_L_STAT_PHASE l)
  if ph = 0 ∨ 5 ≤ ph then .next s
  else .next ((s.reach ((s.qlink l).phaseAt + 100000000)).failLinkFree l)

/-- The first condition of R398 that a HELLO breaks, in its order. -/
def State.helloFault (s : State) (l : Nat) (h : HelloMsg) : Option Nat :=
  if h.system.toNat != s.getF Reg.QSK_TOPO_SYSTEM_ID || h.nx.val != s.getF Reg.QSK_TOPO_NX ||
      h.ny.val != s.getF Reg.QSK_TOPO_NY || h.nz.val != s.getF Reg.QSK_TOPO_NZ then some 0
  else if h.dev.val != s.neighbour l then some 1
  else if h.link.val != oppositeLink l then some 2
  else none

/-- HELLO: the peer's notice is checked during IDENTIFY (R398). -/
def execHello (l : Fin 8) (h : HelloMsg) (s : State) : Out :=
  if s.getF (Reg.QSK_L_STAT_PHASE l) = 3 then
    let s1 := s.onLink l (fun x => { x with peer := h.dev })
    match s.helloFault l h with
    | some c => .next (s1.failLink l c)
    | none => .next ((s1.setPhase l 4).onLink l (fun x => { x with measured := 0, maxD := 0 }))
  else .next s

/-- TIME_EXCHANGE: a link in MEASURE or UP sends a TIME unit (R399). -/
def execTimeExchange (l : Fin 8) (s : State) : Out :=
  let ph := s.getF (Reg.QSK_L_STAT_PHASE l)
  if ph = 4 ∨ ph = 5 then .next ((s.onLink l (fun x => { x with t1 := some s.now })).emit (.time l none)) else .next s

/-- A quotient whose rounding the manual does not state: the exact value, or either neighbour by a free value (DESIGN CHOICE, log entry
2). -/
def State.looseDiv (s : State) (a : Int) (b : Nat) : State × Int :=
  if a % (b : Int) = 0 then (s, a / (b : Int)) else (s.freeNext, a / (b : Int) + ((s.freeVal.toNat % 2 : Nat) : Int))

/-- QSK_Ln_DELAY and QSK_Ln_OFFSET: the means of the last 64 exchanges (R399). -/
def State.putMeans (s : State) (l : Nat) : State :=
  let h := (s.qlink l).hist
  let d := s.looseDiv ((h.map (fun x => x.1)).foldl (· + ·) 0) (2 * h.length)
  let o := d.1.looseDiv ((h.map (fun x => x.2)).foldl (· + ·) 0) (2 * h.length)
  (o.1.setI (Reg.QSK_L_DELAY l) d.2).setI (Reg.QSK_L_OFFSET l) o.2

/-- TIME_OFFSET and its end (R410), for twice the θ of an exchange. -/
def State.checkOffset (s : State) (l : Nat) (th2 : Int) : State :=
  let x := s.qlink l
  let unit := uLink l x.peer
  match x.offExc with
  | none =>
    if s.linkUp l && s.linkUsed l && decide (32 < th2.natAbs) then
      let r := s.looseDiv th2 2
      (r.1.report 1 0x408 unit [(24, uint 24 (satI 24 r.2))]).onLink l (fun x => { x with offExc := some th2 })
    else s
  | some m =>
    if th2.natAbs < 16 then
      let r := s.looseDiv m 2
      (r.1.report 0 0x409 unit [(24, uint 24 (satI 24 r.2))]).onLink l (fun x => { x with offExc := none })
    else if m.natAbs < th2.natAbs then s.onLink l (fun x => { x with offExc := some th2 })
    else s

/-- A link becomes UP, with CORRECTED.0x404 (R399); destinations it leads to may be reported unreachable again. -/
def State.linkCameUp (s : State) (l : Nat) : State :=
  let s1 := (s.setPhase l 5).onLink l (fun x => { x with reached := true })
  let s2 := s1.setQsk { s1.qsk with unreach := s1.qsk.unreach.filter (fun d => s1.getF (Reg.QSK_ROUTE_LINK d) != l) }
  (s2.report 0 0x404 (uLink l (s2.qlink l).peer)
    [(24, s2.getF (Reg.QSK_L_DELAY l)), (24, uint 24 (satI 24 (s2.getI (Reg.QSK_L_OFFSET l))))]).trainCommit

/-- TIME_UNIT: a TIME unit is written into the receive buffer at `t` (R399): the peer's question is answered at
`t3`, with both instants, or an exchange completes. -/
def execTimeUnit (l : Fin 8) (u : TimeMsg) (t : Nat) (s : State) : Out :=
  let ph := s.getF (Reg.QSK_L_STAT_PHASE l)
  let s := s.reach t
  if ph ≠ 4 ∧ ph ≠ 5 then .next s
  else
    match u with
    | .ask t3 =>
      let s1 := s.reach t3
      .next (s1.emit (.time l (some (t, s1.now))))
    | .answer t2 t3 =>
      match (s.qlink l).t1 with
      | none => .next s
      | some t1 =>
        let d2 := ((t : Int) - t1) - ((t3 : Int) - t2)
        let o2 := ((t2 : Int) - t1) - ((t : Int) - t3)
        let s1 := s.onLink l (fun x => { x with
          t1 := none, hist := ((d2, o2) :: x.hist).take 64, measured := x.measured + 1,
          maxD := if x.measured = 0 ∨ x.maxD < d2 then d2 else x.maxD })
        let s2 := s1.putMeans l
        if ph = 4 then
          if (s2.qlink l).measured < 1024 then .next s2
          else if (s2.qlink l).maxD ≤ 448 then .next (s2.linkCameUp l)
          else .next (s2.failLinkFree l)
        else .next (s2.checkOffset l o2)

/-! ### Loss (R413) -/

/-- A link is lost with a cause: 0 lock, 1 both copies, 2 silent, 3 peer. -/
def State.loseLink (s : State) (l cause : Nat) : State :=
  if s.linkUp l then
    let unit := uLink l (s.qlink l).peer
    let s1 := ((s.report 3 0x402 unit [(4, cause)]).setPhase l 0).dropOver l
    ([0, 1, 2, 3].foldl (fun s n => if s.loaded n && (s.pipe n).links.contains l then s.losePath n unit (l / 2 * 40 + 36 + l % 2) else s)
      s1).clearLink l
  else s

/-- LINK_LOST. -/
def execLinkLost (l : Fin 8) (cause : Fin 4) (s : State) : Out := .next (s.loseLink l cause)

/-! ### Slots across chips (R403 to R406) -/

/-- SLOT_FRAME_LAUNCH: at its pending instant an UP link's port sets its FRAME number, and the next multiple of 128 ns becomes
its pending instant (R57, R404). No port fires while the Almanac runs on the crystal (R37). -/
def execSlotFrameLaunch (l : Fin 8) (s : State) : Out :=
  if s.linkUp l && !s.alm.crystal then
    let t := (s.qlink l).sfPending s.now
    .next ((s.reach t).onLink l (fun x => { x with frame := t / 128 % 256, sfNext := some (t / 128 * 128 + 128) }))
  else .next s

/-- SLOT_FRAME_UNLOCKED: LOCK falls, with the phase error in ns; DEGRADED.0x40A while any link carries owned slots, once
per excursion (R403). -/
def execSlotFrameUnlocked (err : Int) (s : State) : Out :=
  .next (s.loseLock err)

/-- SLOT_FRAME_LOCK: the interpolator has re-acquired. -/
def execSlotFrameLock (s : State) : Out :=
  .next ((s.setF Reg.QSK_SFRAME_STAT_LOCK 1).setQsk { s.qsk with unlocked := false })

/-- The pipeline whose circuit a flit of a sending slot belongs to: the owner of the slot at the link's port (R105, R405). -/
def State.flitOwner (s : State) (l slot : Nat) : Option Nat := s.inputOwner (l / 2) (36 + l % 2) ((slot + 3) % 128)

/-- Report the loss of a flit, about the frame of its first word, and make the frames that its words' tags name VOID with FABRIC_ERROR (R113,
R406, R465). -/
def State.dropFlit (s : State) (l slot code : Nat) (detail : List (Nat × Nat)) (ws : List (Nat × QWord)) : State :=
  let unit := uLink l (s.qlink l).peer
  let p := s.flitOwner l slot
  let s1 := match ws with
    | w :: _ => s.reportTagP 1 code unit p w.2.tag detail
    | [] => s.report 1 code unit detail
  ws.foldl (fun s w => s.voidTagP p w.2.tag 7 s.now) s1

/-- The kept copy of a flit enters the receive buffer (R405, R406). -/
def State.keepFlit (s : State) (l frame slot : Nat) (ws : List (Nat × QWord)) : State :=
  let unit := uLink l (s.qlink l).peer
  let c : Int := ((s.now / 128 : Nat) : Int) - 2
  let diff := sint 8 (uint 8 ((frame : Int) - c))
  if 100 < diff.natAbs then s.dropFlit l slot 0x407 [(8, frame), (16, slot)] ws
  else
    let q := SMap.get (fun _ => []) (s.qlink l).rx slot
    let sl := (slot + 3) % 128
    let want := ((c + diff).toNat * 128 + slot + 259) / 128
    let next := match q.getLast? with | some e => e.1 + 1 | none => 0
    let soon := ceilDiv (s.now - sl) 128
    let due := max want (max next soon)
    if want < due ∧ 4 ≤ q.length then
      let tag := match ws with | w :: _ => w.2.tag.toNat | [] => s.freeVal.toNat % 256
      s.freeNext.dropFlit l slot 0x406 [(16, slot), (8, tag)] ws
    else
      let s1 := s.onLink l (fun x => { x with rx := SMap.put (fun _ => []) x.rx slot (q ++ [(due, ws)]) })
      if want < due then
        if (s.qlink l).late.contains slot then s1
        else (s1.report 0 0x405 unit [(16, slot), (16, due - want)]).onLink l (fun x => { x with late := x.late ++ [slot] })
      else s1.onLink l (fun x => { x with late := x.late.filter (fun y => y != slot) })

/-- A copy of a flit was uncorrectable and the other is intact: counted, with CORRECTED.0x401 at most once per second
(R413). -/
def State.fecLost (s : State) (l : Nat) : State :=
  let s1 := s.addF (Reg.QSK_L_FEC l) 1
  let due := match (s.qlink l).fecAt with | some t => decide (t + 1000000000 ≤ s.now) | none => true
  if due then
    (s1.report 0 0x401 (uLink l (s.qlink l).peer) [(16, s1.getF (Reg.QSK_L_FEC l))]).onLink l
      (fun x => { x with fecAt := some s.now })
  else s1

/-- FLIT_RECEIVE: one copy of a FLIT unit arrives, correct or uncorrectable, with its valid words by position (R405). -/
def execFlitReceive (l : Fin 8) (frame : Fin 256) (slot : Fin 128) (ok : Bool) (words : List (Fin 8 × FabWord)) (s : State) : Out :=
  if s.linkUp l = false ∨ s.flag (Reg.QSK_L_LOOP l) = true then .next s
  else
    let key := frame.val * 128 + slot.val
    let ws := words.map (fun w => (w.1.val, unitWordOf w.2 s.now))
    let s1 := s.onLink l (fun x => { x with half := x.half.filter (fun h => h.1 != key) })
    match ((s.qlink l).half.find? (fun h => h.1 == key)).map (fun h => h.2) with
    | none =>
      let s2 := s.onLink l (fun x => { x with half := x.half ++ [(key, ok)] })
      .next (if ok then s2.keepFlit l frame slot ws else s2)
    | some true => .next (if ok then s1 else s1.fecLost l)
    | some false => .next (if ok then (s1.fecLost l).keepFlit l frame slot ws else s1.loseLink l 1)

/-- FLIT_PRESENT: the oldest kept flit of a sending slot is presented at the link's input port, 259 spine cycles after it
was sent or in the later frame that the queue allows (R405, R406). -/
def execFlitPresent (l : Fin 8) (slot : Fin 128) (s : State) : Out :=
  match SMap.get (fun _ => []) (s.qlink l).rx slot with
  | [] => .next s
  | (due, ws) :: rest =>
    let sl := (slot.val + 3) % 128
    let s1 := (s.reach (due * 128 + sl)).onLink l (fun x => { x with rx := SMap.put (fun _ => []) x.rx slot rest })
    .next (ws.foldl (fun s w => s.switchWord (l / 2) (36 + l % 2) w.1 sl w.2) s1)

/-! ### Spread pipelines (R411 to R414) -/

/-- This device's follower part of pipeline `p` of head device `src`. -/
def State.followerOf (s : State) (src p : Nat) : Option Nat :=
  [0, 1, 2, 3].find? (fun n => s.loaded n && s.isFollower n && s.getF (Reg.QSK_PART_HEAD_DEV n) == src &&
    s.getF (Reg.QSK_PART_HEAD_PIPE n) == p)

/-- BIND_NOTICE: the follower writes the stream's scale records anew and answers STATUS for frame 0xFFFF with FOLD_DONE;
the instants of that answer are free values (R411, DESIGN CHOICE, log entry 2). -/
def execBindNotice (src : Fin 64) (p : Fin 4) (m : Fin 64) (s : State) : Out :=
  match s.followerOf src p with
  | none => .next s
  | some n =>
    let s1 := s.initScales (s.pipe n) m
    .next ((s1.tellHead n 3 [0, 0xFFFF, 0, 0, s1.freeVal.toNat, (Config.freeWord (s1.free + 1)).toNat, 1]).setFree (s1.free + 2))

/-- BEAT_NOTICE: the follower latches the frame's scale bank, sends its tokens and launches its core wakes (R411). -/
def execBeatNotice (src : Fin 64) (p : Fin 4) (k : Nat) (a : Nat) (fif : Fin 8) (m : Fin 64) (j : Fin 65536) (s : State) : Out :=
  match s.followerOf src p with
  | none => .next s
  | some n =>
    let r := s.fillBank n m j fif
    let f : Frame := { fif := fif, stream := m, frameNo := j, k := k, launch := a, lag := 0, target := 0, slot := 0,
                       collapsed := r.2.2.2, bank := r.2.1, noFold := r.2.2.1, id := (s.pipe n).nextId,
                       void := if r.2.2.1.isEmpty then none else some (3, s.now) }
    let s1 := (r.1.newFif n fif).onPipe n (fun q => { q with frames := q.frames ++ [f], nextId := q.nextId + 1 })
    .next ((s1.launchWakes n k a true).solToken n k a)

/-- Add a follower's report to a frame (R412). -/
def Frame.addStatus (f : Frame) (src quality reason first done : Nat) : Frame :=
  let f1 := { f with waitStatus := f.waitStatus.filter (fun d => d != src), peerDone := max f.peerDone done,
                     saturated := f.saturated || bit1 quality 0, retallied := f.retallied || bit1 quality 1,
                     collapsed := f.collapsed || bit1 quality 3, poisonSeen := f.poisonSeen || bit1 quality 4,
                     peerLagged := f.peerLagged || bit1 quality 2 }
  if reason = 0 then f1 else f1.kill reason first

/-- STATUS_NOTICE: the head records a follower's report of a frame, or its answer to a BIND notice (R412). -/
def execStatusNotice (src : Fin 64) (p : Fin 4) (fif : Fin 8) (j : Fin 65536) (quality : Fin 32) (reason : Fin 10) (first done : Nat)
    (fold : Bool) (s : State) : Out :=
  let mark := fun (m : Nat) (s : State) =>
    if fold then s.setQsk { s.qsk with
      foldDone := SMap.put (fun _ => none) s.qsk.foldDone ((p.val * 64 + src.val) * 64 + m) (some j.val) } else s
  if !(s.followers p).contains src.val then .next s
  else if j.val = 0xFFFF ∧ (s.qsk.bindWait.any (fun b => b.1 == p.val && b.2.1 == src.val)) = true then
    match s.qsk.bindWait.find? (fun b => b.1 == p.val && b.2.1 == src.val) with
    | none => .next s
    | some b => .next (mark b.2.2 (s.setQsk { s.qsk with bindWait := s.qsk.bindWait.erase b }))
  else
    match (s.pipe p).frames.find? (fun f => f.admitted && f.fif == fif.val && f.frameNo == j.val) with
    | none => .next s
    | some f => .next (mark f.stream (s.onFrame p fif (fun f => f.addStatus src quality reason first done)))

/-- RETALLY_NOTICE: a follower's Retally holds the head's beat (R55, R412). -/
def execRetallyNotice (src : Fin 64) (p : Fin 4) (_fif : Fin 8) (dR : Nat) (s : State) : Out :=
  if (s.followers p).contains src.val && (s.bmState p == 1 || s.bmState p == 2 || s.bmState p == 3) then
    .next (s.onBeat p (fun b => { b with nNext := b.nNext + dR }))
  else .next s

/-- A follower part is lost: UNIT.0x40C with cause 0 for a LOSS notice or 1 for a STATUS that has not come, and the
pipeline is treated under R89 (R414): a frame has passed the part when its STATUS has arrived. -/
def State.losePart (s : State) (p d cause : Nat) : State :=
  let unit := uLink (s.getF (Reg.QSK_ROUTE_LINK d)) d
  (s.raise { cls := 3, code := 0x40C, unit := unit, time := s.now, pipe := some p, detail := packDetail [(4, cause)] }).losePipe
    p unit (fun f => f.waitStatus.contains d)

/-- LOSS_NOTICE. -/
def execLossNotice (src : Fin 64) (p : Fin 4) (_kind : Fin 16) (_coord : BitVec 28) (s : State) : Out :=
  if (s.followers p).contains src.val then .next (s.losePart p src 0) else .next s

/-- PART_STATUS_TIMEOUT: the STATUS of a follower for the oldest frame that lacks it has not come within TIMEOUT of the
frame's launch; no STATUS is waited for from that follower any longer (R414). -/
def execPartStatusTimeout (p : Fin 4) (d : Fin 64) (s : State) : Out :=
  match (s.pipe p).frames.find? (fun f => f.admitted && f.waitStatus.contains d.val) with
  | none => .next s
  | some f =>
    let s1 := (s.reach (f.launch + 1000000 * s.getF (Reg.QSK_PART_CFG_TIMEOUT p))).losePart p d 1
    .next (s1.onPipe p (fun q => { q with
      frames := q.frames.map (fun f => { f with waitStatus := f.waitStatus.filter (fun x => x != d.val) }) }))

end Sys2Proof.Machine
end

