-- ==== Sys2Proof/Machine/Learning.lean ====
section
/-!
DEFINITION. The adaptation unit: its settings (spec/17_store_learning.md R446), labels (R451 to R457) and seeds (R458).
-/

namespace Sys2Proof.Machine

/-! ### Settings (R446) -/

/-- The first field of a settings register. -/
def lrnFld : LrnReg → Fld
  | .cfg => Reg.SOL_LRN_CFG_EN
  | .tbase => Reg.SOL_LRN_TBASE
  | .rows => Reg.SOL_LRN_ROWS
  | .cbase => Reg.SOL_LRN_CBASE
  | .lbase => Reg.SOL_LRN_LBASE
  | .llog2 => Reg.SOL_LRN_LLOG2

/-- The settings of Table 17-1 that have a range, each with whether its present value lies in it. -/
def State.lrnRanges (s : State) : List (Fld × Bool) :=
  let v := fun (f : Fld) => s.getF f
  let t := Reg.SOL_LRN_CFG_THETA
  [(t, decide (256 ≤ v t ∧ v t ≤ 2047)),
   (Reg.SOL_LRN_CFG_CLOG2, decide (1 ≤ v Reg.SOL_LRN_CFG_CLOG2 ∧ v Reg.SOL_LRN_CFG_CLOG2 ≤ 8)),
   (Reg.SOL_LRN_CFG_EMB_OFF, v Reg.SOL_LRN_CFG_EMB_OFF % 32 == 0),
   (Reg.SOL_LRN_TBASE, v Reg.SOL_LRN_TBASE % 256 == 0),
   (Reg.SOL_LRN_ROWS, decide (1 ≤ v Reg.SOL_LRN_ROWS ∧ v Reg.SOL_LRN_ROWS ≤ 4096)),
   (Reg.SOL_LRN_CBASE, v Reg.SOL_LRN_CBASE % 32 == 0), (Reg.SOL_LRN_LBASE, v Reg.SOL_LRN_LBASE % 32 == 0),
   (Reg.SOL_LRN_LLOG2, decide (4 ≤ v Reg.SOL_LRN_LLOG2 ∧ v Reg.SOL_LRN_LLOG2 ≤ 8))]

/-- CORRECTED.0x905 with the register and the value written. -/
def State.lrnReject (s : State) (off v : Nat) : State := s.report 0 0x905 uLearn [(26, off), (32, v)]

/-- A write of a settings register: while EN is 1 only EN may change; a field given a value outside its range, and EN set
while any field is outside, are rejected (R446, R548). The fields that stand beside EN in its register count as written when the write
changes them, since EN could not be cleared otherwise (DEDUCED, log entry 51). -/
def State.writeLrn (r : LrnReg) (w : WriteReq) (s : State) : State :=
  let off := (lrnFld r).off
  let s1 := s.plainWrite off w
  let en := s.flag Reg.SOL_LRN_CFG_EN
  let onlyEn := s1.setF Reg.SOL_LRN_CFG_EN (s.getF Reg.SOL_LRN_CFG_EN)
  let outside := (s1.lrnRanges.any (fun e => e.1.off == off && !e.2 && s1.getF e.1 != s.getF e.1))
  let other := if r = .cfg then onlyEn.word off != s.word off
    else accMask (Reg.fields off) .rw &&& halfMask w.half != 0#64
  let bad := (en && other) || outside ||
    (!en && s1.flag Reg.SOL_LRN_CFG_EN && s1.lrnRanges.any (fun e => !e.2))
  if bad then s.lrnReject off (written w) else s1

/-- SOL_LRN_CFG. -/
def execSolLrnCfg (r : LrnReg) (w : WriteReq) (s : State) : Out :=
  .next (s.gated w.agent w.half (lrnFld r).off (State.writeLrn r w))

/-! ### Trace memory (R448) -/

def State.trace (s : State) (r i : Nat) : Int := SMap.get (fun _ => 0) s.learn.trace (r * 256 + i)
def State.gen (s : State) (r : Nat) : Nat := SMap.get (fun _ => 0) s.learn.gen r
def State.traceEcc (s : State) (r e : Nat) : EccState := SMap.get (fun _ => .clean) s.learn.tecc (r * 257 + e)

/-- Write a row's traces and generator state whole, with fresh check bits. -/
def State.putTraces (s : State) (r : Nat) (ts : List Int) (g : Nat) : State :=
  let x := s.learn
  s.setLearn { trace := ts.zipIdx.foldl (fun m e => SMap.put (fun _ => 0) m (r * 256 + e.2) e.1) x.trace,
               gen := SMap.put (fun _ => 0) x.gen r g,
               tecc := SMap.drop (fun k => k / 257 == r) x.tecc }

/-- A seed of this value is accepted: the unit is ON and idle, and the seed is not 0 (R458, R545). -/
def State.seedOk (s : State) (v : Nat) : Bool :=
  s.domOn 32 && (!s.flag Reg.SOL_LRN_CFG_EN || s.getF Reg.SOL_LRN_LRD == s.getF Reg.SOL_LRN_LWR) && v != 0

/-- A write of SOL_LRN_SEED (R458): the seed takes effect on the write that covers bits [63:32], for the row last written. A seed
write that is not accepted is ignored whole. -/
def State.writeSeed (w : WriteReq) (s : State) : State :=
  let s1 := match wField w Reg.SOL_LRN_SEED_ROW with | some r => s.setF Reg.SOL_LRN_SEED_ROW r | none => s
  match wField w Reg.SOL_LRN_SEED_SEED with
  | none => s1
  | some v =>
    if s.seedOk v then s1.putTraces (s1.getF Reg.SOL_LRN_SEED_ROW) (List.replicate 256 0) v
    else s.lrnReject Reg.SOL_LRN_SEED_SEED.off v

/-- SOL_LRN_SEED. -/
def execSolLrnSeed (w : WriteReq) (s : State) : Out :=
  .next (s.gated w.agent w.half Reg.SOL_LRN_SEED_ROW.off (State.writeSeed w))

/-! ### Labels (R451 to R456) -/

/-- Read `n` whole words; the first one that is poisoned, uncorrectable or unavailable is named. -/
def State.lrnRead : Nat → State → Nat → State × List Byte × Option Nat
  | 0, s, _ => (s, [], none)
  | n + 1, s, a =>
    let r := s.unitRead a 0
    let t := State.lrnRead n r.1 (a + 32)
    (t.1, r.2.bytes ++ t.2.1, if r.2.bad || r.2.unavail then some a else t.2.2)

/-- The words of a row's trace memory from element `lo` on (256 is the generator state) that a label reads: CORRECTED.0x904 for each
corrected one; the Bool says that one is uncorrectable. -/
def State.lrnTraces (s : State) (r lo : Nat) : State × Bool :=
  let ws := s.learn.tecc.filter (fun e => e.1 / 257 == r && decide (lo ≤ e.1 % 257))
  ((ws.filter (fun e => e.2 == .correctable)).foldl (fun s e => s.report 0 0x904 uLearn [(12, r), (16, e.1 % 257)]) s,
   ws.any (fun e => e.2.bad))

/-- New errors of trace memory: a word in error stays so until its row is seeded (R453). -/
def traceErrs (errs : List (Fin 4096 × Fin 257 × Bool)) (m : List (Nat × EccState)) : List (Nat × EccState) :=
  errs.foldl (fun m e =>
    let k := e.1.val * 257 + e.2.1.val
    if (SMap.get (fun _ => EccState.clean) m k).bad then m
    else SMap.put (fun _ => EccState.clean) m k (if e.2.2 then .uncorrectable else .correctable)) m

/-- A row under update. -/
structure RowUp where
  g : Nat
  ws : List Int := []
  ts : List Int := []
  commits : Nat := 0
  clamps : Nat := 0

/-- One element of one row (R454): `w` its weight, `t` its trace and `c` the target. -/
def lrnStep (sign : Int) (k theta : Nat) (x : RowUp) (w t c : Int) : RowUp :=
  let d := sign * (c - w)
  let g : Nat := (x.g / 2) ^^^ (if x.g % 2 = 1 then 0x80200003 else 0)
  let u := if k ≤ 8 then d * ((2 ^ (8 - k) : Nat) : Int)
    else
      let m : Nat := 2 ^ (k - 8)
      d / Int.ofNat m + (if Int.ofNat (g % m) < d % Int.ofNat m then 1 else 0)
  let v := t + u
  if (theta : Int) ≤ v ∨ v ≤ -(theta : Int) then
    let n := v.tdiv 256
    let w2 := w + n
    let w3 := if w2 > 127 then 127 else if w2 < -128 then -128 else w2
    { g := g, ws := x.ws ++ [w3], ts := x.ts ++ [v - 256 * n], commits := x.commits + b2n (w3 != w), clamps := x.clamps + b2n (w3 != w2) }
  else { x with g := g, ws := x.ws ++ [w], ts := x.ts ++ [v] }

/-- Update a row in ascending element order. -/
def State.lrnRow (s : State) (r : Nat) (sign : Int) (k : Nat) (old : List Byte) (target : List Int) : RowUp :=
  (List.range 256).foldl (fun x i =>
    lrnStep sign k (s.getF Reg.SOL_LRN_CFG_THETA) x (sint 8 (fieldLe old i 1)) (s.trace r i) (target.getD i 0))
    { g := s.gen r }

/-- The address of a row (R447). -/
def State.rowAddr (s : State) (r : Nat) : Nat := s.getF Reg.SOL_LRN_TBASE + 256 * r

/-- Write back a row: each table word in which a weight changed, and its traces and generator state (R456). -/
def State.lrnStore (s : State) (r : Nat) (old : List Byte) (x : RowUp) : State :=
  let new := x.ws.map (fun w => BitVec.ofInt 8 w)
  ((List.range 8).foldl (fun s k =>
    if sliceB old (32 * k) 32 == sliceB new (32 * k) 32 then s
    else (s.unitWrite (s.rowAddr r + 32 * k) (sliceB new (32 * k) 32)).1) s).putTraces r x.ts x.g

/-- The address of a cache entry (R449). -/
def State.cacheAddr (s : State) (m j : Nat) : Nat :=
  let d := 2 ^ s.getF Reg.SOL_LRN_CFG_CLOG2
  s.getF Reg.SOL_LRN_CBASE + 288 * (m * d + j % d)

/-- A label completes (R451): its results are written back as one word, and LRD advances. -/
def State.lrnDone (s : State) (lab : List Byte) (status commits clamps : Nat) : State :=
  let idx := s.getF Reg.SOL_LRN_LRD % 2 ^ s.getF Reg.SOL_LRN_LLOG2
  let bs := sliceB lab 0 8 ++ leBytes 1 status ++ sliceB lab 9 1 ++ leBytes 2 commits ++ leBytes 2 clamps ++ sliceB lab 14 2 ++
    leBytes 8 s.now ++ sliceB lab 24 8
  let s1 := ((s.unitWrite (s.getF Reg.SOL_LRN_LBASE + 32 * idx) bs).1).addF Reg.SOL_LRN_LRD 1
  if 2 ≤ status ∧ status ≠ 5 then s1.report 0 0x901 uLearn [(16, idx), (4, status)] else s1

/-- DATA_ERROR (R453): DEGRADED.0x903 with the first source in the order table, cache, trace memory. How an offset of the
trace memory is counted is not stated, so that item is free (DESIGN CHOICE, log entry 2). -/
def State.lrnBad (s : State) (lab : List Byte) (idx : Nat) (table cache : Option Nat) : State :=
  let d := match table, cache with
    | some a, _ => [(16, idx), (4, 0), (43, a / 32)]
    | none, some a => [(16, idx), (4, 1), (43, a / 32)]
    | none, none => [(16, idx), (4, 2), (22, s.freeVal.toNat % 2 ^ 22)]
  (s.freeNext.report 1 0x903 uLearn d).lrnDone lab 5 0 0

/-- A label whose checks have passed: it reads every word, then updates its rows (R453 to R456). -/
def State.lrnApply (s : State) (lab : List Byte) (idx : Nat) (head : List Byte) (hbad : Option Nat) : State :=
  let pos := fieldLe lab 4 2
  let neg := fieldLe lab 6 2
  let two := neg != 0xFFFF
  let c := State.lrnRead 8 s (s.cacheAddr (fieldLe lab 0 2) (fieldLe lab 2 2) + 32)
  let p := State.lrnRead 8 c.1 (s.rowAddr pos)
  let q := if two then State.lrnRead 8 p.1 (s.rowAddr neg) else (p.1, [], none)
  let tp := q.1.lrnTraces pos 0
  let tq := if two then tp.1.lrnTraces neg 0 else (tp.1, false)
  let table := p.2.2.orElse (fun _ => q.2.2)
  let cache := hbad.orElse (fun _ => c.2.2)
  if table.isSome || cache.isSome || tp.2 || tq.2 then tq.1.lrnBad lab idx table cache
  else
    let z : Int := ((fieldLe head 6 1 : Nat) : Int)
    let target := (List.range 256).map (fun i =>
      let x := ((fieldLe c.2.1 i 1 : Nat) : Int) - z
      if x > 127 then 127 else if x < -128 then -128 else x)
    let a := tq.1.lrnRow pos 1 (s.getF Reg.SOL_LRN_CFG_K_POS) p.2.1 target
    let s1 := tq.1.lrnStore pos p.2.1 a
    let b := s1.lrnRow neg (-1) (s.getF Reg.SOL_LRN_CFG_K_NEG) q.2.1 target
    let s2 := if two then s1.lrnStore neg q.2.1 b else s1
    let commits := a.commits + (if two then b.commits else 0)
    let clamps := a.clamps + (if two then b.clamps else 0)
    let s3 := if clamps != 0 then s2.report 0 0x902 uLearn [(16, idx), (12, pos), (12, neg), (16, clamps)] else s2
    s3.lrnDone lab 1 commits clamps

/-- LABEL_UPDATE: the unit takes the next pending label. `errs` are trace-memory words that are in error: row, element
(256 the generator state), and whether uncorrectable. -/
def execLabelUpdate (errs : List (Fin 4096 × Fin 257 × Bool)) (s : State) : Out :=
  if s.flag Reg.SOL_LRN_CFG_EN && s.domOn 32 && !s.sol.lost && s.getF Reg.SOL_LRN_LRD != s.getF Reg.SOL_LRN_LWR then
    let x := s.learn
    let s := s.setLearn { x with tecc := traceErrs errs x.tecc }
    let idx := s.getF Reg.SOL_LRN_LRD % 2 ^ s.getF Reg.SOL_LRN_LLOG2
    let l := s.unitRead (s.getF Reg.SOL_LRN_LBASE + 32 * idx) 0
    let lab := l.2.bytes
    let rows := s.getF Reg.SOL_LRN_ROWS
    let pos := fieldLe lab 4 2
    let neg := fieldLe lab 6 2
    let two := neg != 0xFFFF
    let zero := fieldLe lab 9 1 == 0 && fieldLe lab 14 2 == 0 && fieldLe lab 24 8 == 0
    let dead := fun (r : Nat) => !(s.traceEcc r 256).bad && s.gen r == 0
    if rows ≤ pos || (two && decide (rows ≤ neg)) || !zero then .next (l.1.lrnDone lab 3 0 0)
    else if neg == pos then .next (l.1.lrnDone lab 4 0 0)
    else
      let h := State.lrnRead 1 l.1 (s.cacheAddr (fieldLe lab 0 2) (fieldLe lab 2 2))
      if h.2.2.isNone && !(fieldLe h.2.1 4 1 == 1 && sliceB h.2.1 0 4 == sliceB lab 0 4) then .next (h.1.lrnDone lab 2 0 0)
      else if dead pos || (two && dead neg) then
        let a := (h.1.lrnTraces pos 256).1
        .next ((if two then (a.lrnTraces neg 256).1 else a).lrnDone lab 6 0 0)
      else .next (h.1.lrnApply lab idx h.2.1 h.2.2)
  else .next s

end Sys2Proof.Machine
end

