-- ==== Sys2Proof/Machine/Results.lean ====
section
/-!
DEFINITION. Result records (spec/14_streams_and_endpoints.md R388 to R393): the weight reference (spec/01 R21 to R23),
the pending store, the embedding cache (spec/17 R449, R450) and the RESULT evidence entry (spec/11 R311).
-/

namespace Sys2Proof.Machine

/-- The weight source of a stream's linked scale (R21, Table 14-4, R431). -/
def State.linkedSource (s : State) (m : Nat) : Option Nat :=
  let x := s.epScale (s.cameraOf m)
  if x = 0xFFFF then none else some (s.epF x 32 1 * 16 + (s.epF x 33 1 - 1))

/-- Of two records, the nearer to an exposure instant; equally near, the earlier, and at one INSTANT the lower WSEQ
(R22, R435). -/
def nearer (t : Nat) (a b : Nat × Nat) : Nat × Nat :=
  let d := fun (x : Nat × Nat) => ((x.2 : Int) - t).natAbs
  if d a < d b then a
  else if d b < d a then b
  else if a.2 < b.2 ∨ (a.2 = b.2 ∧ a.1 ≤ b.1) then a else b

/-- The stable records that a source's ring holds: WSEQ and INSTANT. -/
def State.stableOf (s : State) (n : Nat) : List (Nat × Nat) :=
  (s.bgw.copies.filter (fun e => e.1 / 256 == n)).filterMap (fun e =>
    match e.2 with
    | some (true, q, t) => some (q, t)
    | _ => none)

/-- The weight reference of a frame (R22, R23); none for NO_WEIGHT. -/
def State.weightRef (s : State) (m target : Nat) : Option Nat :=
  match (s.linkedSource m).map s.stableOf with
  | some (x :: xs) => some (xs.foldl (nearer target) x).1
  | _ => none

/-- The completion instant of a record: the latest of all parts (R27, R412); the present instant for a frame not
admitted or not completed. -/
def State.doneAt (s : State) (f : Frame) : Nat :=
  match f.completion with | some t => max t f.peerDone | none => s.now

/-- The output area of a pipeline lies on a follower (R412). -/
def State.farArea (s : State) (p : Nat) : Bool := (s.pipe p).outBank == 0 && !(s.followers p).isEmpty

/-- OUT_ADDR of a frame that is not VOID; on a head whose output area lies on a follower, bits [53:48] give that device. Which of
several followers holds the tail, and where its area lies there, the manual does not say how the head knows: free values (R412,
DESIGN CHOICE, log entry 2). -/
def State.outAddr (s : State) (p : Nat) (f : Frame) : Nat :=
  let q := s.pipe p
  let ds := s.followers p
  if s.farArea p then
    ds.getD (s.freeVal.toNat / 2 ^ 48 % ds.length) 0 * 2 ^ 48 + s.freeVal.toNat % 2 ^ 48
  else q.bankAddr f.fif

/-- The 64 bytes of a result record (Table 14-9). -/
def State.recordBytes (s : State) (p : Nat) (f : Frame) : List Byte :=
  let w := s.weightRef f.stream f.target
  let ev := if s.flag Reg.ING_EVR_CTL_EN then f.evidence else none
  let v := f.void.isSome
  let b := leBytes 2 f.stream ++ leBytes 2 f.frameNo ++ leBytes 1 (b2n v + 2 * b2n w.isNone + 4 * b2n ev.isNone) ++
    leBytes 1 ((f.void.map (fun x => x.1)).getD 0) ++ leBytes 1 f.quality ++ leBytes 1 (p + 4 * f.fif) ++ leBytes 8 f.target ++
    leBytes 8 f.launch ++ leBytes 8 (s.doneAt f) ++ leBytes 4 (w.getD 0xFFFFFFFF) ++ leBytes 4 (satN 32 f.lag) ++
    leBytes 8 (if v then 0 else s.outAddr p f) ++ leBytes 4 (if v then 0 else (s.pipe p).io.outLen) ++
    leBytes 4 (ev.getD 0xFFFFFFFF) ++ leBytes 4 0
  b ++ leBytes 4 (crc32c b)

/-- `n` words of a frame's output area, read in OUT_ADDR's memory, and which of them are bad. Of an area that lies on a follower both are
free values (log entry 2). -/
def State.outWords (s : State) (p : Nat) (f : Frame) (off n : Nat) : State × List Byte × List Bool :=
  if s.farArea p then
    let r := s.freeBytes (33 * n)
    (r.1, r.2.take (32 * n), (r.2.drop (32 * n)).map (fun b => b.toNat % 2 == 1))
  else State.unitReadEach n s ((s.pipe p).bankAddr f.fif + off)

/-- The zero point of a tensor in a frame's scale bank (R163); a fixed one that the bank does not hold is the entries' own. -/
def Frame.zeroOf (f : Frame) (p tensor : Nat) : Nat :=
  match f.bank.find? (fun e => e.1 == tensor) with
  | some e => e.2.2
  | none => (Config.fixedZp p tensor).toNat

/-- Copy a frame's embedding into the cache (R449, R450): the header with VALID at 0, the codes, and the header with VALID
at 1. Z_E is the embedding tensor's zero point in the frame's scale bank. -/
def State.cacheCopy (s : State) (p : Nat) (f : Frame) : State :=
  if s.flag Reg.SOL_LRN_CFG_EN && s.getF Reg.SOL_LRN_CFG_PIPE == p && f.void.isNone && s.domOn 32 && !s.sol.lost then
    let a := s.cacheAddr f.stream f.frameNo
    let head := fun (v : Nat) => leBytes 2 f.stream ++ leBytes 2 f.frameNo ++ leBytes 1 v ++ leBytes 1 f.quality ++
      leBytes 1 (f.zeroOf p (Config.embTensor p)) ++ leBytes 1 0 ++ leBytes 8 f.target ++ leBytes 16 0
    let r := s.outWords p f (s.getF Reg.SOL_LRN_CFG_EMB_OFF) 8
    let s1 := (r.1.unitWrite a (head 0)).1
    let s2 := (State.unitWriteN 8 s1 (a + 32) r.2.1).1
    (s2.unitWrite a (head 1)).1
  else s

/-- The RESULT evidence entry of a record (R311): the record, and the output area coded as B32 unless the record is VOID; none
for a frame that never became complete (R25). Width, height and channels are those of the tail's output; without a tail the manual names no output tensor, and they
are free values (DESIGN CHOICE, log entry 2). The last 1 to 3 bytes of an output area whose OUT_LEN is no multiple of 4 belong to no B32
segment, while RAW_BYTES keeps OUT_LEN (DESIGN CHOICE, log entry 110). -/
def State.resultEvidence (s : State) (p : Nat) (f : Frame) (rec' : List Byte) : State :=
  if !s.flag Reg.ING_EVR_CTL_EN || !f.admitted then s
  else
    let q := s.pipe p
    let n := if f.void.isSome then 0 else q.io.outLen
    let r := s.outWords p f 0 (ceilDiv n 32)
    let x := encodeTensor 3 0 1 (sliceB r.2.1 0 n) r.2.2
    let k := q.sol.tail
    let dim := fun (i v w : Nat) => if q.usesTail then v else (Config.freeWord (r.1.free + i)).toNat % 2 ^ w
    let s1 := if q.usesTail then r.1 else r.1.setFree (r.1.free + 3)
    (s1.writeEvidence { type := 2, stream := f.stream, frame := f.frameNo, kind := 3, exposure := f.target,
                        width := dim 0 k.wOut 16, height := dim 1 k.hOut 16, channels := dim 2 k.outC 8,
                        nseg := x.2, raw := n } (rec' ++ x.1)).1

/-- The ring of a stream has room (R390). -/
def State.resultRoom (s : State) (m : Nat) : Bool :=
  decide ((s.getF (Reg.ING_STR_RING_WR m) + 2 ^ 32 - s.getF (Reg.ING_STR_RING_RD m)) % 2 ^ 32 <
    2 ^ s.getF (Reg.ING_STR_CFG_RING_LOG2 m))

/-- Write the record of a frame (R390): two whole words, then RING_WR and the interrupt; the frame's slot and number are
free again (R386, R48). -/
def State.writeRecord (s : State) (p : Nat) (f : Frame) : State :=
  let m := f.stream
  let s1 := s.cacheCopy p f
  let bs := s1.recordBytes p f
  let a := s1.getF (Reg.ING_STR_RING_BASE m) + 64 * (s1.getF (Reg.ING_STR_RING_WR m) % 2 ^ s1.getF (Reg.ING_STR_CFG_RING_LOG2 m))
  let s2 := ((State.unitWriteN 2 s1.freeNext a bs).1).addF (Reg.ING_STR_RING_WR m) 1
  let s3 := if s2.flag (Reg.ING_STR_CFG_IRQ_EN m) then s2.irqSource (1 + m) else s2
  let s4 := s3.resultEvidence p f bs
  (s4.onPipe p (fun q => q.retire f)).settleStop p

/-- After a loss, records are written in admission order across the streams (R89, R479). -/
def Pipe.recordTurn (p : Pipe) (f : Frame) : Bool := !p.halted || p.frames.all (fun g => decide (f.id ≤ g.id) || g.recPend)

/-- A frame's record may be written (R27, R412, R476): its fault records are visible, every follower has reported, and it is not
admitted, lost a unit that it needed, is complete, or stands in a section that was not started (R83). -/
def State.recordReady (s : State) (p : Nat) (f : Frame) : Bool :=
  !s.recordHeld f && (s.pipe p).recordTurn f &&
  (!f.admitted || (f.waitStatus.isEmpty && (f.lostUnit || f.completion.isSome || ((s.pipe p).ctxFail && f.void.isSome))))

/-- The pipeline that holds the waiting records of a stream: the one it is bound to, or was when the record began to wait. -/
def State.pendPipe (s : State) (m : Nat) : Nat :=
  ([0, 1, 2, 3].find? (fun p => (s.pipe p).frames.any (fun f => f.stream == m && f.recPend))).getD
    (s.getF (Reg.ING_STR_CFG_PIPE m))

/-- Write one waiting record of a stream when there is room and its fault records are visible; CORRECTED.0x309 when none waits any
longer (R391, R476). -/
def State.drainRecord (s : State) (m : Nat) : State :=
  let p := s.pendPipe m
  if (s.strm m).pend = 0 ∨ s.resultRoom m = false then s
  else
    match (s.pipe p).frames.find? (fun f => f.stream == m && f.recPend) with
    | none => s
    | some f =>
      if s.recordHeld f then s
      else
      let s1 := (s.writeRecord p f).onStrm m (fun x => { x with pend := x.pend - 1 })
      if (s1.strm m).pend = 0 then
        (s1.report 0 0x309 uIngest [(16, m), (16, (s1.strm m).maxPend)]).onStrm m (fun x => { x with maxPend := 0 })
      else s1

/-- Write the waiting records of a stream while there is room. -/
def State.drainRecords (s : State) (m : Nat) : State := (List.range 8).foldl (fun s _ => s.drainRecord m) s

/-- RESULT_RECORD_WRITE: the record of the stream's oldest frame without one is written, or waits in the pending store,
with DEGRADED.0x308 when a record first waits. -/
def execResultRecordWrite (m : Fin 64) (s : State) : Out :=
  let s := s.drainRecords m
  let p := s.getF (Reg.ING_STR_CFG_PIPE m)
  match (s.pipe p).frames.find? (fun f => f.stream == m.val && !f.recPend) with
  | none => .next s
  | some f =>
    let n := (s.strm m).pend
    if !s.recordReady p f || s.isFollower p then .next s
    else if n = 0 ∧ s.resultRoom m = true then .next (s.writeRecord p f)
    else if 8 ≤ n then .next s
    else
      let s1 := s.onPipe p (fun q => { q with frames := q.frames.map (fun g =>
        if g.id == f.id then { g with recPend := true } else g) })
      let s2 := s1.onStrm m (fun x => { x with pend := n + 1, maxPend := max x.maxPend (n + 1) })
      .next (if n = 0 then s2.report 1 0x308 uIngest [(16, m)] else s2)

/-- A write of ING_STRm_RING_RD (R391). -/
def State.writeRingRd (m : Nat) (w : WriteReq) (s : State) : State :=
  (s.plainWrite (Reg.ING_STR_RING_RD m).off w).drainRecords m

/-- ING_STR_RING_RD. -/
def execIngStrRingRd (m : Fin 64) (w : WriteReq) (s : State) : Out :=
  .next (s.gated w.agent w.half (Reg.ING_STR_RING_RD m).off (State.writeRingRd m w))

end Sys2Proof.Machine
end

