-- ==== Sys2Proof/Machine/Control.lean ====
section
/-!
DEFINITION. Control space as a whole (spec/22 R542 to R564, spec/23 R565 to R583): what a write at any offset does, and what
a read returns.
-/

namespace Sys2Proof.Machine

/-! ### Writes that only one register has -/

/-- A write that takes effect only while a condition holds of the state it leaves (R548). -/
def State.writeIf (s : State) (off : Nat) (w : WriteReq) (ok : State → Bool) : State :=
  let s1 := s.plainWrite off w
  if ok s1 then s1 else s

/-- A write that starts an action: ignored unless the register's unit is ON (R545). -/
def State.onlyOn (s : State) (off : Nat) (f : State → State) : State := if s.regActs off then f s else s

/-- A write of FLT_IRQ_CFGd or FLT_IRQ_STATd: the destination's interrupt follows its bits (R474). -/
def State.writeFltIrq (d off : Nat) (w : WriteReq) (s : State) : State := (s.plainWrite off w).fltLevel d

/-- A write of ING_STRm_CFG: while the stream is bound only IRQ_EN is taken (R559); NSLOT and RING_LOG2 lie in their ranges
(R548). -/
def State.writeStrCfg (m : Nat) (w : WriteReq) (s : State) : State :=
  let s1 := s.plainWrite (Reg.ING_STR_CFG_PIPE m).off w
  if s.getF (Reg.ING_STR_STATE m) ≠ 0 then
    s.setF (Reg.ING_STR_CFG_IRQ_EN m) (s1.getF (Reg.ING_STR_CFG_IRQ_EN m))
  else
    let n := s1.getF (Reg.ING_STR_CFG_NSLOT m)
    let l := s1.getF (Reg.ING_STR_CFG_RING_LOG2 m)
    if coversHi w.half && !(decide (1 ≤ n ∧ n ≤ 16) && decide (4 ≤ l ∧ l ≤ 12)) then s else s1

/-- The modes a port supports (Table 14-1, coded as in Table 20-7). -/
def modeOk (p mode : Nat) : Bool := if p < 4 then decide (mode ≤ 3) else mode == 0 || mode == 4 || mode == 5

/-- A write of ETH_Pn_CFG: a mode that the port does not support is ignored (R548); a new mode takes the link down, to come
up again in that mode (R366). -/
def State.writeEthCfg (p : Nat) (w : WriteReq) (s : State) : State :=
  let s1 := s.plainWrite (Reg.ETH_P_CFG_MODE p).off w
  let m := s1.getF (Reg.ETH_P_CFG_MODE p)
  if !modeOk p m then s
  else if m = s.getF (Reg.ETH_P_CFG_MODE p) then s1
  else ((s1.setF (Reg.ETH_P_STAT_LINK_UP p) 0).setF (Reg.ETH_P_STAT_BLOCK_LOCK p) 0).setF (Reg.ETH_P_STAT_FEC_ALIGN p) 0

/-- A write of a ring's bases or LOG2: only while both rings are empty, LOG2 within 4 to 12 (R561). -/
def State.writeRingCfg (p : Nat) (tq : Bool) (off : Nat) (w : WriteReq) (s : State) : State :=
  let r := ringRegs p tq
  if s.getF r.rxWr = s.getF r.rxRd ∧ s.getF r.txWr = s.getF r.txRd then
    s.writeIf off w (fun t => decide (4 ≤ t.getF r.log2 ∧ t.getF r.log2 ≤ 12))
  else s

/-- A write of CCnn_VT_ARGk: the writer's own copy (R575). -/
def State.writeVtArg (c k : Nat) (w : WriteReq) (s : State) : State :=
  let x := s.vtOf w.agent c
  let m := halfMask w.half
  let v := (SMap.get (fun _ => 0#64) x.args k &&& ~~~m) ||| (w.value &&& m)
  s.putVt w.agent c { x with args := SMap.put (fun _ => 0#64) x.args k v }

/-! ### Writes by block -/

/-- A write within the MGT block. -/
def State.writeMgt (o : Nat) (w : WriteReq) (s : State) : State :=
  if 0x8000 ≤ o then
    let q := (o - 0x8000) / 0x80
    let r := o % 0x80
    if 0x10000 ≤ o then s
    else if r = 0 then State.writeMqCfg q w s
    else if 0x40 ≤ r ∧ r < 0x60 then State.writePush q ((r - 0x40) / 8) w s
    else s
  else if 0x1000 ≤ o then
    let b := (o - 0x1000) / 0x10
    if 64 ≤ b then s
    else if o % 0x10 = 0 then State.writeExpect b w s
    else s.onlyOn o (fun s => if wBit w (Reg.MGT_BAR_ARRIVE b) then s.arriveBar b else s)
  else if 0x800 ≤ o then
    let c := (o - 0x800) / 0x40
    if 2 ≤ c then s
    else match o % 0x40 with
      | 0x00 => State.writeMbxBase c (Reg.MGT_MBX_REQBASE c) w s
      | 0x08 => State.writeMbxBase c (Reg.MGT_MBX_RSPBASE c) w s
      | 0x10 => State.writeMbxCtl c w s
      | 0x18 => State.writeReqWr c w s
      | 0x30 => State.writeRspRd c w s
      | _ => s.plainWrite o w
  else if 0x108 ≤ o ∧ o < 0x3F0 then
    s.writeIf o w (fun t => t.getF (Reg.MGT_IRQ_ROUTE_DEST ((o - 0x100) / 8)) != 3)
  else match o with
    | 0x18 => State.writeDevnum w s
    | 0x38 => State.writeBootPcie w s
    | 0x48 => State.writeRevoke w s
    | 0x70 => State.writeHbCfg w s
    | 0x78 => State.writeHbmCtl w s
    | 0x88 => State.writeWdog w s
    | 0x90 => State.writeStwCtl w s
    | 0x98 => State.writeHartStart w s
    | _ => s.plainWrite o w

/-- A write within the ALM block. -/
def State.writeAlm (off : Nat) (w : WriteReq) (s : State) : State :=
  let o := off % 0x100000
  if 0x400 ≤ o ∧ o < 0x600 then
    let p := (o - 0x400) / 0x20
    match o % 0x20 with
    | 0x00 => State.writeGl p .time w s
    | 0x08 => State.writeGl p .period w s
    | 0x10 => State.writeGl p .ctl w s
    | _ => s
  else if 0x100 ≤ o ∧ o < 0x200 then
    let n := (o - 0x100) / 0x40
    match o % 0x40 with
    | 0x00 => State.writePeriod n w s
    | 0x08 => State.writeShrink n w s
    | 0x18 => if s.bmState n = 0 then s.plainWrite off w else s
    | 0x28 => State.writeBmCtl n w s
    | _ => s.plainWrite off w
  else match o with
    | 0x18 => State.writeRate w s
    | 0x20 => State.writeSlew w s
    | 0x30 => State.writeStep w s
    | _ => s.plainWrite off w

/-- A write within the PWR block. -/
def State.writePwr (off : Nat) (w : WriteReq) (s : State) : State :=
  let o := off % 0x100000
  if o = 0 then State.writeSleep w s
  else if 0x1000 ≤ o ∧ o < 0x1390 then
    if o % 0x10 = 0 then State.writeDomReq ((o - 0x1000) / 0x10) w s else s
  else if 0x2000 ≤ o ∧ o < 0x2840 then
    let d := (o - 0x2000) / 0x40
    match o % 0x40 with
    | 0x00 => State.writeClk d w s
    | 0x10 => State.writeAvs d w s
    | 0x18 => State.writeVset d w s
    | 0x28 => if d < 32 then State.writeIdle d w s else s
    | _ => s
  else if 0x3000 ≤ o ∧ o < 0x3020 then State.writeQpll ((o - 0x3000) / 8) w s
  else if o = 0x3100 then State.writeHostClk w s
  else s.plainWrite off w

/-- A write within the FLT block. -/
def State.writeFlt (off : Nat) (w : WriteReq) (s : State) : State :=
  let o := off % 0x100000
  if 0x80 ≤ o ∧ o < 0xB0 then State.writeFltIrq ((o - 0x80) / 0x10) off w s
  else match o with
    | 0x00 => State.writeFltCtl w s
    | 0x10 => State.writeFltRing Reg.FLT_Q_BASE w s
    | 0x18 => State.writeFltRing Reg.FLT_Q_LOG2 w s
    | _ => s.plainWrite off w

/-- A write within the WVL block. -/
def State.writeWvl (off : Nat) (w : WriteReq) (s : State) : State :=
  let o := off % 0x100000
  if o = 0x08 then s.onlyOn off (State.writeWvlCtl w)
  else if 0x100 ≤ o ∧ o < 0x900 ∧ (o - 0x100) % 0x200 = 8 then
    s.onlyOn off (State.writeUnload ((o - 0x100) / 0x200) w)
  else s.plainWrite off w

/-- A write within the ING block. -/
def State.writeIng (off : Nat) (w : WriteReq) (s : State) : State :=
  let o := off % 0x100000
  if 0x1000 ≤ o ∧ o < 0x5000 then
    let m := (o - 0x1000) / 0x100
    let free := s.getF (Reg.ING_STR_STATE m) == 0
    match o % 0x100 with
    | 0x00 => State.writeStrCfg m w s
    | 0x08 => if free then s.writeIf off w (fun t => t.getF (Reg.ING_STR_IBUF_BASE m) % 32 == 0) else s
    | 0x10 => if free then s.writeIf off w (fun t => t.getF (Reg.ING_STR_IBUF_STRIDE m) % 32 == 0) else s
    | 0x18 => if free then s.writeIf off w (fun t => t.getF (Reg.ING_STR_RING_BASE m) % 64 == 0) else s
    | 0x28 => State.writeRingRd m w s
    | 0x30 => s.onlyOn off (State.writeBind m w)
    | _ => s
  else if 0x100 ≤ o ∧ o < 0x900 then
    let n := (o - 0x100) / 0x200
    let r := (o - 0x100) % 0x200
    if r = 0 then State.writeRotation n 32 w s
    else if 0x100 ≤ r then State.writeRotation n ((r - 0x100) / 8) w s
    else s
  else match o with
    | 0x10 => if s.flag Reg.ING_EVR_CTL_EN then s else s.writeIf off w (fun t => t.getF Reg.ING_EVR_BASE % 32 == 0)
    | 0x18 => if s.flag Reg.ING_EVR_CTL_EN then s else s.writeIf off w (fun t => t.getF Reg.ING_EVR_SIZE % 32 == 0)
    | 0x28 => State.writeEvrCtl w s
    | _ => s.plainWrite off w

/-- A write within the ETH block. -/
def State.writeEth (off : Nat) (w : WriteReq) (s : State) : State :=
  let o := off % 0x100000
  if 0x80000 ≤ o then
    let i := (o - 0x80000) / 64
    let k := o % 64 / 8
    if 0x90000 ≤ o then s else if k = 7 then State.commitEp i w s else s.stageEp i k w
  else if 0x1000 ≤ o ∧ o < 0x1C00 then
    let p := (o - 0x1000) / 0x200
    match (o - 0x1000) % 0x200 with
    | 0x00 => State.writeEthCfg p w s
    | 0x28 | 0x38 | 0x48 => if p < 4 then s.plainWrite off w else s
    | 0x60 => if h : p < 6 then State.writeLoop (.ethLoop ⟨p, h⟩) w s else s
    | 0x68 => if h : p < 6 then State.writeLoop (.ethPrbs ⟨p, h⟩) w s else s
    | 0x80 | 0x88 | 0x90 => State.writeRingCfg p false off w s
    | 0x140 | 0x148 | 0x150 => State.writeRingCfg p true off w s
    | _ => s.plainWrite off w
  else s.plainWrite off w

/-- A write within the QSK block. -/
def State.writeQsk (off : Nat) (w : WriteReq) (s : State) : State :=
  let o := off % 0x100000
  if 0x2000 ≤ o ∧ o < 0x2080 then
    let n := (o - 0x2000) / 0x20
    if s.resident n then s
    else s.writeIf off w (fun t =>
      o % 0x20 != 0x10 || decide (1 ≤ t.getF (Reg.QSK_PART_CFG_TIMEOUT n) ∧ t.getF (Reg.QSK_PART_CFG_TIMEOUT n) ≤ 1000))
  else if 0x1000 ≤ o ∧ o < 0x1800 then
    let l := (o - 0x1000) / 0x100
    match o % 0x100 with
    | 0x00 => s.onlyOn off (State.writeLinkCtl l w)
    | 0x28 => if h : l < 8 then State.writeLoop (.linkLoop ⟨l, h⟩) w s else s
    | 0x30 => if h : l < 8 then State.writeLoop (.linkPrbs ⟨l, h⟩) w s else s
    | _ => s
  else match o with
    | 0x00 => State.writeTopo w s
    | 0x18 => s.onlyOn off (State.writeRouteCtl w)
    | _ => s.plainWrite off w

/-- A write within the BGW block. -/
def State.writeBgw (off : Nat) (w : WriteReq) (s : State) : State :=
  let o := off % 0x100000
  if 0x1000 ≤ o ∧ o < 0x2000 then
    let n := (o - 0x1000) / 0x20
    match o % 0x20 with
    | 0x00 => State.writeSrcCfg n w s
    | 0x08 => State.writeSrcBase n w s
    | 0x18 => State.writeSrcRd n w s
    | _ => s
  else if 0x200 ≤ o ∧ o < 0x280 then
    let k := (o - 0x200) / 0x40
    match o % 0x40 with
    | 0x00 => State.writeKeyData k w s
    | 0x08 => State.writeKeyChk k w s
    | 0x10 => s.onlyOn off (State.writeKeyGo k w)
    | _ => s
  else if 0x100 ≤ o ∧ o < 0x200 ∧ o % 0x80 = 0x40 then s.onlyOn off (State.writeTxGo ((o - 0x100) / 0x80) w)
  else match o with
    | 0x08 => State.writeTimeCfg w s
    | 0x30 => State.writeMrBase w s
    | 0x38 => State.writeMrCtl w s
    | 0x48 => State.writeMrRd w s
    | _ => s.plainWrite off w

/-- A write within the SOL block. -/
def State.writeSol (off : Nat) (w : WriteReq) (s : State) : State :=
  match off % 0x100000 with
  | 0x00 => State.writeLrn .cfg w s
  | 0x08 => State.writeLrn .tbase w s
  | 0x10 => State.writeLrn .rows w s
  | 0x18 => State.writeLrn .cbase w s
  | 0x20 => State.writeLrn .lbase w s
  | 0x28 => State.writeLrn .llog2 w s
  | 0x48 => State.writeSeed w s
  | 0x58 => s.onlyOn off (State.writeSolBist w)
  | _ => s.plainWrite off w

/-- A write within a compute-core block. -/
def State.writeCc (off : Nat) (w : WriteReq) (s : State) : State :=
  let c := off / 0x100000 - 16
  let o := off % 0x100000
  if o < 0xE0000 then State.writeWindow c o w s
  else match o with
    | 0xE0028 => s.onlyOn off (State.writeBist c w)
    | 0xE0100 => State.writeTallyCtl c w s
    | 0xE1000 => s.onlyOn off (State.writeVtStart c w)
    | 0xE1008 => State.writeVtArg c 0 w s
    | 0xE1010 => State.writeVtArg c 1 w s
    | 0xE1018 => State.writeVtArg c 2 w s
    | 0xE1020 => State.writeVtArg c 3 w s
    | 0xE1040 => s.onlyOn off (fun s => State.writeFree c w (State.writeKill c w s))
    | _ => s.plainWrite off w

/-- A write within a memory-controller block: generator fields are held while the generator is BUSY (R577). -/
def State.writeMc (off : Nat) (w : WriteReq) (s : State) : State :=
  let m := off / 0x100000 - 48
  let o := off % 0x100000
  if 0x1000 ≤ o ∧ o < 0x2000 then
    let g := 16 * m + (o - 0x1000) / 0x100
    let r := o % 0x100
    if r = 0x40 then s.onlyOn off (State.writeTgCtl g w)
    else if 0x48 ≤ r ∧ r ≤ 0x60 ∧ s.flag (Reg.MC_TG_CTL_BUSY m (g % 16)) then s
    else s.plainWrite off w
  else match o with
    | 0x08 => s.onlyOn off (State.writeTrainCtl m w)
    | 0x10 => State.writeChMap m w s
    | 0x40 => State.writeInj m w s
    | _ => s.plainWrite off w

/-- The effect of a write of the register at an offset (R542). An unlisted offset has none. -/
def State.ctlEffect (off : Nat) (w : WriteReq) (s : State) : State :=
  match off / 0x100000 with
  | 0 => State.writeMgt off w s
  | 1 => State.writeAlm off w s
  | 2 => State.writePwr off w s
  | 3 => State.writeFlt off w s
  | 4 => State.writeWvl off w s
  | 5 => State.writeIng off w s
  | 6 => State.writeEth off w s
  | 7 => State.writeQsk off w s
  | 8 => State.writeBgw off w s
  | 9 => State.writeSol off w s
  | 10 => s.plainWrite off w
  | b => if b < 16 then s else if b < 48 then State.writeCc off w s else if b < 52 then State.writeMc off w s else s

/-- A write of control space at an offset, within one 64-bit register (R542 to R548). -/
def State.ctlWrite (s : State) (off : Nat) (w : WriteReq) : State :=
  let o := off / 8 * 8
  if (Reg.row o).isNone then s.answer .ok 0#64 else s.gated w.agent w.half o (State.ctlEffect o w)

/-- REGISTER_WRITE: a register with no row of its own, or a setting of island firmware (R417, R543). -/
def execRegisterWrite (x : CtlWrite) (s : State) : Out :=
  match x with
  | .host off w => .next (s.ctlWrite off.toNat w)
  | .island y => .next (s.islWrite y)

/-! ### Reads -/

/-- The word of a register as a read finds it: what the model keeps outside the register words stands in its place, and WO
fields read 0 (R544). -/
def State.ctlWord (s : State) (a : Agent) (off : Nat) : W64 :=
  let o := off % 0x100000
  let cc := off / 0x100000
  let plain := s.word off &&& ~~~accMask (Reg.fields off) .wo
  if off = Reg.ALM_NOW_HI.off then BitVec.ofNat 64 (SMap.get (fun _ => (0, 0)) s.alm.latch (agentIdx a)).1
  else if off = Reg.ALM_NOW_FRAC.off then BitVec.ofNat 64 (SMap.get (fun _ => (0, 0)) s.alm.latch (agentIdx a)).2
  else if off = Reg.ALM_SLEW_REM.off then BitVec.ofNat 64 (uint 32 s.slewRemNs)
  else if off = Reg.FLT_PEND.off then BitVec.ofNat 64 s.flt.pend.length
  else if 0x900400 ≤ off ∧ off < 0x900800 then
    let r := s.getF Reg.SOL_LRN_TSEL
    let n := (off - 0x900400) / 8
    BitVec.ofNat 64 (uint 16 (s.trace r (2 * n)) + uint 16 (s.trace r (2 * n + 1)) * 2 ^ 16)
  else if 16 ≤ cc ∧ cc < 48 ∧ o = 0xE1000 then
    let x := s.vtOf a (cc - 16)
    BitVec.ofNat 64 (x.slot + x.pc * 2 ^ 16 + x.status * 2 ^ 32 + x.taken * 2 ^ 40)
  else if 16 ≤ cc ∧ cc < 48 ∧ 0xE1008 ≤ o ∧ o ≤ 0xE1020 then
    SMap.get (fun _ => 0#64) (s.vtOf a (cc - 16)).args ((o - 0xE1008) / 8)
  else plain

/-- What a read clears (R544, R547): its RC fields, by `rcMask`; a read of MGT_HOST_DENY.COUNT also re-arms the capture
of the address (R502). -/
def State.ctlClear (s : State) (h : Half) (off : Nat) : State :=
  let s1 := s.clearRc h off
  if off = Reg.MGT_HOST_DENY_COUNT.off ∧ coversLo h then s1.setDenyArmed true else s1

/-- A read of control space at an offset, within one 64-bit register: the state after it and the bits it covers, at their
register positions. An unlisted offset, and a register whose domain holds no state, read 0 (R542, R545). -/
def State.ctlRead (s : State) (a : Agent) (h : Half) (off : Nat) : State × W64 :=
  let o := off / 8 * 8
  let s := if off / 0x100000 = 8 then s.barDrain else s
  if (Reg.row o).isNone || !s.regLive o then (s, 0#64)
  else if o = Reg.ALM_NOW_LO.off then
    if coversLo h then s.readNowLo a else (s, 0#64)
  else if o < 0x10000 ∧ 0x8000 ≤ o ∧ 0x20 ≤ o % 0x80 ∧ o % 0x80 < 0x40 then
    s.readPop a h ((o - 0x8000) / 0x80) ((o % 0x80 - 0x20) / 8)
  else (s.ctlClear h o, s.ctlWord a o &&& halfMask h)

/-- MGT_HOST_DENY_READ. -/
def execMgtHostDenyRead (r : ReadReq) (s : State) : Out :=
  let x := s.ctlRead r.agent r.half Reg.MGT_HOST_DENY_COUNT.off
  .next (x.1.answer .ok x.2)

/-- MGT_HCM_ECC_READ. -/
def execMgtHcmEccRead (r : ReadReq) (s : State) : Out :=
  let x := s.ctlRead r.agent r.half Reg.MGT_HCM_ECC_CORR.off
  .next (x.1.answer .ok x.2)

/-- The register of a bit-error count (Table 21-8). -/
def prbsFld : PrbsSite → Fld
  | .port p => Reg.ETH_P_PRBS_ERR p
  | .lane l k => Reg.QSK_L_PRBS_ERR l k

/-- PRBS_ERR_READ. -/
def execPrbsErrRead (k : PrbsSite) (r : ReadReq) (s : State) : Out :=
  let x := s.ctlRead r.agent r.half (prbsFld k).off
  .next (x.1.answer .ok x.2)

end Sys2Proof.Machine
end

