-- ==== Sys2Proof/Machine/Service.lean ====
section
/-!
DEFINITION. The service path (spec/09 R243, R244; spec/10 R281, R282; spec/15 R401, R402; spec/20 R508, R509): accesses of
software and of the debug unit, inbound PCIe requests, and the SERVICE units of joined devices.
-/

namespace Sys2Proof.Machine

/-! ### Parts on another device -/

/-- The number of the request that stands for a part of an access on another device. Numbers below 512 belong to the
synchronising requests of threads. -/
def partReq (id pos : Nat) : Nat := 512 + id * 4096 + pos

/-- Start a part of an access on another device: it waits for the response, or completes UNAVAILABLE when no link carries
it (R402, R413). -/
def State.remotePart (s : State) (id dev pos addr len : Nat) (data : Option (List Byte)) : State :=
  let q := partReq id pos
  let r := (s.addPart id).serviceSend dev (if data.isSome then 1 else 0) addr (data.getD (leBytes 4 len)) q
  if r.2 then
    r.1.setHeld (r.1.held ++
      [{ id := id, unit := 128 + dev, addr := addr, len := len, pos := pos, data := data, req := q,
         link := s.getF (Reg.QSK_ROUTE_LINK dev) }])
  else r.1.finishPart id pos (if data.isSome then [] else List.replicate len 0) .unavailable

/-! ### Control space on the service path -/

/-- The half of a register that bytes [i, i + n) of it cover whole. -/
def coveredHalf (i n : Nat) : Option Half :=
  if i = 0 ∧ n = 8 then some .both
  else if i = 0 ∧ 4 ≤ n then some .lo
  else if i ≤ 4 ∧ i + n = 8 then some .hi
  else none

/-- The half of a register that bytes [i, i + n) of it touch. -/
def touchedHalf (i n : Nat) : Half := if i + n ≤ 4 then .lo else if 4 ≤ i then .hi else .both

/-- The part of [off, off + n) in the 8-byte register `e`: its first byte in the register, and its length. -/
def regPart (off n e : Nat) : Nat × Nat :=
  let lo := max off (8 * e)
  (lo - 8 * e, min (off + n) (8 * e + 8) - lo)

/-- A read of bytes of control space, register by register. -/
def State.ctlBytes (s : State) (a : Agent) (off n : Nat) : State × List Byte :=
  (slotsOf off n).foldl (fun (x : State × List Byte) (e : Nat) =>
    let p := regPart off n e
    let r := x.1.ctlRead a (touchedHalf p.1 p.2) (8 * e)
    (r.1, x.2 ++ sliceB (leBytes 8 r.2.toNat) p.1 p.2)) (s, [])

/-- A write of bytes of control space, register by register; what does not cover a whole half of a register is ignored (DESIGN CHOICE, log
entry 40). The status says whether a write was refused (R502). -/
def State.ctlPut (s : State) (a : Agent) (off : Nat) (bs : List Byte) : State × Status :=
  (slotsOf off bs.length).foldl (fun (x : State × Status) (e : Nat) =>
    let p := regPart off bs.length e
    match coveredHalf p.1 p.2 with
    | none => x
    | some h =>
      let v := ofLe (sliceB bs (8 * e + p.1 - off) p.2) * 2 ^ (8 * p.1)
      let s1 := x.1.ctlWrite (8 * e) ⟨a, h, BitVec.ofNat 64 v⟩
      (s1, x.2.worse ((s1.resp.map (fun r => r.status)).getD .ok))) (s, .ok)

/-! ### Accesses of software (R243, R244, R281) -/

/-- The number of bytes of an access. -/
def svcSize : SvcOp → Nat
  | .read n => n.val
  | .write bs => bs.length

/-- The bytes of a write. -/
def svcBytes : SvcOp → Option (List Byte)
  | .read _ => none
  | .write bs => some bs

/-- The data of a read before any part of it has come. -/
def svcBlank : SvcOp → List Byte
  | .read n => List.replicate n.val 0
  | .write _ => []

/-- [a, a + n) touches an address in no region. -/
def State.offMap (s : State) (a n : Nat) : Bool := (blocksOf a n).any (fun b => decide (s.place b.1 = .nowhere))

/-- The control-space offset of an address. -/
def State.ctlOff (s : State) (a : Nat) : Option Nat :=
  match s.place a with
  | .ctl o => some o
  | _ => none

/-- An access that names no region or an absent device is not performed (R244): DEGRADED.0x206, an access fault, and a count
of Unsupported Requests for PCIe. -/
def State.badAccess (s : State) (a : Agent) (addr : Nat) : State :=
  let s1 := s.addrInvalid addr (agentReq a)
  let s2 := if a = .pcie then s1.addF Reg.PCI_UR_COUNT 1 else s1
  s2.setResp (some { status := .accessFault, value := 0, req := agentReq a })

/-- What a refused write means to its agent (R502): a PCIe write is discarded. -/
def refusedFor (a : Agent) (st : Status) : Status := if a = .pcie ∧ st = .accessFault then .ok else st

/-- A local or remote access of an agent on the service path. -/
def State.svcAccess (s : State) (a : Agent) (dev addr : Nat) (op : SvcOp) (seen : EccSeen) : State :=
  let q := agentReq a
  if s.offMap addr (svcSize op) || (dev != s.getF Reg.MGT_DEVNUM && !s.devPresent dev) then s.badAccess a addr
  else if dev ≠ s.getF Reg.MGT_DEVNUM then
    let o := s.openReq (svcBlank op) (.service q)
    (o.1.remotePart o.2 dev 0 addr (svcSize op) (svcBytes op)).closeReq o.2
  else match s.ctlOff addr, op with
    | some off, .read n =>
      let r := s.ctlBytes a off n
      let ws := wordsOf r.2
      r.1.setResp (some { status := .ok, value := ws.headD 0, more := ws.drop 1, req := q })
    | some off, .write bs =>
      let r := s.ctlPut a off bs
      r.1.setResp (some { status := refusedFor a r.2, value := 0, req := q })
    | none, _ =>
      let s1 := s.access [{ addr := addr, pos := 0, len := svcSize op, data := (svcBytes op) }] (svcBlank op) (.service q) q false seen
      if s1.resp = s.resp then s1 else s1.setResp (s1.resp.map (fun r => { r with status := refusedFor a r.status }))

/-- What an AMO stores for an old value and an operand of `n` bits (PRESUMED, the RISC-V A extension, log entry 115). -/
def amoFn (op : AmoOp) (n old x : Nat) : Nat :=
  match op with
  | .swap => x
  | .add => old + x
  | .xor => old ^^^ x
  | .and => old &&& x
  | .or => old ||| x
  | .min => if sint n x < sint n old then x else old
  | .max => if sint n old < sint n x then x else old
  | .minu => min x old
  | .maxu => max x old
  | .lr | .sc => old

/-- Hold or drop a host core's reservation. -/
def State.reserve (s : State) (h : Nat) (r : Option (Nat × Nat)) : State :=
  s.setSync { s.sync with resv := SMap.put (fun _ => none) s.sync.resv h r }

/-- An atomic operation of hart `h` on `n` aligned bytes of host-core memory (R250; PRESUMED, log entry 115): it completes like a load
followed by a store of the hart. -/
def State.hostAtomic (s : State) (h off addr n : Nat) (op : AmoOp) (x : Nat) (seen : EccSeen) : State :=
  let q := agentReq (.hart (Fin.ofNat 4 h))
  let answer := fun (s : State) (st : Status) (v : Nat) => s.setResp (some { status := st, value := BitVec.ofNat 64 v, req := q })
  let store := fun (s : State) (v : Nat) =>
    let w := s.partWrite 0 addr q (leBytes n v) false .clean
    (w.1, (w.2.map Prod.snd).getD .ok)
  match op with
  | .sc =>
    let s1 := s.reserve h none
    if SMap.get (fun _ => none) s.sync.resv h = some (off, n) then
      let w := store s1 x
      answer w.1 w.2 0
    else answer s1 .ok 1
  | _ =>
    let r := s.hostRead off n q seen
    let st := (r.2.map Prod.snd).getD .ok
    let old := ofLe ((r.2.map Prod.fst).getD [])
    if st = .accessFault then answer r.1 st 0
    else if op = .lr then answer (r.1.reserve h (some (off, n))) st old
    else
      let w := store r.1 (amoFn op (8 * n) old (x % 2 ^ (8 * n)))
      answer w.1 (st.worse w.2) old

/-- An LR, SC or AMO: on host-core memory for a host core; an access fault at any other address (R250). -/
def State.svcAtomic (s : State) (a : Agent) (dev addr : Nat) (op : AmoOp) (dword : Bool) (x : Nat) (seen : EccSeen) : State :=
  let n := if dword then 8 else 4
  let refuse := s.setResp (some { status := .accessFault, value := 0, req := agentReq a })
  if s.offMap addr n || (dev != s.getF Reg.MGT_DEVNUM && !s.devPresent dev) then s.badAccess a addr
  else match a, s.place addr with
    | .hart h, .host off =>
      if dev = s.getF Reg.MGT_DEVNUM ∧ addr % n = 0 ∧ s.domHolds 37 = true then s.hostAtomic h off addr n op x seen else refuse
    | _, _ => refuse

/-- SERVICE_ACCESS: an access with a 54-bit address, of which bits [53:48] name the device (R243). -/
def execServiceAccess (a : Agent) (addr : BitVec 54) (op : SvcReq) (seen : EccSeen) (s : State) : Out :=
  match op with
  | .plain op => .next (s.svcAccess a (addr.toNat / 2 ^ 48) (addr.toNat % 2 ^ 48) op seen)
  | .atomic k dword x => .next (s.svcAtomic a (addr.toNat / 2 ^ 48) (addr.toNat % 2 ^ 48) k dword x.toNat seen)

/-! ### PCIe (R508, R509) -/

/-- A request completes with Unsupported Request. -/
def State.unsupported (s : State) : State :=
  (s.addF Reg.PCI_UR_COUNT 1).setResp (some { status := .accessFault, value := 0, req := agentReq .pcie })

/-- A read of BAR 4. -/
def State.msixBytes (s : State) (off n : Nat) : List Byte :=
  (List.range n).map (fun i => (leBytes 8 (s.msixWord ((off + i) / 8 * 8)).toNat).getD ((off + i) % 8) 0)

/-- Write bytes of one 64-bit word of the MSI-X table; unmasking a vector sends the message it holds (PRESUMED, log entry 37). -/
def State.msixPut (s : State) (off : Nat) (bs : List Byte) (e : Nat) : State :=
  let a := 8 * e
  let p := regPart off bs.length e
  if 0x400 ≤ a then s
  else
    let n := ofLe (placeBytes (leBytes 8 (s.msixWord a).toNat) p.1 (sliceB bs (a + p.1 - off) p.2))
    let s1 := s.putMsix a (BitVec.ofNat 64 (if a % 16 = 8 then n % 2 ^ 33 else n))
    let v := a / 16
    if a % 16 = 8 ∧ (s1.msixWord a).getLsbD 32 = false ∧ (s1.msixWord 0x8000).getLsbD v = true then
      (s1.putMsix 0x8000 (s1.msixWord 0x8000 &&& ~~~(BitVec.ofNat 64 (2 ^ v)))).sendMsix v
    else s1

/-- A read or write through a BAR. -/
def State.pcieAccess (s : State) (bar off : Nat) (op : SvcOp) (seen : EccSeen) : State :=
  let own := s.getF Reg.MGT_DEVNUM
  match bar with
  | 0 => if 0x4000000 < off + svcSize op then s.unsupported else s.svcAccess .pcie own (0x3F00000000 + off) op seen
  | 1 =>
    let w := off / 2 ^ 30
    if 8 ≤ w ∨ 2 ^ 30 < off % 2 ^ 30 + svcSize op ∨ s.flag (Reg.PCI_WIN_EN w) = false then s.unsupported
    else s.svcAccess .pcie own (s.getF (Reg.PCI_WIN_BASE w) * 2 ^ 30 + off % 2 ^ 30) op seen
  | _ =>
    if 0x10000 < off + svcSize op then s.unsupported
    else match op with
      | .read n =>
        let ws := wordsOf (s.msixBytes off n)
        s.setResp (some { status := .ok, value := ws.headD 0, more := ws.drop 1, req := agentReq .pcie })
      | .write bs =>
        ((slotsOf off bs.length).foldl (fun s e => s.msixPut off bs e) s).setResp
          (some { status := .ok, value := 0, req := agentReq .pcie })

/-- PCIE_REQUEST: while the endpoint's domain is ON and PE_PERST_N is high. An atomic is not supported (R250). -/
def execPcieRequest (q : PcieReq) (seen : EccSeen) (s : State) : Out :=
  if !s.domOn 55 || s.pwr.perst then .next s
  else match q with
    | .read bar off n => .next (s.pcieAccess bar off.toNat (.read n) seen)
    | .write bar off bs => .next (s.pcieAccess bar off.toNat (.write bs) seen)
    | .atomic _ _ => .next s.unsupported

/-! ### SERVICE units of joined devices (R402) -/

/-- An access by a joined device. Control space is accessed as by the debug unit, which no register grants (DEDUCED, log entry 41). -/
def State.farAccess (s : State) (l src req addr : Nat) (op : SvcOp) (seen : EccSeen) : State :=
  let dest : Dest := .remote l src req (svcBytes op).isNone
  match s.ctlOff addr with
  | some off =>
    match op with
    | .read n => let r := s.ctlBytes .debug off n; r.1.emit (.service l src 2 0 r.2 req)
    | .write bs =>
      let r := s.ctlPut .debug off bs
      (r.1.setResp s.resp).emit (.service l src 3 0 [] req)
  | none =>
    s.access [{ addr := addr, pos := 0, len := svcSize op, data := (svcBytes op) }] (svcBlank op) dest (0x300 + src) false seen

/-- A barrier operation of a joined device's thread (R253, R402). -/
def State.farBarrier (s : State) (w : FarWait) (op gen : Nat) : State :=
  let b := w.target
  let g0 := s.getF (Reg.MGT_BAR_GEN b)
  let wait := fun (s : State) (g : Nat) =>
    let cur := s.getF (Reg.MGT_BAR_GEN b)
    if cur ≠ g then s.farReply w (cur * 2 ^ 16)
    else if s.farPast w then s.farReply w (1 + cur * 2 ^ 16)
    else s.setSync { s.sync with farBar := s.sync.farBar ++ [{ w with gen := g }] }
  match op with
  | 0 => (s.arriveBar b).farReply w g0
  | 1 => wait s gen
  | _ => wait (s.arriveBar b) g0

/-- A message of a joined device's thread (R256, R402). -/
def State.farQueue (s : State) (w : FarWait) (block : Bool) : State :=
  let r := s.trySend w.target (sourceOf 4 w.dev) w.payload
  if r.2 = 1 ∧ block = true then
    if w.deadline ≤ s.now then s.farReply w 3
    else s.setSync { s.sync with farSend := s.sync.farSend ++ [w] }
  else r.1.farReply w r.2

/-- The status a response carries: 0 OK, 2 UNAVAILABLE, 1 and 3 DEGRADED (R282, R402). -/
def farStatus (st : Nat) : Status := if st = 0 then .ok else if st = 2 then .unavailable else .degraded

/-- The response to a synchronising request of a thread: its value goes to the register, free when UNAVAILABLE (DESIGN CHOICE, log entry
2). -/
def State.threadResponse (s : State) (c j src st : Nat) (data : List Byte) : State :=
  match (s.thr c j).wait with
  | .remote op r _ d _ =>
    if d ≠ src then s
    else if st = 2 then ((s.putSx c j r s.freeVal.toNat).freeNext).wake c j
    else
      let s1 := (s.putSx c j r (fieldLe data 0 8)).wake c j
      if op = 3 ∧ fieldLe data 0 2 = 0 then s1.fenceAll c j else s1
  | _ => s

/-- The response to a request of this device; one to a wait that ended without it changes nothing (R253, R402). -/
def State.farResponse (s : State) (src req st : Nat) (data : List Byte) : State :=
  if req < 512 then
    if s.sync.farLate.contains (req, src) then s.setSync { s.sync with farLate := s.sync.farLate.erase (req, src) }
    else s.threadResponse (req / 16) (req % 16) src st data
  else match s.held.find? (fun h => h.unit == 128 + src && h.req == req) with
    | none => s
    | some h =>
      (s.setHeld (s.held.erase h)).finishPart h.id h.pos
        (if h.data.isSome then [] else if st = 2 then List.replicate h.len 0 else sliceB data 0 h.len) (farStatus st)

/-- A unit for another device is routed on toward it (R401). No rule says what becomes of one that no link carries: it goes no further
(DESIGN CHOICE, log entry 119). -/
def State.routeOn (s : State) (dest : Nat) (u : SvcUnit) : State :=
  match s.routeTo dest with
  | some l => s.emit (.transit l dest u)
  | none => s

/-- SERVICE_UNIT: a unit arrives over an UP link; one for another device is routed on (R401). -/
def execServiceUnit (l : Fin 8) (u : SvcFrame) (seen : EccSeen) (s : State) : Out :=
  let s := s.expireFar
  if s.linkUp l then
    if u.dest.val ≠ s.getF Reg.MGT_DEVNUM then .next (s.routeOn u.dest u.unit)
    else match u.unit with
    | .access src req addr op => .next (s.farAccess l src req addr.toNat op seen)
    | .barrier src req b op gen deadline =>
      .next (s.farBarrier { link := l, dev := src, req := req, target := b, gen := gen, deadline := deadline.toNat } op gen)
    | .queue src req q payload block deadline =>
      .next (s.farQueue { link := l, dev := src, req := req, target := q, gen := 0, deadline := deadline.toNat,
                          payload := payload } block)
    | .response src req st data => .next (s.farResponse src req st data)
  else .next s

end Sys2Proof.Machine
end

