-- ==== Sys2Proof/Machine/Mailbox.lean ====
section
/-!
DEFINITION. Steward firmware at run time (spec/20 R513 to R524): the mailbox operations of Table 20-7, recovery, and the gPTP
servo. Firmware serves the mailbox once its start sequence has ended (R537).
-/

namespace Sys2Proof.Machine

/-! ### Serving a channel (R513) -/

/-- A request of a channel waits, and its response has room. -/
def State.mbxReady (s : State) (c : Nat) : Bool := s.mbxWaits c && s.mbxRoom c

/-- It is a channel's turn: the other channel was served last, or has nothing that can be served now. -/
def State.mbxTurn (s : State) (c : Nat) : Bool :=
  !(s.stw.turn == c && s.mbxReady (1 - c) && (s.mbxJob (1 - c)).isNone)

/-- The OP and FORCE of a request. -/
def reqOp (q : List Byte) : Nat := fieldLe q 2 1
def reqForce (q : List Byte) : Bool := bit1 (fieldLe q 3 1) 0

/-- A request whose CRC or a reserved byte is wrong. -/
def reqBad (q : List Byte) : Bool :=
  fieldLe q 60 4 != crc32c (sliceB q 0 60) || fieldLe q 4 4 != 0 || fieldLe q 56 4 != 0 || fieldLe q 3 1 / 2 != 0

/-- The operations of Table 20-7. -/
def mbxOps : List Nat := [0x01, 0x02, 0x03, 0x04, 0x10, 0x11, 0x12, 0x13, 0x20, 0x30, 0x31, 0x32, 0x40, 0x41]

/-- Serve the request at REQ_RD of a channel, or go on with the one in progress, when it is operation `op`. A request that
waits under RESTARTED, a bad one and an unknown one are answered whatever the operation (Table 20-9). -/
def State.serve (s : State) (c op : Nat) (body : List Byte → State → State) : State :=
  if !s.serving || !s.mbxReady c then s
  else
    let q := s.mbxHead c
    match s.mbxJob c with
    | some (j, _) => if j = opRestarted then (s.meetHead c).mbxAnswer c 7 0 [] else if reqOp q = op then body q s else s
    | none =>
      if !s.mbxTurn c then s
      else if reqBad q then (s.meetHead c).mbxAnswer c 1 0 []
      else if !mbxOps.contains (reqOp q) then (s.meetHead c).mbxAnswer c 5 0 []
      else if reqOp q = op then body q (s.meetHead c) else s

/-! ### Small operations -/

/-- PING: the Almanac. -/
def execMbxPing (c : Fin 2) (s : State) : Out :=
  .next (s.serve c 0x01 (fun _ s => s.mbxAnswer c 0 0 (leBytes 8 s.now)))

/-- VERSION: of the running image, its bank, and the stepping. -/
def execMbxVersion (c : Fin 2) (s : State) : Out :=
  .next (s.serve c 0x02 (fun _ s => s.mbxAnswer c 0 0
    (leBytes 4 s.stw.version ++ leBytes 4 s.stw.svn ++ leBytes 1 s.stw.bank ++ leBytes 1 (s.getF Reg.MGT_REVID_STEP))))

/-- GET_POLICY. -/
def execMbxGetPolicy (c : Fin 2) (s : State) : Out :=
  .next (s.serve c 0x03 (fun q s =>
    let id := fieldLe q 8 2
    if 1 ≤ id ∧ id ≤ 18 then s.mbxAnswer c 0 0 (leBytes 8 (s.param id)) else s.mbxAnswer c 1 0 []))

/-- SET_POLICY: applied at once (R514). -/
def execMbxSetPolicy (c : Fin 2) (s : State) : Out :=
  .next (s.serve c 0x04 (fun q s =>
    let id := fieldLe q 8 2
    let v := fieldLe q 16 8
    if paramOk id v then (s.setParam id v).mbxAnswer c 0 0 [] else s.mbxAnswer c 1 0 []))

/-- SEED: firmware writes SOL_LRN_SEED (R458); a row that the field cannot name is out of range (Table 20-9), and a seed that the unit
refuses is answered REFUSED. -/
def execMbxSeed (c : Fin 2) (s : State) : Out :=
  .next (s.serve c 0x20 (fun q s =>
    let row := fieldLe q 8 2
    let seed := fieldLe q 12 4
    let s1 := if s.domHolds 32 then State.writeSeed (stwW (row + seed * 2 ^ 32)) s else s
    if 4096 ≤ row then s.mbxAnswer c 1 0 []
    else if s.seedOk seed then s1.mbxAnswer c 0 0 [] else s1.mbxAnswer c 3 0x905 []))

/-- FW_STAGE (R522): a valid image goes to the bank that is not running, and the boot record names that bank. -/
def execMbxFwStage (c : Fin 2) (s : State) : Out :=
  .next (s.serve c 0x30 (fun q s =>
    let n := fieldLe q 16 4
    let a := fieldLe q 8 8
    let im := if n ≤ 4194304 then (s.peekN a n).1 else []
    let s := if n ≤ 4194304 then s.meetN a n else s
    if s.imageValid im then
      let b := 1 - s.stw.bank
      let r := placeBytes (s.norBytes 0x800000 60) 4 (leBytes 1 b)
      ((s.putNor (b * 0x400000) im).putNor 0x800000 (r ++ leBytes 4 (crc32c r))).mbxAnswer c 0 0
        (leBytes 1 b ++ leBytes 3 0 ++ leBytes 4 (fieldLe im 4 4) ++ leBytes 4 (fieldLe im 8 4))
    else s.mbxAnswer c 6 0 []))

/-- FW_SVN_COMMIT: fuses are blown up to the running image's SVN. -/
def execMbxFwSvnCommit (c : Fin 2) (s : State) : Out :=
  .next (s.serve c 0x31 (fun _ s =>
    let n := max (s.getF Reg.MGT_OTP_STAT_SVN) s.stw.svn
    (s.setF Reg.MGT_OTP_STAT_SVN n).mbxAnswer c 0 0 (leBytes 8 n)))

/-- Every beat machine is IDLE. -/
def State.allIdle (s : State) : Bool := [0, 1, 2, 3].all (fun n => s.bmState n == 0)

/-- DEVICE_RESET (R523): no response is written. -/
def execMbxDeviceReset (c : Fin 2) (s : State) : Out :=
  .next (s.serve c 0x32 (fun q s =>
    if s.allIdle || reqForce q then s.deviceReset 2 else s.mbxAnswer c 2 0 []))

/-- PORT_CFG: a mode that the port supports (R366); BUSY while its link is up and FORCE is 0 (DEDUCED, log entry 43). -/
def execMbxPortCfg (c : Fin 2) (s : State) : Out :=
  .next (s.serve c 0x40 (fun q s =>
    let p := fieldLe q 8 1
    let m := fieldLe q 9 1
    if 5 < p ∨ modeOk p m = false then s.mbxAnswer c 1 0 []
    else if s.flag (Reg.ETH_P_STAT_LINK_UP p) && !reqForce q then s.mbxAnswer c 2 0 []
    else
      let f := Reg.ETH_P_CFG_MODE p
      (State.writeEthCfg p ⟨.steward, .both, insField (s.word f.off) f.lo f.w m⟩ s).mbxAnswer c 0 0 []))

/-- TIME_STATUS. -/
def execMbxTimeStatus (c : Fin 2) (s : State) : Out :=
  .next (s.serve c 0x41 (fun _ s => s.mbxAnswer c 0 0
    (leBytes 8 (b2n s.stw.lock) ++ leBytes 8 (uint 64 s.stw.offset) ++ leBytes 8 s.stw.gm ++
      leBytes 2 (s.getF Reg.BGW_TIME_CFG_UTC_OFFSET))))

/-! ### Arming and stopping (R517) -/

/-- Write B and the start instant and arm; the Bool says that the machine is ARMED. -/
def State.armAt (s : State) (n g b : Nat) : State × Bool :=
  let s1 := State.writePeriod n (stwW b) s
  if s1.getF (Reg.ALM_BM_PERIOD n) ≠ b ∨ b < 50000 ∨ 100000000 < b ∨ b < s.getF (Reg.ALM_BM_FLOOR n) then (s1, false)
  else if s1.bmState n = 0 then
    let s2 := (s1.setF (Reg.ALM_BM_ORIGIN n) g).armBeat n
    (s2, s2.bmState n == 1)
  else (s1, false)

/-- ARM. -/
def execMbxArm (c : Fin 2) (s : State) : Out :=
  .next (s.serve c 0x12 (fun q s =>
    let n := fieldLe q 8 1
    let b := fieldLe q 24 4
    if !s.stw.lock && !reqForce q then s.mbxAnswer c 4 0 []
    else if 3 < n ∨ 2 ^ 27 ≤ b then s.mbxAnswer c 1 0 []
    else
      let r := s.armAt n (fieldLe q 16 8) b
      if r.2 then r.1.mbxAnswer c 0 0 [] else r.1.mbxAnswer c 3 0xA02 []))

/-- The answer of STOP, once the machine is IDLE. -/
def State.stopAnswer (s : State) (c n : Nat) : State :=
  if s.bmState n = 0 then s.mbxAnswer c 0 0 (leBytes 8 (s.beat n).idleAt) else s.setJob c (some (0x13, n))

/-- STOP: the stop is written, and the answer waits until the machine is IDLE. -/
def execMbxStop (c : Fin 2) (s : State) : Out :=
  .next (s.serve c 0x13 (fun q s =>
    let n := fieldLe q 8 1
    match s.mbxJob c with
    | some (_, n) => s.stopAnswer c n
    | none => if 3 < n then s.mbxAnswer c 1 0 [] else (s.stopBeat n).stopAnswer c n))

/-! ### Loading and unloading (R515, R516) -/

/-- A load or unload runs: in the loader, or as a request of the other channel. -/
def State.loadBusy (s : State) (c : Nat) : Bool :=
  s.load.isSome || (match s.mbxJob (1 - c) with | some (j, _) => j % 0x100 == 0x10 | none => false)

/-- The variants of an image that a LOAD may take: the one named, or all under automatic choice. -/
def loadVariants (cs : List WChunk) (variant : Nat) : List WVar :=
  ((cs.filter (fun k => k.typ == 1 && (variant == 255 || k.var == variant))).map (fun k => WVar.of cs k.var))

/-- Bytes of the segments of one placement, each rounded to its alignment. -/
def placeSize (x : WVar) (place : Nat) : Nat :=
  ((x.segs.filter (fun g => g.place == place)).map (fun g => alignUp g.size g.align)).foldl (· + ·) 0

/-- The first place of a size below a limit that is free of the areas taken. -/
def firstFit (taken : List (Nat × Nat)) (size limit : Nat) : Option Nat :=
  ((0 :: taken.map (fun t => t.2)).filter (fun a =>
    decide (a + size ≤ limit) && !taken.any (fun t => overlaps (a, a + size) t))).foldl
      (fun m a => match m with | none => some a | some b => some (min a b)) none

/-- The request that firmware builds (R515, R516). An arena that does not fit is passed as an empty one, and the loader then
refuses the load (DESIGN CHOICE, log entry 44). -/
def State.buildRequest (s : State) (image len variant pipe : Nat) : LoadReq :=
  let cs := wChunks (s.peekN image len).1
  let xs := loadVariants cs 255
  let res := (List.range 4).filter (fun n => s.resident n)
  let base := s.param 17
  let limit := s.activeChans.length * base - s.param 18 * 2 ^ 20
  let size := maxOf (xs.map (fun x => placeSize x 0)) + 2 ^ 20
  let sol := maxOf ((loadVariants cs variant).map (fun x => placeSize x 2))
  let a := firstFit (res.map (fun n => (s.pipe n).arena)) size limit
  let b := firstFit (res.map (fun n => (s.pipe n).solRange)) sol 0x280000
  let n := if pipe = 255 then ((List.range 4).find? (fun n => !s.resident n)).getD 0 else pipe
  { image := image, len := len, variant := variant, start := 255, pipe := pipe, exclude := 0
    arena := a.getD 0, arenaSize := if a.isSome then size else 0
    chLo := base + n * 0x4000000, chHi := base + (n + 1) * 0x4000000
    solBase := b.getD 0, solSize := if b.isSome then sol else 0, reserved := false }

/-- Firmware reads the image and starts the loader; where in memory it keeps the request is its own affair (DESIGN CHOICE, log entry 2). -/
def State.loaderGo (s : State) (r : LoadReq) : State :=
  ((((s.meetN r.image r.len).setF Reg.WVL_REQ_ADDR s.freeVal.toNat).freeNext).startRequest r)

/-- Some core changes state on request. -/
def State.coresMoving (s : State) : Bool := (List.range 32).any (fun c => (s.transOf c).isSome)

/-- RETAIN is requested for every enabled core that is OFF or GATED, not lost and held by no pipeline (R515). -/
def State.retainFree (s : State) : State :=
  (List.range 32).foldl (fun s c =>
    if bit1 (s.getF Reg.MGT_CORE_MASK) c && (s.dom c == 0 || s.dom c == 2) && !bit1 (s.getF Reg.MGT_CORE_LOST) c &&
        !s.corePlaced c then State.writeDomReq c (stwW 1) s
    else s) s

/-- The loader is started for a LOAD request; a request that the loader rejects at once is answered REFUSED. -/
def State.loadGo (s : State) (c : Nat) (q : List Byte) : State :=
  let s1 := s.loaderGo (s.buildRequest (fieldLe q 8 8) (fieldLe q 16 8) (fieldLe q 24 1) (fieldLe q 25 1))
  match s1.load with
  | some j => s1.setJob c (some (0x110, j.pipe))
  | none => s1.mbxAnswer c 3 (s1.getF Reg.WVL_STATUS_LAST_CODE) []

/-- The answer of a LOAD whose loader has ended. -/
def State.loadAnswer (s : State) (c n : Nat) : State :=
  let code := s.getF Reg.WVL_STATUS_LAST_CODE
  if code = 0 then
    s.mbxAnswer c 0 0 (leBytes 1 n ++ leBytes 1 (s.getF (Reg.WVL_PIPE_INFO_VARIANT n)) ++
      leBytes 1 (s.getF (Reg.WVL_PIPE_INFO_START n)) ++ leBytes 1 (s.getF (Reg.WVL_PIPE_INFO_ROT n)) ++
      leBytes 1 (s.getF (Reg.WVL_PIPE_INFO_NCORES n)))
  else s.mbxAnswer c 3 code []

/-- LOAD: the command is given again while its cores enter RETAIN and while the loader runs. -/
def execMbxLoad (c : Fin 2) (s : State) : Out :=
  .next (s.serve c 0x10 (fun q s =>
    match s.mbxJob c with
    | some (0x110, n) => if s.load.isSome then s else s.loadAnswer c n
    | some _ => if s.coresMoving || s.load.isSome then s else s.loadGo c q
    | none =>
      if s.loadBusy c then s.mbxAnswer c 2 0 []
      else
        let s1 := s.retainFree.setJob c (some (0x10, 0))
        if s1.coresMoving then s1 else s1.loadGo c q))

/-- UNLOAD. -/
def execMbxUnload (c : Fin 2) (s : State) : Out :=
  .next (s.serve c 0x11 (fun q s =>
    let n := fieldLe q 8 1
    if 3 < n then s.mbxAnswer c 1 0 []
    else if s.loadBusy c then s.mbxAnswer c 2 0 []
    else
      let s1 := State.writeUnload n (stwW 1) s
      if s.resident n && !s1.resident n then s1.mbxAnswer c 0 0 [] else s1.mbxAnswer c 3 0x709 []))

/-! ### Recovery (R520) -/

/-- The rotation registers of a machine: the words of its entries, and LEN. -/
def State.rotWords (s : State) (n : Nat) : List W64 := (List.range 32).map (fun g => s.word (Reg.ING_ROT_ENT n g).off)

/-- Write the entries of a rotation. -/
def State.putRot (s : State) (n : Nat) (ws : List W64) : State :=
  ws.zipIdx.foldl (fun s x => State.writeRotation n x.2 ⟨.steward, .both, x.1⟩ s) s

/-- RECOVERY_FAILED with the code of the failing step. -/
def State.recoveryFailed (s : State) (n code : Nat) : State :=
  s.mbxEvent 0x84 (leBytes 1 n ++ leBytes 1 0 ++ leBytes 2 code)

/-- The smallest G + m · B that lies at least 1 ms ahead. -/
def State.rearmAt (s : State) (g b : Nat) : Nat :=
  if s.now + 1000000 ≤ g then g else g + ceilDiv (s.now + 1000000 - g) (max 1 b) * b

/-- The last steps: rebind the streams, restore the rotation and arm. -/
def State.recoverEnd (s : State) (n : Nat) (ms : List Nat) (ws : List W64) (g b : Nat) : State :=
  let s1 := ms.foldl (fun s m => State.writeBind m (stwW 1) s) s
  if ms.any (fun m => s1.getF (Reg.ING_STR_STATE m) == 0) then s1.recoveryFailed n 0x302
  else
    let s2 := s1.putRot n ws
    let g' := s2.rearmAt g b
    let r := s2.armAt n g' b
    if r.2 then
      r.1.mbxEvent 0x83 (leBytes 1 n ++ leBytes 1 (r.1.getF (Reg.WVL_PIPE_INFO_VARIANT n)) ++
        leBytes 1 (r.1.getF (Reg.WVL_PIPE_INFO_NCORES n)) ++ leBytes 5 0 ++ leBytes 8 g')
    else r.1.recoveryFailed n 0xA02

/-- The steps of R520 for a halted pipeline whose frames all have their records. -/
def State.recover (s : State) (n : Nat) : State :=
  let s1 := s.stopBeat n
  let ms := s1.boundTo n
  let ws := s1.rotWords n
  let g := s1.getF (Reg.ALM_BM_ORIGIN n)
  let b := s1.getF (Reg.ALM_BM_PERIOD n)
  let im := SMap.get (fun _ => (0, 0)) s1.stw.image n
  let s2 := s1.putRot n (List.replicate 32 0#64)
  let s3 := ms.foldl (fun s m => State.writeBind m (stwW 2) s) s2
  let s4 := State.writeUnload n (stwW 1) s3
  if s4.resident n then s4.recoveryFailed n 0x709
  else
    let s5 := (s4.loaderGo (s4.buildRequest im.1 im.2 255 n)).finishLoad
    if s5.loaded n then s5.recoverEnd n ms ws g b
    else s5.recoveryFailed n (s5.getF Reg.WVL_STATUS_LAST_CODE)

/-- RECOVERY: with parameter 9 at RELOAD, a pipeline that a UNIT record has halted is stopped, unloaded, loaded again, bound
and armed. -/
def execRecovery (n : Fin 4) (s : State) : Out :=
  .next (if s.serving && s.param 9 == 1 && s.bmState n == 4 && (s.pipe n).quiet && s.load.isNone then s.recover n else s)

/-! ### The time servo (R518, R409) -/

/-- Lock changes: firmware tells it and writes BGW_TIME_CFG.LOCKED. -/
def State.setLock (s : State) (on : Bool) (code : Nat) (result : List Byte) : State :=
  ((s.setStw { s.stw with lock := on, small := 0 }).setF Reg.BGW_TIME_CFG_LOCKED (b2n on)).mbxEvent code result

/-- The Almanac of this device follows gPTP: it is the master of a joined system, or the system's only device (R32, R409). -/
def State.followsGptp (s : State) : Bool := s.flag Reg.QSK_TIME_MASTER || s.nx * s.ny * s.nz == 1

/-- Firmware may step time: a lone device or the time master, every beat machine IDLE and no QUOSK part resident, which may
be armed at its head (R409, PRESUMED, log entry 45). -/
def State.mayStep (s : State) : Bool :=
  s.allIdle && [0, 1, 2, 3].all (fun n => !(s.resident n && (s.pipe n).quosk)) &&
  s.followsGptp

/-- Correct the Almanac by an offset from the master: by a step, or by at most 1,000,000 ns of slew. -/
def State.correct (s : State) (offset : Int) : State :=
  if s.param 14 < offset.natAbs ∧ s.mayStep = true then
    State.writeStep (stwW (uint 64 (-offset * 65536))) s
  else
    let x := if offset > 1000000 then -1000000 else if offset < -1000000 then 1000000 else -offset
    State.writeSlew (stwW (uint 32 x)) s

/-- GPTP_SERVO: an offset of this Almanac from the master, in ns, and the grandmaster's identity. A device of a joined system that is not
its master takes nothing from gPTP: firmware disciplines it, in the same periods, from the θ of its UPLINK (R409; DESIGN CHOICE, log
entry 120). -/
def execGptpServo (offset : Int) (gm : W64) (s : State) : Out :=
  if !s.serving then .next s
  else if !s.followsGptp then
    let l := s.getF Reg.QSK_TIME_UPLINK
    .next (if s.linkUp l then s.correct (-s.getI (Reg.QSK_L_OFFSET l)) else s)
  else
    let n := if offset.natAbs < s.param 13 then min 16 (s.stw.small + 1) else 0
    let s1 := (s.setStw { s.stw with offset := offset, gm := gm.toNat, small := n }).correct offset
    if s.stw.lock then
      .next (if 10 * s.param 13 < offset.natAbs then s1.setLock false 0x82 (leBytes 1 1) else s1)
    else
      .next (if n = 16 then s1.setLock true 0x81 (leBytes 8 0 ++ leBytes 8 (uint 64 offset)) else s1)

/-- GPTP_SYNC_TIMEOUT: three Sync intervals without a Sync. -/
def execGptpSyncTimeout (s : State) : Out :=
  .next (if s.serving then
    (if s.stw.lock then s.setLock false 0x82 (leBytes 1 0) else s.setStw { s.stw with small := 0 }) else s)

end Sys2Proof.Machine
end

