-- ==== Sys2Proof/Machine/Startup.lean ====
section
/-!
DEFINITION. The start sequence of steward firmware (spec/21 R537 to R539, Table 21-6). The command is given again until the
sequence ends: each time firmware takes the next step whose waits are over. PHASE takes a phase's number when the phase
begins (DESIGN CHOICE, log entry 46).
-/

namespace Sys2Proof.Machine

/-- A field of the board record (Table 21-4). -/
def State.brd (s : State) (i n : Nat) : Nat := fieldLe s.boardRecord i n

/-- Firmware requests that domains turn ON. -/
def State.turnOn (s : State) (ds : List Nat) : State :=
  ds.foldl (fun s d => if s.domOn d then s else State.writeDomReq d (stwW 3) s) s

/-- Every requested change of the domains has ended. -/
def State.settled (s : State) (ds : List Nat) : Bool := ds.all (fun d => (s.transOf d).isNone)

/-- The step reached within a phase. -/
def State.setStep (s : State) (n : Nat) : State := s.setStw { s.stw with begun := n }

/-- A phase begins. -/
def State.toPhase (s : State) (p : Nat) : State := (s.phase p).setStep 0

/-- The memory controllers of populated stacks (R9, R271). -/
def State.stacks (s : State) : List Nat := if s.getF Reg.MGT_REVID_GRADE = 2 then [0, 1] else [0, 1, 2, 3]

/-- The enabled cores and the Solstice engine. -/
def State.testedUnits (s : State) : List Nat :=
  (List.range 32).filter (fun c => bit1 (s.getF Reg.MGT_CORE_MASK) c) ++ [32]

/-- Phase 0x10: the fault queue. -/
def State.openFaults (s : State) : State :=
  let s1 := State.writeFltRing Reg.FLT_Q_BASE (stwW 0x3001B00000) s
  let s2 := State.writeFltRing Reg.FLT_Q_LOG2 (stwW 15) s1
  (State.writeFltCtl (stwW 1) s2).toPhase 0x10

/-- Phase 0x12: the map takes every channel that passed and is committed; with none, or with one failed where the board record
allows no map-out, error 7 or 8 is set and nothing is committed. -/
def State.commitMap (s : State) : State :=
  let gs := (s.stacks.filter (fun m => s.domOn (43 + m))).flatMap chansOf
  let pass := fun (g : Nat) => s.flag (Reg.MC_TRAIN_STAT_PASS (g / 16) (g % 16))
  let s1 := s.toPhase 0x12
  if !gs.any pass then s1.bootError 7
  else if s.brd 5 1 = 0 ∧ gs.any (fun g => !pass g) = true then s1.bootError 8
  else
    let s2 := s.stacks.foldl (fun s m =>
      State.writeChMap m (stwW (((List.range 16).filter (fun c => pass (16 * m + c))).foldl (fun n c => n + 2 ^ c) 0)) s) s1
    State.writeHbmCtl (stwW 1) s2

/-- Phase 0x11: spine quadrants, then memory controllers, then the training of every channel. -/
def State.trainHbm (s : State) : State :=
  let ds := s.stacks.map (fun m => 43 + m)
  match s.stw.begun with
  | 0 => if s.settled [39, 40, 42] then (s.turnOn ds).setStep 1 else s
  | 1 =>
    if s.settled ds then
      (s.stacks.foldl (fun s m => if s.domOn (43 + m) then State.writeTrainCtl m (stwW 1) s else s) s).setStep 2
    else s
  | _ => if (List.range 64).any (fun g => s.inTraining g) then s else s.commitMap

/-- The port groups and link pairs that the board record needs. -/
def State.portMode (s : State) (p : Nat) : Nat := s.brd (16 + p) 1
def State.portDoms (s : State) : List Nat :=
  [47, 48, 49].filter (fun d => s.portMode (2 * (d - 47)) != 0 || s.portMode (2 * (d - 47) + 1) != 0)
def State.joins (s : State) : Bool := bit1 (s.brd 7 1) 0
def State.linkDoms (s : State) : List Nat :=
  if s.joins then [50, 51, 52, 53].filter (fun d => s.linkFitted (2 * (d - 50)) || s.linkFitted (2 * (d - 50) + 1)) else []

/-- Phase 0x14: ingest, the device number, and the domains of links and ports. -/
def State.applyBoard (s : State) : State :=
  let s1 := State.writeDevnum (stwW (s.brd 6 1 % 64)) ((s.turnOn [54]).toPhase 0x14)
  let s2 := if s1.joins then
      let topo := s1.brd 8 4 + Nat.log2 (s1.brd 12 1) * 2 ^ 32 + Nat.log2 (s1.brd 13 1) * 2 ^ 34 +
        Nat.log2 (s1.brd 14 1) * 2 ^ 36 + s1.brd 15 1 % 4 * 2 ^ 40
      let t := State.writeTopo (stwW topo) s1
      (t.setF Reg.QSK_TIME_MASTER (bits (t.brd 7 1) 1 1)).setF Reg.QSK_TIME_UPLINK (bits (t.brd 7 1) 4 3)
    else s1
  s2.turnOn (s2.linkDoms ++ s2.portDoms)

/-- Phase 0x13: cores and the Solstice engine ON, their self tests, and each tested core back to RETAIN. -/
def State.selfTests (s : State) : State :=
  let us := s.testedUnits
  match s.stw.begun with
  | 0 =>
    if s.settled us then
      (us.foldl (fun s u => if u = 32 then State.writeSolBist (stwW 1) s else State.writeBist u (stwW 1) s) s).setStep 1
    else s
  | 1 =>
    if us.any (fun u => s.testing u) then s
    else (us.foldl (fun s u => if u ≠ 32 ∧ s.domOn u = true then State.writeDomReq u (stwW 1) s else s) s).setStep 2
  | _ => if s.settled us then s.applyBoard else s

/-- Phase 0x15: the host cores, and what the host side may write (R501). -/
def State.startHost (s : State) : State := ((s.turnOn [33, 34, 35, 36]).grantHost).toPhase 0x15

/-- The links and ports of the board record are enabled, and every fitted link has trained. -/
def State.bringUp (s : State) : State :=
  match s.stw.begun with
  | 0 =>
    if s.settled (54 :: (s.linkDoms ++ s.portDoms)) then
      let s1 := (List.range 8).foldl (fun s l =>
        if s.joins && s.linkFitted l && s.domOn (50 + l / 2) then State.writeLinkCtl l (stwW 1) s else s) s
      ((List.range 6).foldl (fun s p =>
        if s.portMode p ≠ 0 ∧ s.domOn (47 + p / 2) = true then
          let f := Reg.ETH_P_CFG_MODE p
          State.writeEthCfg p ⟨.steward, .both, insField (s.word f.off) f.lo f.w (s.portMode p)⟩ s
        else s) s1).setStep 1
    else s
  | _ =>
    if (List.range 8).all (fun l => !s.flag (Reg.QSK_L_CTL_EN l) || s.linkUp l || (s.qlink l).failed) then s.startHost
    else s

/-- The host loader is copied and hart 0 released at its ENTRY; a wrong header sets error 9 (R539). -/
def State.hostLoader (s : State) : State :=
  let h := s.norBytes 0x1000000 32
  let n := fieldLe h 4 4
  if fieldLe h 0 4 = 0x31545348 ∧ n ≤ 0x100000 then
    let s1 := s.wrBytes (hostKey 0) (s.norBytes 0x1000020 n)
    if s1.domOn 33 then
      (s1.setF Reg.MGT_HART_START (s1.getF Reg.MGT_HART_START ||| 1)).releaseHart 0 (0x3000000000 + fieldLe h 8 4)
    else s1
  else s.bootError 9

/-- Phase 0x16: the mailbox is served and STEWARD_STARTED sent, and every policy parameter stands at its default (R514). -/
def State.services (s : State) : State :=
  let s1 := s.hostLoader.toPhase 0x16
  (s1.setStw { s1.stw with params := [] }).applyAll.tellStarted 0

/-- STEWARD_START_SEQUENCE. -/
def execStewardStartSequence (s : State) : Out :=
  if s.stw.run = .firmware then
    match s.getF Reg.MGT_BOOT_STAT_PHASE with
    | 0x08 => .next s.openFaults
    | 0x10 => .next ((s.turnOn [39, 40, 42]).toPhase 0x11)
    | 0x11 => .next s.trainHbm
    | 0x12 => .next ((s.turnOn s.testedUnits).toPhase 0x13)
    | 0x13 => .next s.selfTests
    | 0x14 => .next s.bringUp
    | 0x15 => .next (if s.settled [33, 34, 35, 36] then s.services else s)
    | _ => .next s
  else .next s

end Sys2Proof.Machine
end

