-- ==== Sys2Proof/Machine/VectorInt.lean ====
section
/-!
DEFINITION. Vector integer, logic and move instructions, classes 0 and 1 and PERM and SLIDE of class 5
(spec/09_vector_engine_and_threads.md Table 9-7, R260, R261).
-/

namespace Sys2Proof.Machine

/-- An exact result wrapped to the element. -/
def wrapEl (fmt : Nat) (x : Int) : Flagged := (uint (fmtBits fmt) x, 0)

/-- An exact result saturated to the format's range, with SV when it saturates (R261). -/
def satEl (fmt : Nat) (x : Int) : Flagged :=
  let y := if x > fmtHi fmt then fmtHi fmt else if x < fmtLo fmt then fmtLo fmt else x
  (uint (fmtBits fmt) y, flagIf (y != x) fSV)

/-- Element-wise integer operation on VA and VB. -/
def State.intOp (s : State) (v : VecInstr) (f : Int → Int → Flagged) : State :=
  let b := fmtBits v.fmt
  let x := vx s v v.va
  let y := vx s v v.vb
  s.writeVd v (fun e => f (elemInt v.fmt (elemAt b x e)) (elemInt v.fmt (elemAt b y e)))

/-- Element-wise operation on raw element bits of VA and VB. -/
def State.bitOp (s : State) (v : VecInstr) (f : Nat → Nat → Nat) : State :=
  let b := fmtBits v.fmt
  let x := vx s v v.va
  let y := vx s v v.vb
  s.writeVd v (fun e => (f (elemAt b x e) (elemAt b y e), 0))

/-- Issue of an integer instruction: FMT must be an integer format. -/
def State.issueInt (s : State) (v : VecInstr) (k : Nat) (body : State → State) : State := s.issue v k (fmtInt v.fmt) body

def execAdd (v : VecInstr) (s : State) : Out :=
  .next (s.issueInt v 0 (fun s => s.intOp v (fun a b => wrapEl v.fmt (a + b))))
def execAdds (v : VecInstr) (s : State) : Out :=
  .next (s.issueInt v 8 (fun s => s.intOp v (fun a b => satEl v.fmt (a + b))))
def execSub (v : VecInstr) (s : State) : Out :=
  .next (s.issueInt v 16 (fun s => s.intOp v (fun a b => wrapEl v.fmt (a - b))))
def execSubs (v : VecInstr) (s : State) : Out :=
  .next (s.issueInt v 24 (fun s => s.intOp v (fun a b => satEl v.fmt (a - b))))
def execMul (v : VecInstr) (s : State) : Out :=
  .next (s.issueInt v 32 (fun s => s.intOp v (fun a b => wrapEl v.fmt (a * b))))
/-- MULH: the high half of the exact product. -/
def execMulh (v : VecInstr) (s : State) : Out :=
  .next (s.issueInt v 40 (fun s => s.intOp v (fun a b => wrapEl v.fmt ((a * b) / ((2 ^ fmtBits v.fmt : Nat) : Int)))))
def execMin (v : VecInstr) (s : State) : Out :=
  .next (s.issueInt v 48 (fun s => s.intOp v (fun a b => wrapEl v.fmt (if b < a then b else a))))
def execMax (v : VecInstr) (s : State) : Out :=
  .next (s.issueInt v 56 (fun s => s.intOp v (fun a b => wrapEl v.fmt (if a < b then b else a))))
/-- ABS saturates; U8 is unchanged. -/
def execAbs (v : VecInstr) (s : State) : Out :=
  .next (s.issueInt v 64 (fun s => s.intOp v (fun a _ => satEl v.fmt (if a < 0 then -a else a))))

/-- The four byte products of a lane: VA bytes are int8, VB bytes signed for I8 and unsigned for U8. -/
def dot4Sum (fmt x y : Nat) : Int :=
  [0, 1, 2, 3].foldl (fun a i =>
    a + sint 8 (bits x (8 * i) 8) * (if fmt = 3 then ((bits y (8 * i) 8 : Nat) : Int) else sint 8 (bits y (8 * i) 8))) 0

/-- DOT4: each int32 lane of VD accumulates, saturating; the mask is read per lane. -/
def execDot4 (v : VecInstr) (s : State) : Out :=
  .next (s.issue v 72 (v.fmt == 2 || v.fmt == 3) (fun s =>
    let m := enabled s v
    let t := s.thr v.core v.slot
    let lane := fun (e : Nat) => satEl 0 (sint 32 (elemAt 32 (t.rdVx v.vd) e) +
      dot4Sum v.fmt (elemAt 32 (t.rdVx v.va) e) (elemAt 32 (t.rdVx v.vb) e))
    let r := writeElems 0 m v.mz (t.rdVx v.vd) (fun e => (lane e).1)
    (s.putThr v.core v.slot (t.wrVx v.vd r)).orTstat v.core v.slot (elemFlags 0 m (fun e => (lane e).2))))

/-- RSHR of an element: round half even of SA / 2^k, with k read unsigned (Table 7-6). -/
def rshrEl (fmt : Nat) (a : Int) (k : Nat) : Int :=
  if fmtBits fmt + 1 ≤ k then 0 else divRNE a (2 ^ k)

def execRshr (v : VecInstr) (s : State) : Out :=
  .next (s.issueInt v 80 (fun s =>
    let b := fmtBits v.fmt
    let x := vx s v v.va
    let y := vx s v v.vb
    s.writeVd v (fun e => wrapEl v.fmt (rshrEl v.fmt (elemInt v.fmt (elemAt b x e)) (elemAt b y e)))))

/-- The comparison of CMP: 0 EQ, 1 NE, 2 LT, 3 LE, 4 GT, 5 GE. -/
def cmpInt (op : Nat) (a b : Int) : Bool :=
  match op with
  | 0 => a == b
  | 1 => a != b
  | 2 => decide (a < b)
  | 3 => decide (a ≤ b)
  | 4 => decide (b < a)
  | _ => decide (b ≤ a)

/-- CMP writes MK[VD]; codes 6 and 7, and a register number above MK7, are reserved. -/
def execCmp (v : VecInstr) (s : State) : Out :=
  .next (s.issue v 88 (fmtInt v.fmt && decide (immF v 0 3 ≤ 5) && decide (v.vd.val < 8)) (fun s =>
    let b := fmtBits v.fmt
    let x := vx s v v.va
    let y := vx s v v.vb
    s.writeMd v (fun e => (cmpInt (immF v 0 3) (elemInt v.fmt (elemAt b x e)) (elemInt v.fmt (elemAt b y e)), 0))))

def execAnd (v : VecInstr) (s : State) : Out := .next (s.issue v 1 true (fun s => s.bitOp v (fun a b => a &&& b)))
def execOr (v : VecInstr) (s : State) : Out := .next (s.issue v 9 true (fun s => s.bitOp v (fun a b => a ||| b)))
def execXor (v : VecInstr) (s : State) : Out := .next (s.issue v 17 true (fun s => s.bitOp v (fun a b => a ^^^ b)))

/-- A shift amount of at least the width gives 0, or sign fill for SRA (Table 9-7). -/
def execSll (v : VecInstr) (s : State) : Out :=
  .next (s.issue v 25 true (fun s => s.bitOp v (fun a b =>
    if fmtBits v.fmt ≤ b then 0 else a * 2 ^ b % 2 ^ fmtBits v.fmt)))
def execSrl (v : VecInstr) (s : State) : Out :=
  .next (s.issue v 33 true (fun s => s.bitOp v (fun a b => if fmtBits v.fmt ≤ b then 0 else a / 2 ^ b)))
def execSra (v : VecInstr) (s : State) : Out :=
  .next (s.issue v 41 true (fun s => s.bitOp v (fun a b =>
    uint (fmtBits v.fmt) (sint (fmtBits v.fmt) a / ((2 ^ min b (fmtBits v.fmt) : Nat) : Int)))))

/-- SEL: the VA element where the MK[VC] bit is 1, else VB. -/
def execSel (v : VecInstr) (s : State) : Out :=
  .next (s.issue v 49 (decide (v.vc.val < 8)) (fun s =>
    let b := fmtBits v.fmt
    let x := vx s v v.va
    let y := vx s v v.vb
    let k := (s.thr v.core v.slot).rdMk v.vc
    s.writeVd v (fun e => (if k.toNat.testBit e then elemAt b x e else elemAt b y e, 0))))

/-- MOVI: IMM sign-extended, then truncated to the element width. -/
def execMovi (v : VecInstr) (s : State) : Out :=
  .next (s.issue v 57 true (fun s => s.writeVd v (fun _ => (uint (fmtBits v.fmt) (immInt v.imm), 0))))

/-- BCAST: the low element bits of SX[VA] in every element. -/
def execBcast (v : VecInstr) (s : State) : Out :=
  .next (s.issue v 65 true (fun s =>
    let x := (sx s v v.va).toNat
    s.writeVd v (fun _ => (x % 2 ^ fmtBits v.fmt, 0))))

/-- MOVS: SX[VD] = element IMM[5:0] of VA, sign- or zero-extended by FMT: a signed integer format by its sign, U8 and the floating-point
formats, whose bits have no sign of the number, by zeros (DESIGN CHOICE for the latter, log entry 122). An element number the register does not hold
gives a free value (DESIGN CHOICE, log entry 2). -/
def execMovs (v : VecInstr) (s : State) : Out :=
  .next (s.issue v 73 true (fun s =>
    let e := immF v 0 6
    let x := elemAt (fmtBits v.fmt) (vx s v v.va) e
    if e < fmtCount v.fmt then
      s.writeSd v v.vd (BitVec.ofNat 64 (if v.fmt.val < 3 then uint 64 (elemInt v.fmt x) else x))
    else (s.writeSd v v.vd s.freeVal).freeNext))

/-- PERM: element i = VA element (VB element i mod n). -/
def execPerm (v : VecInstr) (s : State) : Out :=
  .next (s.issue v 61 true (fun s =>
    let b := fmtBits v.fmt
    let x := vx s v v.va
    let y := vx s v v.vb
    s.writeVd v (fun e => (elemAt b x (elemAt b y e % fmtCount v.fmt), 0))))

/-- SLIDE: element i = VA element i + k when i + k < n, else VB element i + k − n, with k taken mod n. -/
def execSlide (v : VecInstr) (s : State) : Out :=
  .next (s.issue v 69 true (fun s =>
    let b := fmtBits v.fmt
    let n := fmtCount v.fmt
    let k := immF v 0 6 % n
    let x := vx s v v.va
    let y := vx s v v.vb
    s.writeVd v (fun e => (if e + k < n then elemAt b x (e + k) else elemAt b y (e + k - n), 0))))

/-! ### Integer reductions (R265) -/

/-- The enabled elements of a register with their numbers. -/
def enabledEls (fmt : Nat) (m : W64) (x : W512) : List (Nat × Nat) :=
  ((List.range (fmtCount fmt)).filter (fun e => m.toNat.testBit e)).map (fun e => (e, elemAt (fmtBits fmt) x e))

/-- RSUM: the exact 64-bit sum of the enabled elements. -/
def execRsum (v : VecInstr) (s : State) : Out :=
  .next (s.issueInt v 5 (fun s =>
    let t := (enabledEls v.fmt (enabled s v) (vx s v v.va)).foldl (fun a e => a + elemInt v.fmt e.2) 0
    s.writeSd v v.vd (BitVec.ofNat 64 (uint 64 t))))

/-- The best enabled element, the lowest of equals. -/
def bestInt (fmt : Nat) (better : Int → Int → Bool) : List (Nat × Nat) → Option (Nat × Int)
  | [] => none
  | (e, x) :: xs =>
    match bestInt fmt better xs with
    | none => some (e, elemInt fmt x)
    | some (e', y) => if better y (elemInt fmt x) then some (e', y) else some (e, elemInt fmt x)

/-- SX[VD] takes the value and SX[VD + 1] the element index; with no enabled element, 0 and all ones. -/
def State.reduceInt (s : State) (v : VecInstr) (better : Int → Int → Bool) : State :=
  match bestInt v.fmt better (enabledEls v.fmt (enabled s v) (vx s v v.va)) with
  | none => (s.writeSd v v.vd 0#64).writeSd v ((v.vd + 1) % 32) (BitVec.allOnes 64)
  | some (e, x) => (s.writeSd v v.vd (BitVec.ofNat 64 (uint 64 x))).writeSd v ((v.vd + 1) % 32) (BitVec.ofNat 64 e)

def execRmax (v : VecInstr) (s : State) : Out :=
  .next (s.issueInt v 13 (fun s => s.reduceInt v (fun a b => decide (b < a))))
def execRmin (v : VecInstr) (s : State) : Out :=
  .next (s.issueInt v 21 (fun s => s.reduceInt v (fun a b => decide (a < b))))

end Sys2Proof.Machine
end

