-- ==== Sys2Proof/Machine/VectorFp.lean ====
section
/-!
DEFINITION. Vector floating-point instructions, classes 2, 3 and 4, and the floating-point reductions of class 5
(spec/09_vector_engine_and_threads.md R262 to R265).
-/

namespace Sys2Proof.Machine

/-- Issue of a floating-point instruction: FMT must be FP32, FP16 or BF16. -/
def State.issueFp (s : State) (v : VecInstr) (k : Nat) (body : State → State) : State := s.issue v k (fmtFp v.fmt) body

/-- Element-wise operation on VA, VB and VC. -/
def State.fpOp (s : State) (v : VecInstr) (f : Fmt → Nat → Nat → Nat → Flagged) : State :=
  let b := fmtBits v.fmt
  let x := vx s v v.va
  let y := vx s v v.vb
  let z := vx s v v.vc
  s.writeVd v (fun e => f (fmtOf v.fmt) (elemAt b x e) (elemAt b y e) (elemAt b z e))

def execFadd (v : VecInstr) (s : State) : Out :=
  .next (s.issueFp v 2 (fun s => s.fpOp v (fun f a b _ => f.addX a b)))
def execFsub (v : VecInstr) (s : State) : Out :=
  .next (s.issueFp v 10 (fun s => s.fpOp v (fun f a b _ => f.subX a b)))
def execFmul (v : VecInstr) (s : State) : Out :=
  .next (s.issueFp v 18 (fun s => s.fpOp v (fun f a b _ => f.mulX a b)))
def execFfma (v : VecInstr) (s : State) : Out :=
  .next (s.issueFp v 26 (fun s => s.fpOp v (fun f a b c => f.fmaX a b c)))
def execFdiv (v : VecInstr) (s : State) : Out :=
  .next (s.issueFp v 34 (fun s => s.fpOp v (fun f a b _ => f.divX a b)))
def execFsqrt (v : VecInstr) (s : State) : Out :=
  .next (s.issueFp v 42 (fun s => s.fpOp v (fun f a _ _ => f.sqrtX a)))
def execFmin (v : VecInstr) (s : State) : Out :=
  .next (s.issueFp v 50 (fun s => s.fpOp v (fun f a b _ => f.minmaxX false a b)))
def execFmax (v : VecInstr) (s : State) : Out :=
  .next (s.issueFp v 58 (fun s => s.fpOp v (fun f a b _ => f.minmaxX true a b)))
/-- FABS clears the sign bit; no flag, NaN included. -/
def execFabs (v : VecInstr) (s : State) : Out :=
  .next (s.issueFp v 66 (fun s => s.fpOp v (fun f a _ _ => (a % 2 ^ (f.p - 1 + f.eb), 0))))
/-- FNEG flips the sign bit; no flag, NaN included. -/
def execFneg (v : VecInstr) (s : State) : Out :=
  .next (s.issueFp v 74 (fun s => s.fpOp v (fun f a _ _ => (f.neg a, 0))))

/-- FCMP writes MK[VD]; codes 6 and 7, and a register number above MK7, are reserved. -/
def execFcmp (v : VecInstr) (s : State) : Out :=
  .next (s.issue v 82 (fmtFp v.fmt && decide (immF v 0 3 ≤ 5) && decide (v.vd.val < 8)) (fun s =>
    let b := fmtBits v.fmt
    let x := vx s v v.va
    let y := vx s v v.vb
    s.writeMd v (fun e => (fmtOf v.fmt).cmpX (immF v 0 3) (elemAt b x e) (elemAt b y e))))

def execFclass (v : VecInstr) (s : State) : Out :=
  .next (s.issueFp v 90 (fun s => s.fpOp v (fun f a _ _ => (f.classX a, 0))))

/-! ### Conversions (R263) -/

/-- The first of the 16 elements that a conversion maps: half `h` of a register of 32 elements. A register of 64, whose
place R263 does not state, uses its first 16 (DEDUCED, log entry 48). -/
def halfBase (fmt h : Nat) : Nat := if fmtCount fmt = 32 then h * 16 else 0

/-- Convert 16 elements from format `g` of VA to format `d` of VD: IMM[3] selects the source half and IMM[4] the
destination half; destination elements outside it are unchanged. -/
def State.convertOp (s : State) (v : VecInstr) (d : Nat) (f : Nat → Flagged) : State :=
  let g := v.fmt.val
  let sb := halfBase g (immF v 3 1)
  let db := halfBase d (immF v 4 1)
  let m := enabled s v
  let t := s.thr v.core v.slot
  let x := t.rdVx v.va
  let old := t.rdVx v.vd
  let conv := fun (i : Nat) => f (elemAt (fmtBits g) x (sb + i))
  let r := BitVec.ofNat 512 (ofElems (fmtBits d) ((List.range (fmtCount d)).map (fun e =>
    if db ≤ e ∧ e < db + 16 then
      (if m.toNat.testBit e then (conv (e - db)).1 else if v.mz then 0 else elemAt (fmtBits d) old e)
    else elemAt (fmtBits d) old e)))
  let fl := (List.range 16).foldl (fun fl i => if m.toNat.testBit (db + i) then fl ||| (conv i).2 else fl) 0
  (s.putThr v.core v.slot (t.wrVx v.vd r)).orTstat v.core v.slot fl

/-- FCVT: from the FP format of FMT to the FP format of IMM[2:0]. -/
def execFcvt (v : VecInstr) (s : State) : Out :=
  .next (s.issue v 3 (fmtFp v.fmt && fmtFp (immF v 0 3)) (fun s =>
    s.convertOp v (immF v 0 3) (fun x => (fmtOf v.fmt).convertX (fmtOf (immF v 0 3)) x)))

/-- ITOF: from the integer format of FMT to the FP format of IMM[2:0]. -/
def execItof (v : VecInstr) (s : State) : Out :=
  .next (s.issue v 11 (fmtInt v.fmt && fmtFp (immF v 0 3)) (fun s =>
    s.convertOp v (immF v 0 3) (fun x => (fmtOf (immF v 0 3)).ofIntX (elemInt v.fmt x))))

/-- FTOI: from the FP format of FMT to the integer format of IMM[2:0]. -/
def execFtoi (v : VecInstr) (s : State) : Out :=
  .next (s.issue v 19 (fmtFp v.fmt && fmtInt (immF v 0 3)) (fun s =>
    let d := immF v 0 3
    s.convertOp v d (fun x =>
      let r := (fmtOf v.fmt).toIntX (fmtLo d) (fmtHi d) x
      (uint (fmtBits d) r.1, r.2))))

/-! ### Approximations (R264) -/

def execFrcp (v : VecInstr) (s : State) : Out :=
  .next (s.issueFp v 4 (fun s => s.fpOp v (fun f a _ _ => approxX f 0 a)))
def execFrsq (v : VecInstr) (s : State) : Out :=
  .next (s.issueFp v 12 (fun s => s.fpOp v (fun f a _ _ => approxX f 1 a)))
def execFexp2 (v : VecInstr) (s : State) : Out :=
  .next (s.issueFp v 20 (fun s => s.fpOp v (fun f a _ _ => approxX f 2 a)))
def execFlog2 (v : VecInstr) (s : State) : Out :=
  .next (s.issueFp v 28 (fun s => s.fpOp v (fun f a _ _ => approxX f 3 a)))
def execFexp (v : VecInstr) (s : State) : Out :=
  .next (s.issueFp v 36 (fun s => s.fpOp v (fun f a _ _ => approxX f 4 a)))
def execFsig (v : VecInstr) (s : State) : Out :=
  .next (s.issueFp v 44 (fun s => s.fpOp v (fun f a _ _ => approxX f 5 a)))
def execFtanh (v : VecInstr) (s : State) : Out :=
  .next (s.issueFp v 52 (fun s => s.fpOp v (fun f a _ _ => approxX f 6 a)))

/-! ### Reductions (R265) -/

/-- One level of the pairwise tree: adjacent results are added, each sum rounded and flagged. -/
def sumLevel (f : Fmt) : List Nat → List Nat × Nat
  | a :: b :: xs =>
    let r := f.addX a b
    let q := sumLevel f xs
    (r.1 :: q.1, r.2 ||| q.2)
  | xs => (xs, 0)

/-- `n` levels of the tree. -/
def sumTree (f : Fmt) : Nat → List Nat → Nat × Nat
  | 0, xs => (xs.headD 0, 0)
  | n + 1, xs =>
    let l := sumLevel f xs
    let r := sumTree f n l.1
    (r.1, l.2 ||| r.2)

/-- FRSUM: a pairwise tree over ascending elements, a disabled element entering as −0; element 0 of VD takes the sum and
the others 0. -/
def execFrsum (v : VecInstr) (s : State) : Out :=
  .next (s.issueFp v 29 (fun s =>
    let f := fmtOf v.fmt
    let m := enabled s v
    let x := vx s v v.va
    let els := (List.range (fmtCount v.fmt)).map (fun e =>
      if m.toNat.testBit e then elemAt (fmtBits v.fmt) x e else f.signBit true)
    let r := sumTree f (if fmtCount v.fmt = 16 then 4 else 5) els
    (s.onThr v.core v.slot (fun t => t.wrVx v.vd (BitVec.ofNat 512 (r.1 % 2 ^ fmtBits v.fmt)))).orTstat v.core v.slot r.2))

/-- The best enabled element that is no NaN, the lowest of equals. -/
def bestFp (f : Fmt) (max : Bool) : List (Nat × Nat) → Option (Nat × Nat)
  | [] => none
  | (e, x) :: xs =>
    let r := bestFp f max xs
    if f.isNan x then r
    else match r with
      | none => some (e, x)
      | some (e', y) => if (if max then f.below x y else f.below y x) then some (e', y) else some (e, x)

/-- FRMAX and FRMIN: the value to element 0 of VD and the index to element 1. -/
def State.reduceFp (s : State) (v : VecInstr) (max : Bool) : State :=
  let f := fmtOf v.fmt
  let b := fmtBits v.fmt
  let els := enabledEls v.fmt (enabled s v) (vx s v v.va)
  let fl := flagIf (els.any (fun e => f.isSnan e.2)) fNV
  let r := (bestFp f max els).getD (2 ^ b - 1, f.qnan)
  let t := s.thr v.core v.slot
  let new := writeElems v.fmt (BitVec.ofNat 64 3) false (t.rdVx v.vd) (fun e => if e = 0 then r.2 else r.1)
  (s.putThr v.core v.slot (t.wrVx v.vd new)).orTstat v.core v.slot fl

def execFrmax (v : VecInstr) (s : State) : Out := .next (s.issueFp v 37 (fun s => s.reduceFp v true))
def execFrmin (v : VecInstr) (s : State) : Out := .next (s.issueFp v 45 (fun s => s.reduceFp v false))

/-- Minimum and maximum of finite elements with the counts of NaN, +∞ and −∞. -/
structure FRange where
  lo : Nat
  hi : Nat
  nan : Nat
  pinf : Nat
  ninf : Nat
  deriving DecidableEq, Repr

/-- Take one element into a range. -/
def FRange.take (r : FRange) (x : Nat) : FRange :=
  match Fp.decode Fmt.fp32 x with
  | .nan => { r with nan := r.nan + 1 }
  | .inf false => { r with pinf := r.pinf + 1 }
  | .inf true => { r with ninf := r.ninf + 1 }
  | .fin _ _ => { r with lo := if Fmt.fp32.below x r.lo then x else r.lo, hi := if Fmt.fp32.below r.hi x then x else r.hi }

/-- FRANGE (FP32): lanes 0 to 4 of VD take the results; with IMM[0] each combines with VD's previous lane. A scan
thread forms lo and hi with it (R157). -/
def execFrange (v : VecInstr) (s : State) : Out :=
  .next (s.issue v 53 (v.fmt == 4) (fun s =>
    let t := s.thr v.core v.slot
    let old := t.rdVx v.vd
    let start : FRange :=
      if immF v 0 1 = 1 then ⟨elemAt 32 old 0, elemAt 32 old 1, elemAt 32 old 2, elemAt 32 old 3, elemAt 32 old 4⟩
      else ⟨Fmt.fp32.inf false, Fmt.fp32.inf true, 0, 0, 0⟩
    let els := enabledEls 4 (enabled s v) (t.rdVx v.va)
    let r := els.foldl (fun r e => r.take e.2) start
    let new := writeElems 4 (BitVec.ofNat 64 31) false old (fun e =>
      match e with
      | 0 => r.lo
      | 1 => r.hi
      | 2 => r.nan
      | 3 => r.pinf
      | _ => r.ninf)
    (s.putThr v.core v.slot (t.wrVx v.vd new)).scanTake v.core v.slot (els.map Prod.snd)))

end Sys2Proof.Machine
end

