-- ==== Sys2Proof/Machine/VectorMem.lean ====
section
/-!
DEFINITION. Memory instructions of threads and the fabric ports of the vector engine (spec/09 R243 to R251, R266, Table 9-7
class 6; spec/10 R283).
-/

namespace Sys2Proof.Machine

/-! ### What an access touches -/

/-- The trap cause of one element (R243, R244): 2 for no region, an absent device, or control space but by an aligned scalar
access; 1 for a misaligned element. -/
def State.elemFault (s : State) (scalar : Bool) (p : Piece) : Option Nat :=
  let dev := p.addr / 2 ^ 48
  if 2 ^ 54 ≤ p.addr ∨ (dev ≠ s.getF Reg.MGT_DEVNUM ∧ s.devPresent dev = false) then some 2
  else match s.place (p.addr % 2 ^ 48) with
    | .nowhere => some 2
    | .ctl _ => if scalar = true ∧ p.addr % p.len = 0 then none else some 2
    | _ => if p.addr % p.len = 0 then none else some 1

/-- A trap on an access: the PC stays at the instruction that trapped. -/
def State.trapHere (s : State) (v : VecInstr) (cause : Nat) : State :=
  (s.setPc v.core v.slot (s.getF (Reg.CC_VT_SLOT_PC v.core v.slot) + 4095)).trap v.core v.slot cause

/-- Join elements that follow one another both in memory and in the register (DESIGN CHOICE, log entry 42). -/
def joinPieces : List Piece → List Piece
  | [] => []
  | p :: ps =>
    match joinPieces ps with
    | [] => [p]
    | q :: qs =>
      if q.addr = p.addr + p.len ∧ q.pos = p.pos + p.len then
        { p with len := p.len + q.len, data := p.data.bind (fun a => q.data.map (fun b => a ++ b)) } :: qs
      else p :: q :: qs

/-- An address of a thread: 64 bits, wrapping. -/
def addrOf (base : W64) (x : Int) : Nat := (base + BitVec.ofInt 64 x).toNat

/-- The enabled elements of an access: element `e` of `b` bits lies at `f e`. A store takes its bytes from VD. -/
def State.elemPieces (s : State) (v : VecInstr) (store : Bool) (es : List Nat) (f : Nat → Nat) : List Piece :=
  let b := fmtBits v.fmt
  let m := enabled s v
  let r := vx s v v.vd
  (es.filter (fun e => m.toNat.testBit e)).map (fun e =>
    { addr := f e, pos := e * (b / 8), len := b / 8, data := if store then some (leBytes (b / 8) (elemAt b r e)) else none })

/-! ### Loads and stores -/

/-- Start every piece of an access; what the error check of the first word finds is `seen`. Stage threads reach memory over
slot circuits, free threads over the service path (R281). -/
def State.startMem (s : State) (v : VecInstr) (id : Nat) (seen : EccSeen) (ps : List Piece) : State :=
  let slotted := s.flag (Reg.CC_VT_SLOT_STAGE v.core v.slot)
  ps.zipIdx.foldl (fun s x =>
    let p := x.1
    let dev := p.addr / 2 ^ 48
    let a := p.addr % 2 ^ 48
    if dev = s.getF Reg.MGT_DEVNUM then
      s.startPiece id (v.core.val * 16 + v.slot.val) slotted (if x.2 = 0 then seen else .clean) { p with addr := a }
    else s.remotePart id dev p.pos a p.len p.data) s

/-- A load: the thread waits until every part has completed (R251). `init` is what the register holds where nothing is
loaded. -/
def State.memLoad (s : State) (v : VecInstr) (scalar : Bool) (init : List Byte) (seen : EccSeen) (ps : List Piece) :
    State :=
  let s0 := s.sleep v.core v.slot 2 (.mem s.nextReq)
  let o := s0.openReq init (.load v.core v.slot scalar v.vd 0)
  (o.1.startMem v o.2 seen ps).closeReq o.2

/-- The frame whose outputs a thread's store writes: that of its current tag, for a stage thread (R27, R240). -/
def State.storeFrame (s : State) (c j : Nat) : Option (Nat × Nat) :=
  if s.flag (Reg.CC_VT_SLOT_STAGE c j) then (s.coreOwner c).map (fun p => (p, fifOf (BitVec.ofNat 8 (s.getF (Reg.CC_VT_SLOT_TAG c j)))))
  else none

/-- A store: the thread goes on (R246, R251). -/
def State.memStore (s : State) (v : VecInstr) (ps : List Piece) : State :=
  let o := s.openReq [] (.store v.core v.slot)
  ((o.1.forFrame o.2 (s.storeFrame v.core v.slot)).startMem v o.2 .clean ps).closeReq o.2

/-- A vector access: it traps when an enabled element may not be accessed, else it is performed. -/
def State.vecAccess (s : State) (v : VecInstr) (store : Bool) (seen : EccSeen) (es : List Nat) (f : Nat → Nat) : State :=
  let ps := s.elemPieces v store es f
  match ps.findSome? (fun p => s.elemFault false p) with
  | some cause => s.trapHere v cause
  | none =>
    if store then s.memStore v (joinPieces ps)
    else
      let old := vx s v v.vd
      let init := writeElems v.fmt (enabled s v) v.mz old (fun e => elemAt (fmtBits v.fmt) old e)
      s.memLoad v false (leBytes 64 init.toNat) seen (joinPieces ps)

/-- FMT names a 32-bit format. -/
def fmt32 (v : VecInstr) : Bool := v.fmt.val == 0 || v.fmt.val == 4

/-- The address of element `e` of LD and ST. -/
def ldAddr (s : State) (v : VecInstr) (e : Nat) : Nat :=
  addrOf (sx s v v.va) (immInt v.imm + ((e * (fmtBits v.fmt / 8) : Nat) : Int))

/-- The address of element `e` of LDS and STS. -/
def ldsAddr (s : State) (v : VecInstr) (e : Nat) : Nat :=
  addrOf (sx s v v.va) (immInt v.imm + ((e * (sx s v v.vb).toNat : Nat) : Int))

/-- The address of element `e` of LDX and STX: unsigned lane `e` of VB is the offset. -/
def ldxAddr (s : State) (v : VecInstr) (e : Nat) : Nat :=
  addrOf (sx s v v.va) ((elemAt 32 (vx s v v.vb) e : Nat) : Int)

def execLd (v : VecInstr) (seen : EccSeen) (s : State) : Out :=
  .next (s.issue v 6 true (fun s => s.vecAccess v false seen (List.range (fmtCount v.fmt)) (ldAddr s v)))
def execSt (v : VecInstr) (s : State) : Out :=
  .next (s.issue v 14 true (fun s => s.vecAccess v true .clean (List.range (fmtCount v.fmt)) (ldAddr s v)))
def execLds (v : VecInstr) (seen : EccSeen) (s : State) : Out :=
  .next (s.issue v 22 (fmt32 v) (fun s => s.vecAccess v false seen (List.range 16) (ldsAddr s v)))
def execSts (v : VecInstr) (s : State) : Out :=
  .next (s.issue v 30 (fmt32 v) (fun s => s.vecAccess v true .clean (List.range 16) (ldsAddr s v)))
def execLdx (v : VecInstr) (seen : EccSeen) (s : State) : Out :=
  .next (s.issue v 38 (fmt32 v) (fun s => s.vecAccess v false seen (List.range 16) (ldxAddr s v)))
/-- STX: lanes in ascending order (R247). -/
def execStx (v : VecInstr) (s : State) : Out :=
  .next (s.issue v 46 (fmt32 v) (fun s => s.vecAccess v true .clean (List.range 16) (ldxAddr s v)))

/-- LDN: the aligned 32-byte word at SX[VA] goes to lanes 0 to 7 (VC 0) or 8 to 15 (VC 1), enabled elements only. -/
def State.narrowLoad (s : State) (v : VecInstr) (seen : EccSeen) : State :=
  let a := (sx s v v.va).toNat
  match s.elemFault false { addr := a, pos := 0, len := 32 } with
  | some cause => s.trapHere v cause
  | none =>
    let n := 256 / fmtBits v.fmt
    s.vecAccess v false seen ((List.range n).map (fun e => v.vc.val * n + e))
      (fun e => a + (e - v.vc.val * n) * (fmtBits v.fmt / 8))

def execLdn (v : VecInstr) (seen : EccSeen) (s : State) : Out :=
  .next (s.issue v 54 (decide (v.vc.val ≤ 1)) (fun s => s.narrowLoad v seen))

/-! ### Scalar accesses -/

/-- The bytes of a scalar access: 8 for FMT 0, 4 for FMT 1. -/
def scalarLen (v : VecInstr) : Nat := if v.fmt.val = 0 then 8 else 4

/-- The address of SLD and SST. -/
def scalarAddr (s : State) (v : VecInstr) : Nat := addrOf (sx s v v.va) (immInt v.imm)

/-- An address in this device's control space: its offset. -/
def State.ownCtl (s : State) (a : Nat) : Option Nat :=
  if a / 2 ^ 48 = s.getF Reg.MGT_DEVNUM then s.ctlOff (a % 2 ^ 48) else none

/-- The half of a register that an aligned access of `n` bytes covers. -/
def halfAt (a n : Nat) : Half := if n = 8 then .both else if a % 8 = 0 then .lo else .hi

/-- SLD. A load from control space arrives like any other (R251). -/
def State.scalarLoad (s : State) (v : VecInstr) (seen : EccSeen) : State :=
  let a := scalarAddr s v
  let n := scalarLen v
  match s.elemFault true { addr := a, pos := 0, len := n } with
  | some cause => s.trapHere v cause
  | none =>
    match s.ownCtl a with
    | some off =>
      let r := s.ctlRead (.thread v.core v.slot) (halfAt off n) off
      r.1.sleep v.core v.slot 2 (.load true v.vd (BitVec.ofNat 512 (r.2.toNat / 2 ^ (8 * (off % 8)))) false)
    | none => s.memLoad v true (List.replicate n 0) seen [{ addr := a, pos := 0, len := n }]

/-- SST. -/
def State.scalarStore (s : State) (v : VecInstr) : State :=
  let a := scalarAddr s v
  let n := scalarLen v
  let x := (sx s v v.vd).toNat
  match s.elemFault true { addr := a, pos := 0, len := n } with
  | some cause => s.trapHere v cause
  | none =>
    match s.ownCtl a with
    | some off =>
      (s.ctlWrite off ⟨.thread v.core v.slot, halfAt off n, BitVec.ofNat 64 (x % 2 ^ (8 * n) * 2 ^ (8 * (off % 8)))⟩).setResp
        s.resp
    | none => s.memStore v [{ addr := a, pos := 0, len := n, data := some (leBytes n x) }]

def execSld (v : VecInstr) (seen : EccSeen) (s : State) : Out :=
  .next (s.issue v 62 (decide (v.fmt.val ≤ 1)) (fun s => s.scalarLoad v seen))
def execSst (v : VecInstr) (s : State) : Out :=
  .next (s.issue v 70 (decide (v.fmt.val ≤ 1)) (fun s => s.scalarStore v))

/-! ### Fabric ports (R266) -/

/-- RECV: the head word of the inbound queue of port IMM[4:0], or a wait for one. -/
def State.recvOp (s : State) (v : VecInstr) : State :=
  let r := s.portPop v.core (immF v 0 5)
  match r.2 with
  | some w => r.1.giveWord v.core v.slot v.vd v.vb (destForm v) w
  | none => s.sleep v.core v.slot 2 (.recv (immF v 0 5) v.vd v.vb (destForm v))

def execRecv (v : VecInstr) (s : State) : Out :=
  .next (s.issue v 86 (decide (immF v 0 5 ≤ 16)) (fun s => s.recvOp v))

/-- The word that SEND sends: it carries MARK for a frame that is VOID. -/
def sendWord (s : State) (v : VecInstr) : QWord :=
  let tag := BitVec.ofNat 8 (sx s v v.vb).toNat
  { data := BitVec.ofNat 64 (vx s v v.va).toNat, tag := tag,
    mark := ((s.tagFrame v.core tag).bind (fun f => f.void)).map (fun x => { reason := x.1, time := x.2 }) }

/-- SEND: on port IMM[4:0], at once or when there is room; LAST in IMM[5] closes the frame's budget count (R240). It ends a scan
thread's first pass (R163). -/
def State.sendOp (s : State) (v : VecInstr) : State :=
  let port := immF v 0 5
  let w := sendWord s v
  let s0 := s.scanEnd v.core v.slot (fifOf w.tag)
  let s1 := if immF v 5 1 = 1 then
      s0.onThr v.core v.slot (fun t => { t with counting := t.counting.filter (fun x => x != fifOf w.tag) })
    else s0
  if s1.portRoom v.core port then s1.portPush v.core port w else s1.sleep v.core v.slot 2 (.room port w)

def execSend (v : VecInstr) (s : State) : Out :=
  .next (s.issue v 94 (decide (immF v 0 5 ≤ 16)) (fun s => s.sendOp v))

end Sys2Proof.Machine
end

