-- ==== Sys2Proof/Machine/Dispatch.lean ====
section
/-!
DEFINITION. The one dispatch of commands to meanings: one arm per constructor of Instr.
-/

namespace Sys2Proof.Machine

/-- The effect of a command on everything but the queue. -/
def exec (i : Instr) (s : State) : Host.Outcome State Fault Refusal :=
  match i with
  | .almRate w => Sys2Proof.Machine.execAlmRate w s
  | .almSlew w => Sys2Proof.Machine.execAlmSlew w s
  | .almStep w => Sys2Proof.Machine.execAlmStep w s
  | .almNowLo r => Sys2Proof.Machine.execAlmNowLo r s
  | .aonPeriodMeasure ticks => Sys2Proof.Machine.execAonPeriodMeasure ticks s
  | .aonClockFail => Sys2Proof.Machine.execAonClockFail s
  | .almanacClockReturn edge => Sys2Proof.Machine.execAlmanacClockReturn edge s
  | .beatLaunch n ready => Sys2Proof.Machine.execBeatLaunch n ready s
  | .coreWakeLaunch c => Sys2Proof.Machine.execCoreWakeLaunch c s
  | .exposeLaunch ep => Sys2Proof.Machine.execExposeLaunch ep s
  | .strobeLaunch ep => Sys2Proof.Machine.execStrobeLaunch ep s
  | .slotFrameLaunch l => Sys2Proof.Machine.execSlotFrameLaunch l s
  | .generalPortFire p => Sys2Proof.Machine.execGeneralPortFire p s
  | .deviceWakeFire => Sys2Proof.Machine.execDeviceWakeFire s
  | .almBmArm n w => Sys2Proof.Machine.execAlmBmArm n w s
  | .almBmStop n w => Sys2Proof.Machine.execAlmBmStop n w s
  | .almBmPeriod n w => Sys2Proof.Machine.execAlmBmPeriod n w s
  | .almBmShrink n w => Sys2Proof.Machine.execAlmBmShrink n w s
  | .almBmLaglim n w => Sys2Proof.Machine.execAlmBmLaglim n w s
  | .almGlTime p reg w => Sys2Proof.Machine.execAlmGlTime p reg w s
  | .wordArrival site slot src ecc => Sys2Proof.Machine.execWordArrival site slot src ecc s
  | .holdSample site slot src => Sys2Proof.Machine.execHoldSample site slot src s
  | .queueHeadMove c t q => Sys2Proof.Machine.execQueueHeadMove c t q s
  | .joinStall site slot cycles => Sys2Proof.Machine.execJoinStall site slot cycles s
  | .flitForward q port slot tab ecc => Sys2Proof.Machine.execFlitForward q port slot tab ecc s
  | .firing c t => Sys2Proof.Machine.execFiring c t s
  | .nop mi => Sys2Proof.Machine.execNop mi s
  | .mac mi => Sys2Proof.Machine.execMac mi s
  | .maxx mi => Sys2Proof.Machine.execMaxx mi s
  | .minx mi => Sys2Proof.Machine.execMinx mi s
  | .resume mi => Sys2Proof.Machine.execResume mi s
  | .out mi => Sys2Proof.Machine.execOut mi s
  | .tileAdd mi => Sys2Proof.Machine.execTileAdd mi s
  | .tileSub mi => Sys2Proof.Machine.execTileSub mi s
  | .tileMax mi => Sys2Proof.Machine.execTileMax mi s
  | .tileMin mi => Sys2Proof.Machine.execTileMin mi s
  | .tileCmp mi => Sys2Proof.Machine.execTileCmp mi s
  | .tileSel mi => Sys2Proof.Machine.execTileSel mi s
  | .tileRshr mi => Sys2Proof.Machine.execTileRshr mi s
  | .clamp mi => Sys2Proof.Machine.execClamp mi s
  | .mov mi => Sys2Proof.Machine.execMov mi s
  | .rescale mi => Sys2Proof.Machine.execRescale mi s
  | .quant mi => Sys2Proof.Machine.execQuant mi s
  | .emit mi => Sys2Proof.Machine.execEmit mi s
  | .carrySpillArrival c col seen => Sys2Proof.Machine.execCarrySpillArrival c col seen s
  | .sequencerRelease c q => Sys2Proof.Machine.execSequencerRelease c q s
  | .passEnd c q fif streams => Sys2Proof.Machine.execPassEnd c q fif streams s
  | .scaleFold p fif stage tensor => Sys2Proof.Machine.execScaleFold p fif stage tensor s
  | .sectionEnd c => Sys2Proof.Machine.execSectionEnd c s
  | .contextReloadDone c => Sys2Proof.Machine.execContextReloadDone c s
  | .contextSwitch p => Sys2Proof.Machine.execContextSwitch p s
  | .heartbeatToken token => Sys2Proof.Machine.execHeartbeatToken token s
  | .heartbeatDeadline u => Sys2Proof.Machine.execHeartbeatDeadline u s
  | .coreLost c storage => Sys2Proof.Machine.execCoreLost c storage s
  | .tallySnap c w => Sys2Proof.Machine.execTallySnap c w s
  | .tallyClear c w => Sys2Proof.Machine.execTallyClear c w s
  | .retainAccessTimeout c => Sys2Proof.Machine.execRetainAccessTimeout c s
  | .contextWindowWrite c o w => Sys2Proof.Machine.execContextWindowWrite c o w s
  | .ccWdenyRead c r => Sys2Proof.Machine.execCcWdenyRead c r s
  | .bandWriteStart c b prod => Sys2Proof.Machine.execBandWriteStart c b prod s
  | .releaseStall c b cycles => Sys2Proof.Machine.execReleaseStall c b cycles s
  | .fetchStreamSend c e tensor dst => Sys2Proof.Machine.execFetchStreamSend c e tensor dst s
  | .settle c e fif => Sys2Proof.Machine.execSettle c e fif s
  | .refetch c e fif => Sys2Proof.Machine.execRefetch c e fif s
  | .stemScanDone => Sys2Proof.Machine.execStemScanDone s
  | .stemPassDone errs => Sys2Proof.Machine.execStemPassDone errs s
  | .tailDone errs => Sys2Proof.Machine.execTailDone errs s
  | .solsticeLost cause => Sys2Proof.Machine.execSolsticeLost cause s
  | .depthwiseFrame c => Sys2Proof.Machine.execDepthwiseFrame c s
  | .add v => Sys2Proof.Machine.execAdd v s
  | .adds v => Sys2Proof.Machine.execAdds v s
  | .sub v => Sys2Proof.Machine.execSub v s
  | .subs v => Sys2Proof.Machine.execSubs v s
  | .mul v => Sys2Proof.Machine.execMul v s
  | .mulh v => Sys2Proof.Machine.execMulh v s
  | .min v => Sys2Proof.Machine.execMin v s
  | .max v => Sys2Proof.Machine.execMax v s
  | .abs v => Sys2Proof.Machine.execAbs v s
  | .dot4 v => Sys2Proof.Machine.execDot4 v s
  | .rshr v => Sys2Proof.Machine.execRshr v s
  | .cmp v => Sys2Proof.Machine.execCmp v s
  | .and v => Sys2Proof.Machine.execAnd v s
  | .or v => Sys2Proof.Machine.execOr v s
  | .xor v => Sys2Proof.Machine.execXor v s
  | .sll v => Sys2Proof.Machine.execSll v s
  | .srl v => Sys2Proof.Machine.execSrl v s
  | .sra v => Sys2Proof.Machine.execSra v s
  | .sel v => Sys2Proof.Machine.execSel v s
  | .movi v => Sys2Proof.Machine.execMovi v s
  | .bcast v => Sys2Proof.Machine.execBcast v s
  | .movs v => Sys2Proof.Machine.execMovs v s
  | .fadd v => Sys2Proof.Machine.execFadd v s
  | .fsub v => Sys2Proof.Machine.execFsub v s
  | .fmul v => Sys2Proof.Machine.execFmul v s
  | .ffma v => Sys2Proof.Machine.execFfma v s
  | .fdiv v => Sys2Proof.Machine.execFdiv v s
  | .fsqrt v => Sys2Proof.Machine.execFsqrt v s
  | .fmin v => Sys2Proof.Machine.execFmin v s
  | .fmax v => Sys2Proof.Machine.execFmax v s
  | .fabs v => Sys2Proof.Machine.execFabs v s
  | .fneg v => Sys2Proof.Machine.execFneg v s
  | .fcmp v => Sys2Proof.Machine.execFcmp v s
  | .fclass v => Sys2Proof.Machine.execFclass v s
  | .fcvt v => Sys2Proof.Machine.execFcvt v s
  | .itof v => Sys2Proof.Machine.execItof v s
  | .ftoi v => Sys2Proof.Machine.execFtoi v s
  | .frcp v => Sys2Proof.Machine.execFrcp v s
  | .frsq v => Sys2Proof.Machine.execFrsq v s
  | .fexp2 v => Sys2Proof.Machine.execFexp2 v s
  | .flog2 v => Sys2Proof.Machine.execFlog2 v s
  | .fexp v => Sys2Proof.Machine.execFexp v s
  | .fsig v => Sys2Proof.Machine.execFsig v s
  | .ftanh v => Sys2Proof.Machine.execFtanh v s
  | .rsum v => Sys2Proof.Machine.execRsum v s
  | .rmax v => Sys2Proof.Machine.execRmax v s
  | .rmin v => Sys2Proof.Machine.execRmin v s
  | .frsum v => Sys2Proof.Machine.execFrsum v s
  | .frmax v => Sys2Proof.Machine.execFrmax v s
  | .frmin v => Sys2Proof.Machine.execFrmin v s
  | .frange v => Sys2Proof.Machine.execFrange v s
  | .perm v => Sys2Proof.Machine.execPerm v s
  | .slide v => Sys2Proof.Machine.execSlide v s
  | .ld v seen => Sys2Proof.Machine.execLd v seen s
  | .st v => Sys2Proof.Machine.execSt v s
  | .lds v seen => Sys2Proof.Machine.execLds v seen s
  | .sts v => Sys2Proof.Machine.execSts v s
  | .ldx v seen => Sys2Proof.Machine.execLdx v seen s
  | .stx v => Sys2Proof.Machine.execStx v s
  | .ldn v seen => Sys2Proof.Machine.execLdn v seen s
  | .sld v seen => Sys2Proof.Machine.execSld v seen s
  | .sst v => Sys2Proof.Machine.execSst v s
  | .fence v => Sys2Proof.Machine.execFence v s
  | .recv v => Sys2Proof.Machine.execRecv v s
  | .send v => Sys2Proof.Machine.execSend v s
  | .sop v => Sys2Proof.Machine.execSop v s
  | .sli v => Sys2Proof.Machine.execSli v s
  | .br v => Sys2Proof.Machine.execBr v s
  | .jmp v => Sys2Proof.Machine.execJmp v s
  | .barArrive v => Sys2Proof.Machine.execBarArrive v s
  | .barWait v => Sys2Proof.Machine.execBarWait v s
  | .barSync v => Sys2Proof.Machine.execBarSync v s
  | .qsend v => Sys2Proof.Machine.execQsend v s
  | .qrecv v => Sys2Proof.Machine.execQrecv v s
  | .await v => Sys2Proof.Machine.execAwait v s
  | .tstart v => Sys2Proof.Machine.execTstart v s
  | .exit v => Sys2Proof.Machine.execExit v s
  | .csr v => Sys2Proof.Machine.execCsr v s
  | .loadDataArrival c j => Sys2Proof.Machine.execLoadDataArrival c j s
  | .awaitExpiry c j => Sys2Proof.Machine.execAwaitExpiry c j s
  | .waitDeadline c j => Sys2Proof.Machine.execWaitDeadline c j s
  | .threadBudget c j fif cycles => Sys2Proof.Machine.execThreadBudget c j fif cycles s
  | .vtStart c w => Sys2Proof.Machine.execVtStart c w s
  | .vtKill c w => Sys2Proof.Machine.execVtKill c w s
  | .vtFree c w => Sys2Proof.Machine.execVtFree c w s
  | .mgtBarArrive b w => Sys2Proof.Machine.execMgtBarArrive b w s
  | .mgtBarExpect b w => Sys2Proof.Machine.execMgtBarExpect b w s
  | .mqCfg q w => Sys2Proof.Machine.execMqCfg q w s
  | .mgtMqPop q k r => Sys2Proof.Machine.execMgtMqPop q k r s
  | .mgtMqPush q k w => Sys2Proof.Machine.execMgtMqPush q k w s
  | .mgtMqPushdropRead r => Sys2Proof.Machine.execMgtMqPushdropRead r s
  | .serviceAccess a addr op seen => Sys2Proof.Machine.execServiceAccess a addr op seen s
  | .read g h op3 tag req first => Sys2Proof.Machine.execRead g h op3 tag req first s
  | .narrow g h tag req first => Sys2Proof.Machine.execNarrow g h tag req first s
  | .write g h data tag req => Sys2Proof.Machine.execWrite g h data tag req s
  | .readReturn g req => Sys2Proof.Machine.execReadReturn g req s
  | .readRetry g req ix second => Sys2Proof.Machine.execReadRetry g req ix second s
  | .wcbAgeFlush m => Sys2Proof.Machine.execWcbAgeFlush m s
  | .flushComplete m seen => Sys2Proof.Machine.execFlushComplete m seen s
  | .refresh g => Sys2Proof.Machine.execRefresh g s
  | .recentre g fails => Sys2Proof.Machine.execRecentre g fails s
  | .stackTempRead m t => Sys2Proof.Machine.execStackTempRead m t s
  | .channelLost g cause => Sys2Proof.Machine.execChannelLost g cause s
  | .mcTrainGo m w => Sys2Proof.Machine.execMcTrainGo m w s
  | .trainingDone g pass repaired margin => Sys2Proof.Machine.execTrainingDone g pass repaired margin s
  | .mgtHbmCommit w => Sys2Proof.Machine.execMgtHbmCommit w s
  | .tgStart g w => Sys2Proof.Machine.execTgStart g w s
  | .tgDone g ns => Sys2Proof.Machine.execTgDone g ns s
  | .mcInj m w => Sys2Proof.Machine.execMcInj m w s
  | .eccCounterRead g k r => Sys2Proof.Machine.execEccCounterRead g k r s
  | .wcbCounterRead m wait r => Sys2Proof.Machine.execWcbCounterRead m wait r s
  | .segmentEncode p r code => Sys2Proof.Machine.execSegmentEncode p r code s
  | .ingEvrCtl w => Sys2Proof.Machine.execIngEvrCtl w s
  | .wvlGo w => Sys2Proof.Machine.execWvlGo w s
  | .loadCommit => Sys2Proof.Machine.execLoadCommit s
  | .wvlUnload n w => Sys2Proof.Machine.execWvlUnload n w s
  | .ethFrameReceive p t bytes good => Sys2Proof.Machine.execEthFrameReceive p t bytes good s
  | .eyeMeasure p height width => Sys2Proof.Machine.execEyeMeasure p height width s
  | .portLinkDown p lock fec ns => Sys2Proof.Machine.execPortLinkDown p lock fec ns s
  | .portLinkUp p => Sys2Proof.Machine.execPortLinkUp p s
  | .endpointCommit ix w => Sys2Proof.Machine.execEndpointCommit ix w s
  | .bind m w => Sys2Proof.Machine.execBind m w s
  | .unbind m w => Sys2Proof.Machine.execUnbind m w s
  | .rotationWrite n g w => Sys2Proof.Machine.execRotationWrite n g w s
  | .frameTransmit p t => Sys2Proof.Machine.execFrameTransmit p t s
  | .resultRecordWrite m => Sys2Proof.Machine.execResultRecordWrite m s
  | .ingStrRingRd m w => Sys2Proof.Machine.execIngStrRingRd m w s
  | .nicRxPost p tq w => Sys2Proof.Machine.execNicRxPost p tq w s
  | .nicTxPost p tq w => Sys2Proof.Machine.execNicTxPost p tq w s
  | .qskLinkEn l w => Sys2Proof.Machine.execQskLinkEn l w s
  | .trainingPhaseTimeout l => Sys2Proof.Machine.execTrainingPhaseTimeout l s
  | .hello l h => Sys2Proof.Machine.execHello l h s
  | .timeExchange l => Sys2Proof.Machine.execTimeExchange l s
  | .timeUnit l u t => Sys2Proof.Machine.execTimeUnit l u t s
  | .flitReceive l frame slot ok words => Sys2Proof.Machine.execFlitReceive l frame slot ok words s
  | .flitPresent l slot => Sys2Proof.Machine.execFlitPresent l slot s
  | .serviceUnit l u seen => Sys2Proof.Machine.execServiceUnit l u seen s
  | .bindNotice src p m => Sys2Proof.Machine.execBindNotice src p m s
  | .beatNotice src p k a fif m j => Sys2Proof.Machine.execBeatNotice src p k a fif m j s
  | .statusNotice src p fif j quality reason first done fold => Sys2Proof.Machine.execStatusNotice src p fif j quality reason first done fold s
  | .retallyNotice src p fif dR => Sys2Proof.Machine.execRetallyNotice src p fif dR s
  | .lossNotice src p kind coord => Sys2Proof.Machine.execLossNotice src p kind coord s
  | .linkLost l cause => Sys2Proof.Machine.execLinkLost l cause s
  | .slotFrameUnlocked err => Sys2Proof.Machine.execSlotFrameUnlocked err s
  | .partStatusTimeout p d => Sys2Proof.Machine.execPartStatusTimeout p d s
  | .qskRouteDefault w => Sys2Proof.Machine.execQskRouteDefault w s
  | .qskTopo w => Sys2Proof.Machine.execQskTopo w s
  | .idle c x => Sys2Proof.Machine.execIdle c x s
  | .weight c bytes => Sys2Proof.Machine.execWeight c bytes s
  | .ident c bytes => Sys2Proof.Machine.execIdent c bytes s
  | .result c bytes => Sys2Proof.Machine.execResult c bytes s
  | .event c bytes => Sys2Proof.Machine.execEvent c bytes s
  | .imageReq c bytes => Sys2Proof.Machine.execImageReq c bytes s
  | .barrierLost cause => Sys2Proof.Machine.execBarrierLost cause s
  | .barrierTimeSend => Sys2Proof.Machine.execBarrierTimeSend s
  | .time c bytes ticks => Sys2Proof.Machine.execTime c bytes ticks s
  | .identReq c bytes => Sys2Proof.Machine.execIdentReq c bytes s
  | .zeroReq c bytes => Sys2Proof.Machine.execZeroReq c bytes s
  | .tareReq c bytes => Sys2Proof.Machine.execTareReq c bytes s
  | .eventReq c bytes => Sys2Proof.Machine.execEventReq c bytes s
  | .imageOffer c bytes => Sys2Proof.Machine.execImageOffer c bytes s
  | .imageData c bytes => Sys2Proof.Machine.execImageData c bytes s
  | .bgwTxGo c w => Sys2Proof.Machine.execBgwTxGo c w s
  | .bgwSrcCfg n w => Sys2Proof.Machine.execBgwSrcCfg n w s
  | .bgwMrCtl w => Sys2Proof.Machine.execBgwMrCtl w s
  | .bgwKeyprogGo k w => Sys2Proof.Machine.execBgwKeyprogGo k w s
  | .bridgeConversion c sig sen ticks => Sys2Proof.Machine.execBridgeConversion c sig sen ticks s
  | .sample g node frame ticks => Sys2Proof.Machine.execSample g node frame ticks s
  | .sync g ticks => Sys2Proof.Machine.execSync g ticks s
  | .signHandover bytes => Sys2Proof.Machine.execSignHandover bytes s
  | .islandBoot => Sys2Proof.Machine.execIslandBoot s
  | .bootFailedIdent => Sys2Proof.Machine.execBootFailedIdent s
  | .islTimeStep x => Sys2Proof.Machine.execIslTimeStep x s
  | .solLrnCfg r w => Sys2Proof.Machine.execSolLrnCfg r w s
  | .labelUpdate errs => Sys2Proof.Machine.execLabelUpdate errs s
  | .solLrnSeed w => Sys2Proof.Machine.execSolLrnSeed w s
  | .faultRingWrite => Sys2Proof.Machine.execFaultRingWrite s
  | .fltCtlEn w => Sys2Proof.Machine.execFltCtlEn w s
  | .fltLastClr w => Sys2Proof.Machine.execFltLastClr w s
  | .fltLostRead n r => Sys2Proof.Machine.execFltLostRead n r s
  | .irqHoldoffExpiry d => Sys2Proof.Machine.execIrqHoldoffExpiry d s
  | .mgtHbRearm w => Sys2Proof.Machine.execMgtHbRearm w s
  | .pwrDomReq d w => Sys2Proof.Machine.execPwrDomReq d w s
  | .domainTransitionDone d => Sys2Proof.Machine.execDomainTransitionDone d s
  | .pwrSleep w => Sys2Proof.Machine.execPwrSleep w s
  | .dormantEntry => Sys2Proof.Machine.execDormantEntry s
  | .pwWakeN cycles => Sys2Proof.Machine.execPwWakeN cycles s
  | .referenceCheck count => Sys2Proof.Machine.execReferenceCheck count s
  | .wakingComplete => Sys2Proof.Machine.execWakingComplete s
  | .referenceLost => Sys2Proof.Machine.execReferenceLost s
  | .pwrClk d w => Sys2Proof.Machine.execPwrClk d w s
  | .dividerSwitch d => Sys2Proof.Machine.execDividerSwitch d s
  | .avsIteration d margin => Sys2Proof.Machine.execAvsIteration d margin s
  | .ldoOutOfRegulation d => Sys2Proof.Machine.execLdoOutOfRegulation d s
  | .pmAlert addr status => Sys2Proof.Machine.execPmAlert addr status s
  | .quadrantPllLost q => Sys2Proof.Machine.execQuadrantPllLost q s
  | .pwrQpllRelock q w => Sys2Proof.Machine.execPwrQpllRelock q w s
  | .qpllLocked q ok => Sys2Proof.Machine.execQpllLocked q ok s
  | .idleEntry c done => Sys2Proof.Machine.execIdleEntry c done s
  | .coreWakeDone c ns => Sys2Proof.Machine.execCoreWakeDone c ns s
  | .thermalSample ts => Sys2Proof.Machine.execThermalSample ts s
  | .throttleStage2 => Sys2Proof.Machine.execThrottleStage2 s
  | .throttleRelease => Sys2Proof.Machine.execThrottleRelease s
  | .overtempComparator sensor => Sys2Proof.Machine.execOvertempComparator sensor s
  | .mbxReqWr c w => Sys2Proof.Machine.execMbxReqWr c w s
  | .mgtMbxCtl c w => Sys2Proof.Machine.execMgtMbxCtl c w s
  | .mbxPing c => Sys2Proof.Machine.execMbxPing c s
  | .mbxVersion c => Sys2Proof.Machine.execMbxVersion c s
  | .mbxGetPolicy c => Sys2Proof.Machine.execMbxGetPolicy c s
  | .mbxSetPolicy c => Sys2Proof.Machine.execMbxSetPolicy c s
  | .mbxLoad c => Sys2Proof.Machine.execMbxLoad c s
  | .mbxUnload c => Sys2Proof.Machine.execMbxUnload c s
  | .mbxArm c => Sys2Proof.Machine.execMbxArm c s
  | .mbxStop c => Sys2Proof.Machine.execMbxStop c s
  | .mbxSeed c => Sys2Proof.Machine.execMbxSeed c s
  | .mbxFwStage c => Sys2Proof.Machine.execMbxFwStage c s
  | .mbxFwSvnCommit c => Sys2Proof.Machine.execMbxFwSvnCommit c s
  | .mbxDeviceReset c => Sys2Proof.Machine.execMbxDeviceReset c s
  | .mbxPortCfg c => Sys2Proof.Machine.execMbxPortCfg c s
  | .mbxTimeStatus c => Sys2Proof.Machine.execMbxTimeStatus c s
  | .recovery n => Sys2Proof.Machine.execRecovery n s
  | .gptpServo offset gm => Sys2Proof.Machine.execGptpServo offset gm s
  | .gptpSyncTimeout => Sys2Proof.Machine.execGptpSyncTimeout s
  | .mgtWdogKick w => Sys2Proof.Machine.execMgtWdogKick w s
  | .wdogExpire => Sys2Proof.Machine.execWdogExpire s
  | .mgtStwRestart w => Sys2Proof.Machine.execMgtStwRestart w s
  | .pcieReset => Sys2Proof.Machine.execPcieReset s
  | .pePerstN low => Sys2Proof.Machine.execPePerstN low s
  | .pcieRequest q seen => Sys2Proof.Machine.execPcieRequest q seen s
  | .mgtHartStart w => Sys2Proof.Machine.execMgtHartStart w s
  | .mgtHostDenyRead r => Sys2Proof.Machine.execMgtHostDenyRead r s
  | .mgtHcmEccRead r => Sys2Proof.Machine.execMgtHcmEccRead r s
  | .prbsErrRead k r => Sys2Proof.Machine.execPrbsErrRead k r s
  | .registerWrite x => Sys2Proof.Machine.execRegisterWrite x s
  | .powerOnReset => Sys2Proof.Machine.execPowerOnReset s
  | .pwResetN => Sys2Proof.Machine.execPwResetN s
  | .jtagReset => Sys2Proof.Machine.execJtagReset s
  | .resetRelease bootSrc debugEn => Sys2Proof.Machine.execResetRelease bootSrc debugEn s
  | .bootRomStart rom sram otp => Sys2Proof.Machine.execBootRomStart rom sram otp s
  | .mgtBootPcieGo w => Sys2Proof.Machine.execMgtBootPcieGo w s
  | .stewardStartSequence => Sys2Proof.Machine.execStewardStartSequence s
  | .ccBistGo c w => Sys2Proof.Machine.execCcBistGo c w s
  | .bistDone u pass => Sys2Proof.Machine.execBistDone u pass s
  | .solBistGo w => Sys2Proof.Machine.execSolBistGo w s
  | .mgtOtpRevoke w => Sys2Proof.Machine.execMgtOtpRevoke w s
  | .mgtHcmLock w => Sys2Proof.Machine.execMgtHcmLock w s
  | .loopbackWrite k w => Sys2Proof.Machine.execLoopbackWrite k w s
  | .mgtDevnum w => Sys2Proof.Machine.execMgtDevnum w s
  | .clockRecoveryLock l => Sys2Proof.Machine.execClockRecoveryLock l s
  | .codewordLock l => Sys2Proof.Machine.execCodewordLock l s
  | .slotFrameLock => Sys2Proof.Machine.execSlotFrameLock s
  | .plcaBeacon g => Sys2Proof.Machine.execPlcaBeacon g s
  | .reply g node frame ticks => Sys2Proof.Machine.execReply g node frame ticks s
  | .mtimecmpCompare h t => Sys2Proof.Machine.execMtimecmpCompare h t s

end Sys2Proof.Machine
end

