-- ==== Sys2Proof/Machine/Step.lean ====
section
/-!
DEFINITION. The step: the command at the front of the queue acts on the machine, with the rest of the queue waiting. With no
command waiting, time passes by one tick of the clock that drives the Almanac (DESIGN CHOICE, log entry 47).
-/

namespace Sys2Proof.Machine

/-- Replace the queue of waiting commands. -/
def State.setPending (s : State) (v : List Instr) : State := { s with pending := v }

/-- What time alone does: the Almanac takes one tick (R29, R37), and the gateway sends what is due (R438). -/
def State.tick (s : State) : State := (if s.alm.crystal then s.crystals 1 else s.ticks 1).barDrain

/-- One step. -/
def step (s : State) : Host.Outcome State Fault Refusal :=
  match s.pending with
  | [] => .next s.tick
  | c :: cs => exec c (s.setPending cs)

/-- The state with the command that a word spells at the front of its queue; no word spells one. -/
def State.withFetchWord (s : State) (nbits w : Nat) : State :=
  match decodeTableWord nbits w with
  | some c => s.setPending (c :: s.pending)
  | none => s

end Sys2Proof.Machine
end

