-- ==== Sys2Proof/Safety.lean ====
section
/-!
DEFINITION. The terms the statements use: when a register write takes effect, what a command leaves alone, stored data in its one
canonical form, steps that complete, and properties that steps keep.
-/

namespace Sys2Proof

/-- The value that a write gives a field that it covers. -/
def WriteReq.field (w : WriteReq) (f : Fld) : Nat := bits w.value.toNat f.lo f.w

end Sys2Proof

namespace Sys2Proof.Machine

/-! ### When a register write takes effect -/

/-- An agent may write the halves of a register that it covers (R501, R502, R546). -/
def granted (s : State) (a : Agent) (h : Half) (off : Nat) : Bool :=
  mayWrite s a off && (a == .steward || !touchesSteward off h)

/-- A register write takes effect: it is granted, and the register's domain holds state (R545). -/
def State.takes (s : State) (w : WriteReq) (off : Nat) : Bool := granted s w.agent w.half off && s.regLive off

/-- A register write that starts an action takes effect: its unit is ON as well (R545). -/
def State.takesAct (s : State) (w : WriteReq) (off : Nat) : Bool := s.takes w off && s.regActs off

/-- The pending store accepts a record of any class (R471). -/
def State.room (s : State) : Bool := decide (pendCount s.flt.pend < 96)

/-- A command completes with a next state of which `P` holds. -/
def Does (c : Instr) (s : State) (P : State → Prop) : Prop := ∃ t, exec c s = .next t ∧ P t

/-! ### What a command leaves alone -/

/-- Two fields that share no bit. -/
def Apart (f g : Fld) : Prop := f.off ≠ g.off ∨ f.lo + f.w ≤ g.lo ∨ g.lo + g.w ≤ f.lo

/-- Every register field that shares no bit with the listed ones is as before. -/
def SameRegs (fs : List Fld) (s t : State) : Prop := ∀ g : Fld, (∀ f ∈ fs, Apart f g) → t.getF g = s.getF g

/-- Nothing but registers and the answer to the agent has changed. -/
def OnlyRegs (s t : State) : Prop := t = (s.setRegs t.regs).setResp t.resp

/-- Nothing but registers, fault records and the answer to the agent has changed. -/
def OnlyRegsFaults (s t : State) : Prop := t = ((s.setRegs t.regs).setFlt t.flt).setResp t.resp

/-- One fault record has joined the pending records: its class, code, unit and DETAIL items (R465 to R471). -/
def Filed (s t : State) (cls code unit : Nat) (detail : List (Nat × Nat)) : Prop :=
  t.flt.pend.take s.flt.pend.length = s.flt.pend ∧
  (t.flt.pend.drop s.flt.pend.length).map (fun r => (r.cls, r.code, r.unit, r.detail)) =
    [(cls, code, unit, packDetail detail)]

/-- Every byte of memory reads as before. -/
def SameMem (s t : State) : Prop := ∀ a, t.rdByte a = s.rdByte a

/-- Every access that stores for a thread names a slot of a core of the device. -/
def State.storesNamed (s : State) : Prop := ∀ e ∈ s.reqs, ∀ c j, e.2.dest = .store c j → c < 32 ∧ j < 16

/-! ### Canonical forms and runs -/

/-- Memory stands in its canonical form (log entry 3). -/
def State.memOk (s : State) : Prop := Memory.wf s.mem = true

/-- The registers stand in their canonical form: offsets strictly rising, and none listed at its reset value. -/
def State.regsOk (s : State) : Prop := SMap.wf Reg.reset s.regs = true

/-- A step completes: it neither faults nor is refused. -/
def State.completes (s : State) : Prop := ∃ t, step s = .next t

/-- Every step keeps a property. -/
def Kept (P : State → Prop) : Prop := ∀ s t, P s → step s = .next t → P t

/-- The machine after some steps. -/
inductive Steps : State → State → Prop where
  | refl (s : State) : Steps s s
  | step {s t u : State} (h : Machine.step s = .next t) (r : Steps t u) : Steps s u

/-! ### Beats -/

/-- A beat of machine `n` has launched at instant `a` with lag `l` from `u`: its state, LAG and INDEX, the grid, the next scheduled
instant, and its bit of ALM_LATE when a forward step has passed it (R48, R51, R52, R56). -/
def Launched (n a l : Nat) (u t : State) : Prop :=
  t.bmState n = (if l = 0 then 2 else 3) ∧ t.getF (Reg.ALM_BM_STAT_LAG n) = min l (2 ^ 32 - 1) ∧
  t.getF (Reg.ALM_BM_INDEX n) = (u.beatIndex n + 1) % 2 ^ 64 ∧ (t.beat n).kTot = (u.beat n).kTot + 1 ∧
  (t.beat n).gNext = (u.beat n).gNext + u.getF (Reg.ALM_BM_PERIOD n) ∧ (t.beat n).rebase = false ∧
  (t.beat n).late = false ∧
  t.getF Reg.ALM_LATE_BEAT = (if (u.beat n).late then u.getF Reg.ALM_LATE_BEAT ||| 2 ^ n else u.getF Reg.ALM_LATE_BEAT) ∧
  (t.beat n).nNext = (if l = 0 then (t.beat n).gNext
    else a + max (u.getF (Reg.ALM_BM_FLOOR n))
      (u.getF (Reg.ALM_BM_PERIOD n) - min l (u.getF (Reg.ALM_BM_SHRINK_EFFECTIVE n))))

/-- Every core of pipeline `n` with a stage in its section has been given a wake for the beat, its offset after the launch at `a` less
its lead, in its place among the core's wakes by instant (R40, R43, R495). -/
def Woken (n a : Nat) (u t : State) : Prop :=
  (u.coresOf n).Nodup → ∀ c ∈ u.coresOf n,
    let off := u.getF (Reg.CC_WAKE_OFF c (u.getF (Reg.CC_CTX_STAT_ACTIVE c)))
    (t.core c).wakes =
      (if off = 0xFFFFFFFF then (u.core c).wakes
       else insWake (a + off - u.getF (Reg.PWR_CC_IDLE_LEAD c), a + off, u.beatIndex n) (u.core c).wakes)

/-- The registers that a launch within the lag limit writes; ALM_LATE when a forward step has passed the beat. -/
def launchRegs (s : State) (n : Nat) : List Fld :=
  [Reg.ALM_BM_STAT_STATE n, Reg.ALM_BM_STAT_LAG n, Reg.ALM_BM_INDEX n, Reg.ALM_BM_ORIGIN n, Reg.ING_STATE_IRQ] ++
    (if (s.beat n).late then [Reg.ALM_LATE_BEAT] else []) ++ (s.boundTo n).map Reg.ING_STR_STATE

/-! ### The fabric -/

/-- No frame in flight waits only for its words to leave the fabric (R27). -/
def State.noneDone (s : State) : Bool :=
  [0, 1, 2, 3].all (fun p => (s.pipe p).frames.all (fun f => !f.admitted || f.completion.isSome ||
    (s.pipe p).stages.any (fun g => !f.stagesDone.contains g.stage)))

/-- A word that a unit supplies, at an instant. -/
def unitWord (w : FabWord) (time : Nat) : QWord :=
  { data := w.data, tag := w.tag, mark := if w.mark then some { time := time } else none }

/-- A producer has made the next band of a row buffer `x`, of `n` bands a frame, in ring slot `j`: the band is valid, and the next
one follows it (R213). -/
def BandMade (x : RowBuf) (j n fif : Nat) (y : RowBuf) : Prop :=
  let r := SMap.get (fun _ => ({} : RingSlot)) y.slots j
  r.valid = true ∧ r.fif = fif ∧ r.band = x.band ∧ y.next = x.next + 1 ∧ y.band = (x.band + 1) % n ∧ y.fif = some fif ∧
  y.cur = none ∧ y.held = false

/-- The first departure of a stage of a frame from its schedule, under a hold of its outputs, is reported (R77, R114, Table 13-3; log entry
102). -/
def Departed (s t : State) (c p fif unit stage : Nat) : Prop :=
  match (s.pipe p).frame fif with
  | some f =>
    if f.departed.contains stage then t.flt = s.flt ∧ t.pipes = s.pipes
    else Filed s t 0 0x005 unit [(8, stage), (16, (s.core c).slot), (4, 2)]
  | none => t.flt = s.flt ∧ t.pipes = s.pipes

/-- The producer of a row buffer's next band is held: its ring slot is still in use (R213). -/
def BandHeld (s t : State) (c b p fif unit stage : Nat) : Prop :=
  t.rbuf c b = { s.rbuf c b with held := true } ∧ Departed s t c p fif unit stage ∧
  t = ((s.setRbufs t.rbufs).setPipes t.pipes).setFlt t.flt

/-! ### The micro-instructions of a tile and the instructions of a thread -/

/-- A micro-instruction of operation `op` issues on a tile: its core is ON, a firing is in progress, the body's next word is the
instruction's, the output queue has taken every word of the last one and is not held (R72, R73, R110, R180, R203). -/
def State.issuesTile (s : State) (op : Nat) (mi : TileInstr) (g : FiringSt) : Bool :=
  s.domOn mi.core && decide ((s.tile mi.core mi.tile).firing = some g) && decide ((s.tile mi.core mi.tile).outq.length ≤ 1) &&
    bodyIs op mi (s.bodyWord mi.core mi.tile g.pc) && !s.outStopped mi.core mi.tile

/-- Where the micro-instruction issues. -/
def fireAt (mi : TileInstr) (g : FiringSt) : FireAt := ⟨mi.core, mi.tile, g.slot, g.tag⟩

/-- The static registers among `cnt` registers from an operand specifier `n` (R181, Table 7-2). -/
def staticRegs (s : State) (f : FireAt) (n cnt : Nat) : List Fld :=
  ((List.range cnt).map (fun k => n + k)).filterMap (fun k =>
    if k < 56 then some ⟨(Reg.CC_CTX_ST f.c (s.ctx f.c) f.t (k / 2)).off, 32 * (k % 2), 32⟩ else none)

/-- A micro-instruction has issued: the firing goes on to the next one, or ends and frees its tag slot; its tile keeps its
queues and its other state, and every other tile all of it (R68, R72). -/
def Issued (mi : TileInstr) (g : FiringSt) (s t : State) : Prop :=
  (if g.pc < bits (s.tileCtl mi.core mi.tile) 0 4 then
    (t.tile mi.core mi.tile).firing = some { g with pc := g.pc + 1 } ∧
    (t.tile mi.core mi.tile).tags = (s.tile mi.core mi.tile).tags
  else (t.tile mi.core mi.tile).firing = none ∧ (t.tile mi.core mi.tile).tagAt g.slot = none) ∧
  (let x := t.tile mi.core mi.tile
   x = { s.tile mi.core mi.tile with dyn := x.dyn, tags := x.tags, outq := x.outq, firing := x.firing, acc := x.acc }) ∧
  ∀ (c : Fin 32) (k : Fin 256), c ≠ mi.core ∨ k ≠ mi.tile → t.tile c k = s.tile c k

/-- An element-wise operation: under its predicate DST takes the operation's result in every lane, saturated to the
element type, and SV is counted when a lane saturates; otherwise nothing is written (R183, R188, R198, R199). -/
def Elementwise (n : Nat) (op : TileInstr → Instr) (g : TileInstr → Int → Int → Int → Int) : Prop :=
  (∀ (s : State) (mi : TileInstr) (x : FiringSt), s.issuesTile n mi x = true →
    let f := fireAt mi x
    let a := lanesOf mi.ty (s.rdReg f mi.sa)
    let b := lanesOf mi.ty (s.srcB f mi)
    let k := lanesOf mi.ty (s.rdReg f mi.sc)
    let exact := (List.range (if mi.ty = .i32 then 1 else 4)).map (fun l => g mi (a.getD l 0) (b.getD l 0) (k.getD l 0))
    let sat := exact.map (clampI (tyLo mi.ty) (tyHi mi.ty))
    predWrites mi.pm (s.predicate f) = true →
    Does (op mi) s (fun t =>
      lanesOf mi.ty (t.rdReg f mi.dst) = sat ∧
      (∀ r, r < 64 → r ≠ mi.dst → t.rdReg f r = s.rdReg f r) ∧ Issued mi x s t ∧
      t.getF (Reg.CC_TALLY mi.core 13) = (s.getF (Reg.CC_TALLY mi.core 13) + b2n (decide (exact ≠ sat))) % 2 ^ 48 ∧
      SameRegs (Reg.CC_TALLY mi.core 13 :: staticRegs s f mi.dst 1) s t ∧
      t = ((s.setRegs t.regs).setTiles t.tiles).setPipes t.pipes)) ∧
  (∀ (s : State) (mi : TileInstr) (x : FiringSt), s.issuesTile n mi x = true →
    predWrites mi.pm (s.predicate (fireAt mi x)) = false →
    Does (op mi) s (fun t =>
      (∀ r, r < 64 → t.rdReg (fireAt mi x) r = s.rdReg (fireAt mi x) r) ∧ Issued mi x s t ∧ t = s.setTiles t.tiles))

/-- MAXX or MINX of 32-bit candidates within a part (R141, R197). -/
def Candidates (n : Nat) (op : TileInstr → Instr) (isMin : Bool) : Prop :=
  ∀ (s : State) (mi : TileInstr) (x : FiringSt), s.issuesTile n mi x = true → mi.ty = .i32 →
    let f := fireAt mi x
    let h := s.accHdr mi.core mi.tile
    let k := accSlotOf h f mi
    let a := s.accOf f k
    a.closed = false → h.fmt = 1 → h.carry = false → a.count + 1 < h.plen →
    Does (op mi) s (fun t =>
      let a' := t.accOf f k
      a'.count = a.count + 1 ∧ a'.closed = false ∧ Issued mi x s t ∧
      (∀ row, row < h.rows →
        let n := row * h.cols + a.count / 16 % h.cols
        let v := sint 32 (s.rdReg f (mi.sa + row))
        let i := (a.base + a.count) % 2 ^ 31
        (a'.cellOf n, a'.elemOf n) =
          (match a.elemOf n with
           | none => (v, some i)
           | some j =>
             if (if isMin then v < a.cellOf n else a.cellOf n < v) ∨ (v = a.cellOf n ∧ i < j) then (v, some i)
             else (a.cellOf n, some j))) ∧
      t = s.setTiles t.tiles)

/-- A vector instruction of CLS + 8 · OP `k`, with legal common fields, issues, and no error is seen: its core is ON, its slot READY,
and the word at the slot's PC is the instruction's (R241, R259). -/
def State.issuesVec (s : State) (k : Nat) (v : VecInstr) : Bool :=
  s.canIssue v && decide (v.ecc = .clean) && wellEncoded v && decide (s.nextInstr v.core v.slot = vecWord v k)

/-- Issuing wrote the thread's registers, its PC, which advanced by one, and its TSTAT flags, which are sticky; nothing
else (R241, R262). -/
def VecIssued (v : VecInstr) (s t : State) (thr : VThread) (fl : Nat) : Prop :=
  t.getF (Reg.CC_VT_SLOT_PC v.core v.slot) = (s.getF (Reg.CC_VT_SLOT_PC v.core v.slot) + 1) % 4096 ∧
  t.getF (Reg.CC_VT_SLOT_TSTAT v.core v.slot) = s.getF (Reg.CC_VT_SLOT_TSTAT v.core v.slot) ||| fl ∧
  SameRegs [Reg.CC_VT_SLOT_PC v.core v.slot, Reg.CC_VT_SLOT_TSTAT v.core v.slot] s t ∧
  t = (s.putThr v.core v.slot thr).setRegs t.regs

/-- Element `e` of a source register. -/
def srcEl (s : State) (v : VecInstr) (r e : Nat) : Nat := elemAt (fmtBits v.fmt) (vx s v r) e

/-- An operation that writes the elements of VD: each enabled element takes the operation's result, a disabled one keeps
its value or becomes 0 under MZ, and the enabled elements' flags join TSTAT (R260, R261, R262). -/
def VecElem (k : Nat) (op : VecInstr → Instr) (legal : VecInstr → Bool) (res : State → VecInstr → Nat → Flagged) : Prop :=
  ∀ (s : State) (v : VecInstr), s.issuesVec k v = true → legal v = true →
    Does (op v) s (fun t =>
      (∀ e, e < fmtCount v.fmt →
        srcEl t v v.vd e =
          if (enabled s v).toNat.testBit e then (res s v e).1 % 2 ^ fmtBits v.fmt
          else if v.mz then 0 else srcEl s v v.vd e) ∧
      VecIssued v s t ((s.thr v.core v.slot).wrVx v.vd (vx t v v.vd))
        (((List.range (fmtCount v.fmt)).filter (fun e => (enabled s v).toNat.testBit e)).foldl
          (fun fl e => fl ||| (res s v e).2) 0))

/-- An operation that writes the mask register VD, one bit per element; MK0 stays all ones (R260, Table 9-1). -/
def VecMask (k : Nat) (op : VecInstr → Instr) (legal : VecInstr → Bool) (res : State → VecInstr → Nat → Bool × Nat) : Prop :=
  ∀ (s : State) (v : VecInstr), s.issuesVec k v = true → legal v = true →
    Does (op v) s (fun t =>
      (∀ e, e < 64 →
        ((t.thr v.core v.slot).rdMk v.vd).toNat.testBit e =
          if v.vd.val = 0 then true
          else if e < fmtCount v.fmt ∧ (enabled s v).toNat.testBit e then (res s v e).1
          else if e < fmtCount v.fmt ∧ v.mz then false
          else ((s.thr v.core v.slot).rdMk v.vd).toNat.testBit e) ∧
      VecIssued v s t ((s.thr v.core v.slot).wrMk v.vd ((t.thr v.core v.slot).rdMk v.vd))
        (((List.range (fmtCount v.fmt)).filter (fun e => (enabled s v).toNat.testBit e)).foldl
          (fun fl e => fl ||| (res s v e).2) 0))

/-- An operation that writes scalar registers (SX0 ignores writes) and sets no flag. -/
def VecScalar (k : Nat) (op : VecInstr → Instr) (legal : VecInstr → Bool) (res : State → VecInstr → VThread → VThread) : Prop :=
  ∀ (s : State) (v : VecInstr), s.issuesVec k v = true → legal v = true →
    Does (op v) s (fun t => VecIssued v s t (res s v (s.thr v.core v.slot)) 0)

/-- The signed or unsigned integers of elements `e` of VA and VB. -/
def intA (s : State) (v : VecInstr) (e : Nat) : Int := elemInt v.fmt (srcEl s v v.va e)

def intB (s : State) (v : VecInstr) (e : Nat) : Int := elemInt v.fmt (srcEl s v v.vb e)

/-- An exact integer result wrapped, or saturated with SV when it leaves the format's range (R261). -/
def wrapped (v : VecInstr) (x : Int) : Flagged := (uint (fmtBits v.fmt) x, 0)

def saturated (v : VecInstr) (x : Int) : Flagged :=
  (uint (fmtBits v.fmt) (min (fmtHi v.fmt) (max (fmtLo v.fmt) x)),
    if fmtLo v.fmt ≤ x ∧ x ≤ fmtHi v.fmt then 0 else 16)

/-- FMT names an integer format, or a floating-point one. -/
def intFmt (v : VecInstr) : Bool := decide (v.fmt.val ≤ 3)

def fpFmt (v : VecInstr) : Bool := decide (4 ≤ v.fmt.val)

/-- The six comparison codes. -/
def relHolds (k : Nat) (lt eq gt : Prop) [Decidable lt] [Decidable eq] [Decidable gt] : Bool :=
  if k = 0 then decide eq else if k = 1 then !decide eq else if k = 2 then decide lt
  else if k = 3 then decide (lt ∨ eq) else if k = 4 then decide gt else decide (gt ∨ eq)

/-- The wait of the issuing thread. -/
def waitOf (s : State) (v : VecInstr) : ThreadWait := (s.thr v.core v.slot).wait

/-- The data of a load that is to arrive. -/
def loadVal : ThreadWait → W512
  | .load _ _ x _ => x
  | _ => 0#512

/-- An instruction took effect on its thread's registers, its PC and whatever `t` says of its slot; the registers listed
are the only ones written. -/
def ThreadOnly (v : VecInstr) (fs : List Fld) (s t : State) (thr : VThread) : Prop :=
  SameRegs (Reg.CC_VT_SLOT_PC v.core v.slot :: fs) s t ∧ t = (s.putThr v.core v.slot thr).setRegs t.regs

/-- The PC has advanced by one. -/
def PcNext (v : VecInstr) (s t : State) : Prop :=
  t.getF (Reg.CC_VT_SLOT_PC v.core v.slot) = (s.getF (Reg.CC_VT_SLOT_PC v.core v.slot) + 1) % 4096

/-- Memory reads as before outside the addresses of `p`. -/
def SameMemBut (p : Nat → Bool) (s t : State) : Prop := ∀ a, p a = false → t.rdByte a = s.rdByte a

/-- `n` bytes at a thread's 54-bit address lie in one core store of this device, aligned, its core holding its contents
and accessible at once, every word clean (R61, R64). -/
def State.ownStore (s : State) (a n : Nat) : Bool :=
  let d := a % 2 ^ 48
  let o := (d - 0x2000000000) % 0x1000000
  let c := (d - 0x2000000000) / 0x1000000
  decide (a / 2 ^ 48 = s.getF Reg.MGT_DEVNUM) && decide (0x2000000000 ≤ d ∧ d < 0x2020000000 ∧ o + n ≤ 0x400000) &&
    decide (a % n = 0) && s.domHolds c && decide (s.dom c ≠ 1) && decide (s.eccAt (storeKey c (o / 8 * 8)) = .clean)

/-- The key of the stored byte at a device address of a core store. -/
def ownKey (a : Nat) : Nat := a % 2 ^ 48

/-- A free thread has trapped: its slot is TRAPPED with the cause, and DEGRADED.0x801 names the thread, the PC of the
instruction and the cause (R242, R244, R259, Table 9-15). -/
def VecTrapped (v : VecInstr) (cause : Nat) (s t : State) : Prop :=
  t.getF (Reg.CC_VT_SLOT_STATE v.core v.slot) = 5 ∧ t.getF (Reg.CC_VT_SLOT_CAUSE v.core v.slot) = cause ∧
  Filed s t 1 0x801 (uThread v.core v.slot) [(16, s.getF (Reg.CC_VT_SLOT_PC v.core v.slot)), (4, cause)] ∧
  SameRegs [Reg.CC_VT_SLOT_STATE v.core v.slot, Reg.CC_VT_SLOT_CAUSE v.core v.slot] s t ∧
  t = ((s.onThr v.core v.slot (fun th => { th with wait := .none })).setRegs t.regs).setFlt t.flt

/-- The stores that a thread's next instruction waits for when a completion acts as if followed by FENCE ALL: those not visible yet, by
access (R248). -/
def fenceOf (s : State) (c j : Nat) : List Nat :=
  if s.storesOwed c j then
    (s.held.filter (fun h => h.data.isSome && decide ((s.reqOf h.id).dest = .store c j))).map (fun h => h.id)
  else (s.thr c j).fence

/-- No wait of a joined device has passed its deadline (R253, R256). -/
def State.farQuiet (s : State) : Bool := (s.sync.farBar ++ s.sync.farSend).all (fun w => !s.farPast w)

/-! ### Ports and descriptor rings -/

/-- `n` bytes of host-core memory below the staging area, its domain keeping its contents (R503, R535). -/
def State.hostRange (s : State) (a n : Nat) : Bool :=
  s.domHolds 37 && decide (0x3000000000 ≤ a ∧ a + n ≤ 0x3001C00000)

/-- A port takes a good frame for it: its link is up with no loopback or pattern set, and the frame's length is one that
Table 14-1 gives (R367, R541). -/
def State.hears (s : State) (p : Nat) (bytes : List Byte) : Bool :=
  s.flag (Reg.ETH_P_STAT_LINK_UP p) && !s.portLooped p && decide (60 ≤ bytes.length ∧ bytes.length ≤ 9596)

/-- A frame of 60 bytes or more that is no PAUSE frame and that no CAMERA entry claims (R367). -/
def State.forRing (s : State) (p : Nat) (tq : Bool) (bytes : List Byte) : Bool :=
  if tq then decide ((etherType bytes).1 = 0x88F7)
  else decide ((etherType bytes).1 ≠ 0x88F7 ∧ (etherType bytes).1 ≠ 0x8808) &&
    (udpOf bytes).all (fun d => (s.claimedBy p d).isNone)

/-- The descriptor of a ring in host-core memory, its buffer apart from it, both of them there (Table 20-3). -/
def State.ringDesc (s : State) (a : Nat) : Bool :=
  let d := s.rdBytes a 32
  let b := fieldLe d 0 8
  let n := fieldLe d 8 2
  decide (a % 32 = 0) && s.hostRange a 32 && s.hostRange b n && decide (b + n ≤ a ∨ a + 32 ≤ b)

/-! ### Frames of the barrier -/

/-- 64 bytes with a valid CRC, VERSION 1 and a TYPE (R428). -/
def goodFrame (ty : Nat) (bytes : List Byte) : Bool :=
  decide (bytes.length = 64 ∧ fieldLe bytes 0 1 = ty ∧ fieldLe bytes 1 1 = 1 ∧ fieldLe bytes 60 4 = crc32c (bytes.take 60))

/-- The gateway's link is up, its domain ON, and the LSEQ of a frame is the expected one of its channel (R428, R430). -/
def State.barExpects (s : State) (c : Nat) (bytes : List Byte) : Bool :=
  s.domOn 38 && s.flag Reg.BGW_STAT_UP && s.room &&
  decide (SMap.get (fun _ => none) s.bgw.expect c = some (fieldLe bytes 2 2))

/-- A frame of a type arrives in order on an island-to-host channel: what it does beside the expected LSEQ, which follows
it. -/
def BarrierFrame (op : Fin 2 → List Byte → Instr) (ty : Nat) (hyp : State → Fin 2 → List Byte → Prop)
    (post : List Byte → State → State → Prop) : Prop :=
  ∀ (s : State) (c : Fin 2) (bytes : List Byte), goodFrame ty bytes = true → toHost c ty = true →
    s.barExpects c bytes = true → hyp s c bytes →
    Does (op c bytes) s (fun t =>
      SMap.get (fun _ => none) t.bgw.expect c =
        some (if ty = 0 then fieldLe bytes 2 2 else (fieldLe bytes 2 2 + 1) % 65536) ∧ post bytes s t)

/-- A message frame joins the message ring, or the frames that wait for room there (R437). -/
def MessageFrame (op : Fin 2 → List Byte → Instr) (ty : Nat) : Prop :=
  BarrierFrame op ty
    (fun s _ _ => s.mrFull = false ∧ s.bgw.wait = [] ∧
      s.hostRange (s.getF Reg.BGW_MR_BASE + 64 * (s.getF Reg.BGW_MR_WR % 2 ^ s.getF Reg.BGW_MR_CTL_LOG2)) 64 = true)
    (fun bytes s t =>
      let a := s.getF Reg.BGW_MR_BASE + 64 * (s.getF Reg.BGW_MR_WR % 2 ^ s.getF Reg.BGW_MR_CTL_LOG2)
      t.rdBytes a 64 = bytes ∧ SameMemBut (fun x => decide (a ≤ x ∧ x < a + 64)) s t ∧
      t.getF Reg.BGW_MR_WR = (s.getF Reg.BGW_MR_WR + 1) % 2 ^ 32 ∧ SameRegs [Reg.BGW_MR_WR] s t ∧ t.flt = s.flt ∧
      t.bgw.wait = []) ∧
  BarrierFrame op ty (fun s _ _ => s.mrFull = true ∧ s.bgw.wait.length < 16)
    (fun bytes s t => t.bgw.wait = s.bgw.wait ++ [bytes] ∧ t = s.setBgw t.bgw) ∧
  BarrierFrame op ty (fun s _ _ => s.mrFull = true ∧ s.bgw.wait.length = 16)
    (fun bytes s t => t.bgw.wait = s.bgw.wait ∧
      Filed s t 1 0x507 (uBarrier 0) [(16, fieldLe bytes 2 2), (16, fieldLe bytes 2 2)] ∧ t = (s.setBgw t.bgw).setFlt t.flt)

/-- A frame whose CRC fails counts (R429); one of a TYPE that its channel does not carry, or of another VERSION, is reported, be the
link up or in training (Table 16-15). -/
def BadFrame (op : Fin 2 → List Byte → Instr) (ty : Nat) : Prop :=
  ∀ (s : State) (c : Fin 2) (bytes : List Byte), s.domOn 38 = true → s.room = true → bytes.length = 64 →
    (fieldLe bytes 60 4 ≠ crc32c (bytes.take 60) → SMap.get (fun _ => none) s.bgw.crcAt c = none →
      Does (op c bytes) s (fun t =>
        t.getF (Reg.BGW_CRC_ERR c) = (s.getF (Reg.BGW_CRC_ERR c) + 1) % 2 ^ 32 ∧
        Filed s t 0 0x501 (uBarrier c) [(16, t.getF (Reg.BGW_CRC_ERR c))] ∧
        SMap.get (fun _ => 0) t.bgw.good c = 0 ∧ SameRegs [Reg.BGW_CRC_ERR c] s t ∧
        t = ((s.setRegs t.regs).setBgw t.bgw).setFlt t.flt)) ∧
    (fieldLe bytes 60 4 = crc32c (bytes.take 60) → s.flag Reg.BGW_STAT_UP = false ∨ s.barExpects c bytes = true →
      fieldLe bytes 1 1 ≠ 1 ∨ toHost c (fieldLe bytes 0 1) = false →
      Does (op c bytes) s (fun t => Filed s t 1 0x50C (uBarrier c) [(8, fieldLe bytes 0 1)] ∧
        SMap.get (fun _ => 0) t.bgw.good c = 0 ∧ t = (s.setBgw t.bgw).setFlt t.flt)) ∧
    (goodFrame ty bytes = true → toHost c ty = true → s.flag Reg.BGW_STAT_UP = false →
      let g := min 16 (SMap.get (fun _ => 0) s.bgw.good c + 1)
      let up := g = 16 ∧ 16 ≤ SMap.get (fun _ => 0) s.bgw.good (1 - c.val)
      Does (op c bytes) s (fun t => SMap.get (fun _ => 0) t.bgw.good c = g ∧ t.flag Reg.BGW_STAT_UP = decide up ∧
        (up → Filed s t 0 0x50A (uBarrier 0) []) ∧ (¬ up → t.flt = s.flt) ∧ SameRegs [Reg.BGW_STAT_UP] s t ∧
        t = ((s.setRegs t.regs).setBgw t.bgw).setFlt t.flt))

/-! ### Reads that clear, and the block codec -/

/-- The whole register at an offset. -/
def wholeReg (off : Nat) : Fld := { off := off, lo := 0, w := 64 }

/-- The part of a field from bit 0 on that a read of some half of its register covers. -/
def halfFld (h : Half) (f : Fld) : Fld :=
  match h with
  | .both => f
  | .lo => { f with w := min f.w 32 }
  | .hi => { f with lo := 32, w := f.w - 32 }

/-- A read of a register answered with its value and cleared the field. -/
def ReadCleared (c : Instr) (r : ReadReq) (f : Fld) (s : State) : Prop :=
  Does c s (fun t => t.getF f = 0 ∧ t.resp = some { status := .ok, value := s.word f.off &&& halfMask r.half } ∧
    SameRegs [f] s t ∧ OnlyRegs s t)

/-- The element kinds and their K (Table 11-1). -/
def kindOk (kind k : Nat) : Prop := (kind = 0 ∧ k ≤ 4) ∨ (kind = 1 ∧ k ≤ 6) ∨ (kind = 2 ∧ k ≤ 15) ∨ (kind = 3 ∧ k = 0)

/-! ### Frames to the island -/

/-- A frame of a type arrives on a host-to-island channel (R429, R430, Table 16-7): it goes to island firmware, a gap in
LSEQ is counted, and frames that fail their CRC, or whose TYPE or VERSION the channel does not carry, are counted and
dropped. -/
def IslandFrame (op : Fin 2 → List Byte → Instr) (ty : Nat) : Prop :=
  (∀ (s : State) (c : Fin 2) (bytes : List Byte), goodFrame ty bytes = true → toIsland c ty = true → s.isl.run = .running →
    let e := SMap.get (fun _ => none) s.isl.expect c
    let gap := e.any (fun x => decide (x ≠ fieldLe bytes 2 2))
    Does (op c bytes) s (fun t =>
      t.isl.barRx = s.isl.barRx ++ [(c.val, bytes)] ∧
      SMap.get (fun _ => none) t.isl.expect c = some ((fieldLe bytes 2 2 + 1) % 65536) ∧
      t.isl.barGap = s.isl.barGap + (if gap then 1 else 0) ∧ t.isl.barErr = s.isl.barErr ∧ t.isl.barOdd = s.isl.barOdd ∧
      t = s.setIsl t.isl)) ∧
  (∀ (s : State) (c : Fin 2) (bytes : List Byte), bytes.length = 64 → s.isl.run ≠ .off →
    (fieldLe bytes 60 4 ≠ crc32c (bytes.take 60) → Does (op c bytes) s (fun t =>
      t = s.setIsl { s.isl with barErr := s.isl.barErr + 1, barIrq := true })) ∧
    (fieldLe bytes 60 4 = crc32c (bytes.take 60) →
      fieldLe bytes 1 1 ≠ 1 ∨ (fieldLe bytes 0 1 ≠ 0 ∧ toIsland c (fieldLe bytes 0 1) = false) →
      Does (op c bytes) s (fun t => t.isl.barOdd = s.isl.barOdd + 1 ∧ t.isl.barRx = s.isl.barRx ∧ t.isl.barIrq = true ∧
        t = s.setIsl t.isl))) ∧
  (∀ (s : State) (c : Fin 2) (bytes : List Byte), s.isl.run = .off → exec (op c bytes) s = .next s)

/-- The island's boot ROM found no image that verifies, and an IMAGE_OFFER that a bank can hold stands accepted. -/
def IslOffer.frame (o : IslOffer) : List Byte :=
  leBytes 2 o.req ++ leBytes 2 0 ++ leBytes 4 o.got ++ leBytes 4 (min 65520 (o.len - o.got))

/-! ### Loads and stores of a thread -/

/-- A load of core-store elements: the thread waits, and the data that will arrive hold the enabled elements read, the
others kept or zeroed under MZ (R243, R251, R260). -/
def VecLoad (k : Nat) (op : VecInstr → EccSeen → Instr) (legal : State → VecInstr → Bool) (els : VecInstr → List Nat)
    (addr : State → VecInstr → Nat → Nat) : Prop :=
  ∀ (s : State) (v : VecInstr), s.issuesVec k v = true → legal s v = true → s.reqOf s.nextReq = {} →
    let b := fmtBits v.fmt / 8
    let hit := fun (e : Nat) => (els v).contains e && (enabled s v).toNat.testBit e
    (∀ e, e < fmtCount v.fmt → hit e = true → s.ownStore (addr s v e) b = true) →
    Does (op v .clean) s (fun t =>
      t.slotState v.core v.slot = 2 ∧ PcNext v s t ∧
      waitOf t v = .load false v.vd (loadVal (waitOf t v)) false ∧
      (∀ e, e < fmtCount v.fmt →
        elemAt (8 * b) (loadVal (waitOf t v)) e =
          if hit e then ofLe (s.rdBytes (ownKey (addr s v e)) b)
          else if v.mz ∧ (enabled s v).toNat.testBit e = false then 0 else srcEl s v v.vd e) ∧
      SameMem s t ∧
      SameRegs [Reg.CC_VT_SLOT_PC v.core v.slot, Reg.CC_VT_SLOT_STATE v.core v.slot] s t ∧
      t = (((s.putThr v.core v.slot { s.thr v.core v.slot with wait := waitOf t v }).setRegs t.regs).setReqs t.reqs).setNextReq
        (s.nextReq + 1))

/-- A store of elements to core stores: the enabled elements' bytes, and no other byte, are written; where elements overlap
the later one stays (R243, R247, R260). -/
def VecStore (k : Nat) (op : VecInstr → Instr) (legal : State → VecInstr → Bool) (els : VecInstr → List Nat)
    (addr : State → VecInstr → Nat → Nat) : Prop :=
  ∀ (s : State) (v : VecInstr), s.issuesVec k v = true → legal s v = true → s.reqOf s.nextReq = {} →
    let b := fmtBits v.fmt / 8
    let hit := fun (e : Nat) => (els v).contains e && (enabled s v).toNat.testBit e
    let hits := (List.range (fmtCount v.fmt)).filter hit
    (∀ e ∈ hits, s.ownStore (addr s v e) b = true) →
    Does (op v) s (fun t =>
      PcNext v s t ∧
      (∀ e ∈ hits, (∀ e' ∈ hits, e < e' → addr s v e' ≠ addr s v e) →
        t.rdBytes (ownKey (addr s v e)) b = leBytes b (srcEl s v v.vd e)) ∧
      SameMemBut (fun a => hits.any (fun e => decide (ownKey (addr s v e) ≤ a ∧ a < ownKey (addr s v e) + b))) s t ∧
      SameRegs [Reg.CC_VT_SLOT_PC v.core v.slot] s t ∧
      t = ((((s.setRegs t.regs).setMem t.mem).setEcc t.ecc).setReqs t.reqs).setNextReq (s.nextReq + 1))

/-- An address of a thread: 64 bits, wrapping. -/
def addr64 (base : W64) (x : Int) : Nat := (base + BitVec.ofInt 64 x).toNat

/-- The bits of a word of an image that a register of a core's block keeps: those of its fields that are not reserved (R17). -/
def imageBits (off : Nat) (v : Nat) : W64 :=
  BitVec.ofNat 64 v &&& BitVec.ofNat 64 ((Reg.fields off).foldl (fun (m : Nat) f => m ||| (2 ^ f.w - 1) * 2 ^ f.lo) 0) &&&
    ~~~(BitVec.ofNat 64 (winReserved ((off - 0x1000000) % 0x100000)))

/-! ### The Weave loader -/

/-- The loader has raised a code: its record, LAST_CODE and, under IRQ_EN, the interrupt of the steward core (R315, Table
12-13). -/
def LoaderFault (s t : State) (cls code pipe : Nat) (detail : List (Nat × Nat)) : Prop :=
  Filed s t cls code (uLoader pipe) detail ∧ t.getF Reg.WVL_STATUS_LAST_CODE = code ∧
  (s.flag Reg.WVL_STATUS_IRQ_EN = true → SMap.get (fun _ => false) t.irq.stw 2 = true) ∧
  (s.flag Reg.WVL_STATUS_IRQ_EN = false → t.irq = s.irq)

/-- Every domain is ON, and every channel is active in a committed map and not lost. -/
def State.allServed (s : State) : Prop :=
  s.committed = true ∧ (∀ d, d < 57 → s.domOn d = true ∧ s.domHolds d = true) ∧
  ∀ g, g < 64 → g ∈ s.activeChans ∧ s.chanLost g = false

/-- What a load writes beside images lies in device memory: its filled segments, and the scale records of its pipeline. -/
def State.loadLands (s : State) (r : LoadJob) (raw : List WChunk) (x : WVar) (al : Alloc) : Prop :=
  let p := (s.commitClaim (s.peekN r.image r.len).1 (patched (s.getF Reg.MGT_DEVNUM) al r raw) x r al
    ((List.range (WVar.of raw r.variant).hdr.nsect).flatMap (fun sc => sectHops raw r.variant sc r.place r.rot))).pipe r.pipe
  (∀ g ∈ x.segs, g.init ≠ 2 → g.place ≠ 2 →
    ((al.segs.find? (fun e => e.1 == g.id)).map (fun e => e.2.1)).getD 0 + (g.size + 31) / 32 * 32 ≤ 0x2000000000) ∧
  ∀ m i, m < 64 → i < p.running.length → p.recAddr m i + 32 ≤ 0x2000000000

/-- Nothing stands in the way of the commit of a load: every domain is ON, every channel serves, no unload is due, the image is in
host-core memory with its chunks whole, its cores are not lost, and what it writes lies in device memory. -/
def State.loadsWell (s : State) (r : LoadJob) : Prop :=
  let raw := wChunks (s.peekN r.image r.len).1
  let al := allocate raw (WVar.of raw r.variant) r
  let x := WVar.of (patched (s.getF Reg.MGT_DEVNUM) al r raw) r.variant
  r.pipe < 4 ∧ r.place.length ≤ 32 ∧ (∀ n, n < 4 → (s.pipe n).unloadDue = false) ∧ s.allServed ∧ s.hostRange r.image r.len = true ∧
  (∀ c ∈ r.place, c < 32 ∧ bit1 (s.getF Reg.MGT_CORE_LOST) c = false) ∧
  (∀ c ∈ raw, c.off + c.len ≤ r.len ∧ crc32c c.data = c.crc) ∧ x.hdr.nsect ≤ 4 ∧ s.loadLands r raw x al

/-- A write that starts a load. -/
def State.goesNow (s : State) (w : WriteReq) : Bool :=
  s.takesAct w Reg.WVL_CTL_GO.off && wBit w Reg.WVL_CTL_GO && s.room

/-- The state after the loader's read of the load request, and after its read of the image (R315; what the memory system reports of the
words, R274, R289). -/
def State.atRequest (s : State) : State := s.meetN (s.getF Reg.WVL_REQ_ADDR / 32 * 32) 64

/-- The load request in memory, and the pipeline that it names. -/
def State.request (s : State) : LoadReq := LoadReq.ofBytes (s.peekN (s.getF Reg.WVL_REQ_ADDR / 32 * 32) 64).1

def State.requestPipe (s : State) : Nat :=
  (s.loadPipe s.request).getD (if s.request.pipe < 4 then s.request.pipe else 0)

def State.atImage (s : State) : State := s.atRequest.meetN s.atRequest.request.image s.atRequest.request.len

/-- What the checks of the image that a request names answer (R336). -/
def State.checked (s : State) : (Nat × List (Nat × Nat)) ⊕ LoadJob :=
  let r := s.atRequest.request
  s.atImage.checkImage (s.atImage.peekN r.image r.len).1 r s.atRequest.requestPipe

/-! ### Requests and returned words of a channel -/

/-- No request words wait at a channel's gateway. -/
def State.outside (s : State) (g : Nat) : Bool := (List.range 25).all (fun k => (s.gw (chanGate g) 1 k).words.isEmpty)

/-- A WRITE from outside may be performed at once: its controller buffers nothing, no earlier request of its circuit is pending, and no
frame in flight waits only for its words to leave the fabric. -/
def State.writeReady (s : State) (g req : Nat) : Bool :=
  s.outside g && (s.wcbOf (g / 16)).isEmpty && (s.wcbWaits (g / 16)).isEmpty && decide (s.reqOf s.nextReq = {}) && s.noneDone &&
    (s.chanReqs g).all (fun x => decide (x.req ≠ req ∧ x.stat = none ∧ x.wr ≠ some s.nextReq))

/-- The registers that a write of HBM can change: the count of writes that wait for an entry, and a spent injection (R284, R290). -/
def hbmWriteFields : List Fld := (List.range 4).flatMap (fun m => [Reg.MC_WCB_WAIT m, Reg.MC_INJ_ARM m])

/-- The four return words of a 32-byte word (R278). -/
def returnOf (g : Nat) (tag : Byte) (bs : List Byte) (mark : Bool) : List OutMsg :=
  [0, 1, 2, 3].map (fun k => .word 3 g 0 (BitVec.ofNat 64 (ofLe ((bs.drop (8 * k)).take 8))) tag mark)

/-- A read has been answered, word `i` of the request with `word i`: the request is gone, and the words are at the gateway's queue that
the request came by, or, for one from outside, have left. -/
def Returned (g : Nat) (r : ChanReq) (word : Nat → List Byte) (mark : Bool) (s t : State) : Prop :=
  t.chanReqs g = (s.chanReqs g).erase r ∧
  match r.code with
  | none => t.out = s.out ++ (List.range (r.len + 1)).flatMap (fun i => returnOf g r.tag (word i) mark) ∧
      t = (s.setOut t.out).setHbm t.hbm
  | some k =>
    (t.gw (chanGate g) 0 k).words = (s.gw (chanGate g) 0 k).words ++ (List.range (r.len + 1)).flatMap (fun i =>
      [0, 1, 2, 3].map (fun j => ({ data := BitVec.ofNat 64 (fieldLe (word i) (8 * j) 8), tag := r.tag,
                                    mark := if mark then some { time := s.now } else none, back := true } : QWord))) ∧
    t = (s.setGws t.gws).setHbm t.hbm

/-! ### Learning in the Store -/

/-- The state of a row's generator after `n` elements (R454). -/
def lfsrAt (g : Nat) : Nat → Nat
  | 0 => g
  | n + 1 =>
    let x := lfsrAt g n
    (x / 2) ^^^ (if x % 2 = 1 then 0x80200003 else 0)

/-- What R454 makes of the element with weight `w`, trace `t` and target `c` of a row, the generator standing at `g` for
it: the new weight, the new trace, whether the weight changed and whether it was clamped. -/
def lrnElem (sign : Int) (k theta g : Nat) (w t c : Int) : Int × Int × Bool × Bool :=
  let d := sign * (c - w)
  let u : Int := if k ≤ 8 then d * ((2 ^ (8 - k) : Nat) : Int)
    else
      let m : Nat := 2 ^ (k - 8)
      d / (m : Int) + (if ((g % m : Nat) : Int) < d % (m : Int) then 1 else 0)
  let v := t + u
  if v.natAbs < theta then (w, v, false, false)
  else
    let n := v.tdiv 256
    let w3 := min 127 (max (-128) (w + n))
    (w3, v - 256 * n, decide (w3 ≠ w), decide (w3 ≠ w + n))

/-- Counts over the elements of a row. -/
def lrnCount (f : Nat → Bool) : Nat := ((List.range 256).filter f).length

/-- The pending label: where it stands, its 32 bytes, and the cache entry that it names (R449, R451). -/
def State.labelAt (s : State) : Nat := s.getF Reg.SOL_LRN_LBASE + 32 * (s.getF Reg.SOL_LRN_LRD % 2 ^ s.getF Reg.SOL_LRN_LLOG2)

def State.label (s : State) : List Byte := s.rdBytes s.labelAt 32

def State.labelEntry (s : State) : Nat := s.cacheAddr (fieldLe s.label 0 2) (fieldLe s.label 2 2)

/-- A label is pending, its unit on and its trace memory clean, and label, cache entry and rows lie in host-core memory,
the label apart from its rows (R446, R451). -/
def State.labelReady (s : State) : Bool :=
  let pos := fieldLe s.label 4 2
  let neg := fieldLe s.label 6 2
  let apart := fun (r : Nat) => decide (s.labelAt + 32 ≤ s.rowAddr r ∨ s.rowAddr r + 256 ≤ s.labelAt) &&
    s.hostRange (s.rowAddr r) 256 && decide (s.rowAddr r % 32 = 0)
  s.flag Reg.SOL_LRN_CFG_EN && s.domOn 32 && !s.sol.lost && decide (s.getF Reg.SOL_LRN_LRD ≠ s.getF Reg.SOL_LRN_LWR) &&
  s.hostRange s.labelAt 32 && decide (s.labelAt % 32 = 0) && s.hostRange s.labelEntry 288 && decide (s.labelEntry % 32 = 0) &&
  apart pos && (decide (neg = 0xFFFF) || apart neg) && decide (s.learn.tecc = []) && s.room

/-- The status that the checks of R452 give a label; 1 when it is applied. -/
def State.labelStatus (s : State) : Nat :=
  let lab := s.label
  let pos := fieldLe lab 4 2
  let neg := fieldLe lab 6 2
  let two := neg ≠ 0xFFFF
  let rows := s.getF Reg.SOL_LRN_ROWS
  let head := s.rdBytes s.labelEntry 32
  if rows ≤ pos ∨ (two ∧ rows ≤ neg) ∨ fieldLe lab 9 1 ≠ 0 ∨ fieldLe lab 14 2 ≠ 0 ∨ fieldLe lab 24 8 ≠ 0 then 3
  else if neg = pos then 4
  else if fieldLe head 4 1 ≠ 1 ∨ head.take 4 ≠ lab.take 4 then 2
  else if s.gen pos = 0 ∨ (two ∧ s.gen neg = 0) then 6
  else 1

/-- The label has been written back with a status and counts, and LRD has advanced (R451). -/
def LabelDone (s t : State) (status commits clamps : Nat) : Prop :=
  let b := t.rdBytes s.labelAt 32
  b.take 8 = s.label.take 8 ∧ fieldLe b 8 1 = status ∧ fieldLe b 10 2 = commits ∧ fieldLe b 12 2 = clamps ∧
  fieldLe b 16 8 = s.now % 2 ^ 64 ∧ t.getF Reg.SOL_LRN_LRD = (s.getF Reg.SOL_LRN_LRD + 1) % 2 ^ 32 ∧
  SameRegs [Reg.SOL_LRN_LRD] s t

/-! ### Power and clocks -/

/-- The states that Table 19-1 lists for a domain: 0 OFF, 1 RETAIN, 2 GATED, 3 ON. -/
def statesOf (d : Nat) : List Nat :=
  if d ≤ 32 then [0, 1, 2, 3] else if d ≤ 37 then [0, 1, 3] else if d = 38 then [1, 3] else if d ≤ 42 then [0, 3]
  else if d ≤ 46 then [0, 1, 3] else [0, 3]

/-- The causes of Table 19-2 that a domain request meets, in the order of the table (R485). -/
def State.requestCauses (s : State) (d v : Nat) : List Nat :=
  let users := (List.range 57).any (fun x => attachedQuad x == some (d - 39) && s.domHolds x)
  let quadOff := (attachedQuad d).any (fun q => !s.domOn (39 + q))
  ([(0, s.fused d), (3, !(statesOf d).contains v), (4, decide (v = 0 ∨ v = 2) && s.heldByPipe d),
    (6, (decide (39 ≤ d ∧ d ≤ 42 ∧ v ≠ 3) && s.domOn d && users) || (decide (v ≠ 0 ∧ s.dom d = 0) && quadOff)),
    (7, (s.transOf d).isSome || decide (s.pwr.dev ≠ .active) || s.pwr.sleeping ||
      (decide (d < 32 ∧ s.coreMove d ≠ 0) && !decide (s.coreMove d = 1 ∧ v = 3))),
    (8, decide (d = 38 ∧ v = 1))] : List (Nat × Bool)).filterMap (fun e => if e.2 then some e.1 else none)

/-- A request was refused: CORRECTED.0x601 with the domain, the value written and a cause, and nothing else (R485). -/
def Refused601 (s t : State) (d off v cause : Nat) : Prop :=
  Filed s t 0 0x601 (uDom d) [(26, off), (32, v), (4, cause)] ∧ t = (s.setFlt t.flt).setResp t.resp

/-- Every domain but the listed ones is as before. -/
def SameDoms (ds : List Nat) (s t : State) : Prop := ∀ x, x < 57 → x ∉ ds → t.dom x = s.dom x

/-- The causes of Table 19-2 that a divider request meets (R485, R489, R494). -/
def State.clockCauses (s : State) (d n : Nat) : List Nat :=
  ([(0, s.fused d), (1, decide (179200 < s.getF (clkFloor d) * n)),
    (5, decide (n < 112 ∨ 448 < n ∨ s.getF (clkFmax d) * n < 179200) || (s.debugMode && decide (n < 224))),
    (7, (s.transOf d).isSome || decide (d < 32 ∧ s.coreMove d ≠ 0) || decide (s.pwr.dev ≠ .active))] : List (Nat × Bool)).filterMap
      (fun e => if e.2 then some e.1 else none)

/-- The least divider that a throttle stage leaves a unit (R498): the largest whose clock is not below the floor at stage
1, 448 without a floor or at stage 2. -/
def IsCap (stage floor n : Nat) : Prop :=
  if stage = 0 then n = 0
  else if stage = 1 ∧ floor ≠ 0 then n ≤ 448 ∧ floor * n ≤ 179200 ∧ (n < 448 → 179200 < floor * (n + 1))
  else n = 448

/-- The fused minimum voltage of a domain at a divider, within the LDO's range (R492); the reset value of VMIN at the reset divider (log
entry 32). -/
def vFused (d n : Nat) : Nat := if n = 128 then 600 else min 850 (max 600 (Config.vMin d n))

/-- The divider and the voltage follow a wanted divider `n` (R490, R498): the divider at once when it falls or the LDO does
not regulate, else after the LDO has settled. -/
def Retuned (s t : State) (d n : Nat) : Prop :=
  if n < s.getF (clkEff d) ∧ 2 ≤ s.dom d then
    t.getF (clkEff d) = s.getF (clkEff d) ∧ SMap.get (fun _ => none) t.pwr.divWait d = some n ∧
    t.getF (vTarget d) = max (vFused d n) (if s.flag (avsEn d) then min 850 (max 600 (Config.vStart d n)) else s.getF (vSet d))
  else t.getF (clkEff d) = n ∧ SMap.get (fun _ => none) t.pwr.divWait d = none ∧
    t.getF (vTarget d) = (if n ≠ s.getF (clkEff d) ∧ 2 ≤ s.dom d then max (vFused d n) (s.getF (vTarget d)) else s.getF (vTarget d)) ∧
    t.getF (vMinF d) = if n = s.getF (clkEff d) then s.getF (vMinF d) else vFused d n

/-- The device has tripped (R499): PW_TRIP_N low, OSC_EN low, every domain OFF, and no record pending but the copy in
FLT_LAST_DEVICE. -/
def Tripped (t : State) : Prop :=
  t.pwr.dev = .tripped ∧ t.pwr.tripLow = true ∧ t.pwr.oscEn = false ∧ (∀ d, d < 57 → t.dom d = 0) ∧ t.flt.pend = [] ∧
  (∀ n, n < 4 → (t.pipe n).frames = []) ∧ bits (t.getF (Reg.FLT_LAST_DEVICE 0)) 16 16 = 0x604

/-- A record with these items has been raised. -/
def Raised (s t : State) (cls code unit : Nat) (detail : List (Nat × Nat)) : Prop :=
  (t.flt.pend.drop s.flt.pend.length).any
    (fun r => decide ((r.cls, r.code, r.unit, r.detail) = (cls, code, unit, packDetail detail))) = true

/-! ### Links -/

/-- The route fields of all devices. -/
def routeFields : List Fld := (List.range 64).flatMap (fun d => [Reg.QSK_ROUTE_LINK d, Reg.QSK_ROUTE_VALID d])

/-- The route of every device of the system is the default next link (R401). -/
def State.routesDefault (s t : State) : Prop :=
  ∀ d, d < 64 → s.devPresent d = true → t.getF (Reg.QSK_ROUTE_LINK d) = s.nextLink d ∧ t.getF (Reg.QSK_ROUTE_VALID d) = 1

/-- A field holds the mean of `a / b`, rounded to either side of the exact quotient; exact when it is an integer. -/
def meanIn (t : State) (f : Fld) (a : Int) (b : Nat) : Prop :=
  t.getF f = uint f.w (a / (b : Int)) ∨ (a % (b : Int) ≠ 0 ∧ t.getF f = uint f.w (a / (b : Int) + 1))

/-- The unit field of a link's records. -/
def State.linkUnit (s : State) (l : Nat) : Nat := uLink l (s.qlink l).peer

/-- No pipeline uses a link, whatever its state. -/
def State.linkFree (s : State) (l : Nat) : Bool := [0, 1, 2, 3].all (fun n => !(s.loaded n && (s.pipe n).links.contains l))

/-! ### Messages -/

/-- A message as the queue unit forms it: SOURCE, zeros, the time of enqueuing and the payload (Table 9-4). -/
def message (source time : Nat) (payload : List Byte) : List Byte :=
  leBytes 8 source ++ leBytes 8 time ++ payload

/-! ### Conversions, reductions and issue of the vector engine -/

/-- Where the 16 elements of a conversion stand in a register of format `fmt`: half `h` of 32 elements. -/
def convBase (fmt h : Nat) : Nat := if fmtCount fmt = 32 then 16 * h else 0

/-- A conversion maps 16 elements from format FMT to the format of IMM[2:0]; other elements of VD are unchanged (R263). -/
def VecConvert (k : Nat) (op : VecInstr → Instr) (legal : Nat → Nat → Bool) (res : Nat → Nat → Nat → Flagged) : Prop :=
  ∀ (s : State) (v : VecInstr), s.issuesVec k v = true → legal v.fmt (v.imm.toNat % 8) = true →
    let d := v.imm.toNat % 8
    let x := fun (i : Nat) => res v.fmt d (srcEl s v v.va (convBase v.fmt (v.imm.toNat / 8 % 2) + i))
    let db := convBase d (v.imm.toNat / 16 % 2)
    Does (op v) s (fun t =>
      (∀ e, e < fmtCount d →
        elemAt (fmtBits d) (vx t v v.vd) e =
          if e < db ∨ db + 16 ≤ e then elemAt (fmtBits d) (vx s v v.vd) e
          else if (enabled s v).toNat.testBit e then (x (e - db)).1 % 2 ^ fmtBits d
          else if v.mz then 0 else elemAt (fmtBits d) (vx s v v.vd) e) ∧
      VecIssued v s t ((s.thr v.core v.slot).wrVx v.vd (vx t v v.vd))
        (((List.range 16).filter (fun i => (enabled s v).toNat.testBit (db + i))).foldl (fun fl i => fl ||| (x i).2) 0))

/-- Elements of VA, VB and VC as operands of a floating-point operation. -/
def VecFp (k : Nat) (op : VecInstr → Instr) (f : Fmt → Nat → Nat → Nat → Flagged) : Prop :=
  VecElem k op fpFmt (fun s v e => f (fmtOf v.fmt) (srcEl s v v.va e) (srcEl s v v.vb e) (srcEl s v v.vc e))

/-- Every enabled element of VA with its number, in order. -/
def elsOf (s : State) (v : VecInstr) : List (Nat × Nat) :=
  ((List.range (fmtCount v.fmt)).filter (fun e => (enabled s v).toNat.testBit e)).map (fun e => (e, srcEl s v v.va e))

/-- One level of a pairwise tree. -/
def pairUp (f : Nat → Nat → Nat) : List Nat → List Nat
  | a :: b :: xs => f a b :: pairUp f xs
  | xs => xs

/-- The best of some numbered elements under an order, the lowest number of equals. -/
def IsBest (l : List (Nat × Nat)) (below : Nat → Nat → Bool) (e x : Nat) : Prop :=
  (e, x) ∈ l ∧ ∀ p ∈ l, below x p.2 = false ∧ (below p.2 x = false → e ≤ p.1)

/-- RMAX and RMIN. -/
def VecBest (k : Nat) (op : VecInstr → Instr) (below : Int → Int → Bool) : Prop :=
  ∀ (s : State) (v : VecInstr), s.issuesVec k v = true → intFmt v = true →
    let th := s.thr v.core v.slot
    (elsOf s v = [] → Does (op v) s (fun t => VecIssued v s t ((th.wrSx v.vd 0).wrSx ((v.vd + 1) % 32) (BitVec.allOnes 64)) 0)) ∧
    (∀ e x, IsBest (elsOf s v) (fun a b => below (elemInt v.fmt a) (elemInt v.fmt b)) e x →
      Does (op v) s (fun t =>
        VecIssued v s t ((th.wrSx v.vd (BitVec.ofInt 64 (elemInt v.fmt x))).wrSx ((v.vd + 1) % 32) (BitVec.ofNat 64 e)) 0))

/-- FRMAX and FRMIN. -/
def VecFpBest (k : Nat) (op : VecInstr → Instr) (below : Fmt → Nat → Nat → Bool) : Prop :=
  ∀ (s : State) (v : VecInstr), s.issuesVec k v = true → fpFmt v = true →
    let f := fmtOf v.fmt
    let num := (elsOf s v).filter (fun p => !f.isNan p.2)
    let fl := if (elsOf s v).any (fun p => f.isSnan p.2) then 1 else 0
    (num = [] → Does (op v) s (fun t =>
      srcEl t v v.vd 0 = f.qnan ∧ srcEl t v v.vd 1 = 2 ^ fmtBits v.fmt - 1 ∧
      (∀ e, 2 ≤ e → e < fmtCount v.fmt → srcEl t v v.vd e = srcEl s v v.vd e) ∧
      VecIssued v s t ((s.thr v.core v.slot).wrVx v.vd (vx t v v.vd)) fl)) ∧
    (∀ e x, IsBest num (fun a b => below f a b) e x → Does (op v) s (fun t =>
      srcEl t v v.vd 0 = x ∧ srcEl t v v.vd 1 = e ∧
      (∀ k, 2 ≤ k → k < fmtCount v.fmt → srcEl t v v.vd k = srcEl s v v.vd k) ∧
      VecIssued v s t ((s.thr v.core v.slot).wrVx v.vd (vx t v v.vd)) fl))

/-- How every instruction of a thread issues: not at all unless its core is ON, its slot READY, the next instruction the command's, and
`now` holds; an uncorrectable error traps with cause 3, a reserved encoding with cause 0, and so does a next instruction with reserved
CLS and OP, whatever command comes. A free thread's trap is DEGRADED.0x801 (R240 to R242, R259). -/
def VecIssueWhen (k : Nat) (op : VecInstr → Instr) (now : State → VecInstr → Bool) (legal : VecInstr → Bool) : Prop :=
  (∀ (s : State) (v : VecInstr), s.canIssue v = false ∨ now s v = false → exec (op v) s = .next s) ∧
  (∀ (s : State) (v : VecInstr), s.canIssue v = true → now s v = true → s.nextInstr v.core v.slot ≠ vecWord v k →
    (reservedOp (s.nextInstr v.core v.slot) = false → exec (op v) s = .next s) ∧
    (reservedOp (s.nextInstr v.core v.slot) = true → s.flag (Reg.CC_VT_SLOT_STAGE v.core v.slot) = false → s.room = true →
      Does (op v) s (fun t => VecTrapped v 0 s t))) ∧
  (∀ (s : State) (v : VecInstr), s.canIssue v = true → now s v = true → s.nextInstr v.core v.slot = vecWord v k →
    s.flag (Reg.CC_VT_SLOT_STAGE v.core v.slot) = false → s.room = true →
    v.ecc = .double ∨ (v.ecc = .clean ∧ (wellEncoded v = false ∨ legal v = false)) →
    let cause := if v.ecc = .double then 3 else 0
    Does (op v) s (fun t => VecTrapped v cause s t))

def VecIssue (k : Nat) (op : VecInstr → Instr) (legal : VecInstr → Bool) : Prop := VecIssueWhen k op (fun _ _ => true) legal

/-- The stores of the issuing thread are visible (R246, R248). -/
def storesDone (s : State) (v : VecInstr) : Bool := !s.storesOwed v.core v.slot

/-- A BAR issues under its own command, of operation `op`, or of the reserved operation 3, and one that arrives once the thread's
stores are visible (R248, R253). -/
def barNow (op : Nat) (s : State) (v : VecInstr) : Bool :=
  let o := v.imm.toNat % 4
  decide (o = op ∨ o = 3) && (decide (o = 1) || storesDone s v)

/-! ### Resets and boot -/

/-- What a device reset keeps and what it returns to its reset state (R528); `cause` is the bit of MGT_RESET_CAUSE. -/
def DeviceReset (s t : State) (cause : Nat) : Prop :=
  t.pwr.dev = .reset ∧ t.pwr.oscEn = false ∧ t.pwr.tripLow = false ∧ t.getF Reg.MGT_RESET_CAUSE = 2 ^ cause ∧
  t.alm.alm = s.alm.alm ∧ t.alm.crystal = true ∧ t.getF Reg.ALM_AON_PERIOD = s.getF Reg.ALM_AON_PERIOD ∧
  (∀ i, i < 4 → t.getF (Reg.FLT_LAST_DEVICE i) = s.getF (Reg.FLT_LAST_DEVICE i)) ∧
  t.mem = [] ∧ t.flt.pend = [] ∧ t.pipes = [] ∧ t.streams = [] ∧ t.isl = s.isl ∧ t.otp = s.otp ∧ t.stw = { nor := s.stw.nor } ∧
  (∀ m, m < 4 → t.getF (Reg.MC_CH_MAP_ACTIVE m) = Reg.reset (Reg.MC_CH_MAP_ACTIVE m).off) ∧
  (∀ d, d < 57 → t.dom d = if d = 38 then 3 else 0)

/-- The image that a bank of the boot flash holds, and whether the boot ROM starts it (R521, R533, R535). -/
def State.bankImage (s : State) (b : Nat) : List Byte :=
  s.norBytes (b * 0x400000) (176 + fieldLe (s.norBytes (b * 0x400000) 32) 12 4)

def State.bankBoots (s : State) (b : Nat) : Bool :=
  imageHead (s.norBytes (b * 0x400000) 32) && s.imageBoots (s.bankImage b)

/-- An image has been started (R535): the staging area is locked, the code stands in SRAM, the host side has no grant, and
PHASE reads 0x08 with the bank. -/
def Started (t : State) (bank : Nat) (im : List Byte) : Prop :=
  t.stw.run = .firmware ∧ t.getF Reg.MGT_BOOT_STAT_PHASE = 0x08 ∧ t.getF Reg.MGT_BOOT_STAT_BANK = bank ∧
  t.getF Reg.MGT_HCM_LOCK = 1 ∧ t.getF Reg.MGT_HOST_WMASK = 0 ∧ t.stw.version = fieldLe im 4 4 ∧ t.stw.svn = fieldLe im 8 4 ∧
  t.stw.entry = fieldLe im 16 4 ∧ t.stw.params = [] ∧
  ∀ i, i < codeLen im → SMap.get (fun _ => 0#8) t.stw.sram i = im.getD (32 + i) 0#8

/-- Domains have been requested ON: each is ON or on its way, except those whose request is refused. -/
def TurningOn (s t : State) (ds : List Nat) : Prop :=
  ∀ d ∈ ds, t.dom d = s.dom d ∧ (s.dom d = 3 ∨ t.transOf d = some 3 ∨ s.requestCauses d 3 ≠ [])

/-- What a PCIe reset does (R510). -/
def PcieReset (s t : State) : Prop :=
  (∀ w, w < 8 → t.getF (Reg.PCI_WIN_EN w) = 0 ∧ t.getF (Reg.PCI_WIN_BASE w) = 0) ∧ t.stw.msix = [] ∧
  t.getF (Reg.MGT_MBX_CTL_EN 1) = 0 ∧ t.mbxJob 1 = none ∧
  (∀ i, i < 93 → t.getF (Reg.MGT_IRQ_ROUTE_DEST (i + 1)) =
    if s.getF (Reg.MGT_IRQ_ROUTE_DEST (i + 1)) = 1 then 2 else s.getF (Reg.MGT_IRQ_ROUTE_DEST (i + 1))) ∧
  t.pipes = s.pipes ∧ t.streams = s.streams ∧ t.flt = s.flt ∧ SameMem s t

/-! ### The mailbox -/

/-- Where the next response of a channel goes (R511, R513). -/
def State.answerAt (s : State) (c : Nat) : Nat :=
  s.getF (Reg.MGT_MBX_RSPBASE c) + 64 * (s.getF (Reg.MGT_MBX_RSP_WR c) % 2 ^ s.getF (Reg.MGT_MBX_CTL_LOG2 c))

/-- The next response of a channel goes to host-core memory. -/
def State.answersIn (s : State) (c : Nat) : Bool :=
  s.hostRange (s.answerAt c) 64 && decide (s.getF (Reg.MGT_MBX_RSPBASE c) % 64 = 0)

/-- Steward firmware can take up a request of a channel now: services are ready, a request waits, the response ring has room, in
host-core memory once firmware has read the request, and it is the channel's turn (R513). -/
def State.mbxServed (s : State) (c : Nat) : Bool :=
  s.serving && s.mbxWaits c && s.mbxRoom c && s.mbxTurn c && (s.meetHead c).answersIn c

/-- Steward firmware can go on with the request of a channel that it works on: what it has read of it stands. -/
def State.mbxGoesOn (s : State) (c : Nat) : Bool := s.serving && s.mbxWaits c && s.mbxRoom c && s.answersIn c

/-- The request that it takes is well formed and asks for operation `op` (Table 20-6). -/
def State.mbxAsks (s : State) (c op : Nat) : Bool :=
  let q := s.mbxHead c
  s.mbxServed c && (s.mbxJob c).isNone && decide (fieldLe q 60 4 = crc32c (q.take 60)) && decide (fieldLe q 3 1 < 2) &&
    decide (fieldLe q 4 4 = 0) && decide (fieldLe q 56 4 = 0) && decide (fieldLe q 2 1 = op)

/-- An entry stands in the response ring: its bytes 0 to 55, zeros and the CRC (Table 20-6). -/
def Entry (t : State) (a : Nat) (head : List Byte) : Prop :=
  t.rdBytes a 56 = (head ++ List.replicate 56 (0#8)).take 56 ∧ fieldLe (t.rdBytes a 64) 56 4 = 0 ∧
  fieldLe (t.rdBytes a 64) 60 4 = crc32c (t.rdBytes a 60)

/-- From state `u` the request at REQ_RD has been answered with a status, a fault code and a result, and REQ_RD passed it (R513). -/
def AnsweredFrom (u t : State) (c status code : Nat) (result : List Byte) : Prop :=
  Entry t (u.answerAt c) ((u.mbxHead c).take 3 ++ leBytes 1 status ++ leBytes 4 code ++ result) ∧
  t.getF (Reg.MGT_MBX_RSP_WR c) = (u.getF (Reg.MGT_MBX_RSP_WR c) + 1) % 2 ^ 32 ∧
  t.getF (Reg.MGT_MBX_REQ_RD c) = (u.getF (Reg.MGT_MBX_REQ_RD c) + 1) % 2 ^ 32 ∧ t.mbxJob c = none ∧ t.stw.turn = c

/-- An answer that leaves everything else alone. -/
def OnlyAnsweredFrom (u t : State) (c status code : Nat) (result : List Byte) : Prop :=
  AnsweredFrom u t c status code result ∧ SameRegs [Reg.MGT_MBX_RSP_WR c, Reg.MGT_MBX_REQ_RD c] u t ∧
  SameMemBut (fun x => decide (u.answerAt c ≤ x ∧ x < u.answerAt c + 64)) u t ∧ t.flt = u.flt ∧ t.alm = u.alm

/-- The request has been read, with what the memory system reports of its words (R274, R289), and answered. -/
def Answered (s t : State) (c status code : Nat) (result : List Byte) : Prop := AnsweredFrom (s.meetHead c) t c status code result

/-- The same, and nothing else. -/
def OnlyAnswered (s t : State) (c status code : Nat) (result : List Byte) : Prop :=
  OnlyAnsweredFrom (s.meetHead c) t c status code result

/-- An event has been told on channel 0, which is enabled, with room in host-core memory and no lost events to tell. -/
def State.hearsEvents (s : State) : Bool :=
  s.flag (Reg.MGT_MBX_CTL_EN 0) && s.mbxRoom 0 && s.hostRange (s.answerAt 0) 64 &&
    decide (SMap.get (fun _ => 0) s.stw.lost 0 = 0) && decide (s.getF (Reg.MGT_MBX_RSPBASE 0) % 64 = 0) &&
    !s.flag (Reg.MGT_MBX_CTL_EN 1)

def Told (s t : State) (code : Nat) (result : List Byte) : Prop :=
  Entry t (s.answerAt 0) (leBytes 2 0xFFFF ++ leBytes 1 code ++ leBytes 5 0 ++ result) ∧
  t.getF (Reg.MGT_MBX_RSP_WR 0) = (s.getF (Reg.MGT_MBX_RSP_WR 0) + 1) % 2 ^ 32

/-- The commands of the mailbox operations, with their codes (Table 20-7). -/
def MbxCommand (c : Fin 2) (op : Nat) (i : Instr) : Prop :=
  (op = 0x01 ∧ i = .mbxPing c) ∨ (op = 0x02 ∧ i = .mbxVersion c) ∨ (op = 0x03 ∧ i = .mbxGetPolicy c) ∨ (op = 0x04 ∧ i = .mbxSetPolicy c) ∨
  (op = 0x10 ∧ i = .mbxLoad c) ∨ (op = 0x11 ∧ i = .mbxUnload c) ∨ (op = 0x12 ∧ i = .mbxArm c) ∨ (op = 0x13 ∧ i = .mbxStop c) ∨
  (op = 0x20 ∧ i = .mbxSeed c) ∨ (op = 0x30 ∧ i = .mbxFwStage c) ∨ (op = 0x31 ∧ i = .mbxFwSvnCommit c) ∨ (op = 0x32 ∧ i = .mbxDeviceReset c) ∨
  (op = 0x40 ∧ i = .mbxPortCfg c) ∨ (op = 0x41 ∧ i = .mbxTimeStatus c)

/-- The operation codes of Table 20-7. -/
def mbxOpCodes : List Nat := [0x01, 0x02, 0x03, 0x04, 0x10, 0x11, 0x12, 0x13, 0x20, 0x30, 0x31, 0x32, 0x40, 0x41]

/-! ### Register writes and soundness -/

/-- A command that is a write of one register: the write and the register's offset. -/
def WriteCommand (w : WriteReq) (off : Nat) (i : Instr) : Prop :=
  (i = .almRate w ∧ off = Reg.ALM_RATE.off) ∨
  (i = .almSlew w ∧ off = Reg.ALM_SLEW.off) ∨
  (∃ n, i = .almBmArm n w ∧ off = (Reg.ALM_BM_CTL_ARM n).off) ∨
  (∃ n, i = .almBmStop n w ∧ off = (Reg.ALM_BM_CTL_ARM n).off) ∨
  (∃ n, i = .almBmPeriod n w ∧ off = (Reg.ALM_BM_PERIOD n).off) ∨
  (∃ n, i = .almBmShrink n w ∧ off = (Reg.ALM_BM_SHRINK_S n).off) ∨
  (∃ n, i = .almBmLaglim n w ∧ off = (Reg.ALM_BM_LAGLIM n).off) ∨
  (∃ p reg, i = .almGlTime p reg w ∧ off = glOff p reg) ∨
  (∃ c, i = .mgtMbxCtl c w ∧ off = (Reg.MGT_MBX_CTL_EN c).off) ∨
  (∃ c, i = .mbxReqWr c w ∧ off = (Reg.MGT_MBX_REQ_WR c).off) ∨
  (i = .mgtBootPcieGo w ∧ off = Reg.MGT_BOOT_PCIE_LEN.off) ∨
  (i = .mgtHcmLock w ∧ off = Reg.MGT_HCM_LOCK.off) ∨
  (i = .mgtOtpRevoke w ∧ off = Reg.MGT_OTP_REVOKE_GO.off) ∨
  (i = .mgtDevnum w ∧ off = Reg.MGT_DEVNUM.off) ∨
  (i = .mgtWdogKick w ∧ off = Reg.MGT_WDOG_KICK.off) ∨
  (i = .mgtHartStart w ∧ off = Reg.MGT_HART_START.off) ∨
  (∃ c, i = .ccBistGo c w ∧ off = (Reg.CC_BIST_GO c).off) ∨
  (i = .solBistGo w ∧ off = Reg.SOL_BIST_GO.off) ∨
  (∃ k, i = .loopbackWrite k w ∧ off = (loopFld k).off) ∨
  (i = .mgtHbRearm w ∧ off = Reg.MGT_HB_CFG_REARM.off) ∨
  (∃ c, i = .tallySnap c w ∧ off = (Reg.CC_TALLY_CTL_SNAP c).off) ∨
  (∃ c, i = .tallyClear c w ∧ off = (Reg.CC_TALLY_CTL_SNAP c).off) ∨
  (∃ c o, i = .contextWindowWrite c o w ∧ off = 0x1000000 + 0x100000 * c.val + o.val / 8 * 8) ∨
  (i = .fltCtlEn w ∧ off = Reg.FLT_CTL_EN.off) ∨
  (i = .fltLastClr w ∧ off = Reg.FLT_CTL_EN.off) ∨
  (∃ n, i = .bgwSrcCfg n w ∧ off = (Reg.BGW_SRC_CFG_EN n).off) ∨
  (i = .bgwMrCtl w ∧ off = Reg.BGW_MR_CTL_EN.off) ∨
  (∃ c, i = .bgwTxGo c w ∧ off = (Reg.BGW_TX_GO c).off) ∨
  (∃ k, i = .bgwKeyprogGo k w ∧ off = (Reg.BGW_KEYPROG_GO k).off) ∨
  (∃ m, i = .mcTrainGo m w ∧ off = (Reg.MC_TRAIN_CTL_GO m).off) ∨
  (i = .mgtHbmCommit w ∧ off = Reg.MGT_HBM_CTL_COMMIT.off) ∨
  (∃ g, i = .tgStart g w ∧ off = (Reg.MC_TG_CTL_START (g.val / 16) (g.val % 16)).off) ∨
  (∃ m, i = .mcInj m w ∧ off = (Reg.MC_INJ_ARM m).off) ∨
  (i = .ingEvrCtl w ∧ off = Reg.ING_EVR_CTL_EN.off) ∨
  (∃ m, i = .unbind m w ∧ off = (Reg.ING_STR_CTL_UNBIND m).off) ∨
  (∃ n g, i = .rotationWrite n g w ∧ off = if g.val < 32 then (Reg.ING_ROT_ENT n g).off else (Reg.ING_ROT_LEN n).off) ∨
  (i = .almStep w ∧ off = Reg.ALM_STEP_FRAC.off) ∨
  (∃ r, i = .solLrnCfg r w ∧ off = (lrnFld r).off) ∨
  (i = .solLrnSeed w ∧ off = Reg.SOL_LRN_SEED_ROW.off) ∨
  (i = .wvlGo w ∧ off = Reg.WVL_CTL_GO.off) ∨
  (∃ n, i = .wvlUnload n w ∧ off = (Reg.WVL_PIPE_CTL_UNLOAD n).off) ∨
  (∃ m, i = .bind m w ∧ off = (Reg.ING_STR_CTL_BIND m).off) ∨
  (i = .mgtStwRestart w ∧ off = Reg.MGT_STW_CTL_RESTART.off) ∨
  (∃ ix, i = .endpointCommit ix w ∧ off = (Reg.ETH_EP ix 7).off) ∨
  (∃ p tq, i = .nicRxPost p tq w ∧ off = (ringRegs p tq).rxWr.off) ∨
  (∃ p tq, i = .nicTxPost p tq w ∧ off = (ringRegs p tq).txWr.off) ∨
  (∃ d, i = .pwrDomReq d w ∧ off = (Reg.PWR_DOM_REQ_STATE d).off) ∨
  (∃ d, i = .pwrClk d w ∧ off = (clkN d).off) ∨
  (∃ q, i = .pwrQpllRelock q w ∧ off = (Reg.PWR_QPLL_CTL_RELOCK q).off) ∨
  (i = .pwrSleep w ∧ off = Reg.PWR_DEV_CTL_SLEEP.off) ∨
  (i = .qskRouteDefault w ∧ off = Reg.QSK_ROUTE_CTL_DEFAULT.off) ∨
  (i = .qskTopo w ∧ off = Reg.QSK_TOPO_NX.off) ∨
  (∃ l, i = .qskLinkEn l w ∧ off = (Reg.QSK_L_CTL_EN l).off) ∨
  (∃ m, i = .ingStrRingRd m w ∧ off = (Reg.ING_STR_RING_RD m).off) ∨
  (∃ b, i = .mgtBarArrive b w ∧ off = (Reg.MGT_BAR_ARRIVE b).off) ∨
  (∃ b, i = .mgtBarExpect b w ∧ off = (Reg.MGT_BAR_EXPECT b).off) ∨
  (∃ q, i = .mqCfg q w ∧ off = (Reg.MGT_MQ_CFG_ENABLE q).off) ∨
  (∃ q k, i = .mgtMqPush q k w ∧ off = (Reg.MGT_MQ_PUSH q k).off) ∨
  (∃ c, i = .vtStart c w ∧ off = (Reg.CC_VT_START_GO c).off) ∨
  (∃ c, i = .vtKill c w ∧ off = (Reg.CC_VT_CTL_KILL c).off) ∨
  (∃ c, i = .vtFree c w ∧ off = (Reg.CC_VT_CTL_FREE c).off) ∨
  (∃ a : BitVec 28, i = .registerWrite (.host a w) ∧ off = a.toNat / 8 * 8 ∧ Reg.row off ≠ none)

/-- Everything that every command keeps: memory, the registers and the memory check states stand in their canonical forms
(log entry 3), the pending store holds at most 127 records beside its summary (R471), and there is at most one
summary. -/
def Sound (s : State) : Prop :=
  s.memOk ∧ s.regsOk ∧ SMap.wf (fun _ => EccState.clean) s.ecc = true ∧ pendCount s.flt.pend ≤ 127 ∧
  (s.flt.pend.filter (fun r => r.summary.isSome)).length ≤ 1

end Sys2Proof.Machine
end

