-- ==== Sys2Proof/Certificates/Slice0/Obligations.lean ====
section
/-!
DEFINITION. The statements about this machine that provers are asked to settle, each with the rules it comes from. Every statement
names the log entries of the model's choices that it rests on.
-/

open Sys2Proof Sys2Proof.Machine

/-- ALM_RATE, ALM_SLEW, ALM_NOW and ALM_STEP (R30, R33, R34, R57, R404, R552 to R554). The count is exact (log entry 1);
the reported step is rounded down (log entry 101). A step that is no multiple of 128 ns loses the slot frame (R403). -/
def Obligations.AlmanacRegisters : Prop :=
  (∀ (s : State) (w : WriteReq), s.takes w Reg.ALM_RATE.off = true → coversLo w.half = true →
    Does (.almRate w) s (fun t =>
      t.getI Reg.ALM_RATE = min 1099511627 (max (-1099511627) (sint 32 (w.field Reg.ALM_RATE))) ∧
      SameRegs [Reg.ALM_RATE] s t ∧ OnlyRegs s t)) ∧
  (∀ (s : State) (w : WriteReq), s.takes w Reg.ALM_SLEW.off = true → coversLo w.half = true →
    Does (.almSlew w) s (fun t =>
      t.alm.slewRem = min 500000000 (max (-500000000) (s.alm.slewRem + 500 * sint 32 (w.field Reg.ALM_SLEW))) ∧
      t = (s.setAlm { s.alm with slewRem := t.alm.slewRem }).answer .ok 0#64)) ∧
  (∀ (s : State) (r : ReadReq), coversLo r.half = true →
    Does (.almNowLo r) s (fun t =>
      t.resp = some { status := .ok, value := BitVec.ofNat 64 (s.now % 2 ^ 32) } ∧
      SMap.get (fun _ => (0, 0)) t.alm.latch (agentIdx r.agent) = (s.now / 2 ^ 32, s.nowFrac) ∧
      t = (s.setAlm { s.alm with latch := SMap.put (fun _ => (0, 0)) s.alm.latch (agentIdx r.agent)
                                            (s.now / 2 ^ 32, s.nowFrac) }).setResp t.resp)) ∧
  (∀ (s : State) (w : WriteReq), s.takes w Reg.ALM_STEP_FRAC.off = true → w.half = .lo →
    Does (.almStep w) s (fun t =>
      t = (s.setAlm { s.alm with stepLow := w.value.toNat % 2 ^ 32 }).answer .ok 0#64)) ∧
  (∀ (s : State) (w : WriteReq), s.takes w Reg.ALM_STEP_FRAC.off = true → w.half = .both → s.room = true →
    s.alm.crystal = false →
    let x := sint 64 w.value.toNat
    x < 0 →
    Does (.almStep w) s (fun t =>
      let d := (s.ticks 1).now - t.now
      let off := x % (128 * 65536)
      let err := (off + 64 * 65536) % (128 * 65536) / 65536 - 64
      let told := s.flag Reg.QSK_SFRAME_STAT_LOCK ∧ off ≠ 0 ∧ s.qsk.unlocked = false ∧ ∃ l, l < 8 ∧ s.linkUsed l = true
      t.alm.alm = (((s.ticks 1).alm.alm : Int) + x * (unitFrac : Int)).toNat ∧ t.alm.winBad = true ∧
      (¬ told → Filed s t 0 0xA01 (uBeat 7) [(48, uint 48 (satI 48 (x / 65536))), (16, 0)]) ∧
      (told → Raised s t 1 0x40A uDevice [(24, uint 24 (satI 24 err))]) ∧
      t.flag Reg.QSK_SFRAME_STAT_LOCK = (s.flag Reg.QSK_SFRAME_STAT_LOCK && decide (off = 0)) ∧
      (∀ n, n < 4 → s.bmState n ≠ 0 →
        t.beat n = { s.beat n with gNext := (s.beat n).gNext - d, nNext := (s.beat n).nNext - d
                                   armedAt := (s.beat n).armedAt - d, rebase := false } ∧
        t.getF (Reg.ALM_BM_ORIGIN n) = (t.beat n).gNext % 2 ^ 64 ∧ t.getF (Reg.ALM_BM_INDEX n) = 0) ∧
      (∀ n, n < 4 → s.bmState n = 0 → t.beat n = s.beat n ∧ t.getF (Reg.ALM_BM_ORIGIN n) = s.getF (Reg.ALM_BM_ORIGIN n)) ∧
      (∀ p, p < 16 → t.getF (Reg.ALM_GL_TIME p) = s.getF (Reg.ALM_GL_TIME p) -
        (if s.flag (Reg.ALM_GL_CTL_EN p) ∧ s.getF (Reg.ALM_GL_PERIOD p) ≠ 0 then d else 0)) ∧
      (∀ l, l < 8 → s.linkUp l = true →
        (t.qlink l).sfNext = some ((s.qlink l).sfPending (s.ticks 1).now - d)) ∧
      t.bgw = { s.bgw with stepped := true } ∧
      t.ep = { s.ep with commitAt := (s.ep.commitAt.map (fun e => (e.1, e.2 - d))).filter (fun e => e.2 != 0) } ∧
      t = ((((((((s.setAlm t.alm).setRegs t.regs).setBm t.bm).setQsk t.qsk).setEp t.ep).setBgw t.bgw).setFlt t.flt).setFree
        t.free).answer .ok 0#64))

/-- AON_PERIOD_MEASURE, AON_CLOCK_FAIL, ALMANAC_CLOCK_RETURN and DEVICE_WAKE_FIRE (R36 to R38, R487). One failure of the crystal is
raised once (log entry 101). -/
def Obligations.CrystalAndWakePort : Prop :=
  (∀ (s : State) (ticks : Nat), s.pwr.dev = .active → s.alm.crystal = false → s.alm.winBad = false →
    Does (.aonPeriodMeasure ticks) s (fun t =>
      t.getF Reg.ALM_AON_PERIOD =
        (divRNE ((s.ticks ticks).nowFine - s.alm.winStart : Nat) 32768).toNat % 2 ^ 48 ∧
      t.alm.alm = (s.ticks ticks).alm.alm ∧ t.alm.winStart = (s.ticks ticks).nowFine ∧
      SameRegs [Reg.ALM_AON_PERIOD] s t ∧ t = (s.setRegs t.regs).setAlm t.alm)) ∧
  (∀ (s : State) (ticks : Nat), s.pwr.dev = .active → s.alm.crystal = false → s.alm.winBad = true →
    Does (.aonPeriodMeasure ticks) s (fun t => t.alm.winBad = false ∧ t.alm.winStart = s.alm.winStart ∧
      t.alm.alm = (s.ticks ticks).alm.alm ∧ t = s.setAlm t.alm)) ∧
  (∀ s : State, s.pwr.dev = .active → s.alm.crystal = false → s.alm.aonFail = false → s.room = true →
    Does .aonClockFail s (fun t => t.alm.aonFail = true ∧
      Filed s t 1 0xA20 (uBeat 7) [(48, s.getF Reg.ALM_AON_PERIOD)] ∧ t = (s.setAlm t.alm).setFlt t.flt)) ∧
  (∀ s : State, s.pwr.dev = .waking → s.pwr.refOk = true → s.alm.crystal = true →
    Does (.almanacClockReturn true) s (fun t => t.alm.crystal = false ∧
      t.alm.alm = s.alm.alm + s.getF Reg.ALM_AON_PERIOD * unitFrac ∧ t = (s.setAlm t.alm).setPwr t.pwr)) ∧
  (∀ s : State, s.pwr.dev = .waking → s.pwr.refOk = true → s.alm.crystal = true → s.room = true →
    Does (.almanacClockReturn false) s (fun t => t.alm.crystal = false ∧ t.alm.alm = s.alm.alm ∧
      (s.alm.aonFail = false → Filed s t 1 0xA20 (uBeat 7) [(48, s.getF Reg.ALM_AON_PERIOD)]) ∧
      (s.alm.aonFail = true → t.flt = s.flt) ∧ t.alm.aonFail = true ∧
      t = ((s.setAlm t.alm).setPwr t.pwr).setFlt t.flt)) ∧
  (∀ s : State, s.pwr.dev = .dormant → s.alm.crystal = true → s.flag Reg.ALM_WAKE_CTL_EN = true →
    Does .deviceWakeFire s (fun t => t.pwr.dev = .waking ∧ t.getF Reg.ALM_WAKE_CTL_EN = 0 ∧
      t.getF Reg.PWR_DEV_STAT_WAKE_SRC = 1 ∧ t.alm = (s.reach (s.getF Reg.ALM_WAKE_TIME)).alm ∧
      t = ((s.setRegs t.regs).setAlm t.alm).setPwr t.pwr))

/-- ALM_BMn_PERIOD, ALM_BMn_SHRINK and ALM_BMn_LAGLIM (R45, R46, R51, R53). -/
def Obligations.BeatParameterWrites : Prop :=
  (∀ (s : State) (n : Fin 4) (w : WriteReq), s.takes w (Reg.ALM_BM_PERIOD n).off = true → coversLo w.half = true →
    s.room = true →
    let b := w.field (Reg.ALM_BM_PERIOD n)
    let sh := s.getF (Reg.ALM_BM_SHRINK_S n)
    50000 ≤ b → b ≤ 100000000 → s.getF (Reg.ALM_BM_FLOOR n) ≤ b →
    Does (.almBmPeriod n w) s (fun t =>
      t.getF (Reg.ALM_BM_PERIOD n) = b ∧ t.getF (Reg.ALM_BM_SHRINK_EFFECTIVE n) = min sh (b / 4) ∧
      SameRegs [Reg.ALM_BM_PERIOD n, Reg.ALM_BM_SHRINK_EFFECTIVE n] s t ∧
      (s.bmState n ≠ 0 → t.beat n = { s.beat n with rebase := true }) ∧ (s.bmState n = 0 → t.bm = s.bm) ∧
      (sh ≤ b / 4 → t.flt = s.flt) ∧ (b / 4 < sh → Filed s t 0 0xA03 (uBeat n) [(27, sh), (27, b / 4)]) ∧
      t = (((s.setRegs t.regs).setBm t.bm).setFlt t.flt).answer .ok 0#64)) ∧
  (∀ (s : State) (n : Fin 4) (w : WriteReq), s.takes w (Reg.ALM_BM_PERIOD n).off = true → coversLo w.half = true →
    s.room = true →
    let b := w.field (Reg.ALM_BM_PERIOD n)
    (b < 50000 ∨ 100000000 < b ∨ b < s.getF (Reg.ALM_BM_FLOOR n)) →
    Does (.almBmPeriod n w) s (fun t => Filed s t 0 0xA02 (uBeat n) [(32, b)] ∧ t = (s.setFlt t.flt).answer .ok 0#64)) ∧
  (∀ (s : State) (n : Fin 4) (w : WriteReq), s.takes w (Reg.ALM_BM_SHRINK_S n).off = true → coversLo w.half = true →
    s.room = true →
    let v := w.field (Reg.ALM_BM_SHRINK_S n)
    let q := s.getF (Reg.ALM_BM_PERIOD n) / 4
    Does (.almBmShrink n w) s (fun t =>
      t.getF (Reg.ALM_BM_SHRINK_S n) = v ∧ t.getF (Reg.ALM_BM_SHRINK_EFFECTIVE n) = min v q ∧
      SameRegs [Reg.ALM_BM_SHRINK_S n, Reg.ALM_BM_SHRINK_EFFECTIVE n] s t ∧
      (v ≤ q → t.flt = s.flt) ∧ (q < v → Filed s t 0 0xA03 (uBeat n) [(27, v), (27, q)]) ∧ OnlyRegsFaults s t)) ∧
  (∀ (s : State) (n : Fin 4) (w : WriteReq), s.takes w (Reg.ALM_BM_LAGLIM n).off = true → coversLo w.half = true →
    Does (.almBmLaglim n w) s (fun t =>
      t.getF (Reg.ALM_BM_LAGLIM n) = w.field (Reg.ALM_BM_LAGLIM n) ∧ SameRegs [Reg.ALM_BM_LAGLIM n] s t ∧ OnlyRegs s t))

/-- ALM_BM_ARM and ALM_BM_STOP (R47, R50, R555). -/
def Obligations.BeatArmAndStop : Prop :=
  (∀ (s : State) (n : Fin 4) (w : WriteReq), s.takes w (Reg.ALM_BM_CTL_ARM n).off = true →
    wBit w (Reg.ALM_BM_CTL_ARM n) = true → wBit w (Reg.ALM_BM_CTL_STOP n) = false →
    s.bmState n = 0 → s.loaded n = true → s.now + 100000 ≤ s.getF (Reg.ALM_BM_ORIGIN n) →
    Does (.almBmArm n w) s (fun t =>
      t.bmState n = 1 ∧ t.getF (Reg.ALM_BM_INDEX n) = 0 ∧ t.alm = s.alm ∧
      t.beat n = { gNext := s.getF (Reg.ALM_BM_ORIGIN n), nNext := s.getF (Reg.ALM_BM_ORIGIN n), armedAt := s.now } ∧
      (∀ m ∈ s.boundTo n, (t.strm m).outs = [] ∧ t.getF (Reg.ING_STR_STATE m) = 2 ∧
        t.getF (Reg.ING_STR_DISCARDS m) = (s.getF (Reg.ING_STR_DISCARDS m) +
          ((s.strm m).outs.filter (fun e => e.slot.isSome)).length) % 2 ^ (Reg.ING_STR_DISCARDS m).w) ∧
      (∀ i, i < 1024 → s.epStream i ∈ s.boundTo n → SMap.get (fun _ => 0) t.ep.nextK i = 0) ∧
      (∀ m, m ∉ s.boundTo n → t.strm m = s.strm m) ∧
      ((∀ m ∈ s.boundTo n, ∀ e ∈ (s.strm m).outs, e.malformed = 0) →
        SameRegs ([Reg.ALM_BM_STAT_STATE n, Reg.ALM_BM_INDEX n, Reg.ING_STATE_IRQ] ++
          (s.boundTo n).flatMap (fun m => [Reg.ING_STR_STATE m, Reg.ING_STR_DISCARDS m])) s t ∧ t.flt = s.flt))) ∧
  (∀ (s : State) (n : Fin 4) (w : WriteReq), s.takes w (Reg.ALM_BM_CTL_ARM n).off = true →
    wBit w (Reg.ALM_BM_CTL_ARM n) = true → wBit w (Reg.ALM_BM_CTL_STOP n) = false → s.room = true →
    s.bmState n = 0 → s.loaded n = true → s.getF (Reg.ALM_BM_ORIGIN n) < s.now + 100000 →
    Does (.almBmArm n w) s (fun t => Filed s t 0 0xA02 (uBeat n) [(32, s.getF (Reg.ALM_BM_ORIGIN n))] ∧
      t = (s.setFlt t.flt).answer .ok 0#64)) ∧
  (∀ (s : State) (n : Fin 4) (w : WriteReq), s.takes w (Reg.ALM_BM_CTL_ARM n).off = true →
    wBit w (Reg.ALM_BM_CTL_ARM n) = true → wBit w (Reg.ALM_BM_CTL_STOP n) = false →
    s.bmState n ≠ 0 ∨ s.loaded n = false → Does (.almBmArm n w) s (fun t => t = s.answer .ok 0#64)) ∧
  (∀ (s : State) (n : Fin 4) (w : WriteReq), s.takes w (Reg.ALM_BM_CTL_ARM n).off = true →
    wBit w (Reg.ALM_BM_CTL_ARM n) = false → wBit w (Reg.ALM_BM_CTL_STOP n) = true →
    s.bmState n ≠ 0 → (s.pipe n).quiet = false ∨ (s.pipe n).sectOpen = true →
    Does (.almBmStop n w) s (fun t =>
      t.bmState n = 5 ∧ (∀ m ∈ s.boundTo n, t.getF (Reg.ING_STR_STATE m) = 2) ∧
      SameRegs ([Reg.ALM_BM_STAT_STATE n, Reg.ING_STATE_IRQ] ++ (s.boundTo n).map Reg.ING_STR_STATE) s t ∧
      t = (((((s.setRegs t.regs).setIrq t.irq).setStw t.stw).setOut t.out).answer .ok 0#64))) ∧
  (∀ (s : State) (n : Fin 4) (w : WriteReq), s.takes w (Reg.ALM_BM_CTL_ARM n).off = true →
    wBit w (Reg.ALM_BM_CTL_ARM n) = false → wBit w (Reg.ALM_BM_CTL_STOP n) = true →
    s.bmState n ≠ 0 → (s.pipe n).quiet = true → (s.pipe n).sectOpen = false → s.room = true →
    Does (.almBmStop n w) s (fun t =>
      t.bmState n = 0 ∧ (∀ m ∈ s.boundTo n, t.getF (Reg.ING_STR_STATE m) = 1) ∧ (t.beat n).idleAt = s.now ∧
      t.flag (Reg.ALM_BM_STAT_EXCURSION n) = false ∧
      (s.flag (Reg.ALM_BM_STAT_EXCURSION n) = false → t.flt = s.flt) ∧
      (s.flag (Reg.ALM_BM_STAT_EXCURSION n) = true → Filed s t 0 0xA11 (uBeat n) [(48, (s.beat n).maxLag)]) ∧
      SameRegs ([Reg.ALM_BM_STAT_STATE n, Reg.ALM_BM_STAT_EXCURSION n, Reg.ING_STATE_IRQ] ++
        (s.boundTo n).map Reg.ING_STR_STATE) s t ∧
      t = (((((((s.setRegs t.regs).setBm t.bm).setFlt t.flt).setIrq t.irq).setStw t.stw).setOut t.out).answer .ok 0#64)))

/-- BEAT_LAUNCH, CORE_WAKE_LAUNCH, EXPOSE_LAUNCH, STROBE_LAUNCH and SLOT_FRAME_LAUNCH (R25, R26, R41, R43, R48, R51 to R53, R84,
R378, R379, R388, R404, R495), each while the Almanac runs on the time clock (R37). The zero point of a fixed-scale tensor that
no image gives is free (log entry 18). The order at one instant is that of log entry 106, FRAME between two multiples that of 101. -/
def Obligations.BeatAndPortLaunches : Prop :=
  (∀ (s : State) (n : Fin 4) (ready : Nat),
    let u := s.reach (max ready (s.beat n).nNext)
    let a := u.launchAt (max ready (s.beat n).nNext)
    let l := a - (s.beat n).gNext
    s.alm.crystal = false → s.bmState n = 1 ∨ s.bmState n = 2 ∨ s.bmState n = 3 → u.entryReady n = true →
    u.scanYields n = false → s.nextExposure n = none →
    Does (.beatLaunch n ready) s (fun t => Launched n a l u t ∧ Woken n a u t ∧
      (s.flag (Reg.ALM_BM_STAT_EXCURSION n) = false → l ≤ s.getF (Reg.ALM_BM_LAGLIM n) →
        SameRegs (launchRegs s n) s t ∧ t.flt = s.flt) ∧
      (∀ p, (t.pipe p).frames = (s.pipe p).frames) ∧ t.streams = s.streams ∧ t.alm = u.alm)) ∧
  (∀ (s : State) (n : Fin 4) (ready m : Nat) (e : Exposure),
    let u := s.reach (max ready (s.beat n).nNext)
    let a := u.launchAt (max ready (s.beat n).nNext)
    let l := a - (s.beat n).gNext
    s.alm.crystal = false → s.bmState n = 1 ∨ s.bmState n = 2 ∨ s.bmState n = 3 → u.entryReady n = true →
    u.scanYields n = false → s.nextExposure n = some (m, e) → e.complete = true → (s.pipe n).running = [] →
    Does (.beatLaunch n ready) s (fun t => Launched n a l u t ∧ Woken n a u t ∧
      (t.pipe n).frames = (s.pipe n).frames ++
        [{ fif := (s.pipe n).nextFif, stream := m, frameNo := s.getF (Reg.ING_STR_FRAME m), k := s.beatIndex n,
           launch := a, lag := l, target := e.target, slot := e.slot.getD 0, evidence := e.evidence,
           bank := (s.pipe n).fixedS.map (fun x => (x.1, (x.2, ((((s.pipe n).fixedZ.find? (fun z => z.1 == x.1)).map
             (fun z => z.2)).getD (Config.fixedZp n x.1).toNat)))),
           waitStatus := s.followers n, id := (s.pipe n).nextId }] ∧
      (t.pipe n).nextFif = ((s.pipe n).nextFif + 1) % 8 ∧ (t.pipe n).nextId = (s.pipe n).nextId + 1 ∧
      t.getF (Reg.ING_STR_FRAME m) = (s.getF (Reg.ING_STR_FRAME m) + 1) % 2 ^ 16 ∧
      ((s.pipe n).usesStem = true → t.sol.scan = some (n.val, (s.pipe n).nextFif)) ∧
      (s.flag (Reg.ALM_BM_STAT_EXCURSION n) = false → l ≤ s.getF (Reg.ALM_BM_LAGLIM n) → e.malformed = 0 →
        SameRegs (Reg.ING_STR_FRAME m :: launchRegs s n) s t ∧ t.flt = s.flt) ∧ t.alm = u.alm)) ∧
  (∀ (s : State) (n : Fin 4) (ready m : Nat) (e : Exposure),
    let u := s.reach (max ready (s.beat n).nNext)
    let a := u.launchAt (max ready (s.beat n).nNext)
    let l := a - (s.beat n).gNext
    s.alm.crystal = false → s.bmState n = 1 ∨ s.bmState n = 2 ∨ s.bmState n = 3 → u.entryReady n = true →
    u.scanYields n = false → s.nextExposure n = some (m, e) → e.complete = false → (s.pipe n).running = [] →
    Does (.beatLaunch n ready) s (fun t => Launched n a l u t ∧ Woken n a u t ∧
      (t.pipe n).frames = (s.pipe n).frames ++
        [{ fif := 0, admitted := false, stream := m, frameNo := s.getF (Reg.ING_STR_FRAME m), k := s.beatIndex n,
           launch := a, lag := l, target := e.target, slot := 0, void := some (1, a), id := (s.pipe n).nextId }] ∧
      (t.pipe n).nextFif = (s.pipe n).nextFif ∧
      t.getF (Reg.ING_STR_FRAME m) = (s.getF (Reg.ING_STR_FRAME m) + 1) % 2 ^ 16 ∧
      (s.flag (Reg.ALM_BM_STAT_EXCURSION n) = false → l ≤ s.getF (Reg.ALM_BM_LAGLIM n) → e.malformed = 0 → s.room = true →
        ∃ d, Filed s t 2 0x303 uIngest d) ∧ t.alm = u.alm)) ∧
  (∀ (s : State) (n : Fin 4) (ready : Nat), s.alm.crystal = false → s.bmState n = 4 →
    Does (.beatLaunch n ready) s (fun t => t.bmState n = 4 ∧ (t.beat n).kTot = (s.beat n).kTot + 1 ∧
      (t.beat n).gNext = (s.beat n).gNext + s.getF (Reg.ALM_BM_PERIOD n) ∧
      t.getF (Reg.ALM_BM_INDEX n) = (s.beatIndex n + 1) % 2 ^ 64 ∧ t.alm = (s.reach (s.beat n).gNext).alm ∧
      t.pipes = s.pipes ∧ SameRegs [Reg.ALM_BM_INDEX n, Reg.ALM_BM_ORIGIN n] s t ∧
      t = ((s.setRegs t.regs).setBm t.bm).setAlm t.alm)) ∧
  (∀ (s : State) (c : Fin 32) (wake work k : Nat) (rest : List (Nat × Nat × Nat)),
    (s.core c).wakes = (wake, work, k) :: rest → s.alm.crystal = false →
    Does (.coreWakeLaunch c) s (fun t =>
      (t.core c).wakes = rest ∧ t.alm = (s.reach wake).alm ∧
      (s.dom c = 3 → t.coreMove c = (if s.coreMove c = 1 then 0 else s.coreMove c) ∧
        t.out = s.out ++ ((s.tokenFor c k).map (fun n => OutMsg.heartbeat (hbToken 1 c n 3 k))).toList ∧
        (t.core c).owe = (s.core c).owe ∧ SMap.get (fun _ => 0) t.pwr.workAt c = SMap.get (fun _ => 0) s.pwr.workAt c) ∧
      (s.dom c = 1 → t.coreMove c = (if s.coreMove c = 0 then 2 else s.coreMove c) ∧
        (s.coreMove c = 0 → SMap.get (fun _ => 0) t.pwr.workAt c = work) ∧
        (t.core c).owe = (s.core c).owe ++ ((s.tokenFor c k).map (fun n => (n, k))).toList ∧ t.out = s.out) ∧
      (s.dom c ≠ 3 → s.dom c ≠ 1 → t = (s.setAlm t.alm).setCores t.cores) ∧
      SameRegs [Reg.PWR_DOM_STAT_TRANS c, Reg.CC_TALLY c 15] s t ∧
      t = ((((s.setAlm t.alm).setCores t.cores).setPwr t.pwr).setRegs t.regs).setOut t.out)) ∧
  (∀ (s : State) (ep : Fin 1024) (n m k target : Nat), s.nextExpose ep = some (n, m, k, target) → s.alm.crystal = false →
    s.flag (Reg.ETH_P_STAT_LINK_UP (s.epPort ep)) = true →
    Does (.exposeLaunch ep) s (fun t =>
      SMap.get (fun _ => 0) t.ep.nextK ep = k + 1 ∧
      SMap.get (fun _ => 0) t.ep.seq ep = (SMap.get (fun _ => 0) s.ep.seq ep + 1) % 2 ^ 16 ∧
      (t.port (s.epPort ep)).cmdq = queueAt
        { kind := 0, bytes := cmdPayload 1 ep target (s.epExposure ep) m (SMap.get (fun _ => 0) s.ep.seq ep) 0 false
          ref := ep.val, dest := some (s.udpDest ep), due := s.launchOf ep target, rank := 0 } (s.port (s.epPort ep)).cmdq ∧
      (t.strm m).outs = (s.strm m).outs ++ [{ k := k, target := target }] ∧
      t = ((((s.setAlm (s.reach (s.launchOf ep target)).alm).setEp t.ep).setEth t.eth).setStreams t.streams))) ∧
  (∀ (s : State) (ep : Fin 1024) (n m k target : Nat), s.nextExpose ep = some (n, m, k, target) → s.alm.crystal = false →
    s.flag (Reg.ETH_P_STAT_LINK_UP (s.epPort ep)) = false →
    Does (.exposeLaunch ep) s (fun t =>
      SMap.get (fun _ => 0) t.ep.nextK ep = k + 1 ∧
      t.getF (Reg.ETH_P_TXDROP (s.epPort ep)) =
        (s.getF (Reg.ETH_P_TXDROP (s.epPort ep)) + 1) % 2 ^ (Reg.ETH_P_TXDROP (s.epPort ep)).w ∧
      SameRegs [Reg.ETH_P_TXDROP (s.epPort ep)] s t ∧
      t = ((s.setAlm (s.reach (s.launchOf ep target)).alm).setEp t.ep).setRegs t.regs)) ∧
  (∀ (s : State) (ep : Fin 1024) (n m k target : Nat), s.nextStrobe ep = some (n, m, k, target) → s.alm.crystal = false →
    s.flag (Reg.ETH_P_STAT_LINK_UP (s.epPort ep)) = true →
    Does (.strobeLaunch ep) s (fun t =>
      SMap.get (fun _ => 0) t.ep.nextK ep = k + 1 ∧
      SMap.get (fun _ => 0) t.ep.seq ep = (SMap.get (fun _ => 0) s.ep.seq ep + 1) % 2 ^ 16 ∧
      (t.port (s.epPort ep)).cmdq = queueAt
        { kind := 0, bytes := cmdPayload 2 ep target (s.epOffset ep) m (SMap.get (fun _ => 0) s.ep.seq ep) (s.epF ep 44 1) false
          ref := ep.val, dest := some (s.udpDest ep), due := s.launchOf ep target, rank := 1 } (s.port (s.epPort ep)).cmdq ∧
      t = ((s.setAlm (s.reach (s.launchOf ep target)).alm).setEp t.ep).setEth t.eth)) ∧
  (∀ (s : State) (l : Fin 8), s.linkUp l = true → s.alm.crystal = false →
    let at' := (s.qlink l).sfPending s.now
    Does (.slotFrameLaunch l) s (fun t =>
      (t.qlink l).frame = at' / 128 % 256 ∧ (t.qlink l).sfNext = some (at' / 128 * 128 + 128) ∧
      t = (s.reach at').setQsk t.qsk)) ∧
  (∀ (s : State), s.alm.crystal = true →
    (∀ (n : Fin 4) (ready : Nat), exec (.beatLaunch n ready) s = .next s) ∧
    (∀ c : Fin 32, exec (.coreWakeLaunch c) s = .next s) ∧
    (∀ ep : Fin 1024, exec (.exposeLaunch ep) s = .next s ∧ exec (.strobeLaunch ep) s = .next s) ∧
    (∀ l : Fin 8, exec (.slotFrameLaunch l) s = .next s))

/-- GENERAL_PORT_FIRE, ALM_GL_TIME, MTIMECMP_COMPARE and IRQ_HOLDOFF_EXPIRY (R474, R504, R556). -/
def Obligations.TimersAndGeneralPorts : Prop :=
  (∀ (s : State) (p : Fin 16), s.flag (Reg.ALM_GL_CTL_EN p) = true → s.alm.crystal = false →
    s.flag (Reg.ALM_GL_CTL_MSG p) = false → s.flag (Reg.ALM_GL_CTL_SNAP p) = false →
    s.getF (Reg.MGT_IRQ_ROUTE_DEST (78 + p)) = 0 → s.getF (Reg.ALM_GL_PERIOD p) = 0 →
    Does (.generalPortFire p) s (fun t =>
      SMap.get (fun _ => false) t.irq.plic (78 + p) = true ∧ t.getF (Reg.ALM_GL_CTL_EN p) = 0 ∧
      SameRegs [Reg.ALM_GL_CTL_EN p] s t ∧
      t = ((s.reach (s.getF (Reg.ALM_GL_TIME p))).setIrq t.irq).setRegs t.regs)) ∧
  (∀ (s : State) (p : Fin 16), s.flag (Reg.ALM_GL_CTL_EN p) = true → s.alm.crystal = false →
    s.flag (Reg.ALM_GL_CTL_MSG p) = false → s.flag (Reg.ALM_GL_CTL_SNAP p) = false →
    s.getF (Reg.MGT_IRQ_ROUTE_DEST (78 + p)) = 0 → s.getF (Reg.ALM_GL_PERIOD p) ≠ 0 →
    Does (.generalPortFire p) s (fun t =>
      SMap.get (fun _ => false) t.irq.plic (78 + p) = true ∧
      t.getF (Reg.ALM_GL_TIME p) = (s.getF (Reg.ALM_GL_TIME p) + s.getF (Reg.ALM_GL_PERIOD p)) % 2 ^ 64 ∧
      SameRegs [Reg.ALM_GL_TIME p] s t)) ∧
  (∀ (s : State) (p : Fin 16) (w : WriteReq), s.takes w (Reg.ALM_GL_TIME p).off = true → w.half = .both →
    s.flag (Reg.ALM_GL_CTL_EN p) = false ∨ s.now < w.field (Reg.ALM_GL_TIME p) →
    Does (.almGlTime p .time w) s (fun t =>
      t.getF (Reg.ALM_GL_TIME p) = w.field (Reg.ALM_GL_TIME p) ∧ SameRegs [Reg.ALM_GL_TIME p] s t ∧ OnlyRegs s t)) ∧
  (∀ (s : State) (h : Fin 4) (x : Nat), s.alm.crystal = false → s.dom (33 + h) = 3 → s.alm.mtimecmp = [] →
    x ≤ (s.reach x).now →
    Does (.mtimecmpCompare h x) s (fun t =>
      SMap.get (fun _ => false) t.irq.mtip h = true ∧ t.alm.alm = (s.reach x).alm.alm ∧
      t = (s.setAlm t.alm).setIrq t.irq)) ∧
  (∀ (s : State) (d : Fin 3) (last : Nat),
    (s.getF (Reg.FLT_IRQ_STAT_CLASS d) &&& s.getF (Reg.FLT_IRQ_CFG_CLASS_EN d)) % 4 ≠ 0 →
    SMap.get (fun _ => none) s.flt.irqLast d = some last →
    Does (.irqHoldoffExpiry d) s (fun t =>
      SMap.get (fun _ => false) t.flt.irqOn d = true ∧
      t.alm = (s.reach (last + 1000 * s.getF (Reg.FLT_IRQ_CFG_HOLDOFF d))).alm ∧
      SMap.get (fun _ => none) t.flt.irqLast d = some t.now ∧ t.flt.pend = s.flt.pend ∧
      (d = 0 → t = (((s.setAlm t.alm).setFlt t.flt).setIrq t.irq) ∧
        t.irq = { s.irq with stw := SMap.put (fun _ => false) s.irq.stw 0 true }) ∧
      (d = 1 → t = (((s.setAlm t.alm).setFlt t.flt).setIrq t.irq) ∧
        t.irq = { s.irq with plic := SMap.put (fun _ => false) s.irq.plic 68 true }) ∧
      (d = 2 → s.domOn 55 = true → s.msixWord (16 * s.getF (Reg.FLT_IRQ_CFG_VECTOR 2) + 8) = 0#64 →
        t = (((s.setAlm t.alm).setFlt t.flt).setOut (s.out ++ [.msix (s.getF (Reg.FLT_IRQ_CFG_VECTOR 2))])))))

/-- WORD_ARRIVAL: a word moves between the places of the fabric (R76, R77, R94, R96, R97, R101, R104, R108, R113, R118, R213) in
a slot of its schedule. Edge and outbound gateway queues hold only when full (log entry 23). Slot counters and the owner of a
stray word follow log entry 102, the places of the reorder area 103. -/
def Obligations.WordArrivals : Prop :=
  (∀ (s : State) (c : Fin 32) (t : Fin 256) (k : Fin 7) (slot : Fin 128) (e t' d' : Nat) (w : QWord) (ws : List QWord),
    s.slotEntry c t slot = some e → k = 1 ∨ k = 2 ∨ k = 3 ∨ k = 4 → neighbour t (k.val - 1) = some (t', d') →
    s.wire (wireKey c t k) = w :: ws → s.domOn c = true → s.debugMode = false →
    outSrc e 0 ≠ k → outSrc e 1 ≠ k → outSrc e 2 ≠ k → outSrc e 3 ≠ k → bits e 17 3 ≠ k →
    bits e 12 3 = k → s.fires c t = true →
    let q := bits e 15 2
    let x := s.tile c t
    (x.q q).length + 1 < 8 - s.tileMargin c t q → x.holds q = false →
    exec (.wordArrival (.router c t k) slot .feed .clean) s =
      .next ((((s.atCoreSlot c slot).putWire (wireKey c t k) ws).putTile c t (x.putQ q (x.q q ++ [w]))).busyCore c)) ∧
  (∀ (s : State) (c : Fin 32) (t : Fin 256) (k : Fin 7) (slot : Fin 128) (e t' d' : Nat) (w : QWord) (ws : List QWord),
    s.slotEntry c t slot = some e → k = 1 ∨ k = 2 ∨ k = 3 ∨ k = 4 → neighbour t (k.val - 1) = some (t', d') →
    s.wire (wireKey c t k) = w :: ws → s.domOn c = true →
    outSrc e 0 = k → outSrc e 1 ≠ k → outSrc e 2 ≠ k → outSrc e 3 ≠ k → bits e 17 3 ≠ k → bits e 12 3 ≠ k → 16 ≤ t.val →
    Does (.wordArrival (.router c t k) slot .feed .clean) s (fun u =>
      u.wire (wireKey c t k) = ws ∧
      u.wire (wireKey c (t - 16 : Nat) 3) = s.wire (wireKey c (t - 16 : Nat) 3) ++ [w] ∧
      u = (s.atCoreSlot c slot).setWires u.wires)) ∧
  (∀ (s : State) (c : Fin 32) (t : Fin 256) (k : Fin 7) (slot : Fin 128) (e t' d' : Nat) (w : QWord) (ws : List QWord),
    s.slotEntry c t slot = some e → k = 1 ∨ k = 2 ∨ k = 3 ∨ k = 4 → neighbour t (k.val - 1) = some (t', d') →
    s.wire (wireKey c t k) = w :: ws → s.domOn c = true → s.room = true →
    outSrc e 0 ≠ k → outSrc e 1 ≠ k → outSrc e 2 ≠ k → outSrc e 3 ≠ k → bits e 17 3 ≠ k →
    bits e 12 3 ≠ k ∨ s.fires c t = false →
    Does (.wordArrival (.router c t k) slot .feed .clean) s (fun u =>
      Filed s u 1 0x004 (uTile c t) [(16, k), (16, slot), (8, w.tag.toNat)] ∧
      (∀ p f, s.coreOwner c = some p → f ∈ (u.pipe p).frames → f.admitted = true → f.fif = fifOf w.tag → f.void ≠ none) ∧
      u = (((s.atCoreSlot c slot).putWire (wireKey c t k) ws).setFlt u.flt).setPipes u.pipes)) ∧
  (∀ (s : State) (site : FabSite) (slot : Fin 128) (src : WordFrom) (ecc : EccSeen) (c : Fin 32),
    s.domOn c = false ∨ s.getF (Reg.CC_CTX_PERIOD c (s.ctx c)) ≤ slot.val →
    ((∃ t k, site = .router c t k) ∨ (∃ side lane b, site = .edge c side lane b) ∨ (∃ code, site = .gateway c code) ∨
      (∃ q row, site = .seq c q row) ∨ (∃ b off z, site = .rowBuf c b off z)) →
    exec (.wordArrival site slot src ecc) s = .next s) ∧
  (∀ (s : State) (c : Fin 32) (side : Fin 4) (lane : Fin 16) (slot : Fin 128) (w : QWord) (ws : List QWord),
    s.inPeriod c slot = true → s.wire (edgeWire c side lane) = w :: ws → side ≠ 1 →
    (s.edge c side lane 0).words.length < 8 →
    exec (.wordArrival (.edge c side lane false) slot .feed .clean) s =
      .next ((((s.atCoreSlot c slot).putWire (edgeWire c side lane) ws).putEdge c side lane 0
        { s.edge c side lane 0 with
          words := (s.edge c side lane 0).words ++ [w]
          held := decide (8 ≤ (s.edge c side lane 0).words.length + 1) }).busyCore c)) ∧
  (∀ (s : State) (c : Fin 32) (code : Fin 25) (slot : Fin 128) (w : FabWord), w.src = none → s.inPeriod c slot = true →
    (s.gw c 0 code).words.length + 1 < 32 → (s.gw c 0 code).held = false →
    exec (.wordArrival (.gateway c code) slot (.unit w) .clean) s =
      .next (((s.atCoreSlot c slot).putGw c 0 code { s.gw c 0 code with
        words := (s.gw c 0 code).words ++ [unitWord w s.now] }).busyCore c)) ∧
  (∀ (s : State) (c : Fin 32) (code : Fin 25) (slot : Fin 128) (w : FabWord), w.src = none → s.inPeriod c slot = true →
    32 ≤ (s.gw c 0 code).words.length → s.room = true →
    Does (.wordArrival (.gateway c code) slot (.unit w) .clean) s (fun u =>
      Filed s u 1 0x003 (uCore c) [(5, code), (8, w.tag.toNat)] ∧
      (∀ p f, s.coreOwner c = some p → f ∈ (u.pipe p).frames → f.admitted = true → f.fif = fifOf w.tag → f.void ≠ none) ∧
      u = ((s.atCoreSlot c slot).setFlt u.flt).setPipes u.pipes)) ∧
  (∀ (s : State) (q : Fin 4) (port : Fin 40) (pos : Fin 8) (slot : Fin 128) (w : FabWord) (o : Fin 40), w.src = none →
    s.spineEntry q o slot = some port.val →
    let z := s.atSpineSlot slot
    exec (.wordArrival (.switch q port pos) slot (.unit w) .clean) s =
      .next (z.putFlit (flitKey q port slot) (s.flit (flitKey q port slot) ++ [(pos.val, unitWord w z.now)]))) ∧
  (∀ (s : State) (q : Fin 4) (port : Fin 40) (pos : Fin 8) (slot : Fin 128) (w : FabWord) (o : Fin 40), w.src = none →
    s.spineEntry q o slot = some port.val → s.room = true →
    let z := s.atSpineSlot slot
    Does (.wordArrival (.switch q port pos) slot (.unit w) .single) s (fun u =>
      Filed s u 0 0x001 (uSpine q port) [(16, pos)] ∧
      u = (z.putFlit (flitKey q port slot) (s.flit (flitKey q port slot) ++ [(pos.val, unitWord w z.now)])).setFlt
          u.flt)) ∧
  (∀ (s : State) (q : Fin 4) (port : Fin 40) (pos : Fin 8) (slot : Fin 128) (w : FabWord), w.src = none →
    (∀ o : Fin 40, s.spineEntry q o slot ≠ some port.val) → s.room = true →
    Does (.wordArrival (.switch q port pos) slot (.unit w) .clean) s (fun u =>
      Filed s u 1 0x004 (uSpineSlot q port slot) [(16, pos), (8, w.tag.toNat)] ∧
      (∀ p f, s.inputOwner q port slot = some p → f ∈ (u.pipe p).frames → f.admitted = true → f.fif = fifOf w.tag →
        f.void ≠ none) ∧
      u = ((s.atSpineSlot slot).setFlt u.flt).setPipes u.pipes)) ∧
  (∀ (s : State) (c : Fin 32) (q : Fin 8) (row : Fin 16) (slot : Fin 128) (w : QWord) (ws : List QWord) (f : SeqFrame),
    s.inPeriod c slot = true → (s.edge c 3 row 0).words = w :: ws → s.debugMode = false →
    (s.seqr c q).frames = [f] → f.fif = fifOf w.tag → s.reorders c q f.fif = false →
    exec (.wordArrival (.seq c q row) slot .feed .clean) s =
      .next (((s.atCoreSlot c slot).putEdge c 3 row 0 { s.edge c 3 row 0 with words := ws, held := false }).putSeqr c q
        { s.seqr c q with frames := [{ f with got := f.got + 1, held := f.held ++ [{ word := w }] }] })) ∧
  (∀ (s : State) (c : Fin 32) (q : Fin 8) (row : Fin 16) (slot : Fin 128) (w : QWord) (ws : List QWord) (f : SeqFrame)
      (a : Nat), s.inPeriod c slot = true → (s.edge c 3 row 0).words = w :: ws →
    (s.seqr c q).frames = [f] → f.fif = fifOf w.tag → s.reorders c q f.fif = true → s.reorderSlot c q = some a → a % 8 = 0 →
    Does (.wordArrival (.seq c q row) slot .feed .clean) s (fun u =>
      (u.seqr c q).frames = [{ f with got := f.got + 1, held := f.held ++ [{ word := w, addr := some a }] }] ∧
      u.rdBytes (storeKey c a) 8 = leBytes 8 w.data.toNat ∧ (u.edge c 3 row 0).words = ws ∧
      SameMemBut (fun x => decide (storeKey c a ≤ x ∧ x < storeKey c a + 8)) s u ∧
      (u.reorderSlot c q = none → (u.seqr c q).full = true))) ∧
  (∀ (s : State) (c : Fin 32) (q : Fin 8) (row : Fin 16) (slot : Fin 128) (w : QWord) (ws : List QWord),
    s.inPeriod c slot = true → (s.edge c 3 row 0).words = w :: ws → s.reorders c q (fifOf w.tag) = true →
    s.reorderSlot c q = none → s.room = true →
    Does (.wordArrival (.seq c q row) slot .feed .clean) s (fun u =>
      (u.seqr c q) = { s.seqr c q with full := true } ∧ u.edges = s.edges ∧ SameMem s u ∧
      u = (((s.atCoreSlot c slot).setSeqs u.seqs).setPipes u.pipes).setFlt u.flt)) ∧
  (∀ (s : State) (c : Fin 32) (b : Fin 8) (off : Fin 4194304) (slot : Fin 128) (w : FabWord) (j n : Nat),
    w.src = none → s.inPeriod c slot = true → s.noneDone = true → (s.rbuf c b).cur = some (j, n) →
    let d := s.rbufDesc c b
    exec (.wordArrival (.rowBuf c b off false) slot (.unit w) .clean) s =
      .next (((s.atCoreSlot c slot).storePut c (d.base + j * (d.rowBytes * d.bandRows) + off / 8 * 8) 0
        (leBytes 8 w.data.toNat)).1)) ∧
  (∀ (s : State) (c : Fin 32) (b : Fin 8) (off : Fin 4194304) (endRow : Bool) (slot : Fin 128) (src : WordFrom)
      (ecc : EccSeen), s.inPeriod c slot = true → s.noneDone = true → (s.rbuf c b).cur = none →
    exec (.wordArrival (.rowBuf c b off endRow) slot src ecc) s = .next (s.atCoreSlot c slot))

/-- HOLD_SAMPLE, QUEUE_HEAD_MOVE, JOIN_STALL, FLIT_FORWARD and RELEASE_STALL (R68 to R70, R77, R105, R106, R108, R110, R112, R115, R118,
R213, R231). Hold bits are computed at their sample (log entry 98); the bound of a sequencer is the model's (log entry 103), and
which frames have passed a port (log entry 19). The code and the alignment of a link's units are left out (log entry 121), and the hold
slots that are paired with a circuit's (log entry 102). -/
def Obligations.FabricMoves : Prop :=
  (∀ (s : State) (c : Fin 32) (t : Fin 256) (dir : Fin 4) (slot : Fin 128) (src : HoldFrom), s.inPeriod c slot = true →
    exec (.holdSample (.tile c t dir) slot src) s = .next ((s.atCoreSlot c slot).putTile c t { s.tile c t with
      holdIn := putHold (s.tile c t).holdIn (128 * dir.val) slot (holdBitOf src (s.holdToTile c t dir slot)) })) ∧
  (∀ (s : State) (g : Fin 192) (code : Fin 25) (pos : Fin 8) (slot : Fin 128) (src : HoldFrom),
    let z := s.atSpineSlot slot
    let qp := gatePort g
    let k := holdKey pos (s.slotOwner qp.1 qp.2 slot)
    Does (.holdSample (.gateway g code pos) slot src) s (fun u =>
      (u.gw g 0 code).holdIn.contains k = holdBitOf src (s.holdAtPort 4 qp.1 qp.2 slot pos) ∧
      (∀ i, i ≠ k → (u.gw g 0 code).holdIn.contains i = (s.gw g 0 code).holdIn.contains i) ∧
      (u.gw g 0 code).words = (s.gw g 0 code).words ∧ u = z.setGws u.gws)) ∧
  (∀ (s : State) (c : Fin 32) (side : Fin 4) (lane : Fin 16) (slot : Fin 128) (src : HoldFrom), s.inPeriod c slot = true →
    exec (.holdSample (.edge c side lane) slot src) s = .next ((s.atCoreSlot c slot).putEdge c side lane 1
      { s.edge c side lane 1 with
        holdAt := putHold (s.edge c side lane 1).holdAt 0 slot (holdBitOf src (s.holdToEdge c side lane slot)) })) ∧
  (∀ (s : State) (l pos : Fin 8) (slot : Fin 128) (b : Bool), s.linkUp l = true →
    exec (.holdSample (.link l pos) slot (.unit b)) s = .next (s.onLink l (fun x =>
      { x with holdRx := SMap.put (fun _ => 0) x.holdRx ((slot.val + 3) % 128 * 8 + pos.val) (if b then 2 else 1) }))) ∧
  (∀ (s : State) (c : Fin 32) (t : Fin 256) (q : Fin 4) (w : QWord) (ws : List QWord) (j : Nat),
    let x := s.tile c t
    x.q q = w :: ws → x.slotOf w.tag = none → x.freeTag = some j → s.debugMode = false →
    decide (8 - ws.length ≤ s.tileMargin c t q) = x.holds q →
    Does (.queueHeadMove c t q) s (fun u =>
      let off := bits (s.tileCtl c t) (32 + 3 * q.val) 3
      (u.tile c t).q q = ws ∧
      (u.tile c t).tagAt j = some { tag := w.tag, present := 2 ^ q.val, marks := w.mark.toList } ∧
      (u.tile c t).rdDyn j off = BitVec.ofNat 32 w.data.toNat ∧
      (u.tile c t).rdDyn j (off + 1) = BitVec.ofNat 32 (w.data.toNat / 2 ^ 32) ∧
      u = s.setTiles u.tiles)) ∧
  (∀ (s : State) (c : Fin 32) (t : Fin 256) (q : Fin 4) (w : QWord) (ws : List QWord) (j : Nat) (y : TagSlot),
    let x := s.tile c t
    x.q q = w :: ws → x.slotOf w.tag = some j → x.tagAt j = some y → bit1 y.present q = false →
    decide (8 - ws.length ≤ s.tileMargin c t q) = x.holds q →
    Does (.queueHeadMove c t q) s (fun u =>
      let off := bits (s.tileCtl c t) (32 + 3 * q.val) 3
      (u.tile c t).q q = ws ∧
      (u.tile c t).tagAt j = some { y with present := y.present ||| 2 ^ q.val, marks := y.marks ++ w.mark.toList } ∧
      (u.tile c t).rdDyn j off = BitVec.ofNat 32 w.data.toNat ∧
      (u.tile c t).rdDyn j (off + 1) = BitVec.ofNat 32 (w.data.toNat / 2 ^ 32) ∧
      u = s.setTiles u.tiles)) ∧
  (∀ (s : State) (c : Fin 32) (t : Fin 256) (q : Fin 4) (w : QWord) (ws : List QWord) (j : Nat) (y : TagSlot),
    let x := s.tile c t
    x.q q = w :: ws → x.slotOf w.tag = some j → x.tagAt j = some y → bit1 y.present q = true →
    s.room = true → decide (8 - ws.length ≤ s.tileMargin c t q) = x.holds q →
    Does (.queueHeadMove c t q) s (fun u =>
      Filed s u 1 0x025 (uTile c t) [(8, w.tag.toNat), (5, q)] ∧
      (∀ p f, s.coreOwner c = some p → f ∈ (u.pipe p).frames → f.admitted = true → f.fif = fifOf w.tag → f.void ≠ none) ∧
      u = ((s.putTile c t (x.putQ q ws)).setFlt u.flt).setPipes u.pipes)) ∧
  (∀ (s : State) (c : Fin 32) (t : Fin 256) (q : Fin 4) (w : QWord) (ws : List QWord),
    let x := s.tile c t
    x.q q = w :: ws → x.slotOf w.tag = none → x.freeTag = none → s.room = true →
    Does (.queueHeadMove c t q) s (fun u => u = (s.setFlt u.flt).setPipes u.pipes)) ∧
  (∀ (s : State) (c : Fin 32) (t : Fin 256) (q : Fin 4) (slot : Fin 128) (cycles : Nat),
    let x := s.tile c t
    x.holds q = true → SMap.get (fun _ => false) x.stalled q = false → s.room = true →
    bits (s.getF (Reg.CC_CTX_ROUTER_HDR c (s.ctx c) t)) 28 16 * 16 < cycles →
    Does (.joinStall (.tile c t q) slot cycles) s (fun u =>
      SMap.get (fun _ => false) (u.tile c t).stalled q = true ∧
      Filed s u 1 0x006 (uTile c t) [(5, q), (16, slot)] ∧ u = (s.setTiles u.tiles).setFlt u.flt)) ∧
  (∀ (s : State) (c : Fin 32) (code : Fin 25) (slot : Fin 128) (cycles : Nat),
    (s.gw c 1 code).held = true → (s.gw c 1 code).stalled = false → s.room = true →
    s.getF (Reg.CC_GW_HDR_HOLD_BOUND c (s.ctx c)) * 16 < cycles →
    Does (.joinStall (.gateway c code) slot cycles) s (fun u =>
      (u.gw c 1 code).stalled = true ∧
      Filed s u 1 0x006 (uCore c) [(5, code), (16, slot)] ∧ u = (s.setGws u.gws).setFlt u.flt)) ∧
  (∀ (s : State) (c : Fin 32) (q : Fin 8) (slot : Fin 128) (cycles : Nat),
    (s.seqr c q).full = true → (s.seqr c q).stalled = false → s.room = true → s.seqBound c q * 16 < cycles →
    Does (.joinStall (.seq c q) slot cycles) s (fun u =>
      (u.seqr c q).stalled = true ∧
      Filed s u 1 0x006 (uCore c) [(5, q), (16, slot)] ∧ u = (s.setSeqs u.seqs).setFlt u.flt)) ∧
  (∀ (s : State) (q : Fin 4) (port : Fin 40) (slot : Fin 128) (sent : List EccSeen) (p src : Nat),
    s.slotOwner q port slot = some p → s.spineEntry q port slot = some src → 24 ≤ src → src < 38 →
    24 ≤ port.val → port.val < 36 → s.flit (flitKey q src slot) ≠ [] → s.noneDone = true →
    (s.outputOf (trunkPeer q port) port ((slot + 7) % 128)).isSome = true →
    let k := flitKey (trunkPeer q port) port ((slot + 7) % 128)
    let s1 := (s.atSpineSlot slot).putFlit (flitKey q src slot) []
    exec (.flitForward q port slot .clean ⟨sent, []⟩) s =
      .next (s1.putFlit k (s1.flit k ++ s.flit (flitKey q src slot)))) ∧
  (∀ (s : State) (q : Fin 4) (port : Fin 40) (slot : Fin 128) (sent : List EccSeen) (p src pos code : Nat) (w : QWord),
    s.slotOwner q port slot = some p → s.spineEntry q port slot = some src → 24 ≤ src → src < 38 → port.val < 8 →
    s.flit (flitKey q src slot) = [(pos, w)] → s.noneDone = true → s.debugMode = false →
    let g := coreAt q port
    let x := s.gw g 1 code
    s.gwCode g 1 slot pos (some p) = some code → code ≠ 24 → s.dom g = 3 → s.coreMove g ≠ 1 →
    x.words.length + 1 + s.gwMargin g 1 < 32 → x.held = false →
    exec (.flitForward q port slot .clean ⟨sent, []⟩) s =
      .next (((s.atSpineSlot slot).putFlit (flitKey q src slot) []).putGw g 1 code { x with words := x.words ++ [w] })) ∧
  (∀ (s : State) (q : Fin 4) (port : Fin 40) (slot : Fin 128) (ecc : FlitEcc) (p : Nat),
    s.slotOwner q port slot = some p → s.room = true →
    let k := ((q.val * 40 + port.val) * 4 + s.pipeCtx p) * 128 + slot.val
    let z := s.atSpineSlot slot
    SMap.get (fun _ => false) s.spineBad k = false → s.isFollower p = false →
    (∀ src, s.spineEntry q port slot = some src → s.flit (flitKey q src slot) = []) →
    Does (.flitForward q port slot .double ecc) s (fun u =>
      SMap.get (fun _ => false) u.spineBad k = true ∧ u.spineEntry q port slot = none ∧
      Filed s u 3 0x009 (uSpineSlot q port slot) [] ∧
      u.bmState p = (if s.bmState p = 1 ∨ s.bmState p = 2 ∨ s.bmState p = 3 then 4 else s.bmState p) ∧
      (u.pipe p).frames = (s.pipe p).frames.map (fun f =>
        if f.admitted = true ∧ f.completion = none ∧ (∃ c ∈ (s.pipe p).circs, q.val * 40 + port.val ∈ c.ports ∧
            (c.cores = [] ∨ ∃ x ∈ c.cores, f.owes ((s.pipe p).stagesOn x) = true)) then f.lose z.now else f) ∧
      u.alm = z.alm)) ∧
  (∀ (s : State) (q : Fin 4) (port : Fin 40) (slot : Fin 128) (ecc : FlitEcc) (p src : Nat),
    s.slotOwner q port slot = some p → s.spineEntry q port slot = some src →
    Does (.flitForward q port slot .double ecc) s (fun u =>
      u.flit (flitKey q src slot) = [] ∧ u.spineEntry q port slot = none ∧
      ∀ x ∈ s.flit (flitKey q src slot), ∀ f ∈ (u.pipe p).frames, f.admitted = true → f.fif = fifOf x.2.tag → f.void ≠ none)) ∧
  (∀ (s : State) (q : Fin 4) (port : Fin 40) (slot : Fin 128) (sent : List EccSeen) (p src : Nat),
    s.slotOwner q port slot = some p → s.spineEntry q port slot = some src → 24 ≤ src → src < 38 →
    port.val = 36 ∨ port.val = 37 → s.noneDone = true →
    let l := 2 * q.val + (port.val - 36)
    s.linkUp l = true → s.getF (Reg.QSK_L_LOOP l) = 0 →
    let z := (s.atSpineSlot slot).putFlit (flitKey q src slot) []
    let u := linkUnit 1 slot (z.qlink l).frame (z.linkHold q port slot)
      ((s.flit (flitKey q src slot)).foldl (fun v x => v + fabBits x.2 * 2 ^ (74 * x.1)) 0)
    exec (.flitForward q port slot .clean ⟨sent, []⟩) s = .next (z.setOut (s.out ++ [.quosk l u, .quosk l u]))) ∧
  (∀ (s : State) (c : Fin 32) (b : Fin 8) (cycles : Nat),
    let d := s.rbufDesc c b
    let x := s.rbuf c b
    x.held = true → x.stalled = false → d.holdBound * 256 < cycles → s.room = true →
    Does (.releaseStall c b cycles) s (fun u =>
      (u.rbuf c b) = { x with stalled := true } ∧
      Filed s u 1 0x031 (s.bandUnit c b)
        [(5, b), (8, x.next % max 1 d.nbands),
         (16, (SMap.get (fun _ => {}) x.slots (x.next % max 1 d.nbands)).remaining)] ∧
      u = (s.setRbufs u.rbufs).setFlt u.flt))

/-- ADD, SUB, MAX, MIN, CMP, SEL, RSHR, CLAMP and MOV of a tile (R183, R188, R198, R199). Its word is the body's (log entry
97). -/
def Obligations.TileElementwise : Prop :=
  Elementwise 8 .tileAdd (fun _ a b _ => a + b) ∧
  Elementwise 9 .tileSub (fun _ a b _ => a - b) ∧
  Elementwise 10 .tileMax (fun _ a b _ => max a b) ∧
  Elementwise 11 .tileMin (fun _ a b _ => min a b) ∧
  Elementwise 12 .tileCmp (fun mi a b _ =>
    if mi.md = 0 then b2n (decide (a = b)) else if mi.md = 1 then b2n (decide (a ≠ b))
    else if mi.md = 2 then b2n (decide (a < b)) else if mi.md = 3 then b2n (decide (a ≤ b))
    else if mi.md = 4 then b2n (decide (b < a)) else b2n (decide (b ≤ a))) ∧
  Elementwise 13 .tileSel (fun _ a b k => if k = 0 then b else a) ∧
  Elementwise 14 .tileRshr (fun mi a b _ => if 40 ≤ uint (tyBits mi.ty) b then 0 else divRNE a (2 ^ uint (tyBits mi.ty) b)) ∧
  Elementwise 15 .clamp (fun mi a b k =>
    if mi.imb then
      min ((lanesOf mi.ty (mi.imm.toNat / 256)).getD 0 0) (max ((lanesOf mi.ty (mi.imm.toNat % 256)).getD 0 0) a)
    else min k (max b a)) ∧
  Elementwise 16 .mov (fun mi a b _ => if mi.imb then b else a)

/-- FIRING, NOP, RESUME and EMIT: the life of a firing. Each word is the body's (log entry 97). -/
def Obligations.TileFirings : Prop :=
  (∀ (s : State) (c : Fin 32) (t : Fin 256) (j : Nat) (y : TagSlot), s.domOn c = true → s.fires c t = true →
    (s.tile c t).firing = none → s.nextFire c t = some j → (s.tile c t).tagAt j = some y → y.marks = [] →
    s.flag (Reg.CC_TALLY_CTL_STAGE_EN c) = false →
    Does (.firing c t) s (fun u =>
      s.eligible c t j = true ∧ (∀ k, k < 8 → s.eligible c t k = true → s.fireRank c t j ≤ s.fireRank c t k) ∧
      (u.tile c t).firing = some { slot := j, tag := y.tag } ∧
      (u.tile c t).iterAt (fifOf y.tag) =
        (if bits (s.tileCtl c t) 16 16 ≤ (s.tile c t).iterAt (fifOf y.tag) then 0
         else (s.tile c t).iterAt (fifOf y.tag) + 1) ∧
      u.getF (Reg.CC_TALLY c 2) = (s.getF (Reg.CC_TALLY c 2) + 1) % 2 ^ 48 ∧
      SameRegs [Reg.CC_TALLY c 2] s u ∧ u = (s.setTiles u.tiles).setRegs u.regs)) ∧
  (∀ (s : State) (mi : TileInstr) (x : FiringSt), s.issuesTile 0 mi x = true →
    Does (.nop mi) s (fun t => Issued mi x s t ∧ (t.tile mi.core mi.tile).acc = (s.tile mi.core mi.tile).acc ∧
      (t.tile mi.core mi.tile).dyn = (s.tile mi.core mi.tile).dyn ∧ t = s.setTiles t.tiles)) ∧
  (∀ (s : State) (mi : TileInstr) (x : FiringSt), s.issuesTile 4 mi x = true →
    Does (.resume mi) s (fun t => Issued mi x s t ∧
      t.accOf (fireAt mi x) (accSlotOf (s.accHdr mi.core mi.tile) (fireAt mi x) mi) =
        { index := mi.imm.toNat % 2 ^ 14
          base := if mi.md.val % 2 = 1 then s.rdReg (fireAt mi x) mi.sb % 2 ^ 31 else 0 } ∧
      (t.tile mi.core mi.tile).dyn = (s.tile mi.core mi.tile).dyn ∧ t = s.setTiles t.tiles)) ∧
  (∀ (s : State) (mi : TileInstr) (x : FiringSt), s.issuesTile 19 mi x = true →
    (∀ f, s.tagFrame mi.core x.tag = some f → f.void = none) →
    Does (.emit mi) s (fun t => Issued mi x s t ∧
      (t.tile mi.core mi.tile).outq = (s.tile mi.core mi.tile).outq ++
        [{ data := BitVec.ofNat 64 (s.rdReg (fireAt mi x) mi.sa + 2 ^ 32 * s.rdReg (fireAt mi x) (mi.sa + 1))
           tag := BitVec.ofNat 8 (fifOf x.tag * 32 + (iterOf x.tag + mi.imm.toNat % 32) % 32) }] ∧
      (t.tile mi.core mi.tile).dyn = (s.tile mi.core mi.tile).dyn ∧ t = s.setTiles t.tiles)) ∧
  (∀ (s : State) (mi : TileInstr) (x : FiringSt), s.domOn mi.core = true →
    (s.tile mi.core mi.tile).firing = some x → 2 ≤ (s.tile mi.core mi.tile).outq.length → exec (.emit mi) s = .next s)

/-- MAC, MAXX, MINX and OUT: the accumulators. Each word is the body's (log entry 97). -/
def Obligations.TileAccumulation : Prop :=
  (∀ (s : State) (mi : TileInstr) (x : FiringSt), s.issuesTile 1 mi x = true →
    let f := fireAt mi x
    let h := s.accHdr mi.core mi.tile
    let k := accSlotOf h f mi
    let a := s.accOf f k
    let w := fun (n : Nat) => sint 8 (s.runByte f mi.sa n) * (s.runByte f mi.sb (n % h.cols) : Int)
    a.closed = false → h.fmt = 0 → h.int4 = false → h.carry = false → mi.md.val % 2 = 0 →
    s.passOf mi.core x.tag (s.tileStage mi.core mi.tile) = 0 → h.elemNo (h.cols - 1) a.count + 1 < h.plen →
    s.flag (Reg.CC_TALLY_CTL_STAGE_EN mi.core) = false →
    Does (.mac mi) s (fun t =>
      let a' := t.accOf f k
      a'.count = a.count + 1 ∧ a'.closed = false ∧ Issued mi x s t ∧
      (∀ n, n < h.rows * h.cols →
        if a.count % 16 = 15 then
          a'.chunkOf n = 0 ∧ a'.cellOf n = clampI (-2147483648) 2147483647 (a.cellOf n + (a.chunkOf n + w n)) ∧
          a'.satOf n = (a.satOf n || a'.cellOf n != a.cellOf n + (a.chunkOf n + w n))
        else a'.chunkOf n = a.chunkOf n + w n ∧ a'.cellOf n = a.cellOf n ∧ a'.satOf n = a.satOf n) ∧
      t.getF (Reg.CC_TALLY mi.core 3) = (s.getF (Reg.CC_TALLY mi.core 3) + h.rows * h.cols) % 2 ^ 48 ∧
      SameRegs [Reg.CC_TALLY mi.core 3] s t ∧ t = (s.setTiles t.tiles).setRegs t.regs)) ∧
  Candidates 2 .maxx false ∧ Candidates 3 .minx true ∧
  (∀ (s : State) (mi : TileInstr) (x : FiringSt), s.issuesTile 5 mi x = true →
    let f := fireAt mi x
    let h := s.accHdr mi.core mi.tile
    let k := accSlotOf h f mi
    let a := s.accOf f k
    h.fmt = 1 → mi.dst.val + 2 * h.rows ≤ 64 →
    Does (.out mi) s (fun t =>
      t.accOf f k = a.finish h ∧ Issued mi x s t ∧
      (∀ row, row < h.rows →
        t.rdReg f (mi.dst + 2 * row) = uint 32 (((a.rowPick h row).map (fun p => p.1)).getD 0) ∧
        t.rdReg f (mi.dst + 2 * row + 1) = (match a.rowPick h row with | some p => p.2 % 2 ^ 31 | none => 2 ^ 31)) ∧
      (∀ n, n < 64 → n < mi.dst.val ∨ mi.dst.val + 2 * h.rows ≤ n → t.rdReg f n = s.rdReg f n) ∧
      SameRegs (Reg.CC_TALLY mi.core 13 :: staticRegs s f mi.dst (2 * h.rows)) s t ∧
      t = (s.setTiles t.tiles).setRegs t.regs)) ∧
  (∀ (s : State) (mi : TileInstr) (x : FiringSt), s.issuesTile 5 mi x = true →
    let f := fireAt mi x
    let h := s.accHdr mi.core mi.tile
    let k := accSlotOf h f mi
    let a := s.accOf f k
    h.fmt = 0 → (s.rescDesc mi.core mi.tile).out = 3 → h.corrEn = false → mi.dst.val + 2 * h.rows ≤ 64 →
    Does (.out mi) s (fun t =>
      t.accOf f k = a.finish h ∧ Issued mi x s t ∧
      (∀ row, row < h.rows →
        let total := a.rowTotal h row (List.range h.cols)
        let v := clampI (-2147483648) 2147483647 total
        t.rdReg f (mi.dst + 2 * row) = uint 32 v ∧
        t.rdReg f (mi.dst + 2 * row + 1) = b2n (a.rowSat h row (List.range h.cols) || total != v)) ∧
      (∀ n, n < 64 → n < mi.dst.val ∨ mi.dst.val + 2 * h.rows ≤ n → t.rdReg f n = s.rdReg f n) ∧
      SameRegs (Reg.CC_TALLY mi.core 13 :: staticRegs s f mi.dst (2 * h.rows)) s t ∧
      t = ((s.setTiles t.tiles).setRegs t.regs).setPipes t.pipes))

/-- RESCALE and QUANT (R167 to R170, R200, R201). A quotient by a scale that is not a positive finite number is free (log
entry 17). Each word is the body's (log entry 97). -/
def Obligations.TileConversions : Prop :=
  (∀ (s : State) (mi : TileInstr) (x : FiringSt), s.issuesTile 17 mi x = true →
    let f := fireAt mi x
    let d := s.rescDesc mi.core mi.tile
    d.out = 3 →
    Does (.rescale mi) s (fun t =>
      t.rdReg f mi.dst = s.rdReg f mi.sa ∧ (∀ n, n < 64 → n ≠ mi.dst → t.rdReg f n = s.rdReg f n) ∧ Issued mi x s t ∧
      SameRegs (Reg.CC_TALLY mi.core 13 :: staticRegs s f mi.dst 1) s t ∧
      t = ((s.setTiles t.tiles).setRegs t.regs).setPipes t.pipes)) ∧
  (∀ (s : State) (mi : TileInstr) (x : FiringSt), s.issuesTile 17 mi x = true →
    let f := fireAt mi x
    let d := s.rescDesc mi.core mi.tile
    let lane := mi.md.val % 4
    let e := s.rescEntry f mi.sb
    let cx := s.rescCtx f d (bits (s.rdReg f mi.sc) (8 * lane) 8)
    d.out = 1 → d.epi = 0 → e.act = 0 → e.lo ≤ e.hi →
    Does (.rescale mi) s (fun t =>
      let v := (Rat2.mul (scaledTotal (sint 32 (s.rdReg f mi.sa)) e cx.r) (frameRatio cx.sIn d.sFixed)).rne + (e.zp : Int)
      t.runByte f mi.dst lane = (min (e.hi : Int) (max (e.lo : Int) v)).toNat ∧
      (∀ l, l < 4 → l ≠ lane → t.runByte f mi.dst l = s.runByte f mi.dst l) ∧
      (∀ n, n < 64 → n ≠ mi.dst → t.rdReg f n = s.rdReg f n) ∧ Issued mi x s t ∧
      SameRegs (Reg.CC_TALLY mi.core 13 :: staticRegs s f mi.dst 1) s t ∧
      t = ((s.setTiles t.tiles).setRegs t.regs).setPipes t.pipes)) ∧
  (∀ (s : State) (mi : TileInstr) (x : FiringSt), s.issuesTile 18 mi x = true →
    let f := fireAt mi x
    let lane := mi.md.val % 4
    let b := s.bankOf mi.core x.tag (mi.imm.toNat % 4096)
    Does (.quant mi) s (fun t =>
      (Fmt.fp32.isNan (s.rdReg f mi.sa) = true → t.runByte f mi.dst lane = b.2 % 256) ∧
      (s.rdReg f mi.sa = 0x7F800000 → t.runByte f mi.dst lane = 255) ∧
      (s.rdReg f mi.sa = 0xFF800000 → t.runByte f mi.dst lane = 0) ∧
      (∀ l, l < 4 → l ≠ lane → t.runByte f mi.dst l = s.runByte f mi.dst l) ∧
      (∀ n, n < 64 → n ≠ mi.dst → t.rdReg f n = s.rdReg f n) ∧ Issued mi x s t ∧
      SameRegs (Reg.CC_TALLY mi.core 13 :: staticRegs s f mi.dst 1) s t ∧
      t = ((s.setTiles t.tiles).setRegs t.regs).setPipes t.pipes)) ∧
  (∀ (s : State) (mi : TileInstr) (x : FiringSt) (neg : Bool) (m : Rat2), s.issuesTile 18 mi x = true →
    let f := fireAt mi x
    let lane := mi.md.val % 4
    let b := s.bankOf mi.core x.tag (mi.imm.toNat % 4096)
    Fp.decode Fmt.fp32 (s.rdReg f mi.sa) = .fin neg m →
    Does (.quant mi) s (fun t =>
      t.runByte f mi.dst lane =
        (min 255 (max 0 ((quantQuot (Fp.val neg m) (s.rdReg f mi.sa) b.1).rne + (b.2 : Int)))).toNat ∧
      (∀ l, l < 4 → l ≠ lane → t.runByte f mi.dst l = s.runByte f mi.dst l) ∧ Issued mi x s t ∧
      SameRegs (Reg.CC_TALLY mi.core 13 :: staticRegs s f mi.dst 1) s t ∧
      t = ((s.setTiles t.tiles).setRegs t.regs).setPipes t.pipes))

/-- CARRY_SPILL_ARRIVAL, SEQUENCER_RELEASE, PASS_END and SCALE_FOLD (R55, R76, R134, R135, R145, R147, R176,
R177). A SUM beyond 48 bits wraps (log entry 104); a frame stays known while a fold is owed (log entry 105). -/
def Obligations.SpillsAndStageOutputs : Prop :=
  (∀ (s : State) (c : Fin 32) (col : Fin 16) (w : QWord) (rest : List QWord),
    let d := s.carryDesc c col
    let n := w.data.toNat
    let e := d.base + fifOf w.tag * d.stride + bits n 50 14
    let x := s.carryAt c e
    (s.edge c 2 col 0).words = w :: rest → w.mark = none → d.mode ≤ 1 → bits n 50 14 ≤ d.len → x.ecc = .clean →
    x.last + b2n (bit1 n 49) < d.parts →
    Does (.carrySpillArrival c col .clean) s (fun t =>
      let sum := sint 48 x.value.toNat + sint 48 n
      let kept := if d.mode = 1 then satI 48 sum else sum
      t.carryAt c e = { value := BitVec.ofNat 48 (uint 48 kept), sat := x.sat || bit1 n 48 || kept != sum
                        last := x.last + b2n (bit1 n 49) } ∧
      (t.edge c 2 col 0).words = rest ∧ t = (s.setEdges t.edges).setCarry t.carry)) ∧
  (∀ (s : State) (c : Fin 32) (col : Fin 16) (w : QWord) (rest : List QWord),
    let d := s.carryDesc c col
    let n := w.data.toNat
    let e := d.base + fifOf w.tag * d.stride + bits n 50 14
    let x := s.carryAt c e
    (s.edge c 2 col 0).words = w :: rest → w.mark = none → d.mode ≤ 1 → bits n 50 14 ≤ d.len → x.ecc = .clean →
    d.parts ≤ x.last + b2n (bit1 n 49) → (s.edge c 2 d.outCol 1).words.length < 8 →
    Does (.carrySpillArrival c col .clean) s (fun t =>
      let exact := sint 48 x.value.toNat + sint 48 n
      let kept := if d.mode = 1 then satI 48 exact else sint 48 (uint 48 exact)
      let sum := if d.mode = 1 then divRNE kept 256 else kept
      let y := clampI (-2147483648) 2147483647 sum
      t.carryAt c e = {} ∧ (t.edge c 2 col 0).words = rest ∧
      (t.edge c 2 d.outCol 1).words = (s.edge c 2 d.outCol 1).words ++
        [{ data := BitVec.ofNat 64 (uint 32 y + b2n (x.sat || bit1 n 48 || (decide (d.mode = 1) && kept != exact) || y != sum) *
             2 ^ 32 + bits n 50 14 * 2 ^ 50)
           tag := w.tag }] ∧
      t = ((s.busyCore c).setEdges t.edges).setCarry t.carry)) ∧
  (∀ (s : State) (c : Fin 32) (col : Fin 16) (w : QWord) (rest : List QWord) (seen : EccSeen),
    let d := s.carryDesc c col
    let n := w.data.toNat
    let x := s.carryAt c (d.base + fifOf w.tag * d.stride + bits n 50 14)
    (s.edge c 2 col 0).words = w :: rest → d.mode ≤ 1 → bits n 50 14 ≤ d.len →
    d.parts ≤ x.last + b2n (bit1 n 49) → 8 ≤ (s.edge c 2 d.outCol 1).words.length →
    exec (.carrySpillArrival c col seen) s = .next s) ∧
  (∀ (s : State) (c : Fin 32) (col : Fin 16) (w i : QWord) (rest : List QWord),
    let d := s.carryDesc c col
    let n := w.data.toNat
    let e := d.base + fifOf w.tag * d.stride + bits n 50 14 * 2
    let x := s.carryAt c e
    let y := s.carryAt c (e + 1)
    (s.edge c 2 col 0).words = w :: i :: rest → w.mark = none → 2 ≤ d.mode → bits n 50 14 ≤ d.len → x.ecc = .clean →
    y.ecc = .clean → bit1 i.data.toNat 31 = false →
    (bit1 y.value.toNat 31 = true ∨
      (if d.mode = 3 then sint 48 n < sint 48 x.value.toNat else sint 48 x.value.toNat < sint 48 n) ∨
      (sint 48 n = sint 48 x.value.toNat ∧ i.data.toNat % 2 ^ 31 < y.value.toNat % 2 ^ 31)) →
    x.last + b2n (bit1 n 49) < d.parts →
    Does (.carrySpillArrival c col .clean) s (fun t =>
      (t.carryAt c e) = { x with value := BitVec.ofNat 48 n, sat := x.sat || bit1 n 48, last := x.last + b2n (bit1 n 49) } ∧
      (t.carryAt c (e + 1)) = { y with value := BitVec.ofNat 48 (i.data.toNat % 2 ^ 31) } ∧
      (t.edge c 2 col 0).words = rest ∧ t = (s.setEdges t.edges).setCarry t.carry)) ∧
  (∀ (s : State) (c : Fin 32) (col : Fin 16) (w : QWord) (rest : List QWord) (seen : EccSeen),
    let d := s.carryDesc c col
    (s.edge c 2 col 0).words = w :: rest → w.mark = none → d.mode ≤ 1 → d.len < bits w.data.toNat 50 14 →
    s.room = true →
    Does (.carrySpillArrival c col seen) s (fun t =>
      Filed s t 1 0x103 (uCore c) [(5, col), (16, bits w.data.toNat 50 14), (8, w.tag.toNat)] ∧
      (∀ p f, s.coreOwner c = some p → f ∈ (t.pipe p).frames → f.admitted = true → f.fif = fifOf w.tag → f.void ≠ none) ∧
      (t.edge c 2 col 0).words = rest ∧ t = ((s.setEdges t.edges).setFlt t.flt).setPipes t.pipes)) ∧
  (∀ (s : State) (c : Fin 32) (q : Fin 8) (f : Frame) (y : SeqFrame),
    let d := s.seqDesc c q
    (s.pipe d.pipe).oldestOwing d.stage = some f → (s.pipe d.pipe).frame f.fif = some f →
    (s.seqr c q).frames.find? (fun y => y.fif == f.fif) = some y → d.valid = true → d.outCount ≤ y.got →
    d.retallyMax = 0 ∨ y.settled = true → s.isFollower d.pipe = false →
    (∀ w ∈ y.held, ∀ a, w.addr = some a → a % 8 = 0 ∧ s.eccAt (storeKey c a) = .clean) →
    Does (.sequencerRelease c q) s (fun t =>
      (t.seqr c q).rel = (s.seqr c q).rel ++ y.held.map (fun w =>
        let data := match w.addr with
          | none => w.word.data
          | some a => BitVec.ofNat 64 (fieldLe (s.rdBytes (storeKey c a) 8) 0 8)
        { w.word with data := data
                      mark := match f.void with
                        | some v => some { reason := v.1, time := v.2 }
                        | none => w.word.mark }) ∧
      (t.seqr c q).frames = (s.seqr c q).frames.filter (fun z => z.fif != f.fif) ∧
      (∃ g, (t.pipe d.pipe).frame f.fif = some g ∧ g.stagesDone = f.stagesDone ++ [d.stage] ∧ g.void = f.void ∧
        ((SMap.get (fun _ => (0, 0, 0)) f.outs d.stage).2.1 ≠ 0 → f.void = none → g.saturated = true) ∧
        g.completion = (if f.completion = none ∧ (s.pipe d.pipe).stages.all (fun x =>
            (f.stagesDone ++ [d.stage]).contains x.stage) = true ∧ t.inTransit d.pipe f.fif = false then some s.now
          else f.completion)) ∧
      SameMem s t ∧ t.alm = s.alm ∧ t.tiles = s.tiles ∧ t.edges = s.edges ∧ t.gws = s.gws)) ∧
  (∀ (s : State) (c : Fin 32) (q fif : Fin 8) (streams : List (Fin 32 × Fin 8)) (f : Frame) (y : SeqFrame),
    let d := s.seqDesc c q
    (s.pipe d.pipe).frame fif = some f → (s.seqr c q).frames.find? (fun y => y.fif == fif.val) = some y → d.valid = true →
    d.retallyMax ≠ 0 → d.outCount ≤ y.got → y.settled = false →
    (SMap.get (fun _ => (0, 0, 0)) f.outs d.stage).2.1 = 0 ∨ f.void ≠ none ∨
      d.retallyMax ≤ SMap.get (fun _ => 0) f.attempt d.stage →
    Does (.passEnd c q fif streams) s (fun t =>
      (t.seqr c q) = { s.seqr c q with
        frames := (s.seqr c q).frames.map (fun z => if z.fif = fif.val then { z with settled := true } else z) } ∧
      t.out = s.out ++ streams.map (fun x => .release (BitVec.ofNat 64
        (0x04 * 2 ^ 56 + x.1.val * 2 ^ 50 + x.2.val * 2 ^ 47 + fif.val * 2 ^ 44))) ∧
      t = (s.setSeqs t.seqs).setOut t.out)) ∧
  (∀ (s : State) (c : Fin 32) (q fif : Fin 8) (streams : List (Fin 32 × Fin 8)) (f : Frame) (y : SeqFrame) (g : StageRec),
    let d := s.seqDesc c q
    let r := SMap.get (fun _ => 0) f.attempt d.stage
    (s.pipe d.pipe).frame fif = some f → (s.seqr c q).frames = [y] → y.fif = fif.val → d.valid = true →
    d.retallyMax ≠ 0 → d.outCount ≤ y.got → y.settled = false →
    (SMap.get (fun _ => (0, 0, 0)) f.outs d.stage).2.1 ≠ 0 → f.void = none → r < d.retallyMax →
    (s.pipe d.pipe).stages.find? (fun g => g.stage == d.stage) = some g → (s.pipe d.pipe).quosk = false →
    s.room = true →
    Does (.passEnd c q fif streams) s (fun t =>
      (t.seqr c q) = { s.seqr c q with frames := [{ y with got := 0, held := [] }], full := (t.seqr c q).full
                                       stalled := (t.seqr c q).stalled } ∧
      (8 ≤ d.len → (t.seqr c q).full = false) ∧
      Filed s t 0 0x102 (uCore c) [(8, d.stage), (4, r + 1)] ∧
      t.getF (Reg.CC_TALLY c 12) = (s.getF (Reg.CC_TALLY c 12) + 1) % 2 ^ 48 ∧ SameRegs [Reg.CC_TALLY c 12] s t ∧
      ((t.pipe d.pipe).frame fif).map (fun h => (h.retallied, SMap.get (fun _ => 0) h.attempt d.stage,
        SMap.get (fun _ => (0, 0, 0)) h.outs d.stage)) =
        some (true, r + 1, (0, 0, (SMap.get (fun _ => (0, 0, 0)) f.outs d.stage).2.2)) ∧
      (t.beat d.pipe).nNext = (s.beat d.pipe).nNext +
        (if s.bmState d.pipe = 1 ∨ s.bmState d.pipe = 2 ∨ s.bmState d.pipe = 3 then g.dR else 0) ∧
      t.out = s.out ++ streams.map (fun x => .release (BitVec.ofNat 64
        (0x04 * 2 ^ 56 + x.1.val * 2 ^ 50 + x.2.val * 2 ^ 47 + fif.val * 2 ^ 44 + 2 ^ 42))) ∧
      t = ((((((s.setSeqs t.seqs).setFlt t.flt).setRegs t.regs).setTiles t.tiles).setPipes t.pipes).setBm t.bm).setOut
        t.out)) ∧
  (∀ (s : State) (p : Fin 4) (fif : Fin 8) (stage : Fin 256) (tensor : Fin 4096) (f : Frame) (adapt n : Nat),
    (s.pipe p).toFold fif stage tensor = some (f, adapt) → (s.pipe p).recOf tensor = some n → s.sol.lost = false →
    s.isFollower p = false →
    let a := (s.pipe p).recAddr f.stream n
    let r := s.unitRead a 0
    let old := ScaleRec.ofBytes r.2.bytes
    let o := SMap.get (fun _ => (0#32, 0#32)) f.ranges tensor
    r.2.bad = false → r.2.unavail = false →
    Does (.scaleFold p fif stage tensor) s (fun t =>
      let w := if f.noFold.contains tensor then r.1
        else (r.1.unitWrite a (if f.void = none then old.fold (o.1.toNat, o.2.toNat) adapt f.frameNo
          else old.keep f.frameNo).bytes).1
      (t.pipe p).frames = (w.pipe p).frames.map (fun g => if g.id = f.id then { g with folded := g.folded ++ [tensor.val] } else g) ∧
      t = w.setPipes t.pipes)) ∧
  (∀ (s : State) (p : Fin 4) (fif : Fin 8) (stage : Fin 256) (tensor : Fin 4096), s.sol.lost = true →
    exec (.scaleFold p fif stage tensor) s = .next s)

/-- SECTION_END, CONTEXT_RELOAD_DONE and CONTEXT_SWITCH. -/
def Obligations.SectionSwitching : Prop :=
  (∀ (s : State) (c : Fin 32) (p : Nat) (f : Frame), s.coreOwner c = some p →
    ((s.pipe p).past.filter (fun f => f.inSect) ++ (s.pipe p).frames).find? (fun f => f.admitted) = some f → 2 ≤ (s.pipe p).nsect →
    (s.pipe p).sectDone c (s.getF (Reg.CC_CTX_STAT_SECTION c)) f.stagesDone = true → c.val ∉ (s.pipe p).ended →
    s.domOn c = true → s.coreEmpty c = true →
    (∀ r, r < 16 → (s.carryDesc c r).valid = true → s.residue c (s.carryDesc c r) = []) →
    ((s.pipe p).nsect ≤ 4 ∨ ∃ b ∈ s.coresOf p, b ≠ c.val ∧ b ∉ (s.pipe p).ended) →
    Does (.sectionEnd c) s (fun t =>
      t.getF (Reg.CC_CTX_STAT_ENDED c) = 1 ∧
      t.flag (Reg.CC_CTX_STAT_RELOAD c) = (s.flag (Reg.CC_CIMG_CTL_EN c) || s.flag (Reg.CC_CTX_STAT_RELOAD c)) ∧
      SameRegs [Reg.CC_CTX_STAT_ENDED c, Reg.CC_CTX_STAT_RELOAD c] s t ∧
      (t.pipe p) = { s.pipe p with ended := (s.pipe p).ended ++ [c.val] } ∧
      t = (s.setRegs t.regs).setPipes t.pipes)) ∧
  (∀ (s : State) (c : Fin 32) (p : Nat), s.coreOwner c = some p → s.flag (Reg.CC_CTX_STAT_RELOAD c) = true →
    let j := (s.ctx c + 1) % 4
    let off := s.getF (Reg.CC_CIMG_BASE c) +
      (s.pipe p).nextSect (s.getF (Reg.CC_CTX_STAT_SECTION c)) * s.getF (Reg.CC_CIMG_STRIDE c)
    let r := s.readImage c off
    Does (.contextReloadDone c) s (fun t =>
      t.flag (Reg.CC_CTX_STAT_RELOAD c) = false ∧ t.mem = r.1.mem ∧
      (r.2.2 = none → (t.pipe p) = { r.1.pipe p with reloaded := (r.1.pipe p).reloaded ++ [c.val] } ∧
        t.flt = r.1.flt ∧ t.getF (Reg.CC_CTX_CTL c j 0) = fieldLe r.2.1 0 8 % 2 ^ 56 ∧
        t.getF (Reg.CC_CTX_PERIOD c j) = fieldLe r.2.1 0x30000 8 % 2 ^ 6 ∧
        t.word (Reg.CC_CTX_PERIOD c j).off = imageBits (Reg.CC_CTX_PERIOD c j).off (fieldLe r.2.1 0x30000 8)) ∧
      (r.2.2 ≠ none → (t.pipe p).ctxFail = true ∧ (t.pipe p).reloaded = (r.1.pipe p).reloaded))) ∧
  (∀ (s : State) (p : Fin 4), 2 ≤ (s.pipe p).nsect → (s.pipe p).ctxFail = false →
    (∀ c ∈ s.coresOf p, c ∈ (s.pipe p).ended) →
    ((s.pipe p).nsect ≤ 4 ∨ ∀ c ∈ s.coresOf p, c ∈ (s.pipe p).reloaded) → (s.coresOf p).Nodup →
    Does (.contextSwitch p) s (fun t =>
      (∀ c ∈ s.coresOf p,
        t.ctx c = (s.ctx c + 1) % (min 4 (s.pipe p).nsect) ∧
        t.getF (Reg.CC_CTX_STAT_SECTION c) = (s.getF (Reg.CC_CTX_STAT_SECTION c) + 1) % (s.pipe p).nsect % 2 ^ 8 ∧
        t.getF (Reg.CC_CTX_STAT_ENDED c) = 0 ∧
        t.getF (Reg.CC_TALLY c 10) = (s.getF (Reg.CC_TALLY c 10) + 1) % 2 ^ 48 ∧
        (t.core c).slot = 0 ∧ (∀ b, b < 8 → t.rbuf c b = {})) ∧
      (t.pipe p).ended = [] ∧ (t.pipe p).reloaded = [] ∧
      (s.bmState p ≠ 5 →
        t = ((((s.setRegs t.regs).setCores t.cores).setRbufs t.rbufs).setFstr t.fstr).setPipes t.pipes)))

/-- HEARTBEAT_TOKEN, HEARTBEAT_DEADLINE, CORE_LOST, RETAIN_ACCESS_TIMEOUT, TALLY_SNAP, TALLY_CLEAR, CONTEXT_WINDOW_WRITE and
CC_WDENY_READ (R84, R85, R88, R91, R483, R566, R574). -/
def Obligations.CoreUnits : Prop :=
  (∀ (s : State) (token : W64) (u : Nat) (e : HbExpect), tokenUnit token = some u → s.domHolds u = true →
    (s.core u).expects.find? (fun e => e.beat % 2 ^ 32 == bits token.toNat 0 32 && e.pipe == bits token.toNat 46 2) = some e →
    s.now ≤ e.due →
    Does (.heartbeatToken token) s (fun t =>
      (t.core u) = { s.core u with expects := (s.core u).expects.erase e } ∧
      (u < 32 → t.getF (Reg.CC_HB_STAT_MISS u) = 0 ∧ SameRegs [Reg.CC_HB_STAT_MISS u] s t ∧ t.sol = s.sol) ∧
      (u = 32 → t.sol = { s.sol with miss := 0 } ∧ t.regs = s.regs) ∧
      t = ((s.setCores t.cores).setRegs t.regs).setSol t.sol)) ∧
  (∀ (s : State) (c : Fin 32) (beat pipe : Nat) (e : HbExpect), pipe < 4 → beat < 2 ^ 32 →
    (s.core c).expects = [e] → e.beat = beat → e.pipe = pipe → s.now ≤ e.due → s.domHolds c = true →
    Does (.heartbeatToken (BitVec.ofNat 64 (beat + pipe * 2 ^ 46 + c.val * 2 ^ 48 + 2 ^ 56))) s (fun t =>
      t.getF (Reg.CC_HB_STAT_MISS c) = 0 ∧ SameRegs [Reg.CC_HB_STAT_MISS c] s t ∧
      (t.core c) = { s.core c with expects := [] } ∧ t = (s.setCores t.cores).setRegs t.regs)) ∧
  (∀ (s : State) (c : Fin 32) (e : HbExpect) (rest : List HbExpect), (s.core c).expects = e :: rest →
    s.getF (Reg.CC_HB_STAT_MISS c) + 1 < s.missLimit → s.missLimit ≤ 15 → s.domHolds c = true →
    bit1 (s.getF Reg.MGT_CORE_LOST) c = false →
    Does (.heartbeatDeadline ⟨c.val, by omega⟩) s (fun t =>
      t.getF (Reg.CC_HB_STAT_MISS c) = s.getF (Reg.CC_HB_STAT_MISS c) + 1 ∧ SameRegs [Reg.CC_HB_STAT_MISS c] s t ∧
      (t.core c) = { s.core c with expects := rest } ∧ t.alm = (s.reach e.due).alm ∧
      t = ((s.setAlm t.alm).setCores t.cores).setRegs t.regs)) ∧
  (∀ (s : State) (c : Fin 32) (token : W64), tokenUnit token = some c.val → s.domHolds c = false → s.room = true →
    SMap.get (fun _ => false) s.pwr.offRaised c = false →
    Does (.heartbeatToken token) s (fun t => Filed s t 1 0x022 (uCore c) [(4, 1)] ∧
      SMap.get (fun _ => false) t.pwr.offRaised c = true ∧ t = (s.setPwr t.pwr).setFlt t.flt)) ∧
  (∀ (s : State) (c : Fin 32) (e : HbExpect) (rest : List HbExpect), (s.core c).expects = e :: rest →
    s.domHolds c = false ∨ bit1 (s.getF Reg.MGT_CORE_LOST) c = true →
    exec (.heartbeatDeadline ⟨c.val, by omega⟩) s =
      .next ((s.reach e.due).putCore c { s.core c with expects := rest })) ∧
  (∀ (s : State) (c : Fin 32) (storage : Bool), s.domHolds c = true → bit1 (s.getF Reg.MGT_CORE_LOST) c = false →
    s.room = true →
    Does (.coreLost c storage) s (fun t =>
      t.getF Reg.MGT_CORE_LOST = s.getF Reg.MGT_CORE_LOST + 2 ^ c.val ∧
      Filed s t 3 0x021 (uCore c) [(4, if storage then 1 else 4)] ∧
      (s.coreOwner c = none → SameRegs [Reg.MGT_CORE_LOST] s t ∧ OnlyRegsFaults s t) ∧
      (∀ p, s.coreOwner c = some p → s.isFollower p = false →
        t.bmState p = (if s.bmState p = 1 ∨ s.bmState p = 2 ∨ s.bmState p = 3 then 4 else s.bmState p) ∧
        (t.pipe p).frames = (s.pipe p).frames.map (fun f =>
          if f.admitted = true ∧ f.owes ((s.pipe p).stagesOn c) = true then f.lose s.now else f)))) ∧
  (∀ (s : State) (c : Fin 32) (storage : Bool),
    s.domHolds c = false ∨ bit1 (s.getF Reg.MGT_CORE_LOST) c = true → exec (.coreLost c storage) s = .next s) ∧
  (∀ (s : State) (c : Fin 32) (h : HeldPart), s.held.find? (fun h => h.unit == c.val) = some h →
    (s.reqOf h.id).codes.contains 0x029 = false → s.room = true →
    Does (.retainAccessTimeout c) s (fun t =>
      t.held = s.held.erase h ∧ t.alm = (s.reach h.due).alm ∧ SameMem s t ∧
      Filed s t 1 0x029 (uCore c) [(43, h.addr / 32), (16, s.dom c)])) ∧
  (∀ (s : State) (c : Fin 32) (h : HeldPart) (q : Nat), s.held.find? (fun h => h.unit == c.val) = some h →
    s.reqOf h.id = { left := 1, dest := .service q } → h.data ≠ none → s.room = true → s.noneDone = true →
    Does (.retainAccessTimeout c) s (fun t =>
      t.held = s.held.erase h ∧ t.alm = (s.reach h.due).alm ∧
      t.resp = some { status := .addressUnavailable, value := 0#64, req := q } ∧
      Filed s t 1 0x029 (uCore c) [(43, h.addr / 32), (16, s.dom c)] ∧
      t = ((((s.setAlm t.alm).setFlt t.flt).setHeld t.held).setReqs t.reqs).setResp t.resp)) ∧
  (∀ (s : State) (c : Fin 32) (w : WriteReq) (i : Nat), s.takesAct w (Reg.CC_TALLY_CTL_SNAP c).off = true → i < 16 →
    wBit w (Reg.CC_TALLY_CTL_SNAP c) = true → wBit w (Reg.CC_TALLY_CTL_CLEAR c) = false →
    Does (.tallySnap c w) s (fun t =>
      t.getF (Reg.CC_TALLY_SH c i) = s.getF (Reg.CC_TALLY c i) ∧ t.getF (Reg.CC_TALLY c i) = s.getF (Reg.CC_TALLY c i) ∧
      t.getF (Reg.CC_TALLY_SNAPT c) = s.now ∧ OnlyRegs s t)) ∧
  (∀ (s : State) (c : Fin 32) (w : WriteReq) (i : Nat), s.takesAct w (Reg.CC_TALLY_CTL_SNAP c).off = true → i < 16 →
    wBit w (Reg.CC_TALLY_CTL_CLEAR c) = true →
    Does (.tallyClear c w) s (fun t =>
      t.getF (Reg.CC_TALLY c i) = 0 ∧
      t.getF (Reg.CC_TALLY_SH c i) =
        (if wBit w (Reg.CC_TALLY_CTL_SNAP c) then s.getF (Reg.CC_TALLY c i) else s.getF (Reg.CC_TALLY_SH c i)) ∧
      OnlyRegs s t)) ∧
  (∀ (s : State) (c : Fin 32) (w : WriteReq), s.takes w (Reg.CC_TALLY_CTL_SNAP c).off = true → s.domOn c = false →
    Does (.tallyClear c w) s (fun t => (∀ i, i < 16 → t.getF (Reg.CC_TALLY c i) = s.getF (Reg.CC_TALLY c i)) ∧
      OnlyRegs s t)) ∧
  (∀ (s : State) (c : Fin 32) (o : Fin 0xE0000) (w : WriteReq),
    let off := 0x1000000 + 0x100000 * c.val + o.val / 8 * 8
    s.takes w off = true →
    (if inImem o then ∀ j, j < 16 → s.slotState c j ≠ 1 else s.corePlaced c = false) →
    Does (.contextWindowWrite c o w) s (fun t =>
      t.word off = mergeWrite (Reg.fields off) w.half (w.value &&& ~~~(BitVec.ofNat 64 (winReserved (o.val / 8 * 8)))) (s.word off) ∧
      t = (s.setWord off (t.word off)).answer .ok 0#64)) ∧
  (∀ (s : State) (c : Fin 32) (o : Fin 0xE0000) (w : WriteReq),
    s.takes w (0x1000000 + 0x100000 * c.val + o.val / 8 * 8) = true → inImem o = false → s.corePlaced c = true →
    Does (.contextWindowWrite c o w) s (fun t =>
      t.getF (Reg.CC_WDENY_COUNT c) = satN 16 (s.getF (Reg.CC_WDENY_COUNT c) + 1) ∧
      SameRegs [Reg.CC_WDENY_COUNT c] s t ∧ OnlyRegs s t)) ∧
  (∀ (s : State) (c : Fin 32) (r : ReadReq), s.domHolds c = true → coversLo r.half = true →
    Does (.ccWdenyRead c r) s (fun t =>
      t.resp.map (fun x => (x.status, bits x.value.toNat 0 16)) = some (.ok, s.getF (Reg.CC_WDENY_COUNT c)) ∧
      t.getF (Reg.CC_WDENY_COUNT c) = 0 ∧ SameRegs [Reg.CC_WDENY_COUNT c] s t ∧ OnlyRegs s t))

/-- BAND_WRITE_START, FETCH_STREAM_SEND, SETTLE and REFETCH (R213, R216, R217, R219). A band is made whole (log entry 86). -/
def Obligations.WindowStreams : Prop :=
  (∀ (s : State) (c : Fin 32) (b : Fin 8) (p fif : Nat),
    let x := s.rbuf c b
    let d := s.rbufDesc c b
    let j := x.next % max 1 d.nbands
    s.coreOwner c = some p → s.nextBandFif p x = some fif → x.cur = none →
    (SMap.get (fun _ => {}) x.slots j : RingSlot).remaining = 0 →
    Does (.bandWriteStart c b .stage) s (fun t =>
      (t.rbuf c b).cur = some (j, 0) ∧ (t.rbuf c b).fif = some fif ∧ (t.rbuf c b).next = x.next + 1 ∧
      (t.rbuf c b).band = (x.band + 1) % max 1 d.bands ∧ (t.rbuf c b).held = false ∧
      (t.rbuf c b).stalled = false ∧
      SMap.get (fun _ => {}) (t.rbuf c b).slots j = ({ fif := fif, band := x.band } : RingSlot) ∧
      (x.band ≠ 0 → t.fstr = s.fstr) ∧
      (x.band = 0 → ∀ e, e < 8 → t.fstr' c e =
        if (s.fstrDesc c e).src = c.val ∧ (s.fstrDesc c e).buf = b.val then
          { s.fstr' c e with freed := (s.fstr' c e).freed.filter (fun f => f != fif) } else s.fstr' c e) ∧
      t = (s.setRbufs t.rbufs).setFstr t.fstr)) ∧
  (∀ (s : State) (c : Fin 32) (b : Fin 8) (p fif : Nat),
    let x := s.rbuf c b
    s.coreOwner c = some p → s.nextBandFif p x = some fif → x.cur = none → fif < 8 → s.room = true →
    (SMap.get (fun _ => {}) x.slots (x.next % max 1 (s.rbufDesc c b).nbands) : RingSlot).remaining ≠ 0 →
    Does (.bandWriteStart c b .stage) s (fun t => BandHeld s t c b p fif (s.bandUnit c b) (s.gwStage c 18))) ∧
  (∀ (s : State) (c : Fin 32) (b : Fin 8) (p fif : Nat) (f : Frame) (rest : List (Nat × Nat)),
    let x := s.rbuf c b
    let d := s.rbufDesc c b
    let j := x.next % max 1 d.nbands
    s.coreOwner c = some p → s.sol.mac = (p, fif) :: rest → (s.pipe p).frame fif = some f → s.sol.lost = false →
    s.domOn 32 = true → s.nextBandFif p x = some fif → x.cur = none →
    ((SMap.get (fun _ => {}) x.slots j : RingSlot).remaining = 0 →
      Does (.bandWriteStart c b .stem) s (fun t => BandMade x j (max 1 d.bands) fif (t.rbuf c b))) ∧
    ((SMap.get (fun _ => {}) x.slots j : RingSlot).remaining ≠ 0 →
      fif < 8 → s.room = true →
      Does (.bandWriteStart c b .stem) s (fun t => BandHeld s t c b p fif (s.bandUnit c b) ((s.pipe p).stageOf 3)))) ∧
  (∀ (s : State) (c : Fin 32) (b g : Fin 8) (p fif : Nat) (st : StageRec),
    let x := s.rbuf c b
    let d := s.rbufDesc c b
    let k := s.dwDesc c
    let j := x.next % max 1 d.nbands
    s.coreOwner c = some p → s.dwStage p c = some st → s.nextBandFif p x = some fif → k.valid = true → k.outBuf = b.val →
    (∀ y ∈ k.rows (x.band * d.bandRows) (x.band * d.bandRows + d.rowsOf x.band - 1),
      (s.sourceRow p c (s.fstrDesc c k.engine) fif y).isSome = true) → x.cur = none →
    (RescDesc.ofWords (s.getF (Reg.CC_RSC c (s.ctx c) g 0)) 0).epi = 0 →
    ((SMap.get (fun _ => {}) x.slots j : RingSlot).remaining = 0 →
      Does (.bandWriteStart c b (.depthwise g none)) s (fun t => BandMade x j (max 1 d.bands) fif (t.rbuf c b))) ∧
    ((SMap.get (fun _ => {}) x.slots j : RingSlot).remaining ≠ 0 →
      fif < 8 → s.room = true →
      Does (.bandWriteStart c b (.depthwise g none)) s (fun t => BandHeld s t c b p fif (s.bandUnit c b) st.stage))) ∧
  (∀ (s : State) (c : Fin 32) (b g : Fin 8), (RescDesc.ofWords (s.getF (Reg.CC_RSC c (s.ctx c) g 0)) 0).epi ≠ 0 →
    exec (.bandWriteStart c b (.depthwise g none)) s = .next s) ∧
  (∀ (s : State) (c : Fin 32) (e : Fin 8) (tensor : Fin 4096) (r : Fin 16) (p fif i a : Nat) (x : FStream),
    let d := s.fstrDesc c e
    let o := 8 * (i % max 1 d.rowWords)
    s.coreOwner c = some p → d.valid = true → s.domOn c = true → (s.edge c 3 r 1).words.length < 8 → i + 1 < d.total →
    s.streamNext p c e d = some (fif, i, x) → d.rowsOnly = true → d.src ≠ 63 → d.rhold = true → s.ecc = [] →
    (match (s.pipe p).frame fif with | some f => f.void.isNone | none => true) = true →
    s.ringOff d.src d.buf fif (d.rowLo + i / max 1 d.rowWords) o = some a → o + 8 ≤ rowPitch d.layout d.wIn d.cTotal →
    (∀ k, k < 8 → unusedByte d.layout d.wIn d.cTotal (o + k) = false) →
    Does (.fetchStreamSend c e tensor (.row r)) s (fun t =>
      (t.edge c 3 r 1).words = (s.edge c 3 r 1).words ++
        [{ data := BitVec.ofNat 64 (ofLe (s.rdBytes (storeKey d.src a) 8))
           tag := BitVec.ofNat 8 (fif * 32 + i / max 1 d.wordsPerIt % 32) }] ∧
      t.fstr' c e = { x with cur := some (fif, i + 1) } ∧ t = ((s.busyCore c).setEdges t.edges).setFstr t.fstr)) ∧
  (∀ (s : State) (c : Fin 32) (e : Fin 8) (tensor : Fin 4096) (code : Fin 25), code.val ≠ 16 + e.val →
    exec (.fetchStreamSend c e tensor (.gateway code)) s = .next s) ∧
  (∀ (s : State) (c : Fin 32) (e fif : Fin 8) (p : Nat) (f : Frame),
    let d := s.fstrDesc c e
    s.coreOwner c = some p → d.valid = true → d.rhold = true → s.holdsBands c e d fif = true →
    (s.pipe p).frame fif = some f → c.val * 8 + e.val ∉ f.sent →
    Does (.settle c e fif) s (fun t =>
      t.fstr' c e = { s.fstr' c e with settled := (s.fstr' c e).settled ++ [fif.val] } ∧ t = s.setFstr t.fstr)) ∧
  (∀ (s : State) (c : Fin 32) (e fif : Fin 8) (p : Nat) (f : Frame),
    let d := s.fstrDesc c e
    s.coreOwner c = some p → d.valid = true → d.rhold = true → s.holdsBands c e d fif = true →
    (s.pipe p).frame fif = some f → c.val * 8 + e.val ∈ f.sent → fif.val ∉ (s.fstr' c e).again →
    let x := s.rbuf d.src d.buf
    Does (.settle c e fif) s (fun t =>
      (∀ b ∈ s.stripeBands d, ∀ j, x.slotFor (s.rbufDesc d.src d.buf).nbands fif b = some j →
        (SMap.get (fun _ => {}) (t.rbuf d.src d.buf).slots j : RingSlot).remaining + 1 =
          (SMap.get (fun _ => {}) x.slots j : RingSlot).remaining) ∧
      t.fstr' c e = { s.fstr' c e with freed := (s.fstr' c e).freed ++ [fif.val] } ∧
      t = (s.setRbufs t.rbufs).setFstr t.fstr)) ∧
  (∀ (s : State) (c : Fin 32) (e fif : Fin 8) (p : Nat),
    let d := s.fstrDesc c e
    s.coreOwner c = some p → d.valid = true → d.rhold = true → s.holdsBands c e d fif = true →
    Does (.refetch c e fif) s (fun t =>
      t.fstr' c e = { s.fstr' c e with again := (s.fstr' c e).again ++ [fif.val] } ∧ t = s.setFstr t.fstr)) ∧
  (∀ (s : State) (c : Fin 32) (e fif : Fin 8) (p : Nat),
    let d := s.fstrDesc c e
    s.coreOwner c = some p → d.valid = false ∨ d.rhold = false ∨ s.holdsBands c e d fif = false → s.room = true →
    Does (.settle c e fif) s (fun t =>
      Filed s t 1 0x032 (uCore c) [(5, e), (4, 0)] ∧ t = (s.setFlt t.flt).voidFrame p fif 7) ∧
    Does (.refetch c e fif) s (fun t =>
      Filed s t 1 0x032 (uCore c) [(5, e), (4, 1)] ∧ t = (s.setFlt t.flt).voidFrame p fif 7))

/-- STEM_SCAN_DONE, STEM_PASS_DONE, TAIL_DONE, SOLSTICE_LOST and DEPTHWISE_FRAME (R157 to R159, R225, R229, R232, R233, R235). The place of
a RAW output is the model's choice (log entry 110). -/
def Obligations.SolsticeEngine : Prop :=
  (∀ (s : State) (p fif : Nat) (f g : Frame),
    let s1 := s.readInput p f
    let tensor := (s.pipe p).sol.stem.desc.inT
    let d := let r := (s.stemInputs p f).foldl rangeTake (0, 0); deriveScale r.1 r.2
    s.sol.scan = some (p, fif) → (s.pipe p).frame fif = some f → s.sol.lost = false → s.domOn 32 = true →
    (s1.pipe p).frame fif = some g →
    Does .stemScanDone s (fun t =>
      (t.pipe p).frame fif = some { g with bank := g.bank ++ [(tensor, (BitVec.ofNat 32 d.s, d.z))],
                                           collapsed := g.collapsed || d.collapsed, scan := none } ∧
      t.sol = { s1.sol with scan := none, mac := s1.sol.mac ++ [(p, fif)] } ∧
      (d.collapsed = false → t.flt = s1.flt) ∧
      (d.collapsed = true → s1.room = true → Filed s1 t 0 0x106 uSol [(12, tensor), (4, 0)]) ∧
      t = ((s1.setPipes t.pipes).setSol t.sol).setFlt t.flt)) ∧
  (∀ (s : State) (p fif : Nat) (rest : List (Nat × Nat)) (f : Frame) (errs : List (Fin 327680 × Bool)),
    let q := s.pipe p
    let k := q.sol.stem
    let x := s.rbuf k.outCore k.outBuf
    let st := q.stageOf 3
    s.sol.mac = (p, fif) :: rest → q.frame fif = some f → x.fif = some fif → x.band = 0 → x.cur = none →
    s.sol.lost = false →
    Does (.stemPassDone errs) s (fun t =>
      t.sol = { (s.solErrs errs).sol with mac := rest } ∧
      (s.isFollower p = false → ∃ g, (t.pipe p).frame fif = some g ∧ g.stagesDone = f.stagesDone ++ [st] ∧
        g.completion = (if f.completion = none ∧ q.stages.all (fun x => (f.stagesDone ++ [st]).contains x.stage) = true ∧
          s.inTransit p fif = false then some s.now else f.completion)) ∧
      t.mem = s.mem ∧ t.alm = s.alm ∧ t.tiles = s.tiles ∧ t.rbufs = s.rbufs ∧ t.seqs = s.seqs)) ∧
  (∀ (s : State) (p fif : Nat) (rest : List (Nat × Nat)) (f : Frame) (errs : List (Fin 327680 × Bool)),
    let q := s.pipe p
    let ws := SMap.get (fun _ => []) s.sol.tailIn (p * 8 + fif)
    s.sol.tail = (p, fif) :: rest → q.frame fif = some f → q.sol.tail.inWords ≤ ws.length → s.sol.lost = false →
    s.domOn 32 = true →
    Does (.tailDone errs) s (fun t =>
      t.sol = (s.setSol { (s.solErrs errs).sol with
        tail := rest, tailIn := SMap.put (fun _ => []) s.sol.tailIn (p * 8 + fif) [] }).settleTail.sol ∧
      (s.isFollower p = false → ∃ g, (t.pipe p).frame fif = some g ∧ g.stagesDone = f.stagesDone ++ [q.stageOf 4] ∧
        (ws.any (fun w => w.mark.isSome) = true → g.void ≠ none)) ∧
      t.alm = s.alm ∧ t.tiles = s.tiles ∧ t.rbufs = s.rbufs ∧ t.seqs = s.seqs)) ∧
  (∀ (s : State) (p fif off : Nat) (rest : List (Nat × Nat)) (f : Frame),
    let q := s.pipe p
    let k := q.sol.tail
    let st := q.stageOf 4
    let ws := SMap.get (fun _ => []) s.sol.tailIn (p * 8 + fif)
    let bs := ws.flatMap (fun w => leBytes 8 w.data.toNat)
    let code := fun (y x ch : Nat) =>
      ((fieldLe bs (y * (ceilDiv (rowPitch k.inLayout k.inW k.inC) 8) * 8 + rowOffset k.inLayout k.inW k.inC x ch) 1 : Nat) :
        Int) - ((s.bankFif p fif k.desc.inT).2 : Int)
    let total := s.convTotal q.solBase k code 0 0 0
    let v := clampI (-2147483648) 2147483647 total
    s.sol.tail = (p, fif) :: rest → q.frame fif = some f → k.inWords ≤ ws.length → s.sol.lost = false →
    s.domOn 32 = true → s.sol.wecc = [] → k.desc.out = 3 → k.outLayout = 0 → k.hOut = 1 →
    k.wOut = 1 → k.outC = 1 → s.isFollower p = false → s.place (q.bankAddr fif + k.outOff) = .host off → off % 32 = 0 →
    Does (.tailDone []) s (fun t =>
      t.mem = (s.wrBytes (hostKey off) (sliceB (leBytes 8 (uint 32 v + 2 ^ 32 * b2n (total != v))) 0 32)).mem ∧
      t.sol.tail = rest ∧
      (∃ g, (t.pipe p).frame fif = some g ∧ g.stagesDone = f.stagesDone ++ [st] ∧
        (ws.any (fun w => w.mark.isSome) = true → g.void ≠ none) ∧
        (ws.all (fun w => w.mark.isNone) = true → g.void = f.void ∧ (total ≠ v → f.void = none → g.saturated = true)) ∧
        g.completion = (if f.completion = none ∧ q.stages.all (fun x => (f.stagesDone ++ [st]).contains x.stage) = true ∧
          s.inTransit p fif = false then some s.now else f.completion)))) ∧
  (∀ (s : State) (cause : Fin 4), s.sol.lost = false → s.room = true →
    Does (.solsticeLost cause) s (fun t => t.sol = { s.sol with lost := true } ∧ Filed s t 3 0x033 uSol [(4, cause)] ∧
      (∀ n, n < 4 → s.isFollower n = false →
        if s.loaded n = true ∧ (s.pipe n).usesSol = true then
          t.bmState n = (if s.bmState n = 1 ∨ s.bmState n = 2 ∨ s.bmState n = 3 then 4 else s.bmState n) ∧
          (t.pipe n).frames = (s.pipe n).frames.map (fun f =>
            if f.admitted = true ∧ (s.pipe n).needsSol f = true then f.lose s.now else f)
        else t.bmState n = s.bmState n ∧ t.pipe n = s.pipe n) ∧
      ((∀ n, n < 4 → s.loaded n = false) → t = (s.setSol t.sol).setFlt t.flt))) ∧
  (∀ (s : State) (cause : Fin 4), s.sol.lost = true → exec (.solsticeLost cause) s = .next s) ∧
  (∀ (s : State) (c : Fin 32) (p fif : Nat) (st : StageRec) (f : Frame),
    let d := s.dwDesc c
    let x := s.rbuf c d.outBuf
    s.coreOwner c = some p → s.dwStage p c = some st → x.fif = some fif → d.valid = true → x.band = 0 → x.cur = none →
    (s.pipe p).frame fif = some f → st.stage ∉ f.stagesDone →
    (∀ y ∈ (s.seqr st.seqCore st.seq).frames, y.fif ≠ fif) →
    Does (.depthwiseFrame c) s (fun t =>
      t.seqr st.seqCore st.seq = { s.seqr st.seqCore st.seq with
        frames := (s.seqr st.seqCore st.seq).frames ++ [{ fif := fif, got := st.outCount }] } ∧ t = s.setSeqs t.seqs))

/-- Integer arithmetic of the vector engine (R260, R261, Table 9-7). Each word is the one at the PC (log entry 97). -/
def Obligations.VectorIntegerArithmetic : Prop :=
  VecElem 0 .add intFmt (fun s v e => wrapped v (intA s v e + intB s v e)) ∧
  VecElem 8 .adds intFmt (fun s v e => saturated v (intA s v e + intB s v e)) ∧
  VecElem 16 .sub intFmt (fun s v e => wrapped v (intA s v e - intB s v e)) ∧
  VecElem 24 .subs intFmt (fun s v e => saturated v (intA s v e - intB s v e)) ∧
  VecElem 32 .mul intFmt (fun s v e => wrapped v (intA s v e * intB s v e)) ∧
  VecElem 40 .mulh intFmt (fun s v e => wrapped v (intA s v e * intB s v e / (2 ^ fmtBits v.fmt : Nat))) ∧
  VecElem 48 .min intFmt (fun s v e => wrapped v (min (intA s v e) (intB s v e))) ∧
  VecElem 56 .max intFmt (fun s v e => wrapped v (max (intA s v e) (intB s v e))) ∧
  VecElem 64 .abs intFmt (fun s v e => saturated v ((intA s v e).natAbs : Int)) ∧
  VecElem 80 .rshr intFmt (fun s v e =>
    wrapped v (if fmtBits v.fmt < srcEl s v v.vb e then 0 else divRNE (intA s v e) (2 ^ srcEl s v v.vb e))) ∧
  VecMask 88 .cmp (fun v => intFmt v && decide (v.imm.toNat % 8 < 6) && decide (v.vd.val < 8)) (fun s v e =>
    (relHolds (v.imm.toNat % 8) (intA s v e < intB s v e) (intA s v e = intB s v e) (intB s v e < intA s v e), 0))

/-- Logic, shifts, selection and moves of the vector engine (R260, R261, Table 9-7). Each word is the one at the PC (log entry
97). -/
def Obligations.VectorLogicAndMoves : Prop :=
  VecElem 1 .and (fun _ => true) (fun s v e => (srcEl s v v.va e &&& srcEl s v v.vb e, 0)) ∧
  VecElem 9 .or (fun _ => true) (fun s v e => (srcEl s v v.va e ||| srcEl s v v.vb e, 0)) ∧
  VecElem 17 .xor (fun _ => true) (fun s v e => (srcEl s v v.va e ^^^ srcEl s v v.vb e, 0)) ∧
  VecElem 25 .sll (fun _ => true) (fun s v e =>
    (if fmtBits v.fmt ≤ srcEl s v v.vb e then 0 else srcEl s v v.va e * 2 ^ srcEl s v v.vb e, 0)) ∧
  VecElem 33 .srl (fun _ => true) (fun s v e =>
    (if fmtBits v.fmt ≤ srcEl s v v.vb e then 0 else srcEl s v v.va e / 2 ^ srcEl s v v.vb e, 0)) ∧
  VecElem 41 .sra (fun _ => true) (fun s v e =>
    (uint (fmtBits v.fmt) (sint (fmtBits v.fmt) (srcEl s v v.va e) / (2 ^ min (fmtBits v.fmt) (srcEl s v v.vb e) : Nat)), 0)) ∧
  VecElem 49 .sel (fun v => decide (v.vc.val < 8)) (fun s v e =>
    (if ((s.thr v.core v.slot).rdMk v.vc).toNat.testBit e then srcEl s v v.va e else srcEl s v v.vb e, 0)) ∧
  VecElem 57 .movi (fun _ => true) (fun _ v _ => (uint (fmtBits v.fmt) v.imm.toInt, 0)) ∧
  VecElem 65 .bcast (fun _ => true) (fun s v _ => ((sx s v v.va).toNat, 0)) ∧
  VecElem 61 .perm (fun _ => true) (fun s v e => (srcEl s v v.va (srcEl s v v.vb e % fmtCount v.fmt), 0)) ∧
  VecElem 69 .slide (fun _ => true) (fun s v e =>
    let i := e + v.imm.toNat % 64 % fmtCount v.fmt
    (if i < fmtCount v.fmt then srcEl s v v.va i else srcEl s v v.vb (i - fmtCount v.fmt), 0)) ∧
  VecScalar 73 .movs (fun v => decide (v.imm.toNat % 64 < fmtCount v.fmt)) (fun s v th =>
    let x := srcEl s v v.va (v.imm.toNat % 64)
    th.wrSx v.vd (BitVec.ofNat 64 (if v.fmt.val < 3 then uint 64 (sint (fmtBits v.fmt) x) else x)))

/-- Floating-point arithmetic and comparison, and the one rounding of the exact result (R260, R262). -/
def Obligations.VectorFloatingPoint : Prop :=
  VecFp 2 .fadd (fun f a b _ => f.addX a b) ∧ VecFp 10 .fsub (fun f a b _ => f.subX a b) ∧
  VecFp 18 .fmul (fun f a b _ => f.mulX a b) ∧ VecFp 26 .ffma (fun f a b c => f.fmaX a b c) ∧
  VecFp 34 .fdiv (fun f a b _ => f.divX a b) ∧ VecFp 42 .fsqrt (fun f a _ _ => f.sqrtX a) ∧
  VecFp 50 .fmin (fun f a b _ => f.minmaxX false a b) ∧ VecFp 58 .fmax (fun f a b _ => f.minmaxX true a b) ∧
  VecFp 66 .fabs (fun f a _ _ => (a % 2 ^ (f.width - 1), 0)) ∧
  VecFp 74 .fneg (fun f a _ _ => (a ^^^ 2 ^ (f.width - 1), 0)) ∧
  VecFp 90 .fclass (fun f a _ _ =>
    (let neg := a.testBit (f.width - 1)
     let frac := a % 2 ^ (f.p - 1)
     let e := a / 2 ^ (f.p - 1) % 2 ^ f.eb
     if e = 2 ^ f.eb - 1 then
       (if frac = 0 then (if neg then 1 else 128) else if frac.testBit (f.p - 2) then 512 else 256)
     else if e = 0 then (if frac = 0 then (if neg then 8 else 16) else if neg then 4 else 32)
     else if neg then 2 else 64, 0)) ∧
  VecMask 82 .fcmp (fun v => fpFmt v && decide (v.imm.toNat % 8 < 6) && decide (v.vd.val < 8)) (fun s v e =>
    let f := fmtOf v.fmt
    let a := srcEl s v v.va e
    let b := srcEl s v v.vb e
    (relHolds (v.imm.toNat % 8) (f.lt a b = true) (f.feq a b = true) (f.lt b a = true),
      if f.isSnan a ∨ f.isSnan b ∨ ((f.isNan a ∨ f.isNan b) ∧ 2 ≤ v.imm.toNat % 8) then 1 else 0)) ∧
  (∀ (f : Fmt), f = Fmt.fp32 ∨ f = Fmt.fp16 ∨ f = Fmt.bf16 →
    (∀ (g : Nat → Nat → Flagged) (h : Rat2 → Rat2 → Rat2),
      (g = f.addX ∧ h = Rat2.add) ∨ (g = f.subX ∧ h = Rat2.sub) ∨ (g = f.mulX ∧ h = Rat2.mul) ∨
        (g = f.divX ∧ h = Rat2.div) →
      (∀ x y, x < 2 ^ f.width → y < 2 ^ f.width → f.isFin x = true → f.isFin y = true →
        (f.valOf x).n ≠ 0 → (f.valOf y).n ≠ 0 → (h (f.valOf x) (f.valOf y)).n ≠ 0 →
        (g x y).1 = (h (f.valOf x) (f.valOf y)).toFmt f ∧
        ((g x y).2 =
          if f.isFin (g x y).1 = false then 10
          else if (f.valOf (g x y).1).eq (h (f.valOf x) (f.valOf y)) = true then 0
          else if f.tiny (h (f.valOf x) (f.valOf y)) = true then 12 else 8)) ∧
      (∀ x y, f.isNan (g x y).1 = true → (g x y).1 = f.qnan) ∧
      (∀ x y, f.isNan x = true ∨ f.isNan y = true → (g x y).1 = f.qnan) ∧
      (∀ x y, f.isSnan x = true ∨ f.isSnan y = true → (g x y).2 = 1)) ∧
    f.mulX (f.inf false) 0 = (f.qnan, 1) ∧ f.subX (f.inf false) (f.inf false) = (f.qnan, 1) ∧
    f.divX 0 0 = (f.qnan, 1) ∧ f.divX (f.inf false) (f.inf false) = (f.qnan, 1) ∧
    (∀ x, f.isFin x = true → (f.valOf x).n ≠ 0 →
      f.divX x 0 = (f.inf (decide ((f.valOf x).n < 0)), 0) ∧
      ((f.valOf x).n < 0 → f.sqrtX x = (f.qnan, 1))))

/-- FCVT, ITOF and FTOI (R262, R263). With a register of 64 elements the first 16 are used (the model's choice, log entry 48).
-/
def Obligations.VectorConversions : Prop :=
  VecConvert 3 .fcvt (fun g d => decide (4 ≤ g ∧ 4 ≤ d ∧ d ≤ 6)) (fun g d x =>
    if (fmtOf g).isFin x then
      ((match Fp.decode (fmtOf g) x with | .fin neg m => (fmtOf d).round neg m | _ => 0),
        (fmtOf d).roundFlags ((fmtOf g).valOf x) ((fmtOf g).convert (fmtOf d) x))
    else if (fmtOf g).isNan x then ((fmtOf d).qnan, if (fmtOf g).isSnan x then 1 else 0)
    else ((fmtOf d).inf (x.testBit ((fmtOf g).width - 1)), 0)) ∧
  VecConvert 11 .itof (fun g d => decide (g ≤ 3 ∧ 4 ≤ d ∧ d ≤ 6)) (fun g d x =>
    ((Rat2.ofInt (elemInt g x)).toFmt (fmtOf d),
      (fmtOf d).roundFlags (Rat2.ofInt (elemInt g x)) ((Rat2.ofInt (elemInt g x)).toFmt (fmtOf d)))) ∧
  VecConvert 19 .ftoi (fun g d => decide (4 ≤ g ∧ d ≤ 3)) (fun g d x =>
    if (fmtOf g).isNan x then (0, 1)
    else if (fmtOf g).isFin x then
      (let i := ((fmtOf g).valOf x).rne
       (uint (fmtBits d) (min (fmtHi d) (max (fmtLo d) i)),
         if i < fmtLo d ∨ fmtHi d < i then 1 else if ((fmtOf g).valOf x).eq (Rat2.ofInt i) then 0 else 8))
    else (uint (fmtBits d) (if x.testBit ((fmtOf g).width - 1) then fmtLo d else fmtHi d), 1))

/-- The approximation functions (R264, Table 9-12). A result that the table only bounds is free within its bound (log entry
20). -/
def Obligations.VectorApproximations : Prop :=
  VecFp 4 .frcp (fun f a _ _ => approxX f 0 a) ∧ VecFp 12 .frsq (fun f a _ _ => approxX f 1 a) ∧
  VecFp 20 .fexp2 (fun f a _ _ => approxX f 2 a) ∧ VecFp 28 .flog2 (fun f a _ _ => approxX f 3 a) ∧
  VecFp 36 .fexp (fun f a _ _ => approxX f 4 a) ∧ VecFp 44 .fsig (fun f a _ _ => approxX f 5 a) ∧
  VecFp 52 .ftanh (fun f a _ _ => approxX f 6 a) ∧
  (∀ (f : Fmt) (k x : Nat), k < 7 → f = Fmt.fp32 ∨ f = Fmt.fp16 ∨ f = Fmt.bf16 → f.isNan x = true →
    approxX f k x = (f.qnan, if f.isSnan x then 1 else 0)) ∧
  (∀ (f : Fmt) (k x : Nat), k < 7 → f = Fmt.fp16 ∨ f = Fmt.bf16 → f.isNan x = false →
    (approxX f k x).1 = Fmt.fp32.convert f (approxX Fmt.fp32 k (f.convert Fmt.fp32 x)).1) ∧
  (∀ x, x < 2 ^ 32 → Fmt.fp32.isNan x = false →
    let v := Fmt.fp32.valOf x
    let fin := Fmt.fp32.isFin x
    let neg := x.testBit 31
    (v.n = 0 → fin = true → approxX Fmt.fp32 0 x = (Fmt.fp32.inf neg, 0)) ∧
    (fin = false → approxX Fmt.fp32 0 x = (if neg then 2 ^ 31 else 0, 0)) ∧
    (x = 0 → approxX Fmt.fp32 1 x = (Fmt.fp32.inf false, 0)) ∧
    (x = Fmt.fp32.inf false → approxX Fmt.fp32 1 x = (0, 0)) ∧
    (neg = true → x ≠ 2 ^ 31 → approxX Fmt.fp32 1 x = (Fmt.fp32.qnan, 1) ∧ approxX Fmt.fp32 3 x = (Fmt.fp32.qnan, 1)) ∧
    ((fin = true ∧ 128 * (v.d : Int) ≤ v.n) ∨ x = Fmt.fp32.inf false →
      approxX Fmt.fp32 2 x = (Fmt.fp32.inf false, 10) ∧ approxX Fmt.fp32 4 x = (Fmt.fp32.inf false, 10)) ∧
    ((fin = true ∧ v.n < -150 * (v.d : Int)) ∨ x = Fmt.fp32.inf true →
      approxX Fmt.fp32 2 x = (0, 12) ∧ approxX Fmt.fp32 4 x = (0, 12) ∧ approxX Fmt.fp32 5 x = (0, 12)) ∧
    (x = 0 → approxX Fmt.fp32 3 x = (Fmt.fp32.inf true, 0)) ∧
    (x = Fmt.fp32.inf false → approxX Fmt.fp32 3 x = (Fmt.fp32.inf false, 0)) ∧
    (v.n = 0 → fin = true → approxX Fmt.fp32 4 x = (0x3F800000, 0)) ∧
    ((fin = true ∧ 17 * (v.d : Int) ≤ v.n) ∨ x = Fmt.fp32.inf false → approxX Fmt.fp32 5 x = (0x3F800000, 0)) ∧
    (fin = true → v.n < -104 * (v.d : Int) → approxX Fmt.fp32 5 x = (0, 12)) ∧
    (fin = false ∨ 91 * v.d ≤ 10 * v.n.natAbs →
      approxX Fmt.fp32 6 x = ((if neg then 2 ^ 31 else 0) + 0x3F800000, 0)) ∧
    (fin = true → 4096 * v.n.natAbs < v.d → approxX Fmt.fp32 6 x = (x, 0))) ∧
  (∀ (k : Int) (neg : Bool), -126 ≤ k → k ≤ 126 →
    approxX Fmt.fp32 0 (Fmt.fp32.round neg ((Rat2.ofInt 1).shl k)) = (Fmt.fp32.round neg ((Rat2.ofInt 1).shl (-k)), 0)) ∧
  (∀ k : Int, -149 ≤ k → k ≤ 127 →
    approxX Fmt.fp32 2 (Fmt.fp32.ofInt k) = (Fmt.fp32.round false ((Rat2.ofInt 1).shl k), 0) ∧
    approxX Fmt.fp32 3 (Fmt.fp32.round false ((Rat2.ofInt 1).shl k)) = (Fmt.fp32.ofInt k, 0))

/-- DOT4 and the reductions (R265). RMAX and RMIN with VD = 31 write their number to SX0 (the model's choice, log entry 49).
Which tensor a scan is of is log entry 113. -/
def Obligations.VectorReductions : Prop :=
  (∀ (s : State) (v : VecInstr), s.issuesVec 72 v = true → v.fmt.val = 2 ∨ v.fmt.val = 3 →
    let b := fun (r e i : Nat) => (elemAt 8 (vx s v r) (4 * e + i))
    let w := fun (x : Nat) => if v.fmt.val = 3 then (x : Int) else sint 8 x
    let sum := fun (e : Nat) => sint 32 (elemAt 32 (vx s v v.vd) e) +
      (sint 8 (b v.va e 0) * w (b v.vb e 0) + sint 8 (b v.va e 1) * w (b v.vb e 1) +
       sint 8 (b v.va e 2) * w (b v.vb e 2) + sint 8 (b v.va e 3) * w (b v.vb e 3))
    let cap := fun (x : Int) => min 2147483647 (max (-2147483648) x)
    Does (.dot4 v) s (fun t =>
      (∀ e, e < 16 → elemAt 32 (vx t v v.vd) e =
        if (enabled s v).toNat.testBit e then uint 32 (cap (sum e))
        else if v.mz then 0 else elemAt 32 (vx s v v.vd) e) ∧
      VecIssued v s t ((s.thr v.core v.slot).wrVx v.vd (vx t v v.vd))
        (if (List.range 16).any (fun e => (enabled s v).toNat.testBit e && decide (cap (sum e) ≠ sum e)) then 16 else 0))) ∧
  VecScalar 5 .rsum intFmt (fun s v th =>
    th.wrSx v.vd (BitVec.ofInt 64 (((elsOf s v).map (fun p => elemInt v.fmt p.2)).sum))) ∧
  VecBest 13 .rmax (fun a b => decide (a < b)) ∧ VecBest 21 .rmin (fun a b => decide (b < a)) ∧
  VecFpBest 37 .frmax (fun f a b => f.below a b) ∧ VecFpBest 45 .frmin (fun f a b => f.below b a) ∧
  (∀ (s : State) (v : VecInstr), s.issuesVec 29 v = true → fpFmt v = true →
    let f := fmtOf v.fmt
    let l := (List.range (fmtCount v.fmt)).map (fun e =>
      if (enabled s v).toNat.testBit e then srcEl s v v.va e else 2 ^ (f.width - 1))
    let up := pairUp (fun a b => (f.addX a b).1)
    let r := if fmtCount v.fmt = 16 then up (up (up (up l))) else up (up (up (up (up l))))
    Does (.frsum v) s (fun t =>
      r = [srcEl t v v.vd 0] ∧ (∀ e, 1 ≤ e → e < fmtCount v.fmt → srcEl t v v.vd e = 0) ∧
      t.getF (Reg.CC_VT_SLOT_PC v.core v.slot) = (s.getF (Reg.CC_VT_SLOT_PC v.core v.slot) + 1) % 4096 ∧
      SameRegs [Reg.CC_VT_SLOT_PC v.core v.slot, Reg.CC_VT_SLOT_TSTAT v.core v.slot] s t ∧
      t = (s.putThr v.core v.slot ((s.thr v.core v.slot).wrVx v.vd (vx t v v.vd))).setRegs t.regs)) ∧
  (∀ (s : State) (v : VecInstr), s.issuesVec 53 v = true → v.fmt.val = 4 →
    let fin := (elsOf s v).filter (fun p => Fmt.fp32.isFin p.2)
    let acc := v.imm.toNat % 2 = 1
    let count := fun (n : Nat) (p : Nat → Bool) =>
      ((if acc then srcEl s v v.vd n else 0) + ((elsOf s v).filter (fun q => p q.2)).length) % 2 ^ 32
    Does (.frange v) s (fun t =>
      (∀ e, 5 ≤ e → e < 16 → srcEl t v v.vd e = srcEl s v v.vd e) ∧
      (acc = False → fin = [] → srcEl t v v.vd 0 = 0x7F800000 ∧ srcEl t v v.vd 1 = 0xFF800000) ∧
      (acc = False → ∀ p ∈ fin, Fmt.fp32.below p.2 (srcEl t v v.vd 0) = false ∧
        Fmt.fp32.below (srcEl t v v.vd 1) p.2 = false) ∧
      srcEl t v v.vd 2 = count 2 Fmt.fp32.isNan ∧
      srcEl t v v.vd 3 = count 3 (fun x => decide (x = 0x7F800000)) ∧
      srcEl t v v.vd 4 = count 4 (fun x => decide (x = 0xFF800000)) ∧
      VecIssued v s (t.setPipes s.pipes) ((s.thr v.core v.slot).wrVx v.vd (vx t v v.vd)) 0 ∧
      (s.flag (Reg.CC_VT_SLOT_STAGE v.core v.slot) = false → t.pipes = s.pipes) ∧
      (∀ f, let p := (s.thr v.core v.slot).pipe
        let fif := s.getF (Reg.CC_VT_SLOT_TAG v.core v.slot) / 32
        (s.pipe p).frame fif = some f → s.flag (Reg.CC_VT_SLOT_STAGE v.core v.slot) = true → (s.pipe p).usesScale = true →
        (s.pipe p).scanTensor f ≠ none →
        (t.pipe p).frame fif = some { f with
          scan := some (((elsOf s v).map Prod.snd).foldl rangeTake (f.scan.getD (0, 0))) })))

/-- SOP, SLI, BR, JMP, CSR, FENCE and EXIT (R239, R246, R259, Table 9-8). How a FENCE waits is log entry 114. -/
def Obligations.ThreadScalars : Prop :=
  VecScalar 7 .sop (fun v => decide (v.imm.toNat % 16 ≤ 10)) (fun s v th =>
    let a := sx s v v.va
    let b := if v.imm.getLsbD 23 then (v.imm.extractLsb' 4 16).signExtend 64 else sx s v v.vb
    let k := v.imm.toNat % 16
    th.wrSx v.vd
      (if k = 0 then a + b else if k = 1 then a - b else if k = 2 then a &&& b else if k = 3 then a ||| b
       else if k = 4 then a ^^^ b else if k = 5 then a <<< (b.toNat % 64) else if k = 6 then a >>> (b.toNat % 64)
       else if k = 7 then a.sshiftRight (b.toNat % 64) else if k = 8 then a * b
       else if k = 9 then (if a.toInt < b.toInt then 1 else 0) else (if a.toNat < b.toNat then 1 else 0))) ∧
  VecScalar 15 .sli (fun _ => true) (fun _ v th => th.wrSx v.vd (v.imm.signExtend 64)) ∧
  (∀ (s : State) (v : VecInstr), s.issuesVec 23 v = true → v.fmt.val ≤ 5 →
    let a := sx s v v.va
    let b := sx s v v.vb
    let k := v.fmt.val
    let taken := if k = 0 then decide (a = b) else if k = 1 then decide (a ≠ b) else if k = 2 then decide (a.toInt < b.toInt)
      else if k = 3 then decide (b.toInt ≤ a.toInt) else if k = 4 then decide (a.toNat < b.toNat)
      else decide (b.toNat ≤ a.toNat)
    let pc := s.getF (Reg.CC_VT_SLOT_PC v.core v.slot)
    Does (.br v) s (fun t =>
      t.getF (Reg.CC_VT_SLOT_PC v.core v.slot) = (if taken then (pc + v.imm.toNat) % 4096 else (pc + 1) % 4096) ∧
      SameRegs [Reg.CC_VT_SLOT_PC v.core v.slot] s t ∧ t = s.setRegs t.regs)) ∧
  (∀ (s : State) (v : VecInstr), s.issuesVec 31 v = true →
    let pc := s.getF (Reg.CC_VT_SLOT_PC v.core v.slot)
    Does (.jmp v) s (fun t =>
      t.getF (Reg.CC_VT_SLOT_PC v.core v.slot) = (pc + v.imm.toNat) % 4096 ∧
      ThreadOnly v [] s t ((s.thr v.core v.slot).wrSx v.vd (BitVec.ofNat 64 ((pc + 1) % 4096))))) ∧
  (∀ (s : State) (v : VecInstr), s.issuesVec 87 v = true →
    let f := Reg.CC_VT_SLOT_TSTAT v.core v.slot
    Does (.csr v) s (fun t =>
      PcNext v s t ∧
      (∀ b, b < 7 → (t.getF f).testBit b = ((s.getF f).testBit b && !v.imm.getLsbD b)) ∧
      ThreadOnly v [f] s t ((s.thr v.core v.slot).wrSx v.vd (BitVec.ofNat 64 (s.getF f))))) ∧
  (∀ (s : State) (v : VecInstr), v.imm.toNat % 4 ≠ 1 → s.storesOwed v.core v.slot = true → exec (.fence v) s = .next s) ∧
  (∀ (s : State) (v : VecInstr), s.issuesVec 78 v = true → v.imm.toNat % 4 ≠ 0 →
    v.imm.toNat % 4 = 1 ∨ s.storesOwed v.core v.slot = false →
    Does (.fence v) s (fun t => PcNext v s t ∧
      SameRegs [Reg.CC_VT_SLOT_PC v.core v.slot] s t ∧ t = s.setRegs t.regs)) ∧
  (∀ (s : State) (v : VecInstr), s.issuesVec 79 v = true → s.flag (Reg.CC_VT_SLOT_STAGE v.core v.slot) = false →
    Does (.exit v) s (fun t =>
      t.slotState v.core v.slot = 0 ∧
      t.sync.recvs = s.sync.recvs.filter (fun w => w.2 != (v.core.val, v.slot.val)) ∧
      t.sync.sends = s.sync.sends.filter (fun w => w.2 != (v.core.val, v.slot.val)) ∧
      SameRegs [Reg.CC_VT_SLOT_PC v.core v.slot, Reg.CC_VT_SLOT_STATE v.core v.slot] s t ∧
      ((∀ op r d dev l, waitOf s v ≠ .remote op r d dev l) → t.sync.farLate = s.sync.farLate) ∧
      (∀ id, t.reqOf id = if (s.reqOf id).dest = .store v.core v.slot then { s.reqOf id with dest := .nowhere }
        else s.reqOf id) ∧
      t = (((s.onThr v.core v.slot (fun th => { th with wait := .none })).setRegs t.regs).setSync
        { s.sync with recvs := t.sync.recvs, sends := t.sync.sends, farLate := t.sync.farLate }).setReqs t.reqs)) ∧
  (∀ (s : State) (v : VecInstr), s.issuesVec 79 v = true → s.flag (Reg.CC_VT_SLOT_STAGE v.core v.slot) = true →
    s.room = true → (s.thr v.core v.slot).pipe < 4 → s.isFollower (s.thr v.core v.slot).pipe = false →
    let th := s.thr v.core v.slot
    Does (.exit v) s (fun t =>
      t.slotState v.core v.slot = 0 ∧ Filed s t 3 0x802 (uThread v.core v.slot) [(4, 4)] ∧
      t.bmState th.pipe =
        (if s.bmState th.pipe = 1 ∨ s.bmState th.pipe = 2 ∨ s.bmState th.pipe = 3 then 4 else s.bmState th.pipe) ∧
      (t.pipe th.pipe).frames = (s.pipe th.pipe).frames.map (fun f =>
        if f.admitted = true ∧ f.owes [th.stage] = true then f.lose s.now else f)))

/-- LD, ST, LDS, STS, LDX, STX, LDN, SLD and SST on core stores (R243, R244, R247, R260). The order of the checks is the
model's reading (log entry 11). -/
def Obligations.ThreadMemory : Prop :=
  let is32 := fun (_ : State) (v : VecInstr) => decide (v.fmt.val = 0 ∨ v.fmt.val = 4)
  let all := fun (v : VecInstr) => List.range (fmtCount v.fmt)
  let unit := fun (s : State) (v : VecInstr) (e : Nat) =>
    addr64 (sx s v v.va) (v.imm.toInt + (e * (fmtBits v.fmt / 8) : Nat))
  let stride := fun (s : State) (v : VecInstr) (e : Nat) =>
    addr64 (sx s v v.va) (v.imm.toInt + (e * (sx s v v.vb).toNat : Nat))
  let indexed := fun (s : State) (v : VecInstr) (e : Nat) => addr64 (sx s v v.va) (elemAt 32 (vx s v v.vb) e : Nat)
  let half := fun (v : VecInstr) => (256 / fmtBits v.fmt) * v.vc.val
  VecLoad 6 .ld (fun _ _ => true) all unit ∧ VecStore 14 .st (fun _ _ => true) all unit ∧
  VecLoad 22 .lds is32 all stride ∧ VecStore 30 .sts is32 all stride ∧
  VecLoad 38 .ldx is32 all indexed ∧ VecStore 46 .stx is32 all indexed ∧
  VecLoad 54 .ldn (fun s v => decide (v.vc.val ≤ 1) && s.ownStore (sx s v v.va).toNat 32)
    (fun v => (List.range (256 / fmtBits v.fmt)).map (fun e => half v + e))
    (fun s v e => (sx s v v.va).toNat + (e - half v) * (fmtBits v.fmt / 8)) ∧
  (∀ (s : State) (v : VecInstr), v.fmt.val ≤ 1 → s.reqOf s.nextReq = {} →
    let a := addr64 (sx s v v.va) v.imm.toInt
    let n := if v.fmt.val = 0 then 8 else 4
    s.ownStore a n = true →
    (s.issuesVec 62 v = true → Does (.sld v .clean) s (fun t =>
      t.slotState v.core v.slot = 2 ∧ PcNext v s t ∧
      waitOf t v = .load true v.vd (BitVec.ofNat 512 (ofLe (s.rdBytes (ownKey a) n))) false ∧
      SameMem s t ∧ SameRegs [Reg.CC_VT_SLOT_PC v.core v.slot, Reg.CC_VT_SLOT_STATE v.core v.slot] s t)) ∧
    (s.issuesVec 70 v = true → Does (.sst v) s (fun t =>
      PcNext v s t ∧ t.rdBytes (ownKey a) n = leBytes n (sx s v v.vd).toNat ∧
      SameMemBut (fun x => decide (ownKey a ≤ x ∧ x < ownKey a + n)) s t ∧
      SameRegs [Reg.CC_VT_SLOT_PC v.core v.slot] s t ∧
      t = ((((s.setRegs t.regs).setMem t.mem).setEcc t.ecc).setReqs t.reqs).setNextReq (s.nextReq + 1)))) ∧
  (∀ (s : State) (v : VecInstr) (e : Nat) (seen : EccSeen) (k : Nat) (op : Instr),
    (k = 6 ∧ op = .ld v seen) ∨ (k = 14 ∧ op = .st v) → s.issuesVec k v = true → s.room = true → e < fmtCount v.fmt →
    s.flag (Reg.CC_VT_SLOT_STAGE v.core v.slot) = false →
    (∀ k, k < e → (enabled s v).toNat.testBit k = true → s.ownStore (unit s v k) (fmtBits v.fmt / 8) = true) →
    (enabled s v).toNat.testBit e = true →
    (2 ^ 54 ≤ unit s v e ∨
      (unit s v e / 2 ^ 48 ≠ s.getF Reg.MGT_DEVNUM ∧ s.devPresent (unit s v e / 2 ^ 48) = false) ∨
      (0x2020000000 ≤ unit s v e % 2 ^ 48 ∧ unit s v e % 2 ^ 48 < 0x2100000000) ∨
      (0x3F00000000 ≤ unit s v e % 2 ^ 48 ∧ unit s v e % 2 ^ 48 < 0x3F04000000)) →
    Does op s (fun t => VecTrapped v 2 s t)) ∧
  (∀ (s : State) (v : VecInstr) (e : Nat) (seen : EccSeen) (k : Nat) (op : Instr),
    (k = 6 ∧ op = .ld v seen) ∨ (k = 14 ∧ op = .st v) → s.issuesVec k v = true → s.room = true → e < fmtCount v.fmt →
    s.flag (Reg.CC_VT_SLOT_STAGE v.core v.slot) = false →
    (∀ k, k < e → (enabled s v).toNat.testBit k = true → s.ownStore (unit s v k) (fmtBits v.fmt / 8) = true) →
    (enabled s v).toNat.testBit e = true →
    unit s v e / 2 ^ 48 = s.getF Reg.MGT_DEVNUM → unit s v e % 2 ^ 48 < 0x2020000000 →
    unit s v e % (fmtBits v.fmt / 8) ≠ 0 →
    Does op s (fun t => VecTrapped v 1 s t))

/-- RECV, SEND, AWAIT, AWAIT_EXPIRY, WAIT_DEADLINE, LOAD_DATA_ARRIVAL and THREAD_BUDGET (R240, R251, R253, R256, R258, R266).
The end of a scan is log entry 113. -/
def Obligations.PortsAndWaits : Prop :=
  (∀ (s : State) (v : VecInstr) (w : QWord) (ws : List QWord), s.issuesVec 86 v = true →
    s.flag (Reg.CC_VT_SLOT_STAGE v.core v.slot) = false → w.mark = none →
    let port := v.imm.toNat % 32
    let got := fun (t : State) =>
      PcNext v s t ∧ t.getF (Reg.CC_VT_SLOT_TAG v.core v.slot) = w.tag.toNat ∧
      (∀ e, e < fmtCount v.fmt → srcEl t v v.vd e =
        if (enabled s v).toNat.testBit e then
          (if e * fmtBits v.fmt < 64 then bits w.data.toNat (e * fmtBits v.fmt) (fmtBits v.fmt) else srcEl s v v.vd e)
        else if v.mz then 0 else srcEl s v v.vd e) ∧
      t.thr v.core v.slot =
        ((s.thr v.core v.slot).wrVx v.vd (vx t v v.vd)).wrSx v.vb (BitVec.ofNat 64 w.tag.toNat) ∧
      SameRegs [Reg.CC_VT_SLOT_PC v.core v.slot, Reg.CC_VT_SLOT_TAG v.core v.slot] s t
    (port < 16 → (s.edge v.core 1 port 0).words = w :: ws → Does (.recv v) s (fun t =>
      got t ∧ (t.edge v.core 1 port 0).words = ws ∧
      t = ((s.setThreads t.threads).setRegs t.regs).setEdges t.edges)) ∧
    (port = 16 → (s.gw v.core 1 24).words = w :: ws → Does (.recv v) s (fun t =>
      got t ∧ (t.gw v.core 1 24).words = ws ∧ t.edges = s.edges ∧ SameMem s t))) ∧
  (∀ (s : State) (v : VecInstr), s.issuesVec 86 v = true → v.imm.toNat % 32 ≤ 16 →
    (if v.imm.toNat % 32 < 16 then (s.edge v.core 1 (v.imm.toNat % 32) 0).words else (s.gw v.core 1 24).words) = [] →
    Does (.recv v) s (fun t =>
      PcNext v s t ∧ t.slotState v.core v.slot = 2 ∧
      SameRegs [Reg.CC_VT_SLOT_PC v.core v.slot, Reg.CC_VT_SLOT_STATE v.core v.slot] s t ∧
      t = (s.putThr v.core v.slot { s.thr v.core v.slot with
        wait := .recv (v.imm.toNat % 32) v.vd v.vb (destForm v) }).setRegs t.regs)) ∧
  (∀ (s : State) (v : VecInstr), s.issuesVec 94 v = true → v.imm.toNat % 32 ≤ 16 →
    let tag := BitVec.ofNat 8 (sx s v v.vb).toNat
    let port := v.imm.toNat % 32
    let th := s.thr v.core v.slot
    let counted := if v.imm.getLsbD 5 then { th with counting := th.counting.filter (fun x => x != tag.toNat / 32) } else th
    let w : QWord := { data := BitVec.ofNat 64 (vx s v v.va).toNat, tag := tag
                       mark := ((s.tagFrame v.core tag).bind (fun f => f.void)).map (fun x => { reason := x.1, time := x.2 }) }
    let stage := s.flag (Reg.CC_VT_SLOT_STAGE v.core v.slot)
    (port < 16 → (s.edge v.core 1 port 1).words.length < 8 → Does (.send v) s (fun t =>
      PcNext v s t ∧ (t.edge v.core 1 port 1).words = (s.edge v.core 1 port 1).words ++ [w] ∧
      SameRegs [Reg.CC_VT_SLOT_PC v.core v.slot] (s.busyCore v.core) t ∧
      (stage = false →
        t = ((if v.imm.getLsbD 5 then (s.busyCore v.core).putThr v.core v.slot counted else s.busyCore v.core).setRegs
          t.regs).setEdges t.edges) ∧
      (∀ f r n, (s.pipe th.pipe).frame (tag.toNat / 32) = some f → f.scan = some r →
        (s.pipe th.pipe).scanTensor f = some n → stage = true → s.sol.lost = false → s.domOn 32 = true →
        let d := deriveScale r.1 r.2
        (t.pipe th.pipe).frame (tag.toNat / 32) = some { f with
          bank := f.bank ++ [(n, (BitVec.ofNat 32 d.s, d.z))], collapsed := f.collapsed || d.collapsed, scan := none }))) ∧
    (port = 16 → (s.gw v.core 0 24).words.length < 32 → Does (.send v) s (fun t =>
      PcNext v s t ∧ (t.gw v.core 0 24).words = (s.gw v.core 0 24).words ++ [w] ∧
      t.thr v.core v.slot = counted ∧ t.edges = s.edges ∧ SameMem s t)) ∧
    ((if port < 16 then 8 ≤ (s.edge v.core 1 port 1).words.length else 32 ≤ (s.gw v.core 0 24).words.length) →
      stage = false → Does (.send v) s (fun t =>
        PcNext v s t ∧ t.slotState v.core v.slot = 2 ∧
        SameRegs [Reg.CC_VT_SLOT_PC v.core v.slot, Reg.CC_VT_SLOT_STATE v.core v.slot] s t ∧
        t = (s.putThr v.core v.slot { counted with wait := .room port w }).setRegs t.regs))) ∧
  (∀ (s : State) (v : VecInstr), s.issuesVec 63 v = true →
    let a := (sx s v v.va).toNat
    (a ≤ s.now → Does (.await v) s (fun t => PcNext v s t ∧ SameRegs [Reg.CC_VT_SLOT_PC v.core v.slot] s t ∧
      t = s.setRegs t.regs)) ∧
    (s.now < a → Does (.await v) s (fun t => PcNext v s t ∧ t.slotState v.core v.slot = 4 ∧
      SameRegs [Reg.CC_VT_SLOT_PC v.core v.slot, Reg.CC_VT_SLOT_STATE v.core v.slot] s t ∧
      t = (s.putThr v.core v.slot { s.thr v.core v.slot with wait := .time a }).setRegs t.regs))) ∧
  (∀ (s : State) (c : Fin 32) (j : Fin 16) (d : Nat), (s.thr c j).wait = .time d → (s.reach d).now = d →
    s.domOn c = true →
    Does (.awaitExpiry c j) s (fun t =>
      t.now = d ∧ t.slotState c j = 1 ∧ SameRegs [Reg.CC_VT_SLOT_STATE c j] (s.busyCore c) t ∧
      t = (((s.busyCore c).setAlm t.alm).putThr c j { s.thr c j with wait := .none }).setRegs t.regs)) ∧
  (∀ (s : State) (c : Fin 32) (j : Fin 16) (b g d r : Nat), (s.thr c j).wait = .bar b g d r → d ≠ 0 →
    (s.reach d).now = d → s.domOn c = true → (s.reach d).farQuiet = true →
    Does (.waitDeadline c j) s (fun t =>
      t.now = d ∧ t.slotState c j = 1 ∧ SameRegs [Reg.CC_VT_SLOT_STATE c j] (s.busyCore c) t ∧
      t = (((s.busyCore c).setAlm t.alm).putThr c j
        { (s.thr c j).wrSx r (BitVec.ofNat 64 (1 + s.getF (Reg.MGT_BAR_GEN b) * 2 ^ 16)) with wait := .none }).setRegs
          t.regs)) ∧
  (∀ (s : State) (c : Fin 32) (j : Fin 16) (q d x r : Nat) (form : DestForm), (s.thr c j).wait = .qrecv q d x r form → d ≠ 0 →
    (s.reach d).now = d → s.domOn c = true → (s.reach d).farQuiet = true →
    Does (.waitDeadline c j) s (fun t =>
      t.now = d ∧ t.slotState c j = 1 ∧ SameRegs [Reg.CC_VT_SLOT_STATE c j] (s.busyCore c) t ∧
      t.sync.recvs = s.sync.recvs.filter (fun w => w.2 != (c.val, j.val)) ∧
      t = ((((s.busyCore c).setAlm t.alm).putThr c j { (s.thr c j).wrSx r 3 with wait := .none }).setRegs t.regs).setSync
        t.sync)) ∧
  (∀ (s : State) (c : Fin 32) (j : Fin 16) (op r d dev l : Nat), (s.thr c j).wait = .remote op r d dev l → d ≠ 0 →
    (s.reach d).now = d → s.domOn c = true → (s.reach d).farQuiet = true →
    Does (.waitDeadline c j) s (fun t =>
      t.now = d ∧ t.slotState c j = 1 ∧ t.sync = { s.sync with
        recvs := s.sync.recvs.filter (fun w => w.2 != (c.val, j.val)), sends := s.sync.sends.filter (fun w => w.2 != (c.val, j.val))
        farLate := s.sync.farLate ++ [(c.val * 16 + j.val, dev)] } ∧
      (op ≠ 3 → t.thr c j = { (s.thr c j).wrSx r 3 with wait := .none }) ∧
      (op = 3 → ∃ g, g < 2 ^ 16 ∧ t.thr c j = { (s.thr c j).wrSx r (BitVec.ofNat 64 (1 + g * 2 ^ 16)) with wait := .none }) ∧
      SameRegs [Reg.CC_VT_SLOT_STATE c j] (s.busyCore c) t ∧ SameMem s t)) ∧
  (∀ (s : State) (c : Fin 32) (j : Fin 16) (d : Nat) (w : FarWait), (s.thr c j).wait = .time d →
    exec (.waitDeadline c j) s = .next s ∧
    (s.sync.farBar = [w] → s.sync.farSend = [] → s.farPast w = true → s.expireFar.sync = { s.sync with farBar := [] } ∧
      s.expireFar.out = s.out ++ [.service w.link w.dev 4 0 (leBytes 8 (1 + s.getF (Reg.MGT_BAR_GEN w.target) * 2 ^ 16)) w.req]) ∧
    (s.sync.farBar = [] → s.sync.farSend = [w] → s.farPast w = true → s.expireFar.sync = { s.sync with farSend := [] } ∧
      s.expireFar.out = s.out ++ [.service w.link w.dev 4 0 (leBytes 8 3) w.req])) ∧
  (∀ (s : State) (c : Fin 32) (j : Fin 16) (sc : Bool) (r : Nat) (x : W512), (s.thr c j).wait = .load sc r x false →
    s.domHolds c = true →
    Does (.loadDataArrival c j) s (fun t =>
      t.slotState c j = 1 ∧ SameRegs [Reg.CC_VT_SLOT_STATE c j] (s.busyCore c) t ∧
      t = ((s.busyCore c).putThr c j { (if sc then (s.thr c j).wrSx r (x.truncate 64) else (s.thr c j).wrVx r x) with
                          wait := .none }).setRegs t.regs)) ∧
  (∀ (s : State) (c : Fin 32) (j : Fin 16) (r : Nat) (x : W512), (s.thr c j).wait = .load false r x true →
    s.domHolds c = true → s.flag (Reg.CC_VT_SLOT_STAGE c j) = false →
    Does (.loadDataArrival c j) s (fun t =>
      t.slotState c j = 1 ∧ t.getF (Reg.CC_VT_SLOT_TSTAT c j) = s.getF (Reg.CC_VT_SLOT_TSTAT c j) ||| 32 ∧
      SameRegs [Reg.CC_VT_SLOT_STATE c j, Reg.CC_VT_SLOT_TSTAT c j] (s.busyCore c) t ∧
      t = ((s.busyCore c).putThr c j { (s.thr c j).wrVx r x with wait := .none }).setRegs t.regs)) ∧
  (∀ (s : State) (c : Fin 32) (j : Fin 16) (f : Fin 8) (n : Nat), s.flag (Reg.CC_VT_SLOT_STAGE c j) = true →
    f.val ∈ (s.thr c j).counting → f.val ∉ (s.thr c j).overrun → s.room = true →
    ((s.thr c j).budget < n → Does (.threadBudget c j f n) s (fun t =>
      Filed s t 0 0x806 (uThread c j) [(16, n)] ∧
      t = (s.putThr c j { s.thr c j with overrun := (s.thr c j).overrun ++ [f.val] }).setFlt t.flt)) ∧
    (n ≤ (s.thr c j).budget → exec (.threadBudget c j f n) s = .next s))

/-- MGT_BAR_ARRIVE, MGT_BAR_EXPECT, BAR, QSEND, QRECV, MQ_CFG, MGT_MQ_POP and MGT_MQ_PUSH (R252 to R257, R550). QSEND to a
disabled queue answers 2 in either mode (the model's choice, log entry 21). How an arrival waits for stores is log entry 114. -/
def Obligations.BarriersAndQueues : Prop :=
  (∀ (s : State) (b : Fin 64) (w : WriteReq), s.takesAct w (Reg.MGT_BAR_ARRIVE b).off = true →
    wBit w (Reg.MGT_BAR_ARRIVE b) = true →
    let n := s.getF (Reg.MGT_BAR_ARRIVED b) + 1
    n < s.getF (Reg.MGT_BAR_EXPECT b) →
    Does (.mgtBarArrive b w) s (fun t => t.getF (Reg.MGT_BAR_ARRIVED b) = n ∧
      SameRegs [Reg.MGT_BAR_ARRIVED b] s t ∧ OnlyRegs s t)) ∧
  (∀ (s : State) (b : Fin 64) (w : WriteReq), s.takesAct w (Reg.MGT_BAR_ARRIVE b).off = true →
    wBit w (Reg.MGT_BAR_ARRIVE b) = true → s.getF (Reg.MGT_BAR_EXPECT b) ≤ s.getF (Reg.MGT_BAR_ARRIVED b) + 1 →
    s.threads = [] → s.sync.farBar = [] →
    Does (.mgtBarArrive b w) s (fun t => t.getF (Reg.MGT_BAR_ARRIVED b) = 0 ∧
      t.getF (Reg.MGT_BAR_GEN b) = (s.getF (Reg.MGT_BAR_GEN b) + 1) % 2 ^ 16 ∧
      SameRegs [Reg.MGT_BAR_ARRIVED b, Reg.MGT_BAR_GEN b] s t ∧ OnlyRegs s t)) ∧
  (∀ (s : State) (b : Fin 64) (w : WriteReq), s.takesAct w (Reg.MGT_BAR_ARRIVE b).off = true →
    wBit w (Reg.MGT_BAR_ARRIVE b) = true → s.getF (Reg.MGT_BAR_EXPECT b) ≤ s.getF (Reg.MGT_BAR_ARRIVED b) + 1 →
    let g := (s.getF (Reg.MGT_BAR_GEN b) + 1) % 2 ^ 16
    Does (.mgtBarArrive b w) s (fun t => t.getF (Reg.MGT_BAR_ARRIVED b) = 0 ∧ t.getF (Reg.MGT_BAR_GEN b) = g ∧
      t.sync.farBar = s.sync.farBar.filter (fun x => !(x.target == b.val && x.gen != g)) ∧
      t = ((((((s.setRegs t.regs).setThreads t.threads).setSync { s.sync with farBar := t.sync.farBar }).setOut t.out).setPwr
        t.pwr).setResp t.resp))) ∧
  (∀ (s : State) (b : Fin 64) (w : WriteReq) (c : Fin 32) (j : Fin 16) (th : VThread) (d r : Nat),
    s.takesAct w (Reg.MGT_BAR_ARRIVE b).off = true → wBit w (Reg.MGT_BAR_ARRIVE b) = true →
    s.getF (Reg.MGT_BAR_EXPECT b) ≤ s.getF (Reg.MGT_BAR_ARRIVED b) + 1 →
    s.threads = [(c.val * 16 + j.val, th)] → th.wait = .bar b (s.getF (Reg.MGT_BAR_GEN b)) d r → s.sync.farBar = [] →
    Does (.mgtBarArrive b w) s (fun t => t.getF (Reg.MGT_BAR_ARRIVED b) = 0 ∧
      let g := (s.getF (Reg.MGT_BAR_GEN b) + 1) % 2 ^ 16
      t.getF (Reg.MGT_BAR_GEN b) = g ∧ t.slotState c j = 1 ∧
      t.thr c j = { th.wrSx r (BitVec.ofNat 64 (g * 2 ^ 16)) with wait := .none, fence := fenceOf s c j } ∧
      SameRegs [Reg.MGT_BAR_ARRIVED b, Reg.MGT_BAR_GEN b, Reg.CC_VT_SLOT_STATE c j] (s.busyCore c) t ∧
      t = ((((s.busyCore c).setRegs t.regs).setThreads t.threads).setResp t.resp))) ∧
  (∀ (s : State) (b : Fin 64) (w : WriteReq), s.takes w (Reg.MGT_BAR_EXPECT b).off = true →
    coversLo w.half = true → s.room = true →
    let x := w.field (Reg.MGT_BAR_EXPECT b)
    (s.getF (Reg.MGT_BAR_ARRIVED b) = 0 → 1 ≤ x → Does (.mgtBarExpect b w) s (fun t =>
      t.getF (Reg.MGT_BAR_EXPECT b) = x ∧ SameRegs [Reg.MGT_BAR_EXPECT b] s t ∧ OnlyRegs s t)) ∧
    (s.getF (Reg.MGT_BAR_ARRIVED b) ≠ 0 ∨ x = 0 → Does (.mgtBarExpect b w) s (fun t =>
      Filed s t 0 0x805 (uBar b) [(32, written w)] ∧ t = (s.setFlt t.flt).setResp t.resp))) ∧
  (∀ (s : State) (v : VecInstr), v.imm.toNat % 4 ≠ 1 → s.storesOwed v.core v.slot = true →
    exec (.barArrive v) s = .next s ∧ exec (.barSync v) s = .next s) ∧
  (∀ (s : State) (v : VecInstr), s.issuesVec 39 v = true → s.storesOwed v.core v.slot = false →
    let a := (sx s v v.va).toNat
    let b := a % 64
    let g := s.getF (Reg.MGT_BAR_GEN b)
    a / 256 % 64 = s.getF Reg.MGT_DEVNUM → s.getF (Reg.MGT_BAR_ARRIVED b) + 1 < s.getF (Reg.MGT_BAR_EXPECT b) →
    let d := (sx s v v.vc).toNat
    (v.imm.toNat % 4 = 0 → Does (.barArrive v) s (fun t => PcNext v s t ∧ t.getF (Reg.MGT_BAR_ARRIVED b) = s.getF (Reg.MGT_BAR_ARRIVED b) + 1 ∧
      ThreadOnly v [Reg.MGT_BAR_ARRIVED b] s t ((s.thr v.core v.slot).wrSx v.vd (BitVec.ofNat 64 g)))) ∧
    (v.imm.toNat % 4 = 2 → d = 0 ∨ s.now < d → Does (.barSync v) s (fun t => PcNext v s t ∧
      t.getF (Reg.MGT_BAR_ARRIVED b) = s.getF (Reg.MGT_BAR_ARRIVED b) + 1 ∧ t.slotState v.core v.slot = 3 ∧
      ThreadOnly v [Reg.MGT_BAR_ARRIVED b, Reg.CC_VT_SLOT_STATE v.core v.slot] s t
        { s.thr v.core v.slot with wait := .bar b g d v.vd }))) ∧
  (∀ (s : State) (v : VecInstr), s.issuesVec 39 v = true → v.imm.toNat % 4 = 1 →
    let a := (sx s v v.va).toNat
    let b := a % 64
    let g := s.getF (Reg.MGT_BAR_GEN b)
    a / 256 % 64 = s.getF Reg.MGT_DEVNUM →
    let d := (sx s v v.vc).toNat
    let old := (sx s v v.vb).toNat % 2 ^ 16
    (old ≠ g → Does (.barWait v) s (fun t => PcNext v s t ∧
      ThreadOnly v [] s t { (s.thr v.core v.slot).wrSx v.vd (BitVec.ofNat 64 (g * 2 ^ 16)) with
        fence := fenceOf s v.core v.slot })) ∧
    (old = g → d ≠ 0 → d ≤ s.now → Does (.barWait v) s (fun t => PcNext v s t ∧
      ThreadOnly v [] s t ((s.thr v.core v.slot).wrSx v.vd (BitVec.ofNat 64 (1 + g * 2 ^ 16))))) ∧
    (old = g → d = 0 ∨ s.now < d → Does (.barWait v) s (fun t => PcNext v s t ∧ t.slotState v.core v.slot = 3 ∧
      ThreadOnly v [Reg.CC_VT_SLOT_STATE v.core v.slot] s t { s.thr v.core v.slot with wait := .bar b g d v.vd }))) ∧
  (∀ (s : State) (v : VecInstr), s.storesOwed v.core v.slot = true → exec (.qsend v) s = .next s) ∧
  (∀ (s : State) (v : VecInstr), s.issuesVec 47 v = true → s.storesOwed v.core v.slot = false →
    let a := (sx s v v.va).toNat
    let q := a % 256
    let pay := leBytes 8 (sx s v v.vb).toNat ++ leBytes 8 (sx s v v.vc).toNat
    let full := 4 * 2 ^ s.getF (Reg.MGT_MQ_CFG_DEPTH q)
    let th := s.thr v.core v.slot
    a / 256 % 64 = s.getF Reg.MGT_DEVNUM →
    (s.flag (Reg.MGT_MQ_CFG_ENABLE q) = true → (s.queue q).length < full → s.sync.recvs = [] →
      Does (.qsend v) s (fun t => PcNext v s t ∧
        t.queue q = s.queue q ++ [message (v.core.val * 16 + v.slot.val) s.now pay] ∧
        t.getF (Reg.MGT_MQ_COUNT q) = ((s.queue q).length + 1) % 2 ^ 9 ∧
        SameRegs [Reg.CC_VT_SLOT_PC v.core v.slot, Reg.MGT_MQ_COUNT q] s t ∧
        t = (((s.putThr v.core v.slot (th.wrSx v.vd 0)).setRegs t.regs).setSync t.sync))) ∧
    (s.flag (Reg.MGT_MQ_CFG_ENABLE q) = true → full ≤ (s.queue q).length → v.imm.getLsbD 0 = false →
      Does (.qsend v) s (fun t => PcNext v s t ∧ ThreadOnly v [] s t (th.wrSx v.vd 1))) ∧
    (s.flag (Reg.MGT_MQ_CFG_ENABLE q) = true → full ≤ (s.queue q).length → v.imm.getLsbD 0 = true →
      s.now < (sx s v v.vd).toNat →
      Does (.qsend v) s (fun t => PcNext v s t ∧ t.slotState v.core v.slot = 3 ∧
        t.sync.sends = s.sync.sends ++ [(q, v.core.val, v.slot.val)] ∧
        SameRegs [Reg.CC_VT_SLOT_PC v.core v.slot, Reg.CC_VT_SLOT_STATE v.core v.slot] s t ∧
        t = (((s.putThr v.core v.slot { th with wait := .qsend q pay (sx s v v.vd).toNat v.vd }).setRegs t.regs).setSync
          { s.sync with sends := t.sync.sends }))) ∧
    (s.flag (Reg.MGT_MQ_CFG_ENABLE q) = false → Does (.qsend v) s (fun t => PcNext v s t ∧
      ThreadOnly v [] s t (th.wrSx v.vd 2)))) ∧
  (∀ (s : State) (v : VecInstr), s.issuesVec 55 v = true →
    let q := (sx s v v.va).toNat % 256
    let d := (sx s v v.vc).toNat
    let th := s.thr v.core v.slot
    (∀ (m : List Byte) (ms : List (List Byte)), s.flag (Reg.MGT_MQ_CFG_ENABLE q) = true → s.queue q = m :: ms →
      s.sync.sends = [] → s.sync.farSend = [] → s.sync.recvs = [] →
      Does (.qrecv v) s (fun t => PcNext v s t ∧ t.slotState v.core v.slot = 1 ∧ t.queue q = ms ∧
        t.getF (Reg.MGT_MQ_COUNT q) = ms.length % 2 ^ 9 ∧
        SameRegs [Reg.CC_VT_SLOT_PC v.core v.slot, Reg.MGT_MQ_COUNT q, Reg.CC_VT_SLOT_STATE v.core v.slot]
          (s.busyCore v.core) t ∧
        (∀ e, e < fmtCount v.fmt → srcEl t v v.vd e =
          if (enabled s v).toNat.testBit e then
            (if e * fmtBits v.fmt < 256 then bits (ofLe m) (e * fmtBits v.fmt) (fmtBits v.fmt) else srcEl s v v.vd e)
          else if v.mz then 0 else srcEl s v v.vd e) ∧
        t.thr v.core v.slot = { (th.wrVx v.vd (vx t v v.vd)).wrSx v.vb 0 with
          wait := .none, fence := fenceOf s v.core v.slot })) ∧
    (s.flag (Reg.MGT_MQ_CFG_ENABLE q) = true → s.queue q = [] → d = 0 ∨ s.now < d →
      Does (.qrecv v) s (fun t => PcNext v s t ∧ t.slotState v.core v.slot = 3 ∧
        t.sync.recvs = s.sync.recvs ++ [(q, v.core.val, v.slot.val)] ∧
        SameRegs [Reg.CC_VT_SLOT_PC v.core v.slot, Reg.CC_VT_SLOT_STATE v.core v.slot] s t ∧
        t = (((s.putThr v.core v.slot { th with wait := .qrecv q d v.vd v.vb (destForm v) }).setRegs t.regs).setSync
          { s.sync with recvs := t.sync.recvs }))) ∧
    (s.flag (Reg.MGT_MQ_CFG_ENABLE q) = false → Does (.qrecv v) s (fun t => PcNext v s t ∧
      ThreadOnly v [] s t (th.wrSx v.vb 2)))) ∧
  (∀ (s : State) (q : Fin 256) (w : WriteReq), s.takes w (Reg.MGT_MQ_CFG_ENABLE q).off = true →
    coversLo w.half = true → s.room = true →
    let en := w.field (Reg.MGT_MQ_CFG_ENABLE q)
    let d := w.field (Reg.MGT_MQ_CFG_DEPTH q)
    let sum := (((List.range 256).filter (fun i => i != q.val && s.flag (Reg.MGT_MQ_CFG_ENABLE i))).map (fun i =>
      4 * 2 ^ s.getF (Reg.MGT_MQ_CFG_DEPTH i))).sum + (if en = 1 then 4 * 2 ^ d else 0)
    let ok := s.flag (Reg.MGT_MQ_CFG_ENABLE q) = false ∧ s.queue q = [] ∧ d ≤ 6 ∧ sum ≤ 8192
    (ok → Does (.mqCfg q w) s (fun t =>
      t.getF (Reg.MGT_MQ_CFG_ENABLE q) = en ∧ t.getF (Reg.MGT_MQ_CFG_DEPTH q) = d ∧
      SameRegs [Reg.MGT_MQ_CFG_ENABLE q, Reg.MGT_MQ_CFG_DEPTH q] s t ∧ OnlyRegs s t)) ∧
    (¬ok → Does (.mqCfg q w) s (fun t =>
      Filed s t 0 0x805 (uQueue q) [(32, written w)] ∧ t = (s.setFlt t.flt).setResp t.resp))) ∧
  (∀ (s : State) (q : Fin 256) (r : ReadReq), r.half = .both → s.sync.sends = [] → s.sync.farSend = [] →
    (∀ m ms, s.queue q = m :: ms → m.length = 32 → Does (.mgtMqPop q 0 r) s (fun t =>
      t.queue q = ms ∧ t.getF (Reg.MGT_MQ_COUNT q) = ms.length % 2 ^ 9 ∧
      t.resp = some { status := .ok, value := BitVec.ofNat 64 (ofLe (m.take 8)) } ∧
      SameRegs [Reg.MGT_MQ_COUNT q] s t ∧ t = ((s.setRegs t.regs).setSync t.sync).setResp t.resp)) ∧
    (s.queue q = [] → Does (.mgtMqPop q 0 r) s (fun t =>
      t.queue q = [] ∧ t.resp = some { status := .ok, value := BitVec.allOnes 64 } ∧
      t = (s.setSync t.sync).setResp t.resp))) ∧
  (∀ (s : State) (q : Fin 256) (w : WriteReq), s.takes w (Reg.MGT_MQ_PUSH q 3).off = true → w.half = .both →
    w.agent = .steward ∨ w.agent = .pcie →
    let old := SMap.get (fun _ => List.replicate 16 (0#8)) s.sync.pushLatch (agentIdx w.agent * 256 + q)
    let pay := old.take 8 ++ leBytes 8 w.value.toNat
    let src := if w.agent = .steward then 2 * 2 ^ 13 else 2 ^ 13 + 4
    old.length = 16 → s.sync.recvs = [] →
    (s.flag (Reg.MGT_MQ_CFG_ENABLE q) = true → (s.queue q).length < 4 * 2 ^ s.getF (Reg.MGT_MQ_CFG_DEPTH q) →
      Does (.mgtMqPush q 3 w) s (fun t =>
        t.queue q = s.queue q ++ [message src s.now pay] ∧
        t.getF (Reg.MGT_MQ_COUNT q) = ((s.queue q).length + 1) % 2 ^ 9 ∧
        SameRegs [Reg.MGT_MQ_COUNT q] s t ∧ t = ((s.setRegs t.regs).setSync t.sync).setResp t.resp)) ∧
    (s.flag (Reg.MGT_MQ_CFG_ENABLE q) = false ∨ 4 * 2 ^ s.getF (Reg.MGT_MQ_CFG_DEPTH q) ≤ (s.queue q).length →
      Does (.mgtMqPush q 3 w) s (fun t =>
        t.queue q = s.queue q ∧
        t.getF Reg.MGT_MQ_PUSHDROP = min (s.getF Reg.MGT_MQ_PUSHDROP + 1) (2 ^ 32 - 1) ∧
        SameRegs [Reg.MGT_MQ_PUSHDROP] s t ∧ t = ((s.setRegs t.regs).setSync t.sync).setResp t.resp)))

/-- TSTART, CCnn_VT_START and CCnn_VT_CTL (R238, R239, R575, R576). A start is served within its command (log entry 22). -/
def Obligations.ThreadSlots : Prop :=
  (∀ (s : State) (v : VecInstr) (j : Fin 16), s.issuesVec 71 v = true →
    let a := (sx s v v.va).toNat
    let c := a % 32
    let x := a / 256 % 32
    let slot := fun (f : Nat → Nat → Fld) => f c j
    let th := s.thr v.core v.slot
    let here := bit1 (s.getF Reg.MGT_CORE_MASK) c
    (here = true → s.domHolds c = true → x = j.val ∨ (x = 31 ∧ ∀ k, k < j.val → s.slotState c k ≠ 0) →
      s.slotState c j = 0 → Does (.tstart v) s (fun t =>
      PcNext v s t ∧ t.slotState c j = 1 ∧ t.getF (slot Reg.CC_VT_SLOT_STAGE) = 0 ∧
      t.getF (slot Reg.CC_VT_SLOT_TSTAT) = 0 ∧ t.getF (slot Reg.CC_VT_SLOT_PC) = (sx s v v.vb).toNat % 4096 ∧
      t.thr v.core v.slot = th.wrSx v.vd 0 ∧
      (∀ r, r < 32 → (t.thr c j).rdVx r = 0 ∧
        (t.thr c j).rdSx r = if 1 ≤ r ∧ r ≤ 4 then (s.thr v.core v.slot).rdSx r else 0) ∧
      SameRegs [Reg.CC_VT_SLOT_PC v.core v.slot, slot Reg.CC_VT_SLOT_STATE, slot Reg.CC_VT_SLOT_STAGE,
        slot Reg.CC_VT_SLOT_CAUSE, slot Reg.CC_VT_SLOT_TSTAT, slot Reg.CC_VT_SLOT_TAG, slot Reg.CC_VT_SLOT_PC]
          (s.busyCore c) t ∧
      t = ((s.busyCore c).setThreads t.threads).setRegs t.regs)) ∧
    (here = true → s.domHolds c = true →
      (x < 16 ∧ s.slotState c x ≠ 0) ∨ (x = 31 ∧ ∀ k, k < 16 → s.slotState c k ≠ 0) →
      Does (.tstart v) s (fun t => PcNext v s t ∧ ThreadOnly v [] s t (th.wrSx v.vd 1))) ∧
    (here = false ∨ (s.domHolds c = true ∧ 16 ≤ x ∧ x ≠ 31) →
      Does (.tstart v) s (fun t => PcNext v s t ∧ ThreadOnly v [] s t (th.wrSx v.vd 2)))) ∧
  (∀ (s : State) (c : Fin 32) (w : WriteReq) (j : Fin 16), s.takesAct w (Reg.CC_VT_START_GO c).off = true →
    w.half = .both → wBit w (Reg.CC_VT_START_GO c) = true → bit1 (s.getF Reg.MGT_CORE_MASK) c = true →
    (w.value.toNat % 32 = j ∨ (w.value.toNat % 32 = 31 ∧ ∀ k, k < j.val → s.slotState c k ≠ 0)) →
    let pc := w.value.toNat / 2 ^ 16 % 4096
    let slot := fun (f : Nat → Nat → Fld) => f c j
    (s.slotState c j = 0 → Does (.vtStart c w) s (fun t =>
      t.slotState c j = 1 ∧ t.getF (slot Reg.CC_VT_SLOT_STAGE) = 0 ∧ t.getF (slot Reg.CC_VT_SLOT_TSTAT) = 0 ∧
      t.getF (slot Reg.CC_VT_SLOT_PC) = pc ∧
      (∀ r, r < 32 → (t.thr c j).rdVx r = 0 ∧
        (t.thr c j).rdSx r =
          if 1 ≤ r ∧ r ≤ 4 then SMap.get (fun _ => 0) (s.vtOf w.agent c).args (r - 1) else 0) ∧
      (t.vtOf w.agent c).status = 0 ∧ (t.vtOf w.agent c).taken = j ∧
      SameRegs [slot Reg.CC_VT_SLOT_STATE, slot Reg.CC_VT_SLOT_STAGE, slot Reg.CC_VT_SLOT_CAUSE,
        slot Reg.CC_VT_SLOT_TSTAT, slot Reg.CC_VT_SLOT_TAG, slot Reg.CC_VT_SLOT_PC] (s.busyCore c) t ∧
      t = ((((s.busyCore c).setThreads t.threads).setRegs t.regs).setVtCopy t.vtCopy).setResp t.resp)) ∧
    (s.slotState c j ≠ 0 → w.value.toNat % 32 = j → Does (.vtStart c w) s (fun t =>
      (t.vtOf w.agent c).status = 1 ∧ t = (s.setVtCopy t.vtCopy).setResp t.resp))) ∧
  (∀ (s : State) (c : Fin 32) (j : Fin 16) (w : WriteReq), s.takesAct w (Reg.CC_VT_CTL_KILL c).off = true →
    w.half = .both → s.room = true → w.field (Reg.CC_VT_CTL_KILL c) = 2 ^ j.val →
    (s.slotState c j = 0 ∨ (s.slotState c j = 5 ∧ s.flag (Reg.CC_VT_SLOT_STAGE c j) = false) →
      exec (.vtKill c w) s = .next (s.answer .ok 0#64)) ∧
    (s.slotState c j ≠ 0 → s.flag (Reg.CC_VT_SLOT_STAGE c j) = true →
      Does (.vtKill c w) s (fun t => Filed s t 0 0x805 (uThread c j) [(32, w.value.toNat)] ∧
        t = (s.setFlt t.flt).setResp t.resp)) ∧
    (s.slotState c j ≠ 0 → s.slotState c j ≠ 5 → s.flag (Reg.CC_VT_SLOT_STAGE c j) = false →
      Does (.vtKill c w) s (fun t => t.slotState c j = 0 ∧
        t.sync.recvs = s.sync.recvs.filter (fun x => x.2 != (c.val, j.val)) ∧
        t.sync.sends = s.sync.sends.filter (fun x => x.2 != (c.val, j.val)) ∧
        SameRegs [Reg.CC_VT_SLOT_STATE c j] s t ∧
        (∀ id, t.reqOf id = if (s.reqOf id).dest = .store c.val j.val then { s.reqOf id with dest := .nowhere } else s.reqOf id) ∧
        t = ((((s.putThr c j { s.thr c j with wait := .none }).setRegs t.regs).setSync t.sync).setReqs t.reqs).setResp t.resp))) ∧
  (∀ (s : State) (c : Fin 32) (j : Fin 16) (w : WriteReq), s.takesAct w (Reg.CC_VT_CTL_FREE c).off = true →
    w.half = .both → w.field (Reg.CC_VT_CTL_FREE c) = 2 ^ j.val →
    (s.slotState c j = 5 → Does (.vtFree c w) s (fun t => t.slotState c j = 0 ∧
        SameRegs [Reg.CC_VT_SLOT_STATE c j] s t ∧
        (∀ id, t.reqOf id = if (s.reqOf id).dest = .store c.val j.val then { s.reqOf id with dest := .nowhere } else s.reqOf id) ∧
        t = ((((s.putThr c j { s.thr c j with wait := .none }).setRegs t.regs).setSync t.sync).setReqs t.reqs).setResp t.resp)) ∧
    (s.slotState c j ≠ 5 → exec (.vtFree c w) s = .next (s.answer .ok 0#64)))

/-- Issue of every instruction of the thread instruction set, with the fields each one accepts (R241, R242, R259, Table 9-15).
A command whose word is not the stored one has no effect (log entry 97); FENCE, BAR and QSEND wait for stores (log entry 114).
-/
def Obligations.ThreadIssueAndTraps : Prop :=
  VecIssue 0 .add intFmt ∧ VecIssue 8 .adds intFmt ∧ VecIssue 16 .sub intFmt ∧ VecIssue 24 .subs intFmt ∧ VecIssue 32 .mul intFmt ∧
  VecIssue 40 .mulh intFmt ∧ VecIssue 48 .min intFmt ∧ VecIssue 56 .max intFmt ∧ VecIssue 64 .abs intFmt ∧ VecIssue 80 .rshr intFmt ∧
  VecIssue 5 .rsum intFmt ∧ VecIssue 13 .rmax intFmt ∧ VecIssue 21 .rmin intFmt ∧ VecIssue 1 .and (fun _ => true) ∧
  VecIssue 9 .or (fun _ => true) ∧ VecIssue 17 .xor (fun _ => true) ∧ VecIssue 25 .sll (fun _ => true) ∧
  VecIssue 33 .srl (fun _ => true) ∧ VecIssue 41 .sra (fun _ => true) ∧ VecIssue 57 .movi (fun _ => true) ∧
  VecIssue 65 .bcast (fun _ => true) ∧ VecIssue 73 .movs (fun _ => true) ∧ VecIssue 61 .perm (fun _ => true) ∧
  VecIssue 69 .slide (fun _ => true) ∧ VecIssue 2 .fadd fpFmt ∧ VecIssue 10 .fsub fpFmt ∧ VecIssue 18 .fmul fpFmt ∧
  VecIssue 26 .ffma fpFmt ∧ VecIssue 34 .fdiv fpFmt ∧ VecIssue 42 .fsqrt fpFmt ∧ VecIssue 50 .fmin fpFmt ∧ VecIssue 58 .fmax fpFmt ∧
  VecIssue 66 .fabs fpFmt ∧ VecIssue 74 .fneg fpFmt ∧ VecIssue 90 .fclass fpFmt ∧ VecIssue 4 .frcp fpFmt ∧ VecIssue 12 .frsq fpFmt ∧
  VecIssue 20 .fexp2 fpFmt ∧ VecIssue 28 .flog2 fpFmt ∧ VecIssue 36 .fexp fpFmt ∧ VecIssue 44 .fsig fpFmt ∧ VecIssue 52 .ftanh fpFmt ∧
  VecIssue 29 .frsum fpFmt ∧ VecIssue 37 .frmax fpFmt ∧ VecIssue 45 .frmin fpFmt ∧
  VecIssue 72 .dot4 (fun v => decide (v.fmt.val = 2 ∨ v.fmt.val = 3)) ∧
  VecIssue 88 .cmp (fun v => intFmt v && decide (v.imm.toNat % 8 < 6) && decide (v.vd.val < 8)) ∧
  VecIssue 82 .fcmp (fun v => fpFmt v && decide (v.imm.toNat % 8 < 6) && decide (v.vd.val < 8)) ∧
  VecIssue 49 .sel (fun v => decide (v.vc.val < 8)) ∧
  VecIssue 3 .fcvt (fun v => fpFmt v && decide (4 ≤ v.imm.toNat % 8 ∧ v.imm.toNat % 8 ≤ 6)) ∧
  VecIssue 11 .itof (fun v => intFmt v && decide (4 ≤ v.imm.toNat % 8 ∧ v.imm.toNat % 8 ≤ 6)) ∧
  VecIssue 19 .ftoi (fun v => fpFmt v && decide (v.imm.toNat % 8 ≤ 3)) ∧
  VecIssue 53 .frange (fun v => decide (v.fmt.val = 4)) ∧ VecIssue 14 .st (fun _ => true) ∧
  VecIssue 30 .sts (fun v => decide (v.fmt.val = 0 ∨ v.fmt.val = 4)) ∧
  VecIssue 46 .stx (fun v => decide (v.fmt.val = 0 ∨ v.fmt.val = 4)) ∧ VecIssue 70 .sst (fun v => decide (v.fmt.val ≤ 1)) ∧
  VecIssue 86 .recv (fun v => decide (v.imm.toNat % 32 ≤ 16)) ∧ VecIssue 94 .send (fun v => decide (v.imm.toNat % 32 ≤ 16)) ∧
  VecIssue 31 .jmp (fun _ => true) ∧ VecIssue 15 .sli (fun _ => true) ∧ VecIssue 87 .csr (fun _ => true) ∧
  VecIssue 79 .exit (fun _ => true) ∧ VecIssue 71 .tstart (fun _ => true) ∧
  (∀ e, VecIssue 6 (fun v => .ld v e) (fun _ => true)) ∧
  (∀ e, VecIssue 22 (fun v => .lds v e) (fun v => decide (v.fmt.val = 0 ∨ v.fmt.val = 4))) ∧
  (∀ e, VecIssue 38 (fun v => .ldx v e) (fun v => decide (v.fmt.val = 0 ∨ v.fmt.val = 4))) ∧
  (∀ e, VecIssue 54 (fun v => .ldn v e) (fun v => decide (v.vc.val ≤ 1))) ∧
  (∀ e, VecIssue 62 (fun v => .sld v e) (fun v => decide (v.fmt.val ≤ 1))) ∧
  VecIssueWhen 78 .fence (fun s v => decide (v.imm.toNat % 4 = 1) || storesDone s v) (fun v => decide (v.imm.toNat % 4 ≠ 0)) ∧ VecIssue 7 .sop (fun v => decide (v.imm.toNat % 16 ≤ 10)) ∧
  VecIssue 23 .br (fun v => decide (v.fmt.val ≤ 5)) ∧ VecIssueWhen 39 .barArrive (barNow 0) (fun v => decide (v.imm.toNat % 4 ≠ 3)) ∧
  VecIssueWhen 39 .barWait (barNow 1) (fun v => decide (v.imm.toNat % 4 ≠ 3)) ∧ VecIssueWhen 39 .barSync (barNow 2) (fun v => decide (v.imm.toNat % 4 ≠ 3)) ∧ VecIssueWhen 47 .qsend storesDone (fun _ => true) ∧
  VecIssue 55 .qrecv (fun _ => true) ∧ VecIssue 63 .await (fun _ => true)

/-- READ, NARROW, READ_RETRY, READ_RETURN and WRITE at a channel (R277 to R279, R283, R284, R288, R289, R292). A retry of a
unit's own read gives the first result again (log entry 16). A circuit is known by its requester (log entry 108). -/
def Obligations.MemoryRequests : Prop :=
  (∀ (s : State) (g : Fin 64) (tag : Byte) (w : W64) (ws : List W64),
    (s.outside g = true → s.takeWords g (w :: ws) tag = (s, none)) ∧
    (∀ k, k < 25 → (∀ j, j < k → (s.gw (chanGate g) 1 j).words = []) →
      (((s.gw (chanGate g) 1 k).words.take (ws.length + 1)).map (fun x => x.data)) = w :: ws →
      (s.gw (chanGate g) 1 k).words.head?.map (fun x => x.tag) = some tag →
      (s.takeWords g (w :: ws) tag).2 = some k ∧
      ((s.takeWords g (w :: ws) tag).1.gw (chanGate g) 1 k).words = (s.gw (chanGate g) 1 k).words.drop (ws.length + 1) ∧
      (s.takeWords g (w :: ws) tag).1 = s.setGws (s.takeWords g (w :: ws) tag).1.gws)) ∧
  (∀ (s : State) (g : Fin 64) (h : MemHdr) (tag : Byte) (req : Fin 65536) (first : List EccSeen),
    s.chanLive g = true → s.circuitHeld g req = false → h.rsv = 0 → h.idx.toNat % 8 + h.len.val ≤ 7 →
    h.len = 0 ∨ h.mask = BitVec.allOnes 32 →
    let r : ChanReq := { word := h.idx.toNat, len := h.len.val, narrow := false, bad := false, tag := tag, req := req,
                         retry := s.flag (Reg.MC_RETRY_CFG_EN (g / 16)), first := first, id := s.nextReq }
    let taken := fun (op : Nat) (r : ChanReq) (t : State) =>
      let q := s.takeWords g [BitVec.ofNat 64 (h.word op)] tag
      t.chanReqs g = s.chanReqs g ++ [{ r with code := q.2 }] ∧
      t.wcbOf (g / 16) = (s.wcbOf (g / 16)).map (fun e =>
        if e.chan = g.val % 16 ∧ r.lines.contains e.line = true then { e with flushing := true } else e) ∧
      SameRegs [Reg.MC_WCB_STAT_HELD (g / 16)] s t ∧
      t = ((q.1.setRegs t.regs).setHbm t.hbm).setNextReq (s.nextReq + 1)
    Does (.read g h false tag req first) s (taken 0 r) ∧
    (h.len = 0 → ((s.chanReqs g).filter (fun r => r.narrow)).length < 32 →
      Does (.narrow g h tag req first) s (taken 1 { r with narrow := true }))) ∧
  (∀ (s : State) (g : Fin 64) (h : MemHdr) (tag : Byte) (req : Fin 65536) (first : List EccSeen), s.room = true →
    s.circuitHeld g req = false → s.outside g = true →
    let r : ChanReq := { word := h.idx.toNat, len := h.len.val, narrow := false, bad := true, tag := tag, req := req,
                         retry := s.flag (Reg.MC_RETRY_CFG_EN (g / 16)), first := first, id := s.nextReq }
    (h.rsv ≠ 0 ∨ 7 < h.idx.toNat % 8 + h.len.val ∨ (h.len ≠ 0 ∧ h.mask ≠ BitVec.allOnes 32) →
      Does (.read g h false tag req first) s (fun t =>
        Filed s t 1 0x206 (uChan g + 2 ^ 11) [(48, h.word 0 % 2 ^ 48), (16, req)] ∧
        t.chanReqs g = s.chanReqs g ++ [r] ∧
        t = ((s.setHbm t.hbm).setFlt t.flt).setNextReq (s.nextReq + 1))) ∧
    Does (.read g h true tag req first) s (fun t =>
      Filed s t 1 0x206 (uChan g + 2 ^ 11) [(48, h.word 3 % 2 ^ 48), (16, req)] ∧ t = s.setFlt t.flt)) ∧
  (∀ (s : State) (g : Fin 64) (h : MemHdr) (op3 : Bool) (tag : Byte) (req : Fin 65536) (first : List EccSeen)
    (data : List W64),
    (32 ≤ ((s.chanReqs g).filter (fun r => r.narrow)).length ∨ s.circuitHeld g req = true →
      exec (.narrow g h tag req first) s = .next s) ∧
    (s.circuitHeld g req = true →
      exec (.read g h op3 tag req first) s = .next s ∧ exec (.write g h data tag req) s = .next s)) ∧
  (∀ (s : State) (g : Fin 64) (req : Fin 65536) (r : ChanReq),
    (s.chanReqs g).find? (fun x => x.req == req.val) = some r → r.wr = none → (∀ x ∈ s.chanReqs g, x.stat = none) →
    r.code.all (fun k => decide ((s.gw (chanGate g) 0 k).words.length + 4 * (r.len + 1) ≤ 32)) = true →
    (∀ e ∈ s.wcbOf (g / 16), e.chan = g % 16 → e.id ≤ r.id → e.line ∉ r.lines) →
    (∀ w ∈ s.wcbWaits (g / 16), w.chan = g % 16 → w.id ≤ r.id → w.line ∉ r.lines) →
    (s.chanLive g = true → s.chanLost g = false → r.bad = false →
      (∀ i, i ≤ r.len → (s.wordFor g r i).2 = .clean ∧ r.first.getD i .clean = .clean) →
      Does (.readReturn g req) s (Returned g r (fun i => (s.wordFor g r i).1) false s)) ∧
    (s.chanLost g = true ∨ s.chanLive g = false ∨ r.bad = true → r.retry = false →
      Does (.readReturn g req) s (Returned g r (fun _ => List.replicate 32 0) true s))) ∧
  (∀ (s : State) (g : Fin 64) (req : Fin 65536) (i : Fin 8) (second : EccSeen) (r : ChanReq),
    s.chanReqs g = [r] → r.req = req.val → i.val ≤ r.len → r.retry = true → r.bad = false → r.retried = [] →
    (s.wordFor g r i).2 = .uncorrectable → (s.reach (s.now + 60)).now = s.now + 60 →
    Does (.readRetry g req i second) s (fun t =>
      t.now = s.now + 60 ∧ t.chanReqs g = [{ r with retried := [(i.val, second)] }] ∧
      t = (s.setAlm t.alm).setHbm t.hbm)) ∧
  (∀ (s : State) (g : Fin 64) (h : MemHdr) (data : List W64) (tag : Byte) (req : Fin 65536),
    s.writeReady g req = true → s.chanLive g = true → s.chanLost g = false → h.rsv = 0 →
    h.idx.toNat % 8 + h.len.val ≤ 7 → h.mask = BitVec.allOnes 32 → data.length = 4 * (h.len.val + 1) →
    s.flag (Reg.MC_INJ_ARM (g / 16)) = false → (∀ r ∈ s.chanReqs g, ∀ i, i ≤ h.len.val → r.covers ((h.idx.toNat + i) * 32) = false) →
    let k := hbmKey g (h.idx.toNat * 32)
    Does (.write g h data tag req) s (fun t =>
      t.rdBytes k (32 * (h.len.val + 1)) = data.flatMap (fun w => leBytes 8 w.toNat) ∧
      SameMemBut (fun a => decide (k ≤ a ∧ a < k + 32 * (h.len.val + 1))) s t ∧
      (∀ i, i ≤ h.len.val → t.eccAt (hbmKey g ((h.idx.toNat + i) * 32)) = .clean) ∧
      t.out = s.out ++ [.word 3 g 0 0 tag false] ∧ t.chanReqs g = s.chanReqs g ∧
      t = (((((s.setMem t.mem).setEcc t.ecc).setReqs t.reqs).setNextReq (s.nextReq + 1)).setOut t.out).setHbm t.hbm)) ∧
  (∀ (s : State) (g : Fin 64) (h : MemHdr) (data : List W64) (tag : Byte) (req : Fin 65536) (r : ChanReq),
    s.writeReady g req = true → s.chanLive g = true → s.chanLost g = false → h.rsv = 0 →
    h.idx.toNat % 8 + h.len.val ≤ 7 → h.mask = BitVec.allOnes 32 → data.length = 4 * (h.len.val + 1) →
    s.chanReqs g = [r] → r.wr = none → r.id ≤ s.nextReq →
    Does (.write g h data tag req) s (fun t =>
      ∃ r', t.chanReqs g = [r'] ∧ r' = { r with snap := r'.snap } ∧ ∀ i, i ≤ r.len → t.wordFor g r' i = s.wordFor g r i)) ∧
  (∀ (s : State) (g : Fin 64) (h : MemHdr) (data : List W64) (tag : Byte) (req : Fin 65536),
    s.writeReady g req = true → s.chanLive g = true → s.chanLost g = false → h.rsv = 0 →
    h.len = 0 → h.mask ≠ 0 → h.mask ≠ BitVec.allOnes 32 → data.length = 4 →
    let bytes := data.flatMap (fun w => leBytes 8 w.toNat)
    Does (.write g h data tag req) s (fun t =>
      SameMem s t ∧ t.getF (Reg.MC_WCB_STAT_HELD (g / 16)) = 1 ∧ t.out = s.out ∧
      t.chanReqs g = s.chanReqs g ++ [{ word := h.idx.toNat, len := 0, narrow := false, bad := false, tag := tag, req := req
                                        retry := false, wr := some s.nextReq }] ∧
      (∃ e ∈ t.wcbOf (g / 16), t.wcbOf (g / 16) = [e] ∧ e.chan = g % 16 ∧ e.line = h.idx.toNat / 2 ∧ e.flushing = false ∧
        e.taken = s.now ∧ e.writers = [(h.idx.toNat % 2, s.nextReq)] ∧
        ∀ i, i < 64 → SMap.get (fun _ => none) e.bytes i =
          if i / 32 = h.idx.toNat % 2 ∧ h.mask.getLsbD (i % 32) then some (bytes.getD (i % 32) 0) else none) ∧
      SameRegs [Reg.MC_WCB_STAT_HELD (g / 16)] s t ∧
      t = ((((s.setRegs t.regs).setHbm t.hbm).setReqs t.reqs).setNextReq (s.nextReq + 1)))) ∧
  (∀ (s : State) (g : Fin 64) (h : MemHdr) (data : List W64) (tag : Byte) (req : Fin 65536),
    s.writeReady g req = true → s.chanLive g = true → s.chanLost g = true → h.rsv = 0 →
    h.idx.toNat % 8 + h.len.val ≤ 7 → h.mask = BitVec.allOnes 32 →
    Does (.write g h data tag req) s (fun t =>
      t.out = s.out ++ [.word 3 g 0 2 tag false] ∧ t.chanReqs g = s.chanReqs g ∧
      t = (((s.setReqs t.reqs).setNextReq (s.nextReq + 1)).setOut t.out).setHbm t.hbm))

/-- WCB_AGE_FLUSH, FLUSH_COMPLETE, REFRESH, RECENTRE, STACK_TEMP_READ and CHANNEL_LOST (R285, R286, R289, R291, R292, R578).
-/
def Obligations.MemoryUpkeep : Prop :=
  (∀ (s : State) (m : Fin 4) (pre : List WcbEntry) (e : WcbEntry) (rest : List WcbEntry), s.wcbOf m = pre ++ e :: rest →
    e.flushing = false → e ∉ pre → e ∉ rest →
    (∀ x ∈ pre, x.flushing = false → e.taken + e.age < x.taken + x.age) →
    (∀ x ∈ rest, x.flushing = false → e.taken + e.age ≤ x.taken + x.age) →
    Does (.wcbAgeFlush m) s (fun t =>
      t.wcbOf m = pre ++ { e with flushing := true } :: rest ∧ t.alm = (s.reach (e.taken + e.age)).alm ∧
      SameRegs [Reg.MC_WCB_STAT_HELD m] s t ∧ t = ((s.setAlm t.alm).setRegs t.regs).setHbm t.hbm)) ∧
  (∀ (s : State) (m : Fin 4), (∀ e ∈ s.wcbOf m, e.flushing = true) → exec (.wcbAgeFlush m) s = .next s) ∧
  (∀ (s : State) (m : Fin 4) (e : WcbEntry) (seen : List (EccSeen × EccSeen)),
    (s.wcbOf m).find? (fun e => e.flushing) = some e → s.storesNamed → s.noneDone = true →
    Does (.flushComplete m seen) s (fun t =>
      t.getF (Reg.MC_WCB_FLUSH m) = (s.getF (Reg.MC_WCB_FLUSH m) + 1) % 2 ^ 48 ∧ t.alm = s.alm ∧ t.pipes = s.pipes ∧
      (s.wcbWaits m = [] → (t.wcbOf m).map (fun x => (x.chan, x.line, x.bytes, x.writers)) =
        ((s.wcbOf m).erase e).map (fun x => (x.chan, x.line, x.bytes, x.writers))))) ∧
  (∀ (s : State) (m : Fin 4) (e : WcbEntry) (seen : List (EccSeen × EccSeen)) (i : Nat) (b : Byte) (g : Nat) (x : ChanReq),
    s.chanReqs g = [x] → x.wr = some (s.nextReq - 1) → x.stat = none → x.code = none → s.wcbOf m = [e] → e.flushing = true → e.bytes = [(i, some b)] → i < 64 → e.writers = [(i / 32, s.nextReq - 1)] →
    s.noneDone = true → s.reqOf (s.nextReq - 1) = { left := 1, dest := .circuit g } → s.wcbWaits m = [] → e.chan < 16 →
    s.flag (Reg.MC_INJ_ARM m) = false → seen = [] →
    let k := hbmKey (m * 16 + e.chan) (e.line * 64 + i / 32 * 32)
    s.eccAt k = .clean →
    Does (.flushComplete m seen) s (fun t =>
      t.rdByte (k + i % 32) = b ∧ SameMemBut (fun a => decide (a = k + i % 32)) s t ∧ t.wcbOf m = [] ∧
      t.getF (Reg.MC_WCB_STAT_HELD m) = 0 ∧ t.getF (Reg.MC_WCB_FLUSH m) = (s.getF (Reg.MC_WCB_FLUSH m) + 1) % 2 ^ 48 ∧
      t.out = s.out ++ [.word 3 g 0 0 x.tag false] ∧ t.chanReqs g = [] ∧
      SameRegs [Reg.MC_WCB_STAT_HELD m, Reg.MC_WCB_FLUSH m] s t ∧
      t = ((((s.setRegs t.regs).setHbm t.hbm).setMem t.mem).setReqs t.reqs).setOut t.out)) ∧
  (∀ (s : State) (m : Fin 4) (e : WcbEntry) (i : Nat) (b : Byte) (g : Nat) (x : ChanReq),
    s.chanReqs g = [x] → x.wr = some (s.nextReq - 1) → x.stat = none → x.code = none → s.wcbOf m = [e] → e.flushing = true → e.bytes = [(i, some b)] → i < 64 → e.writers = [(i / 32, s.nextReq - 1)] →
    s.noneDone = true → s.reqOf (s.nextReq - 1) = { left := 1, dest := .circuit g } → s.wcbWaits m = [] → e.chan < 16 →
    s.flag (Reg.MC_INJ_ARM m) = false → s.room = true →
    let k := hbmKey (m * 16 + e.chan) (e.line * 64 + i / 32 * 32)
    s.eccAt k = .poisoned → e.line * 64 < 2 ^ 30 →
    Does (.flushComplete m []) s (fun t =>
      t.rdByte (k + i % 32) = b ∧ SameMemBut (fun a => decide (a = k + i % 32)) s t ∧ t.eccAt k = .poisoned ∧
      t.wcbOf m = [] ∧ Filed s t 1 0x203 (uChan (m * 16 + e.chan)) [(30, e.line * 64 + i / 32 * 32), (4, 3)] ∧
      t.out = s.out ++ [.word 3 g 0 1 x.tag false] ∧ t.chanReqs g = [])) ∧
  (∀ (s : State) (g : Fin 64), exec (.refresh g) s = .next s ∧ exec (.recentre g false) s = .next s) ∧
  (∀ (s : State) (m : Fin 4) (x : BitVec 8), s.domOn (43 + m) = true → s.room = true →
    Does (.stackTempRead m x) s (fun t =>
      t.getF (Reg.MC_TEMP_C m) = x.toNat ∧ t.flag (Reg.MC_TEMP_HOT m) = decide (x.toInt > 95) ∧
      SameRegs [Reg.MC_TEMP_C m, Reg.MC_TEMP_HOT m] s t ∧
      (x.toInt > 95 → s.flag (Reg.MC_TEMP_HOT m) = false → Filed s t 1 0x20A (uStack m) [(16, x.toNat)]) ∧
      (x.toInt ≤ 95 ∨ s.flag (Reg.MC_TEMP_HOT m) = true → t.flt = s.flt) ∧
      t = (s.setRegs t.regs).setFlt t.flt)) ∧
  (∀ (s : State) (g : Fin 64) (cause : Fin 3), s.chanLost g = false → s.chanServed g = true → s.room = true →
    (∀ n, n < 4 → s.loaded n = true → (s.pipe n).chans.contains g.val = false) →
    s.wcbOf (g / 16) = [] → s.wcbWaits (g / 16) = [] →
    let lost := fun (c : Nat) (t : State) => t.getF (Reg.MC_CH_MAP_LOST (g / 16)) =
        s.getF (Reg.MC_CH_MAP_LOST (g / 16)) ||| 2 ^ (g.val % 16) ∧ t.chanLost g = true ∧
      Filed s t 3 0x207 (uChan g) [(4, c)] ∧
      SameRegs [Reg.MC_CH_MAP_LOST (g / 16), Reg.MC_WCB_STAT_HELD (g / 16)] s t ∧
      t = ((s.setRegs t.regs).setHbm t.hbm).setFlt t.flt
    Does (.channelLost g cause) s (lost cause) ∧ Does (.recentre g true) s (lost 0)) ∧
  (∀ (s : State) (g : Fin 64) (cause : Fin 3), s.chanLost g = false → s.chanServed g = true → s.room = true →
    s.storesNamed →
    let lost := fun (c : Nat) (t : State) => t.getF (Reg.MC_CH_MAP_LOST (g / 16)) =
        s.getF (Reg.MC_CH_MAP_LOST (g / 16)) ||| 2 ^ (g.val % 16) ∧ t.chanLost g = true ∧
      Filed s t 3 0x207 (uChan g) [(4, c)] ∧ SameMem s t ∧ t.alm = s.alm ∧
      (∀ n, n < 4 → s.loaded n = true → (s.pipe n).chans.contains g.val = true → s.isFollower n = false →
        t.bmState n = (if s.bmState n = 1 ∨ s.bmState n = 2 ∨ s.bmState n = 3 then 4 else s.bmState n) ∧
        (t.pipe n).frames = (s.pipe n).frames.map (fun f =>
          if f.admitted = true ∧ (s.pipe n).crosses (g / 16 * 40 + 8 + g % 16) f = true then f.lose s.now else f))
    Does (.channelLost g cause) s (lost cause) ∧ Does (.recentre g true) s (lost 0))

/-- MC_TRAIN_GO, TRAINING_DONE, MGT_HBM_COMMIT, TG_START, TG_DONE and MC_INJ (R290, R293 to R297, R579, R581, R583). -/
def Obligations.MemoryTrainingAndTest : Prop :=
  (∀ (s : State) (m : Fin 4) (w : WriteReq), s.takesAct w (Reg.MC_TRAIN_CTL_GO m).off = true →
    wBit w (Reg.MC_TRAIN_CTL_GO m) = true → s.committed = false →
    Does (.mcTrainGo m w) s (fun t =>
      t.getF (Reg.MC_TRAIN_CTL_DONE m) = 0 ∧ (∀ c, c < 16 → t.word (Reg.MC_TRAIN_STAT_PASS m c).off = 0 ∧
        t.inTraining (m * 16 + c) = true) ∧
      t = ((s.setRegs t.regs).setHbm t.hbm).setResp t.resp)) ∧
  (∀ (s : State) (g : Fin 64) (rep : Fin 16) (mar : Fin 256), s.inTraining g = true → s.room = true →
    SMap.get (fun _ => false) s.hbm.byGo (g / 16) = true →
    (∃ c, c < 16 ∧ (g / 16 * 16 + c ≠ g.val ∧ s.inTraining (g / 16 * 16 + c) = true)) →
    let m := g.val / 16
    let c := g.val % 16
    let fs := [Reg.MC_TRAIN_STAT_PASS m c, Reg.MC_TRAIN_STAT_REPAIRED m c, Reg.MC_TRAIN_STAT_MARGIN m c]
    Does (.trainingDone g true rep mar) s (fun t =>
      fs.map (fun f => t.getF f) = [1, rep.val, mar.val] ∧ t.inTraining g = false ∧ SameRegs fs s t ∧
      t = (s.setRegs t.regs).setHbm t.hbm) ∧
    Does (.trainingDone g false rep mar) s (fun t =>
      fs.map (fun f => t.getF f) = [0, rep.val, mar.val] ∧ t.inTraining g = false ∧ SameRegs fs s t ∧
      Filed s t 1 0x209 (uChan g) [(16, rep), (16, mar)] ∧ t = ((s.setRegs t.regs).setHbm t.hbm).setFlt t.flt)) ∧
  (∀ (s : State) (g : Fin 64) (rep : Fin 16) (mar : Fin 256), s.inTraining g = true → s.room = true →
    let m := g.val / 16
    let c := g.val % 16
    let fs := [Reg.MC_TRAIN_STAT_PASS m c, Reg.MC_TRAIN_STAT_REPAIRED m c, Reg.MC_TRAIN_STAT_MARGIN m c]
    (SMap.get (fun _ => false) s.hbm.byGo m = true →
      (∀ i, i < 16 → m * 16 + i ≠ g.val → s.inTraining (m * 16 + i) = false) → ∀ pass : Bool,
      Does (.trainingDone g pass rep mar) s (fun t =>
        fs.map (fun f => t.getF f) = [b2n pass, rep.val, mar.val] ∧ t.getF (Reg.MC_TRAIN_CTL_DONE m) = 1 ∧
        t.inTraining g = false ∧ SameRegs (Reg.MC_TRAIN_CTL_DONE m :: fs) s t ∧ (pass = true → t.flt = s.flt) ∧
        (pass = false → Filed s t 1 0x209 (uChan g) [(16, rep), (16, mar)]) ∧
        t = ((s.setRegs t.regs).setHbm t.hbm).setFlt t.flt)) ∧
    (SMap.get (fun _ => false) s.hbm.byGo m = false →
      Does (.trainingDone g true rep mar) s (fun t =>
        fs.map (fun f => t.getF f) = [1, rep.val, mar.val] ∧ t.inTraining g = false ∧ SameRegs fs s t ∧
        t = (s.setRegs t.regs).setHbm t.hbm))) ∧
  (∀ (s : State) (w : WriteReq), s.takes w Reg.MGT_HBM_CTL_COMMIT.off = true → wBit w Reg.MGT_HBM_CTL_COMMIT = true →
    s.room = true →
    let ok := s.committed = false ∧ s.activeChans ≠ [] ∧
      ∀ g ∈ s.activeChans, s.flag (Reg.MC_TRAIN_STAT_PASS (g / 16) (g % 16)) = true
    (ok → Does (.mgtHbmCommit w) s (fun t =>
      t.committed = true ∧ t.getF Reg.MGT_HBM_CAP = s.activeChans.length ∧
      SameRegs [Reg.MGT_HBM_CTL_COMMITTED, Reg.MGT_HBM_CAP] s t ∧ OnlyRegs s t)) ∧
    (¬ok → Does (.mgtHbmCommit w) s (fun t =>
      Filed s t 0 0x208 (uStack 0) [(26, Reg.MGT_HBM_CTL_COMMIT.off), (32, written w)] ∧
      t = (s.setFlt t.flt).setResp t.resp))) ∧
  (∀ (s : State) (g : Fin 64) (w : WriteReq),
    let m := g.val / 16
    let c := g.val % 16
    s.takesAct w (Reg.MC_TG_CTL_START m c).off = true → wBit w (Reg.MC_TG_CTL_START m c) = true → w.half = .both →
    s.room = true →
    let bad := s.flag (Reg.MC_TG_CTL_BUSY m c) = true ∨ s.chanLive g = false ∨ s.chanUsed g = true
    (bad → Does (.tgStart g w) s (fun t =>
      Filed s t 0 0x208 (uChan g) [(26, (Reg.MC_TG_CTL_START m c).off), (32, written w)] ∧
      t = (s.setFlt t.flt).setResp t.resp)) ∧
    (¬bad → s.getF (Reg.MC_TG_RANGE_START_WORD m c) ≤ min (s.getF (Reg.MC_TG_RANGE_END_WORD m c)) 0x1FFFFFF →
      Does (.tgStart g w) s (fun t =>
        t.flag (Reg.MC_TG_CTL_BUSY m c) = true ∧ t.getF (Reg.MC_TG_CTL_DONE m c) = 0 ∧
        t.getF (Reg.MC_TG_CTL_ABORTED m c) = 0 ∧ t.getF (Reg.MC_TG_CTL_MODE m c) = w.field (Reg.MC_TG_CTL_MODE m c) ∧
        t.getF (Reg.MC_TG_CTL_PATTERN m c) = w.field (Reg.MC_TG_CTL_PATTERN m c) ∧
        t.getF (Reg.MC_TG_CTL_PASSES m c) = w.field (Reg.MC_TG_CTL_PASSES m c) ∧
        t.getF (Reg.MC_TG_MISMATCH m c) = 0 ∧ t.getF (Reg.MC_TG_FIRST_VALID m c) = 0 ∧
        SMap.get (fun _ => 0) t.hbm.tgStart g = s.now ∧
        t = ((s.setRegs t.regs).setHbm t.hbm).setResp t.resp))) ∧
  (∀ (s : State) (g : Fin 64) (ns : Nat),
    let m := g.val / 16
    let c := g.val % 16
    let at0 := SMap.get (fun _ => 0) s.hbm.tgStart g
    s.flag (Reg.MC_TG_CTL_BUSY m c) = true → s.storesNamed →
    Does (.tgDone g ns) s (fun t =>
      t.getF (Reg.MC_TG_ELAPSED m c) = min ((s.reach (at0 + ns)).now - at0) (2 ^ 48 - 1) ∧
      t.flag (Reg.MC_TG_CTL_BUSY m c) = false ∧ t.flag (Reg.MC_TG_CTL_DONE m c) = true ∧
      t.flag (Reg.MC_TG_CTL_ABORTED m c) = false ∧ (∀ h ∈ t.held, h.unit ≠ 32 + g.val) ∧
      t.alm = (s.reach (at0 + ns)).alm)) ∧
  (∀ (s : State) (g : Fin 64) (ns : Nat),
    let m := g.val / 16
    let c := g.val % 16
    let k := hbmKey g (s.getF (Reg.MC_TG_RANGE_START_WORD m c) * 32)
    s.flag (Reg.MC_TG_CTL_BUSY m c) = true → s.getF (Reg.MC_TG_CTL_MODE m c) = 0 → s.getF (Reg.MC_TG_CTL_PATTERN m c) = 2 →
    s.getF (Reg.MC_TG_CTL_PASSES m c) = 1 → s.getF (Reg.MC_TG_RANGE_END_WORD m c) = s.getF (Reg.MC_TG_RANGE_START_WORD m c) →
    s.wcbOf m = [] → s.wcbWaits m = [] → s.chanLost g = false → s.held = [] → s.flag (Reg.MC_INJ_ARM m) = false →
    s.noneDone = true →
    let at0 := SMap.get (fun _ => 0) s.hbm.tgStart g
    (s.reach (at0 + ns)).now = at0 + ns → ns < 2 ^ 48 →
    Does (.tgDone g ns) s (fun t =>
      (∀ i, i < 32 → t.rdByte (k + i) = BitVec.ofNat 8 (bits (s.getF (Reg.MC_TG_CONST m c)) (8 * (i % 8)) 8)) ∧
      SameMemBut (fun a => decide (k ≤ a ∧ a < k + 32)) s t ∧ t.eccAt k = .clean ∧
      t.getF (Reg.MC_TG_MISMATCH m c) = 0 ∧ t.getF (Reg.MC_TG_ELAPSED m c) = ns ∧
      t.flag (Reg.MC_TG_CTL_BUSY m c) = false ∧ t.flag (Reg.MC_TG_CTL_DONE m c) = true ∧
      t.flag (Reg.MC_TG_CTL_ABORTED m c) = false)) ∧
  (∀ (s : State) (m : Fin 4) (w : WriteReq), s.takes w (Reg.MC_INJ_ARM m).off = true → w.half = .both →
    let n := ((List.range 32).filter (fun k => (s.getF (Reg.MC_INJ_MASK m)).testBit k)).length
    let fs := [Reg.MC_INJ_ARM m, Reg.MC_INJ_CHANNEL m, Reg.MC_INJ_WORD m]
    let set := fun (t : State) => fs.map (fun f => t.getF f) = fs.map (fun f => w.field f) ∧ SameRegs fs s t
    (wBit w (Reg.MC_INJ_ARM m) = true → n = 1 ∨ n = 2 → Does (.mcInj m w) s (fun t =>
      set t ∧ SMap.get (fun _ => 0) t.hbm.injMask m = s.getF (Reg.MC_INJ_MASK m) ∧
      t = ((s.setRegs t.regs).setHbm t.hbm).setResp t.resp)) ∧
    (wBit w (Reg.MC_INJ_ARM m) = true → n ≠ 1 → n ≠ 2 → exec (.mcInj m w) s = .next (s.answer .ok 0#64)) ∧
    (wBit w (Reg.MC_INJ_ARM m) = false → Does (.mcInj m w) s (fun t => set t ∧ OnlyRegs s t)))

/-- ECC_COUNTER_READ, WCB_COUNTER_READ, FLT_LOST_READ, MGT_MQ_PUSHDROP_READ, MGT_HOST_DENY_READ, MGT_HCM_ECC_READ and
PRBS_ERR_READ (R502, R580). A read of one half of a 48-bit count clears that half (the model's choice, log entry 116). -/
def Obligations.ClearingReads : Prop :=
  (∀ (s : State) (g : Fin 64) (k : Fin 3) (r : ReadReq),
    let f := [wholeReg (Reg.MC_ECC_CNT0_CORRECTED (g / 16) (g % 16)).off,
      wholeReg (Reg.MC_ECC_CNT1_POISON_READ (g / 16) (g % 16)).off,
      Reg.MC_ECC_CNT2_RETRY_RECOVERED (g / 16) (g % 16)].getD k (wholeReg 0)
    s.regLive f.off = true → ReadCleared (.eccCounterRead g k r) r f s) ∧
  (∀ (s : State) (m : Fin 4) (r : ReadReq), s.domHolds (43 + m) = true →
    ReadCleared (.wcbCounterRead m false r) r (halfFld r.half (Reg.MC_WCB_FLUSH m)) s ∧
    ReadCleared (.wcbCounterRead m true r) r (halfFld r.half (Reg.MC_WCB_WAIT m)) s) ∧
  (∀ (s : State) (n : Fin 5) (r : ReadReq), coversLo r.half = true → s.domHolds 38 = true →
    ReadCleared (.fltLostRead n r) r (Reg.FLT_LOST_C n) s) ∧
  (∀ (s : State) (r : ReadReq), coversLo r.half = true → ReadCleared (.mgtMqPushdropRead r) r Reg.MGT_MQ_PUSHDROP s) ∧
  (∀ (s : State) (r : ReadReq), r.half = .both → s.domHolds 38 = true →
    (Does (.mgtHostDenyRead r) s (fun t => t.getF Reg.MGT_HOST_DENY_COUNT = 0 ∧ t.denyArmed = true ∧
      t.resp = some { status := .ok, value := s.word Reg.MGT_HOST_DENY_COUNT.off } ∧
      SameRegs [Reg.MGT_HOST_DENY_COUNT] s t ∧ t = ((s.setRegs t.regs).setDenyArmed true).setResp t.resp)) ∧
    (Does (.mgtHcmEccRead r) s (fun t => t.getF Reg.MGT_HCM_ECC_CORR = 0 ∧ t.getF Reg.MGT_HCM_ECC_UNCORR = 0 ∧
      t.resp = some { status := .ok, value := s.word Reg.MGT_HCM_ECC_CORR.off } ∧
      SameRegs [Reg.MGT_HCM_ECC_CORR, Reg.MGT_HCM_ECC_UNCORR] s t ∧ OnlyRegs s t))) ∧
  (∀ (s : State) (p : Fin 6) (r : ReadReq), s.domHolds (47 + p / 2) = true →
    ReadCleared (.prbsErrRead (.port p) r) r (halfFld r.half (Reg.ETH_P_PRBS_ERR p)) s) ∧
  (∀ (s : State) (l : Fin 8) (k : Fin 4) (r : ReadReq), s.regLive (Reg.QSK_L_PRBS_ERR l k).off = true →
    ReadCleared (.prbsErrRead (.lane l k) r) r (halfFld r.half (Reg.QSK_L_PRBS_ERR l k)) s)

/-- SERVICE_ACCESS, PCIE_REQUEST, REGISTER_WRITE, MGT_HART_START and LOOPBACK_WRITE (R274, R281, R503, R508, R509, R541 to
R544). Requester numbers are the model's (log entry 30); LR, SC and AMO are those of the A extension (log entry 115). -/
def Obligations.HostAccesses : Prop :=
  (∀ (s : State) (a : Agent) (off : Fin 33554432) (n : Fin 4097), s.domOn 37 = true → s.domHolds 37 = true →
    s.reqOf s.nextReq = {} → 1 ≤ n.val → n.val ≤ 8 → off.val % 32 + n.val ≤ 32 →
    s.getF Reg.MGT_DEVNUM < 64 →
    let addr : BitVec 54 := BitVec.ofNat 54 (s.getF Reg.MGT_DEVNUM * 2 ^ 48 + 0x3000000000 + off.val)
    Does (.serviceAccess a addr (.plain (.read n)) .clean) s (fun t =>
      t.resp = some { status := .ok, value := BitVec.ofNat 64 (ofLe (s.rdBytes (hostKey off) n)), req := agentReq a } ∧
      SameMem s t ∧ t = ((s.setReqs t.reqs).setNextReq (s.nextReq + 1)).setResp t.resp)) ∧
  (∀ (s : State) (a : Agent) (off : Fin 33554432) (bs : List Byte), s.domHolds 37 = true → s.reqOf s.nextReq = {} →
    bs ≠ [] → off.val % 32 + bs.length ≤ 32 → s.flag Reg.MGT_HCM_LOCK = false → s.getF Reg.MGT_DEVNUM < 64 →
    let addr : BitVec 54 := BitVec.ofNat 54 (s.getF Reg.MGT_DEVNUM * 2 ^ 48 + 0x3000000000 + off.val)
    Does (.serviceAccess a addr (.plain (.write bs)) .clean) s (fun t =>
      t.rdBytes (hostKey off) bs.length = bs ∧
      SameMemBut (fun x => decide (hostKey off ≤ x ∧ x < hostKey off + bs.length)) s t ∧
      t.resp = some { status := .ok, value := 0, req := agentReq a } ∧
      t = ((((s.setMem t.mem).setReqs t.reqs).setNextReq (s.nextReq + 1)).setSync { s.sync with resv := t.sync.resv }).setResp
        t.resp)) ∧
  (∀ (s : State) (h : Fin 4) (off : Fin 33554432) (dword : Bool) (x : W64), s.domHolds 37 = true →
    s.getF Reg.MGT_DEVNUM < 64 → s.flag Reg.MGT_HCM_LOCK = false →
    let n := if dword then 8 else 4
    off.val % n = 0 →
    let addr : BitVec 54 := BitVec.ofNat 54 (s.getF Reg.MGT_DEVNUM * 2 ^ 48 + 0x3000000000 + off.val)
    let old := ofLe (s.rdBytes (hostKey off) n)
    let answer := fun (v : Nat) (t : State) =>
      t.resp = some { status := .ok, value := BitVec.ofNat 64 v, req := agentReq (.hart h) } ∧
      t = ((s.setMem t.mem).setSync { s.sync with resv := t.sync.resv }).setResp t.resp
    let stored := fun (v : Nat) (t : State) => t.rdBytes (hostKey off) n = leBytes n v ∧
      SameMemBut (fun a => decide (hostKey off ≤ a ∧ a < hostKey off + n)) s t
    Does (.serviceAccess (.hart h) addr (.atomic .lr dword x) .clean) s (fun t =>
      answer old t ∧ t.mem = s.mem ∧ SMap.get (fun _ => none) t.sync.resv h = some (off.val, n)) ∧
    (SMap.get (fun _ => none) s.sync.resv h = some (off.val, n) →
      Does (.serviceAccess (.hart h) addr (.atomic .sc dword x) .clean) s (fun t =>
        answer 0 t ∧ stored x.toNat t ∧ SMap.get (fun _ => none) t.sync.resv h = none)) ∧
    (SMap.get (fun _ => none) s.sync.resv h ≠ some (off.val, n) →
      Does (.serviceAccess (.hart h) addr (.atomic .sc dword x) .clean) s (fun t =>
        answer 1 t ∧ t.mem = s.mem ∧ SMap.get (fun _ => none) t.sync.resv h = none)) ∧
    (∀ op, op ≠ .lr → op ≠ .sc → Does (.serviceAccess (.hart h) addr (.atomic op dword x) .clean) s (fun t =>
      answer old t ∧ stored (amoFn op (8 * n) old (x.toNat % 2 ^ (8 * n))) t))) ∧
  (∀ (s : State) (h : Fin 4) (addr : BitVec 54) (op : AmoOp) (dword : Bool) (x : W64) (seen : EccSeen),
    let y := addr.toNat % 2 ^ 48
    addr.toNat / 2 ^ 48 = s.getF Reg.MGT_DEVNUM → y + 8 ≤ 0x2020000000 →
    Does (.serviceAccess (.hart h) addr (.atomic op dword x) seen) s (fun t =>
      t.resp = some { status := .accessFault, value := 0, req := agentReq (.hart h) } ∧ t = s.setResp t.resp)) ∧
  (∀ (s : State) (a : Agent) (x : Fin 0x1000000) (op : SvcOp) (seen : EccSeen), s.room = true → a ≠ .pcie →
    s.getF Reg.MGT_DEVNUM < 64 → 1 ≤ svcSize op →
    let y := 0x2100000000 - 0x1000000 + x.val
    Does (.serviceAccess a (BitVec.ofNat 54 (s.getF Reg.MGT_DEVNUM * 2 ^ 48 + y)) (.plain op) seen) s (fun t =>
      Filed s t 1 0x206 (uStack 0) [(48, y), (16, agentReq a)] ∧
      t.resp = some { status := .accessFault, value := 0, req := agentReq a } ∧ t = (s.setFlt t.flt).setResp t.resp)) ∧
  (∀ (s : State) (q : PcieReq) (seen : EccSeen), s.domOn 55 = false ∨ s.pwr.perst = true →
    exec (.pcieRequest q seen) s = .next s) ∧
  (∀ (s : State) (bar : Fin 3) (off : BitVec 33) (seen : EccSeen), s.domOn 55 = true → s.pwr.perst = false →
    Does (.pcieRequest (.atomic bar off) seen) s (fun t =>
      t.getF Reg.PCI_UR_COUNT = (s.getF Reg.PCI_UR_COUNT + 1) % 2 ^ 32 ∧
      t.resp = some { status := .accessFault, value := 0, req := agentReq .pcie } ∧
      SameRegs [Reg.PCI_UR_COUNT] s t ∧ OnlyRegs s t)) ∧
  (∀ (s : State) (n : Fin 4097) (off : BitVec 33) (seen : EccSeen), s.domOn 55 = true → s.pwr.perst = false →
    0x10000 < off.toNat + n.val →
    Does (.pcieRequest (.read 2 off n) seen) s (fun t =>
      t.getF Reg.PCI_UR_COUNT = (s.getF Reg.PCI_UR_COUNT + 1) % 2 ^ 32 ∧ SameRegs [Reg.PCI_UR_COUNT] s t ∧ OnlyRegs s t)) ∧
  (∀ (s : State) (off : Fin 0x8000) (n : Fin 4097), s.domOn 55 = true → s.pwr.perst = false →
    s.domOn 37 = true → s.domHolds 37 = true → s.reqOf s.nextReq = {} → s.flag (Reg.PCI_WIN_EN 1) = true →
    s.getF (Reg.PCI_WIN_BASE 1) = 0xC0 → 1 ≤ n.val → n.val ≤ 8 → off.val % 32 + n.val ≤ 32 →
    Does (.pcieRequest (.read 1 (BitVec.ofNat 33 (2 ^ 30 + off.val)) n) .clean) s (fun t =>
      t.resp = some { status := .ok, value := BitVec.ofNat 64 (ofLe (s.rdBytes (hostKey off) n)), req := agentReq .pcie } ∧
      t = ((s.setReqs t.reqs).setNextReq (s.nextReq + 1)).setResp t.resp)) ∧
  (∀ (s : State) (w : WriteReq) (d : Fin 3), s.takes w (Reg.FLT_IRQ_CFG_HOLDOFF d).off = true → w.half = .lo →
    SMap.get (fun _ => false) s.flt.irqOn d = true →
    w.field (Reg.FLT_IRQ_CFG_CLASS_EN d) = s.getF (Reg.FLT_IRQ_CFG_CLASS_EN d) → s.fltSet d ≠ 0 →
    Does (.registerWrite (.host (BitVec.ofNat 28 (Reg.FLT_IRQ_CFG_HOLDOFF d).off) w)) s (fun t =>
      t.getF (Reg.FLT_IRQ_CFG_HOLDOFF d) = w.field (Reg.FLT_IRQ_CFG_HOLDOFF d) ∧
      SameRegs [Reg.FLT_IRQ_CFG_HOLDOFF d] s t ∧ OnlyRegs s t)) ∧
  (∀ (s : State) (off : BitVec 28) (w : WriteReq), Reg.row (off.toNat / 8 * 8) = none →
    exec (.registerWrite (.host off w)) s = .next (s.answer .ok 0#64)) ∧
  (∀ (s : State) (w : WriteReq) (h : Fin 4), s.takes w Reg.MGT_HART_START.off = true → coversLo w.half = true →
    w.field Reg.MGT_HART_START = 2 ^ h.val → s.domOn (33 + h) = true → bit1 (s.getF Reg.MGT_HART_START) h = false →
    (∀ e ∈ s.stw.harts, e.1 ≠ h.val) →
    Does (.mgtHartStart w) s (fun t =>
      t.getF Reg.MGT_HART_START = s.getF Reg.MGT_HART_START ||| 2 ^ h.val ∧
      t.stw.harts = s.stw.harts ++ [(h.val, s.getF Reg.MGT_HART_ENTRY)] ∧
      SameRegs [Reg.MGT_HART_START] s t ∧
      t = ((s.setRegs t.regs).setStw { s.stw with harts := t.stw.harts }).setResp t.resp)) ∧
  (∀ (s : State) (k : LoopSite) (w : WriteReq), s.takesAct w (loopFld k).off = true → w.half = .both →
    let f := loopFld k
    (s.loopFree k = true → f.w = 2 → w.field f ≤ 2 → Does (.loopbackWrite k w) s (fun t =>
      t.getF f = w.field f ∧ SameRegs [f] s t ∧ OnlyRegs s t)) ∧
    (s.loopFree k = true → f.w ≠ 2 → Does (.loopbackWrite k w) s (fun t =>
      t.getF f = w.field f ∧ SameRegs [f] s t ∧ OnlyRegs s t)) ∧
    (s.loopFree k = false ∨ (f.w = 2 ∧ w.field f = 3) → exec (.loopbackWrite k w) s = .next (s.answer .ok 0#64)))

/-- The block codec: what the encoder writes decodes without a broken condition to what R299 and R300 make of each element, K
= 0 loses nothing (R301), and SEGMENT_ENCODE stores it (R302 to R307). -/
def Obligations.BlockCodec : Prop :=
  (∀ (kind k d : Nat) (marked : Bool) (xs : List Nat), kindOk kind k → 1 ≤ d → d ≤ 32 → 1 ≤ xs.length →
    xs.length ≤ 512 → (∀ x ∈ xs, x < 2 ^ kindBits kind) →
    decodeSegment kind k (segSlot kind) (encodeSegment kind k d marked xs) =
      { elems := xs.map (fun x => ofQ kind k (toQ kind k x)), marked := marked, bad := none }) ∧
  (∀ (kind x : Nat), kind ≤ 3 → x < 2 ^ kindBits kind → ofQ kind 0 (toQ kind 0 x) = x) ∧
  (∀ (kind k x : Nat), kind ≤ 1 → kindOk kind k → 1 ≤ k → x < 2 ^ kindBits kind →
    ((ofQ kind k (toQ kind k x) : Int) - x).natAbs ≤ 2 ^ (k - 1)) ∧
  (∀ (s : State) (p : Fin 4) (r : Fin 16) (code : Fin 25) (g : CodedRegion),
    let sect := match s.coresOf p with | c :: _ => s.getF (Reg.CC_CTX_STAT_SECTION c) | [] => 0
    let k := p.val * 32 + code.val
    let n := g.elems g.done
    let nw := ceilDiv (n * g.width) 8
    let ws := (SMap.get (fun _ => []) s.codec k).take nw
    let seg := encodeSegment g.kind g.k g.d (ws.any (fun w => w.mark.isSome))
      ((elemsOf g.kind (ws.flatMap (fun w => leBytes 8 w.data.toNat))).take n)
    let a := g.addr g.done
    ((s.pipe p).coded.filter (fun g => g.sect == sect))[r.val]? = some g → 0 < nw → ws.length = nw →
    0x3000000000 ≤ a → a + seg.length ≤ 0x3002000000 → a % 32 = 0 → seg.length % 32 = 0 →
    Does (.segmentEncode p r code) s (fun t =>
      t.rdBytes (hostKey (a - 0x3000000000)) seg.length = seg ∧
      SameMemBut (fun x => decide (hostKey (a - 0x3000000000) ≤ x ∧ x < hostKey (a - 0x3000000000) + seg.length)) s t ∧
      SMap.get (fun _ => []) t.codec k = (SMap.get (fun _ => []) s.codec k).drop nw ∧
      (t.pipe p).coded = (s.pipe p).coded.map (fun h =>
        if h = g then { h with done := if g.done + 1 < g.segs then g.done + 1 else 0 } else h) ∧
      t.regs = s.regs ∧ t.flt = s.flt)) ∧
  (∀ (s : State) (p : Fin 4) (r : Fin 16) (code : Fin 25), SMap.get (fun _ => []) s.codec (p.val * 32 + code.val) = [] →
    exec (.segmentEncode p r code) s = .next s)

/-- Eyes, links, received and transmitted frames, and the posts of the descriptor rings (R366 to R370, R383, R384, R507, R561,
R562). -/
def Obligations.EthernetPorts : Prop :=
  (∀ (s : State) (p : Fin 4) (h w : Fin 65536), s.domOn (47 + p / 2) = true → s.getF (Reg.ETH_P_CFG_MODE p) ≠ 0 →
    s.room = true →
    let low := h.val < s.getF (Reg.ETH_P_EYE_MIN p) % 65536 ∨ w.val < s.getF (Reg.ETH_P_EYE_MIN p) / 65536
    Does (.eyeMeasure p h w) s (fun t =>
      t.getF (Reg.ETH_P_EYE_HEIGHT p) = h ∧ t.getF (Reg.ETH_P_EYE_WIDTH p) = w ∧ ((t.port p).eyeLow = true ↔ low) ∧
      (low ∧ (s.port p).eyeLow = false → Filed s t 0 0x30C (uEth p) [(16, h), (16, w)]) ∧
      (¬ (low ∧ (s.port p).eyeLow = false) → t.flt = s.flt) ∧
      SameRegs [Reg.ETH_P_EYE_HEIGHT p, Reg.ETH_P_EYE_WIDTH p] s t ∧ t = ((s.setRegs t.regs).setEth t.eth).setFlt t.flt)) ∧
  (∀ (s : State) (p : Fin 6) (lock fec : Bool) (ns : Nat), s.flag (Reg.ETH_P_STAT_LINK_UP p) = true →
    (lock && fec) = false → s.room = true →
    Does (.portLinkDown p lock fec ns) s (fun t =>
      t.flag (Reg.ETH_P_STAT_BLOCK_LOCK p) = lock ∧ t.flag (Reg.ETH_P_STAT_FEC_ALIGN p) = fec ∧
      t.flag (Reg.ETH_P_STAT_LINK_UP p) = decide (ns < 10000) ∧
      (ns < 10000 → t.flt = s.flt ∧ t.eth = s.eth) ∧
      (10000 ≤ ns → (t.port p).down = true ∧ Filed s t 1 0x30A (uEth p) []) ∧
      SameRegs [Reg.ETH_P_STAT_BLOCK_LOCK p, Reg.ETH_P_STAT_FEC_ALIGN p, Reg.ETH_P_STAT_LINK_UP p] s t ∧
      t = ((s.setRegs t.regs).setEth t.eth).setFlt t.flt)) ∧
  (∀ (s : State) (p : Fin 6), s.flag (Reg.ETH_P_STAT_LINK_UP p) = false → s.domOn (47 + p / 2) = true →
    s.getF (Reg.ETH_P_CFG_MODE p) ≠ 0 → s.room = true →
    Does (.portLinkUp p) s (fun t =>
      t.flag (Reg.ETH_P_STAT_LINK_UP p) = true ∧ (t.port p).down = false ∧
      ((s.port p).down = true → Filed s t 0 0x30B (uEth p) []) ∧ ((s.port p).down = false → t.flt = s.flt) ∧
      SameRegs [Reg.ETH_P_STAT_BLOCK_LOCK p, Reg.ETH_P_STAT_FEC_ALIGN p, Reg.ETH_P_STAT_LINK_UP p] s t ∧
      t = ((s.setRegs t.regs).setEth t.eth).setFlt t.flt)) ∧
  (∀ (s : State) (p : Fin 6) (at' : Nat) (bytes : List Byte) (good : Bool), s.hears p bytes = true →
    (good = false → Does (.ethFrameReceive p at' bytes good) s (fun t =>
      t.getF (Reg.ETH_P_FCSERR p) = (s.getF (Reg.ETH_P_FCSERR p) + 1) % 2 ^ 32 ∧
      SameRegs [Reg.ETH_P_FCSERR p] s t ∧ t = (s.reach at').setRegs t.regs)) ∧
    (good = true → s.frameForPort p bytes = false → s.flag (Reg.ETH_P_CFG_PROMISC p) = false →
      exec (.ethFrameReceive p at' bytes good) s = .next (s.reach at')) ∧
    (∀ tq, good = true → s.frameForPort p bytes = true ∨ s.flag (Reg.ETH_P_CFG_PROMISC p) = true →
      s.forRing p tq bytes = true →
      let r := ringRegs p tq
      let a := s.getF r.rxBase + 32 * (s.getF r.rxRd % 2 ^ s.getF r.log2)
      let d := s.rdBytes a 32
      (s.getF r.rxWr = s.getF r.rxRd → Does (.ethFrameReceive p at' bytes good) s (fun t =>
        (tq = false → t.getF (Reg.ETH_P_NIC_RXDROP p) = (s.getF (Reg.ETH_P_NIC_RXDROP p) + 1) % 2 ^ 32) ∧
        SameRegs (if tq then [] else [Reg.ETH_P_NIC_RXDROP p]) s t ∧ t = (s.reach at').setRegs t.regs)) ∧
      (s.getF r.rxWr ≠ s.getF r.rxRd → s.ringDesc a = true → bit1 (fieldLe d 10 1) 0 = true →
        bytes.length ≤ fieldLe d 8 2 →
        Does (.ethFrameReceive p at' bytes good) s (fun t =>
          t.rdBytes (fieldLe d 0 8) bytes.length = bytes ∧
          (let d' := t.rdBytes a 32
           bit1 (fieldLe d' 10 1) 0 = false ∧ bit1 (fieldLe d' 10 1) 2 = true ∧ bit1 (fieldLe d' 10 1) 3 = false ∧
           fieldLe d' 12 8 = (s.reach at').now ∧ fieldLe d' 20 2 = (s.reach at').nowFrac ∧ fieldLe d' 22 2 = bytes.length ∧
           d'.take 10 = d.take 10 ∧ (tq = true → fieldLe d' 11 1 = p)) ∧
          SameMemBut (fun x => decide ((a ≤ x ∧ x < a + 32) ∨
            (fieldLe d 0 8 ≤ x ∧ x < fieldLe d 0 8 + bytes.length))) s t ∧
          t.getF r.rxRd = (s.getF r.rxRd + 1) % 2 ^ 32 ∧ SameRegs [r.rxRd] s t ∧ t.flt = s.flt ∧ t.eth = s.eth ∧
          t.streams = s.streams ∧
          (tq = false → s.getF (Reg.MGT_IRQ_ROUTE_DEST (72 + p)) = 0 →
            SMap.get (fun _ => false) t.irq.plic (72 + p) = true))))) ∧
  (∀ (s : State) (p : Fin 6) (at' : Nat) (bytes : List Byte) (i : Nat) (d : Datagram), s.hears p bytes = true →
    s.frameForPort p bytes = true ∨ s.flag (Reg.ETH_P_CFG_PROMISC p) = true → udpOf bytes = some d →
    s.claimedBy p d = some i → s.domOn 54 = true →
    let m := s.epStream i
    let r := rtpOf d.payload
    let e? := (s.strm m).outs.find? (fun o => rtpStamp o.target == r.ts)
    (∀ (c : Nat) (e : Exposure), e? = some e →
      (d.ipOk = false ∧ c = 5) ∨ (d.ipOk = true ∧ d.udpOk = false ∧ c = 6) ∨
        (d.ipOk = true ∧ d.udpOk = true ∧ s.rtpFault i r = some c) →
      Does (.ethFrameReceive p at' bytes true) s (fun t =>
        t.getF (Reg.ING_STR_MALFORMED m) = (s.getF (Reg.ING_STR_MALFORMED m) + 1) % 2 ^ 32 ∧
        t.strm m = { s.strm m with outs := (s.strm m).outs.map (fun o => if o.k = e.k then
          { e with malformed := e.malformed + 1, malCond := if e.malformed = 0 then c else e.malCond } else o) } ∧
        SameRegs [Reg.ING_STR_MALFORMED m] s t ∧ t = ((s.reach at').setRegs t.regs).setStreams t.streams)) ∧
    (∀ c, e? = none → (s.strm m).malTs.contains r.ts = true →
      (d.ipOk = false ∧ c = 5) ∨ (d.ipOk = true ∧ d.udpOk = false ∧ c = 6) ∨
        (d.ipOk = true ∧ d.udpOk = true ∧ s.rtpFault i r = some c) →
      Does (.ethFrameReceive p at' bytes true) s (fun t =>
        t.getF (Reg.ING_STR_MALFORMED m) = (s.getF (Reg.ING_STR_MALFORMED m) + 1) % 2 ^ 32 ∧
        SameRegs [Reg.ING_STR_MALFORMED m] s t ∧ t = (s.reach at').setRegs t.regs)) ∧
    (∀ c, e? = none → (s.strm m).malTs.contains r.ts = false → (s.strm m).recent.find? (fun x => x.1 == r.ts) = none →
      s.room = true → (d.ipOk = false ∧ c = 5) ∨ (d.ipOk = true ∧ d.udpOk = false ∧ c = 6) ∨
        (d.ipOk = true ∧ d.udpOk = true ∧ s.rtpFault i r = some c) →
      Does (.ethFrameReceive p at' bytes true) s (fun t =>
        t.getF (Reg.ING_STR_MALFORMED m) = (s.getF (Reg.ING_STR_MALFORMED m) + 1) % 2 ^ 32 ∧
        Filed s t 0 0x307 uIngest [(16, m), (16, 1), (4, c)] ∧
        t.strm m = { s.strm m with malTs := (r.ts :: (s.strm m).malTs).take 64 } ∧ SameRegs [Reg.ING_STR_MALFORMED m] s t ∧
        t = (((s.reach at').setRegs t.regs).setStreams t.streams).setFlt t.flt)) ∧
    (∀ (e : Exposure) (k : Nat), e? = some e → d.ipOk = true → d.udpOk = true → s.rtpFault i r = none →
      r.srds.more = false → e.refused = false → e.complete = false → r.seq ∉ e.seqs → e.slot = some k →
      let e' := ({ e with seqs := e.seqs ++ [r.seq], packets := e.packets + 1,
                          marker := if r.marker then some r.seq else e.marker } : Exposure).take
                  (s.epF i 49 1 % 4) r.srds.hdrs r.srds.data
      s.frameWhole i e' = false →
      Does (.ethFrameReceive p at' bytes true) s (fun t =>
        t.strm m = { s.strm m with outs := (s.strm m).outs.map (fun o => if o.k = e.k then e' else o) } ∧
        t = (s.reach at').setStreams t.streams)) ∧
    (e? = none → d.ipOk = true → d.udpOk = true → s.rtpFault i r = none → r.srds.more = false →
      (s.strm m).recent.find? (fun x => x.1 == r.ts) = none → (s.strm m).stray.contains r.ts = false → s.room = true →
      Does (.ethFrameReceive p at' bytes true) s (fun t =>
        t.getF (Reg.ING_STR_STRAY m) = (s.getF (Reg.ING_STR_STRAY m) + 1) % 2 ^ 32 ∧
        t.strm m = { s.strm m with stray := (s.strm m).stray ++ [r.ts] } ∧
        Filed s t 0 0x306 uIngest [(16, m), (32, r.ts)] ∧ SameRegs [Reg.ING_STR_STRAY m] s t ∧
        t = (((s.reach at').setRegs t.regs).setStreams t.streams).setFlt t.flt))) ∧
  (∀ (s : State) (p : Fin 6) (at' : Nat), s.domOn (47 + p / 2) = true →
    (∀ (c : TxItem) (rest : List TxItem), (s.port p).cmdq = c :: rest →
      (s.flag (Reg.ETH_P_STAT_LINK_UP p) = true → s.portLooped p = false → Does (.frameTransmit p at') s (fun t =>
        t.out = s.out ++ [.udp p c.ref c.dest (s.getF Reg.ETH_CMD_PORT) c.bytes] ∧ t.port p = { s.port p with cmdq := rest } ∧
        t = ((s.reach at').setOut t.out).setEth t.eth)) ∧
      (s.portLooped p = true → Does (.frameTransmit p at') s (fun t =>
        t.getF (Reg.ETH_P_TXDROP p) = (s.getF (Reg.ETH_P_TXDROP p) + 1) % 2 ^ 32 ∧
        t.port p = { s.port p with cmdq := rest } ∧ SameRegs [Reg.ETH_P_TXDROP p] s t ∧
        t = ((s.reach at').setRegs t.regs).setEth t.eth))) ∧
    ((s.port p).cmdq = [] → s.getF (Reg.ETH_P_TQ_TXWR p) = s.getF (Reg.ETH_P_TQ_TXRD p) →
      s.getF (Reg.ETH_P_NIC_TXWR p) = s.getF (Reg.ETH_P_NIC_TXRD p) →
      s.flag (Reg.ETH_P_STAT_LINK_UP p) = true →
      exec (.frameTransmit p at') s = .next (s.reach at')) ∧
    (∀ tq, (s.port p).cmdq = [] → s.flag (Reg.ETH_P_STAT_LINK_UP p) = true → s.portLooped p = false →
      (tq = (s.getF (Reg.ETH_P_TQ_TXWR p) != s.getF (Reg.ETH_P_TQ_TXRD p))) →
      (tq = false → s.getF (Reg.ETH_P_NIC_TXWR p) ≠ s.getF (Reg.ETH_P_NIC_TXRD p)) →
      let r := ringRegs p tq
      let a := s.getF r.txBase + 32 * (s.getF r.txRd % 2 ^ s.getF r.log2)
      let d := s.rdBytes a 32
      let f := s.rdBytes (fieldLe d 0 8) (fieldLe d 8 2)
      s.ringDesc a = true → 60 ≤ f.length → f.length ≤ 9596 →
      let deny := tq = false ∧ (etherType f).1 = 0x88F7
      Does (.frameTransmit p at') s (fun t =>
        t.out = (if deny then s.out else s.out ++ [.eth p f]) ∧
        (deny → t.getF (Reg.ETH_P_NIC_TXDENY p) = (s.getF (Reg.ETH_P_NIC_TXDENY p) + 1) % 2 ^ 32) ∧
        (let d' := t.rdBytes a 32
         bit1 (fieldLe d' 10 1) 0 = false ∧ bit1 (fieldLe d' 10 1) 2 = true ∧ (bit1 (fieldLe d' 10 1) 3 = true ↔ deny) ∧
         (¬ deny → bit1 (fieldLe d 10 1) 1 = true →
           fieldLe d' 12 8 = (s.reach at').now ∧ fieldLe d' 20 2 = (s.reach at').nowFrac)) ∧
        SameMemBut (fun x => decide (a ≤ x ∧ x < a + 32)) s t ∧ t.getF r.txRd = (s.getF r.txRd + 1) % 2 ^ 32 ∧
        SameRegs [r.txRd, Reg.ETH_P_NIC_TXDENY p] s t ∧ (¬ deny → SameRegs [r.txRd] s t) ∧ t.flt = s.flt ∧
        (tq = false → s.getF (Reg.MGT_IRQ_ROUTE_DEST (72 + p)) = 0 →
          SMap.get (fun _ => false) t.irq.plic (72 + p) = true)))) ∧
  (∀ (s : State) (p : Fin 6) (tq : Bool) (w : WriteReq), coversLo w.half = true →
    (s.takes w (ringRegs p tq).rxWr.off = true → Does (.nicRxPost p tq w) s (fun t =>
      t.getF (ringRegs p tq).rxWr = w.field (ringRegs p tq).rxWr ∧ SameRegs [(ringRegs p tq).rxWr] s t ∧ OnlyRegs s t)) ∧
    (s.takes w (ringRegs p tq).txWr.off = true → Does (.nicTxPost p tq w) s (fun t =>
      t.getF (ringRegs p tq).txWr = w.field (ringRegs p tq).txWr ∧ SameRegs [(ringRegs p tq).txWr] s t ∧ OnlyRegs s t)))

/-- The endpoint table, binding, rotation, result records and the evidence ring (R371, R372, R374 to R377, R388 to R391,
R560). Staging starts from the present contents (log entry 54). -/
def Obligations.StreamsAndRecords : Prop :=
  (∀ (s : State) (i : Fin 1024) (w : WriteReq), s.takes w (Reg.ETH_EP i 7).off = true →
    let u := s.stageEp i 7 w
    let b := u.epStaged i
    (u.epRefusal i b = none → Does (.endpointCommit i w) s (fun t =>
      t.epBytes i = b ∧ SMap.get (fun _ => 0) t.ep.commitAt i = s.now ∧ (∀ k, k < 8 → SMap.get (fun _ => none) t.ep.stage (Reg.ETH_EP i k).off = none) ∧
      SameRegs [Reg.ETH_EP i 0, Reg.ETH_EP i 1, Reg.ETH_EP i 2, Reg.ETH_EP i 3, Reg.ETH_EP i 4, Reg.ETH_EP i 5,
        Reg.ETH_EP i 6, Reg.ETH_EP i 7] s t ∧
      t = ((s.setRegs t.regs).setEp t.ep).setResp t.resp)) ∧
    (∀ c, u.epRefusal i b = some c → s.room = true → Does (.endpointCommit i w) s (fun t =>
      Filed s t 0 0x301 (uEth (fieldLe b 2 1 % 8)) [(16, i), (4, c)] ∧ t.regs = s.regs ∧ t.ep = u.ep ∧
      t = ((s.setEp t.ep).setFlt t.flt).setResp t.resp))) ∧
  (∀ (s : State) (m : Fin 64) (w : WriteReq), s.takesAct w (Reg.ING_STR_CTL_BIND m).off = true → coversLo w.half = true →
    let n := s.getF (Reg.ING_STR_CFG_PIPE m)
    (w.field (Reg.ING_STR_CTL_BIND m) = 1 → w.field (Reg.ING_STR_CTL_UNBIND m) = 0 → s.bindOk m = true →
      s.stw.run ≠ .firmware → s.followers n = [] →
      Does (.bind m w) s (fun t => t.getF (Reg.ING_STR_STATE m) = 1 ∧ t.getF (Reg.ING_STR_FRAME m) = 0 ∧
        t.getF (Reg.ING_STR_RING_WR m) = 0 ∧ t.getF (Reg.ING_STR_RING_RD m) = 0 ∧ (t.strm m).bound = true ∧
        (t.strm m).outs = [] ∧ (t.strm m).pend = (s.strm m).pend ∧ m.val ∈ t.boundTo n ∧ (∀ k, k < 64 → k ≠ m.val → t.strm k = s.strm k) ∧
        SameRegs ([Reg.ING_STR_STATE m, Reg.ING_STR_FRAME m, Reg.ING_STR_RING_WR m, Reg.ING_STR_RING_RD m,
          Reg.ING_STATE_IRQ] ++ hbmWriteFields) s t ∧
        t.getF Reg.ING_STATE_IRQ = s.getF Reg.ING_STATE_IRQ ||| 2 ^ m.val)) ∧
    (w.field (Reg.ING_STR_CTL_BIND m) = 0 → w.field (Reg.ING_STR_CTL_UNBIND m) = 1 →
      s.getF (Reg.ING_STR_STATE m) ≠ 0 → s.unbindOk m = true →
      Does (.unbind m w) s (fun t => t.getF (Reg.ING_STR_STATE m) = 0 ∧ (t.strm m).bound = false ∧
        t.mem = s.mem ∧ (∀ k, k < 64 → k ≠ m.val → t.strm k = s.strm k))) ∧
    (s.room = true →
      let rejected := fun (t : State) => Filed s t 0 0x302 uIngest [(16, m), (26, (Reg.ING_STR_CTL_BIND m).off)] ∧
        t = (s.setFlt t.flt).setResp t.resp
      (w.field (Reg.ING_STR_CTL_BIND m) = 1 → w.field (Reg.ING_STR_CTL_UNBIND m) = 0 → s.bindOk m = false →
        Does (.bind m w) s rejected) ∧
      (w.field (Reg.ING_STR_CTL_BIND m) = 0 → w.field (Reg.ING_STR_CTL_UNBIND m) = 1 →
        s.getF (Reg.ING_STR_STATE m) ≠ 0 → s.unbindOk m = false → Does (.unbind m w) s rejected))) ∧
  (∀ (s : State) (n : Fin 4) (g : Fin 33) (w : WriteReq),
    let off := if g.val < 32 then (Reg.ING_ROT_ENT n g).off else (Reg.ING_ROT_LEN n).off
    s.takes w off = true →
    let u := s.plainWrite off w
    (s.bmState n = 0 → u.rotationOk n = true → Does (.rotationWrite n g w) s (fun t =>
      t.regs = u.regs ∧ t = (s.setRegs t.regs).setResp t.resp)) ∧
    (s.bmState n ≠ 0 ∨ u.rotationOk n = false → s.room = true → Does (.rotationWrite n g w) s (fun t =>
      Filed s t 0 0x302 uIngest [(16, n), (26, off)] ∧ t = (s.setFlt t.flt).setResp t.resp))) ∧
  (∀ (s : State) (m : Fin 64) (f : Frame),
    let p := s.getF (Reg.ING_STR_CFG_PIPE m)
    (s.pipe p).frames.find? (fun f => f.stream == m.val && !f.recPend) = some f → (s.strm m).pend = 0 →
    s.recordReady p f = true →
    s.isFollower p = false →
    s.flag Reg.ING_EVR_CTL_EN = false → s.flag Reg.SOL_LRN_CFG_EN = false →
    let a := s.getF (Reg.ING_STR_RING_BASE m) + 64 * (s.getF (Reg.ING_STR_RING_WR m) % 2 ^ s.getF (Reg.ING_STR_CFG_RING_LOG2 m))
    let held := (s.getF (Reg.ING_STR_RING_WR m) + 2 ^ 32 - s.getF (Reg.ING_STR_RING_RD m)) % 2 ^ 32
    (held < 2 ^ s.getF (Reg.ING_STR_CFG_RING_LOG2 m) → s.hostRange a 64 = true → a % 32 = 0 → s.bmState p ≠ 5 →
      Does (.resultRecordWrite m) s (fun t =>
        let b := t.rdBytes a 64
        fieldLe b 0 2 = f.stream % 2 ^ 16 ∧ fieldLe b 2 2 = f.frameNo % 2 ^ 16 ∧
        bit1 (fieldLe b 4 1) 0 = f.void.isSome ∧ bit1 (fieldLe b 4 1) 1 = (s.weightRef f.stream f.target).isNone ∧
        bit1 (fieldLe b 4 1) 2 = true ∧ fieldLe b 5 1 = ((f.void.map (fun x => x.1)).getD 0) % 256 ∧
        fieldLe b 6 1 = f.quality ∧ fieldLe b 8 8 = f.target % 2 ^ 64 ∧
        fieldLe b 16 8 = f.launch % 2 ^ 64 ∧ fieldLe b 24 8 = s.doneAt f % 2 ^ 64 ∧
        fieldLe b 36 4 = min f.lag (2 ^ 32 - 1) ∧ fieldLe b 60 4 = (crc32c (b.take 60)) ∧
        SameMemBut (fun x => decide (a ≤ x ∧ x < a + 64)) s t ∧
        t.getF (Reg.ING_STR_RING_WR m) = (s.getF (Reg.ING_STR_RING_WR m) + 1) % 2 ^ 32 ∧
        SameRegs [Reg.ING_STR_RING_WR m] s t ∧
        (t.pipe p).frames = (s.pipe p).frames.filter (fun g => g.id != f.id) ∧
        (∀ g ∈ (s.pipe p).past, g ∈ (t.pipe p).past) ∧ t.flt = s.flt)) ∧
    (2 ^ s.getF (Reg.ING_STR_CFG_RING_LOG2 m) ≤ held → s.room = true →
      Does (.resultRecordWrite m) s (fun t => (t.strm m).pend = 1 ∧ Filed s t 1 0x308 uIngest [(16, m)] ∧
        (t.pipe p).frames = (s.pipe p).frames.map (fun g =>
          if g.id = f.id then { g with recPend := true } else g) ∧
        t = ((s.setPipes t.pipes).setStreams t.streams).setFlt t.flt))) ∧
  (∀ (s : State) (m : Fin 64) (w : WriteReq), s.takes w (Reg.ING_STR_RING_RD m).off = true → coversLo w.half = true →
    (s.strm m).pend = 0 →
    Does (.ingStrRingRd m w) s (fun t => t.getF (Reg.ING_STR_RING_RD m) = w.field (Reg.ING_STR_RING_RD m) ∧
      SameRegs [Reg.ING_STR_RING_RD m] s t ∧ OnlyRegs s t)) ∧
  (∀ (s : State) (w : WriteReq), s.takes w Reg.ING_EVR_CTL_EN.off = true → coversLo w.half = true →
    Does (.ingEvrCtl w) s (fun t => t.getF Reg.ING_EVR_CTL_EN = w.field Reg.ING_EVR_CTL_EN ∧
      t.getF Reg.ING_EVR_CTL_HOLD_EN = w.field Reg.ING_EVR_CTL_HOLD_EN ∧
      (s.flag Reg.ING_EVR_CTL_EN = false → w.field Reg.ING_EVR_CTL_EN = 1 → t.getF Reg.ING_EVR_WRITE = 0) ∧
      SameRegs [Reg.ING_EVR_CTL_EN, Reg.ING_EVR_CTL_HOLD_EN, Reg.ING_EVR_WRITE] s t ∧
      (s.flag Reg.ING_EVR_CTL_EN = true ∨ w.field Reg.ING_EVR_CTL_EN = 0 →
        t.getF Reg.ING_EVR_WRITE = s.getF Reg.ING_EVR_WRITE) ∧ OnlyRegs s t))

/-- Training, time exchange and loss of links, the slot frame, routes, topology and the device number (R396 to R403, R410,
R413, R549, R563). The cause of a phase timeout is free (log entry 2); means round either way (log entry 57). -/
def Obligations.LinkTraining : Prop :=
  (∀ (s : State) (l : Fin 8) (w : WriteReq), s.takesAct w (Reg.QSK_L_CTL_EN l).off = true → coversLo w.half = true →
    (s.flag (Reg.QSK_L_CTL_EN l) = false → w.field (Reg.QSK_L_CTL_EN l) = 1 → s.linkFitted l = true →
      Does (.qskLinkEn l w) s (fun t => t.flag (Reg.QSK_L_CTL_EN l) = true ∧ t.getF (Reg.QSK_L_STAT_PHASE l) = 1 ∧
        (t.qlink l).phaseAt = s.now ∧ (t.qlink l).failed = false ∧ (t.qlink l).reached = false ∧ (t.qlink l).rx = [] ∧ t.qsk.routed = false ∧
        SameRegs [Reg.QSK_L_CTL_EN l, Reg.QSK_L_STAT_PHASE l] s t ∧
        t = ((s.setRegs t.regs).setQsk t.qsk).setResp t.resp)) ∧
    (s.flag (Reg.QSK_L_CTL_EN l) = false → w.field (Reg.QSK_L_CTL_EN l) = 1 → s.linkFitted l = false →
      Does (.qskLinkEn l w) s (fun t => t = s.setResp t.resp)) ∧
    (s.flag (Reg.QSK_L_CTL_EN l) = true → w.field (Reg.QSK_L_CTL_EN l) = 0 →
      Does (.qskLinkEn l w) s (fun t => t.flag (Reg.QSK_L_CTL_EN l) = false ∧ t.getF (Reg.QSK_L_STAT_PHASE l) = 0 ∧
        (t.qlink l).rx = [] ∧ (t.qlink l).half = [] ∧
        (∀ h ∈ t.held, h ∈ s.held ∧ (h.unit < 128 ∨ h.link ≠ l.val)) ∧
        SameMem s t ∧ t.flt = s.flt))) ∧
  (∀ (s : State) (l : Fin 8),
    (s.getF (Reg.QSK_L_STAT_PHASE l) = 1 → Does (.clockRecoveryLock l) s (fun t =>
      t.getF (Reg.QSK_L_STAT_PHASE l) = 2 ∧ t.qlink l = { s.qlink l with phaseAt := s.now } ∧
      SameRegs [Reg.QSK_L_STAT_PHASE l] s t ∧ t = (s.setRegs t.regs).setQsk t.qsk)) ∧
    (s.getF (Reg.QSK_L_STAT_PHASE l) = 2 → s.flag (Reg.QSK_L_LOOP l) = false → Does (.codewordLock l) s (fun t =>
      t.getF (Reg.QSK_L_STAT_PHASE l) = 3 ∧ t.qlink l = { s.qlink l with phaseAt := s.now } ∧
      t.out = s.out ++ [.notice (s.neighbour l) 0 [s.getF Reg.QSK_TOPO_SYSTEM_ID, s.getF Reg.QSK_TOPO_NX,
        s.getF Reg.QSK_TOPO_NY, s.getF Reg.QSK_TOPO_NZ, s.getF Reg.MGT_DEVNUM, l]] ∧
      SameRegs [Reg.QSK_L_STAT_PHASE l] s t ∧ t = ((s.setRegs t.regs).setQsk t.qsk).setOut t.out)) ∧
    (s.getF (Reg.QSK_L_STAT_PHASE l) ≠ 1 → exec (.clockRecoveryLock l) s = .next s) ∧
    (s.getF (Reg.QSK_L_STAT_PHASE l) ≠ 2 ∨ s.flag (Reg.QSK_L_LOOP l) = true → exec (.codewordLock l) s = .next s)) ∧
  (∀ (s : State) (l : Fin 8), let ph := s.getF (Reg.QSK_L_STAT_PHASE l)
    (1 ≤ ph → ph < 5 → s.room = true → s.now ≤ (s.qlink l).phaseAt + 100000000 →
      Does (.trainingPhaseTimeout l) s (fun t =>
        t.now = (s.reach ((s.qlink l).phaseAt + 100000000)).now ∧
        t.getF (Reg.QSK_L_STAT_PHASE l) = 0 ∧ (t.qlink l).failed = true ∧
        Filed s t 1 0x403 (s.linkUnit l) [(4, ph), (4, (Config.freeWord s.free).toNat % 16)] ∧
        SameRegs (Reg.QSK_L_STAT_PHASE l :: Reg.QSK_L_STAT_CAUSE l :: routeFields) s t ∧
        t = ((((s.reach ((s.qlink l).phaseAt + 100000000)).setRegs t.regs).setQsk t.qsk).setFlt t.flt).setFree t.free)) ∧
    (ph = 0 ∨ 5 ≤ ph → exec (.trainingPhaseTimeout l) s = .next s)) ∧
  (∀ (s : State) (l : Fin 8) (h : HelloMsg), s.getF (Reg.QSK_L_STAT_PHASE l) = 3 →
    let agrees := h.system.toNat = s.getF Reg.QSK_TOPO_SYSTEM_ID ∧ h.nx.val = s.getF Reg.QSK_TOPO_NX ∧
      h.ny.val = s.getF Reg.QSK_TOPO_NY ∧ h.nz.val = s.getF Reg.QSK_TOPO_NZ
    (agrees → h.dev.val = s.neighbour l → h.link.val = oppositeLink l →
      Does (.hello l h) s (fun t => t.getF (Reg.QSK_L_STAT_PHASE l) = 4 ∧
        t.qlink l = { s.qlink l with peer := h.dev, phaseAt := s.now, measured := 0, maxD := 0 } ∧
        SameRegs [Reg.QSK_L_STAT_PHASE l] s t ∧ t = (s.setRegs t.regs).setQsk t.qsk)) ∧
    (∀ c, s.room = true → (¬ agrees ∧ c = 0) ∨ (agrees ∧ h.dev.val ≠ s.neighbour l ∧ c = 1) ∨
        (agrees ∧ h.dev.val = s.neighbour l ∧ h.link.val ≠ oppositeLink l ∧ c = 2) →
      Does (.hello l h) s (fun t => t.getF (Reg.QSK_L_STAT_PHASE l) = 0 ∧ t.getF (Reg.QSK_L_STAT_CAUSE l) = c ∧
        (t.qlink l).failed = true ∧ (t.qlink l).peer = h.dev ∧
        Filed s t 1 0x403 (uLink l h.dev) [(4, 3), (4, c)] ∧
        SameRegs (Reg.QSK_L_STAT_PHASE l :: Reg.QSK_L_STAT_CAUSE l :: routeFields) s t ∧
        t = ((s.setRegs t.regs).setQsk t.qsk).setFlt t.flt))) ∧
  (∀ (s : State) (l : Fin 8), let ph := s.getF (Reg.QSK_L_STAT_PHASE l)
    (ph = 4 ∨ ph = 5 → Does (.timeExchange l) s (fun t => t.qlink l = { s.qlink l with t1 := some s.now } ∧
      t.out = s.out ++ [.time l none] ∧ t = (s.setQsk t.qsk).setOut t.out)) ∧
    (ph ≠ 4 → ph ≠ 5 → exec (.timeExchange l) s = .next s)) ∧
  (∀ (s : State) (l : Fin 8) (u : TimeMsg) (at' : Nat), let ph := s.getF (Reg.QSK_L_STAT_PHASE l)
    ph = 4 ∨ ph = 5 →
    (∀ t3, u = .ask t3 → Does (.timeUnit l u at') s (fun t =>
      let v := (s.reach at').reach t3
      t.out = v.out ++ [.time l (some (at', v.now))] ∧ t = v.setOut t.out)) ∧
    (∀ (t1 t2 t3 : Nat), u = .answer t2 t3 → (s.qlink l).t1 = some t1 → s.room = true →
      let d2 := ((at' : Int) - t1) - ((t3 : Int) - t2)
      let o2 := ((t2 : Int) - t1) - ((at' : Int) - t3)
      let hist := ((d2, o2) :: (s.qlink l).hist).take 64
      let maxD := if (s.qlink l).measured = 0 ∨ (s.qlink l).maxD < d2 then d2 else (s.qlink l).maxD
      let means := fun (t : State) =>
        (t.qlink l).t1 = none ∧ (t.qlink l).hist = hist ∧ (t.qlink l).measured = (s.qlink l).measured + 1 ∧
        (t.qlink l).maxD = maxD ∧
        meanIn t (Reg.QSK_L_DELAY l) ((hist.map (fun x => x.1)).foldl (· + ·) 0) (2 * hist.length) ∧
        meanIn t (Reg.QSK_L_OFFSET l) ((hist.map (fun x => x.2)).foldl (· + ·) 0) (2 * hist.length)
      (ph = 5 → (s.qlink l).offExc = none → o2.natAbs ≤ 32 ∨ s.linkFree l = true → Does (.timeUnit l u at') s (fun t =>
        means t ∧ SameRegs [Reg.QSK_L_DELAY l, Reg.QSK_L_OFFSET l] s t ∧
        t = (((s.reach at').setRegs t.regs).setQsk t.qsk).setFree t.free)) ∧
      (ph = 5 → (s.qlink l).offExc = none → 32 < o2.natAbs → s.linkUsed l = true → o2 % 2 = 0 →
        Does (.timeUnit l u at') s (fun t => means t ∧ (t.qlink l).offExc = some o2 ∧
          Filed s t 1 0x408 (s.linkUnit l) [(24, uint 24 (satI 24 (o2 / 2)))] ∧
          SameRegs [Reg.QSK_L_DELAY l, Reg.QSK_L_OFFSET l] s t)) ∧
      (ph = 4 → (s.qlink l).measured + 1 < 1024 → Does (.timeUnit l u at') s (fun t => means t ∧
        SameRegs [Reg.QSK_L_DELAY l, Reg.QSK_L_OFFSET l] s t)) ∧
      (ph = 4 → 1024 ≤ (s.qlink l).measured + 1 → maxD ≤ 448 → Does (.timeUnit l u at') s (fun t => means t ∧
        t.getF (Reg.QSK_L_STAT_PHASE l) = 5 ∧ (t.qlink l).reached = true ∧
        Filed s t 0 0x404 (s.linkUnit l)
          [(24, t.getF (Reg.QSK_L_DELAY l)), (24, uint 24 (satI 24 (t.getI (Reg.QSK_L_OFFSET l))))] ∧
        SameRegs (Reg.QSK_L_DELAY l :: Reg.QSK_L_OFFSET l :: Reg.QSK_L_STAT_PHASE l :: routeFields) s t)) ∧
      (ph = 4 → 1024 ≤ (s.qlink l).measured + 1 → 448 < maxD → Does (.timeUnit l u at') s (fun t => means t ∧
        t.getF (Reg.QSK_L_STAT_PHASE l) = 0 ∧ (t.qlink l).failed = true)))) ∧
  (∀ (s : State) (l : Fin 8) (cause : Fin 4),
    (s.linkUp l = false → exec (.linkLost l cause) s = .next s) ∧
    (s.linkUp l = true → s.room = true →
      Does (.linkLost l cause) s (fun t => t.getF (Reg.QSK_L_STAT_PHASE l) = 0 ∧ (t.qlink l).rx = [] ∧
        (s.linkFree l = true → Filed s t 3 0x402 (s.linkUnit l) [(4, cause)]) ∧
        (∀ n, n < 4 → s.loaded n = true → s.isFollower n = false → l.val ∈ (s.pipe n).links → t.bmState n ≠ 1 ∧ t.bmState n ≠ 2 ∧ t.bmState n ≠ 3) ∧
        SameMem s t))) ∧
  (∀ (s : State) (err : Int), s.flag Reg.QSK_SFRAME_STAT_LOCK = false → exec (.slotFrameUnlocked err) s = .next s) ∧
  (∀ (s : State) (err : Int), s.room = true → s.flag Reg.QSK_SFRAME_STAT_LOCK = true →
    Does (.slotFrameUnlocked err) s (fun t => t.flag Reg.QSK_SFRAME_STAT_LOCK = false ∧
      SameRegs [Reg.QSK_SFRAME_STAT_LOCK] s t ∧
      ((∃ l, l < 8 ∧ s.linkUsed l = true) ∧ s.qsk.unlocked = false →
        Filed s t 1 0x40A uDevice [(24, uint 24 (satI 24 err))] ∧ t.qsk.unlocked = true) ∧
      (¬ ((∃ l, l < 8 ∧ s.linkUsed l = true) ∧ s.qsk.unlocked = false) → t = s.setRegs t.regs) ∧
      t = ((s.setRegs t.regs).setQsk t.qsk).setFlt t.flt)) ∧
  (∀ s : State, Does .slotFrameLock s (fun t => t.flag Reg.QSK_SFRAME_STAT_LOCK = true ∧
    SameRegs [Reg.QSK_SFRAME_STAT_LOCK] s t ∧ t = (s.setRegs t.regs).setQsk { s.qsk with unlocked := false })) ∧
  (∀ (s : State) (w : WriteReq), s.takesAct w Reg.QSK_ROUTE_CTL_DEFAULT.off = true → coversLo w.half = true →
    w.field Reg.QSK_ROUTE_CTL_DEFAULT = 1 →
    Does (.qskRouteDefault w) s (fun t => s.routesDefault t ∧ SameRegs routeFields s t ∧ OnlyRegs s t)) ∧
  (∀ (s : State) (w : WriteReq), s.takes w Reg.QSK_TOPO_NX.off = true →
    let u := s.plainWrite Reg.QSK_TOPO_NX.off w
    let legal := (∀ l, l < 8 → s.flag (Reg.QSK_L_CTL_EN l) = false) ∧ u.getF Reg.QSK_TOPO_NX ≤ 2 ∧
      u.getF Reg.QSK_TOPO_NY ≤ 2 ∧ u.getF Reg.QSK_TOPO_NZ ≤ 2
    (legal → Does (.qskTopo w) s (fun t => t.regs = u.regs ∧ OnlyRegs s t)) ∧
    (¬ legal → Does (.qskTopo w) s (fun t => t = s.setResp t.resp))) ∧
  (∀ (s : State) (w : WriteReq), s.takes w Reg.MGT_DEVNUM.off = true → coversLo w.half = true →
    let free := (∀ n, n < 4 → s.getF (Reg.WVL_PIPE_STATE n) = 0) ∧ (∀ l, l < 8 → s.flag (Reg.QSK_L_CTL_EN l) = false)
    (free → Does (.mgtDevnum w) s (fun t => t.getF Reg.MGT_DEVNUM = w.field Reg.MGT_DEVNUM ∧
      SameRegs [Reg.MGT_DEVNUM] s t ∧ OnlyRegs s t)) ∧
    (¬ free → Does (.mgtDevnum w) s (fun t => t = s.setResp t.resp)))

/-- Flits, SERVICE units and the notices of spread pipelines (R402, R405, R406, R411 to R414). The instants of a BIND answer
are free (log entry 2). -/
def Obligations.JoinedDevices : Prop :=
  (∀ (s : State) (l : Fin 8) (frame : Fin 256) (slot : Fin 128) (words : List (Fin 8 × FabWord)),
    s.linkUp l = true → s.flag (Reg.QSK_L_LOOP l) = false → s.room = true →
    let key := frame.val * 128 + slot.val
    let seen := ((s.qlink l).half.find? (fun h => h.1 == key)).map (fun h => h.2)
    let c : Int := ((s.now / 128 : Nat) : Int) - 2
    let diff := sint 8 (uint 8 ((frame.val : Int) - c))
    let sent := (c + diff).toNat
    (seen = none → -100 ≤ diff → diff ≤ 100 → 0 ≤ c + diff → SMap.get (fun _ => []) (s.qlink l).rx slot = [] →
      s.now ≤ sent * 128 + slot + 259 →
      Does (.flitReceive l frame slot true words) s (fun t =>
        (∃ d, d < s.now + 1000 ∧ SMap.get (fun _ => []) (t.qlink l).rx slot = [(d, words.map (fun w => (w.1.val, unitWordOf w.2 s.now)))] ∧
          d * 128 + (slot.val + 3) % 128 = sent * 128 + slot + 259) ∧
        (t.qlink l).half = (s.qlink l).half ++ [(key, true)] ∧ t = s.setQsk t.qsk)) ∧
    (seen = none → diff < -100 ∨ 100 < diff →
      Does (.flitReceive l frame slot true words) s (fun t =>
        Filed s t 1 0x407 (s.linkUnit l) [(8, frame), (16, slot)] ∧ (t.qlink l).rx = (s.qlink l).rx ∧
        (∀ w ∈ words, ∀ p f, s.flitOwner l slot = some p → f ∈ (t.pipe p).frames → f.fif = fifOf w.2.tag → f.void ≠ none) ∧
        (s.flitOwner l slot = none → t.pipes = s.pipes) ∧ t = ((s.setQsk t.qsk).setFlt t.flt).setPipes t.pipes)) ∧
    (seen = none → Does (.flitReceive l frame slot false words) s (fun t =>
      t.qlink l = { s.qlink l with half := (s.qlink l).half ++ [(key, false)] } ∧ t = s.setQsk t.qsk)) ∧
    (seen = some true → Does (.flitReceive l frame slot true words) s (fun t =>
      t.qlink l = { s.qlink l with half := (s.qlink l).half.filter (fun h => h.1 != key) } ∧ t = s.setQsk t.qsk)) ∧
    (seen = some true → (s.qlink l).fecAt = none → Does (.flitReceive l frame slot false words) s (fun t =>
      t.getF (Reg.QSK_L_FEC l) = (s.getF (Reg.QSK_L_FEC l) + 1) % 2 ^ 32 ∧
      Filed s t 0 0x401 (s.linkUnit l) [(16, t.getF (Reg.QSK_L_FEC l))] ∧ (t.qlink l).rx = (s.qlink l).rx ∧
      SameRegs [Reg.QSK_L_FEC l] s t ∧ t = ((s.setRegs t.regs).setQsk t.qsk).setFlt t.flt)) ∧
    (seen = some false → s.linkFree l = true → Does (.flitReceive l frame slot false words) s (fun t =>
      t.getF (Reg.QSK_L_STAT_PHASE l) = 0 ∧ Filed s t 3 0x402 (s.linkUnit l) [(4, 1)]))) ∧
  (∀ (s : State) (l : Fin 8) (slot : Fin 128) (due : Nat) (ws : List (Nat × QWord)) (rest : List (Nat × List (Nat × QWord))),
    SMap.get (fun _ => []) (s.qlink l).rx slot = (due, ws) :: rest →
    let sl := (slot.val + 3) % 128
    let port := 36 + l.val % 2
    Does (.flitPresent l slot) s (fun t => t.now = (s.reach (due * 128 + sl)).now ∧
      SMap.get (fun _ => []) (t.qlink l).rx slot = rest ∧ SameMem s t ∧
      ((∃ o, o < 40 ∧ s.spineEntry (l.val / 2) o sl = some port) →
        t.flit (flitKey (l.val / 2) port sl) = s.flit (flitKey (l.val / 2) port sl) ++ ws ∧
        t = ((s.setAlm t.alm).setQsk t.qsk).setFlits t.flits))) ∧
  (∀ (s : State) (l : Fin 8) (slot : Fin 128) (due pos : Nat) (w : QWord) (rest : List (Nat × List (Nat × QWord))),
    SMap.get (fun _ => []) (s.qlink l).rx slot = (due, [(pos, w)]) :: rest → s.room = true →
    let sl := (slot.val + 3) % 128
    let port := 36 + l.val % 2
    let used := ∃ o, o < 40 ∧ s.spineEntry (l.val / 2) o sl = some port
    Does (.flitPresent l slot) s (fun t => t.now = (s.reach (due * 128 + sl)).now ∧
      SMap.get (fun _ => []) (t.qlink l).rx slot = rest ∧
      (used → t.flit (flitKey (l.val / 2) port sl) = s.flit (flitKey (l.val / 2) port sl) ++ [(pos, w)] ∧ t.flt = s.flt) ∧
      (¬ used → Filed s t 1 0x004 (uSpineSlot (l.val / 2) port sl) [(16, pos), (8, w.tag.toNat)] ∧
        (∀ p f, s.inputOwner (l.val / 2) port sl = some p → f ∈ (t.pipe p).frames → f.admitted = true →
          f.fif = fifOf w.tag → f.void ≠ none)) ∧ t.regs = s.regs ∧ SameMem s t)) ∧
  (∀ (s : State) (l : Fin 8) (src : Fin 64) (req : Nat) (a : BitVec 48) (seen : EccSeen) (me : Fin 64), s.linkUp l = true →
    me.val = s.getF Reg.MGT_DEVNUM → s.farQuiet = true → s.reqOf s.nextReq = {} →
    (∀ n : Fin 4097, s.hostRange a.toNat n = true → seen = .clean → 1 ≤ n.val → a.toNat % 32 + n ≤ 32 →
      Does (.serviceUnit l ⟨me, .access src req a (.read n)⟩ seen) s (fun t =>
        t.out = s.out ++ [.service l src 2 0 (s.rdBytes a.toNat n) req] ∧
        t = ((s.setOut t.out).setReqs t.reqs).setNextReq t.nextReq)) ∧
    (∀ bs, s.hostRange a.toNat bs.length = true → bs ≠ [] →
      Does (.serviceUnit l ⟨me, .access src req a (.write bs)⟩ seen) s (fun t =>
        t.rdBytes a.toNat bs.length = bs ∧
        SameMemBut (fun x => decide (a.toNat ≤ x ∧ x < a.toNat + bs.length)) s t ∧
        t.out = s.out ++ [.service l src 3 0 [] req] ∧
        t = (((((s.setMem t.mem).setSync { s.sync with resv := t.sync.resv }).setOut t.out).setReqs t.reqs).setNextReq
          t.nextReq).setFree t.free))) ∧
  (∀ (s : State) (l : Fin 8) (src : Fin 64) (req : Nat) (seen : EccSeen) (me : Fin 64), s.linkUp l = true →
    me.val = s.getF Reg.MGT_DEVNUM → s.farQuiet = true →
    (∀ (b : Fin 64) (gen : Fin 65536) (dl : W64),
      (s.getF (Reg.MGT_BAR_ARRIVED b) + 1 < s.getF (Reg.MGT_BAR_EXPECT b) →
      Does (.serviceUnit l ⟨me, .barrier src req b 0 gen dl⟩ seen) s (fun t =>
        t.getF (Reg.MGT_BAR_ARRIVED b) = s.getF (Reg.MGT_BAR_ARRIVED b) + 1 ∧
        t.out = s.out ++ [.service l src 4 0 (leBytes 8 (s.getF (Reg.MGT_BAR_GEN b))) req] ∧
        SameRegs [Reg.MGT_BAR_ARRIVED b] s t ∧ t = (s.setRegs t.regs).setOut t.out)) ∧
      (s.getF (Reg.MGT_BAR_GEN b) ≠ gen.val →
        Does (.serviceUnit l ⟨me, .barrier src req b 1 gen dl⟩ seen) s (fun t =>
          t.out = s.out ++ [.service l src 4 0 (leBytes 8 (s.getF (Reg.MGT_BAR_GEN b) * 2 ^ 16)) req] ∧
          t = s.setOut t.out)) ∧
      (s.getF (Reg.MGT_BAR_GEN b) = gen.val → dl = 0 →
        Does (.serviceUnit l ⟨me, .barrier src req b 1 gen dl⟩ seen) s (fun t => t.out = s.out ∧
          t.sync.farBar = s.sync.farBar ++ [{ link := l, dev := src, req := req, target := b, gen := gen, deadline := 0 }] ∧
          t = s.setSync t.sync))) ∧
    (∀ (q : Fin 256) (payload : List Byte) (dl : W64), s.qEnabled q = false →
      Does (.serviceUnit l ⟨me, .queue src req q payload true dl⟩ seen) s (fun t =>
        t.out = s.out ++ [.service l src 4 0 (leBytes 8 2) req] ∧ t = s.setOut t.out)) ∧
    (∀ (c : Fin 32) (j : Fin 16) (op r dl k : Nat) (data : List Byte), req = 16 * c.val + j.val →
      s.sync.farLate.contains (req, src.val) = false → (s.thr c j).wait = .remote op r dl src k → r < 32 →
      Does (.serviceUnit l ⟨me, .response src req 0 data⟩ seen) s (fun t =>
        (t.thr c j).wait = .none ∧ (t.thr c j).rdSx r = (if r = 0 then 0 else BitVec.ofNat 64 (fieldLe data 0 8)) ∧
        t.out = s.out ∧ SameMem s t))) ∧
  (∀ (s : State) (l : Fin 8) (src : Fin 64) (req : Nat) (st : Fin 4) (data : List Byte) (seen : EccSeen) (me : Fin 64), s.linkUp l = true →
    me.val = s.getF Reg.MGT_DEVNUM → s.farQuiet = true → req < 512 → s.sync.farLate.contains (req, src.val) = true →
    Does (.serviceUnit l ⟨me, .response src req st data⟩ seen) s (fun t =>
      t = s.setSync { s.sync with farLate := s.sync.farLate.erase (req, src.val) })) ∧
  (∀ (s : State) (l : Fin 8) (dest : Fin 64) (u : SvcUnit) (seen : EccSeen), s.linkUp l = true → s.farQuiet = true →
    dest.val ≠ s.getF Reg.MGT_DEVNUM → s.flag (Reg.QSK_ROUTE_VALID dest) = true →
    s.linkUp (s.getF (Reg.QSK_ROUTE_LINK dest)) = true →
    Does (.serviceUnit l ⟨dest, u⟩ seen) s (fun t =>
      t.out = s.out ++ [.transit (s.getF (Reg.QSK_ROUTE_LINK dest)) dest u] ∧ t = s.setOut t.out)) ∧
  (∀ (s : State) (l : Fin 8) (dest : Fin 64) (u : SvcUnit) (seen : EccSeen), s.linkUp l = false → s.farQuiet = true →
    exec (.serviceUnit l ⟨dest, u⟩ seen) s = .next s) ∧
  (∀ (s : State) (src : Fin 64) (p : Fin 4) (n : Nat), s.followerOf src p = some n →
    (∀ m, Does (.bindNotice src p m) s (fun t => 2 ≤ t.free ∧ t.out = s.out ++ [.notice (s.getF (Reg.QSK_PART_HEAD_DEV n)) 3
        [s.getF (Reg.QSK_PART_HEAD_PIPE n), 0, 0xFFFF, 0, 0, (Config.freeWord (t.free - 2)).toNat,
         (Config.freeWord (t.free - 2 + 1)).toNat, 1]] ∧ SameRegs hbmWriteFields s t ∧ t.pipes = s.pipes)) ∧
    (∀ (k a : Nat) (fif : Fin 8) (m : Fin 64) (j : Fin 65536), Does (.beatNotice src p k a fif m j) s (fun t =>
      (t.pipe n).frames.map (fun f => (f.fif, f.stream, f.frameNo, f.k, f.launch)) =
        (s.pipe n).frames.map (fun f => (f.fif, f.stream, f.frameNo, f.k, f.launch)) ++ [(fif.val, m.val, j.val, k, a)]))) ∧
  (∀ (s : State) (src : Fin 64) (p : Fin 4), s.followerOf src p = none →
    (∀ m, exec (.bindNotice src p m) s = .next s) ∧
    (∀ (k a : Nat) (fif : Fin 8) (m : Fin 64) (j : Fin 65536), exec (.beatNotice src p k a fif m j) s = .next s)) ∧
  (∀ (s : State) (src : Fin 64) (p : Fin 4) (f : Frame) (quality : Fin 32) (reason : Fin 10) (first done : Nat),
    src.val ∈ s.followers p → (s.pipe p).frames = [f] → f.admitted = true → f.fif < 8 → f.frameNo < 0xFFFF →
    Does (.statusNotice src p (Fin.ofNat 8 f.fif) (Fin.ofNat 65536 f.frameNo) quality reason first done false) s (fun t =>
      (t.pipe p).frames.map (fun g => (g.waitStatus, g.peerDone, g.saturated, g.retallied, g.peerLagged, g.collapsed, g.poisonSeen)) =
        [(f.waitStatus.filter (fun d => d != src.val), max f.peerDone done, f.saturated || bit1 quality 0,
          f.retallied || bit1 quality 1, f.peerLagged || bit1 quality 2, f.collapsed || bit1 quality 3, f.poisonSeen || bit1 quality 4)] ∧
      (t.pipe p).frames.map (fun g => g.void) = [if reason = 0 then f.void else match f.void with
        | some (r, t0) => if first < t0 then some (reason.val, first) else some (r, t0)
        | none => some (reason.val, first)] ∧
      t = s.setPipes t.pipes)) ∧
  (∀ (s : State) (src : Fin 64) (p : Fin 4) (fif : Fin 8) (j : Fin 65536) (f : Frame) (quality : Fin 32) (reason : Fin 10)
      (first done : Nat) (fold : Bool),
    src.val ∈ s.followers p → (s.pipe p).frame fif = some f → f.frameNo = j.val → j.val ≠ 0xFFFF →
    Does (.statusNotice src p fif j quality reason first done fold) s (fun t =>
      (∃ g, (t.pipe p).frame fif = some g ∧ g.waitStatus = f.waitStatus.filter (fun d => d != src.val) ∧
        g.peerDone = max f.peerDone done ∧ g.saturated = (f.saturated || bit1 quality 0) ∧
        g.retallied = (f.retallied || bit1 quality 1) ∧ g.peerLagged = (f.peerLagged || bit1 quality 2) ∧ g.collapsed = (f.collapsed || bit1 quality 3) ∧
        g.poisonSeen = (f.poisonSeen || bit1 quality 4) ∧
        (reason.val = 0 → g.void = f.void) ∧ (reason.val ≠ 0 → f.void = none → g.void = some (reason.val, first))) ∧
      (fold = true →
        SMap.get (fun _ => none) t.qsk.foldDone ((p.val * 64 + src.val) * 64 + f.stream) = some j.val) ∧
      (fold = false → t.qsk = s.qsk) ∧ t = (s.setPipes t.pipes).setQsk t.qsk)) ∧
  (∀ (s : State) (src : Fin 64) (p : Fin 4), src.val ∈ s.followers p →
    (∀ (fif : Fin 8) (dR : Nat), s.bmState p = 1 ∨ s.bmState p = 2 ∨ s.bmState p = 3 →
      Does (.retallyNotice src p fif dR) s (fun t => t.beat p = { s.beat p with nNext := (s.beat p).nNext + dR } ∧
        t = s.putBeat p (t.beat p))) ∧
    (∀ kind coord, s.room = true → Does (.lossNotice src p kind coord) s (fun t =>
      Filed s t 3 0x40C (uLink (s.getF (Reg.QSK_ROUTE_LINK src)) src) [(4, 0)] ∧
      (t.pipe p).frames = (s.pipe p).frames.map (fun f =>
        if f.admitted = true ∧ src.val ∈ f.waitStatus then f.lose s.now else f) ∧
      t.bmState p ≠ 1 ∧ t.bmState p ≠ 2 ∧ t.bmState p ≠ 3 ∧ SameMem s t))) ∧
  (∀ (s : State) (src : Fin 64) (p : Fin 4), src.val ∉ s.followers p →
    (∀ (fif : Fin 8) (dR : Nat), exec (.retallyNotice src p fif dR) s = .next s) ∧
    (∀ kind coord, exec (.lossNotice src p kind coord) s = .next s) ∧
    (∀ (fif : Fin 8) (j : Fin 65536) (q : Fin 32) (r : Fin 10) (a b : Nat) (fold : Bool),
      exec (.statusNotice src p fif j q r a b fold) s = .next s)) ∧
  (∀ (s : State) (p : Fin 4) (d : Fin 64) (f : Frame), (s.pipe p).frames.find? (fun f => f.admitted && f.waitStatus.contains d.val) = some f →
    s.room = true →
    Does (.partStatusTimeout p d) s (fun t =>
      t.now = (s.reach (f.launch + 1000000 * s.getF (Reg.QSK_PART_CFG_TIMEOUT p))).now ∧
      (t.flt.pend.drop s.flt.pend.length).map (fun r => (r.cls, r.code, r.unit)) =
        [(3, 0x40C, uLink (s.getF (Reg.QSK_ROUTE_LINK d)) d)] ∧
      (∀ g ∈ (t.pipe p).frames, d.val ∉ g.waitStatus) ∧ t.bmState p ≠ 1 ∧ t.bmState p ≠ 2 ∧ t.bmState p ≠ 3 ∧ SameMem s t))

/-- The frames of the island-to-host channels, the loss of the link, what the host side sends, and the gateway's registers
(R427 to R439, R540, R564). The AES-128 CMAC is the standard's (log entry 33). -/
def Obligations.BarrierGateway : Prop :=
  BarrierFrame (fun c b => .idle c (.toHost b)) 0 (fun _ _ _ => True) (fun _ s t => t = s.setBgw t.bgw) ∧
  MessageFrame .ident 2 ∧ MessageFrame .result 3 ∧ MessageFrame .event 4 ∧ MessageFrame .imageReq 5 ∧
  BadFrame (fun c b => .idle c (.toHost b)) 0 ∧ BadFrame .weight 1 ∧ BadFrame .ident 2 ∧ BadFrame .result 3 ∧ BadFrame .event 4 ∧ BadFrame .imageReq 5 ∧
  (∀ (s : State) (c : Fin 2) (bytes : List Byte) (e : Nat), goodFrame 0 bytes = true → s.domOn 38 = true →
    s.flag Reg.BGW_STAT_UP = true → s.room = true → SMap.get (fun _ => none) s.bgw.expect c = some e →
    e ≠ fieldLe bytes 2 2 →
    Does (.idle c (.toHost bytes)) s (fun t =>
      Filed s t 1 0x502 (uBarrier c) [(16, e), (16, (fieldLe bytes 2 2 + 65535) % 65536)] ∧
      SMap.get (fun _ => none) t.bgw.expect c = some (fieldLe bytes 2 2) ∧ t = (s.setBgw t.bgw).setFlt t.flt)) ∧
  (∀ (s : State) (c : Fin 2), s.domOn 38 = true → (∀ k, k < 2 → SMap.get (fun _ => []) s.bgw.txq k = []) →
    let due := SMap.get (fun _ => 0) s.bgw.txBusy c + 10000
    let u := s.reach due
    Does (.idle c .hostSends) s (fun t =>
      t.out = u.out ++ [.barrier c (barFrame 0 (SMap.get (fun _ => 0) s.bgw.txSeq c) [])] ∧ t.bgw.txSeq = s.bgw.txSeq ∧
      SMap.get (fun _ => 0) t.bgw.txBusy c = due + 2560 ∧ t.now = u.now ∧ t = (u.setBgw t.bgw).setOut t.out)) ∧
  (∀ (s : State) (c : Fin 2), s.domOn 38 = false → exec (.idle c .hostSends) s = .next s) ∧
  BarrierFrame .weight 1
    (fun s _ bytes => let n := fieldLe bytes 8 1
      weightFormatOk bytes = true ∧ s.flag (Reg.BGW_SRC_CFG_EN n) = true ∧ s.weightMacOk bytes = true ∧
      (SMap.get (fun _ => none) s.bgw.base n).all (fun b =>
        decide ((fieldLe bytes 4 4 + 2 ^ 32 - b.1) % 2 ^ 32 = 1 ∧ b.2 ≤ fieldLe bytes 24 8)) = true ∧
      s.bgw.due = [] ∧ s.weightFull n = false ∧
      s.hostRange (s.getF (Reg.BGW_SRC_BASE n) + 64 * (s.getF (Reg.BGW_SRC_WR n) % 2 ^ s.getF (Reg.BGW_SRC_CFG_LOG2 n))) 64 = true)
    (fun bytes s t => let n := fieldLe bytes 8 1
      let i := s.getF (Reg.BGW_SRC_WR n) % 2 ^ s.getF (Reg.BGW_SRC_CFG_LOG2 n)
      let a := s.getF (Reg.BGW_SRC_BASE n) + 64 * i
      t.rdBytes a 64 = bytes ∧ SameMemBut (fun x => decide (a ≤ x ∧ x < a + 64)) s t ∧
      t.getF (Reg.BGW_SRC_WR n) = (s.getF (Reg.BGW_SRC_WR n) + 1) % 2 ^ 32 ∧ SameRegs [Reg.BGW_SRC_WR n] s t ∧
      SMap.get (fun _ => none) t.bgw.base n = some (fieldLe bytes 4 4, fieldLe bytes 24 8) ∧ t.flt = s.flt) ∧
  BarrierFrame .weight 1 (fun _ _ bytes => weightFormatOk bytes = false)
    (fun bytes s t => Filed s t 1 0x505 (uSource (fieldLe bytes 8 1 % 128) 0) [(32, fieldLe bytes 4 4), (4, 0)] ∧
      SameMem s t ∧ t = (s.setBgw t.bgw).setFlt t.flt) ∧
  BarrierFrame .weight 1
    (fun s _ bytes => let n := fieldLe bytes 8 1
      weightFormatOk bytes = true ∧ s.flag (Reg.BGW_SRC_CFG_EN n) = false ∧ n ∉ s.bgw.disabled)
    (fun bytes s t => Filed s t 0 0x508 (uSource (fieldLe bytes 8 1) 0) [] ∧ fieldLe bytes 8 1 ∈ t.bgw.disabled ∧
      t = (s.setBgw t.bgw).setFlt t.flt) ∧
  BarrierFrame .weight 1
    (fun s _ bytes => weightFormatOk bytes = true ∧ s.flag (Reg.BGW_SRC_CFG_EN (fieldLe bytes 8 1)) = true ∧
      s.weightMacOk bytes = false)
    (fun bytes s t =>
      Filed s t 1 0x504 (uSource (fieldLe bytes 8 1) 0) [(32, fieldLe bytes 4 4), (4, fieldLe bytes 11 1)] ∧
      t = (s.setBgw t.bgw).setFlt t.flt) ∧
  BarrierFrame .weight 1
    (fun s _ bytes => weightFormatOk bytes = true ∧ s.flag (Reg.BGW_SRC_CFG_EN (fieldLe bytes 8 1)) = true ∧
      s.weightMacOk bytes = true ∧
      (SMap.get (fun _ => none) s.bgw.base (fieldLe bytes 8 1)).any (fun b =>
        decide (fieldLe bytes 4 4 = b.1 ∨ 2 ^ 31 ≤ (fieldLe bytes 4 4 + 2 ^ 32 - b.1) % 2 ^ 32)) = true)
    (fun bytes s t => Filed s t 1 0x505 (uSource (fieldLe bytes 8 1 % 128) 0) [(32, fieldLe bytes 4 4), (4, 1)] ∧
      t = (s.setBgw t.bgw).setFlt t.flt) ∧
  (∀ (s : State) (cause : Fin 2),
    let u := s.barDrain
    ((∀ c, c < 2 → s.now < SMap.get (fun _ => 0) s.bgw.txBusy c) → u = s) ∧
    (s.flag Reg.BGW_STAT_UP = true → s.room = true → Does (.barrierLost cause) s (fun t =>
      t.flag Reg.BGW_STAT_UP = false ∧ Filed s t 3 0x509 (uBarrier 0) [(4, cause)] ∧
      (∀ c, c < 2 → SMap.get (fun _ => []) t.bgw.txq c = [] ∧ SMap.get (fun _ => none) t.bgw.expect c = none ∧
        t.getF (Reg.BGW_TX_FILL c) = 0 ∧
        t.getF (Reg.BGW_TX_DROP c) = (u.getF (Reg.BGW_TX_DROP c) + (SMap.get (fun _ => []) u.bgw.txq c).length) % 2 ^ 32) ∧
      SameRegs [Reg.BGW_STAT_UP, Reg.BGW_TX_FILL 0, Reg.BGW_TX_FILL 1, Reg.BGW_TX_DROP 0, Reg.BGW_TX_DROP 1] u t ∧
      t = ((u.setRegs t.regs).setBgw t.bgw).setFlt t.flt)) ∧
    (s.flag Reg.BGW_STAT_UP = false → exec (.barrierLost cause) s = .next u)) ∧
  (∀ s : State, s.domOn 38 = true → s.flag Reg.BGW_TIME_CFG_EN = true → SMap.get (fun _ => []) s.bgw.txq 0 = [] →
    SMap.get (fun _ => []) s.bgw.txq 1 = [] →
    let u := s.reach (SMap.get (fun _ => 0) s.bgw.txBusy 0)
    let q := SMap.get (fun _ => 0) s.bgw.txSeq 0
    Does .barrierTimeSend s (fun t =>
      t.out = u.out ++ [.barrier 0 (barFrame 0x10 q (leBytes 4 0 ++ leBytes 8 u.now ++ leBytes 2 u.nowFrac ++
        leBytes 2 (s.getF Reg.BGW_TIME_CFG_UTC_OFFSET) ++ leBytes 1 (b2n s.bgw.stepped + 2 * s.getF Reg.BGW_TIME_CFG_LOCKED)))] ∧
      SMap.get (fun _ => 0) t.bgw.txSeq 0 = (q + 1) % 65536 ∧ t.bgw.stepped = false ∧ t.now = u.now ∧
      t = ((u.setBgw t.bgw).setOut t.out))) ∧
  (∀ s : State, s.domOn 38 = false ∨ s.flag Reg.BGW_TIME_CFG_EN = false → exec .barrierTimeSend s = .next s) ∧
  (∀ (s : State) (c : Fin 2) (w : WriteReq), s.takesAct w (Reg.BGW_TX_GO c).off = true → coversLo w.half = true →
    w.field (Reg.BGW_TX_GO c) = 1 → s.domOn 38 = true → s.room = true →
    (∀ k, k < 2 → SMap.get (fun _ => []) s.bgw.txq k = []) →
    let bs := (List.range 8).flatMap (fun k => leBytes 8 (s.getF (Reg.BGW_TX c k)))
    let ty := fieldLe bs 0 1
    let q := SMap.get (fun _ => 0) s.bgw.txSeq c
    (toIsland c ty = true → ty ≠ 0x10 → s.flag Reg.BGW_STAT_UP = true → SMap.get (fun _ => 0) s.bgw.txBusy c ≤ s.now →
      Does (.bgwTxGo c w) s (fun t => t.out = s.out ++ [.barrier c (barFrame ty q (bs.drop 4))] ∧
        SMap.get (fun _ => 0) t.bgw.txSeq c = (q + 1) % 65536 ∧ SMap.get (fun _ => 0) t.bgw.txBusy c = s.now + 2560 ∧
        t.getF (Reg.BGW_TX_SENT c) = (s.getF (Reg.BGW_TX_SENT c) + 1) % 2 ^ 32 ∧ t.getF (Reg.BGW_TX_FILL c) = 0 ∧
        SameRegs [Reg.BGW_TX_SENT c, Reg.BGW_TX_FILL c] s t ∧
        t = (((s.setRegs t.regs).setBgw t.bgw).setOut t.out).setResp t.resp)) ∧
    (toIsland c ty = true → ty ≠ 0x10 → s.flag Reg.BGW_STAT_UP = true → s.now < SMap.get (fun _ => 0) s.bgw.txBusy c →
      Does (.bgwTxGo c w) s (fun t =>
        SMap.get (fun _ => []) t.bgw.txq c = [{ queued := s.now, bytes := bs.take 60 }] ∧ t.getF (Reg.BGW_TX_FILL c) = 1 ∧
        SameRegs [Reg.BGW_TX_FILL c] s t ∧ t = ((s.setRegs t.regs).setBgw t.bgw).setResp t.resp)) ∧
    (∀ k, (toIsland c ty = false ∧ k = 0) ∨ (toIsland c ty = true ∧ ty = 0x10 ∧ k = 1) ∨
        (toIsland c ty = true ∧ ty ≠ 0x10 ∧ s.flag Reg.BGW_STAT_UP = false ∧ k = 3) →
      Does (.bgwTxGo c w) s (fun t => Filed s t 0 0x50B (uBarrier c) [(8, ty), (4, k)] ∧
        t = (s.setFlt t.flt).setResp t.resp))) ∧
  (∀ (s : State) (n : Fin 128) (w : WriteReq), s.takes w (Reg.BGW_SRC_CFG_EN n).off = true → coversLo w.half = true →
    let en := s.flag (Reg.BGW_SRC_CFG_EN n)
    let lg := w.field (Reg.BGW_SRC_CFG_LOG2 n)
    (lg < 4 ∨ 8 < lg ∨ (en = true ∧ lg ≠ s.getF (Reg.BGW_SRC_CFG_LOG2 n)) → Does (.bgwSrcCfg n w) s (fun t =>
      t = s.setResp t.resp)) ∧
    (4 ≤ lg → lg ≤ 8 → en = false → w.field (Reg.BGW_SRC_CFG_EN n) = 1 → Does (.bgwSrcCfg n w) s (fun t =>
      t.flag (Reg.BGW_SRC_CFG_EN n) = true ∧ t.getF (Reg.BGW_SRC_CFG_LOG2 n) = lg ∧ t.getF (Reg.BGW_SRC_WR n) = 0 ∧
      t.getF (Reg.BGW_SRC_RD n) = 0 ∧ SMap.get (fun _ => none) t.bgw.base n = none ∧
      SameRegs [Reg.BGW_SRC_CFG_EN n, Reg.BGW_SRC_CFG_LOG2 n, Reg.BGW_SRC_WR n, Reg.BGW_SRC_RD n] s t ∧
      t = ((s.setRegs t.regs).setBgw t.bgw).setResp t.resp)) ∧
    (4 ≤ lg → lg ≤ 8 → w.field (Reg.BGW_SRC_CFG_EN n) = 0 → (en = true → lg = s.getF (Reg.BGW_SRC_CFG_LOG2 n)) →
      Does (.bgwSrcCfg n w) s (fun t => t.flag (Reg.BGW_SRC_CFG_EN n) = false ∧ t.getF (Reg.BGW_SRC_CFG_LOG2 n) = lg ∧
        SameRegs [Reg.BGW_SRC_CFG_EN n, Reg.BGW_SRC_CFG_LOG2 n] s t ∧ OnlyRegs s t))) ∧
  (∀ (s : State) (w : WriteReq), s.takes w Reg.BGW_MR_CTL_EN.off = true → coversLo w.half = true →
    let en := s.flag Reg.BGW_MR_CTL_EN
    let lg := w.field Reg.BGW_MR_CTL_LOG2
    (lg < 4 ∨ 12 < lg ∨ (en = true ∧ lg ≠ s.getF Reg.BGW_MR_CTL_LOG2) → Does (.bgwMrCtl w) s (fun t =>
      t = s.setResp t.resp)) ∧
    (4 ≤ lg → lg ≤ 12 → en = false → w.field Reg.BGW_MR_CTL_EN = 1 → s.bgw.wait = [] → Does (.bgwMrCtl w) s (fun t =>
      t.flag Reg.BGW_MR_CTL_EN = true ∧ t.getF Reg.BGW_MR_CTL_LOG2 = lg ∧ t.getF Reg.BGW_MR_WR = 0 ∧
      t.getF Reg.BGW_MR_RD = 0 ∧
      SameRegs [Reg.BGW_MR_CTL_EN, Reg.BGW_MR_CTL_LOG2, Reg.BGW_MR_WR, Reg.BGW_MR_RD] s t ∧ OnlyRegs s t))) ∧
  (∀ (s : State) (k : Fin 2) (w : WriteReq), s.takesAct w (Reg.BGW_KEYPROG_GO k).off = true → coversLo w.half = true →
    w.field (Reg.BGW_KEYPROG_GO k) = 1 →
    let d := SMap.get (fun _ => []) s.bgw.keyData k
    let key := d.flatMap (fun x => leBytes 4 x.toNat)
    let good := bit1 (s.getF Reg.BGW_KEYSTAT_PROG) k = false ∧ d.length = 4 ∧
      crc32c key = (SMap.get (fun _ => 0#32) s.bgw.keyChk k).toNat
    (good → Does (.bgwKeyprogGo k w) s (fun t =>
      t.getF Reg.BGW_KEYSTAT_PROG = s.getF Reg.BGW_KEYSTAT_PROG ||| 2 ^ k.val ∧
      SMap.get (fun _ => []) t.otp.recKey k = key ∧ SMap.get (fun _ => []) t.bgw.keyData k = [] ∧
      SameRegs [Reg.BGW_KEYSTAT_PROG] s t ∧
      t = (((s.setRegs t.regs).setBgw t.bgw).setOtp t.otp).setResp t.resp)) ∧
    (¬ good → Does (.bgwKeyprogGo k w) s (fun t =>
      t.getF Reg.BGW_KEYSTAT_ERR = s.getF Reg.BGW_KEYSTAT_ERR ||| 2 ^ k.val ∧ t.otp = s.otp ∧
      SMap.get (fun _ => []) t.bgw.keyData k = [] ∧ SameRegs [Reg.BGW_KEYSTAT_ERR] s t ∧
      t = ((s.setRegs t.regs).setBgw t.bgw).setResp t.resp)))

/-- The metrology island: frames from the host side, island time, bridge inputs, segments, signing and boot (R416 to R423,
R429, R432, R440 to R442). What a boot-failed IDENT frame holds is free (log entry 2). -/
def Obligations.MetrologyIsland : Prop :=
  IslandFrame .identReq 0x11 ∧ IslandFrame .zeroReq 0x12 ∧ IslandFrame .tareReq 0x13 ∧ IslandFrame .eventReq 0x14 ∧
  IslandFrame .imageOffer 0x15 ∧ IslandFrame .imageData 0x16 ∧
  (∀ (s : State) (c : Fin 2) (bytes : List Byte), goodFrame 0 bytes = true → s.isl.run ≠ .off →
    let q := fieldLe bytes 2 2
    let gap := (SMap.get (fun _ => none) s.isl.expect c).any (fun x => decide (x ≠ q))
    Does (.idle c (.toIsland bytes)) s (fun t =>
      t.isl.barGap = s.isl.barGap + (if gap then 1 else 0) ∧ t.isl.barIrq = (s.isl.barIrq || gap) ∧
      SMap.get (fun _ => none) t.isl.expect c = some q ∧ t.isl.barRx = s.isl.barRx ∧ t = s.setIsl t.isl)) ∧
  (∀ (s : State) (c : Fin 2),
    (s.isl.run ≠ .off → Does (.idle c .islandSends) s (fun t =>
      t.out = s.out ++ [.barrier c (barFrame 0 (SMap.get (fun _ => 0) s.isl.txSeq c) [])] ∧ t = s.setOut t.out)) ∧
    (s.isl.run = .off → exec (.idle c .islandSends) s = .next s ∧
      ∀ bytes, exec (.idle c (.toIsland bytes)) s = .next s)) ∧
  (∀ (s : State) (c : Fin 2) (bytes : List Byte) (ticks : Nat), goodFrame 0x10 bytes = true → c = 0 → s.isl.run = .running →
    s.isl.slew = 0 →
    Does (.time c bytes ticks) s (fun t =>
      t.isl.time = s.isl.time + ticks * (125 * (2 ^ 40 + s.isl.rate)).toNat ∧
      t.isl.timeRx = t.isl.time / 2 ^ 43 % 2 ^ 64 ∧ t.isl.barRx = s.isl.barRx ++ [(0, bytes)] ∧ t = s.setIsl t.isl)) ∧
  (∀ (s : State) (c : Fin 2) (bytes : List Byte), c = 1 → s.isl.run = .bootFailed →
    let off := fieldLe bytes 8 4
    (goodFrame 0x15 bytes = true → s.isl.offer = none → 1 ≤ off → off ≤ 0x40000 →
      let o : IslOffer := { req := fieldLe bytes 4 2, len := off, version := fieldLe bytes 12 4, digest := sliceB bytes 16 32 }
      let q := SMap.get (fun _ => 0) s.isl.txSeq 1
      Does (.imageOffer c bytes) s (fun t => t.isl.offer = some o ∧
        t.out = s.out ++ [.barrier 1 (barFrame 5 q o.frame)] ∧ t = (s.setIsl t.isl).setOut t.out)) ∧
    (∀ o : IslOffer, goodFrame 0x16 bytes = true → s.isl.offer = some o → fieldLe bytes 4 2 = o.req → off = o.got →
      off + 48 < o.len → (off + 48) % 65520 ≠ 0 →
      Does (.imageData c bytes) s (fun t => t.isl.offer = some { o with got := off + 48 } ∧
        (∀ i, i < 48 → t.islFlash (off + i) = (bytes.drop 12).getD i 0) ∧
        (∀ i, i < off → t.islFlash i = s.islFlash i) ∧ t.isl.run = .bootFailed ∧ t = s.setIsl t.isl))) ∧
  (∀ (s : State) (r : Int) (d : Int), s.isl.run = .running →
    (r.natAbs ≤ 1099511627 → Does (.islTimeStep (.rate r)) s (fun t => t = s.setIsl { s.isl with rate := r })) ∧
    Does (.islTimeStep (.slew d)) s (fun t => t = s.setIsl { s.isl with slew := s.isl.slew + d }) ∧
    Does (.islTimeStep (.step d)) s (fun t =>
      t = s.setIsl { s.isl with time := ((s.isl.time : Int) + d * ((2 ^ 43 : Nat) : Int)).toNat })) ∧
  (∀ (s : State) (x : IslTime), s.isl.run ≠ .running → exec (.islTimeStep x) s = .next s) ∧
  (∀ (s : State) (c : Fin 4) (sig sen : Int) (ticks : Nat), s.isl.run ≠ .off → s.isl.afe = true → s.isl.slew = 0 →
    let now := (s.isl.time + ticks * (125 * (2 ^ 40 + s.isl.rate)).toNat) / 2 ^ 43 % 2 ^ 64
    let b : Bridge := { s.bridge c with reversed := (s.bridge c).chop && !(s.bridge c).reversed }
    let n := sig * 8388608 * 1000 * (if sen < 0 then -1 else 1)
    let d := sen.natAbs * (4 * 2 ^ b.range)
    let x := divRNE n d
    let e : BrEntry := { code := BitVec.ofInt 32 (min 8388607 (max (-8388608) x)), ovr := decide (8388607 < x),
                         undr := decide (x < -8388608), senseLow := decide (sen < 1000000000), gap := b.gap, time := now }
    (b.fifo.length < 512 → sen ≠ 0 → Does (.bridgeConversion c sig sen ticks) s (fun t =>
      (t.bridge c).fifo = b.fifo ++ [e] ∧
      (t.bridge c).gap = false ∧ (t.bridge c).lost = b.lost ∧ (t.bridge c).reversed = b.reversed ∧ t = s.setIsl t.isl)) ∧
    (512 ≤ b.fifo.length → Does (.bridgeConversion c sig sen ticks) s (fun t =>
      t.bridge c = { b with lost := b.lost + 1, gap := true } ∧ t = s.setIsl t.isl))) ∧
  (∀ (s : State) (g : Fin 8), s.isl.run ≠ .off → (s.seg g).en = true →
    Does (.plcaBeacon g) s (fun t => t.out = s.out ++ [.beacon g] ∧ t = s.setOut t.out) ∧
    (∀ ticks, s.isl.slew = 0 → Does (.sync g ticks) s (fun t =>
      let tm := s.isl.time + ticks * (125 * (2 ^ 40 + s.isl.rate)).toNat
      t.isl.time = tm ∧ (t.seg g).seq = ((s.seg g).seq + 1) % 65536 ∧
      t.out = s.out ++ [.segment g s.isl.etype (leBytes 1 1 ++ leBytes 1 1 ++ leBytes 2 0 ++ leBytes 2 (s.seg g).seq ++ leBytes 2 10 ++
        leBytes 8 (tm / 2 ^ 43 % 2 ^ 64) ++ leBytes 2 (tm / 2 ^ 27 % 2 ^ 16))] ∧
      t = (s.setIsl t.isl).setOut t.out)) ∧
    (∀ body, s.isl.run = .running → Does (.registerWrite (.island (.segSend g body))) s (fun t =>
      t.out = s.out ++ [.segment g s.isl.etype (leBytes 1 1 ++ leBytes 1 3 ++ leBytes 2 0 ++ leBytes 2 (s.seg g).cmdSeq ++
        leBytes 2 body.length ++ body)] ∧
      t.seg g = { s.seg g with cmdSeq := ((s.seg g).cmdSeq + 1) % 65536 } ∧ t = (s.setIsl t.isl).setOut t.out)) ∧
    (∀ (node : Fin 17) (ety : Fin 65536) (pl : List Byte) (ticks : Nat), s.isl.slew = 0 → 1 ≤ node.val →
      node.val < (s.seg g).nodes →
      let tm := s.isl.time + ticks * (125 * (2 ^ 40 + s.isl.rate)).toNat
      let k := g.val * 32 + node.val
      let good := fieldLe pl 0 1 = 1 ∧ fieldLe pl 2 1 = node.val ∧ fieldLe pl 6 2 = 24 + 4 * fieldLe pl 8 2
      (ety.val = s.isl.etype → fieldLe pl 1 1 = 2 → good → (SMap.get (fun _ => []) s.isl.samples k).length < 64 →
        Does (.sample g node ⟨ety, pl⟩ ticks) s (fun t =>
          SMap.get (fun _ => []) t.isl.samples k = SMap.get (fun _ => []) s.isl.samples k ++ [(pl, tm / 2 ^ 43 % 2 ^ 64)] ∧
          t.isl.segRx = s.isl.segRx ∧ t = s.setIsl t.isl)) ∧
      (ety.val = s.isl.etype → fieldLe pl 1 1 = 2 → ¬ good → Does (.sample g node ⟨ety, pl⟩ ticks) s (fun t =>
        (t.seg g).err = (s.seg g).err + 1 ∧ t.isl.segRx = s.isl.segRx ++ [(g.val, ety.val, pl)] ∧ t.isl.samples = s.isl.samples ∧
        t = s.setIsl t.isl)) ∧
      (ety.val ≠ s.isl.etype ∨ fieldLe pl 1 1 ≠ 2 → Does (.reply g node ⟨ety, pl⟩ ticks) s (fun t =>
        t.isl.segRx = s.isl.segRx ++ [(g.val, ety.val, pl)] ∧ t.isl.samples = s.isl.samples ∧ t = s.setIsl t.isl)))) ∧
  (∀ (s : State) (bytes : List Byte), s.isl.run = .running → bytes.length = 40 →
    let k := fieldLe bytes 7 1 % 2
    let key := SMap.get (fun _ => []) s.otp.islKey k
    let q := SMap.get (fun _ => 0) s.isl.txSeq 0
    key.length = 16 → Does (.signHandover bytes) s (fun t =>
      t.out = s.out ++ [.barrier 0 (barFrame 1 q (bytes ++ cmac key bytes))] ∧
      SMap.get (fun _ => 0) t.isl.txSeq 0 = (q + 1) % 65536 ∧ t = (s.setIsl t.isl).setOut t.out)) ∧
  (∀ s : State,
    let booted := fun (p : State → Prop) => Does .islandBoot s (fun t => p t ∧ t.isl.flash = s.isl.flash ∧
      t.isl.counters = s.isl.counters ∧ t.isl.bootSel = s.isl.bootSel ∧ t.isl.barRx = [] ∧ t = s.setIsl t.isl)
    let runs := fun (bank : Nat) (im : List Byte) (t : State) => t.isl.run = .running ∧ t.isl.bank = bank ∧
      t.isl.version = fieldLe im 4 4 ∧ t.isl.entry = fieldLe im 12 4 ∧ t.isl.digest = sha256 im
    (∀ im, s.islImage s.isl.bootSel = some im → booted (runs s.isl.bootSel im)) ∧
    (∀ im, s.islImage s.isl.bootSel = none → s.islImage (1 - s.isl.bootSel) = some im →
      booted (runs (1 - s.isl.bootSel) im)) ∧
    (s.islImage s.isl.bootSel = none → s.islImage (1 - s.isl.bootSel) = none → booted (fun t => t.isl.run = .bootFailed))) ∧
  (∀ s : State, s.isl.run = .bootFailed →
    let q := SMap.get (fun _ => 0) s.isl.txSeq 1
    let w := fun (i : Nat) => (Config.freeWord (s.free + i)).toNat
    Does .bootFailedIdent s (fun t =>
      t.out = s.out ++ [.barrier 1 (barFrame 2 q (leBytes 2 0 ++ leBytes 4 (w 0) ++ leBytes 1 1 ++ leBytes 1 (w 1 % 2) ++
        leBytes 4 (w 2) ++ leBytes 8 (w 3) ++ leBytes 8 (w 4) ++ leBytes 8 (w 5) ++ leBytes 8 (w 6)))] ∧
      t = ((s.setIsl t.isl).setOut t.out).setFree (s.free + 7)))

/-- WVL_GO, LOAD_COMMIT and WVL_UNLOAD (R315, R328, R329, R336 to R340). SHA-256 and ECDSA P-256 are the standards' (log entry
33); the whole commit acts at LOAD_COMMIT (log entry 55); an UNLOAD waits for a load's end (log entry 107). -/
def Obligations.WeaveLoading : Prop :=
  (∀ (s : State) (a n : Nat), s.hostRange a n = true → s.meetN a n = s) ∧
  (∀ (s : State) (w : WriteReq) (job : LoadJob), s.goesNow w = true → s.load = none →
    s.atRequest.reqFault s.atRequest.request = none → s.checked = .inr job →
    Does (.wvlGo w) s (fun t => t.load = some job ∧ t.getF Reg.WVL_STATUS_BUSY = 1 ∧
      SameRegs [Reg.WVL_STATUS_BUSY] s.atImage t ∧ t = ((s.atImage.setLoad t.load).setRegs t.regs).setResp t.resp)) ∧
  (∀ (s : State) (w : WriteReq), s.goesNow w = true →
    let turned := fun (z : State) (code pipe : Nat) (detail : List (Nat × Nat)) => Does (.wvlGo w) s (fun t =>
      LoaderFault z t 0 code pipe detail ∧ SameRegs [Reg.WVL_STATUS_LAST_CODE] z t ∧
      t = (((z.setRegs t.regs).setFlt t.flt).setIrq t.irq).setResp t.resp)
    (∀ job, s.load = some job → turned s 0x701 job.pipe [(4, 0)]) ∧
    (∀ f, s.load = none → s.atRequest.room = true → s.atRequest.reqFault s.atRequest.request = some f →
      turned s.atRequest 0x701 s.atRequest.requestPipe [(4, f)]) ∧
    (∀ f, s.load = none → s.atImage.room = true → s.atRequest.reqFault s.atRequest.request = none → s.checked = .inl f →
      turned s.atImage f.1 s.atRequest.requestPipe f.2)) ∧
  (∀ (s : State) (r : LoadReq) (bs : List Byte) (pipe : Nat),
    (fieldLe bs 0 4 ≠ 0x31455657 → s.checkImage bs r pipe = .inl (0x702, [(16, 0)])) ∧
    (∀ f, headerFault bs r.len (s.getF Reg.MGT_REVID_STEP) s.debugMode = none →
      let k := fieldLe bs (bs.length - 144 + 128) 1
      (4 ≤ k ∨ bit1 (s.getF Reg.MGT_OTP_STAT_WV_PROG) k = false → f = 0) →
      (k < 4 ∧ bit1 (s.getF Reg.MGT_OTP_STAT_WV_PROG) k = true → bit1 (s.getF Reg.MGT_OTP_STAT_WV_REVOKED) k = true ∧ f = 1) →
      s.checkImage bs r pipe = .inl (0x703, [(4, k), (4, f)]))) ∧
  (∀ s : State, s.load = none → exec .loadCommit s = .next s) ∧
  (∀ (s : State) (r : LoadJob), s.load = some r → r.pipe < 4 → (∀ n, n < 4 → (s.pipe n).unloadDue = false) →
    let raw := wChunks ((s.meetN r.image r.len).peekN r.image r.len).1
    let x := WVar.of (patched (s.getF Reg.MGT_DEVNUM) (allocate raw (WVar.of raw r.variant) r) r raw) r.variant
    Does .loadCommit s (fun t => t.load = none ∧ t.getF Reg.WVL_STATUS_BUSY = 0 ∧
      ((t.getF (Reg.WVL_PIPE_STATE r.pipe) = 3 ∧ t.getF Reg.WVL_STATUS_LAST_CODE = 0x708) ∨
       (t.getF (Reg.WVL_PIPE_STATE r.pipe) = 2 ∧ t.getF Reg.WVL_STATUS_LAST_CODE = 0 ∧ t.getF Reg.WVL_STATUS_DONE = 1 ∧
        t.getF (Reg.WVL_PIPE_INFO_VARIANT r.pipe) = r.variant % 8 ∧ t.getF (Reg.WVL_PIPE_INFO_START r.pipe) = r.start % 32 ∧
        t.getF (Reg.WVL_PIPE_INFO_ROT r.pipe) = r.rot % 128 ∧ t.bmState r.pipe = 0 ∧
        t.getF (Reg.ALM_BM_FLOOR r.pipe) = x.hdr.bMin % 2 ^ 27 ∧ t.getF (Reg.ALM_BM_PERIOD r.pipe) = x.hdr.bNom % 2 ^ 27)))) ∧
  (∀ (s : State) (r : LoadJob), s.load = some r → s.loadsWell r →
    let bs := (s.peekN r.image r.len).1
    Does .loadCommit s (fun t => t.load = none ∧ t.getF Reg.WVL_STATUS_BUSY = 0 ∧ t.getF (Reg.WVL_PIPE_STATE r.pipe) = 2 ∧
      t.getF Reg.WVL_STATUS_LAST_CODE = 0 ∧ t.getF Reg.WVL_STATUS_DONE = 1 ∧
      (∀ j c, r.place[j]? = some c → t.getF (Reg.WVL_PIPE_PLACE_CORE r.pipe j) = c ∧
        t.getF (Reg.WVL_PIPE_PLACE_VALID r.pipe j) = 1) ∧
      t.getF (Reg.WVL_PIPE_NETID_LO r.pipe) = fieldLe bs 32 8 ∧ t.getF (Reg.WVL_PIPE_NETID_HI r.pipe) = fieldLe bs 40 8)) ∧
  (∀ (s : State) (n : Fin 4) (w : WriteReq), s.takesAct w (Reg.WVL_PIPE_CTL_UNLOAD n).off = true →
    wBit w (Reg.WVL_PIPE_CTL_UNLOAD n) = true → s.load ≠ none →
    Does (.wvlUnload n w) s (fun t => t.pipe n = { s.pipe n with unloadDue := true } ∧
      t = (s.setPipes t.pipes).setResp t.resp)) ∧
  (∀ (s : State) (n : Nat), (∀ k, k < 4 → (s.pipe k).unloadDue = decide (k = n)) → n < 4 →
    s.dueUnloads = (s.onPipe n (fun q => { q with unloadDue := false })).tryUnload n) ∧
  (∀ (s : State) (n : Fin 4) (w : WriteReq), s.takesAct w (Reg.WVL_PIPE_CTL_UNLOAD n).off = true →
    wBit w (Reg.WVL_PIPE_CTL_UNLOAD n) = true → s.load = none →
    let st := s.getF (Reg.WVL_PIPE_STATE n)
    let free := s.boundTo n = [] ∧ (st = 3 ∨ (st = 2 ∧ s.bmState n = 0 ∧ (s.pipe n).frames.all (fun f => !f.admitted) = true))
    (free → Does (.wvlUnload n w) s (fun t =>
      t.getF (Reg.WVL_PIPE_STATE n) = 0 ∧
      t.pipe n = { frames := (s.pipe n).frames.filter (fun f => f.recPend), nextId := (s.pipe n).nextId } ∧ (∀ j, j < 32 → t.getF (Reg.WVL_PIPE_PLACE_VALID n j) = 0) ∧
      (∀ c ∈ s.coresOf n, t.getF (Reg.PWR_CC_FLOOR c) = 0) ∧
      (∀ k ∈ (s.pipe n).threads, k < 512 → t.getF (Reg.CC_VT_SLOT_STATE (k / 16) (k % 16)) = 0) ∧
      (∀ e ∈ s.spine, (bit1 e.2.toNat 14 = true ∧ bits e.2.toNat 12 2 = n) → SMap.get (fun _ => 0) t.spine e.1 = 0) ∧
      (∀ e ∈ s.spine, (∀ f ∈ s.spine, f.1 = e.1 → ¬ (bit1 f.2.toNat 14 = true ∧ bits f.2.toNat 12 2 = n)) →
        SMap.get (fun _ => 0) t.spine e.1 = SMap.get (fun _ => 0) s.spine e.1) ∧
      SameMem s t ∧ t.load = s.load ∧ t.bmState n = 0 ∧
      (s.bmState n = 0 ∨ s.flag (Reg.ALM_BM_STAT_EXCURSION n) = false → t.flt = s.flt) ∧
      (s.bmState n ≠ 0 → s.flag (Reg.ALM_BM_STAT_EXCURSION n) = true → s.room = true →
        Filed s t 0 0xA11 (uBeat n) [(48, (s.beat n).maxLag)] ∧ t.flag (Reg.ALM_BM_STAT_EXCURSION n) = false))) ∧
    (¬ free → s.room = true → Does (.wvlUnload n w) s (fun t => LoaderFault s t 0 0x709 n [(16, st)] ∧
      SameRegs [Reg.WVL_STATUS_LAST_CODE] s t ∧
      t = (((s.setRegs t.regs).setFlt t.flt).setIrq t.irq).setResp t.resp)))

/-- SOL_LRN_CFG, LABEL_UPDATE and SOL_LRN_SEED (R446, R451 to R458). A write of SOL_LRN_CFG counts as one to a field
when it changes that field (the model's reading, log entry 51). -/
def Obligations.LearningUnit : Prop :=
  (∀ (s : State) (r : LrnReg) (w : WriteReq), s.takes w (lrnFld r).off = true →
    let off := (lrnFld r).off
    let u := s.plainWrite off w
    let en := s.flag Reg.SOL_LRN_CFG_EN
    let other := (r = .cfg ∧ (u.setF Reg.SOL_LRN_CFG_EN (s.getF Reg.SOL_LRN_CFG_EN)).word off ≠ s.word off) ∨
      (r ≠ .cfg ∧ ∃ i, i < 64 ∧ (accMask (Reg.fields off) .rw).getLsbD i = true ∧ (halfMask w.half).getLsbD i = true)
    (en = false → (∀ e ∈ u.lrnRanges, e.1.off = off ∨ u.flag Reg.SOL_LRN_CFG_EN = true → e.2 = true) → Does (.solLrnCfg r w) s (fun t => t.regs = u.regs ∧ OnlyRegs s t)) ∧
    (en = true → ¬ other → Does (.solLrnCfg r w) s (fun t => t.regs = u.regs ∧ OnlyRegs s t)) ∧
    (s.room = true →
      (en = true ∧ other) ∨ (∃ e ∈ u.lrnRanges, e.1.off = off ∧ e.2 = false ∧ u.getF e.1 ≠ s.getF e.1) ∨
        (en = false ∧ u.flag Reg.SOL_LRN_CFG_EN = true ∧ ∃ e ∈ u.lrnRanges, e.2 = false) →
      Does (.solLrnCfg r w) s (fun t => Filed s t 0 0x905 uLearn [(26, off), (32, written w)] ∧ t.regs = s.regs ∧
        t = (s.setFlt t.flt).setResp t.resp))) ∧
  (∀ s : State, s.labelReady = true → s.labelStatus ≠ 1 →
    Does (.labelUpdate []) s (fun t => LabelDone s t s.labelStatus 0 0 ∧
      Filed s t 0 0x901 uLearn [(16, s.getF Reg.SOL_LRN_LRD % 2 ^ s.getF Reg.SOL_LRN_LLOG2), (4, s.labelStatus)] ∧
      SameMemBut (fun x => decide (s.labelAt ≤ x ∧ x < s.labelAt + 32)) s t ∧ t.learn = s.learn)) ∧
  (∀ s : State, s.labelReady = true → s.labelStatus = 1 →
    let pos := fieldLe s.label 4 2
    let neg := fieldLe s.label 6 2
    let two := decide (neg ≠ 0xFFFF)
    let z : Int := ((fieldLe (s.rdBytes s.labelEntry 32) 6 1 : Nat) : Int)
    let elem := fun (r : Nat) (sign : Int) (k i : Nat) =>
      lrnElem sign k (s.getF Reg.SOL_LRN_CFG_THETA) (lfsrAt (s.gen r) (i + 1)) ((s.rdByte (s.rowAddr r + i)).toInt) (s.trace r i)
        (min 127 (max (-128) (((s.rdByte (s.labelEntry + 32 + i)).toNat : Int) - z)))
    let up := elem pos 1 (s.getF Reg.SOL_LRN_CFG_K_POS)
    let down := elem neg (-1) (s.getF Reg.SOL_LRN_CFG_K_NEG)
    let commits := lrnCount (fun i => (up i).2.2.1) + (if two then lrnCount (fun i => (down i).2.2.1) else 0)
    let clamps := lrnCount (fun i => (up i).2.2.2) + (if two then lrnCount (fun i => (down i).2.2.2) else 0)
    Does (.labelUpdate []) s (fun t => LabelDone s t 1 commits clamps ∧
      (∀ i, i < 256 → t.rdByte (s.rowAddr pos + i) = BitVec.ofInt 8 (up i).1 ∧ t.trace pos i = (up i).2.1) ∧
      t.gen pos = lfsrAt (s.gen pos) 256 ∧
      (two = true → t.gen neg = lfsrAt (s.gen neg) 256 ∧
        ∀ i, i < 256 → t.rdByte (s.rowAddr neg + i) = BitVec.ofInt 8 (down i).1 ∧ t.trace neg i = (down i).2.1) ∧
      (clamps ≠ 0 → Filed s t 0 0x902 uLearn
        [(16, s.getF Reg.SOL_LRN_LRD % 2 ^ s.getF Reg.SOL_LRN_LLOG2), (12, pos), (12, neg), (16, clamps)]) ∧
      (clamps = 0 → t.flt = s.flt) ∧
      SameMemBut (fun x => decide ((s.labelAt ≤ x ∧ x < s.labelAt + 32) ∨
        (s.rowAddr pos ≤ x ∧ x < s.rowAddr pos + 256) ∨
        (two = true ∧ s.rowAddr neg ≤ x ∧ x < s.rowAddr neg + 256))) s t)) ∧
  (∀ (s : State) (errs : List (Fin 4096 × Fin 257 × Bool)),
    s.flag Reg.SOL_LRN_CFG_EN = false ∨ s.getF Reg.SOL_LRN_LRD = s.getF Reg.SOL_LRN_LWR →
    exec (.labelUpdate errs) s = .next s) ∧
  (∀ (s : State) (w : WriteReq), s.takes w Reg.SOL_LRN_SEED_ROW.off = true → w.half = .both →
    let r := w.field Reg.SOL_LRN_SEED_ROW
    let v := w.field Reg.SOL_LRN_SEED_SEED
    let idle := s.domOn 32 = true ∧ (s.flag Reg.SOL_LRN_CFG_EN = false ∨ s.getF Reg.SOL_LRN_LRD = s.getF Reg.SOL_LRN_LWR)
    (idle → v ≠ 0 → Does (.solLrnSeed w) s (fun t => t.gen r = v ∧ (∀ i, i < 256 → t.trace r i = 0) ∧
      t.getF Reg.SOL_LRN_SEED_ROW = r ∧ SameRegs [Reg.SOL_LRN_SEED_ROW] s t ∧
      (∀ q, q < 4096 → q ≠ r → t.gen q = s.gen q) ∧ t = ((s.setRegs t.regs).setLearn t.learn).setResp t.resp)) ∧
    (¬ idle ∨ v = 0 → s.room = true → Does (.solLrnSeed w) s (fun t =>
      Filed s t 0 0x905 uLearn [(26, Reg.SOL_LRN_SEED_SEED.off), (32, v)] ∧
      t = (s.setFlt t.flt).setResp t.resp)))

/-- FAULT_RING_WRITE, FLT_CTL and MGT_HB_CFG (R86, R465 to R474). The record whose write failed stays the oldest (the model's
reading of R472, log entry 52). -/
def Obligations.FaultRing : Prop :=
  (∀ (s : State) (r : FaultRec) (rest : List FaultRec), s.flt.pend = r :: rest → s.domHolds 38 = true →
    s.flag Reg.FLT_CTL_EN = true → s.flag Reg.FLT_STATUS_RING_ERROR = false → s.room = true →
    let wr := s.getF Reg.FLT_Q_WR
    let a := s.getF Reg.FLT_Q_BASE + 32 * (wr % 2 ^ s.getF Reg.FLT_Q_LOG2)
    let full := fun (rd : Fld) => decide (2 ^ s.getF Reg.FLT_Q_LOG2 ≤ (wr + 2 ^ 32 - s.getF rd) % 2 ^ 32)
    let room := full Reg.FLT_Q_RD = false ∧ (s.flag Reg.FLT_CTL_HOST_GATE = true → full Reg.FLT_Q_HRD = false)
    (room → s.hostRange a 32 = true → s.bgw.due = [] → r.cls < 5 →
      Does .faultRingWrite s (fun t =>
        let b := t.rdBytes a 32
        fieldLe b 0 1 = r.cls ∧ fieldLe b 2 2 = r.code % 2 ^ 16 ∧ fieldLe b 4 4 = r.unit % 2 ^ 32 ∧
        fieldLe b 8 8 = r.time % 2 ^ 64 ∧ fieldLe b 22 2 = wr % 2 ^ 16 ∧ fieldLe b 24 8 = r.detail % 2 ^ 64 ∧
        bit1 (fieldLe b 1 1) 0 = r.frame.isSome ∧ bit1 (fieldLe b 1 1) 1 = r.pipe.isSome ∧
        bit1 (fieldLe b 1 1) 2 = r.fif.isSome ∧
        SameMemBut (fun x => decide (a ≤ x ∧ x < a + 32)) s t ∧ t.getF Reg.FLT_Q_WR = (wr + 1) % 2 ^ 32 ∧
        t.flt.pend = rest ∧
        (∀ d, d < 3 → bit1 (s.getF (Reg.FLT_IRQ_CFG_CLASS_EN d)) r.cls = true →
          bit1 (t.getF (Reg.FLT_IRQ_STAT_CLASS d)) r.cls = true) ∧
        SameRegs [Reg.FLT_Q_WR, Reg.FLT_IRQ_STAT_CLASS 0, Reg.FLT_IRQ_STAT_CLASS 1, Reg.FLT_IRQ_STAT_CLASS 2] s t)) ∧
    (room → a < 0x3F00000000 → 0x3002000000 ≤ a → Does .faultRingWrite s (fun t =>
      t.flag Reg.FLT_STATUS_RING_ERROR = true ∧ Filed s t 1 0xF02 uDevice [(43, a / 32), (4, 2)] ∧
      (∀ d, d < 3 → t.getF (Reg.FLT_IRQ_STAT_RING d) = 1) ∧ t.getF Reg.FLT_Q_WR = wr ∧ SameMem s t ∧
      SameRegs [Reg.FLT_STATUS_RING_ERROR, Reg.FLT_IRQ_STAT_RING 0, Reg.FLT_IRQ_STAT_RING 1, Reg.FLT_IRQ_STAT_RING 2] s t)) ∧
    (¬ room → exec .faultRingWrite s = .next s)) ∧
  (∀ s : State, s.flt.pend = [] ∨ s.flag Reg.FLT_CTL_EN = false ∨ s.flag Reg.FLT_STATUS_RING_ERROR = true →
    exec .faultRingWrite s = .next s) ∧
  (∀ (op : WriteReq → Instr), op = .fltCtlEn ∨ op = .fltLastClr → ∀ (s : State) (w : WriteReq),
    s.takes w Reg.FLT_CTL_EN.off = true → coversLo w.half = true →
    let en := s.flag Reg.FLT_CTL_EN
    let on := w.field Reg.FLT_CTL_EN = 1
    let gate := w.field Reg.FLT_CTL_HOST_GATE
    (en = true → gate ≠ s.getF Reg.FLT_CTL_HOST_GATE → s.room = true → Does (op w) s (fun t =>
      Filed s t 0 0xF03 uDevice [(26, Reg.FLT_CTL_EN.off), (32, written w)] ∧ t = (s.setFlt t.flt).setResp t.resp)) ∧
    (en = false ∨ gate = s.getF Reg.FLT_CTL_HOST_GATE → Does (op w) s (fun t =>
      t.getF Reg.FLT_CTL_EN = w.field Reg.FLT_CTL_EN ∧ t.getF Reg.FLT_CTL_HOST_GATE = gate ∧
      (en = false ∧ on → t.getF Reg.FLT_Q_WR = 0 ∧ t.getF Reg.FLT_Q_RD = 0 ∧ t.getF Reg.FLT_Q_HRD = 0 ∧
        t.flag Reg.FLT_STATUS_RING_ERROR = false) ∧
      (¬ (en = false ∧ on) → ∀ f ∈ [Reg.FLT_Q_WR, Reg.FLT_Q_RD, Reg.FLT_Q_HRD, Reg.FLT_STATUS_RING_ERROR], t.getF f = s.getF f) ∧
      (∀ i, i < 4 → t.getF (Reg.FLT_LAST_DEVICE i) =
        if w.field Reg.FLT_CTL_LAST_CLR = 1 then 0 else s.getF (Reg.FLT_LAST_DEVICE i)) ∧
      SameRegs [Reg.FLT_CTL_EN, Reg.FLT_CTL_HOST_GATE, Reg.FLT_Q_WR, Reg.FLT_Q_RD, Reg.FLT_Q_HRD, Reg.FLT_STATUS_RING_ERROR,
        Reg.FLT_LAST_DEVICE 0, Reg.FLT_LAST_DEVICE 1, Reg.FLT_LAST_DEVICE 2, Reg.FLT_LAST_DEVICE 3] s t ∧ OnlyRegs s t))) ∧
  (∀ (s : State) (w : WriteReq), s.takes w Reg.MGT_HB_CFG_REARM.off = true → coversLo w.half = true →
    Does (.mgtHbRearm w) s (fun t => t.getF Reg.MGT_HB_CFG_MISS_LIMIT = w.field Reg.MGT_HB_CFG_MISS_LIMIT ∧
      t.pwr.offRaised = (if w.field Reg.MGT_HB_CFG_REARM = 1 then [] else s.pwr.offRaised) ∧
      SameRegs [Reg.MGT_HB_CFG_MISS_LIMIT] s t ∧ t = ((s.setRegs t.regs).setPwr t.pwr).setResp t.resp))

/-- PWR_DOM_REQ, DOMAIN_TRANSITION_DONE, IDLE_ENTRY and CORE_WAKE_DONE (R483 to R485, R495, R496). The two phases of idle
entry are the model's (log entry 53); channels train again only after Dormant (log entry 81). -/
def Obligations.DomainRequests : Prop :=
  (∀ (s : State) (d : Fin 57) (w : WriteReq), s.takes w (Reg.PWR_DOM_REQ_STATE d).off = true → coversLo w.half = true →
    let v := w.field (Reg.PWR_DOM_REQ_STATE d)
    let causes := s.requestCauses d v
    (s.room = true → causes ≠ [] → Does (.pwrDomReq d w) s (fun t =>
      Refused601 s t d (Reg.PWR_DOM_REQ_STATE d).off (written w) (causes.headD 0))) ∧
    (causes = [] → Does (.pwrDomReq d w) s (fun t =>
      t.getF (Reg.PWR_DOM_REQ_STATE d) = v ∧ SameDoms [] s t ∧ SameMem s t ∧
      (s.dom d = v → t.getF Reg.PWR_IRQ_STAT_DONE = 1 ∧ (d.val < 32 → t.coreMove d = 0) ∧ t.transOf d = none) ∧
      (s.dom d ≠ v → t.getF Reg.PWR_IRQ_STAT_DONE = s.getF Reg.PWR_IRQ_STAT_DONE ∧ t.transOf d = some v ∧
        t.getF (Reg.PWR_DOM_STAT_TRANS d) = 1) ∧
      SameRegs [Reg.PWR_DOM_REQ_STATE d, Reg.PWR_DOM_STAT_TRANS d, Reg.PWR_IRQ_STAT_DONE] s t))) ∧
  (∀ (s : State) (d : Fin 57) (v : Nat), s.transOf d = some v → v < 4 →
    Does (.domainTransitionDone d) s (fun t =>
      t.dom d = v ∧ t.transOf d = none ∧ t.getF Reg.PWR_IRQ_STAT_DONE = 1 ∧ SameDoms [d] s t ∧
      (v = 1 → SameMem s t ∧ t.tiles = s.tiles ∧ t.threads = s.threads ∧ t.carry = s.carry ∧ t.sol = s.sol ∧ t.learn = s.learn) ∧
      ((v = 0 ∨ v = 2) → d.val < 32 → (∀ k, k < 256 → t.tile d k = {}) ∧ (∀ a, a < 0x1000000 → t.rdByte (storeKey d a) = 0) ∧
        (v = 0 → t.getF (vTarget d) = 0)) ∧
      ((v = 0 ∨ v = 2) → d.val = 32 → t.learn = {} ∧ (v = 0 → t.getF (vTarget 32) = 0)) ∧
      (v = 1 → d.val ≤ 32 → t.getF (vTarget d) = 600) ∧
      (∀ m, m < 4 → d.val = 43 + m → v = 3 →
        if SMap.get (fun _ => false) s.pwr.slept m = true ∧ s.committed = true then
          ∀ g ∈ chansOf m, g ∈ s.activeChans → SMap.get (fun _ => false) t.hbm.training g = true
        else t.hbm = s.hbm ∧ SameMem s t) ∧
      (∀ m, m < 4 → d.val = 43 + m → v = 3 → SMap.get (fun _ => false) t.pwr.slept m = false) ∧
      (v = 0 → d.val = 37 → ∀ a, a < 0x2000000 → t.rdByte (hostKey a) = 0))) ∧
  (∀ (s : State) (d : Fin 57), s.transOf d = none → exec (.domainTransitionDone d) s = .next s) ∧
  (∀ (s : State) (c : Fin 32), s.domOn c = true → s.quiescent c = true →
    (s.coreMove c = 0 → s.transOf c = none → s.flag (Reg.PWR_CC_IDLE_STATE c) = true → Does (.idleEntry c false) s (fun t =>
      t.coreMove c = 1 ∧ t.getF (Reg.PWR_DOM_STAT_TRANS c) = 1 ∧ t.now = (s.elapse (s.getF (Reg.PWR_CC_IDLE_DELAY c))).now ∧
      SameDoms [] s t ∧ SameMem s t ∧ SameRegs [Reg.PWR_DOM_STAT_TRANS c] s t)) ∧
    (s.coreMove c = 1 → Does (.idleEntry c true) s (fun t =>
      t.dom c = 1 ∧ t.coreMove c = 0 ∧ t.getF (vTarget c) = 600 ∧ t.getF Reg.PWR_IRQ_STAT_DONE = s.getF Reg.PWR_IRQ_STAT_DONE ∧
      t.core c = s.core c ∧ SameDoms [c] s t ∧ SameMem s t ∧
      SMap.get (fun _ => none) t.pwr.divWait c = none ∧
      (∀ cap, cap < 449 → IsCap (s.getF Reg.PWR_THERM_STAT_STAGE) (s.getF (clkFloor c)) cap →
        t.getF (clkEff c) = max (s.getF (clkN c)) cap) ∧
      SameRegs [Reg.PWR_DOM_STAT_STATE c, Reg.PWR_DOM_STAT_TRANS c, vTarget c, clkEff c, vMinF c] s t))) ∧
  (∀ (s : State) (c : Fin 32), s.domOn c = true → s.quiescent c = false →
    exec (.idleEntry c false) s = .next s ∧
    (s.coreMove c = 1 → Does (.idleEntry c true) s (fun t => t.dom c = 3 ∧ t.coreMove c = 0 ∧
      t = (s.setRegs t.regs).setPwr t.pwr ∧ SameRegs [Reg.PWR_DOM_STAT_TRANS c] s t))) ∧
  (∀ (s : State) (c : Fin 32) (ns : Nat), s.dom c = 1 →
    (s.coreMove c = 2 ∨ s.coreMove c = 3 → s.room = true →
      Does (.coreWakeDone c ns) s (fun t =>
        let work := SMap.get (fun _ => 0) s.pwr.workAt c
        t.dom c = 3 ∧ t.coreMove c = 0 ∧ t.now = (s.elapse ns).now ∧ (t.core c).owe = [] ∧ SameDoms [c] s t ∧
        (s.coreMove c = 2 ∧ work < t.now → ∃ r ∈ t.flt.pend.take (s.flt.pend.length + 1), (r.cls, r.code, r.unit, r.detail) =
          (0, 0x607, uDom c, packDetail [(48, t.now - work)])) ∧
        (∀ e ∈ (s.core c).owe, .heartbeat (hbToken 1 c e.1 3 e.2) ∈ t.out.drop s.out.length))) ∧
    (s.coreMove c ≠ 2 → s.coreMove c ≠ 3 → exec (.coreWakeDone c ns) s = .next s))

/-- PWR_SLEEP, DORMANT_ENTRY, PW_WAKE_N, REFERENCE_CHECK, WAKING_COMPLETE and REFERENCE_LOST (R39, R486 to R488). -/
def Obligations.SleepAndWake : Prop :=
  (∀ (s : State) (w : WriteReq), s.takes w Reg.PWR_DEV_CTL_SLEEP.off = true → coversLo w.half = true →
    w.field Reg.PWR_DEV_CTL_SLEEP = 1 →
    let idle := (List.range 4).all (fun n => s.bmState n == 0)
    let empty := (List.range 4).all (fun n => !s.resident n)
    let ready := s.pwr.dev = .active ∧ s.pwr.sleeping = false
    let keep := s.flag Reg.PWR_DORMANT_CFG_HBM_KEEP
    (s.room = true → ¬ (idle = true ∧ empty = true ∧ ready) → Does (.pwrSleep w) s (fun t =>
      Refused601 s t 38 Reg.PWR_DEV_CTL_SLEEP.off (written w) (if !idle then 2 else if !empty then 4 else 7))) ∧
    (idle = true → empty = true → ready → Does (.pwrSleep w) s (fun t =>
      t.dom 38 = s.dom 38 ∧
      (∀ d, d < 57 → d ≠ 38 → t.dom d =
        if keep = true ∧ 43 ≤ d ∧ d ≤ 46 then (if s.dom d = 3 then 1 else s.dom d) else 0) ∧
      (∀ g, g < 64 → keep = true → ∀ a ∈ s.mem.map (·.1), hbmKey g 0 ≤ a → a < hbmKey (g + 1) 0 → t.rdByte a = s.rdByte a) ∧
      t.pwr.sleeping = true ∧ t.pwr.dev = .active ∧ t.now = s.now))) ∧
  (∀ s : State,
    (s.pwr.sleeping = true → Does .dormantEntry s (fun t => t.pwr.dev = .dormant ∧ t.pwr.oscEn = false ∧ t.pwr.sleeping = false ∧
      t.pwr.coolSince = none ∧ t.dom 38 = 1 ∧ SameDoms [38] s t ∧ t.alm = { s.alm with crystal := true, aonFail := false } ∧ t.getF Reg.BGW_STAT_UP = 0 ∧
      (∀ m, m < 4 → SMap.get (fun _ => false) t.pwr.slept m = true) ∧
      (∀ q, q < 4 → t.getF (Reg.PWR_QPLL_CTL_LOCK q) = 0) ∧ t.flt = s.flt ∧ SameMem s t ∧
      SameRegs (Reg.PWR_DOM_STAT_STATE 38 :: Reg.BGW_STAT_UP :: (List.range 4).map (fun q => Reg.PWR_QPLL_CTL_LOCK q)) s t)) ∧
    (s.pwr.sleeping = false → exec .dormantEntry s = .next s)) ∧
  (∀ (s : State) (cycles : Nat),
    (s.pwr.dev = .dormant → 2 ≤ cycles → Does (.pwWakeN cycles) s (fun t => t.pwr.dev = .waking ∧ t.pwr.oscEn = true ∧
      t.pwr.refOk = false ∧ t.getF Reg.PWR_DEV_STAT_WAKE_SRC = 2 ∧ SameRegs [Reg.PWR_DEV_STAT_WAKE_SRC] s t ∧
      t = ((s.setRegs t.regs).setPwr t.pwr).setAlm t.alm)) ∧
    (s.pwr.dev ≠ .dormant ∨ cycles < 2 → exec (.pwWakeN cycles) s = .next s)) ∧
  (∀ (s : State) (count : Nat),
    (s.pwr.dev = .waking → s.pwr.refOk = false →
      (24414 * 999 ≤ 1000 * count ∧ 1000 * count ≤ 24414 * 1001 → Does (.referenceCheck count) s (fun t =>
        t.pwr = { s.pwr with refOk := true } ∧ t = (s.setPwr t.pwr).setAlm t.alm)) ∧
      (¬ (24414 * 999 ≤ 1000 * count ∧ 1000 * count ≤ 24414 * 1001) → s.room = true → Does (.referenceCheck count) s (fun t =>
        Filed s t 4 0x606 uDevice [(4, 0)] ∧ t.pwr.dev = .dormant ∧ t.pwr.oscEn = false ∧ t.dom 38 = 1 ∧
        SameDoms [38] s t ∧ SameMem s t))) ∧
    (s.pwr.dev ≠ .waking ∨ s.pwr.refOk = true → exec (.referenceCheck count) s = .next s)) ∧
  (∀ s : State,
    let up := s.pwr.dev = .waking ∧ s.pwr.refOk = true ∧ s.pwr.almBack = true
    let keep := s.pwr.fromDormant = true ∧ s.flag Reg.PWR_DORMANT_CFG_HBM_KEEP = true
    (up → Does .wakingComplete s (fun t => t.pwr.dev = .active ∧ t.pwr.fromDormant = false ∧ t.dom 38 = 3 ∧
      t.getF Reg.PWR_IRQ_STAT_WAKE = 1 ∧ (∀ q, q < 4 → t.getF (Reg.PWR_QPLL_CTL_LOCK q) = 1) ∧
      (∀ d, d < 57 → d ≠ 38 → t.dom d =
        if keep ∧ 39 ≤ d ∧ d ≤ 42 then 3 else if keep ∧ 43 ≤ d ∧ d ≤ 46 ∧ s.dom d = 1 then 3 else s.dom d) ∧
      SameMem s t)) ∧
    (¬ up → exec .wakingComplete s = .next s)) ∧
  (∀ s : State,
    (s.pwr.dev = .active → s.room = true → Does .referenceLost s (fun t =>
      (∃ r ∈ t.flt.pend, (r.cls, r.code, r.unit, r.detail) = (4, 0x606, uDevice, packDetail [(4, 1)])) ∧
      t.pwr.dev = .dormant ∧ t.pwr.oscEn = false ∧ t.alm.crystal = true ∧ t.dom 38 = 1 ∧
      (∀ d, d < 57 → d ≠ 38 → t.dom d = 0) ∧ (∀ n, n < 4 → (t.pipe n).frames = []) ∧
      (∀ q, q < 4 → t.getF (Reg.PWR_QPLL_CTL_LOCK q) = 0))) ∧
    (s.pwr.dev ≠ .active → exec .referenceLost s = .next s))

/-- PWR_CLK, DIVIDER_SWITCH, AVS_ITERATION, LDO_OUT_OF_REGULATION, PM_ALERT, QUADRANT_PLL_LOST, PWR_QPLL_RELOCK and
QPLL_LOCKED (R485, R489 to R493). The starting and least voltages are free (log entry 32); a divider whose LDO does not
regulate changes at once (the model's reading, log entry 50). -/
def Obligations.ClocksAndVoltage : Prop :=
  (∀ (s : State) (d : Fin 33) (w : WriteReq), s.takes w (clkN d).off = true → coversLo w.half = true →
    let n := w.field (clkN d)
    let causes := s.clockCauses d n
    (s.room = true → causes ≠ [] → Does (.pwrClk d w) s (fun t =>
      Refused601 s t d (clkN d).off (written w) (causes.headD 0))) ∧
    (causes = [] → ∀ cap, cap < 449 → IsCap (s.getF Reg.PWR_THERM_STAT_STAGE) (s.getF (clkFloor d)) cap →
      Does (.pwrClk d w) s (fun t => t.getF (clkN d) = n ∧ Retuned s t d (max n cap) ∧
        SameRegs [clkN d, clkEff d, vTarget d, vMinF d] s t ∧ t = ((s.setRegs t.regs).setPwr t.pwr).setResp t.resp))) ∧
  (∀ (s : State) (d : Fin 33),
    (∀ n, SMap.get (fun _ => none) s.pwr.divWait d = some n → n < 512 → Does (.dividerSwitch d) s (fun t =>
      t.getF (clkEff d) = n ∧ t.getF (vMinF d) = vFused d n ∧
      t.getF (vTarget d) = (if 2 ≤ s.dom d then max (vFused d n) (s.getF (vTarget d)) else s.getF (vTarget d)) ∧
      SMap.get (fun _ => none) t.pwr.divWait d = none ∧ SameRegs [clkEff d, vMinF d, vTarget d] s t ∧ t = (s.setRegs t.regs).setPwr t.pwr)) ∧
    (SMap.get (fun _ => none) s.pwr.divWait d = none → exec (.dividerSwitch d) s = .next s)) ∧
  (∀ (s : State) (d : Fin 33) (m : Int), s.domOn d = true → s.flag (avsEn d) = true → s.getF (vTarget d) ≤ 850 →
    let low : Int := s.getF (avsLow d)
    let high : Int := s.getF (avsHigh d)
    let v := s.getF (vTarget d)
    let k := SMap.get (fun _ => 0) s.pwr.ceilCnt d
    Does (.avsIteration d m) s (fun t =>
      t.getF (vTarget d) = (if m < low then min 850 (v + 5) else if high < m then max (s.getF (vMinF d)) (v - 5) else v) ∧
      (t.getF (avsCeil d) = if m < low ∧ v = 850 ∧ 63 ≤ k then 1 else s.getF (avsCeil d)) ∧
      (SMap.get (fun _ => 0) t.pwr.ceilCnt d = if m < low ∧ v = 850 then min 64 (k + 1) else 0) ∧
      SameRegs [vTarget d, avsCeil d] s t ∧ t = (s.setRegs t.regs).setPwr t.pwr)) ∧
  (∀ (s : State) (d : Fin 33) (m : Int), s.domOn d = false ∨ s.flag (avsEn d) = false → exec (.avsIteration d m) s = .next s) ∧
  (∀ (s : State) (d : Fin 33), s.domOn d = true → s.room = true →
    Does (.ldoOutOfRegulation d) s (fun t =>
      (d.val < 32 → bit1 (t.getF Reg.MGT_CORE_LOST) d = true ∧
        (bit1 (s.getF Reg.MGT_CORE_LOST) d = false → Raised s t 3 0x021 (uCore d) [(4, 2)])) ∧
      (d.val = 32 → t.sol.lost = true ∧ (s.sol.lost = false → Raised s t 3 0x033 uSol [(4, 3)])))) ∧
  (∀ (s : State) (d : Fin 33), s.domOn d = false → exec (.ldoOutOfRegulation d) s = .next s) ∧
  (∀ (s : State) (a : Fin 128) (st : Fin 65536),
    (s.pwr.dev = .active → s.room = true → Does (.pmAlert a st) s (fun t => t.out = s.out ++ [.pmbus a] ∧
      Filed s t 1 0x608 uDevice [(16, a), (16, st)] ∧ t = (s.setFlt t.flt).setOut t.out)) ∧
    (s.pwr.dev ≠ .active → exec (.pmAlert a st) s = .next s)) ∧
  (∀ (s : State) (q : Fin 4),
    (s.flag (Reg.PWR_QPLL_CTL_LOCK q) = true → s.room = true → Does (.quadrantPllLost q) s (fun t =>
      t.getF (Reg.PWR_QPLL_CTL_LOCK q) = 0 ∧ Raised s t 3 0x605 (0x40000000 + q.val) [] ∧
      (∀ c, c < 32 → bit1 (t.getF Reg.MGT_CORE_LOST) c = (bit1 (s.getF Reg.MGT_CORE_LOST) c ||
        (decide (attachedQuad c = some q.val) && !s.fused c && s.domHolds c))) ∧
      (q.val = 0 → t.sol.lost = true) ∧ (q.val ≠ 0 → t.sol = s.sol) ∧ SameMem s t)) ∧
    (s.flag (Reg.PWR_QPLL_CTL_LOCK q) = false → exec (.quadrantPllLost q) s = .next s)) ∧
  (∀ (s : State) (q : Fin 4) (w : WriteReq), s.takes w (Reg.PWR_QPLL_CTL_RELOCK q).off = true → coversLo w.half = true →
    let busy := ∃ c, c < 32 ∧ attachedQuad c = some q.val ∧ s.heldByPipe c = true
    (w.field (Reg.PWR_QPLL_CTL_RELOCK q) = 1 → ¬ busy → Does (.pwrQpllRelock q w) s (fun t =>
      t.getF (Reg.PWR_QPLL_CTL_LOCK q) = 0 ∧ SMap.get (fun _ => false) t.pwr.relock q = true ∧
      SameRegs [Reg.PWR_QPLL_CTL_LOCK q] s t ∧ t = ((s.setRegs t.regs).setPwr t.pwr).setResp t.resp)) ∧
    (w.field (Reg.PWR_QPLL_CTL_RELOCK q) = 0 ∨ busy → Does (.pwrQpllRelock q w) s (fun t => t = s.setResp t.resp))) ∧
  (∀ (s : State) (q : Fin 4) (ok : Bool),
    (SMap.get (fun _ => false) s.pwr.relock q = true → Does (.qpllLocked q ok) s (fun t =>
      t.getF (Reg.PWR_QPLL_CTL_LOCK q) = (if ok then 1 else 0) ∧ SMap.get (fun _ => false) t.pwr.relock q = false ∧
      SameRegs [Reg.PWR_QPLL_CTL_LOCK q] s t ∧ t = (s.setRegs t.regs).setPwr t.pwr)) ∧
    (SMap.get (fun _ => false) s.pwr.relock q = false → exec (.qpllLocked q ok) s = .next s))

/-- THERMAL_SAMPLE, THROTTLE_STAGE2, THROTTLE_RELEASE and OVERTEMP_COMPARATOR (R497 to R499). A unit without a floor is capped
at 448 (the model's reading, log entry 50). -/
def Obligations.ThermalLimits : Prop :=
  (∀ (s : State) (ts : List (BitVec 8)), s.thermalRuns = true → s.room = true →
    let v := fun (i : Nat) => (ts.getD i 0#8).toInt
    let twice := ∃ i, i < 44 ∧ 115 ≤ v i ∧ s.pwr.hot115.contains i = true
    let st := s.getF Reg.PWR_THERM_STAT_STAGE
    (twice → Does (.thermalSample ts) s Tripped) ∧
    (¬ twice → Does (.thermalSample ts) s (fun t =>
      let tj := t.getI Reg.PWR_THERM_STAT_TJ
      (∀ i, i < 44 → t.getI (Reg.PWR_TSENSE i) = v i ∧ v i ≤ tj) ∧ (∃ i, i < 44 ∧ v i = tj) ∧
      (st = 0 → 105 ≤ tj → t.getF Reg.PWR_THERM_STAT_STAGE = 1 ∧ Raised s t 1 0x602 uDevice
          [(16, (hottest ((List.range 44).map v)).1), (16, tj.toNat)] ∧
        t.pwr.hostEff = 3 ∧
        ∀ d, d < 33 → ∀ cap, cap < 449 → IsCap 1 (s.getF (clkFloor d)) cap → Retuned s t d (max (s.getF (clkN d)) cap)) ∧
      (¬ (st = 0 ∧ 105 ≤ tj) → t.getF Reg.PWR_THERM_STAT_STAGE = st ∧ t.flt = s.flt ∧
        t.pwr.hostEff = s.pwr.hostEff ∧ ∀ d, d < 33 → t.getF (clkEff d) = s.getF (clkEff d)) ∧
      SameDoms [] s t ∧ SameMem s t))) ∧
  (∀ (s : State) (ts : List (BitVec 8)), s.thermalRuns = false → exec (.thermalSample ts) s = .next s) ∧
  (∀ (s : State) (tm : Nat), s.pwr.stage1At = some tm → s.getF Reg.PWR_THERM_STAT_STAGE = 1 →
    s.thermalRuns = true → s.room = true →
    let tj := s.getI Reg.PWR_THERM_STAT_TJ
    Does .throttleStage2 s (fun t => t.now = (s.reach (tm + 10000000)).now ∧ t.pwr.stage1At = none ∧
      (105 ≤ tj → t.getF Reg.PWR_THERM_STAT_STAGE = 2 ∧ Raised s t 1 0x602 uDevice
          [(16, (hottest ((List.range 44).map (fun i => s.getI (Reg.PWR_TSENSE i)))).1),
           (16, (hottest ((List.range 44).map (fun i => s.getI (Reg.PWR_TSENSE i)))).2.toNat)] ∧
        t.pwr.hostEff = 3 ∧ ∀ d, d < 33 → Retuned s t d (max (s.getF (clkN d)) 448)) ∧
      (tj < 105 → t.getF Reg.PWR_THERM_STAT_STAGE = 1 ∧ t.flt = s.flt ∧ t.regs = s.regs) ∧
      SameDoms [] s t ∧ SameMem s t)) ∧
  (∀ s : State, s.pwr.stage1At = none ∨ s.getF Reg.PWR_THERM_STAT_STAGE ≠ 1 ∨ s.thermalRuns = false →
    exec .throttleStage2 s = .next s) ∧
  (∀ (s : State) (tm : Nat), s.pwr.coolSince = some tm → s.getF Reg.PWR_THERM_STAT_STAGE ≠ 0 →
    s.thermalRuns = true → s.room = true →
    Does .throttleRelease s (fun t => t.now = (s.reach (tm + 10000000)).now ∧ t.getF Reg.PWR_THERM_STAT_STAGE = 0 ∧
      Filed s t 0 0x603 uDevice [(16, s.pwr.maxTemp.1), (16, s.pwr.maxTemp.2.toNat)] ∧ t.pwr.coolSince = none ∧
      t.pwr.hostEff = s.getF Reg.PWR_HOST_CLK ∧ (∀ d, d < 33 → Retuned s t d (s.getF (clkN d))) ∧ SameDoms [] s t ∧ SameMem s t)) ∧
  (∀ s : State, s.pwr.coolSince = none ∨ s.getF Reg.PWR_THERM_STAT_STAGE = 0 ∨ s.thermalRuns = false →
    exec .throttleRelease s = .next s) ∧
  (∀ (s : State) (i : Fin 44), s.room = true →
    (s.thermalRuns = true → Does (.overtempComparator i) s Tripped) ∧
    (s.thermalRuns = false → exec (.overtempComparator i) s = .next s))

/-- MGT_MBX_CTL, MBX_REQ_WR, the operations that only report or set, and what every operation does with a request that is bad,
unknown, pending at a restart, or absent (R511 to R514, R524, Tables 20-6 to 20-10). Channels take turns (log entry 60). -/
def Obligations.MailboxChannels : Prop :=
  (∀ (s : State) (c : Fin 2) (w : WriteReq), s.takes w (Reg.MGT_MBX_CTL_EN c).off = true → coversLo w.half = true →
    let on := w.field (Reg.MGT_MBX_CTL_EN c) = 1
    let l := w.field (Reg.MGT_MBX_CTL_LOG2 c)
    let en := s.flag (Reg.MGT_MBX_CTL_EN c)
    (en = false → on → 4 ≤ l ∧ l ≤ 8 → Does (.mgtMbxCtl c w) s (fun t =>
      t.getF (Reg.MGT_MBX_CTL_EN c) = 1 ∧ t.getF (Reg.MGT_MBX_CTL_LOG2 c) = l ∧
      (∀ f ∈ [Reg.MGT_MBX_REQ_WR c, Reg.MGT_MBX_REQ_RD c, Reg.MGT_MBX_RSP_WR c, Reg.MGT_MBX_RSP_RD c], t.getF f = 0) ∧
      SameRegs [Reg.MGT_MBX_CTL_EN c, Reg.MGT_MBX_CTL_LOG2 c, Reg.MGT_MBX_REQ_WR c, Reg.MGT_MBX_REQ_RD c, Reg.MGT_MBX_RSP_WR c,
        Reg.MGT_MBX_RSP_RD c] s t ∧ OnlyRegs s t)) ∧
    (en = true → ¬ on → Does (.mgtMbxCtl c w) s (fun t => t.getF (Reg.MGT_MBX_CTL_EN c) = 0 ∧ t.mbxJob c = none ∧
      SameRegs [Reg.MGT_MBX_CTL_EN c] s t ∧ SameMem s t)) ∧
    ((en = true ∧ on) ∨ (en = false ∧ ¬ (4 ≤ l ∧ l ≤ 8)) → Does (.mgtMbxCtl c w) s (fun t => t = s.setResp t.resp))) ∧
  (∀ (s : State) (c : Fin 2) (w : WriteReq), s.takes w (Reg.MGT_MBX_REQ_WR c).off = true → coversLo w.half = true →
    let v := w.field (Reg.MGT_MBX_REQ_WR c)
    Does (.mbxReqWr c w) s (fun t => t.getF (Reg.MGT_MBX_REQ_WR c) = v ∧
      (v ≠ s.getF (Reg.MGT_MBX_REQ_WR c) → SMap.get (fun _ => false) t.irq.stw 3 = true) ∧
      SameRegs [Reg.MGT_MBX_REQ_WR c] s t ∧ t = ((s.setRegs t.regs).setIrq t.irq).setResp t.resp)) ∧
  (∀ (s : State) (c : Fin 2),
    let u := s.meetHead c
    (s.mbxAsks c 0x01 = true → Does (.mbxPing c) s (fun t => OnlyAnswered s t c 0 0 (leBytes 8 u.now))) ∧
    (s.mbxAsks c 0x02 = true → Does (.mbxVersion c) s (fun t => OnlyAnswered s t c 0 0
      (leBytes 4 u.stw.version ++ leBytes 4 u.stw.svn ++ leBytes 1 u.stw.bank ++ leBytes 1 (u.getF Reg.MGT_REVID_STEP)))) ∧
    (s.mbxAsks c 0x03 = true →
      let id := fieldLe (s.mbxHead c) 8 2
      (1 ≤ id ∧ id ≤ 18 → Does (.mbxGetPolicy c) s (fun t => OnlyAnswered s t c 0 0 (leBytes 8 (u.param id)))) ∧
      (¬ (1 ≤ id ∧ id ≤ 18) → Does (.mbxGetPolicy c) s (fun t => OnlyAnswered s t c 1 0 []))) ∧
    (s.mbxAsks c 0x04 = true →
      let id := fieldLe (s.mbxHead c) 8 2
      let v := fieldLe (s.mbxHead c) 16 8
      (paramOk id v = true → Does (.mbxSetPolicy c) s (fun t => Answered s t c 0 0 [] ∧ t.param id = v ∧
        (∀ k, k < 20 → k ≠ id → t.param k = u.param k) ∧
        (id = 6 → ∀ n, n < 4 → t.getF (Reg.ALM_BM_LAGLIM n) = v) ∧
        (id = 7 → ∀ m, m < 4 → u.domHolds (43 + m) = true → t.getF (Reg.MC_RETRY_CFG_EN m) = v) ∧
        (id = 10 → t.getF Reg.MGT_HB_CFG_MISS_LIMIT = v) ∧
        (id = 11 → ∀ d ∈ [1, 2], t.getF (Reg.FLT_IRQ_CFG_CLASS_EN d) = v) ∧
        (id = 12 → ∀ d ∈ [1, 2], t.getF (Reg.FLT_IRQ_CFG_HOLDOFF d) = v) ∧
        (id = 15 → t.getF Reg.PWR_DORMANT_CFG_HBM_KEEP = v) ∧
        SameMemBut (fun x => decide (u.answerAt c ≤ x ∧ x < u.answerAt c + 64)) u t)) ∧
      (paramOk id v = false → Does (.mbxSetPolicy c) s (fun t => OnlyAnswered s t c 1 0 [] ∧ t.stw.params = u.stw.params))) ∧
    (s.mbxAsks c 0x41 = true → Does (.mbxTimeStatus c) s (fun t => OnlyAnswered s t c 0 0
      (leBytes 8 (if u.stw.lock then 1 else 0) ++ leBytes 8 (uint 64 u.stw.offset) ++ leBytes 8 u.stw.gm ++
        leBytes 2 (u.getF Reg.BGW_TIME_CFG_UTC_OFFSET))))) ∧
  (∀ (s : State) (c : Fin 2) (code : Nat) (cmd : Instr), MbxCommand c code cmd →
    (s.serving = false ∨ s.mbxWaits c = false ∨ s.mbxRoom c = false → exec cmd s = .next s) ∧
    (s.mbxServed c = true → s.mbxJob c = none →
      let q := s.mbxHead c
      let bad := fieldLe q 60 4 ≠ crc32c (sliceB q 0 60) ∨ fieldLe q 4 4 ≠ 0 ∨ fieldLe q 56 4 ≠ 0 ∨ 2 ≤ fieldLe q 3 1
      let op := fieldLe q 2 1
      (bad → Does cmd s (fun t => OnlyAnswered s t c 1 0 [])) ∧
      (¬ bad → op ∉ mbxOpCodes → Does cmd s (fun t => OnlyAnswered s t c 5 0 [])) ∧
      (¬ bad → op ∈ mbxOpCodes → op ≠ code → exec cmd s = .next s)) ∧
    (∀ k, s.serving = true → s.mbxWaits c = true → s.mbxRoom c = true → (s.meetHead c).answersIn c = true →
      s.mbxJob c = some (opRestarted, k) → Does cmd s (fun t => OnlyAnswered s t c 7 0 [])))

/-- The services of the mailbox: LOAD, UNLOAD, ARM, STOP, SEED, FW_STAGE, FW_SVN_COMMIT, DEVICE_RESET, PORT_CFG, and RECOVERY
(R515 to R517, R520 to R523, Table 20-7). A recovery arms its machine again where the unload is accepted (`u`), the loader takes the
image (`y`), nothing stands in the way of its commit, and the streams bind (`z`). PORT_CFG of a link that is up needs FORCE, the two phases of LOAD and STOP, and the
codes of a failed recovery are the model's (log entries 43, 60 and 61). -/
def Obligations.MailboxServices : Prop :=
  (∀ (s : State) (c : Fin 2),
    let q := s.mbxHead c
    let u := s.meetHead c
    let n := fieldLe q 8 1
    let force := bit1 (fieldLe q 3 1) 0
    (s.mbxAsks c 0x10 = true →
      (u.loadBusy c = true → Does (.mbxLoad c) s (fun t => OnlyAnswered s t c 2 0 [])) ∧
      (u.loadBusy c = false → u.coresMoving = true → Does (.mbxLoad c) s (fun t =>
        (t.mbxJob c).isSome = true ∧ t.load = none ∧ t.getF (Reg.MGT_MBX_REQ_RD c) = u.getF (Reg.MGT_MBX_REQ_RD c) ∧ SameMem u t))) ∧
    (∀ k, s.mbxGoesOn c = true → reqOp q = 0x10 → s.mbxJob c = some (0x10, k) →
      let z := s.loaderGo (s.buildRequest (fieldLe q 8 8) (fieldLe q 16 8) (fieldLe q 24 1) (fieldLe q 25 1))
      (s.coresMoving = true ∨ s.load.isSome = true → exec (.mbxLoad c) s = .next s) ∧
      (s.coresMoving = false → s.load = none → z.load = none → z.answersIn c = true → Does (.mbxLoad c) s (fun t =>
        OnlyAnsweredFrom z t c 3 (z.getF Reg.WVL_STATUS_LAST_CODE) [])) ∧
      (∀ r, s.coresMoving = false → s.load = none → z.load = some r → Does (.mbxLoad c) s (fun t =>
        r.image = fieldLe q 8 8 ∧ r.len = fieldLe q 16 8 ∧ (fieldLe q 24 1 ≠ 255 → r.variant = fieldLe q 24 1) ∧
        (fieldLe q 25 1 ≠ 255 → r.pipe = fieldLe q 25 1) ∧ t.mbxJob c = some (0x110, r.pipe) ∧ t = z.setStw t.stw))) ∧
    (∀ k, s.mbxGoesOn c = true → reqOp q = 0x10 → s.mbxJob c = some (0x110, k) →
      let code := s.getF Reg.WVL_STATUS_LAST_CODE
      (s.load.isSome = true → exec (.mbxLoad c) s = .next s) ∧
      (s.load = none → code = 0 → Does (.mbxLoad c) s (fun t => OnlyAnsweredFrom s t c 0 0
        (leBytes 1 k ++ leBytes 1 (s.getF (Reg.WVL_PIPE_INFO_VARIANT k)) ++ leBytes 1 (s.getF (Reg.WVL_PIPE_INFO_START k)) ++
          leBytes 1 (s.getF (Reg.WVL_PIPE_INFO_ROT k)) ++ leBytes 1 (s.getF (Reg.WVL_PIPE_INFO_NCORES k))))) ∧
      (s.load = none → code ≠ 0 → Does (.mbxLoad c) s (fun t => OnlyAnsweredFrom s t c 3 code []))) ∧
    (s.mbxAsks c 0x11 = true →
      let st := u.getF (Reg.WVL_PIPE_STATE n)
      let free := u.boundTo n = [] ∧ (st = 3 ∨ (st = 2 ∧ u.bmState n = 0 ∧ (u.pipe n).quiet = true))
      (3 < n → Does (.mbxUnload c) s (fun t => OnlyAnswered s t c 1 0 [])) ∧
      (n ≤ 3 → u.loadBusy c = true → Does (.mbxUnload c) s (fun t => OnlyAnswered s t c 2 0 [])) ∧
      (n ≤ 3 → u.loadBusy c = false → free → Does (.mbxUnload c) s (fun t => Answered s t c 0 0 [] ∧
        t.getF (Reg.WVL_PIPE_STATE n) = 0 ∧ t.bmState n = 0 ∧ (t.pipe n).place = [] ∧
        SameMemBut (fun x => decide (u.answerAt c ≤ x ∧ x < u.answerAt c + 64)) u t)) ∧
      (n ≤ 3 → u.loadBusy c = false → ¬ free → Does (.mbxUnload c) s (fun t => Answered s t c 3 0x709 [] ∧
        t.getF (Reg.WVL_PIPE_STATE n) = st ∧ t.pipes = u.pipes))) ∧
    (s.mbxAsks c 0x12 = true →
      let b := fieldLe q 24 4
      let g := fieldLe q 16 8
      (u.stw.lock = false → force = false → Does (.mbxArm c) s (fun t => OnlyAnswered s t c 4 0 [])) ∧
      (u.stw.lock = true ∨ force = true → 3 < n ∨ 2 ^ 27 ≤ b → Does (.mbxArm c) s (fun t => OnlyAnswered s t c 1 0 [])) ∧
      (u.stw.lock = true ∨ force = true → n ≤ 3 → 50000 ≤ b ∧ b ≤ 100000000 → u.getF (Reg.ALM_BM_FLOOR n) ≤ b → u.bmState n = 0 →
        u.loaded n = true → u.now + 100000 ≤ g → Does (.mbxArm c) s (fun t => Answered s t c 0 0 [] ∧ t.bmState n = 1 ∧
          t.getF (Reg.ALM_BM_PERIOD n) = b ∧ t.getF (Reg.ALM_BM_ORIGIN n) = g ∧
          t.beat n = { gNext := g, nNext := g, armedAt := u.now } ∧
          SameMemBut (fun x => decide (u.answerAt c ≤ x ∧ x < u.answerAt c + 64)) u t)) ∧
      (u.stw.lock = true ∨ force = true → n ≤ 3 → b < 2 ^ 27 →
        ¬ ((50000 ≤ b ∧ b ≤ 100000000) ∧ u.getF (Reg.ALM_BM_FLOOR n) ≤ b ∧ u.bmState n = 0 ∧ u.loaded n = true ∧ u.now + 100000 ≤ g) →
        Does (.mbxArm c) s (fun t => Answered s t c 3 0xA02 [] ∧ t.bmState n = u.bmState n))) ∧
    (s.mbxAsks c 0x13 = true →
      (3 < n → Does (.mbxStop c) s (fun t => OnlyAnswered s t c 1 0 [])) ∧
      (n ≤ 3 → Does (.mbxStop c) s (fun t =>
        (t.bmState n = 0 → Answered s t c 0 0 (leBytes 8 (t.beat n).idleAt)) ∧
        (t.bmState n ≠ 0 → t.mbxJob c = some (0x13, n) ∧
          t.getF (Reg.MGT_MBX_REQ_RD c) = u.getF (Reg.MGT_MBX_REQ_RD c) ∧ SameMem u t)))) ∧
    (∀ k, s.mbxGoesOn c = true → reqOp q = 0x13 → s.mbxJob c = some (0x13, k) → s.bmState k = 0 →
      Does (.mbxStop c) s (fun t => OnlyAnsweredFrom s t c 0 0 (leBytes 8 (s.beat k).idleAt))) ∧
    (s.mbxAsks c 0x20 = true →
      let row := fieldLe q 8 2
      let seed := fieldLe q 12 4
      let ok := u.domOn 32 = true ∧ seed ≠ 0 ∧
        (u.flag Reg.SOL_LRN_CFG_EN = false ∨ u.getF Reg.SOL_LRN_LRD = u.getF Reg.SOL_LRN_LWR)
      (4096 ≤ row → Does (.mbxSeed c) s (fun t => OnlyAnswered s t c 1 0 [])) ∧
      (row < 4096 → ok → Does (.mbxSeed c) s (fun t => Answered s t c 0 0 [] ∧ t.gen row = seed ∧ ∀ i, i < 256 → t.trace row i = 0)) ∧
      (row < 4096 → ¬ ok → Does (.mbxSeed c) s (fun t => Answered s t c 3 0x905 [] ∧ t.learn = u.learn))) ∧
    (s.mbxAsks c 0x30 = true →
      let len := fieldLe q 16 4
      let im := (u.peekN (fieldLe q 8 8) len).1
      let v := u.meetN (fieldLe q 8 8) len
      let b := 1 - v.stw.bank
      (4194304 < len → Does (.mbxFwStage c) s (fun t => OnlyAnswered s t c 6 0 [] ∧ t.stw.nor = u.stw.nor)) ∧
      (len ≤ 4194304 → v.answersIn c = true → v.imageValid im = true → Does (.mbxFwStage c) s (fun t =>
        OnlyAnsweredFrom v t c 0 0 (leBytes 1 b ++ leBytes 3 0 ++ leBytes 4 (fieldLe im 4 4) ++ leBytes 4 (fieldLe im 8 4)) ∧
        t.norBytes (b * 0x400000) len = im ∧ fieldLe (t.norBytes 0x800000 64) 4 1 = b ∧
        fieldLe (t.norBytes 0x800000 64) 60 4 = crc32c (t.norBytes 0x800000 60))) ∧
      (len ≤ 4194304 → v.answersIn c = true → v.imageValid im = false → Does (.mbxFwStage c) s (fun t =>
        OnlyAnsweredFrom v t c 6 0 [] ∧ t.stw.nor = v.stw.nor))) ∧
    (s.mbxAsks c 0x31 = true → u.stw.svn < 128 → Does (.mbxFwSvnCommit c) s (fun t =>
      let v := max (u.getF Reg.MGT_OTP_STAT_SVN) u.stw.svn
      Answered s t c 0 0 (leBytes 8 v) ∧ t.getF Reg.MGT_OTP_STAT_SVN = v ∧
      SameRegs [Reg.MGT_OTP_STAT_SVN, Reg.MGT_MBX_RSP_WR c, Reg.MGT_MBX_REQ_RD c] u t)) ∧
    (s.mbxAsks c 0x32 = true →
      (u.allIdle = true ∨ force = true → Does (.mbxDeviceReset c) s (fun t => DeviceReset u t 2)) ∧
      (u.allIdle = false → force = false → Does (.mbxDeviceReset c) s (fun t => OnlyAnswered s t c 2 0 []))) ∧
    (s.mbxAsks c 0x40 = true →
      let m := fieldLe q 9 1
      let up := u.flag (Reg.ETH_P_STAT_LINK_UP n)
      (5 < n ∨ modeOk n m = false → Does (.mbxPortCfg c) s (fun t => OnlyAnswered s t c 1 0 [])) ∧
      (n ≤ 5 → modeOk n m = true → up = true → force = false → Does (.mbxPortCfg c) s (fun t => OnlyAnswered s t c 2 0 [])) ∧
      (n ≤ 5 → modeOk n m = true → up = false ∨ force = true → Does (.mbxPortCfg c) s (fun t =>
        Answered s t c 0 0 [] ∧ (u.domOn (47 + n / 2) = true → t.getF (Reg.ETH_P_CFG_MODE n) = m))))) ∧
  (∀ (s : State) (n : Fin 4),
    let ready := s.serving = true ∧ s.param 9 = 1 ∧ s.bmState n = 4 ∧ (s.pipe n).quiet = true ∧ s.load = none
    (ready → (s.pipe n).sectOpen = false → s.hearsEvents = true → Does (.recovery n) s (fun t =>
      if t.bmState n = 1 then Told s t 0x83 (leBytes 1 n ++ leBytes 1 (t.getF (Reg.WVL_PIPE_INFO_VARIANT n)) ++
          leBytes 1 (t.getF (Reg.WVL_PIPE_INFO_NCORES n)) ++ leBytes 5 0 ++ leBytes 8 (t.getF (Reg.ALM_BM_ORIGIN n)))
      else t.bmState n = 0 ∧ ∃ code ∈ [0x709, 0x302, 0xA02, t.getF Reg.WVL_STATUS_LAST_CODE],
        Told s t 0x84 (leBytes 1 n ++ leBytes 1 0 ++ leBytes 2 code))) ∧
    (∀ job, ready → (s.pipe n).sectOpen = false → s.hearsEvents = true →
      let v := s.stopBeat n
      let ms := v.boundTo n
      let b := v.getF (Reg.ALM_BM_PERIOD n)
      let im := SMap.get (fun _ => (0, 0)) v.stw.image n
      let u := State.writeUnload n (stwW 1) (ms.foldl (fun x m => State.writeBind m (stwW 2) x) (v.putRot n (List.replicate 32 0#64)))
      let y := u.loaderGo (u.buildRequest im.1 im.2 255 n)
      let z := ms.foldl (fun x m => State.writeBind m (stwW 1) x) y.finishLoad
      u.resident n = false → y.load = some job → job.pipe = n.val → y.loadsWell job →
      (∀ m ∈ ms, z.getF (Reg.ING_STR_STATE m) ≠ 0) → 50000 ≤ b ∧ b ≤ 100000000 → z.getF (Reg.ALM_BM_FLOOR n) ≤ b →
      z.now + 101000000 < 2 ^ 64 →
      Does (.recovery n) s (fun t => t.bmState n = 1 ∧ t.getF (Reg.WVL_PIPE_STATE n) = 2 ∧ t.getF (Reg.ALM_BM_PERIOD n) = b ∧
        z.now + 1000000 ≤ t.getF (Reg.ALM_BM_ORIGIN n) ∧
        (∃ m, t.getF (Reg.ALM_BM_ORIGIN n) = v.getF (Reg.ALM_BM_ORIGIN n) + m * b) ∧ (∀ m ∈ ms, t.getF (Reg.ING_STR_STATE m) ≠ 0))) ∧
    (¬ ready → exec (.recovery n) s = .next s))

/-- GPTP_SERVO, GPTP_SYNC_TIMEOUT, MGT_WDOG_KICK, WDOG_EXPIRE and MGT_STW_RESTART (R518, R524, R536, R551). The offset is
local minus master (log entry 45); a restart grants and sets PHASE again at once (the model's choice, log entry 62). -/
def Obligations.FirmwareTimeAndWatchdog : Prop :=
  (∀ (s : State) (offset : Int) (gm : W64), s.serving = true → s.followsGptp = true →
    let small := if offset.natAbs < s.param 13 then min 16 (s.stw.small + 1) else 0
    let gain := s.stw.lock = false ∧ small = 16
    let lose := s.stw.lock = true ∧ 10 * s.param 13 < offset.natAbs
    let step := s.param 14 < offset.natAbs ∧ s.allIdle = true ∧ (∀ n, n < 4 → s.resident n = true → (s.pipe n).quosk = false) ∧
      s.followsGptp = true
    Does (.gptpServo offset gm) s (fun t =>
      t.stw.offset = offset ∧ t.stw.gm = gm.toNat ∧ (t.stw.lock = true ↔ gain ∨ (s.stw.lock = true ∧ ¬ lose)) ∧
      (gain → t.getF Reg.BGW_TIME_CFG_LOCKED = 1 ∧ (s.hearsEvents = true → s.stw.lock = false →
        Told s t 0x81 (leBytes 8 0 ++ leBytes 8 (uint 64 offset)))) ∧
      (lose → t.getF Reg.BGW_TIME_CFG_LOCKED = 0 ∧ (s.hearsEvents = true → Told s t 0x82 (leBytes 1 1))) ∧
      (¬ gain → ¬ lose → t.getF Reg.BGW_TIME_CFG_LOCKED = s.getF Reg.BGW_TIME_CFG_LOCKED ∧ SameMem s t) ∧
      (¬ step → t.alm.alm = s.alm.alm ∧ t.alm.slewRem = min 500000000 (max (-500000000)
        (s.alm.slewRem - 500 * min 1000000 (max (-1000000) offset)))) ∧
      (step → 0 < offset → offset < 2 ^ 40 → s.alm.crystal = false → (∀ p, p < 16 → s.flag (Reg.ALM_GL_CTL_EN p) = false) →
        t.alm.alm = (((s.ticks 1).alm.alm : Int) - offset * 65536 * (unitFrac : Int)).toNat))) ∧
  (∀ (s : State) (offset : Int) (gm : W64), s.serving = true → s.followsGptp = false →
    let l := s.getF Reg.QSK_TIME_UPLINK
    let theta := s.getI (Reg.QSK_L_OFFSET l)
    (s.linkUp l = true → Does (.gptpServo offset gm) s (fun t => t.stw = s.stw ∧ t.alm.alm = s.alm.alm ∧ t.alm.slewRem =
      min 500000000 (max (-500000000) (s.alm.slewRem + 500 * min 1000000 (max (-1000000) theta))) ∧ SameMem s t)) ∧
    (s.linkUp l = false → exec (.gptpServo offset gm) s = .next s)) ∧
  (∀ (s : State) (offset : Int) (gm : W64), s.serving = false →
    exec (.gptpServo offset gm) s = .next s ∧ exec .gptpSyncTimeout s = .next s) ∧
  (∀ s : State, s.serving = true →
    (s.stw.lock = true → Does .gptpSyncTimeout s (fun t => t.stw.lock = false ∧ t.getF Reg.BGW_TIME_CFG_LOCKED = 0 ∧
      (s.hearsEvents = true → Told s t 0x82 (leBytes 1 0)))) ∧
    (s.stw.lock = false → Does .gptpSyncTimeout s (fun t => t.stw.small = 0 ∧ t = s.setStw t.stw))) ∧
  (∀ (s : State) (w : WriteReq), s.takes w Reg.MGT_WDOG_KICK.off = true → coversLo w.half = true →
    (w.field Reg.MGT_WDOG_KICK = 1 → Does (.mgtWdogKick w) s (fun t => t.getF Reg.MGT_WDOG_ARMED = 1 ∧ t.stw.kicked = s.now ∧
      SameRegs [Reg.MGT_WDOG_ARMED] s t ∧ t = ((s.setRegs t.regs).setStw t.stw).setResp t.resp)) ∧
    (w.field Reg.MGT_WDOG_KICK = 0 → Does (.mgtWdogKick w) s (fun t => t = s.setResp t.resp))) ∧
  (∀ s : State,
    let due := s.flag Reg.MGT_WDOG_ARMED = true ∧ s.flag Reg.MGT_WDOG_EXPIRED = false
    (due → Does .wdogExpire s (fun t => t.getF Reg.MGT_WDOG_EXPIRED = 1 ∧
      t.now = (s.reach (s.stw.kicked + 100000000)).now ∧
      (s.getF (Reg.MGT_IRQ_ROUTE_DEST 71) = 0 → SMap.get (fun _ => false) t.irq.plic 71 = true) ∧
      SameRegs [Reg.MGT_WDOG_EXPIRED] s t ∧ SameMem s t)) ∧
    (¬ due → exec .wdogExpire s = .next s)) ∧
  (∀ (s : State) (w : WriteReq), s.takes w Reg.MGT_STW_CTL_RESTART.off = true → coversLo w.half = true →
    let acts := w.field Reg.MGT_STW_CTL_RESTART = 1 ∧ s.flag Reg.MGT_WDOG_EXPIRED = true
    let boots := s.domHolds 37 = true ∧ s.imageBoots s.staged = true
    (acts → boots → Does (.mgtStwRestart w) s (fun t =>
      let im := s.staged
      t.stw.run = .firmware ∧ t.getF Reg.MGT_WDOG_EXPIRED = 0 ∧ t.getF Reg.MGT_BOOT_STAT_PHASE = 0x16 ∧
      t.getF Reg.MGT_HOST_WMASK = 0x360 ∧ (∀ k, k < 20 → t.param k = paramDefault k) ∧
      t.stw.version = fieldLe im 4 4 ∧ t.stw.svn = fieldLe im 8 4 ∧
      (∀ i, i < codeLen im → SMap.get (fun _ => 0#8) t.stw.sram i = im.getD (32 + i) 0#8) ∧
      t.load = s.load ∧ t.bgw = s.bgw ∧ (∀ n, n < 4 → t.bmState n = s.bmState n ∧ t.resident n = s.resident n) ∧
      SameDoms [] s t ∧ t.now = s.now)) ∧
    (acts → ¬ boots → Does (.mgtStwRestart w) s (fun t => t.stw.run = .halted ∧ t.getF Reg.MGT_BOOT_STAT_ERROR = 6 ∧
      t.getF Reg.MGT_WDOG_EXPIRED = 0 ∧ t.stw.sram = [] ∧ SameMem s t ∧
      SameRegs [Reg.MGT_BOOT_STAT_ERROR, Reg.MGT_WDOG_EXPIRED, Reg.MGT_WDOG_ARMED] s t)) ∧
    (¬ acts → Does (.mgtStwRestart w) s (fun t => t = s.setResp t.resp)))

/-- POWER_ON_RESET, PW_RESET_N, JTAG_RESET, RESET_RELEASE, PCIE_RESET and PE_PERST_N (R510, R527 to R529, R594). What a device
reset keeps of the model's own fields is log entry 63. -/
def Obligations.Resets : Prop :=
  (∀ s : State, Does .powerOnReset s (fun t => t.now = 0 ∧ t.nowFrac = 0 ∧ t.getF Reg.ALM_AON_PERIOD = 2000000000 ∧
    (∀ i, i < 4 → t.getF (Reg.FLT_LAST_DEVICE i) = 0) ∧ t.getF Reg.MGT_RESET_CAUSE = 1 ∧ t.pwr.dev = .reset ∧
    t.pwr.oscEn = false ∧ t.mem = [] ∧ t.flt.pend = [] ∧ t.pipes = [] ∧ t.isl = s.isl ∧ t.otp = s.otp)) ∧
  (∀ s : State,
    (s.pwr.dev ≠ .reset → Does .pwResetN s (fun t => DeviceReset s t 1)) ∧
    (s.pwr.dev = .reset → exec .pwResetN s = .next s) ∧
    (s.debugMode = true → Does .jtagReset s (fun t => DeviceReset s t 3)) ∧
    (s.debugMode = false → exec .jtagReset s = .next s)) ∧
  (∀ (s : State) (src : Fin 4) (dbg : Bool),
    (s.pwr.dev = .reset → Does (.resetRelease src dbg) s (fun t => t.pwr.dev = .waking ∧ t.pwr.oscEn = true ∧
      t.getF Reg.MGT_STRAP_BOOT_SRC = src.val ∧
      (t.flag Reg.MGT_STRAP_DEBUG = true ↔ dbg = true ∧ s.flag Reg.MGT_OTP_STAT_DEBUG_PERMIT = true) ∧
      SameRegs [Reg.MGT_STRAP_BOOT_SRC, Reg.MGT_STRAP_DEBUG] s t ∧ t = (s.setRegs t.regs).setPwr t.pwr)) ∧
    (s.pwr.dev ≠ .reset → exec (.resetRelease src dbg) s = .next s)) ∧
  (∀ s : State,
    (s.pwr.perst = false → Does .pcieReset s (fun t => PcieReset s t ∧ t.pwr = s.pwr)) ∧
    (s.pwr.perst = true → exec .pcieReset s = .next s ∧ exec (.pePerstN true) s = .next s) ∧
    (s.pwr.perst = false → Does (.pePerstN true) s (fun t => PcieReset s t ∧ t.pwr = { s.pwr with perst := true } ∧
      t.getF Reg.PCI_LINK_STAT_UP = 0)) ∧
    Does (.pePerstN false) s (fun t => t = s.setPwr { s.pwr with perst := false }))

/-- BOOT_ROM_START, MGT_BOOT_PCIE_GO and STEWARD_START_SEQUENCE (R531 to R539, Tables 21-5 and 21-6). PHASE takes its number
when the phase begins (log entry 46); the phases of the boot ROM are log entry 62. -/
def Obligations.BootAndStart : Prop :=
  (∀ (s : State) (rom sram otp : Bool),
    (s.stw.run = .held → s.pwr.dev = .active → s.domOn 38 = true →
      ((rom && sram && otp) = false → Does (.bootRomStart rom sram otp) s (fun t => t.stw.run = .halted ∧
        t.getF Reg.MGT_BOOT_STAT_ERROR = (if !rom then 1 else if !sram then 2 else 3) ∧ t.getF Reg.MGT_BOOT_STAT_PHASE = 1 ∧
        SameRegs [Reg.MGT_BOOT_STAT_ERROR, Reg.MGT_BOOT_STAT_PHASE] s t ∧ t.flt = s.flt)) ∧
      ((rom && sram && otp) = true → s.dom 41 = 0 → s.requestCauses 41 3 = [] → Does (.bootRomStart rom sram otp) s (fun t =>
        t.stw.run = .rom ∧ t.getF Reg.MGT_BOOT_STAT_PHASE = 2 ∧ t.transOf 41 = some 3 ∧ t.flt = s.flt))) ∧
    (s.stw.run = .rom → s.domOn 41 = true → s.dom 37 = 0 → s.requestCauses 37 3 = [] →
      Does (.bootRomStart rom sram otp) s (fun t => t.stw.run = .rom ∧ t.transOf 37 = some 3 ∧ t.flt = s.flt)) ∧
    (s.stw.run = .rom → s.domOn 41 = true → s.domOn 37 = true →
      let src := s.getF Reg.MGT_STRAP_BOOT_SRC
      let first := fieldLe s.boardRecord 4 1 % 2
      let pcieOk := s.flag Reg.MGT_OTP_STAT_PCIE_BOOT_EN = true
      let pcie := src = 1 ∨ (src = 2 ∧ s.bankBoots first = false ∧ s.bankBoots (1 - first) = false)
      (src ≠ 1 → s.bankBoots first = true → Does (.bootRomStart rom sram otp) s (fun t =>
        Started t first (s.bankImage first) ∧ t.rdBytes stagingKey (s.bankImage first).length = s.bankImage first)) ∧
      (src ≠ 1 → s.bankBoots first = false → s.bankBoots (1 - first) = true → Does (.bootRomStart rom sram otp) s (fun t =>
        Started t (1 - first) (s.bankImage (1 - first)) ∧
        t.rdBytes stagingKey (s.bankImage (1 - first)).length = s.bankImage (1 - first))) ∧
      (src ≠ 1 → src ≠ 2 → s.bankBoots first = false → s.bankBoots (1 - first) = false →
        Does (.bootRomStart rom sram otp) s (fun t => t.stw.run = .halted ∧ t.getF Reg.MGT_BOOT_STAT_ERROR = 5)) ∧
      (pcie → pcieOk → Does (.bootRomStart rom sram otp) s (fun t => t.stw.run = .pcie ∧
        t.getF Reg.MGT_BOOT_STAT_PHASE = 6 ∧ bit1 (t.getF Reg.MGT_HOST_WMASK) 0 = true)) ∧
      (pcie → ¬ pcieOk → Does (.bootRomStart rom sram otp) s (fun t => t.stw.run = .halted ∧
        t.getF Reg.MGT_BOOT_STAT_ERROR = 5))) ∧
    (s.stw.run = .firmware ∨ s.stw.run = .halted ∨ s.stw.run = .pcie → exec (.bootRomStart rom sram otp) s = .next s)) ∧
  (∀ (s : State) (w : WriteReq), s.takes w Reg.MGT_BOOT_PCIE_LEN.off = true → w.half = .both →
    let n := w.field Reg.MGT_BOOT_PCIE_LEN
    let im := s.rdBytes stagingKey n
    let go := w.field Reg.MGT_BOOT_PCIE_GO = 1 ∧ s.stw.run = .pcie
    (go → n ≤ 0x400000 → s.imageBoots im = true → Does (.mgtBootPcieGo w) s (fun t => Started t 0 im ∧ SameMem s t)) ∧
    (go → 0x400000 < n ∨ s.imageBoots im = false → Does (.mgtBootPcieGo w) s (fun t => t.getF Reg.MGT_BOOT_STAT_ERROR = 4 ∧
      t.getF Reg.MGT_BOOT_STAT_PHASE = 6 ∧ t.stw = s.stw ∧ SameMem s t)) ∧
    (¬ go → Does (.mgtBootPcieGo w) s (fun t => t.getF Reg.MGT_BOOT_PCIE_LEN = n ∧ SameRegs [Reg.MGT_BOOT_PCIE_LEN] s t ∧
      OnlyRegs s t))) ∧
  (∀ s : State, s.stw.run = .firmware →
    let phase := s.getF Reg.MGT_BOOT_STAT_PHASE
    (phase = 0x08 → s.domHolds 37 = true → s.flag Reg.FLT_CTL_EN = false →
      6 ≤ s.getF Reg.FLT_Q_LOG2 ∧ s.getF Reg.FLT_Q_LOG2 ≤ 16 → Does .stewardStartSequence s (fun t =>
      t.getF Reg.MGT_BOOT_STAT_PHASE = 0x10 ∧ t.getF Reg.FLT_Q_BASE = 0x3001B00000 ∧ t.getF Reg.FLT_Q_LOG2 = 15 ∧
      t.flag Reg.FLT_CTL_EN = true ∧ t.getF Reg.FLT_Q_WR = 0)) ∧
    (phase = 0x10 → Does .stewardStartSequence s (fun t => t.getF Reg.MGT_BOOT_STAT_PHASE = 0x11 ∧
      TurningOn s t [39, 40, 42] ∧ SameMem s t)) ∧
    (phase = 0x11 → s.stw.begun = 0 → s.settled [39, 40, 42] = true → Does .stewardStartSequence s (fun t =>
      TurningOn s t (s.stacks.map (fun m => 43 + m)) ∧ t.stw.begun = 1)) ∧
    (phase = 0x11 → s.stw.begun = 1 → s.settled (s.stacks.map (fun m => 43 + m)) = true →
      Does .stewardStartSequence s (fun t => t.stw.begun = 2 ∧ t.getF Reg.MGT_BOOT_STAT_PHASE = 0x11)) ∧
    (phase = 0x11 → 2 ≤ s.stw.begun → (∀ g, g < 64 → s.inTraining g = false) →
      let gs := (s.stacks.filter (fun m => s.domOn (43 + m))).flatMap chansOf
      let pass := fun (g : Nat) => s.flag (Reg.MC_TRAIN_STAT_PASS (g / 16) (g % 16))
      Does .stewardStartSequence s (fun t => t.getF Reg.MGT_BOOT_STAT_PHASE = 0x12 ∧
        ((∀ g ∈ gs, pass g = false) → t.getF Reg.MGT_BOOT_STAT_ERROR = 7 ∧ t.committed = s.committed) ∧
        ((∃ g ∈ gs, pass g = true) → (∃ g ∈ gs, pass g = false) → s.brd 5 1 = 0 →
          t.getF Reg.MGT_BOOT_STAT_ERROR = 8 ∧ t.committed = s.committed))) ∧
    (phase = 0x12 → Does .stewardStartSequence s (fun t => t.getF Reg.MGT_BOOT_STAT_PHASE = 0x13 ∧
      TurningOn s t s.testedUnits ∧ SameMem s t)) ∧
    (phase = 0x13 → s.stw.begun = 0 → s.settled s.testedUnits = true → Does .stewardStartSequence s (fun t =>
      t.stw.begun = 1 ∧ ∀ u ∈ s.testedUnits, s.domOn u = true → (∀ n, n < 4 → s.resident n = false) → t.testing u = true)) ∧
    (phase = 0x13 → 2 ≤ s.stw.begun → s.settled s.testedUnits = true → Does .stewardStartSequence s (fun t =>
      t.getF Reg.MGT_BOOT_STAT_PHASE = 0x14 ∧ TurningOn s t [54] ∧
      ((∀ n, n < 4 → s.resident n = false) → (∀ l, l < 8 → s.flag (Reg.QSK_L_CTL_EN l) = false) →
        t.getF Reg.MGT_DEVNUM = s.brd 6 1 % 64))) ∧
    (phase = 0x14 → 1 ≤ s.stw.begun →
      (∀ l, l < 8 → s.flag (Reg.QSK_L_CTL_EN l) = true → s.linkUp l = true ∨ (s.qlink l).failed = true) →
      Does .stewardStartSequence s (fun t => t.getF Reg.MGT_BOOT_STAT_PHASE = 0x15 ∧ TurningOn s t [33, 34, 35, 36] ∧
        t.getF Reg.MGT_HOST_WMASK = s.getF Reg.MGT_HOST_WMASK ||| 0x360)) ∧
    (phase = 0x15 → s.settled [33, 34, 35, 36] = true → Does .stewardStartSequence s (fun t =>
      t.getF Reg.MGT_BOOT_STAT_PHASE = 0x16 ∧ (∀ k, k < 20 → t.param k = paramDefault k) ∧
      (fieldLe (s.norBytes 0x1000000 32) 0 4 ≠ 0x31545348 ∨ 0x100000 < fieldLe (s.norBytes 0x1000000 32) 4 4 →
        t.getF Reg.MGT_BOOT_STAT_ERROR = 9 ∧ t.stw.harts = s.stw.harts ∧
        (s.hearsEvents = true → Told s t 0x80 (leBytes 1 0 ++ (leBytes 4 s.stw.version).drop 1))) ∧
      (fieldLe (s.norBytes 0x1000000 32) 0 4 = 0x31545348 → fieldLe (s.norBytes 0x1000000 32) 4 4 ≤ 0x100000 →
        s.flag (Reg.MGT_MBX_CTL_EN 0) = false → s.flag (Reg.MGT_MBX_CTL_EN 1) = false →
        ∀ i, i < fieldLe (s.norBytes 0x1000000 32) 4 4 → t.rdByte (hostKey i) = (s.norBytes (0x1000020 + i) 1).headD 0#8))) ∧
    (phase ∉ [0x08, 0x10, 0x11, 0x12, 0x13, 0x14, 0x15] → exec .stewardStartSequence s = .next s)) ∧
  (∀ s : State, s.stw.run ≠ .firmware → exec .stewardStartSequence s = .next s)

/-- CC_BIST_GO, SOL_BIST_GO, BIST_DONE, MGT_OTP_REVOKE and MGT_HCM_LOCK (R530, R535, R538, R573). -/
def Obligations.TestsAndFuses : Prop :=
  (∀ (s : State) (c : Fin 32) (w : WriteReq), s.takesAct w (Reg.CC_BIST_GO c).off = true → coversLo w.half = true →
    let go := w.field (Reg.CC_BIST_GO c) = 1 ∧ s.corePlaced c = false
    (go → Does (.ccBistGo c w) s (fun t => t.testing c = true ∧ t.getF (Reg.CC_BIST_DONE c) = 0 ∧
      t.getF (Reg.CC_BIST_PASS c) = 0 ∧ SameRegs [Reg.CC_BIST_DONE c, Reg.CC_BIST_PASS c] s t ∧
      t = ((s.setRegs t.regs).setStw t.stw).setResp t.resp)) ∧
    (¬ go → Does (.ccBistGo c w) s (fun t => t = s.setResp t.resp))) ∧
  (∀ (s : State) (w : WriteReq), s.takesAct w Reg.SOL_BIST_GO.off = true → coversLo w.half = true →
    let go := w.field Reg.SOL_BIST_GO = 1 ∧ s.heldByPipe 32 = false
    (go → Does (.solBistGo w) s (fun t => t.testing 32 = true ∧ t.getF Reg.SOL_BIST_DONE = 0 ∧ t.getF Reg.SOL_BIST_PASS = 0 ∧
      SameRegs [Reg.SOL_BIST_DONE, Reg.SOL_BIST_PASS] s t ∧ t = ((s.setRegs t.regs).setStw t.stw).setResp t.resp)) ∧
    (¬ go → Does (.solBistGo w) s (fun t => t = s.setResp t.resp))) ∧
  (∀ (s : State) (u : Fin 33) (pass : Bool), s.testing u = true → s.domOn u = true → s.room = true →
    (u.val < 32 → Does (.bistDone u pass) s (fun t => t.testing u = false ∧ t.getF (Reg.CC_BIST_DONE u) = 1 ∧
      t.getF (Reg.CC_BIST_PASS u) = (if pass then 1 else s.getF (Reg.CC_BIST_PASS u)) ∧
      (∀ a, a < 0x1000000 → t.rdByte (storeKey u a) = 0) ∧ (∀ k, k < 256 → t.tile u k = {}) ∧
      (∀ j, j < 16 → t.slotState u j = 0) ∧ (∀ k, k < 16 → t.getF (Reg.CC_TALLY u k) = 0) ∧
      (pass = false → bit1 (t.getF Reg.MGT_CORE_LOST) u = true ∧
        (bit1 (s.getF Reg.MGT_CORE_LOST) u = false → Raised s t 3 0x021 (uCore u) [(4, 4)])) ∧
      (pass = true → t.flt = s.flt))) ∧
    (u.val = 32 → Does (.bistDone u pass) s (fun t => t.testing 32 = false ∧ t.getF Reg.SOL_BIST_DONE = 1 ∧
      t.getF Reg.SOL_BIST_PASS = (if pass then 1 else s.getF Reg.SOL_BIST_PASS) ∧ t.sol.wmem = [] ∧ t.learn.trace = [] ∧
      (pass = false → t.sol.lost = true ∧ (s.sol.lost = false → Raised s t 3 0x033 uSol [(4, 1)])) ∧
      (pass = true → t.flt = s.flt)))) ∧
  (∀ (s : State) (u : Fin 33) (pass : Bool), s.testing u = false → exec (.bistDone u pass) s = .next s) ∧
  (∀ (s : State) (w : WriteReq), s.takes w Reg.MGT_OTP_REVOKE_GO.off = true → w.half = .both →
    let k := w.field Reg.MGT_OTP_REVOKE_SLOT
    let f := if w.field Reg.MGT_OTP_REVOKE_KIND = 1 then Reg.MGT_OTP_STAT_WV_REVOKED else Reg.MGT_OTP_STAT_STW_REVOKED
    (w.field Reg.MGT_OTP_REVOKE_GO = 1 → Does (.mgtOtpRevoke w) s (fun t => t.getF f = s.getF f ||| 2 ^ k ∧ SameRegs [f] s t ∧
      OnlyRegs s t)) ∧
    (w.field Reg.MGT_OTP_REVOKE_GO = 0 → Does (.mgtOtpRevoke w) s (fun t => t = s.setResp t.resp))) ∧
  (∀ (s : State) (w : WriteReq), s.takes w Reg.MGT_HCM_LOCK.off = true → coversLo w.half = true →
    Does (.mgtHcmLock w) s (fun t =>
      t.getF Reg.MGT_HCM_LOCK = (if w.field Reg.MGT_HCM_LOCK = 1 then 1 else s.getF Reg.MGT_HCM_LOCK) ∧
      SameRegs [Reg.MGT_HCM_LOCK] s t ∧ OnlyRegs s t))

/-- A step runs the command at the front of the queue with the queue's rest; on an empty queue time passes by one tick (the
model's choice, log entry 47). -/
def Obligations.StepRunsFrontCommand : Prop :=
  (∀ (s : State) (c : Instr) (cs : List Instr), s.pending = c :: cs → step s = exec c (s.setPending cs)) ∧
  (∀ s : State, s.pending = [] → s.alm.crystal = false → ∃ t, step s = .next t ∧ t.alm = (s.ticks 1).alm ∧
    t.pending = [] ∧ t.regs = s.regs ∧ t.mem = s.mem) ∧
  (∀ s : State, s.pending = [] → s.alm.crystal = true → ∃ t, step s = .next t ∧
    t.alm.alm = s.alm.alm + s.getF Reg.ALM_AON_PERIOD * unitFrac ∧ t.pending = [] ∧ t.regs = s.regs ∧ t.mem = s.mem)

/-- Every command completes in every state: none faults, none is refused, and none touches the queue. -/
def Obligations.EveryCommandCompletes : Prop :=
  ∀ (c : Instr) (s : State), ∃ t, exec c s = .next t ∧ t.pending = s.pending

/-- Reset: what the spec states of the state after a device reset, and the canonical forms (R501, R528, R544, R557). -/
def Obligations.ResetState : Prop :=
  Sound State.reset ∧ State.reset.pending = [] ∧ State.reset.mem = [] ∧ State.reset.flt.pend = [] ∧
  State.reset.pipes = [] ∧ State.reset.streams = [] ∧
  (∀ d, d < 57 → State.reset.dom d = (if d = 38 then 3 else 0) ∧
    State.reset.getF (Reg.PWR_DOM_REQ_STATE d) = (if d = 38 then 3 else 0)) ∧
  State.reset.getF Reg.MGT_HOST_WMASK = 0 ∧ State.reset.getF Reg.MGT_CORE_LOST = 0 ∧
  State.reset.getF Reg.ALM_AON_PERIOD = 2000000000 ∧ State.reset.getF Reg.MGT_HB_CFG_MISS_LIMIT = 3 ∧
  (∀ c, c < 32 → State.reset.getF (Reg.PWR_CC_CLK_N c) = 128 ∧ State.reset.getF (Reg.PWR_CC_VSET c) = 850 ∧
    State.reset.getF (Reg.PWR_CC_AVS_LOW c) = 40 ∧ State.reset.getF (Reg.PWR_CC_AVS_HIGH c) = 80 ∧
    State.reset.getF (Reg.PWR_CC_IDLE_DELAY c) = 500 ∧ State.reset.getF (Reg.PWR_CC_IDLE_LEAD c) = 2000 ∧
    State.reset.getF (Reg.PWR_CC_FLOOR c) = 0) ∧
  (∀ n, n < 4 → State.reset.bmState n = 0 ∧ State.reset.getF (Reg.WVL_PIPE_STATE n) = 0)

/-- A refused register write has no effect but the count and the first refused address, and gives a host core an access fault, while one
from PCIe is just discarded; a write to a domain that holds no
state is discarded (R502, R545). -/
def Obligations.RefusedAndDeadWrites : Prop :=
  (∀ (s : State) (w : WriteReq) (off : Nat) (i : Instr), WriteCommand w off i →
    granted s w.agent w.half off = false → Does i s (fun t =>
      t.getF Reg.MGT_HOST_DENY_COUNT = min 65535 (s.getF Reg.MGT_HOST_DENY_COUNT + 1) ∧
      (s.denyArmed = true → t.getF Reg.MGT_HOST_DENY_ADDR = 0x3F00000000 + off + (if w.half = .hi then 4 else 0)) ∧
      (s.denyArmed = false → t.getF Reg.MGT_HOST_DENY_ADDR = s.getF Reg.MGT_HOST_DENY_ADDR) ∧
      t.resp = some { status := if w.agent = .pcie then .ok else .accessFault, value := 0#64 } ∧
      SameRegs [Reg.MGT_HOST_DENY_COUNT, Reg.MGT_HOST_DENY_ADDR] s t ∧
      t = ((s.setRegs t.regs).setResp t.resp).setDenyArmed false)) ∧
  (∀ (s : State) (w : WriteReq) (off : Nat) (i : Instr), WriteCommand w off i →
    granted s w.agent w.half off = true → s.regLive off = false →
    exec i s = .next (s.setResp (some { status := .ok, value := 0#64 }))) ∧
  (∀ (s : State) (a : Agent) (off : Fin 0x4000000) (n : Fin 4097) (seen : EccSeen), 1 ≤ n.val → off.val + n.val ≤ 0x4000000 →
    s.getF Reg.MGT_DEVNUM < 64 →
    Does (.serviceAccess a (BitVec.ofNat 54 (s.getF Reg.MGT_DEVNUM * 2 ^ 48 + 0x3F00000000 + off.val)) (.plain (.read n)) seen) s (fun t =>
      (t.resp.any (fun r => r.status == .ok)) = true))

/-- Which agent may write what (R501, R524, R546, Table 20-1). -/
def Obligations.HostWriteGrants : Prop :=
  (∀ (s : State) (h : Half) (a : Agent), a = .pcie ∨ (∃ k, a = .hart k) →
    (∀ off ∈ [Reg.MGT_HOST_WMASK.off, Reg.SOL_LRN_SEED_ROW.off, Reg.FLT_CTL_EN.off, Reg.FLT_Q_BASE.off, Reg.FLT_Q_LOG2.off,
        (Reg.FLT_IRQ_CFG_CLASS_EN 0).off, Reg.ALM_RATE.off, Reg.ALM_SLEW.off, Reg.ALM_STEP_FRAC.off, Reg.MGT_HBM_CTL_COMMIT.off],
      granted s a h off = false) ∧
    (∀ m, m < 4 → granted s a h (Reg.MC_CH_MAP_ACTIVE m).off = false) ∧
    (coversLo h = true → granted s a h (Reg.ETH_P_CFG_MODE 0).off = false) ∧
    granted s a h Reg.FLT_Q_HRD.off = true ∧
    (∀ b, b < 64 → granted s a h (Reg.MGT_BAR_ARRIVE b).off = true) ∧
    (∀ q, q < 256 → ∀ k, k < 4 → granted s a h (Reg.MGT_MQ_PUSH q k).off = true) ∧
    granted s a h Reg.MGT_STW_CTL_RESTART.off = s.flag Reg.MGT_WDOG_EXPIRED ∧
    (∀ off ∈ [Reg.ING_EVR_CTL_EN.off, (Reg.ETH_P_EYE_MIN 0).off, (Reg.ALM_BM_PERIOD 0).off, (Reg.PWR_CC_CLK_N 0).off,
        Reg.WVL_REQ_ADDR.off, Reg.SOL_LRN_CFG_EN.off, (Reg.CC_TALLY_CTL_SNAP 0).off],
      granted s a h off = bit1 (s.getF Reg.MGT_HOST_WMASK) (wmaskBit off)) ∧
    (∀ f ∈ [Reg.MGT_MBX_CTL_EN, Reg.MGT_MBX_REQBASE, Reg.MGT_MBX_RSPBASE, Reg.MGT_MBX_REQ_WR, Reg.MGT_MBX_RSP_RD],
      granted s a h (f 0).off = decide (a ≠ .pcie) ∧ granted s a h (f 1).off = decide (a = .pcie)) ∧
    (∀ w, w < 8 → granted s a h (Reg.PCI_WIN_EN w).off = decide (a = .pcie))) ∧
  (∀ (s : State) (h : Half) (off : Nat), isPciWin off = false → granted s .steward h off = true)

/-- Every step keeps the machine sound, from every sound state, reached or not. -/
def Obligations.EveryStepKeepsSoundness : Prop :=
  ∀ s t : State, Sound s → step s = .next t → Sound t
end

