-- ==== Sys2Proof/Laws/SMap.lean ====
section
/-!
SUPPORT. Laws of sparse maps: what a read after a write gives, and that every operation keeps the canonical form.
-/

namespace Sys2Proof

variable {α : Type}

theorem SMap.get_filter_ne (d : Nat → α) (m : List (Nat × α)) (k k' : Nat) (h : k' ≠ k) :
    SMap.get d (m.filter (fun e => e.1 != k)) k' = SMap.get d m k' := by
  induction m with
  | nil => rfl
  | cons e m ih =>
    by_cases he : e.1 = k
    · have : e.1 ≠ k' := fun x => h (x ▸ he)
      simp [he, SMap.get, ih]
      intro hk; exact absurd hk.symm h
    · by_cases hk : e.1 = k'
      · simp [SMap.get, hk, h]
      · simp [he, SMap.get, hk, ih]

theorem SMap.get_filter_self (d : Nat → α) (m : List (Nat × α)) (k : Nat) :
    SMap.get d (m.filter (fun e => e.1 != k)) k = d k := by
  induction m with
  | nil => rfl
  | cons e m ih => by_cases he : e.1 = k <;> simp [he, SMap.get, ih]

theorem SMap.get_ins_self (d : Nat → α) (m : List (Nat × α)) (k : Nat) (v : α) (h : ∀ e ∈ m, e.1 ≠ k) :
    SMap.get d (SMap.ins k v m) k = v := by
  induction m with
  | nil => simp [SMap.ins, SMap.get]
  | cons e m ih =>
    unfold SMap.ins
    split
    · simp [SMap.get]
    · simp [SMap.get, h e (by simp), ih (fun e he => h e (by simp [he]))]

theorem SMap.get_ins_ne (d : Nat → α) (m : List (Nat × α)) (k k' : Nat) (v : α) (h : k' ≠ k) :
    SMap.get d (SMap.ins k v m) k' = SMap.get d m k' := by
  induction m with
  | nil => simp [SMap.ins, SMap.get, Ne.symm h]
  | cons e m ih =>
    unfold SMap.ins
    split
    · simp [SMap.get, Ne.symm h]
    · simp [SMap.get, ih]

/-- A read after a write of the same key gives the value written. -/
@[simp] theorem SMap.get_put_self [DecidableEq α] (d : Nat → α) (m : List (Nat × α)) (k : Nat) (v : α) :
    SMap.get d (SMap.put d m k v) k = v := by
  unfold SMap.put
  split
  · rename_i h; rw [SMap.get_filter_self, h]
  · apply SMap.get_ins_self; intro e he; simpa using (List.mem_filter.mp he).2

/-- A write leaves every other key alone. -/
theorem SMap.get_put_ne [DecidableEq α] (d : Nat → α) (m : List (Nat × α)) (k k' : Nat) (v : α) (h : k' ≠ k) :
    SMap.get d (SMap.put d m k v) k' = SMap.get d m k' := by
  unfold SMap.put
  split
  · exact SMap.get_filter_ne d m k k' h
  · rw [SMap.get_ins_ne d _ k k' v h, SMap.get_filter_ne d m k k' h]

theorem SMap.wf_filter [DecidableEq α] (d : Nat → α) (m : List (Nat × α)) (p : Nat × α → Bool) (h : SMap.wf d m = true) :
    SMap.wf d (m.filter p) = true := by
  induction m with
  | nil => rfl
  | cons e m ih =>
    simp only [SMap.wf, Bool.and_eq_true, List.all_eq_true, decide_eq_true_eq] at h
    by_cases hp : p e = true
    · simp only [List.filter_cons, hp, if_true, SMap.wf, Bool.and_eq_true, List.all_eq_true, decide_eq_true_eq]
      exact ⟨⟨h.1.1, fun x hx => h.1.2 x (List.mem_filter.mp hx).1⟩, ih h.2⟩
    · simp only [List.filter_cons, hp]; exact ih h.2

theorem SMap.mem_ins (m : List (Nat × α)) (k : Nat) (v : α) (e : Nat × α) :
    e ∈ SMap.ins k v m ↔ e = (k, v) ∨ e ∈ m := by
  induction m with
  | nil => simp [SMap.ins]
  | cons x m ih =>
    unfold SMap.ins
    split
    · simp
    · simp [ih]; tauto

theorem SMap.wf_ins [DecidableEq α] (d : Nat → α) (m : List (Nat × α)) (k : Nat) (v : α) (hv : v ≠ d k)
    (hk : ∀ e ∈ m, e.1 ≠ k) (h : SMap.wf d m = true) : SMap.wf d (SMap.ins k v m) = true := by
  induction m with
  | nil => simp [SMap.ins, SMap.wf, hv]
  | cons x m ih =>
    have h0 := h
    simp only [SMap.wf, Bool.and_eq_true, List.all_eq_true, decide_eq_true_eq] at h
    unfold SMap.ins
    split
    · rename_i hlt
      simp only [SMap.wf, Bool.and_eq_true, List.all_eq_true, decide_eq_true_eq]
      refine ⟨⟨hv, ?_⟩, h⟩
      intro e he
      rcases List.mem_cons.mp he with rfl | he
      · exact hlt
      · exact Nat.lt_trans hlt (h.1.2 e he)
    · rename_i hlt
      have hx : x.1 < k := by
        have := hk x (by simp)
        simp only [Nat.not_lt] at hlt; omega
      simp only [SMap.wf, Bool.and_eq_true, List.all_eq_true, decide_eq_true_eq]
      refine ⟨⟨h.1.1, ?_⟩, ih (fun e he => hk e (by simp [he])) h.2⟩
      intro e he
      rcases (SMap.mem_ins m k v e).mp he with rfl | he
      · exact hx
      · exact h.1.2 e he

/-- A write keeps the canonical form. -/
theorem SMap.wf_put [DecidableEq α] (d : Nat → α) (m : List (Nat × α)) (k : Nat) (v : α) (h : SMap.wf d m = true) :
    SMap.wf d (SMap.put d m k v) = true := by
  unfold SMap.put
  split
  · exact SMap.wf_filter d m _ h
  · rename_i hv
    refine SMap.wf_ins d _ k v hv ?_ (SMap.wf_filter d m _ h)
    intro e he; simpa using (List.mem_filter.mp he).2

/-- Dropping keys keeps the canonical form. -/
theorem SMap.wf_drop [DecidableEq α] (d : Nat → α) (p : Nat → Bool) (m : List (Nat × α)) (h : SMap.wf d m = true) :
    SMap.wf d (SMap.drop p m) = true := SMap.wf_filter d m _ h

/-- What a dropped key reads, and what the others read. -/
theorem SMap.get_drop (d : Nat → α) (p : Nat → Bool) (m : List (Nat × α)) (k : Nat) :
    SMap.get d (SMap.drop p m) k = if p k then d k else SMap.get d m k := by
  unfold SMap.drop
  induction m with
  | nil => simp [SMap.get]
  | cons e m ih =>
    by_cases hp : p e.1 = true
    · simp only [List.filter_cons, hp, Bool.not_true]
      by_cases hk : e.1 = k
      · subst hk; simpa [hp, SMap.get] using ih
      · simpa [SMap.get, hk] using ih
    · by_cases hk : e.1 = k
      · subst hk; simp [hp, SMap.get]
      · simp [hp, SMap.get, hk, ih]

/-- In canonical maps, reads determine the list. -/
theorem SMap.get_of_lt (d : Nat → α) (m : List (Nat × α)) (k : Nat) (h : ∀ e ∈ m, k < e.1) : SMap.get d m k = d k := by
  induction m with
  | nil => rfl
  | cons e m ih =>
    have : e.1 ≠ k := fun x => by have := h e (by simp); omega
    simp [SMap.get, this, ih (fun e he => h e (by simp [he]))]

end Sys2Proof
end

