-- ==== Sys2Proof/Laws/State.lean ====
section
/-!
SUPPORT. One lemma per field per update of State, each true by rfl, so that no proof unfolds a record update.
-/

namespace Sys2Proof.Machine

variable (s : State)

@[simp] theorem State.setRegs_pending (v : List (Nat × W64)) : (s.setRegs v).pending = s.pending := rfl
@[simp] theorem State.setRegs_regs (v : List (Nat × W64)) : (s.setRegs v).regs = v := rfl
@[simp] theorem State.setRegs_mem (v : List (Nat × W64)) : (s.setRegs v).mem = s.mem := rfl
@[simp] theorem State.setRegs_ecc (v : List (Nat × W64)) : (s.setRegs v).ecc = s.ecc := rfl
@[simp] theorem State.setRegs_alm (v : List (Nat × W64)) : (s.setRegs v).alm = s.alm := rfl
@[simp] theorem State.setRegs_bm (v : List (Nat × W64)) : (s.setRegs v).bm = s.bm := rfl
@[simp] theorem State.setRegs_flt (v : List (Nat × W64)) : (s.setRegs v).flt = s.flt := rfl
@[simp] theorem State.setRegs_pwr (v : List (Nat × W64)) : (s.setRegs v).pwr = s.pwr := rfl
@[simp] theorem State.setRegs_irq (v : List (Nat × W64)) : (s.setRegs v).irq = s.irq := rfl
@[simp] theorem State.setRegs_pipes (v : List (Nat × W64)) : (s.setRegs v).pipes = s.pipes := rfl
@[simp] theorem State.setRegs_streams (v : List (Nat × W64)) : (s.setRegs v).streams = s.streams := rfl
@[simp] theorem State.setRegs_ep (v : List (Nat × W64)) : (s.setRegs v).ep = s.ep := rfl
@[simp] theorem State.setRegs_eth (v : List (Nat × W64)) : (s.setRegs v).eth = s.eth := rfl
@[simp] theorem State.setRegs_denyArmed (v : List (Nat × W64)) : (s.setRegs v).denyArmed = s.denyArmed := rfl
@[simp] theorem State.setRegs_resp (v : List (Nat × W64)) : (s.setRegs v).resp = s.resp := rfl
@[simp] theorem State.setRegs_free (v : List (Nat × W64)) : (s.setRegs v).free = s.free := rfl
@[simp] theorem State.setRegs_out (v : List (Nat × W64)) : (s.setRegs v).out = s.out := rfl
@[simp] theorem State.setRegs_hbm (v : List (Nat × W64)) : (s.setRegs v).hbm = s.hbm := rfl
@[simp] theorem State.setRegs_carry (v : List (Nat × W64)) : (s.setRegs v).carry = s.carry := rfl
@[simp] theorem State.setRegs_tiles (v : List (Nat × W64)) : (s.setRegs v).tiles = s.tiles := rfl
@[simp] theorem State.setRegs_edges (v : List (Nat × W64)) : (s.setRegs v).edges = s.edges := rfl
@[simp] theorem State.setRegs_gws (v : List (Nat × W64)) : (s.setRegs v).gws = s.gws := rfl
@[simp] theorem State.setRegs_spine (v : List (Nat × W64)) : (s.setRegs v).spine = s.spine := rfl
@[simp] theorem State.setRegs_spineBad (v : List (Nat × W64)) : (s.setRegs v).spineBad = s.spineBad := rfl
@[simp] theorem State.setRegs_seqs (v : List (Nat × W64)) : (s.setRegs v).seqs = s.seqs := rfl
@[simp] theorem State.setRegs_cores (v : List (Nat × W64)) : (s.setRegs v).cores = s.cores := rfl
@[simp] theorem State.setRegs_threads (v : List (Nat × W64)) : (s.setRegs v).threads = s.threads := rfl
@[simp] theorem State.setRegs_vtCopy (v : List (Nat × W64)) : (s.setRegs v).vtCopy = s.vtCopy := rfl
@[simp] theorem State.setRegs_sync (v : List (Nat × W64)) : (s.setRegs v).sync = s.sync := rfl
@[simp] theorem State.setRegs_sol (v : List (Nat × W64)) : (s.setRegs v).sol = s.sol := rfl
@[simp] theorem State.setRegs_qsk (v : List (Nat × W64)) : (s.setRegs v).qsk = s.qsk := rfl
@[simp] theorem State.setRegs_wires (v : List (Nat × W64)) : (s.setRegs v).wires = s.wires := rfl
@[simp] theorem State.setRegs_flits (v : List (Nat × W64)) : (s.setRegs v).flits = s.flits := rfl
@[simp] theorem State.setRegs_rbufs (v : List (Nat × W64)) : (s.setRegs v).rbufs = s.rbufs := rfl
@[simp] theorem State.setRegs_fstr (v : List (Nat × W64)) : (s.setRegs v).fstr = s.fstr := rfl
@[simp] theorem State.setRegs_codec (v : List (Nat × W64)) : (s.setRegs v).codec = s.codec := rfl
@[simp] theorem State.setRegs_reqs (v : List (Nat × W64)) : (s.setRegs v).reqs = s.reqs := rfl
@[simp] theorem State.setRegs_nextReq (v : List (Nat × W64)) : (s.setRegs v).nextReq = s.nextReq := rfl
@[simp] theorem State.setRegs_held (v : List (Nat × W64)) : (s.setRegs v).held = s.held := rfl
@[simp] theorem State.setRegs_load (v : List (Nat × W64)) : (s.setRegs v).load = s.load := rfl
@[simp] theorem State.setRegs_unitGw (v : List (Nat × W64)) : (s.setRegs v).unitGw = s.unitGw := rfl
@[simp] theorem State.setRegs_otp (v : List (Nat × W64)) : (s.setRegs v).otp = s.otp := rfl
@[simp] theorem State.setRegs_bgw (v : List (Nat × W64)) : (s.setRegs v).bgw = s.bgw := rfl
@[simp] theorem State.setRegs_isl (v : List (Nat × W64)) : (s.setRegs v).isl = s.isl := rfl
@[simp] theorem State.setRegs_learn (v : List (Nat × W64)) : (s.setRegs v).learn = s.learn := rfl
@[simp] theorem State.setRegs_stw (v : List (Nat × W64)) : (s.setRegs v).stw = s.stw := rfl
@[simp] theorem State.setRegs_ev (v : List (Nat × W64)) : (s.setRegs v).ev = s.ev := rfl
@[simp] theorem State.setMem_pending (v : List Host.Cell) : (s.setMem v).pending = s.pending := rfl
@[simp] theorem State.setMem_regs (v : List Host.Cell) : (s.setMem v).regs = s.regs := rfl
@[simp] theorem State.setMem_mem (v : List Host.Cell) : (s.setMem v).mem = v := rfl
@[simp] theorem State.setMem_ecc (v : List Host.Cell) : (s.setMem v).ecc = s.ecc := rfl
@[simp] theorem State.setMem_alm (v : List Host.Cell) : (s.setMem v).alm = s.alm := rfl
@[simp] theorem State.setMem_bm (v : List Host.Cell) : (s.setMem v).bm = s.bm := rfl
@[simp] theorem State.setMem_flt (v : List Host.Cell) : (s.setMem v).flt = s.flt := rfl
@[simp] theorem State.setMem_pwr (v : List Host.Cell) : (s.setMem v).pwr = s.pwr := rfl
@[simp] theorem State.setMem_irq (v : List Host.Cell) : (s.setMem v).irq = s.irq := rfl
@[simp] theorem State.setMem_pipes (v : List Host.Cell) : (s.setMem v).pipes = s.pipes := rfl
@[simp] theorem State.setMem_streams (v : List Host.Cell) : (s.setMem v).streams = s.streams := rfl
@[simp] theorem State.setMem_ep (v : List Host.Cell) : (s.setMem v).ep = s.ep := rfl
@[simp] theorem State.setMem_eth (v : List Host.Cell) : (s.setMem v).eth = s.eth := rfl
@[simp] theorem State.setMem_denyArmed (v : List Host.Cell) : (s.setMem v).denyArmed = s.denyArmed := rfl
@[simp] theorem State.setMem_resp (v : List Host.Cell) : (s.setMem v).resp = s.resp := rfl
@[simp] theorem State.setMem_free (v : List Host.Cell) : (s.setMem v).free = s.free := rfl
@[simp] theorem State.setMem_out (v : List Host.Cell) : (s.setMem v).out = s.out := rfl
@[simp] theorem State.setMem_hbm (v : List Host.Cell) : (s.setMem v).hbm = s.hbm := rfl
@[simp] theorem State.setMem_carry (v : List Host.Cell) : (s.setMem v).carry = s.carry := rfl
@[simp] theorem State.setMem_tiles (v : List Host.Cell) : (s.setMem v).tiles = s.tiles := rfl
@[simp] theorem State.setMem_edges (v : List Host.Cell) : (s.setMem v).edges = s.edges := rfl
@[simp] theorem State.setMem_gws (v : List Host.Cell) : (s.setMem v).gws = s.gws := rfl
@[simp] theorem State.setMem_spine (v : List Host.Cell) : (s.setMem v).spine = s.spine := rfl
@[simp] theorem State.setMem_spineBad (v : List Host.Cell) : (s.setMem v).spineBad = s.spineBad := rfl
@[simp] theorem State.setMem_seqs (v : List Host.Cell) : (s.setMem v).seqs = s.seqs := rfl
@[simp] theorem State.setMem_cores (v : List Host.Cell) : (s.setMem v).cores = s.cores := rfl
@[simp] theorem State.setMem_threads (v : List Host.Cell) : (s.setMem v).threads = s.threads := rfl
@[simp] theorem State.setMem_vtCopy (v : List Host.Cell) : (s.setMem v).vtCopy = s.vtCopy := rfl
@[simp] theorem State.setMem_sync (v : List Host.Cell) : (s.setMem v).sync = s.sync := rfl
@[simp] theorem State.setMem_sol (v : List Host.Cell) : (s.setMem v).sol = s.sol := rfl
@[simp] theorem State.setMem_qsk (v : List Host.Cell) : (s.setMem v).qsk = s.qsk := rfl
@[simp] theorem State.setMem_wires (v : List Host.Cell) : (s.setMem v).wires = s.wires := rfl
@[simp] theorem State.setMem_flits (v : List Host.Cell) : (s.setMem v).flits = s.flits := rfl
@[simp] theorem State.setMem_rbufs (v : List Host.Cell) : (s.setMem v).rbufs = s.rbufs := rfl
@[simp] theorem State.setMem_fstr (v : List Host.Cell) : (s.setMem v).fstr = s.fstr := rfl
@[simp] theorem State.setMem_codec (v : List Host.Cell) : (s.setMem v).codec = s.codec := rfl
@[simp] theorem State.setMem_reqs (v : List Host.Cell) : (s.setMem v).reqs = s.reqs := rfl
@[simp] theorem State.setMem_nextReq (v : List Host.Cell) : (s.setMem v).nextReq = s.nextReq := rfl
@[simp] theorem State.setMem_held (v : List Host.Cell) : (s.setMem v).held = s.held := rfl
@[simp] theorem State.setMem_load (v : List Host.Cell) : (s.setMem v).load = s.load := rfl
@[simp] theorem State.setMem_unitGw (v : List Host.Cell) : (s.setMem v).unitGw = s.unitGw := rfl
@[simp] theorem State.setMem_otp (v : List Host.Cell) : (s.setMem v).otp = s.otp := rfl
@[simp] theorem State.setMem_bgw (v : List Host.Cell) : (s.setMem v).bgw = s.bgw := rfl
@[simp] theorem State.setMem_isl (v : List Host.Cell) : (s.setMem v).isl = s.isl := rfl
@[simp] theorem State.setMem_learn (v : List Host.Cell) : (s.setMem v).learn = s.learn := rfl
@[simp] theorem State.setMem_stw (v : List Host.Cell) : (s.setMem v).stw = s.stw := rfl
@[simp] theorem State.setMem_ev (v : List Host.Cell) : (s.setMem v).ev = s.ev := rfl
@[simp] theorem State.setEcc_pending (v : List (Nat × EccState)) : (s.setEcc v).pending = s.pending := rfl
@[simp] theorem State.setEcc_regs (v : List (Nat × EccState)) : (s.setEcc v).regs = s.regs := rfl
@[simp] theorem State.setEcc_mem (v : List (Nat × EccState)) : (s.setEcc v).mem = s.mem := rfl
@[simp] theorem State.setEcc_ecc (v : List (Nat × EccState)) : (s.setEcc v).ecc = v := rfl
@[simp] theorem State.setEcc_alm (v : List (Nat × EccState)) : (s.setEcc v).alm = s.alm := rfl
@[simp] theorem State.setEcc_bm (v : List (Nat × EccState)) : (s.setEcc v).bm = s.bm := rfl
@[simp] theorem State.setEcc_flt (v : List (Nat × EccState)) : (s.setEcc v).flt = s.flt := rfl
@[simp] theorem State.setEcc_pwr (v : List (Nat × EccState)) : (s.setEcc v).pwr = s.pwr := rfl
@[simp] theorem State.setEcc_irq (v : List (Nat × EccState)) : (s.setEcc v).irq = s.irq := rfl
@[simp] theorem State.setEcc_pipes (v : List (Nat × EccState)) : (s.setEcc v).pipes = s.pipes := rfl
@[simp] theorem State.setEcc_streams (v : List (Nat × EccState)) : (s.setEcc v).streams = s.streams := rfl
@[simp] theorem State.setEcc_ep (v : List (Nat × EccState)) : (s.setEcc v).ep = s.ep := rfl
@[simp] theorem State.setEcc_eth (v : List (Nat × EccState)) : (s.setEcc v).eth = s.eth := rfl
@[simp] theorem State.setEcc_denyArmed (v : List (Nat × EccState)) : (s.setEcc v).denyArmed = s.denyArmed := rfl
@[simp] theorem State.setEcc_resp (v : List (Nat × EccState)) : (s.setEcc v).resp = s.resp := rfl
@[simp] theorem State.setEcc_free (v : List (Nat × EccState)) : (s.setEcc v).free = s.free := rfl
@[simp] theorem State.setEcc_out (v : List (Nat × EccState)) : (s.setEcc v).out = s.out := rfl
@[simp] theorem State.setEcc_hbm (v : List (Nat × EccState)) : (s.setEcc v).hbm = s.hbm := rfl
@[simp] theorem State.setEcc_carry (v : List (Nat × EccState)) : (s.setEcc v).carry = s.carry := rfl
@[simp] theorem State.setEcc_tiles (v : List (Nat × EccState)) : (s.setEcc v).tiles = s.tiles := rfl
@[simp] theorem State.setEcc_edges (v : List (Nat × EccState)) : (s.setEcc v).edges = s.edges := rfl
@[simp] theorem State.setEcc_gws (v : List (Nat × EccState)) : (s.setEcc v).gws = s.gws := rfl
@[simp] theorem State.setEcc_spine (v : List (Nat × EccState)) : (s.setEcc v).spine = s.spine := rfl
@[simp] theorem State.setEcc_spineBad (v : List (Nat × EccState)) : (s.setEcc v).spineBad = s.spineBad := rfl
@[simp] theorem State.setEcc_seqs (v : List (Nat × EccState)) : (s.setEcc v).seqs = s.seqs := rfl
@[simp] theorem State.setEcc_cores (v : List (Nat × EccState)) : (s.setEcc v).cores = s.cores := rfl
@[simp] theorem State.setEcc_threads (v : List (Nat × EccState)) : (s.setEcc v).threads = s.threads := rfl
@[simp] theorem State.setEcc_vtCopy (v : List (Nat × EccState)) : (s.setEcc v).vtCopy = s.vtCopy := rfl
@[simp] theorem State.setEcc_sync (v : List (Nat × EccState)) : (s.setEcc v).sync = s.sync := rfl
@[simp] theorem State.setEcc_sol (v : List (Nat × EccState)) : (s.setEcc v).sol = s.sol := rfl
@[simp] theorem State.setEcc_qsk (v : List (Nat × EccState)) : (s.setEcc v).qsk = s.qsk := rfl
@[simp] theorem State.setEcc_wires (v : List (Nat × EccState)) : (s.setEcc v).wires = s.wires := rfl
@[simp] theorem State.setEcc_flits (v : List (Nat × EccState)) : (s.setEcc v).flits = s.flits := rfl
@[simp] theorem State.setEcc_rbufs (v : List (Nat × EccState)) : (s.setEcc v).rbufs = s.rbufs := rfl
@[simp] theorem State.setEcc_fstr (v : List (Nat × EccState)) : (s.setEcc v).fstr = s.fstr := rfl
@[simp] theorem State.setEcc_codec (v : List (Nat × EccState)) : (s.setEcc v).codec = s.codec := rfl
@[simp] theorem State.setEcc_reqs (v : List (Nat × EccState)) : (s.setEcc v).reqs = s.reqs := rfl
@[simp] theorem State.setEcc_nextReq (v : List (Nat × EccState)) : (s.setEcc v).nextReq = s.nextReq := rfl
@[simp] theorem State.setEcc_held (v : List (Nat × EccState)) : (s.setEcc v).held = s.held := rfl
@[simp] theorem State.setEcc_load (v : List (Nat × EccState)) : (s.setEcc v).load = s.load := rfl
@[simp] theorem State.setEcc_unitGw (v : List (Nat × EccState)) : (s.setEcc v).unitGw = s.unitGw := rfl
@[simp] theorem State.setEcc_otp (v : List (Nat × EccState)) : (s.setEcc v).otp = s.otp := rfl
@[simp] theorem State.setEcc_bgw (v : List (Nat × EccState)) : (s.setEcc v).bgw = s.bgw := rfl
@[simp] theorem State.setEcc_isl (v : List (Nat × EccState)) : (s.setEcc v).isl = s.isl := rfl
@[simp] theorem State.setEcc_learn (v : List (Nat × EccState)) : (s.setEcc v).learn = s.learn := rfl
@[simp] theorem State.setEcc_stw (v : List (Nat × EccState)) : (s.setEcc v).stw = s.stw := rfl
@[simp] theorem State.setEcc_ev (v : List (Nat × EccState)) : (s.setEcc v).ev = s.ev := rfl
@[simp] theorem State.setAlm_pending (v : AlmState) : (s.setAlm v).pending = s.pending := rfl
@[simp] theorem State.setAlm_regs (v : AlmState) : (s.setAlm v).regs = s.regs := rfl
@[simp] theorem State.setAlm_mem (v : AlmState) : (s.setAlm v).mem = s.mem := rfl
@[simp] theorem State.setAlm_ecc (v : AlmState) : (s.setAlm v).ecc = s.ecc := rfl
@[simp] theorem State.setAlm_alm (v : AlmState) : (s.setAlm v).alm = v := rfl
@[simp] theorem State.setAlm_bm (v : AlmState) : (s.setAlm v).bm = s.bm := rfl
@[simp] theorem State.setAlm_flt (v : AlmState) : (s.setAlm v).flt = s.flt := rfl
@[simp] theorem State.setAlm_pwr (v : AlmState) : (s.setAlm v).pwr = s.pwr := rfl
@[simp] theorem State.setAlm_irq (v : AlmState) : (s.setAlm v).irq = s.irq := rfl
@[simp] theorem State.setAlm_pipes (v : AlmState) : (s.setAlm v).pipes = s.pipes := rfl
@[simp] theorem State.setAlm_streams (v : AlmState) : (s.setAlm v).streams = s.streams := rfl
@[simp] theorem State.setAlm_ep (v : AlmState) : (s.setAlm v).ep = s.ep := rfl
@[simp] theorem State.setAlm_eth (v : AlmState) : (s.setAlm v).eth = s.eth := rfl
@[simp] theorem State.setAlm_denyArmed (v : AlmState) : (s.setAlm v).denyArmed = s.denyArmed := rfl
@[simp] theorem State.setAlm_resp (v : AlmState) : (s.setAlm v).resp = s.resp := rfl
@[simp] theorem State.setAlm_free (v : AlmState) : (s.setAlm v).free = s.free := rfl
@[simp] theorem State.setAlm_out (v : AlmState) : (s.setAlm v).out = s.out := rfl
@[simp] theorem State.setAlm_hbm (v : AlmState) : (s.setAlm v).hbm = s.hbm := rfl
@[simp] theorem State.setAlm_carry (v : AlmState) : (s.setAlm v).carry = s.carry := rfl
@[simp] theorem State.setAlm_tiles (v : AlmState) : (s.setAlm v).tiles = s.tiles := rfl
@[simp] theorem State.setAlm_edges (v : AlmState) : (s.setAlm v).edges = s.edges := rfl
@[simp] theorem State.setAlm_gws (v : AlmState) : (s.setAlm v).gws = s.gws := rfl
@[simp] theorem State.setAlm_spine (v : AlmState) : (s.setAlm v).spine = s.spine := rfl
@[simp] theorem State.setAlm_spineBad (v : AlmState) : (s.setAlm v).spineBad = s.spineBad := rfl
@[simp] theorem State.setAlm_seqs (v : AlmState) : (s.setAlm v).seqs = s.seqs := rfl
@[simp] theorem State.setAlm_cores (v : AlmState) : (s.setAlm v).cores = s.cores := rfl
@[simp] theorem State.setAlm_threads (v : AlmState) : (s.setAlm v).threads = s.threads := rfl
@[simp] theorem State.setAlm_vtCopy (v : AlmState) : (s.setAlm v).vtCopy = s.vtCopy := rfl
@[simp] theorem State.setAlm_sync (v : AlmState) : (s.setAlm v).sync = s.sync := rfl
@[simp] theorem State.setAlm_sol (v : AlmState) : (s.setAlm v).sol = s.sol := rfl
@[simp] theorem State.setAlm_qsk (v : AlmState) : (s.setAlm v).qsk = s.qsk := rfl
@[simp] theorem State.setAlm_wires (v : AlmState) : (s.setAlm v).wires = s.wires := rfl
@[simp] theorem State.setAlm_flits (v : AlmState) : (s.setAlm v).flits = s.flits := rfl
@[simp] theorem State.setAlm_rbufs (v : AlmState) : (s.setAlm v).rbufs = s.rbufs := rfl
@[simp] theorem State.setAlm_fstr (v : AlmState) : (s.setAlm v).fstr = s.fstr := rfl
@[simp] theorem State.setAlm_codec (v : AlmState) : (s.setAlm v).codec = s.codec := rfl
@[simp] theorem State.setAlm_reqs (v : AlmState) : (s.setAlm v).reqs = s.reqs := rfl
@[simp] theorem State.setAlm_nextReq (v : AlmState) : (s.setAlm v).nextReq = s.nextReq := rfl
@[simp] theorem State.setAlm_held (v : AlmState) : (s.setAlm v).held = s.held := rfl
@[simp] theorem State.setAlm_load (v : AlmState) : (s.setAlm v).load = s.load := rfl
@[simp] theorem State.setAlm_unitGw (v : AlmState) : (s.setAlm v).unitGw = s.unitGw := rfl
@[simp] theorem State.setAlm_otp (v : AlmState) : (s.setAlm v).otp = s.otp := rfl
@[simp] theorem State.setAlm_bgw (v : AlmState) : (s.setAlm v).bgw = s.bgw := rfl
@[simp] theorem State.setAlm_isl (v : AlmState) : (s.setAlm v).isl = s.isl := rfl
@[simp] theorem State.setAlm_learn (v : AlmState) : (s.setAlm v).learn = s.learn := rfl
@[simp] theorem State.setAlm_stw (v : AlmState) : (s.setAlm v).stw = s.stw := rfl
@[simp] theorem State.setAlm_ev (v : AlmState) : (s.setAlm v).ev = s.ev := rfl
@[simp] theorem State.setBm_pending (v : List (Nat × BeatM)) : (s.setBm v).pending = s.pending := rfl
@[simp] theorem State.setBm_regs (v : List (Nat × BeatM)) : (s.setBm v).regs = s.regs := rfl
@[simp] theorem State.setBm_mem (v : List (Nat × BeatM)) : (s.setBm v).mem = s.mem := rfl
@[simp] theorem State.setBm_ecc (v : List (Nat × BeatM)) : (s.setBm v).ecc = s.ecc := rfl
@[simp] theorem State.setBm_alm (v : List (Nat × BeatM)) : (s.setBm v).alm = s.alm := rfl
@[simp] theorem State.setBm_bm (v : List (Nat × BeatM)) : (s.setBm v).bm = v := rfl
@[simp] theorem State.setBm_flt (v : List (Nat × BeatM)) : (s.setBm v).flt = s.flt := rfl
@[simp] theorem State.setBm_pwr (v : List (Nat × BeatM)) : (s.setBm v).pwr = s.pwr := rfl
@[simp] theorem State.setBm_irq (v : List (Nat × BeatM)) : (s.setBm v).irq = s.irq := rfl
@[simp] theorem State.setBm_pipes (v : List (Nat × BeatM)) : (s.setBm v).pipes = s.pipes := rfl
@[simp] theorem State.setBm_streams (v : List (Nat × BeatM)) : (s.setBm v).streams = s.streams := rfl
@[simp] theorem State.setBm_ep (v : List (Nat × BeatM)) : (s.setBm v).ep = s.ep := rfl
@[simp] theorem State.setBm_eth (v : List (Nat × BeatM)) : (s.setBm v).eth = s.eth := rfl
@[simp] theorem State.setBm_denyArmed (v : List (Nat × BeatM)) : (s.setBm v).denyArmed = s.denyArmed := rfl
@[simp] theorem State.setBm_resp (v : List (Nat × BeatM)) : (s.setBm v).resp = s.resp := rfl
@[simp] theorem State.setBm_free (v : List (Nat × BeatM)) : (s.setBm v).free = s.free := rfl
@[simp] theorem State.setBm_out (v : List (Nat × BeatM)) : (s.setBm v).out = s.out := rfl
@[simp] theorem State.setBm_hbm (v : List (Nat × BeatM)) : (s.setBm v).hbm = s.hbm := rfl
@[simp] theorem State.setBm_carry (v : List (Nat × BeatM)) : (s.setBm v).carry = s.carry := rfl
@[simp] theorem State.setBm_tiles (v : List (Nat × BeatM)) : (s.setBm v).tiles = s.tiles := rfl
@[simp] theorem State.setBm_edges (v : List (Nat × BeatM)) : (s.setBm v).edges = s.edges := rfl
@[simp] theorem State.setBm_gws (v : List (Nat × BeatM)) : (s.setBm v).gws = s.gws := rfl
@[simp] theorem State.setBm_spine (v : List (Nat × BeatM)) : (s.setBm v).spine = s.spine := rfl
@[simp] theorem State.setBm_spineBad (v : List (Nat × BeatM)) : (s.setBm v).spineBad = s.spineBad := rfl
@[simp] theorem State.setBm_seqs (v : List (Nat × BeatM)) : (s.setBm v).seqs = s.seqs := rfl
@[simp] theorem State.setBm_cores (v : List (Nat × BeatM)) : (s.setBm v).cores = s.cores := rfl
@[simp] theorem State.setBm_threads (v : List (Nat × BeatM)) : (s.setBm v).threads = s.threads := rfl
@[simp] theorem State.setBm_vtCopy (v : List (Nat × BeatM)) : (s.setBm v).vtCopy = s.vtCopy := rfl
@[simp] theorem State.setBm_sync (v : List (Nat × BeatM)) : (s.setBm v).sync = s.sync := rfl
@[simp] theorem State.setBm_sol (v : List (Nat × BeatM)) : (s.setBm v).sol = s.sol := rfl
@[simp] theorem State.setBm_qsk (v : List (Nat × BeatM)) : (s.setBm v).qsk = s.qsk := rfl
@[simp] theorem State.setBm_wires (v : List (Nat × BeatM)) : (s.setBm v).wires = s.wires := rfl
@[simp] theorem State.setBm_flits (v : List (Nat × BeatM)) : (s.setBm v).flits = s.flits := rfl
@[simp] theorem State.setBm_rbufs (v : List (Nat × BeatM)) : (s.setBm v).rbufs = s.rbufs := rfl
@[simp] theorem State.setBm_fstr (v : List (Nat × BeatM)) : (s.setBm v).fstr = s.fstr := rfl
@[simp] theorem State.setBm_codec (v : List (Nat × BeatM)) : (s.setBm v).codec = s.codec := rfl
@[simp] theorem State.setBm_reqs (v : List (Nat × BeatM)) : (s.setBm v).reqs = s.reqs := rfl
@[simp] theorem State.setBm_nextReq (v : List (Nat × BeatM)) : (s.setBm v).nextReq = s.nextReq := rfl
@[simp] theorem State.setBm_held (v : List (Nat × BeatM)) : (s.setBm v).held = s.held := rfl
@[simp] theorem State.setBm_load (v : List (Nat × BeatM)) : (s.setBm v).load = s.load := rfl
@[simp] theorem State.setBm_unitGw (v : List (Nat × BeatM)) : (s.setBm v).unitGw = s.unitGw := rfl
@[simp] theorem State.setBm_otp (v : List (Nat × BeatM)) : (s.setBm v).otp = s.otp := rfl
@[simp] theorem State.setBm_bgw (v : List (Nat × BeatM)) : (s.setBm v).bgw = s.bgw := rfl
@[simp] theorem State.setBm_isl (v : List (Nat × BeatM)) : (s.setBm v).isl = s.isl := rfl
@[simp] theorem State.setBm_learn (v : List (Nat × BeatM)) : (s.setBm v).learn = s.learn := rfl
@[simp] theorem State.setBm_stw (v : List (Nat × BeatM)) : (s.setBm v).stw = s.stw := rfl
@[simp] theorem State.setBm_ev (v : List (Nat × BeatM)) : (s.setBm v).ev = s.ev := rfl
@[simp] theorem State.setFlt_pending (v : FltState) : (s.setFlt v).pending = s.pending := rfl
@[simp] theorem State.setFlt_regs (v : FltState) : (s.setFlt v).regs = s.regs := rfl
@[simp] theorem State.setFlt_mem (v : FltState) : (s.setFlt v).mem = s.mem := rfl
@[simp] theorem State.setFlt_ecc (v : FltState) : (s.setFlt v).ecc = s.ecc := rfl
@[simp] theorem State.setFlt_alm (v : FltState) : (s.setFlt v).alm = s.alm := rfl
@[simp] theorem State.setFlt_bm (v : FltState) : (s.setFlt v).bm = s.bm := rfl
@[simp] theorem State.setFlt_flt (v : FltState) : (s.setFlt v).flt = v := rfl
@[simp] theorem State.setFlt_pwr (v : FltState) : (s.setFlt v).pwr = s.pwr := rfl
@[simp] theorem State.setFlt_irq (v : FltState) : (s.setFlt v).irq = s.irq := rfl
@[simp] theorem State.setFlt_pipes (v : FltState) : (s.setFlt v).pipes = s.pipes := rfl
@[simp] theorem State.setFlt_streams (v : FltState) : (s.setFlt v).streams = s.streams := rfl
@[simp] theorem State.setFlt_ep (v : FltState) : (s.setFlt v).ep = s.ep := rfl
@[simp] theorem State.setFlt_eth (v : FltState) : (s.setFlt v).eth = s.eth := rfl
@[simp] theorem State.setFlt_denyArmed (v : FltState) : (s.setFlt v).denyArmed = s.denyArmed := rfl
@[simp] theorem State.setFlt_resp (v : FltState) : (s.setFlt v).resp = s.resp := rfl
@[simp] theorem State.setFlt_free (v : FltState) : (s.setFlt v).free = s.free := rfl
@[simp] theorem State.setFlt_out (v : FltState) : (s.setFlt v).out = s.out := rfl
@[simp] theorem State.setFlt_hbm (v : FltState) : (s.setFlt v).hbm = s.hbm := rfl
@[simp] theorem State.setFlt_carry (v : FltState) : (s.setFlt v).carry = s.carry := rfl
@[simp] theorem State.setFlt_tiles (v : FltState) : (s.setFlt v).tiles = s.tiles := rfl
@[simp] theorem State.setFlt_edges (v : FltState) : (s.setFlt v).edges = s.edges := rfl
@[simp] theorem State.setFlt_gws (v : FltState) : (s.setFlt v).gws = s.gws := rfl
@[simp] theorem State.setFlt_spine (v : FltState) : (s.setFlt v).spine = s.spine := rfl
@[simp] theorem State.setFlt_spineBad (v : FltState) : (s.setFlt v).spineBad = s.spineBad := rfl
@[simp] theorem State.setFlt_seqs (v : FltState) : (s.setFlt v).seqs = s.seqs := rfl
@[simp] theorem State.setFlt_cores (v : FltState) : (s.setFlt v).cores = s.cores := rfl
@[simp] theorem State.setFlt_threads (v : FltState) : (s.setFlt v).threads = s.threads := rfl
@[simp] theorem State.setFlt_vtCopy (v : FltState) : (s.setFlt v).vtCopy = s.vtCopy := rfl
@[simp] theorem State.setFlt_sync (v : FltState) : (s.setFlt v).sync = s.sync := rfl
@[simp] theorem State.setFlt_sol (v : FltState) : (s.setFlt v).sol = s.sol := rfl
@[simp] theorem State.setFlt_qsk (v : FltState) : (s.setFlt v).qsk = s.qsk := rfl
@[simp] theorem State.setFlt_wires (v : FltState) : (s.setFlt v).wires = s.wires := rfl
@[simp] theorem State.setFlt_flits (v : FltState) : (s.setFlt v).flits = s.flits := rfl
@[simp] theorem State.setFlt_rbufs (v : FltState) : (s.setFlt v).rbufs = s.rbufs := rfl
@[simp] theorem State.setFlt_fstr (v : FltState) : (s.setFlt v).fstr = s.fstr := rfl
@[simp] theorem State.setFlt_codec (v : FltState) : (s.setFlt v).codec = s.codec := rfl
@[simp] theorem State.setFlt_reqs (v : FltState) : (s.setFlt v).reqs = s.reqs := rfl
@[simp] theorem State.setFlt_nextReq (v : FltState) : (s.setFlt v).nextReq = s.nextReq := rfl
@[simp] theorem State.setFlt_held (v : FltState) : (s.setFlt v).held = s.held := rfl
@[simp] theorem State.setFlt_load (v : FltState) : (s.setFlt v).load = s.load := rfl
@[simp] theorem State.setFlt_unitGw (v : FltState) : (s.setFlt v).unitGw = s.unitGw := rfl
@[simp] theorem State.setFlt_otp (v : FltState) : (s.setFlt v).otp = s.otp := rfl
@[simp] theorem State.setFlt_bgw (v : FltState) : (s.setFlt v).bgw = s.bgw := rfl
@[simp] theorem State.setFlt_isl (v : FltState) : (s.setFlt v).isl = s.isl := rfl
@[simp] theorem State.setFlt_learn (v : FltState) : (s.setFlt v).learn = s.learn := rfl
@[simp] theorem State.setFlt_stw (v : FltState) : (s.setFlt v).stw = s.stw := rfl
@[simp] theorem State.setFlt_ev (v : FltState) : (s.setFlt v).ev = s.ev := rfl
@[simp] theorem State.setPwr_pending (v : PwrState) : (s.setPwr v).pending = s.pending := rfl
@[simp] theorem State.setPwr_regs (v : PwrState) : (s.setPwr v).regs = s.regs := rfl
@[simp] theorem State.setPwr_mem (v : PwrState) : (s.setPwr v).mem = s.mem := rfl
@[simp] theorem State.setPwr_ecc (v : PwrState) : (s.setPwr v).ecc = s.ecc := rfl
@[simp] theorem State.setPwr_alm (v : PwrState) : (s.setPwr v).alm = s.alm := rfl
@[simp] theorem State.setPwr_bm (v : PwrState) : (s.setPwr v).bm = s.bm := rfl
@[simp] theorem State.setPwr_flt (v : PwrState) : (s.setPwr v).flt = s.flt := rfl
@[simp] theorem State.setPwr_pwr (v : PwrState) : (s.setPwr v).pwr = v := rfl
@[simp] theorem State.setPwr_irq (v : PwrState) : (s.setPwr v).irq = s.irq := rfl
@[simp] theorem State.setPwr_pipes (v : PwrState) : (s.setPwr v).pipes = s.pipes := rfl
@[simp] theorem State.setPwr_streams (v : PwrState) : (s.setPwr v).streams = s.streams := rfl
@[simp] theorem State.setPwr_ep (v : PwrState) : (s.setPwr v).ep = s.ep := rfl
@[simp] theorem State.setPwr_eth (v : PwrState) : (s.setPwr v).eth = s.eth := rfl
@[simp] theorem State.setPwr_denyArmed (v : PwrState) : (s.setPwr v).denyArmed = s.denyArmed := rfl
@[simp] theorem State.setPwr_resp (v : PwrState) : (s.setPwr v).resp = s.resp := rfl
@[simp] theorem State.setPwr_free (v : PwrState) : (s.setPwr v).free = s.free := rfl
@[simp] theorem State.setPwr_out (v : PwrState) : (s.setPwr v).out = s.out := rfl
@[simp] theorem State.setPwr_hbm (v : PwrState) : (s.setPwr v).hbm = s.hbm := rfl
@[simp] theorem State.setPwr_carry (v : PwrState) : (s.setPwr v).carry = s.carry := rfl
@[simp] theorem State.setPwr_tiles (v : PwrState) : (s.setPwr v).tiles = s.tiles := rfl
@[simp] theorem State.setPwr_edges (v : PwrState) : (s.setPwr v).edges = s.edges := rfl
@[simp] theorem State.setPwr_gws (v : PwrState) : (s.setPwr v).gws = s.gws := rfl
@[simp] theorem State.setPwr_spine (v : PwrState) : (s.setPwr v).spine = s.spine := rfl
@[simp] theorem State.setPwr_spineBad (v : PwrState) : (s.setPwr v).spineBad = s.spineBad := rfl
@[simp] theorem State.setPwr_seqs (v : PwrState) : (s.setPwr v).seqs = s.seqs := rfl
@[simp] theorem State.setPwr_cores (v : PwrState) : (s.setPwr v).cores = s.cores := rfl
@[simp] theorem State.setPwr_threads (v : PwrState) : (s.setPwr v).threads = s.threads := rfl
@[simp] theorem State.setPwr_vtCopy (v : PwrState) : (s.setPwr v).vtCopy = s.vtCopy := rfl
@[simp] theorem State.setPwr_sync (v : PwrState) : (s.setPwr v).sync = s.sync := rfl
@[simp] theorem State.setPwr_sol (v : PwrState) : (s.setPwr v).sol = s.sol := rfl
@[simp] theorem State.setPwr_qsk (v : PwrState) : (s.setPwr v).qsk = s.qsk := rfl
@[simp] theorem State.setPwr_wires (v : PwrState) : (s.setPwr v).wires = s.wires := rfl
@[simp] theorem State.setPwr_flits (v : PwrState) : (s.setPwr v).flits = s.flits := rfl
@[simp] theorem State.setPwr_rbufs (v : PwrState) : (s.setPwr v).rbufs = s.rbufs := rfl
@[simp] theorem State.setPwr_fstr (v : PwrState) : (s.setPwr v).fstr = s.fstr := rfl
@[simp] theorem State.setPwr_codec (v : PwrState) : (s.setPwr v).codec = s.codec := rfl
@[simp] theorem State.setPwr_reqs (v : PwrState) : (s.setPwr v).reqs = s.reqs := rfl
@[simp] theorem State.setPwr_nextReq (v : PwrState) : (s.setPwr v).nextReq = s.nextReq := rfl
@[simp] theorem State.setPwr_held (v : PwrState) : (s.setPwr v).held = s.held := rfl
@[simp] theorem State.setPwr_load (v : PwrState) : (s.setPwr v).load = s.load := rfl
@[simp] theorem State.setPwr_unitGw (v : PwrState) : (s.setPwr v).unitGw = s.unitGw := rfl
@[simp] theorem State.setPwr_otp (v : PwrState) : (s.setPwr v).otp = s.otp := rfl
@[simp] theorem State.setPwr_bgw (v : PwrState) : (s.setPwr v).bgw = s.bgw := rfl
@[simp] theorem State.setPwr_isl (v : PwrState) : (s.setPwr v).isl = s.isl := rfl
@[simp] theorem State.setPwr_learn (v : PwrState) : (s.setPwr v).learn = s.learn := rfl
@[simp] theorem State.setPwr_stw (v : PwrState) : (s.setPwr v).stw = s.stw := rfl
@[simp] theorem State.setPwr_ev (v : PwrState) : (s.setPwr v).ev = s.ev := rfl
@[simp] theorem State.setIrq_pending (v : IrqState) : (s.setIrq v).pending = s.pending := rfl
@[simp] theorem State.setIrq_regs (v : IrqState) : (s.setIrq v).regs = s.regs := rfl
@[simp] theorem State.setIrq_mem (v : IrqState) : (s.setIrq v).mem = s.mem := rfl
@[simp] theorem State.setIrq_ecc (v : IrqState) : (s.setIrq v).ecc = s.ecc := rfl
@[simp] theorem State.setIrq_alm (v : IrqState) : (s.setIrq v).alm = s.alm := rfl
@[simp] theorem State.setIrq_bm (v : IrqState) : (s.setIrq v).bm = s.bm := rfl
@[simp] theorem State.setIrq_flt (v : IrqState) : (s.setIrq v).flt = s.flt := rfl
@[simp] theorem State.setIrq_pwr (v : IrqState) : (s.setIrq v).pwr = s.pwr := rfl
@[simp] theorem State.setIrq_irq (v : IrqState) : (s.setIrq v).irq = v := rfl
@[simp] theorem State.setIrq_pipes (v : IrqState) : (s.setIrq v).pipes = s.pipes := rfl
@[simp] theorem State.setIrq_streams (v : IrqState) : (s.setIrq v).streams = s.streams := rfl
@[simp] theorem State.setIrq_ep (v : IrqState) : (s.setIrq v).ep = s.ep := rfl
@[simp] theorem State.setIrq_eth (v : IrqState) : (s.setIrq v).eth = s.eth := rfl
@[simp] theorem State.setIrq_denyArmed (v : IrqState) : (s.setIrq v).denyArmed = s.denyArmed := rfl
@[simp] theorem State.setIrq_resp (v : IrqState) : (s.setIrq v).resp = s.resp := rfl
@[simp] theorem State.setIrq_free (v : IrqState) : (s.setIrq v).free = s.free := rfl
@[simp] theorem State.setIrq_out (v : IrqState) : (s.setIrq v).out = s.out := rfl
@[simp] theorem State.setIrq_hbm (v : IrqState) : (s.setIrq v).hbm = s.hbm := rfl
@[simp] theorem State.setIrq_carry (v : IrqState) : (s.setIrq v).carry = s.carry := rfl
@[simp] theorem State.setIrq_tiles (v : IrqState) : (s.setIrq v).tiles = s.tiles := rfl
@[simp] theorem State.setIrq_edges (v : IrqState) : (s.setIrq v).edges = s.edges := rfl
@[simp] theorem State.setIrq_gws (v : IrqState) : (s.setIrq v).gws = s.gws := rfl
@[simp] theorem State.setIrq_spine (v : IrqState) : (s.setIrq v).spine = s.spine := rfl
@[simp] theorem State.setIrq_spineBad (v : IrqState) : (s.setIrq v).spineBad = s.spineBad := rfl
@[simp] theorem State.setIrq_seqs (v : IrqState) : (s.setIrq v).seqs = s.seqs := rfl
@[simp] theorem State.setIrq_cores (v : IrqState) : (s.setIrq v).cores = s.cores := rfl
@[simp] theorem State.setIrq_threads (v : IrqState) : (s.setIrq v).threads = s.threads := rfl
@[simp] theorem State.setIrq_vtCopy (v : IrqState) : (s.setIrq v).vtCopy = s.vtCopy := rfl
@[simp] theorem State.setIrq_sync (v : IrqState) : (s.setIrq v).sync = s.sync := rfl
@[simp] theorem State.setIrq_sol (v : IrqState) : (s.setIrq v).sol = s.sol := rfl
@[simp] theorem State.setIrq_qsk (v : IrqState) : (s.setIrq v).qsk = s.qsk := rfl
@[simp] theorem State.setIrq_wires (v : IrqState) : (s.setIrq v).wires = s.wires := rfl
@[simp] theorem State.setIrq_flits (v : IrqState) : (s.setIrq v).flits = s.flits := rfl
@[simp] theorem State.setIrq_rbufs (v : IrqState) : (s.setIrq v).rbufs = s.rbufs := rfl
@[simp] theorem State.setIrq_fstr (v : IrqState) : (s.setIrq v).fstr = s.fstr := rfl
@[simp] theorem State.setIrq_codec (v : IrqState) : (s.setIrq v).codec = s.codec := rfl
@[simp] theorem State.setIrq_reqs (v : IrqState) : (s.setIrq v).reqs = s.reqs := rfl
@[simp] theorem State.setIrq_nextReq (v : IrqState) : (s.setIrq v).nextReq = s.nextReq := rfl
@[simp] theorem State.setIrq_held (v : IrqState) : (s.setIrq v).held = s.held := rfl
@[simp] theorem State.setIrq_load (v : IrqState) : (s.setIrq v).load = s.load := rfl
@[simp] theorem State.setIrq_unitGw (v : IrqState) : (s.setIrq v).unitGw = s.unitGw := rfl
@[simp] theorem State.setIrq_otp (v : IrqState) : (s.setIrq v).otp = s.otp := rfl
@[simp] theorem State.setIrq_bgw (v : IrqState) : (s.setIrq v).bgw = s.bgw := rfl
@[simp] theorem State.setIrq_isl (v : IrqState) : (s.setIrq v).isl = s.isl := rfl
@[simp] theorem State.setIrq_learn (v : IrqState) : (s.setIrq v).learn = s.learn := rfl
@[simp] theorem State.setIrq_stw (v : IrqState) : (s.setIrq v).stw = s.stw := rfl
@[simp] theorem State.setIrq_ev (v : IrqState) : (s.setIrq v).ev = s.ev := rfl
@[simp] theorem State.setPipes_pending (v : List (Nat × Pipe)) : (s.setPipes v).pending = s.pending := rfl
@[simp] theorem State.setPipes_regs (v : List (Nat × Pipe)) : (s.setPipes v).regs = s.regs := rfl
@[simp] theorem State.setPipes_mem (v : List (Nat × Pipe)) : (s.setPipes v).mem = s.mem := rfl
@[simp] theorem State.setPipes_ecc (v : List (Nat × Pipe)) : (s.setPipes v).ecc = s.ecc := rfl
@[simp] theorem State.setPipes_alm (v : List (Nat × Pipe)) : (s.setPipes v).alm = s.alm := rfl
@[simp] theorem State.setPipes_bm (v : List (Nat × Pipe)) : (s.setPipes v).bm = s.bm := rfl
@[simp] theorem State.setPipes_flt (v : List (Nat × Pipe)) : (s.setPipes v).flt = s.flt := rfl
@[simp] theorem State.setPipes_pwr (v : List (Nat × Pipe)) : (s.setPipes v).pwr = s.pwr := rfl
@[simp] theorem State.setPipes_irq (v : List (Nat × Pipe)) : (s.setPipes v).irq = s.irq := rfl
@[simp] theorem State.setPipes_pipes (v : List (Nat × Pipe)) : (s.setPipes v).pipes = v := rfl
@[simp] theorem State.setPipes_streams (v : List (Nat × Pipe)) : (s.setPipes v).streams = s.streams := rfl
@[simp] theorem State.setPipes_ep (v : List (Nat × Pipe)) : (s.setPipes v).ep = s.ep := rfl
@[simp] theorem State.setPipes_eth (v : List (Nat × Pipe)) : (s.setPipes v).eth = s.eth := rfl
@[simp] theorem State.setPipes_denyArmed (v : List (Nat × Pipe)) : (s.setPipes v).denyArmed = s.denyArmed := rfl
@[simp] theorem State.setPipes_resp (v : List (Nat × Pipe)) : (s.setPipes v).resp = s.resp := rfl
@[simp] theorem State.setPipes_free (v : List (Nat × Pipe)) : (s.setPipes v).free = s.free := rfl
@[simp] theorem State.setPipes_out (v : List (Nat × Pipe)) : (s.setPipes v).out = s.out := rfl
@[simp] theorem State.setPipes_hbm (v : List (Nat × Pipe)) : (s.setPipes v).hbm = s.hbm := rfl
@[simp] theorem State.setPipes_carry (v : List (Nat × Pipe)) : (s.setPipes v).carry = s.carry := rfl
@[simp] theorem State.setPipes_tiles (v : List (Nat × Pipe)) : (s.setPipes v).tiles = s.tiles := rfl
@[simp] theorem State.setPipes_edges (v : List (Nat × Pipe)) : (s.setPipes v).edges = s.edges := rfl
@[simp] theorem State.setPipes_gws (v : List (Nat × Pipe)) : (s.setPipes v).gws = s.gws := rfl
@[simp] theorem State.setPipes_spine (v : List (Nat × Pipe)) : (s.setPipes v).spine = s.spine := rfl
@[simp] theorem State.setPipes_spineBad (v : List (Nat × Pipe)) : (s.setPipes v).spineBad = s.spineBad := rfl
@[simp] theorem State.setPipes_seqs (v : List (Nat × Pipe)) : (s.setPipes v).seqs = s.seqs := rfl
@[simp] theorem State.setPipes_cores (v : List (Nat × Pipe)) : (s.setPipes v).cores = s.cores := rfl
@[simp] theorem State.setPipes_threads (v : List (Nat × Pipe)) : (s.setPipes v).threads = s.threads := rfl
@[simp] theorem State.setPipes_vtCopy (v : List (Nat × Pipe)) : (s.setPipes v).vtCopy = s.vtCopy := rfl
@[simp] theorem State.setPipes_sync (v : List (Nat × Pipe)) : (s.setPipes v).sync = s.sync := rfl
@[simp] theorem State.setPipes_sol (v : List (Nat × Pipe)) : (s.setPipes v).sol = s.sol := rfl
@[simp] theorem State.setPipes_qsk (v : List (Nat × Pipe)) : (s.setPipes v).qsk = s.qsk := rfl
@[simp] theorem State.setPipes_wires (v : List (Nat × Pipe)) : (s.setPipes v).wires = s.wires := rfl
@[simp] theorem State.setPipes_flits (v : List (Nat × Pipe)) : (s.setPipes v).flits = s.flits := rfl
@[simp] theorem State.setPipes_rbufs (v : List (Nat × Pipe)) : (s.setPipes v).rbufs = s.rbufs := rfl
@[simp] theorem State.setPipes_fstr (v : List (Nat × Pipe)) : (s.setPipes v).fstr = s.fstr := rfl
@[simp] theorem State.setPipes_codec (v : List (Nat × Pipe)) : (s.setPipes v).codec = s.codec := rfl
@[simp] theorem State.setPipes_reqs (v : List (Nat × Pipe)) : (s.setPipes v).reqs = s.reqs := rfl
@[simp] theorem State.setPipes_nextReq (v : List (Nat × Pipe)) : (s.setPipes v).nextReq = s.nextReq := rfl
@[simp] theorem State.setPipes_held (v : List (Nat × Pipe)) : (s.setPipes v).held = s.held := rfl
@[simp] theorem State.setPipes_load (v : List (Nat × Pipe)) : (s.setPipes v).load = s.load := rfl
@[simp] theorem State.setPipes_unitGw (v : List (Nat × Pipe)) : (s.setPipes v).unitGw = s.unitGw := rfl
@[simp] theorem State.setPipes_otp (v : List (Nat × Pipe)) : (s.setPipes v).otp = s.otp := rfl
@[simp] theorem State.setPipes_bgw (v : List (Nat × Pipe)) : (s.setPipes v).bgw = s.bgw := rfl
@[simp] theorem State.setPipes_isl (v : List (Nat × Pipe)) : (s.setPipes v).isl = s.isl := rfl
@[simp] theorem State.setPipes_learn (v : List (Nat × Pipe)) : (s.setPipes v).learn = s.learn := rfl
@[simp] theorem State.setPipes_stw (v : List (Nat × Pipe)) : (s.setPipes v).stw = s.stw := rfl
@[simp] theorem State.setPipes_ev (v : List (Nat × Pipe)) : (s.setPipes v).ev = s.ev := rfl
@[simp] theorem State.setStreams_pending (v : List (Nat × Stream)) : (s.setStreams v).pending = s.pending := rfl
@[simp] theorem State.setStreams_regs (v : List (Nat × Stream)) : (s.setStreams v).regs = s.regs := rfl
@[simp] theorem State.setStreams_mem (v : List (Nat × Stream)) : (s.setStreams v).mem = s.mem := rfl
@[simp] theorem State.setStreams_ecc (v : List (Nat × Stream)) : (s.setStreams v).ecc = s.ecc := rfl
@[simp] theorem State.setStreams_alm (v : List (Nat × Stream)) : (s.setStreams v).alm = s.alm := rfl
@[simp] theorem State.setStreams_bm (v : List (Nat × Stream)) : (s.setStreams v).bm = s.bm := rfl
@[simp] theorem State.setStreams_flt (v : List (Nat × Stream)) : (s.setStreams v).flt = s.flt := rfl
@[simp] theorem State.setStreams_pwr (v : List (Nat × Stream)) : (s.setStreams v).pwr = s.pwr := rfl
@[simp] theorem State.setStreams_irq (v : List (Nat × Stream)) : (s.setStreams v).irq = s.irq := rfl
@[simp] theorem State.setStreams_pipes (v : List (Nat × Stream)) : (s.setStreams v).pipes = s.pipes := rfl
@[simp] theorem State.setStreams_streams (v : List (Nat × Stream)) : (s.setStreams v).streams = v := rfl
@[simp] theorem State.setStreams_ep (v : List (Nat × Stream)) : (s.setStreams v).ep = s.ep := rfl
@[simp] theorem State.setStreams_eth (v : List (Nat × Stream)) : (s.setStreams v).eth = s.eth := rfl
@[simp] theorem State.setStreams_denyArmed (v : List (Nat × Stream)) : (s.setStreams v).denyArmed = s.denyArmed := rfl
@[simp] theorem State.setStreams_resp (v : List (Nat × Stream)) : (s.setStreams v).resp = s.resp := rfl
@[simp] theorem State.setStreams_free (v : List (Nat × Stream)) : (s.setStreams v).free = s.free := rfl
@[simp] theorem State.setStreams_out (v : List (Nat × Stream)) : (s.setStreams v).out = s.out := rfl
@[simp] theorem State.setStreams_hbm (v : List (Nat × Stream)) : (s.setStreams v).hbm = s.hbm := rfl
@[simp] theorem State.setStreams_carry (v : List (Nat × Stream)) : (s.setStreams v).carry = s.carry := rfl
@[simp] theorem State.setStreams_tiles (v : List (Nat × Stream)) : (s.setStreams v).tiles = s.tiles := rfl
@[simp] theorem State.setStreams_edges (v : List (Nat × Stream)) : (s.setStreams v).edges = s.edges := rfl
@[simp] theorem State.setStreams_gws (v : List (Nat × Stream)) : (s.setStreams v).gws = s.gws := rfl
@[simp] theorem State.setStreams_spine (v : List (Nat × Stream)) : (s.setStreams v).spine = s.spine := rfl
@[simp] theorem State.setStreams_spineBad (v : List (Nat × Stream)) : (s.setStreams v).spineBad = s.spineBad := rfl
@[simp] theorem State.setStreams_seqs (v : List (Nat × Stream)) : (s.setStreams v).seqs = s.seqs := rfl
@[simp] theorem State.setStreams_cores (v : List (Nat × Stream)) : (s.setStreams v).cores = s.cores := rfl
@[simp] theorem State.setStreams_threads (v : List (Nat × Stream)) : (s.setStreams v).threads = s.threads := rfl
@[simp] theorem State.setStreams_vtCopy (v : List (Nat × Stream)) : (s.setStreams v).vtCopy = s.vtCopy := rfl
@[simp] theorem State.setStreams_sync (v : List (Nat × Stream)) : (s.setStreams v).sync = s.sync := rfl
@[simp] theorem State.setStreams_sol (v : List (Nat × Stream)) : (s.setStreams v).sol = s.sol := rfl
@[simp] theorem State.setStreams_qsk (v : List (Nat × Stream)) : (s.setStreams v).qsk = s.qsk := rfl
@[simp] theorem State.setStreams_wires (v : List (Nat × Stream)) : (s.setStreams v).wires = s.wires := rfl
@[simp] theorem State.setStreams_flits (v : List (Nat × Stream)) : (s.setStreams v).flits = s.flits := rfl
@[simp] theorem State.setStreams_rbufs (v : List (Nat × Stream)) : (s.setStreams v).rbufs = s.rbufs := rfl
@[simp] theorem State.setStreams_fstr (v : List (Nat × Stream)) : (s.setStreams v).fstr = s.fstr := rfl
@[simp] theorem State.setStreams_codec (v : List (Nat × Stream)) : (s.setStreams v).codec = s.codec := rfl
@[simp] theorem State.setStreams_reqs (v : List (Nat × Stream)) : (s.setStreams v).reqs = s.reqs := rfl
@[simp] theorem State.setStreams_nextReq (v : List (Nat × Stream)) : (s.setStreams v).nextReq = s.nextReq := rfl
@[simp] theorem State.setStreams_held (v : List (Nat × Stream)) : (s.setStreams v).held = s.held := rfl
@[simp] theorem State.setStreams_load (v : List (Nat × Stream)) : (s.setStreams v).load = s.load := rfl
@[simp] theorem State.setStreams_unitGw (v : List (Nat × Stream)) : (s.setStreams v).unitGw = s.unitGw := rfl
@[simp] theorem State.setStreams_otp (v : List (Nat × Stream)) : (s.setStreams v).otp = s.otp := rfl
@[simp] theorem State.setStreams_bgw (v : List (Nat × Stream)) : (s.setStreams v).bgw = s.bgw := rfl
@[simp] theorem State.setStreams_isl (v : List (Nat × Stream)) : (s.setStreams v).isl = s.isl := rfl
@[simp] theorem State.setStreams_learn (v : List (Nat × Stream)) : (s.setStreams v).learn = s.learn := rfl
@[simp] theorem State.setStreams_stw (v : List (Nat × Stream)) : (s.setStreams v).stw = s.stw := rfl
@[simp] theorem State.setStreams_ev (v : List (Nat × Stream)) : (s.setStreams v).ev = s.ev := rfl
@[simp] theorem State.setEp_pending (v : EpState) : (s.setEp v).pending = s.pending := rfl
@[simp] theorem State.setEp_regs (v : EpState) : (s.setEp v).regs = s.regs := rfl
@[simp] theorem State.setEp_mem (v : EpState) : (s.setEp v).mem = s.mem := rfl
@[simp] theorem State.setEp_ecc (v : EpState) : (s.setEp v).ecc = s.ecc := rfl
@[simp] theorem State.setEp_alm (v : EpState) : (s.setEp v).alm = s.alm := rfl
@[simp] theorem State.setEp_bm (v : EpState) : (s.setEp v).bm = s.bm := rfl
@[simp] theorem State.setEp_flt (v : EpState) : (s.setEp v).flt = s.flt := rfl
@[simp] theorem State.setEp_pwr (v : EpState) : (s.setEp v).pwr = s.pwr := rfl
@[simp] theorem State.setEp_irq (v : EpState) : (s.setEp v).irq = s.irq := rfl
@[simp] theorem State.setEp_pipes (v : EpState) : (s.setEp v).pipes = s.pipes := rfl
@[simp] theorem State.setEp_streams (v : EpState) : (s.setEp v).streams = s.streams := rfl
@[simp] theorem State.setEp_ep (v : EpState) : (s.setEp v).ep = v := rfl
@[simp] theorem State.setEp_eth (v : EpState) : (s.setEp v).eth = s.eth := rfl
@[simp] theorem State.setEp_denyArmed (v : EpState) : (s.setEp v).denyArmed = s.denyArmed := rfl
@[simp] theorem State.setEp_resp (v : EpState) : (s.setEp v).resp = s.resp := rfl
@[simp] theorem State.setEp_free (v : EpState) : (s.setEp v).free = s.free := rfl
@[simp] theorem State.setEp_out (v : EpState) : (s.setEp v).out = s.out := rfl
@[simp] theorem State.setEp_hbm (v : EpState) : (s.setEp v).hbm = s.hbm := rfl
@[simp] theorem State.setEp_carry (v : EpState) : (s.setEp v).carry = s.carry := rfl
@[simp] theorem State.setEp_tiles (v : EpState) : (s.setEp v).tiles = s.tiles := rfl
@[simp] theorem State.setEp_edges (v : EpState) : (s.setEp v).edges = s.edges := rfl
@[simp] theorem State.setEp_gws (v : EpState) : (s.setEp v).gws = s.gws := rfl
@[simp] theorem State.setEp_spine (v : EpState) : (s.setEp v).spine = s.spine := rfl
@[simp] theorem State.setEp_spineBad (v : EpState) : (s.setEp v).spineBad = s.spineBad := rfl
@[simp] theorem State.setEp_seqs (v : EpState) : (s.setEp v).seqs = s.seqs := rfl
@[simp] theorem State.setEp_cores (v : EpState) : (s.setEp v).cores = s.cores := rfl
@[simp] theorem State.setEp_threads (v : EpState) : (s.setEp v).threads = s.threads := rfl
@[simp] theorem State.setEp_vtCopy (v : EpState) : (s.setEp v).vtCopy = s.vtCopy := rfl
@[simp] theorem State.setEp_sync (v : EpState) : (s.setEp v).sync = s.sync := rfl
@[simp] theorem State.setEp_sol (v : EpState) : (s.setEp v).sol = s.sol := rfl
@[simp] theorem State.setEp_qsk (v : EpState) : (s.setEp v).qsk = s.qsk := rfl
@[simp] theorem State.setEp_wires (v : EpState) : (s.setEp v).wires = s.wires := rfl
@[simp] theorem State.setEp_flits (v : EpState) : (s.setEp v).flits = s.flits := rfl
@[simp] theorem State.setEp_rbufs (v : EpState) : (s.setEp v).rbufs = s.rbufs := rfl
@[simp] theorem State.setEp_fstr (v : EpState) : (s.setEp v).fstr = s.fstr := rfl
@[simp] theorem State.setEp_codec (v : EpState) : (s.setEp v).codec = s.codec := rfl
@[simp] theorem State.setEp_reqs (v : EpState) : (s.setEp v).reqs = s.reqs := rfl
@[simp] theorem State.setEp_nextReq (v : EpState) : (s.setEp v).nextReq = s.nextReq := rfl
@[simp] theorem State.setEp_held (v : EpState) : (s.setEp v).held = s.held := rfl
@[simp] theorem State.setEp_load (v : EpState) : (s.setEp v).load = s.load := rfl
@[simp] theorem State.setEp_unitGw (v : EpState) : (s.setEp v).unitGw = s.unitGw := rfl
@[simp] theorem State.setEp_otp (v : EpState) : (s.setEp v).otp = s.otp := rfl
@[simp] theorem State.setEp_bgw (v : EpState) : (s.setEp v).bgw = s.bgw := rfl
@[simp] theorem State.setEp_isl (v : EpState) : (s.setEp v).isl = s.isl := rfl
@[simp] theorem State.setEp_learn (v : EpState) : (s.setEp v).learn = s.learn := rfl
@[simp] theorem State.setEp_stw (v : EpState) : (s.setEp v).stw = s.stw := rfl
@[simp] theorem State.setEp_ev (v : EpState) : (s.setEp v).ev = s.ev := rfl
@[simp] theorem State.setEth_pending (v : List (Nat × EthPort)) : (s.setEth v).pending = s.pending := rfl
@[simp] theorem State.setEth_regs (v : List (Nat × EthPort)) : (s.setEth v).regs = s.regs := rfl
@[simp] theorem State.setEth_mem (v : List (Nat × EthPort)) : (s.setEth v).mem = s.mem := rfl
@[simp] theorem State.setEth_ecc (v : List (Nat × EthPort)) : (s.setEth v).ecc = s.ecc := rfl
@[simp] theorem State.setEth_alm (v : List (Nat × EthPort)) : (s.setEth v).alm = s.alm := rfl
@[simp] theorem State.setEth_bm (v : List (Nat × EthPort)) : (s.setEth v).bm = s.bm := rfl
@[simp] theorem State.setEth_flt (v : List (Nat × EthPort)) : (s.setEth v).flt = s.flt := rfl
@[simp] theorem State.setEth_pwr (v : List (Nat × EthPort)) : (s.setEth v).pwr = s.pwr := rfl
@[simp] theorem State.setEth_irq (v : List (Nat × EthPort)) : (s.setEth v).irq = s.irq := rfl
@[simp] theorem State.setEth_pipes (v : List (Nat × EthPort)) : (s.setEth v).pipes = s.pipes := rfl
@[simp] theorem State.setEth_streams (v : List (Nat × EthPort)) : (s.setEth v).streams = s.streams := rfl
@[simp] theorem State.setEth_ep (v : List (Nat × EthPort)) : (s.setEth v).ep = s.ep := rfl
@[simp] theorem State.setEth_eth (v : List (Nat × EthPort)) : (s.setEth v).eth = v := rfl
@[simp] theorem State.setEth_denyArmed (v : List (Nat × EthPort)) : (s.setEth v).denyArmed = s.denyArmed := rfl
@[simp] theorem State.setEth_resp (v : List (Nat × EthPort)) : (s.setEth v).resp = s.resp := rfl
@[simp] theorem State.setEth_free (v : List (Nat × EthPort)) : (s.setEth v).free = s.free := rfl
@[simp] theorem State.setEth_out (v : List (Nat × EthPort)) : (s.setEth v).out = s.out := rfl
@[simp] theorem State.setEth_hbm (v : List (Nat × EthPort)) : (s.setEth v).hbm = s.hbm := rfl
@[simp] theorem State.setEth_carry (v : List (Nat × EthPort)) : (s.setEth v).carry = s.carry := rfl
@[simp] theorem State.setEth_tiles (v : List (Nat × EthPort)) : (s.setEth v).tiles = s.tiles := rfl
@[simp] theorem State.setEth_edges (v : List (Nat × EthPort)) : (s.setEth v).edges = s.edges := rfl
@[simp] theorem State.setEth_gws (v : List (Nat × EthPort)) : (s.setEth v).gws = s.gws := rfl
@[simp] theorem State.setEth_spine (v : List (Nat × EthPort)) : (s.setEth v).spine = s.spine := rfl
@[simp] theorem State.setEth_spineBad (v : List (Nat × EthPort)) : (s.setEth v).spineBad = s.spineBad := rfl
@[simp] theorem State.setEth_seqs (v : List (Nat × EthPort)) : (s.setEth v).seqs = s.seqs := rfl
@[simp] theorem State.setEth_cores (v : List (Nat × EthPort)) : (s.setEth v).cores = s.cores := rfl
@[simp] theorem State.setEth_threads (v : List (Nat × EthPort)) : (s.setEth v).threads = s.threads := rfl
@[simp] theorem State.setEth_vtCopy (v : List (Nat × EthPort)) : (s.setEth v).vtCopy = s.vtCopy := rfl
@[simp] theorem State.setEth_sync (v : List (Nat × EthPort)) : (s.setEth v).sync = s.sync := rfl
@[simp] theorem State.setEth_sol (v : List (Nat × EthPort)) : (s.setEth v).sol = s.sol := rfl
@[simp] theorem State.setEth_qsk (v : List (Nat × EthPort)) : (s.setEth v).qsk = s.qsk := rfl
@[simp] theorem State.setEth_wires (v : List (Nat × EthPort)) : (s.setEth v).wires = s.wires := rfl
@[simp] theorem State.setEth_flits (v : List (Nat × EthPort)) : (s.setEth v).flits = s.flits := rfl
@[simp] theorem State.setEth_rbufs (v : List (Nat × EthPort)) : (s.setEth v).rbufs = s.rbufs := rfl
@[simp] theorem State.setEth_fstr (v : List (Nat × EthPort)) : (s.setEth v).fstr = s.fstr := rfl
@[simp] theorem State.setEth_codec (v : List (Nat × EthPort)) : (s.setEth v).codec = s.codec := rfl
@[simp] theorem State.setEth_reqs (v : List (Nat × EthPort)) : (s.setEth v).reqs = s.reqs := rfl
@[simp] theorem State.setEth_nextReq (v : List (Nat × EthPort)) : (s.setEth v).nextReq = s.nextReq := rfl
@[simp] theorem State.setEth_held (v : List (Nat × EthPort)) : (s.setEth v).held = s.held := rfl
@[simp] theorem State.setEth_load (v : List (Nat × EthPort)) : (s.setEth v).load = s.load := rfl
@[simp] theorem State.setEth_unitGw (v : List (Nat × EthPort)) : (s.setEth v).unitGw = s.unitGw := rfl
@[simp] theorem State.setEth_otp (v : List (Nat × EthPort)) : (s.setEth v).otp = s.otp := rfl
@[simp] theorem State.setEth_bgw (v : List (Nat × EthPort)) : (s.setEth v).bgw = s.bgw := rfl
@[simp] theorem State.setEth_isl (v : List (Nat × EthPort)) : (s.setEth v).isl = s.isl := rfl
@[simp] theorem State.setEth_learn (v : List (Nat × EthPort)) : (s.setEth v).learn = s.learn := rfl
@[simp] theorem State.setEth_stw (v : List (Nat × EthPort)) : (s.setEth v).stw = s.stw := rfl
@[simp] theorem State.setEth_ev (v : List (Nat × EthPort)) : (s.setEth v).ev = s.ev := rfl
@[simp] theorem State.setDenyArmed_pending (v : Bool) : (s.setDenyArmed v).pending = s.pending := rfl
@[simp] theorem State.setDenyArmed_regs (v : Bool) : (s.setDenyArmed v).regs = s.regs := rfl
@[simp] theorem State.setDenyArmed_mem (v : Bool) : (s.setDenyArmed v).mem = s.mem := rfl
@[simp] theorem State.setDenyArmed_ecc (v : Bool) : (s.setDenyArmed v).ecc = s.ecc := rfl
@[simp] theorem State.setDenyArmed_alm (v : Bool) : (s.setDenyArmed v).alm = s.alm := rfl
@[simp] theorem State.setDenyArmed_bm (v : Bool) : (s.setDenyArmed v).bm = s.bm := rfl
@[simp] theorem State.setDenyArmed_flt (v : Bool) : (s.setDenyArmed v).flt = s.flt := rfl
@[simp] theorem State.setDenyArmed_pwr (v : Bool) : (s.setDenyArmed v).pwr = s.pwr := rfl
@[simp] theorem State.setDenyArmed_irq (v : Bool) : (s.setDenyArmed v).irq = s.irq := rfl
@[simp] theorem State.setDenyArmed_pipes (v : Bool) : (s.setDenyArmed v).pipes = s.pipes := rfl
@[simp] theorem State.setDenyArmed_streams (v : Bool) : (s.setDenyArmed v).streams = s.streams := rfl
@[simp] theorem State.setDenyArmed_ep (v : Bool) : (s.setDenyArmed v).ep = s.ep := rfl
@[simp] theorem State.setDenyArmed_eth (v : Bool) : (s.setDenyArmed v).eth = s.eth := rfl
@[simp] theorem State.setDenyArmed_denyArmed (v : Bool) : (s.setDenyArmed v).denyArmed = v := rfl
@[simp] theorem State.setDenyArmed_resp (v : Bool) : (s.setDenyArmed v).resp = s.resp := rfl
@[simp] theorem State.setDenyArmed_free (v : Bool) : (s.setDenyArmed v).free = s.free := rfl
@[simp] theorem State.setDenyArmed_out (v : Bool) : (s.setDenyArmed v).out = s.out := rfl
@[simp] theorem State.setDenyArmed_hbm (v : Bool) : (s.setDenyArmed v).hbm = s.hbm := rfl
@[simp] theorem State.setDenyArmed_carry (v : Bool) : (s.setDenyArmed v).carry = s.carry := rfl
@[simp] theorem State.setDenyArmed_tiles (v : Bool) : (s.setDenyArmed v).tiles = s.tiles := rfl
@[simp] theorem State.setDenyArmed_edges (v : Bool) : (s.setDenyArmed v).edges = s.edges := rfl
@[simp] theorem State.setDenyArmed_gws (v : Bool) : (s.setDenyArmed v).gws = s.gws := rfl
@[simp] theorem State.setDenyArmed_spine (v : Bool) : (s.setDenyArmed v).spine = s.spine := rfl
@[simp] theorem State.setDenyArmed_spineBad (v : Bool) : (s.setDenyArmed v).spineBad = s.spineBad := rfl
@[simp] theorem State.setDenyArmed_seqs (v : Bool) : (s.setDenyArmed v).seqs = s.seqs := rfl
@[simp] theorem State.setDenyArmed_cores (v : Bool) : (s.setDenyArmed v).cores = s.cores := rfl
@[simp] theorem State.setDenyArmed_threads (v : Bool) : (s.setDenyArmed v).threads = s.threads := rfl
@[simp] theorem State.setDenyArmed_vtCopy (v : Bool) : (s.setDenyArmed v).vtCopy = s.vtCopy := rfl
@[simp] theorem State.setDenyArmed_sync (v : Bool) : (s.setDenyArmed v).sync = s.sync := rfl
@[simp] theorem State.setDenyArmed_sol (v : Bool) : (s.setDenyArmed v).sol = s.sol := rfl
@[simp] theorem State.setDenyArmed_qsk (v : Bool) : (s.setDenyArmed v).qsk = s.qsk := rfl
@[simp] theorem State.setDenyArmed_wires (v : Bool) : (s.setDenyArmed v).wires = s.wires := rfl
@[simp] theorem State.setDenyArmed_flits (v : Bool) : (s.setDenyArmed v).flits = s.flits := rfl
@[simp] theorem State.setDenyArmed_rbufs (v : Bool) : (s.setDenyArmed v).rbufs = s.rbufs := rfl
@[simp] theorem State.setDenyArmed_fstr (v : Bool) : (s.setDenyArmed v).fstr = s.fstr := rfl
@[simp] theorem State.setDenyArmed_codec (v : Bool) : (s.setDenyArmed v).codec = s.codec := rfl
@[simp] theorem State.setDenyArmed_reqs (v : Bool) : (s.setDenyArmed v).reqs = s.reqs := rfl
@[simp] theorem State.setDenyArmed_nextReq (v : Bool) : (s.setDenyArmed v).nextReq = s.nextReq := rfl
@[simp] theorem State.setDenyArmed_held (v : Bool) : (s.setDenyArmed v).held = s.held := rfl
@[simp] theorem State.setDenyArmed_load (v : Bool) : (s.setDenyArmed v).load = s.load := rfl
@[simp] theorem State.setDenyArmed_unitGw (v : Bool) : (s.setDenyArmed v).unitGw = s.unitGw := rfl
@[simp] theorem State.setDenyArmed_otp (v : Bool) : (s.setDenyArmed v).otp = s.otp := rfl
@[simp] theorem State.setDenyArmed_bgw (v : Bool) : (s.setDenyArmed v).bgw = s.bgw := rfl
@[simp] theorem State.setDenyArmed_isl (v : Bool) : (s.setDenyArmed v).isl = s.isl := rfl
@[simp] theorem State.setDenyArmed_learn (v : Bool) : (s.setDenyArmed v).learn = s.learn := rfl
@[simp] theorem State.setDenyArmed_stw (v : Bool) : (s.setDenyArmed v).stw = s.stw := rfl
@[simp] theorem State.setDenyArmed_ev (v : Bool) : (s.setDenyArmed v).ev = s.ev := rfl
@[simp] theorem State.setResp_pending (v : Option Resp) : (s.setResp v).pending = s.pending := rfl
@[simp] theorem State.setResp_regs (v : Option Resp) : (s.setResp v).regs = s.regs := rfl
@[simp] theorem State.setResp_mem (v : Option Resp) : (s.setResp v).mem = s.mem := rfl
@[simp] theorem State.setResp_ecc (v : Option Resp) : (s.setResp v).ecc = s.ecc := rfl
@[simp] theorem State.setResp_alm (v : Option Resp) : (s.setResp v).alm = s.alm := rfl
@[simp] theorem State.setResp_bm (v : Option Resp) : (s.setResp v).bm = s.bm := rfl
@[simp] theorem State.setResp_flt (v : Option Resp) : (s.setResp v).flt = s.flt := rfl
@[simp] theorem State.setResp_pwr (v : Option Resp) : (s.setResp v).pwr = s.pwr := rfl
@[simp] theorem State.setResp_irq (v : Option Resp) : (s.setResp v).irq = s.irq := rfl
@[simp] theorem State.setResp_pipes (v : Option Resp) : (s.setResp v).pipes = s.pipes := rfl
@[simp] theorem State.setResp_streams (v : Option Resp) : (s.setResp v).streams = s.streams := rfl
@[simp] theorem State.setResp_ep (v : Option Resp) : (s.setResp v).ep = s.ep := rfl
@[simp] theorem State.setResp_eth (v : Option Resp) : (s.setResp v).eth = s.eth := rfl
@[simp] theorem State.setResp_denyArmed (v : Option Resp) : (s.setResp v).denyArmed = s.denyArmed := rfl
@[simp] theorem State.setResp_resp (v : Option Resp) : (s.setResp v).resp = v := rfl
@[simp] theorem State.setResp_free (v : Option Resp) : (s.setResp v).free = s.free := rfl
@[simp] theorem State.setResp_out (v : Option Resp) : (s.setResp v).out = s.out := rfl
@[simp] theorem State.setResp_hbm (v : Option Resp) : (s.setResp v).hbm = s.hbm := rfl
@[simp] theorem State.setResp_carry (v : Option Resp) : (s.setResp v).carry = s.carry := rfl
@[simp] theorem State.setResp_tiles (v : Option Resp) : (s.setResp v).tiles = s.tiles := rfl
@[simp] theorem State.setResp_edges (v : Option Resp) : (s.setResp v).edges = s.edges := rfl
@[simp] theorem State.setResp_gws (v : Option Resp) : (s.setResp v).gws = s.gws := rfl
@[simp] theorem State.setResp_spine (v : Option Resp) : (s.setResp v).spine = s.spine := rfl
@[simp] theorem State.setResp_spineBad (v : Option Resp) : (s.setResp v).spineBad = s.spineBad := rfl
@[simp] theorem State.setResp_seqs (v : Option Resp) : (s.setResp v).seqs = s.seqs := rfl
@[simp] theorem State.setResp_cores (v : Option Resp) : (s.setResp v).cores = s.cores := rfl
@[simp] theorem State.setResp_threads (v : Option Resp) : (s.setResp v).threads = s.threads := rfl
@[simp] theorem State.setResp_vtCopy (v : Option Resp) : (s.setResp v).vtCopy = s.vtCopy := rfl
@[simp] theorem State.setResp_sync (v : Option Resp) : (s.setResp v).sync = s.sync := rfl
@[simp] theorem State.setResp_sol (v : Option Resp) : (s.setResp v).sol = s.sol := rfl
@[simp] theorem State.setResp_qsk (v : Option Resp) : (s.setResp v).qsk = s.qsk := rfl
@[simp] theorem State.setResp_wires (v : Option Resp) : (s.setResp v).wires = s.wires := rfl
@[simp] theorem State.setResp_flits (v : Option Resp) : (s.setResp v).flits = s.flits := rfl
@[simp] theorem State.setResp_rbufs (v : Option Resp) : (s.setResp v).rbufs = s.rbufs := rfl
@[simp] theorem State.setResp_fstr (v : Option Resp) : (s.setResp v).fstr = s.fstr := rfl
@[simp] theorem State.setResp_codec (v : Option Resp) : (s.setResp v).codec = s.codec := rfl
@[simp] theorem State.setResp_reqs (v : Option Resp) : (s.setResp v).reqs = s.reqs := rfl
@[simp] theorem State.setResp_nextReq (v : Option Resp) : (s.setResp v).nextReq = s.nextReq := rfl
@[simp] theorem State.setResp_held (v : Option Resp) : (s.setResp v).held = s.held := rfl
@[simp] theorem State.setResp_load (v : Option Resp) : (s.setResp v).load = s.load := rfl
@[simp] theorem State.setResp_unitGw (v : Option Resp) : (s.setResp v).unitGw = s.unitGw := rfl
@[simp] theorem State.setResp_otp (v : Option Resp) : (s.setResp v).otp = s.otp := rfl
@[simp] theorem State.setResp_bgw (v : Option Resp) : (s.setResp v).bgw = s.bgw := rfl
@[simp] theorem State.setResp_isl (v : Option Resp) : (s.setResp v).isl = s.isl := rfl
@[simp] theorem State.setResp_learn (v : Option Resp) : (s.setResp v).learn = s.learn := rfl
@[simp] theorem State.setResp_stw (v : Option Resp) : (s.setResp v).stw = s.stw := rfl
@[simp] theorem State.setResp_ev (v : Option Resp) : (s.setResp v).ev = s.ev := rfl
@[simp] theorem State.setFree_pending (v : Nat) : (s.setFree v).pending = s.pending := rfl
@[simp] theorem State.setFree_regs (v : Nat) : (s.setFree v).regs = s.regs := rfl
@[simp] theorem State.setFree_mem (v : Nat) : (s.setFree v).mem = s.mem := rfl
@[simp] theorem State.setFree_ecc (v : Nat) : (s.setFree v).ecc = s.ecc := rfl
@[simp] theorem State.setFree_alm (v : Nat) : (s.setFree v).alm = s.alm := rfl
@[simp] theorem State.setFree_bm (v : Nat) : (s.setFree v).bm = s.bm := rfl
@[simp] theorem State.setFree_flt (v : Nat) : (s.setFree v).flt = s.flt := rfl
@[simp] theorem State.setFree_pwr (v : Nat) : (s.setFree v).pwr = s.pwr := rfl
@[simp] theorem State.setFree_irq (v : Nat) : (s.setFree v).irq = s.irq := rfl
@[simp] theorem State.setFree_pipes (v : Nat) : (s.setFree v).pipes = s.pipes := rfl
@[simp] theorem State.setFree_streams (v : Nat) : (s.setFree v).streams = s.streams := rfl
@[simp] theorem State.setFree_ep (v : Nat) : (s.setFree v).ep = s.ep := rfl
@[simp] theorem State.setFree_eth (v : Nat) : (s.setFree v).eth = s.eth := rfl
@[simp] theorem State.setFree_denyArmed (v : Nat) : (s.setFree v).denyArmed = s.denyArmed := rfl
@[simp] theorem State.setFree_resp (v : Nat) : (s.setFree v).resp = s.resp := rfl
@[simp] theorem State.setFree_free (v : Nat) : (s.setFree v).free = v := rfl
@[simp] theorem State.setFree_out (v : Nat) : (s.setFree v).out = s.out := rfl
@[simp] theorem State.setFree_hbm (v : Nat) : (s.setFree v).hbm = s.hbm := rfl
@[simp] theorem State.setFree_carry (v : Nat) : (s.setFree v).carry = s.carry := rfl
@[simp] theorem State.setFree_tiles (v : Nat) : (s.setFree v).tiles = s.tiles := rfl
@[simp] theorem State.setFree_edges (v : Nat) : (s.setFree v).edges = s.edges := rfl
@[simp] theorem State.setFree_gws (v : Nat) : (s.setFree v).gws = s.gws := rfl
@[simp] theorem State.setFree_spine (v : Nat) : (s.setFree v).spine = s.spine := rfl
@[simp] theorem State.setFree_spineBad (v : Nat) : (s.setFree v).spineBad = s.spineBad := rfl
@[simp] theorem State.setFree_seqs (v : Nat) : (s.setFree v).seqs = s.seqs := rfl
@[simp] theorem State.setFree_cores (v : Nat) : (s.setFree v).cores = s.cores := rfl
@[simp] theorem State.setFree_threads (v : Nat) : (s.setFree v).threads = s.threads := rfl
@[simp] theorem State.setFree_vtCopy (v : Nat) : (s.setFree v).vtCopy = s.vtCopy := rfl
@[simp] theorem State.setFree_sync (v : Nat) : (s.setFree v).sync = s.sync := rfl
@[simp] theorem State.setFree_sol (v : Nat) : (s.setFree v).sol = s.sol := rfl
@[simp] theorem State.setFree_qsk (v : Nat) : (s.setFree v).qsk = s.qsk := rfl
@[simp] theorem State.setFree_wires (v : Nat) : (s.setFree v).wires = s.wires := rfl
@[simp] theorem State.setFree_flits (v : Nat) : (s.setFree v).flits = s.flits := rfl
@[simp] theorem State.setFree_rbufs (v : Nat) : (s.setFree v).rbufs = s.rbufs := rfl
@[simp] theorem State.setFree_fstr (v : Nat) : (s.setFree v).fstr = s.fstr := rfl
@[simp] theorem State.setFree_codec (v : Nat) : (s.setFree v).codec = s.codec := rfl
@[simp] theorem State.setFree_reqs (v : Nat) : (s.setFree v).reqs = s.reqs := rfl
@[simp] theorem State.setFree_nextReq (v : Nat) : (s.setFree v).nextReq = s.nextReq := rfl
@[simp] theorem State.setFree_held (v : Nat) : (s.setFree v).held = s.held := rfl
@[simp] theorem State.setFree_load (v : Nat) : (s.setFree v).load = s.load := rfl
@[simp] theorem State.setFree_unitGw (v : Nat) : (s.setFree v).unitGw = s.unitGw := rfl
@[simp] theorem State.setFree_otp (v : Nat) : (s.setFree v).otp = s.otp := rfl
@[simp] theorem State.setFree_bgw (v : Nat) : (s.setFree v).bgw = s.bgw := rfl
@[simp] theorem State.setFree_isl (v : Nat) : (s.setFree v).isl = s.isl := rfl
@[simp] theorem State.setFree_learn (v : Nat) : (s.setFree v).learn = s.learn := rfl
@[simp] theorem State.setFree_stw (v : Nat) : (s.setFree v).stw = s.stw := rfl
@[simp] theorem State.setFree_ev (v : Nat) : (s.setFree v).ev = s.ev := rfl
@[simp] theorem State.setOut_pending (v : List OutMsg) : (s.setOut v).pending = s.pending := rfl
@[simp] theorem State.setOut_regs (v : List OutMsg) : (s.setOut v).regs = s.regs := rfl
@[simp] theorem State.setOut_mem (v : List OutMsg) : (s.setOut v).mem = s.mem := rfl
@[simp] theorem State.setOut_ecc (v : List OutMsg) : (s.setOut v).ecc = s.ecc := rfl
@[simp] theorem State.setOut_alm (v : List OutMsg) : (s.setOut v).alm = s.alm := rfl
@[simp] theorem State.setOut_bm (v : List OutMsg) : (s.setOut v).bm = s.bm := rfl
@[simp] theorem State.setOut_flt (v : List OutMsg) : (s.setOut v).flt = s.flt := rfl
@[simp] theorem State.setOut_pwr (v : List OutMsg) : (s.setOut v).pwr = s.pwr := rfl
@[simp] theorem State.setOut_irq (v : List OutMsg) : (s.setOut v).irq = s.irq := rfl
@[simp] theorem State.setOut_pipes (v : List OutMsg) : (s.setOut v).pipes = s.pipes := rfl
@[simp] theorem State.setOut_streams (v : List OutMsg) : (s.setOut v).streams = s.streams := rfl
@[simp] theorem State.setOut_ep (v : List OutMsg) : (s.setOut v).ep = s.ep := rfl
@[simp] theorem State.setOut_eth (v : List OutMsg) : (s.setOut v).eth = s.eth := rfl
@[simp] theorem State.setOut_denyArmed (v : List OutMsg) : (s.setOut v).denyArmed = s.denyArmed := rfl
@[simp] theorem State.setOut_resp (v : List OutMsg) : (s.setOut v).resp = s.resp := rfl
@[simp] theorem State.setOut_free (v : List OutMsg) : (s.setOut v).free = s.free := rfl
@[simp] theorem State.setOut_out (v : List OutMsg) : (s.setOut v).out = v := rfl
@[simp] theorem State.setOut_hbm (v : List OutMsg) : (s.setOut v).hbm = s.hbm := rfl
@[simp] theorem State.setOut_carry (v : List OutMsg) : (s.setOut v).carry = s.carry := rfl
@[simp] theorem State.setOut_tiles (v : List OutMsg) : (s.setOut v).tiles = s.tiles := rfl
@[simp] theorem State.setOut_edges (v : List OutMsg) : (s.setOut v).edges = s.edges := rfl
@[simp] theorem State.setOut_gws (v : List OutMsg) : (s.setOut v).gws = s.gws := rfl
@[simp] theorem State.setOut_spine (v : List OutMsg) : (s.setOut v).spine = s.spine := rfl
@[simp] theorem State.setOut_spineBad (v : List OutMsg) : (s.setOut v).spineBad = s.spineBad := rfl
@[simp] theorem State.setOut_seqs (v : List OutMsg) : (s.setOut v).seqs = s.seqs := rfl
@[simp] theorem State.setOut_cores (v : List OutMsg) : (s.setOut v).cores = s.cores := rfl
@[simp] theorem State.setOut_threads (v : List OutMsg) : (s.setOut v).threads = s.threads := rfl
@[simp] theorem State.setOut_vtCopy (v : List OutMsg) : (s.setOut v).vtCopy = s.vtCopy := rfl
@[simp] theorem State.setOut_sync (v : List OutMsg) : (s.setOut v).sync = s.sync := rfl
@[simp] theorem State.setOut_sol (v : List OutMsg) : (s.setOut v).sol = s.sol := rfl
@[simp] theorem State.setOut_qsk (v : List OutMsg) : (s.setOut v).qsk = s.qsk := rfl
@[simp] theorem State.setOut_wires (v : List OutMsg) : (s.setOut v).wires = s.wires := rfl
@[simp] theorem State.setOut_flits (v : List OutMsg) : (s.setOut v).flits = s.flits := rfl
@[simp] theorem State.setOut_rbufs (v : List OutMsg) : (s.setOut v).rbufs = s.rbufs := rfl
@[simp] theorem State.setOut_fstr (v : List OutMsg) : (s.setOut v).fstr = s.fstr := rfl
@[simp] theorem State.setOut_codec (v : List OutMsg) : (s.setOut v).codec = s.codec := rfl
@[simp] theorem State.setOut_reqs (v : List OutMsg) : (s.setOut v).reqs = s.reqs := rfl
@[simp] theorem State.setOut_nextReq (v : List OutMsg) : (s.setOut v).nextReq = s.nextReq := rfl
@[simp] theorem State.setOut_held (v : List OutMsg) : (s.setOut v).held = s.held := rfl
@[simp] theorem State.setOut_load (v : List OutMsg) : (s.setOut v).load = s.load := rfl
@[simp] theorem State.setOut_unitGw (v : List OutMsg) : (s.setOut v).unitGw = s.unitGw := rfl
@[simp] theorem State.setOut_otp (v : List OutMsg) : (s.setOut v).otp = s.otp := rfl
@[simp] theorem State.setOut_bgw (v : List OutMsg) : (s.setOut v).bgw = s.bgw := rfl
@[simp] theorem State.setOut_isl (v : List OutMsg) : (s.setOut v).isl = s.isl := rfl
@[simp] theorem State.setOut_learn (v : List OutMsg) : (s.setOut v).learn = s.learn := rfl
@[simp] theorem State.setOut_stw (v : List OutMsg) : (s.setOut v).stw = s.stw := rfl
@[simp] theorem State.setOut_ev (v : List OutMsg) : (s.setOut v).ev = s.ev := rfl
@[simp] theorem State.setHbm_pending (v : HbmState) : (s.setHbm v).pending = s.pending := rfl
@[simp] theorem State.setHbm_regs (v : HbmState) : (s.setHbm v).regs = s.regs := rfl
@[simp] theorem State.setHbm_mem (v : HbmState) : (s.setHbm v).mem = s.mem := rfl
@[simp] theorem State.setHbm_ecc (v : HbmState) : (s.setHbm v).ecc = s.ecc := rfl
@[simp] theorem State.setHbm_alm (v : HbmState) : (s.setHbm v).alm = s.alm := rfl
@[simp] theorem State.setHbm_bm (v : HbmState) : (s.setHbm v).bm = s.bm := rfl
@[simp] theorem State.setHbm_flt (v : HbmState) : (s.setHbm v).flt = s.flt := rfl
@[simp] theorem State.setHbm_pwr (v : HbmState) : (s.setHbm v).pwr = s.pwr := rfl
@[simp] theorem State.setHbm_irq (v : HbmState) : (s.setHbm v).irq = s.irq := rfl
@[simp] theorem State.setHbm_pipes (v : HbmState) : (s.setHbm v).pipes = s.pipes := rfl
@[simp] theorem State.setHbm_streams (v : HbmState) : (s.setHbm v).streams = s.streams := rfl
@[simp] theorem State.setHbm_ep (v : HbmState) : (s.setHbm v).ep = s.ep := rfl
@[simp] theorem State.setHbm_eth (v : HbmState) : (s.setHbm v).eth = s.eth := rfl
@[simp] theorem State.setHbm_denyArmed (v : HbmState) : (s.setHbm v).denyArmed = s.denyArmed := rfl
@[simp] theorem State.setHbm_resp (v : HbmState) : (s.setHbm v).resp = s.resp := rfl
@[simp] theorem State.setHbm_free (v : HbmState) : (s.setHbm v).free = s.free := rfl
@[simp] theorem State.setHbm_out (v : HbmState) : (s.setHbm v).out = s.out := rfl
@[simp] theorem State.setHbm_hbm (v : HbmState) : (s.setHbm v).hbm = v := rfl
@[simp] theorem State.setHbm_carry (v : HbmState) : (s.setHbm v).carry = s.carry := rfl
@[simp] theorem State.setHbm_tiles (v : HbmState) : (s.setHbm v).tiles = s.tiles := rfl
@[simp] theorem State.setHbm_edges (v : HbmState) : (s.setHbm v).edges = s.edges := rfl
@[simp] theorem State.setHbm_gws (v : HbmState) : (s.setHbm v).gws = s.gws := rfl
@[simp] theorem State.setHbm_spine (v : HbmState) : (s.setHbm v).spine = s.spine := rfl
@[simp] theorem State.setHbm_spineBad (v : HbmState) : (s.setHbm v).spineBad = s.spineBad := rfl
@[simp] theorem State.setHbm_seqs (v : HbmState) : (s.setHbm v).seqs = s.seqs := rfl
@[simp] theorem State.setHbm_cores (v : HbmState) : (s.setHbm v).cores = s.cores := rfl
@[simp] theorem State.setHbm_threads (v : HbmState) : (s.setHbm v).threads = s.threads := rfl
@[simp] theorem State.setHbm_vtCopy (v : HbmState) : (s.setHbm v).vtCopy = s.vtCopy := rfl
@[simp] theorem State.setHbm_sync (v : HbmState) : (s.setHbm v).sync = s.sync := rfl
@[simp] theorem State.setHbm_sol (v : HbmState) : (s.setHbm v).sol = s.sol := rfl
@[simp] theorem State.setHbm_qsk (v : HbmState) : (s.setHbm v).qsk = s.qsk := rfl
@[simp] theorem State.setHbm_wires (v : HbmState) : (s.setHbm v).wires = s.wires := rfl
@[simp] theorem State.setHbm_flits (v : HbmState) : (s.setHbm v).flits = s.flits := rfl
@[simp] theorem State.setHbm_rbufs (v : HbmState) : (s.setHbm v).rbufs = s.rbufs := rfl
@[simp] theorem State.setHbm_fstr (v : HbmState) : (s.setHbm v).fstr = s.fstr := rfl
@[simp] theorem State.setHbm_codec (v : HbmState) : (s.setHbm v).codec = s.codec := rfl
@[simp] theorem State.setHbm_reqs (v : HbmState) : (s.setHbm v).reqs = s.reqs := rfl
@[simp] theorem State.setHbm_nextReq (v : HbmState) : (s.setHbm v).nextReq = s.nextReq := rfl
@[simp] theorem State.setHbm_held (v : HbmState) : (s.setHbm v).held = s.held := rfl
@[simp] theorem State.setHbm_load (v : HbmState) : (s.setHbm v).load = s.load := rfl
@[simp] theorem State.setHbm_unitGw (v : HbmState) : (s.setHbm v).unitGw = s.unitGw := rfl
@[simp] theorem State.setHbm_otp (v : HbmState) : (s.setHbm v).otp = s.otp := rfl
@[simp] theorem State.setHbm_bgw (v : HbmState) : (s.setHbm v).bgw = s.bgw := rfl
@[simp] theorem State.setHbm_isl (v : HbmState) : (s.setHbm v).isl = s.isl := rfl
@[simp] theorem State.setHbm_learn (v : HbmState) : (s.setHbm v).learn = s.learn := rfl
@[simp] theorem State.setHbm_stw (v : HbmState) : (s.setHbm v).stw = s.stw := rfl
@[simp] theorem State.setHbm_ev (v : HbmState) : (s.setHbm v).ev = s.ev := rfl
@[simp] theorem State.setCarry_pending (v : List (Nat × CarryEntry)) : (s.setCarry v).pending = s.pending := rfl
@[simp] theorem State.setCarry_regs (v : List (Nat × CarryEntry)) : (s.setCarry v).regs = s.regs := rfl
@[simp] theorem State.setCarry_mem (v : List (Nat × CarryEntry)) : (s.setCarry v).mem = s.mem := rfl
@[simp] theorem State.setCarry_ecc (v : List (Nat × CarryEntry)) : (s.setCarry v).ecc = s.ecc := rfl
@[simp] theorem State.setCarry_alm (v : List (Nat × CarryEntry)) : (s.setCarry v).alm = s.alm := rfl
@[simp] theorem State.setCarry_bm (v : List (Nat × CarryEntry)) : (s.setCarry v).bm = s.bm := rfl
@[simp] theorem State.setCarry_flt (v : List (Nat × CarryEntry)) : (s.setCarry v).flt = s.flt := rfl
@[simp] theorem State.setCarry_pwr (v : List (Nat × CarryEntry)) : (s.setCarry v).pwr = s.pwr := rfl
@[simp] theorem State.setCarry_irq (v : List (Nat × CarryEntry)) : (s.setCarry v).irq = s.irq := rfl
@[simp] theorem State.setCarry_pipes (v : List (Nat × CarryEntry)) : (s.setCarry v).pipes = s.pipes := rfl
@[simp] theorem State.setCarry_streams (v : List (Nat × CarryEntry)) : (s.setCarry v).streams = s.streams := rfl
@[simp] theorem State.setCarry_ep (v : List (Nat × CarryEntry)) : (s.setCarry v).ep = s.ep := rfl
@[simp] theorem State.setCarry_eth (v : List (Nat × CarryEntry)) : (s.setCarry v).eth = s.eth := rfl
@[simp] theorem State.setCarry_denyArmed (v : List (Nat × CarryEntry)) : (s.setCarry v).denyArmed = s.denyArmed := rfl
@[simp] theorem State.setCarry_resp (v : List (Nat × CarryEntry)) : (s.setCarry v).resp = s.resp := rfl
@[simp] theorem State.setCarry_free (v : List (Nat × CarryEntry)) : (s.setCarry v).free = s.free := rfl
@[simp] theorem State.setCarry_out (v : List (Nat × CarryEntry)) : (s.setCarry v).out = s.out := rfl
@[simp] theorem State.setCarry_hbm (v : List (Nat × CarryEntry)) : (s.setCarry v).hbm = s.hbm := rfl
@[simp] theorem State.setCarry_carry (v : List (Nat × CarryEntry)) : (s.setCarry v).carry = v := rfl
@[simp] theorem State.setCarry_tiles (v : List (Nat × CarryEntry)) : (s.setCarry v).tiles = s.tiles := rfl
@[simp] theorem State.setCarry_edges (v : List (Nat × CarryEntry)) : (s.setCarry v).edges = s.edges := rfl
@[simp] theorem State.setCarry_gws (v : List (Nat × CarryEntry)) : (s.setCarry v).gws = s.gws := rfl
@[simp] theorem State.setCarry_spine (v : List (Nat × CarryEntry)) : (s.setCarry v).spine = s.spine := rfl
@[simp] theorem State.setCarry_spineBad (v : List (Nat × CarryEntry)) : (s.setCarry v).spineBad = s.spineBad := rfl
@[simp] theorem State.setCarry_seqs (v : List (Nat × CarryEntry)) : (s.setCarry v).seqs = s.seqs := rfl
@[simp] theorem State.setCarry_cores (v : List (Nat × CarryEntry)) : (s.setCarry v).cores = s.cores := rfl
@[simp] theorem State.setCarry_threads (v : List (Nat × CarryEntry)) : (s.setCarry v).threads = s.threads := rfl
@[simp] theorem State.setCarry_vtCopy (v : List (Nat × CarryEntry)) : (s.setCarry v).vtCopy = s.vtCopy := rfl
@[simp] theorem State.setCarry_sync (v : List (Nat × CarryEntry)) : (s.setCarry v).sync = s.sync := rfl
@[simp] theorem State.setCarry_sol (v : List (Nat × CarryEntry)) : (s.setCarry v).sol = s.sol := rfl
@[simp] theorem State.setCarry_qsk (v : List (Nat × CarryEntry)) : (s.setCarry v).qsk = s.qsk := rfl
@[simp] theorem State.setCarry_wires (v : List (Nat × CarryEntry)) : (s.setCarry v).wires = s.wires := rfl
@[simp] theorem State.setCarry_flits (v : List (Nat × CarryEntry)) : (s.setCarry v).flits = s.flits := rfl
@[simp] theorem State.setCarry_rbufs (v : List (Nat × CarryEntry)) : (s.setCarry v).rbufs = s.rbufs := rfl
@[simp] theorem State.setCarry_fstr (v : List (Nat × CarryEntry)) : (s.setCarry v).fstr = s.fstr := rfl
@[simp] theorem State.setCarry_codec (v : List (Nat × CarryEntry)) : (s.setCarry v).codec = s.codec := rfl
@[simp] theorem State.setCarry_reqs (v : List (Nat × CarryEntry)) : (s.setCarry v).reqs = s.reqs := rfl
@[simp] theorem State.setCarry_nextReq (v : List (Nat × CarryEntry)) : (s.setCarry v).nextReq = s.nextReq := rfl
@[simp] theorem State.setCarry_held (v : List (Nat × CarryEntry)) : (s.setCarry v).held = s.held := rfl
@[simp] theorem State.setCarry_load (v : List (Nat × CarryEntry)) : (s.setCarry v).load = s.load := rfl
@[simp] theorem State.setCarry_unitGw (v : List (Nat × CarryEntry)) : (s.setCarry v).unitGw = s.unitGw := rfl
@[simp] theorem State.setCarry_otp (v : List (Nat × CarryEntry)) : (s.setCarry v).otp = s.otp := rfl
@[simp] theorem State.setCarry_bgw (v : List (Nat × CarryEntry)) : (s.setCarry v).bgw = s.bgw := rfl
@[simp] theorem State.setCarry_isl (v : List (Nat × CarryEntry)) : (s.setCarry v).isl = s.isl := rfl
@[simp] theorem State.setCarry_learn (v : List (Nat × CarryEntry)) : (s.setCarry v).learn = s.learn := rfl
@[simp] theorem State.setCarry_stw (v : List (Nat × CarryEntry)) : (s.setCarry v).stw = s.stw := rfl
@[simp] theorem State.setCarry_ev (v : List (Nat × CarryEntry)) : (s.setCarry v).ev = s.ev := rfl
@[simp] theorem State.setTiles_pending (v : List (Nat × Tile)) : (s.setTiles v).pending = s.pending := rfl
@[simp] theorem State.setTiles_regs (v : List (Nat × Tile)) : (s.setTiles v).regs = s.regs := rfl
@[simp] theorem State.setTiles_mem (v : List (Nat × Tile)) : (s.setTiles v).mem = s.mem := rfl
@[simp] theorem State.setTiles_ecc (v : List (Nat × Tile)) : (s.setTiles v).ecc = s.ecc := rfl
@[simp] theorem State.setTiles_alm (v : List (Nat × Tile)) : (s.setTiles v).alm = s.alm := rfl
@[simp] theorem State.setTiles_bm (v : List (Nat × Tile)) : (s.setTiles v).bm = s.bm := rfl
@[simp] theorem State.setTiles_flt (v : List (Nat × Tile)) : (s.setTiles v).flt = s.flt := rfl
@[simp] theorem State.setTiles_pwr (v : List (Nat × Tile)) : (s.setTiles v).pwr = s.pwr := rfl
@[simp] theorem State.setTiles_irq (v : List (Nat × Tile)) : (s.setTiles v).irq = s.irq := rfl
@[simp] theorem State.setTiles_pipes (v : List (Nat × Tile)) : (s.setTiles v).pipes = s.pipes := rfl
@[simp] theorem State.setTiles_streams (v : List (Nat × Tile)) : (s.setTiles v).streams = s.streams := rfl
@[simp] theorem State.setTiles_ep (v : List (Nat × Tile)) : (s.setTiles v).ep = s.ep := rfl
@[simp] theorem State.setTiles_eth (v : List (Nat × Tile)) : (s.setTiles v).eth = s.eth := rfl
@[simp] theorem State.setTiles_denyArmed (v : List (Nat × Tile)) : (s.setTiles v).denyArmed = s.denyArmed := rfl
@[simp] theorem State.setTiles_resp (v : List (Nat × Tile)) : (s.setTiles v).resp = s.resp := rfl
@[simp] theorem State.setTiles_free (v : List (Nat × Tile)) : (s.setTiles v).free = s.free := rfl
@[simp] theorem State.setTiles_out (v : List (Nat × Tile)) : (s.setTiles v).out = s.out := rfl
@[simp] theorem State.setTiles_hbm (v : List (Nat × Tile)) : (s.setTiles v).hbm = s.hbm := rfl
@[simp] theorem State.setTiles_carry (v : List (Nat × Tile)) : (s.setTiles v).carry = s.carry := rfl
@[simp] theorem State.setTiles_tiles (v : List (Nat × Tile)) : (s.setTiles v).tiles = v := rfl
@[simp] theorem State.setTiles_edges (v : List (Nat × Tile)) : (s.setTiles v).edges = s.edges := rfl
@[simp] theorem State.setTiles_gws (v : List (Nat × Tile)) : (s.setTiles v).gws = s.gws := rfl
@[simp] theorem State.setTiles_spine (v : List (Nat × Tile)) : (s.setTiles v).spine = s.spine := rfl
@[simp] theorem State.setTiles_spineBad (v : List (Nat × Tile)) : (s.setTiles v).spineBad = s.spineBad := rfl
@[simp] theorem State.setTiles_seqs (v : List (Nat × Tile)) : (s.setTiles v).seqs = s.seqs := rfl
@[simp] theorem State.setTiles_cores (v : List (Nat × Tile)) : (s.setTiles v).cores = s.cores := rfl
@[simp] theorem State.setTiles_threads (v : List (Nat × Tile)) : (s.setTiles v).threads = s.threads := rfl
@[simp] theorem State.setTiles_vtCopy (v : List (Nat × Tile)) : (s.setTiles v).vtCopy = s.vtCopy := rfl
@[simp] theorem State.setTiles_sync (v : List (Nat × Tile)) : (s.setTiles v).sync = s.sync := rfl
@[simp] theorem State.setTiles_sol (v : List (Nat × Tile)) : (s.setTiles v).sol = s.sol := rfl
@[simp] theorem State.setTiles_qsk (v : List (Nat × Tile)) : (s.setTiles v).qsk = s.qsk := rfl
@[simp] theorem State.setTiles_wires (v : List (Nat × Tile)) : (s.setTiles v).wires = s.wires := rfl
@[simp] theorem State.setTiles_flits (v : List (Nat × Tile)) : (s.setTiles v).flits = s.flits := rfl
@[simp] theorem State.setTiles_rbufs (v : List (Nat × Tile)) : (s.setTiles v).rbufs = s.rbufs := rfl
@[simp] theorem State.setTiles_fstr (v : List (Nat × Tile)) : (s.setTiles v).fstr = s.fstr := rfl
@[simp] theorem State.setTiles_codec (v : List (Nat × Tile)) : (s.setTiles v).codec = s.codec := rfl
@[simp] theorem State.setTiles_reqs (v : List (Nat × Tile)) : (s.setTiles v).reqs = s.reqs := rfl
@[simp] theorem State.setTiles_nextReq (v : List (Nat × Tile)) : (s.setTiles v).nextReq = s.nextReq := rfl
@[simp] theorem State.setTiles_held (v : List (Nat × Tile)) : (s.setTiles v).held = s.held := rfl
@[simp] theorem State.setTiles_load (v : List (Nat × Tile)) : (s.setTiles v).load = s.load := rfl
@[simp] theorem State.setTiles_unitGw (v : List (Nat × Tile)) : (s.setTiles v).unitGw = s.unitGw := rfl
@[simp] theorem State.setTiles_otp (v : List (Nat × Tile)) : (s.setTiles v).otp = s.otp := rfl
@[simp] theorem State.setTiles_bgw (v : List (Nat × Tile)) : (s.setTiles v).bgw = s.bgw := rfl
@[simp] theorem State.setTiles_isl (v : List (Nat × Tile)) : (s.setTiles v).isl = s.isl := rfl
@[simp] theorem State.setTiles_learn (v : List (Nat × Tile)) : (s.setTiles v).learn = s.learn := rfl
@[simp] theorem State.setTiles_stw (v : List (Nat × Tile)) : (s.setTiles v).stw = s.stw := rfl
@[simp] theorem State.setTiles_ev (v : List (Nat × Tile)) : (s.setTiles v).ev = s.ev := rfl
@[simp] theorem State.setEdges_pending (v : List (Nat × FabQueue)) : (s.setEdges v).pending = s.pending := rfl
@[simp] theorem State.setEdges_regs (v : List (Nat × FabQueue)) : (s.setEdges v).regs = s.regs := rfl
@[simp] theorem State.setEdges_mem (v : List (Nat × FabQueue)) : (s.setEdges v).mem = s.mem := rfl
@[simp] theorem State.setEdges_ecc (v : List (Nat × FabQueue)) : (s.setEdges v).ecc = s.ecc := rfl
@[simp] theorem State.setEdges_alm (v : List (Nat × FabQueue)) : (s.setEdges v).alm = s.alm := rfl
@[simp] theorem State.setEdges_bm (v : List (Nat × FabQueue)) : (s.setEdges v).bm = s.bm := rfl
@[simp] theorem State.setEdges_flt (v : List (Nat × FabQueue)) : (s.setEdges v).flt = s.flt := rfl
@[simp] theorem State.setEdges_pwr (v : List (Nat × FabQueue)) : (s.setEdges v).pwr = s.pwr := rfl
@[simp] theorem State.setEdges_irq (v : List (Nat × FabQueue)) : (s.setEdges v).irq = s.irq := rfl
@[simp] theorem State.setEdges_pipes (v : List (Nat × FabQueue)) : (s.setEdges v).pipes = s.pipes := rfl
@[simp] theorem State.setEdges_streams (v : List (Nat × FabQueue)) : (s.setEdges v).streams = s.streams := rfl
@[simp] theorem State.setEdges_ep (v : List (Nat × FabQueue)) : (s.setEdges v).ep = s.ep := rfl
@[simp] theorem State.setEdges_eth (v : List (Nat × FabQueue)) : (s.setEdges v).eth = s.eth := rfl
@[simp] theorem State.setEdges_denyArmed (v : List (Nat × FabQueue)) : (s.setEdges v).denyArmed = s.denyArmed := rfl
@[simp] theorem State.setEdges_resp (v : List (Nat × FabQueue)) : (s.setEdges v).resp = s.resp := rfl
@[simp] theorem State.setEdges_free (v : List (Nat × FabQueue)) : (s.setEdges v).free = s.free := rfl
@[simp] theorem State.setEdges_out (v : List (Nat × FabQueue)) : (s.setEdges v).out = s.out := rfl
@[simp] theorem State.setEdges_hbm (v : List (Nat × FabQueue)) : (s.setEdges v).hbm = s.hbm := rfl
@[simp] theorem State.setEdges_carry (v : List (Nat × FabQueue)) : (s.setEdges v).carry = s.carry := rfl
@[simp] theorem State.setEdges_tiles (v : List (Nat × FabQueue)) : (s.setEdges v).tiles = s.tiles := rfl
@[simp] theorem State.setEdges_edges (v : List (Nat × FabQueue)) : (s.setEdges v).edges = v := rfl
@[simp] theorem State.setEdges_gws (v : List (Nat × FabQueue)) : (s.setEdges v).gws = s.gws := rfl
@[simp] theorem State.setEdges_spine (v : List (Nat × FabQueue)) : (s.setEdges v).spine = s.spine := rfl
@[simp] theorem State.setEdges_spineBad (v : List (Nat × FabQueue)) : (s.setEdges v).spineBad = s.spineBad := rfl
@[simp] theorem State.setEdges_seqs (v : List (Nat × FabQueue)) : (s.setEdges v).seqs = s.seqs := rfl
@[simp] theorem State.setEdges_cores (v : List (Nat × FabQueue)) : (s.setEdges v).cores = s.cores := rfl
@[simp] theorem State.setEdges_threads (v : List (Nat × FabQueue)) : (s.setEdges v).threads = s.threads := rfl
@[simp] theorem State.setEdges_vtCopy (v : List (Nat × FabQueue)) : (s.setEdges v).vtCopy = s.vtCopy := rfl
@[simp] theorem State.setEdges_sync (v : List (Nat × FabQueue)) : (s.setEdges v).sync = s.sync := rfl
@[simp] theorem State.setEdges_sol (v : List (Nat × FabQueue)) : (s.setEdges v).sol = s.sol := rfl
@[simp] theorem State.setEdges_qsk (v : List (Nat × FabQueue)) : (s.setEdges v).qsk = s.qsk := rfl
@[simp] theorem State.setEdges_wires (v : List (Nat × FabQueue)) : (s.setEdges v).wires = s.wires := rfl
@[simp] theorem State.setEdges_flits (v : List (Nat × FabQueue)) : (s.setEdges v).flits = s.flits := rfl
@[simp] theorem State.setEdges_rbufs (v : List (Nat × FabQueue)) : (s.setEdges v).rbufs = s.rbufs := rfl
@[simp] theorem State.setEdges_fstr (v : List (Nat × FabQueue)) : (s.setEdges v).fstr = s.fstr := rfl
@[simp] theorem State.setEdges_codec (v : List (Nat × FabQueue)) : (s.setEdges v).codec = s.codec := rfl
@[simp] theorem State.setEdges_reqs (v : List (Nat × FabQueue)) : (s.setEdges v).reqs = s.reqs := rfl
@[simp] theorem State.setEdges_nextReq (v : List (Nat × FabQueue)) : (s.setEdges v).nextReq = s.nextReq := rfl
@[simp] theorem State.setEdges_held (v : List (Nat × FabQueue)) : (s.setEdges v).held = s.held := rfl
@[simp] theorem State.setEdges_load (v : List (Nat × FabQueue)) : (s.setEdges v).load = s.load := rfl
@[simp] theorem State.setEdges_unitGw (v : List (Nat × FabQueue)) : (s.setEdges v).unitGw = s.unitGw := rfl
@[simp] theorem State.setEdges_otp (v : List (Nat × FabQueue)) : (s.setEdges v).otp = s.otp := rfl
@[simp] theorem State.setEdges_bgw (v : List (Nat × FabQueue)) : (s.setEdges v).bgw = s.bgw := rfl
@[simp] theorem State.setEdges_isl (v : List (Nat × FabQueue)) : (s.setEdges v).isl = s.isl := rfl
@[simp] theorem State.setEdges_learn (v : List (Nat × FabQueue)) : (s.setEdges v).learn = s.learn := rfl
@[simp] theorem State.setEdges_stw (v : List (Nat × FabQueue)) : (s.setEdges v).stw = s.stw := rfl
@[simp] theorem State.setEdges_ev (v : List (Nat × FabQueue)) : (s.setEdges v).ev = s.ev := rfl
@[simp] theorem State.setGws_pending (v : List (Nat × FabQueue)) : (s.setGws v).pending = s.pending := rfl
@[simp] theorem State.setGws_regs (v : List (Nat × FabQueue)) : (s.setGws v).regs = s.regs := rfl
@[simp] theorem State.setGws_mem (v : List (Nat × FabQueue)) : (s.setGws v).mem = s.mem := rfl
@[simp] theorem State.setGws_ecc (v : List (Nat × FabQueue)) : (s.setGws v).ecc = s.ecc := rfl
@[simp] theorem State.setGws_alm (v : List (Nat × FabQueue)) : (s.setGws v).alm = s.alm := rfl
@[simp] theorem State.setGws_bm (v : List (Nat × FabQueue)) : (s.setGws v).bm = s.bm := rfl
@[simp] theorem State.setGws_flt (v : List (Nat × FabQueue)) : (s.setGws v).flt = s.flt := rfl
@[simp] theorem State.setGws_pwr (v : List (Nat × FabQueue)) : (s.setGws v).pwr = s.pwr := rfl
@[simp] theorem State.setGws_irq (v : List (Nat × FabQueue)) : (s.setGws v).irq = s.irq := rfl
@[simp] theorem State.setGws_pipes (v : List (Nat × FabQueue)) : (s.setGws v).pipes = s.pipes := rfl
@[simp] theorem State.setGws_streams (v : List (Nat × FabQueue)) : (s.setGws v).streams = s.streams := rfl
@[simp] theorem State.setGws_ep (v : List (Nat × FabQueue)) : (s.setGws v).ep = s.ep := rfl
@[simp] theorem State.setGws_eth (v : List (Nat × FabQueue)) : (s.setGws v).eth = s.eth := rfl
@[simp] theorem State.setGws_denyArmed (v : List (Nat × FabQueue)) : (s.setGws v).denyArmed = s.denyArmed := rfl
@[simp] theorem State.setGws_resp (v : List (Nat × FabQueue)) : (s.setGws v).resp = s.resp := rfl
@[simp] theorem State.setGws_free (v : List (Nat × FabQueue)) : (s.setGws v).free = s.free := rfl
@[simp] theorem State.setGws_out (v : List (Nat × FabQueue)) : (s.setGws v).out = s.out := rfl
@[simp] theorem State.setGws_hbm (v : List (Nat × FabQueue)) : (s.setGws v).hbm = s.hbm := rfl
@[simp] theorem State.setGws_carry (v : List (Nat × FabQueue)) : (s.setGws v).carry = s.carry := rfl
@[simp] theorem State.setGws_tiles (v : List (Nat × FabQueue)) : (s.setGws v).tiles = s.tiles := rfl
@[simp] theorem State.setGws_edges (v : List (Nat × FabQueue)) : (s.setGws v).edges = s.edges := rfl
@[simp] theorem State.setGws_gws (v : List (Nat × FabQueue)) : (s.setGws v).gws = v := rfl
@[simp] theorem State.setGws_spine (v : List (Nat × FabQueue)) : (s.setGws v).spine = s.spine := rfl
@[simp] theorem State.setGws_spineBad (v : List (Nat × FabQueue)) : (s.setGws v).spineBad = s.spineBad := rfl
@[simp] theorem State.setGws_seqs (v : List (Nat × FabQueue)) : (s.setGws v).seqs = s.seqs := rfl
@[simp] theorem State.setGws_cores (v : List (Nat × FabQueue)) : (s.setGws v).cores = s.cores := rfl
@[simp] theorem State.setGws_threads (v : List (Nat × FabQueue)) : (s.setGws v).threads = s.threads := rfl
@[simp] theorem State.setGws_vtCopy (v : List (Nat × FabQueue)) : (s.setGws v).vtCopy = s.vtCopy := rfl
@[simp] theorem State.setGws_sync (v : List (Nat × FabQueue)) : (s.setGws v).sync = s.sync := rfl
@[simp] theorem State.setGws_sol (v : List (Nat × FabQueue)) : (s.setGws v).sol = s.sol := rfl
@[simp] theorem State.setGws_qsk (v : List (Nat × FabQueue)) : (s.setGws v).qsk = s.qsk := rfl
@[simp] theorem State.setGws_wires (v : List (Nat × FabQueue)) : (s.setGws v).wires = s.wires := rfl
@[simp] theorem State.setGws_flits (v : List (Nat × FabQueue)) : (s.setGws v).flits = s.flits := rfl
@[simp] theorem State.setGws_rbufs (v : List (Nat × FabQueue)) : (s.setGws v).rbufs = s.rbufs := rfl
@[simp] theorem State.setGws_fstr (v : List (Nat × FabQueue)) : (s.setGws v).fstr = s.fstr := rfl
@[simp] theorem State.setGws_codec (v : List (Nat × FabQueue)) : (s.setGws v).codec = s.codec := rfl
@[simp] theorem State.setGws_reqs (v : List (Nat × FabQueue)) : (s.setGws v).reqs = s.reqs := rfl
@[simp] theorem State.setGws_nextReq (v : List (Nat × FabQueue)) : (s.setGws v).nextReq = s.nextReq := rfl
@[simp] theorem State.setGws_held (v : List (Nat × FabQueue)) : (s.setGws v).held = s.held := rfl
@[simp] theorem State.setGws_load (v : List (Nat × FabQueue)) : (s.setGws v).load = s.load := rfl
@[simp] theorem State.setGws_unitGw (v : List (Nat × FabQueue)) : (s.setGws v).unitGw = s.unitGw := rfl
@[simp] theorem State.setGws_otp (v : List (Nat × FabQueue)) : (s.setGws v).otp = s.otp := rfl
@[simp] theorem State.setGws_bgw (v : List (Nat × FabQueue)) : (s.setGws v).bgw = s.bgw := rfl
@[simp] theorem State.setGws_isl (v : List (Nat × FabQueue)) : (s.setGws v).isl = s.isl := rfl
@[simp] theorem State.setGws_learn (v : List (Nat × FabQueue)) : (s.setGws v).learn = s.learn := rfl
@[simp] theorem State.setGws_stw (v : List (Nat × FabQueue)) : (s.setGws v).stw = s.stw := rfl
@[simp] theorem State.setGws_ev (v : List (Nat × FabQueue)) : (s.setGws v).ev = s.ev := rfl
@[simp] theorem State.setSpine_pending (v : List (Nat × W32)) : (s.setSpine v).pending = s.pending := rfl
@[simp] theorem State.setSpine_regs (v : List (Nat × W32)) : (s.setSpine v).regs = s.regs := rfl
@[simp] theorem State.setSpine_mem (v : List (Nat × W32)) : (s.setSpine v).mem = s.mem := rfl
@[simp] theorem State.setSpine_ecc (v : List (Nat × W32)) : (s.setSpine v).ecc = s.ecc := rfl
@[simp] theorem State.setSpine_alm (v : List (Nat × W32)) : (s.setSpine v).alm = s.alm := rfl
@[simp] theorem State.setSpine_bm (v : List (Nat × W32)) : (s.setSpine v).bm = s.bm := rfl
@[simp] theorem State.setSpine_flt (v : List (Nat × W32)) : (s.setSpine v).flt = s.flt := rfl
@[simp] theorem State.setSpine_pwr (v : List (Nat × W32)) : (s.setSpine v).pwr = s.pwr := rfl
@[simp] theorem State.setSpine_irq (v : List (Nat × W32)) : (s.setSpine v).irq = s.irq := rfl
@[simp] theorem State.setSpine_pipes (v : List (Nat × W32)) : (s.setSpine v).pipes = s.pipes := rfl
@[simp] theorem State.setSpine_streams (v : List (Nat × W32)) : (s.setSpine v).streams = s.streams := rfl
@[simp] theorem State.setSpine_ep (v : List (Nat × W32)) : (s.setSpine v).ep = s.ep := rfl
@[simp] theorem State.setSpine_eth (v : List (Nat × W32)) : (s.setSpine v).eth = s.eth := rfl
@[simp] theorem State.setSpine_denyArmed (v : List (Nat × W32)) : (s.setSpine v).denyArmed = s.denyArmed := rfl
@[simp] theorem State.setSpine_resp (v : List (Nat × W32)) : (s.setSpine v).resp = s.resp := rfl
@[simp] theorem State.setSpine_free (v : List (Nat × W32)) : (s.setSpine v).free = s.free := rfl
@[simp] theorem State.setSpine_out (v : List (Nat × W32)) : (s.setSpine v).out = s.out := rfl
@[simp] theorem State.setSpine_hbm (v : List (Nat × W32)) : (s.setSpine v).hbm = s.hbm := rfl
@[simp] theorem State.setSpine_carry (v : List (Nat × W32)) : (s.setSpine v).carry = s.carry := rfl
@[simp] theorem State.setSpine_tiles (v : List (Nat × W32)) : (s.setSpine v).tiles = s.tiles := rfl
@[simp] theorem State.setSpine_edges (v : List (Nat × W32)) : (s.setSpine v).edges = s.edges := rfl
@[simp] theorem State.setSpine_gws (v : List (Nat × W32)) : (s.setSpine v).gws = s.gws := rfl
@[simp] theorem State.setSpine_spine (v : List (Nat × W32)) : (s.setSpine v).spine = v := rfl
@[simp] theorem State.setSpine_spineBad (v : List (Nat × W32)) : (s.setSpine v).spineBad = s.spineBad := rfl
@[simp] theorem State.setSpine_seqs (v : List (Nat × W32)) : (s.setSpine v).seqs = s.seqs := rfl
@[simp] theorem State.setSpine_cores (v : List (Nat × W32)) : (s.setSpine v).cores = s.cores := rfl
@[simp] theorem State.setSpine_threads (v : List (Nat × W32)) : (s.setSpine v).threads = s.threads := rfl
@[simp] theorem State.setSpine_vtCopy (v : List (Nat × W32)) : (s.setSpine v).vtCopy = s.vtCopy := rfl
@[simp] theorem State.setSpine_sync (v : List (Nat × W32)) : (s.setSpine v).sync = s.sync := rfl
@[simp] theorem State.setSpine_sol (v : List (Nat × W32)) : (s.setSpine v).sol = s.sol := rfl
@[simp] theorem State.setSpine_qsk (v : List (Nat × W32)) : (s.setSpine v).qsk = s.qsk := rfl
@[simp] theorem State.setSpine_wires (v : List (Nat × W32)) : (s.setSpine v).wires = s.wires := rfl
@[simp] theorem State.setSpine_flits (v : List (Nat × W32)) : (s.setSpine v).flits = s.flits := rfl
@[simp] theorem State.setSpine_rbufs (v : List (Nat × W32)) : (s.setSpine v).rbufs = s.rbufs := rfl
@[simp] theorem State.setSpine_fstr (v : List (Nat × W32)) : (s.setSpine v).fstr = s.fstr := rfl
@[simp] theorem State.setSpine_codec (v : List (Nat × W32)) : (s.setSpine v).codec = s.codec := rfl
@[simp] theorem State.setSpine_reqs (v : List (Nat × W32)) : (s.setSpine v).reqs = s.reqs := rfl
@[simp] theorem State.setSpine_nextReq (v : List (Nat × W32)) : (s.setSpine v).nextReq = s.nextReq := rfl
@[simp] theorem State.setSpine_held (v : List (Nat × W32)) : (s.setSpine v).held = s.held := rfl
@[simp] theorem State.setSpine_load (v : List (Nat × W32)) : (s.setSpine v).load = s.load := rfl
@[simp] theorem State.setSpine_unitGw (v : List (Nat × W32)) : (s.setSpine v).unitGw = s.unitGw := rfl
@[simp] theorem State.setSpine_otp (v : List (Nat × W32)) : (s.setSpine v).otp = s.otp := rfl
@[simp] theorem State.setSpine_bgw (v : List (Nat × W32)) : (s.setSpine v).bgw = s.bgw := rfl
@[simp] theorem State.setSpine_isl (v : List (Nat × W32)) : (s.setSpine v).isl = s.isl := rfl
@[simp] theorem State.setSpine_learn (v : List (Nat × W32)) : (s.setSpine v).learn = s.learn := rfl
@[simp] theorem State.setSpine_stw (v : List (Nat × W32)) : (s.setSpine v).stw = s.stw := rfl
@[simp] theorem State.setSpine_ev (v : List (Nat × W32)) : (s.setSpine v).ev = s.ev := rfl
@[simp] theorem State.setSpineBad_pending (v : List (Nat × Bool)) : (s.setSpineBad v).pending = s.pending := rfl
@[simp] theorem State.setSpineBad_regs (v : List (Nat × Bool)) : (s.setSpineBad v).regs = s.regs := rfl
@[simp] theorem State.setSpineBad_mem (v : List (Nat × Bool)) : (s.setSpineBad v).mem = s.mem := rfl
@[simp] theorem State.setSpineBad_ecc (v : List (Nat × Bool)) : (s.setSpineBad v).ecc = s.ecc := rfl
@[simp] theorem State.setSpineBad_alm (v : List (Nat × Bool)) : (s.setSpineBad v).alm = s.alm := rfl
@[simp] theorem State.setSpineBad_bm (v : List (Nat × Bool)) : (s.setSpineBad v).bm = s.bm := rfl
@[simp] theorem State.setSpineBad_flt (v : List (Nat × Bool)) : (s.setSpineBad v).flt = s.flt := rfl
@[simp] theorem State.setSpineBad_pwr (v : List (Nat × Bool)) : (s.setSpineBad v).pwr = s.pwr := rfl
@[simp] theorem State.setSpineBad_irq (v : List (Nat × Bool)) : (s.setSpineBad v).irq = s.irq := rfl
@[simp] theorem State.setSpineBad_pipes (v : List (Nat × Bool)) : (s.setSpineBad v).pipes = s.pipes := rfl
@[simp] theorem State.setSpineBad_streams (v : List (Nat × Bool)) : (s.setSpineBad v).streams = s.streams := rfl
@[simp] theorem State.setSpineBad_ep (v : List (Nat × Bool)) : (s.setSpineBad v).ep = s.ep := rfl
@[simp] theorem State.setSpineBad_eth (v : List (Nat × Bool)) : (s.setSpineBad v).eth = s.eth := rfl
@[simp] theorem State.setSpineBad_denyArmed (v : List (Nat × Bool)) : (s.setSpineBad v).denyArmed = s.denyArmed := rfl
@[simp] theorem State.setSpineBad_resp (v : List (Nat × Bool)) : (s.setSpineBad v).resp = s.resp := rfl
@[simp] theorem State.setSpineBad_free (v : List (Nat × Bool)) : (s.setSpineBad v).free = s.free := rfl
@[simp] theorem State.setSpineBad_out (v : List (Nat × Bool)) : (s.setSpineBad v).out = s.out := rfl
@[simp] theorem State.setSpineBad_hbm (v : List (Nat × Bool)) : (s.setSpineBad v).hbm = s.hbm := rfl
@[simp] theorem State.setSpineBad_carry (v : List (Nat × Bool)) : (s.setSpineBad v).carry = s.carry := rfl
@[simp] theorem State.setSpineBad_tiles (v : List (Nat × Bool)) : (s.setSpineBad v).tiles = s.tiles := rfl
@[simp] theorem State.setSpineBad_edges (v : List (Nat × Bool)) : (s.setSpineBad v).edges = s.edges := rfl
@[simp] theorem State.setSpineBad_gws (v : List (Nat × Bool)) : (s.setSpineBad v).gws = s.gws := rfl
@[simp] theorem State.setSpineBad_spine (v : List (Nat × Bool)) : (s.setSpineBad v).spine = s.spine := rfl
@[simp] theorem State.setSpineBad_spineBad (v : List (Nat × Bool)) : (s.setSpineBad v).spineBad = v := rfl
@[simp] theorem State.setSpineBad_seqs (v : List (Nat × Bool)) : (s.setSpineBad v).seqs = s.seqs := rfl
@[simp] theorem State.setSpineBad_cores (v : List (Nat × Bool)) : (s.setSpineBad v).cores = s.cores := rfl
@[simp] theorem State.setSpineBad_threads (v : List (Nat × Bool)) : (s.setSpineBad v).threads = s.threads := rfl
@[simp] theorem State.setSpineBad_vtCopy (v : List (Nat × Bool)) : (s.setSpineBad v).vtCopy = s.vtCopy := rfl
@[simp] theorem State.setSpineBad_sync (v : List (Nat × Bool)) : (s.setSpineBad v).sync = s.sync := rfl
@[simp] theorem State.setSpineBad_sol (v : List (Nat × Bool)) : (s.setSpineBad v).sol = s.sol := rfl
@[simp] theorem State.setSpineBad_qsk (v : List (Nat × Bool)) : (s.setSpineBad v).qsk = s.qsk := rfl
@[simp] theorem State.setSpineBad_wires (v : List (Nat × Bool)) : (s.setSpineBad v).wires = s.wires := rfl
@[simp] theorem State.setSpineBad_flits (v : List (Nat × Bool)) : (s.setSpineBad v).flits = s.flits := rfl
@[simp] theorem State.setSpineBad_rbufs (v : List (Nat × Bool)) : (s.setSpineBad v).rbufs = s.rbufs := rfl
@[simp] theorem State.setSpineBad_fstr (v : List (Nat × Bool)) : (s.setSpineBad v).fstr = s.fstr := rfl
@[simp] theorem State.setSpineBad_codec (v : List (Nat × Bool)) : (s.setSpineBad v).codec = s.codec := rfl
@[simp] theorem State.setSpineBad_reqs (v : List (Nat × Bool)) : (s.setSpineBad v).reqs = s.reqs := rfl
@[simp] theorem State.setSpineBad_nextReq (v : List (Nat × Bool)) : (s.setSpineBad v).nextReq = s.nextReq := rfl
@[simp] theorem State.setSpineBad_held (v : List (Nat × Bool)) : (s.setSpineBad v).held = s.held := rfl
@[simp] theorem State.setSpineBad_load (v : List (Nat × Bool)) : (s.setSpineBad v).load = s.load := rfl
@[simp] theorem State.setSpineBad_unitGw (v : List (Nat × Bool)) : (s.setSpineBad v).unitGw = s.unitGw := rfl
@[simp] theorem State.setSpineBad_otp (v : List (Nat × Bool)) : (s.setSpineBad v).otp = s.otp := rfl
@[simp] theorem State.setSpineBad_bgw (v : List (Nat × Bool)) : (s.setSpineBad v).bgw = s.bgw := rfl
@[simp] theorem State.setSpineBad_isl (v : List (Nat × Bool)) : (s.setSpineBad v).isl = s.isl := rfl
@[simp] theorem State.setSpineBad_learn (v : List (Nat × Bool)) : (s.setSpineBad v).learn = s.learn := rfl
@[simp] theorem State.setSpineBad_stw (v : List (Nat × Bool)) : (s.setSpineBad v).stw = s.stw := rfl
@[simp] theorem State.setSpineBad_ev (v : List (Nat × Bool)) : (s.setSpineBad v).ev = s.ev := rfl
@[simp] theorem State.setSeqs_pending (v : List (Nat × SeqSt)) : (s.setSeqs v).pending = s.pending := rfl
@[simp] theorem State.setSeqs_regs (v : List (Nat × SeqSt)) : (s.setSeqs v).regs = s.regs := rfl
@[simp] theorem State.setSeqs_mem (v : List (Nat × SeqSt)) : (s.setSeqs v).mem = s.mem := rfl
@[simp] theorem State.setSeqs_ecc (v : List (Nat × SeqSt)) : (s.setSeqs v).ecc = s.ecc := rfl
@[simp] theorem State.setSeqs_alm (v : List (Nat × SeqSt)) : (s.setSeqs v).alm = s.alm := rfl
@[simp] theorem State.setSeqs_bm (v : List (Nat × SeqSt)) : (s.setSeqs v).bm = s.bm := rfl
@[simp] theorem State.setSeqs_flt (v : List (Nat × SeqSt)) : (s.setSeqs v).flt = s.flt := rfl
@[simp] theorem State.setSeqs_pwr (v : List (Nat × SeqSt)) : (s.setSeqs v).pwr = s.pwr := rfl
@[simp] theorem State.setSeqs_irq (v : List (Nat × SeqSt)) : (s.setSeqs v).irq = s.irq := rfl
@[simp] theorem State.setSeqs_pipes (v : List (Nat × SeqSt)) : (s.setSeqs v).pipes = s.pipes := rfl
@[simp] theorem State.setSeqs_streams (v : List (Nat × SeqSt)) : (s.setSeqs v).streams = s.streams := rfl
@[simp] theorem State.setSeqs_ep (v : List (Nat × SeqSt)) : (s.setSeqs v).ep = s.ep := rfl
@[simp] theorem State.setSeqs_eth (v : List (Nat × SeqSt)) : (s.setSeqs v).eth = s.eth := rfl
@[simp] theorem State.setSeqs_denyArmed (v : List (Nat × SeqSt)) : (s.setSeqs v).denyArmed = s.denyArmed := rfl
@[simp] theorem State.setSeqs_resp (v : List (Nat × SeqSt)) : (s.setSeqs v).resp = s.resp := rfl
@[simp] theorem State.setSeqs_free (v : List (Nat × SeqSt)) : (s.setSeqs v).free = s.free := rfl
@[simp] theorem State.setSeqs_out (v : List (Nat × SeqSt)) : (s.setSeqs v).out = s.out := rfl
@[simp] theorem State.setSeqs_hbm (v : List (Nat × SeqSt)) : (s.setSeqs v).hbm = s.hbm := rfl
@[simp] theorem State.setSeqs_carry (v : List (Nat × SeqSt)) : (s.setSeqs v).carry = s.carry := rfl
@[simp] theorem State.setSeqs_tiles (v : List (Nat × SeqSt)) : (s.setSeqs v).tiles = s.tiles := rfl
@[simp] theorem State.setSeqs_edges (v : List (Nat × SeqSt)) : (s.setSeqs v).edges = s.edges := rfl
@[simp] theorem State.setSeqs_gws (v : List (Nat × SeqSt)) : (s.setSeqs v).gws = s.gws := rfl
@[simp] theorem State.setSeqs_spine (v : List (Nat × SeqSt)) : (s.setSeqs v).spine = s.spine := rfl
@[simp] theorem State.setSeqs_spineBad (v : List (Nat × SeqSt)) : (s.setSeqs v).spineBad = s.spineBad := rfl
@[simp] theorem State.setSeqs_seqs (v : List (Nat × SeqSt)) : (s.setSeqs v).seqs = v := rfl
@[simp] theorem State.setSeqs_cores (v : List (Nat × SeqSt)) : (s.setSeqs v).cores = s.cores := rfl
@[simp] theorem State.setSeqs_threads (v : List (Nat × SeqSt)) : (s.setSeqs v).threads = s.threads := rfl
@[simp] theorem State.setSeqs_vtCopy (v : List (Nat × SeqSt)) : (s.setSeqs v).vtCopy = s.vtCopy := rfl
@[simp] theorem State.setSeqs_sync (v : List (Nat × SeqSt)) : (s.setSeqs v).sync = s.sync := rfl
@[simp] theorem State.setSeqs_sol (v : List (Nat × SeqSt)) : (s.setSeqs v).sol = s.sol := rfl
@[simp] theorem State.setSeqs_qsk (v : List (Nat × SeqSt)) : (s.setSeqs v).qsk = s.qsk := rfl
@[simp] theorem State.setSeqs_wires (v : List (Nat × SeqSt)) : (s.setSeqs v).wires = s.wires := rfl
@[simp] theorem State.setSeqs_flits (v : List (Nat × SeqSt)) : (s.setSeqs v).flits = s.flits := rfl
@[simp] theorem State.setSeqs_rbufs (v : List (Nat × SeqSt)) : (s.setSeqs v).rbufs = s.rbufs := rfl
@[simp] theorem State.setSeqs_fstr (v : List (Nat × SeqSt)) : (s.setSeqs v).fstr = s.fstr := rfl
@[simp] theorem State.setSeqs_codec (v : List (Nat × SeqSt)) : (s.setSeqs v).codec = s.codec := rfl
@[simp] theorem State.setSeqs_reqs (v : List (Nat × SeqSt)) : (s.setSeqs v).reqs = s.reqs := rfl
@[simp] theorem State.setSeqs_nextReq (v : List (Nat × SeqSt)) : (s.setSeqs v).nextReq = s.nextReq := rfl
@[simp] theorem State.setSeqs_held (v : List (Nat × SeqSt)) : (s.setSeqs v).held = s.held := rfl
@[simp] theorem State.setSeqs_load (v : List (Nat × SeqSt)) : (s.setSeqs v).load = s.load := rfl
@[simp] theorem State.setSeqs_unitGw (v : List (Nat × SeqSt)) : (s.setSeqs v).unitGw = s.unitGw := rfl
@[simp] theorem State.setSeqs_otp (v : List (Nat × SeqSt)) : (s.setSeqs v).otp = s.otp := rfl
@[simp] theorem State.setSeqs_bgw (v : List (Nat × SeqSt)) : (s.setSeqs v).bgw = s.bgw := rfl
@[simp] theorem State.setSeqs_isl (v : List (Nat × SeqSt)) : (s.setSeqs v).isl = s.isl := rfl
@[simp] theorem State.setSeqs_learn (v : List (Nat × SeqSt)) : (s.setSeqs v).learn = s.learn := rfl
@[simp] theorem State.setSeqs_stw (v : List (Nat × SeqSt)) : (s.setSeqs v).stw = s.stw := rfl
@[simp] theorem State.setSeqs_ev (v : List (Nat × SeqSt)) : (s.setSeqs v).ev = s.ev := rfl
@[simp] theorem State.setCores_pending (v : List (Nat × CoreSt)) : (s.setCores v).pending = s.pending := rfl
@[simp] theorem State.setCores_regs (v : List (Nat × CoreSt)) : (s.setCores v).regs = s.regs := rfl
@[simp] theorem State.setCores_mem (v : List (Nat × CoreSt)) : (s.setCores v).mem = s.mem := rfl
@[simp] theorem State.setCores_ecc (v : List (Nat × CoreSt)) : (s.setCores v).ecc = s.ecc := rfl
@[simp] theorem State.setCores_alm (v : List (Nat × CoreSt)) : (s.setCores v).alm = s.alm := rfl
@[simp] theorem State.setCores_bm (v : List (Nat × CoreSt)) : (s.setCores v).bm = s.bm := rfl
@[simp] theorem State.setCores_flt (v : List (Nat × CoreSt)) : (s.setCores v).flt = s.flt := rfl
@[simp] theorem State.setCores_pwr (v : List (Nat × CoreSt)) : (s.setCores v).pwr = s.pwr := rfl
@[simp] theorem State.setCores_irq (v : List (Nat × CoreSt)) : (s.setCores v).irq = s.irq := rfl
@[simp] theorem State.setCores_pipes (v : List (Nat × CoreSt)) : (s.setCores v).pipes = s.pipes := rfl
@[simp] theorem State.setCores_streams (v : List (Nat × CoreSt)) : (s.setCores v).streams = s.streams := rfl
@[simp] theorem State.setCores_ep (v : List (Nat × CoreSt)) : (s.setCores v).ep = s.ep := rfl
@[simp] theorem State.setCores_eth (v : List (Nat × CoreSt)) : (s.setCores v).eth = s.eth := rfl
@[simp] theorem State.setCores_denyArmed (v : List (Nat × CoreSt)) : (s.setCores v).denyArmed = s.denyArmed := rfl
@[simp] theorem State.setCores_resp (v : List (Nat × CoreSt)) : (s.setCores v).resp = s.resp := rfl
@[simp] theorem State.setCores_free (v : List (Nat × CoreSt)) : (s.setCores v).free = s.free := rfl
@[simp] theorem State.setCores_out (v : List (Nat × CoreSt)) : (s.setCores v).out = s.out := rfl
@[simp] theorem State.setCores_hbm (v : List (Nat × CoreSt)) : (s.setCores v).hbm = s.hbm := rfl
@[simp] theorem State.setCores_carry (v : List (Nat × CoreSt)) : (s.setCores v).carry = s.carry := rfl
@[simp] theorem State.setCores_tiles (v : List (Nat × CoreSt)) : (s.setCores v).tiles = s.tiles := rfl
@[simp] theorem State.setCores_edges (v : List (Nat × CoreSt)) : (s.setCores v).edges = s.edges := rfl
@[simp] theorem State.setCores_gws (v : List (Nat × CoreSt)) : (s.setCores v).gws = s.gws := rfl
@[simp] theorem State.setCores_spine (v : List (Nat × CoreSt)) : (s.setCores v).spine = s.spine := rfl
@[simp] theorem State.setCores_spineBad (v : List (Nat × CoreSt)) : (s.setCores v).spineBad = s.spineBad := rfl
@[simp] theorem State.setCores_seqs (v : List (Nat × CoreSt)) : (s.setCores v).seqs = s.seqs := rfl
@[simp] theorem State.setCores_cores (v : List (Nat × CoreSt)) : (s.setCores v).cores = v := rfl
@[simp] theorem State.setCores_threads (v : List (Nat × CoreSt)) : (s.setCores v).threads = s.threads := rfl
@[simp] theorem State.setCores_vtCopy (v : List (Nat × CoreSt)) : (s.setCores v).vtCopy = s.vtCopy := rfl
@[simp] theorem State.setCores_sync (v : List (Nat × CoreSt)) : (s.setCores v).sync = s.sync := rfl
@[simp] theorem State.setCores_sol (v : List (Nat × CoreSt)) : (s.setCores v).sol = s.sol := rfl
@[simp] theorem State.setCores_qsk (v : List (Nat × CoreSt)) : (s.setCores v).qsk = s.qsk := rfl
@[simp] theorem State.setCores_wires (v : List (Nat × CoreSt)) : (s.setCores v).wires = s.wires := rfl
@[simp] theorem State.setCores_flits (v : List (Nat × CoreSt)) : (s.setCores v).flits = s.flits := rfl
@[simp] theorem State.setCores_rbufs (v : List (Nat × CoreSt)) : (s.setCores v).rbufs = s.rbufs := rfl
@[simp] theorem State.setCores_fstr (v : List (Nat × CoreSt)) : (s.setCores v).fstr = s.fstr := rfl
@[simp] theorem State.setCores_codec (v : List (Nat × CoreSt)) : (s.setCores v).codec = s.codec := rfl
@[simp] theorem State.setCores_reqs (v : List (Nat × CoreSt)) : (s.setCores v).reqs = s.reqs := rfl
@[simp] theorem State.setCores_nextReq (v : List (Nat × CoreSt)) : (s.setCores v).nextReq = s.nextReq := rfl
@[simp] theorem State.setCores_held (v : List (Nat × CoreSt)) : (s.setCores v).held = s.held := rfl
@[simp] theorem State.setCores_load (v : List (Nat × CoreSt)) : (s.setCores v).load = s.load := rfl
@[simp] theorem State.setCores_unitGw (v : List (Nat × CoreSt)) : (s.setCores v).unitGw = s.unitGw := rfl
@[simp] theorem State.setCores_otp (v : List (Nat × CoreSt)) : (s.setCores v).otp = s.otp := rfl
@[simp] theorem State.setCores_bgw (v : List (Nat × CoreSt)) : (s.setCores v).bgw = s.bgw := rfl
@[simp] theorem State.setCores_isl (v : List (Nat × CoreSt)) : (s.setCores v).isl = s.isl := rfl
@[simp] theorem State.setCores_learn (v : List (Nat × CoreSt)) : (s.setCores v).learn = s.learn := rfl
@[simp] theorem State.setCores_stw (v : List (Nat × CoreSt)) : (s.setCores v).stw = s.stw := rfl
@[simp] theorem State.setCores_ev (v : List (Nat × CoreSt)) : (s.setCores v).ev = s.ev := rfl
@[simp] theorem State.setThreads_pending (v : List (Nat × VThread)) : (s.setThreads v).pending = s.pending := rfl
@[simp] theorem State.setThreads_regs (v : List (Nat × VThread)) : (s.setThreads v).regs = s.regs := rfl
@[simp] theorem State.setThreads_mem (v : List (Nat × VThread)) : (s.setThreads v).mem = s.mem := rfl
@[simp] theorem State.setThreads_ecc (v : List (Nat × VThread)) : (s.setThreads v).ecc = s.ecc := rfl
@[simp] theorem State.setThreads_alm (v : List (Nat × VThread)) : (s.setThreads v).alm = s.alm := rfl
@[simp] theorem State.setThreads_bm (v : List (Nat × VThread)) : (s.setThreads v).bm = s.bm := rfl
@[simp] theorem State.setThreads_flt (v : List (Nat × VThread)) : (s.setThreads v).flt = s.flt := rfl
@[simp] theorem State.setThreads_pwr (v : List (Nat × VThread)) : (s.setThreads v).pwr = s.pwr := rfl
@[simp] theorem State.setThreads_irq (v : List (Nat × VThread)) : (s.setThreads v).irq = s.irq := rfl
@[simp] theorem State.setThreads_pipes (v : List (Nat × VThread)) : (s.setThreads v).pipes = s.pipes := rfl
@[simp] theorem State.setThreads_streams (v : List (Nat × VThread)) : (s.setThreads v).streams = s.streams := rfl
@[simp] theorem State.setThreads_ep (v : List (Nat × VThread)) : (s.setThreads v).ep = s.ep := rfl
@[simp] theorem State.setThreads_eth (v : List (Nat × VThread)) : (s.setThreads v).eth = s.eth := rfl
@[simp] theorem State.setThreads_denyArmed (v : List (Nat × VThread)) : (s.setThreads v).denyArmed = s.denyArmed := rfl
@[simp] theorem State.setThreads_resp (v : List (Nat × VThread)) : (s.setThreads v).resp = s.resp := rfl
@[simp] theorem State.setThreads_free (v : List (Nat × VThread)) : (s.setThreads v).free = s.free := rfl
@[simp] theorem State.setThreads_out (v : List (Nat × VThread)) : (s.setThreads v).out = s.out := rfl
@[simp] theorem State.setThreads_hbm (v : List (Nat × VThread)) : (s.setThreads v).hbm = s.hbm := rfl
@[simp] theorem State.setThreads_carry (v : List (Nat × VThread)) : (s.setThreads v).carry = s.carry := rfl
@[simp] theorem State.setThreads_tiles (v : List (Nat × VThread)) : (s.setThreads v).tiles = s.tiles := rfl
@[simp] theorem State.setThreads_edges (v : List (Nat × VThread)) : (s.setThreads v).edges = s.edges := rfl
@[simp] theorem State.setThreads_gws (v : List (Nat × VThread)) : (s.setThreads v).gws = s.gws := rfl
@[simp] theorem State.setThreads_spine (v : List (Nat × VThread)) : (s.setThreads v).spine = s.spine := rfl
@[simp] theorem State.setThreads_spineBad (v : List (Nat × VThread)) : (s.setThreads v).spineBad = s.spineBad := rfl
@[simp] theorem State.setThreads_seqs (v : List (Nat × VThread)) : (s.setThreads v).seqs = s.seqs := rfl
@[simp] theorem State.setThreads_cores (v : List (Nat × VThread)) : (s.setThreads v).cores = s.cores := rfl
@[simp] theorem State.setThreads_threads (v : List (Nat × VThread)) : (s.setThreads v).threads = v := rfl
@[simp] theorem State.setThreads_vtCopy (v : List (Nat × VThread)) : (s.setThreads v).vtCopy = s.vtCopy := rfl
@[simp] theorem State.setThreads_sync (v : List (Nat × VThread)) : (s.setThreads v).sync = s.sync := rfl
@[simp] theorem State.setThreads_sol (v : List (Nat × VThread)) : (s.setThreads v).sol = s.sol := rfl
@[simp] theorem State.setThreads_qsk (v : List (Nat × VThread)) : (s.setThreads v).qsk = s.qsk := rfl
@[simp] theorem State.setThreads_wires (v : List (Nat × VThread)) : (s.setThreads v).wires = s.wires := rfl
@[simp] theorem State.setThreads_flits (v : List (Nat × VThread)) : (s.setThreads v).flits = s.flits := rfl
@[simp] theorem State.setThreads_rbufs (v : List (Nat × VThread)) : (s.setThreads v).rbufs = s.rbufs := rfl
@[simp] theorem State.setThreads_fstr (v : List (Nat × VThread)) : (s.setThreads v).fstr = s.fstr := rfl
@[simp] theorem State.setThreads_codec (v : List (Nat × VThread)) : (s.setThreads v).codec = s.codec := rfl
@[simp] theorem State.setThreads_reqs (v : List (Nat × VThread)) : (s.setThreads v).reqs = s.reqs := rfl
@[simp] theorem State.setThreads_nextReq (v : List (Nat × VThread)) : (s.setThreads v).nextReq = s.nextReq := rfl
@[simp] theorem State.setThreads_held (v : List (Nat × VThread)) : (s.setThreads v).held = s.held := rfl
@[simp] theorem State.setThreads_load (v : List (Nat × VThread)) : (s.setThreads v).load = s.load := rfl
@[simp] theorem State.setThreads_unitGw (v : List (Nat × VThread)) : (s.setThreads v).unitGw = s.unitGw := rfl
@[simp] theorem State.setThreads_otp (v : List (Nat × VThread)) : (s.setThreads v).otp = s.otp := rfl
@[simp] theorem State.setThreads_bgw (v : List (Nat × VThread)) : (s.setThreads v).bgw = s.bgw := rfl
@[simp] theorem State.setThreads_isl (v : List (Nat × VThread)) : (s.setThreads v).isl = s.isl := rfl
@[simp] theorem State.setThreads_learn (v : List (Nat × VThread)) : (s.setThreads v).learn = s.learn := rfl
@[simp] theorem State.setThreads_stw (v : List (Nat × VThread)) : (s.setThreads v).stw = s.stw := rfl
@[simp] theorem State.setThreads_ev (v : List (Nat × VThread)) : (s.setThreads v).ev = s.ev := rfl
@[simp] theorem State.setVtCopy_pending (v : List (Nat × VtCopy)) : (s.setVtCopy v).pending = s.pending := rfl
@[simp] theorem State.setVtCopy_regs (v : List (Nat × VtCopy)) : (s.setVtCopy v).regs = s.regs := rfl
@[simp] theorem State.setVtCopy_mem (v : List (Nat × VtCopy)) : (s.setVtCopy v).mem = s.mem := rfl
@[simp] theorem State.setVtCopy_ecc (v : List (Nat × VtCopy)) : (s.setVtCopy v).ecc = s.ecc := rfl
@[simp] theorem State.setVtCopy_alm (v : List (Nat × VtCopy)) : (s.setVtCopy v).alm = s.alm := rfl
@[simp] theorem State.setVtCopy_bm (v : List (Nat × VtCopy)) : (s.setVtCopy v).bm = s.bm := rfl
@[simp] theorem State.setVtCopy_flt (v : List (Nat × VtCopy)) : (s.setVtCopy v).flt = s.flt := rfl
@[simp] theorem State.setVtCopy_pwr (v : List (Nat × VtCopy)) : (s.setVtCopy v).pwr = s.pwr := rfl
@[simp] theorem State.setVtCopy_irq (v : List (Nat × VtCopy)) : (s.setVtCopy v).irq = s.irq := rfl
@[simp] theorem State.setVtCopy_pipes (v : List (Nat × VtCopy)) : (s.setVtCopy v).pipes = s.pipes := rfl
@[simp] theorem State.setVtCopy_streams (v : List (Nat × VtCopy)) : (s.setVtCopy v).streams = s.streams := rfl
@[simp] theorem State.setVtCopy_ep (v : List (Nat × VtCopy)) : (s.setVtCopy v).ep = s.ep := rfl
@[simp] theorem State.setVtCopy_eth (v : List (Nat × VtCopy)) : (s.setVtCopy v).eth = s.eth := rfl
@[simp] theorem State.setVtCopy_denyArmed (v : List (Nat × VtCopy)) : (s.setVtCopy v).denyArmed = s.denyArmed := rfl
@[simp] theorem State.setVtCopy_resp (v : List (Nat × VtCopy)) : (s.setVtCopy v).resp = s.resp := rfl
@[simp] theorem State.setVtCopy_free (v : List (Nat × VtCopy)) : (s.setVtCopy v).free = s.free := rfl
@[simp] theorem State.setVtCopy_out (v : List (Nat × VtCopy)) : (s.setVtCopy v).out = s.out := rfl
@[simp] theorem State.setVtCopy_hbm (v : List (Nat × VtCopy)) : (s.setVtCopy v).hbm = s.hbm := rfl
@[simp] theorem State.setVtCopy_carry (v : List (Nat × VtCopy)) : (s.setVtCopy v).carry = s.carry := rfl
@[simp] theorem State.setVtCopy_tiles (v : List (Nat × VtCopy)) : (s.setVtCopy v).tiles = s.tiles := rfl
@[simp] theorem State.setVtCopy_edges (v : List (Nat × VtCopy)) : (s.setVtCopy v).edges = s.edges := rfl
@[simp] theorem State.setVtCopy_gws (v : List (Nat × VtCopy)) : (s.setVtCopy v).gws = s.gws := rfl
@[simp] theorem State.setVtCopy_spine (v : List (Nat × VtCopy)) : (s.setVtCopy v).spine = s.spine := rfl
@[simp] theorem State.setVtCopy_spineBad (v : List (Nat × VtCopy)) : (s.setVtCopy v).spineBad = s.spineBad := rfl
@[simp] theorem State.setVtCopy_seqs (v : List (Nat × VtCopy)) : (s.setVtCopy v).seqs = s.seqs := rfl
@[simp] theorem State.setVtCopy_cores (v : List (Nat × VtCopy)) : (s.setVtCopy v).cores = s.cores := rfl
@[simp] theorem State.setVtCopy_threads (v : List (Nat × VtCopy)) : (s.setVtCopy v).threads = s.threads := rfl
@[simp] theorem State.setVtCopy_vtCopy (v : List (Nat × VtCopy)) : (s.setVtCopy v).vtCopy = v := rfl
@[simp] theorem State.setVtCopy_sync (v : List (Nat × VtCopy)) : (s.setVtCopy v).sync = s.sync := rfl
@[simp] theorem State.setVtCopy_sol (v : List (Nat × VtCopy)) : (s.setVtCopy v).sol = s.sol := rfl
@[simp] theorem State.setVtCopy_qsk (v : List (Nat × VtCopy)) : (s.setVtCopy v).qsk = s.qsk := rfl
@[simp] theorem State.setVtCopy_wires (v : List (Nat × VtCopy)) : (s.setVtCopy v).wires = s.wires := rfl
@[simp] theorem State.setVtCopy_flits (v : List (Nat × VtCopy)) : (s.setVtCopy v).flits = s.flits := rfl
@[simp] theorem State.setVtCopy_rbufs (v : List (Nat × VtCopy)) : (s.setVtCopy v).rbufs = s.rbufs := rfl
@[simp] theorem State.setVtCopy_fstr (v : List (Nat × VtCopy)) : (s.setVtCopy v).fstr = s.fstr := rfl
@[simp] theorem State.setVtCopy_codec (v : List (Nat × VtCopy)) : (s.setVtCopy v).codec = s.codec := rfl
@[simp] theorem State.setVtCopy_reqs (v : List (Nat × VtCopy)) : (s.setVtCopy v).reqs = s.reqs := rfl
@[simp] theorem State.setVtCopy_nextReq (v : List (Nat × VtCopy)) : (s.setVtCopy v).nextReq = s.nextReq := rfl
@[simp] theorem State.setVtCopy_held (v : List (Nat × VtCopy)) : (s.setVtCopy v).held = s.held := rfl
@[simp] theorem State.setVtCopy_load (v : List (Nat × VtCopy)) : (s.setVtCopy v).load = s.load := rfl
@[simp] theorem State.setVtCopy_unitGw (v : List (Nat × VtCopy)) : (s.setVtCopy v).unitGw = s.unitGw := rfl
@[simp] theorem State.setVtCopy_otp (v : List (Nat × VtCopy)) : (s.setVtCopy v).otp = s.otp := rfl
@[simp] theorem State.setVtCopy_bgw (v : List (Nat × VtCopy)) : (s.setVtCopy v).bgw = s.bgw := rfl
@[simp] theorem State.setVtCopy_isl (v : List (Nat × VtCopy)) : (s.setVtCopy v).isl = s.isl := rfl
@[simp] theorem State.setVtCopy_learn (v : List (Nat × VtCopy)) : (s.setVtCopy v).learn = s.learn := rfl
@[simp] theorem State.setVtCopy_stw (v : List (Nat × VtCopy)) : (s.setVtCopy v).stw = s.stw := rfl
@[simp] theorem State.setVtCopy_ev (v : List (Nat × VtCopy)) : (s.setVtCopy v).ev = s.ev := rfl
@[simp] theorem State.setSync_pending (v : SyncState) : (s.setSync v).pending = s.pending := rfl
@[simp] theorem State.setSync_regs (v : SyncState) : (s.setSync v).regs = s.regs := rfl
@[simp] theorem State.setSync_mem (v : SyncState) : (s.setSync v).mem = s.mem := rfl
@[simp] theorem State.setSync_ecc (v : SyncState) : (s.setSync v).ecc = s.ecc := rfl
@[simp] theorem State.setSync_alm (v : SyncState) : (s.setSync v).alm = s.alm := rfl
@[simp] theorem State.setSync_bm (v : SyncState) : (s.setSync v).bm = s.bm := rfl
@[simp] theorem State.setSync_flt (v : SyncState) : (s.setSync v).flt = s.flt := rfl
@[simp] theorem State.setSync_pwr (v : SyncState) : (s.setSync v).pwr = s.pwr := rfl
@[simp] theorem State.setSync_irq (v : SyncState) : (s.setSync v).irq = s.irq := rfl
@[simp] theorem State.setSync_pipes (v : SyncState) : (s.setSync v).pipes = s.pipes := rfl
@[simp] theorem State.setSync_streams (v : SyncState) : (s.setSync v).streams = s.streams := rfl
@[simp] theorem State.setSync_ep (v : SyncState) : (s.setSync v).ep = s.ep := rfl
@[simp] theorem State.setSync_eth (v : SyncState) : (s.setSync v).eth = s.eth := rfl
@[simp] theorem State.setSync_denyArmed (v : SyncState) : (s.setSync v).denyArmed = s.denyArmed := rfl
@[simp] theorem State.setSync_resp (v : SyncState) : (s.setSync v).resp = s.resp := rfl
@[simp] theorem State.setSync_free (v : SyncState) : (s.setSync v).free = s.free := rfl
@[simp] theorem State.setSync_out (v : SyncState) : (s.setSync v).out = s.out := rfl
@[simp] theorem State.setSync_hbm (v : SyncState) : (s.setSync v).hbm = s.hbm := rfl
@[simp] theorem State.setSync_carry (v : SyncState) : (s.setSync v).carry = s.carry := rfl
@[simp] theorem State.setSync_tiles (v : SyncState) : (s.setSync v).tiles = s.tiles := rfl
@[simp] theorem State.setSync_edges (v : SyncState) : (s.setSync v).edges = s.edges := rfl
@[simp] theorem State.setSync_gws (v : SyncState) : (s.setSync v).gws = s.gws := rfl
@[simp] theorem State.setSync_spine (v : SyncState) : (s.setSync v).spine = s.spine := rfl
@[simp] theorem State.setSync_spineBad (v : SyncState) : (s.setSync v).spineBad = s.spineBad := rfl
@[simp] theorem State.setSync_seqs (v : SyncState) : (s.setSync v).seqs = s.seqs := rfl
@[simp] theorem State.setSync_cores (v : SyncState) : (s.setSync v).cores = s.cores := rfl
@[simp] theorem State.setSync_threads (v : SyncState) : (s.setSync v).threads = s.threads := rfl
@[simp] theorem State.setSync_vtCopy (v : SyncState) : (s.setSync v).vtCopy = s.vtCopy := rfl
@[simp] theorem State.setSync_sync (v : SyncState) : (s.setSync v).sync = v := rfl
@[simp] theorem State.setSync_sol (v : SyncState) : (s.setSync v).sol = s.sol := rfl
@[simp] theorem State.setSync_qsk (v : SyncState) : (s.setSync v).qsk = s.qsk := rfl
@[simp] theorem State.setSync_wires (v : SyncState) : (s.setSync v).wires = s.wires := rfl
@[simp] theorem State.setSync_flits (v : SyncState) : (s.setSync v).flits = s.flits := rfl
@[simp] theorem State.setSync_rbufs (v : SyncState) : (s.setSync v).rbufs = s.rbufs := rfl
@[simp] theorem State.setSync_fstr (v : SyncState) : (s.setSync v).fstr = s.fstr := rfl
@[simp] theorem State.setSync_codec (v : SyncState) : (s.setSync v).codec = s.codec := rfl
@[simp] theorem State.setSync_reqs (v : SyncState) : (s.setSync v).reqs = s.reqs := rfl
@[simp] theorem State.setSync_nextReq (v : SyncState) : (s.setSync v).nextReq = s.nextReq := rfl
@[simp] theorem State.setSync_held (v : SyncState) : (s.setSync v).held = s.held := rfl
@[simp] theorem State.setSync_load (v : SyncState) : (s.setSync v).load = s.load := rfl
@[simp] theorem State.setSync_unitGw (v : SyncState) : (s.setSync v).unitGw = s.unitGw := rfl
@[simp] theorem State.setSync_otp (v : SyncState) : (s.setSync v).otp = s.otp := rfl
@[simp] theorem State.setSync_bgw (v : SyncState) : (s.setSync v).bgw = s.bgw := rfl
@[simp] theorem State.setSync_isl (v : SyncState) : (s.setSync v).isl = s.isl := rfl
@[simp] theorem State.setSync_learn (v : SyncState) : (s.setSync v).learn = s.learn := rfl
@[simp] theorem State.setSync_stw (v : SyncState) : (s.setSync v).stw = s.stw := rfl
@[simp] theorem State.setSync_ev (v : SyncState) : (s.setSync v).ev = s.ev := rfl
@[simp] theorem State.setSol_pending (v : SolState) : (s.setSol v).pending = s.pending := rfl
@[simp] theorem State.setSol_regs (v : SolState) : (s.setSol v).regs = s.regs := rfl
@[simp] theorem State.setSol_mem (v : SolState) : (s.setSol v).mem = s.mem := rfl
@[simp] theorem State.setSol_ecc (v : SolState) : (s.setSol v).ecc = s.ecc := rfl
@[simp] theorem State.setSol_alm (v : SolState) : (s.setSol v).alm = s.alm := rfl
@[simp] theorem State.setSol_bm (v : SolState) : (s.setSol v).bm = s.bm := rfl
@[simp] theorem State.setSol_flt (v : SolState) : (s.setSol v).flt = s.flt := rfl
@[simp] theorem State.setSol_pwr (v : SolState) : (s.setSol v).pwr = s.pwr := rfl
@[simp] theorem State.setSol_irq (v : SolState) : (s.setSol v).irq = s.irq := rfl
@[simp] theorem State.setSol_pipes (v : SolState) : (s.setSol v).pipes = s.pipes := rfl
@[simp] theorem State.setSol_streams (v : SolState) : (s.setSol v).streams = s.streams := rfl
@[simp] theorem State.setSol_ep (v : SolState) : (s.setSol v).ep = s.ep := rfl
@[simp] theorem State.setSol_eth (v : SolState) : (s.setSol v).eth = s.eth := rfl
@[simp] theorem State.setSol_denyArmed (v : SolState) : (s.setSol v).denyArmed = s.denyArmed := rfl
@[simp] theorem State.setSol_resp (v : SolState) : (s.setSol v).resp = s.resp := rfl
@[simp] theorem State.setSol_free (v : SolState) : (s.setSol v).free = s.free := rfl
@[simp] theorem State.setSol_out (v : SolState) : (s.setSol v).out = s.out := rfl
@[simp] theorem State.setSol_hbm (v : SolState) : (s.setSol v).hbm = s.hbm := rfl
@[simp] theorem State.setSol_carry (v : SolState) : (s.setSol v).carry = s.carry := rfl
@[simp] theorem State.setSol_tiles (v : SolState) : (s.setSol v).tiles = s.tiles := rfl
@[simp] theorem State.setSol_edges (v : SolState) : (s.setSol v).edges = s.edges := rfl
@[simp] theorem State.setSol_gws (v : SolState) : (s.setSol v).gws = s.gws := rfl
@[simp] theorem State.setSol_spine (v : SolState) : (s.setSol v).spine = s.spine := rfl
@[simp] theorem State.setSol_spineBad (v : SolState) : (s.setSol v).spineBad = s.spineBad := rfl
@[simp] theorem State.setSol_seqs (v : SolState) : (s.setSol v).seqs = s.seqs := rfl
@[simp] theorem State.setSol_cores (v : SolState) : (s.setSol v).cores = s.cores := rfl
@[simp] theorem State.setSol_threads (v : SolState) : (s.setSol v).threads = s.threads := rfl
@[simp] theorem State.setSol_vtCopy (v : SolState) : (s.setSol v).vtCopy = s.vtCopy := rfl
@[simp] theorem State.setSol_sync (v : SolState) : (s.setSol v).sync = s.sync := rfl
@[simp] theorem State.setSol_sol (v : SolState) : (s.setSol v).sol = v := rfl
@[simp] theorem State.setSol_qsk (v : SolState) : (s.setSol v).qsk = s.qsk := rfl
@[simp] theorem State.setSol_wires (v : SolState) : (s.setSol v).wires = s.wires := rfl
@[simp] theorem State.setSol_flits (v : SolState) : (s.setSol v).flits = s.flits := rfl
@[simp] theorem State.setSol_rbufs (v : SolState) : (s.setSol v).rbufs = s.rbufs := rfl
@[simp] theorem State.setSol_fstr (v : SolState) : (s.setSol v).fstr = s.fstr := rfl
@[simp] theorem State.setSol_codec (v : SolState) : (s.setSol v).codec = s.codec := rfl
@[simp] theorem State.setSol_reqs (v : SolState) : (s.setSol v).reqs = s.reqs := rfl
@[simp] theorem State.setSol_nextReq (v : SolState) : (s.setSol v).nextReq = s.nextReq := rfl
@[simp] theorem State.setSol_held (v : SolState) : (s.setSol v).held = s.held := rfl
@[simp] theorem State.setSol_load (v : SolState) : (s.setSol v).load = s.load := rfl
@[simp] theorem State.setSol_unitGw (v : SolState) : (s.setSol v).unitGw = s.unitGw := rfl
@[simp] theorem State.setSol_otp (v : SolState) : (s.setSol v).otp = s.otp := rfl
@[simp] theorem State.setSol_bgw (v : SolState) : (s.setSol v).bgw = s.bgw := rfl
@[simp] theorem State.setSol_isl (v : SolState) : (s.setSol v).isl = s.isl := rfl
@[simp] theorem State.setSol_learn (v : SolState) : (s.setSol v).learn = s.learn := rfl
@[simp] theorem State.setSol_stw (v : SolState) : (s.setSol v).stw = s.stw := rfl
@[simp] theorem State.setSol_ev (v : SolState) : (s.setSol v).ev = s.ev := rfl
@[simp] theorem State.setQsk_pending (v : QskState) : (s.setQsk v).pending = s.pending := rfl
@[simp] theorem State.setQsk_regs (v : QskState) : (s.setQsk v).regs = s.regs := rfl
@[simp] theorem State.setQsk_mem (v : QskState) : (s.setQsk v).mem = s.mem := rfl
@[simp] theorem State.setQsk_ecc (v : QskState) : (s.setQsk v).ecc = s.ecc := rfl
@[simp] theorem State.setQsk_alm (v : QskState) : (s.setQsk v).alm = s.alm := rfl
@[simp] theorem State.setQsk_bm (v : QskState) : (s.setQsk v).bm = s.bm := rfl
@[simp] theorem State.setQsk_flt (v : QskState) : (s.setQsk v).flt = s.flt := rfl
@[simp] theorem State.setQsk_pwr (v : QskState) : (s.setQsk v).pwr = s.pwr := rfl
@[simp] theorem State.setQsk_irq (v : QskState) : (s.setQsk v).irq = s.irq := rfl
@[simp] theorem State.setQsk_pipes (v : QskState) : (s.setQsk v).pipes = s.pipes := rfl
@[simp] theorem State.setQsk_streams (v : QskState) : (s.setQsk v).streams = s.streams := rfl
@[simp] theorem State.setQsk_ep (v : QskState) : (s.setQsk v).ep = s.ep := rfl
@[simp] theorem State.setQsk_eth (v : QskState) : (s.setQsk v).eth = s.eth := rfl
@[simp] theorem State.setQsk_denyArmed (v : QskState) : (s.setQsk v).denyArmed = s.denyArmed := rfl
@[simp] theorem State.setQsk_resp (v : QskState) : (s.setQsk v).resp = s.resp := rfl
@[simp] theorem State.setQsk_free (v : QskState) : (s.setQsk v).free = s.free := rfl
@[simp] theorem State.setQsk_out (v : QskState) : (s.setQsk v).out = s.out := rfl
@[simp] theorem State.setQsk_hbm (v : QskState) : (s.setQsk v).hbm = s.hbm := rfl
@[simp] theorem State.setQsk_carry (v : QskState) : (s.setQsk v).carry = s.carry := rfl
@[simp] theorem State.setQsk_tiles (v : QskState) : (s.setQsk v).tiles = s.tiles := rfl
@[simp] theorem State.setQsk_edges (v : QskState) : (s.setQsk v).edges = s.edges := rfl
@[simp] theorem State.setQsk_gws (v : QskState) : (s.setQsk v).gws = s.gws := rfl
@[simp] theorem State.setQsk_spine (v : QskState) : (s.setQsk v).spine = s.spine := rfl
@[simp] theorem State.setQsk_spineBad (v : QskState) : (s.setQsk v).spineBad = s.spineBad := rfl
@[simp] theorem State.setQsk_seqs (v : QskState) : (s.setQsk v).seqs = s.seqs := rfl
@[simp] theorem State.setQsk_cores (v : QskState) : (s.setQsk v).cores = s.cores := rfl
@[simp] theorem State.setQsk_threads (v : QskState) : (s.setQsk v).threads = s.threads := rfl
@[simp] theorem State.setQsk_vtCopy (v : QskState) : (s.setQsk v).vtCopy = s.vtCopy := rfl
@[simp] theorem State.setQsk_sync (v : QskState) : (s.setQsk v).sync = s.sync := rfl
@[simp] theorem State.setQsk_sol (v : QskState) : (s.setQsk v).sol = s.sol := rfl
@[simp] theorem State.setQsk_qsk (v : QskState) : (s.setQsk v).qsk = v := rfl
@[simp] theorem State.setQsk_wires (v : QskState) : (s.setQsk v).wires = s.wires := rfl
@[simp] theorem State.setQsk_flits (v : QskState) : (s.setQsk v).flits = s.flits := rfl
@[simp] theorem State.setQsk_rbufs (v : QskState) : (s.setQsk v).rbufs = s.rbufs := rfl
@[simp] theorem State.setQsk_fstr (v : QskState) : (s.setQsk v).fstr = s.fstr := rfl
@[simp] theorem State.setQsk_codec (v : QskState) : (s.setQsk v).codec = s.codec := rfl
@[simp] theorem State.setQsk_reqs (v : QskState) : (s.setQsk v).reqs = s.reqs := rfl
@[simp] theorem State.setQsk_nextReq (v : QskState) : (s.setQsk v).nextReq = s.nextReq := rfl
@[simp] theorem State.setQsk_held (v : QskState) : (s.setQsk v).held = s.held := rfl
@[simp] theorem State.setQsk_load (v : QskState) : (s.setQsk v).load = s.load := rfl
@[simp] theorem State.setQsk_unitGw (v : QskState) : (s.setQsk v).unitGw = s.unitGw := rfl
@[simp] theorem State.setQsk_otp (v : QskState) : (s.setQsk v).otp = s.otp := rfl
@[simp] theorem State.setQsk_bgw (v : QskState) : (s.setQsk v).bgw = s.bgw := rfl
@[simp] theorem State.setQsk_isl (v : QskState) : (s.setQsk v).isl = s.isl := rfl
@[simp] theorem State.setQsk_learn (v : QskState) : (s.setQsk v).learn = s.learn := rfl
@[simp] theorem State.setQsk_stw (v : QskState) : (s.setQsk v).stw = s.stw := rfl
@[simp] theorem State.setQsk_ev (v : QskState) : (s.setQsk v).ev = s.ev := rfl
@[simp] theorem State.setWires_pending (v : List (Nat × List QWord)) : (s.setWires v).pending = s.pending := rfl
@[simp] theorem State.setWires_regs (v : List (Nat × List QWord)) : (s.setWires v).regs = s.regs := rfl
@[simp] theorem State.setWires_mem (v : List (Nat × List QWord)) : (s.setWires v).mem = s.mem := rfl
@[simp] theorem State.setWires_ecc (v : List (Nat × List QWord)) : (s.setWires v).ecc = s.ecc := rfl
@[simp] theorem State.setWires_alm (v : List (Nat × List QWord)) : (s.setWires v).alm = s.alm := rfl
@[simp] theorem State.setWires_bm (v : List (Nat × List QWord)) : (s.setWires v).bm = s.bm := rfl
@[simp] theorem State.setWires_flt (v : List (Nat × List QWord)) : (s.setWires v).flt = s.flt := rfl
@[simp] theorem State.setWires_pwr (v : List (Nat × List QWord)) : (s.setWires v).pwr = s.pwr := rfl
@[simp] theorem State.setWires_irq (v : List (Nat × List QWord)) : (s.setWires v).irq = s.irq := rfl
@[simp] theorem State.setWires_pipes (v : List (Nat × List QWord)) : (s.setWires v).pipes = s.pipes := rfl
@[simp] theorem State.setWires_streams (v : List (Nat × List QWord)) : (s.setWires v).streams = s.streams := rfl
@[simp] theorem State.setWires_ep (v : List (Nat × List QWord)) : (s.setWires v).ep = s.ep := rfl
@[simp] theorem State.setWires_eth (v : List (Nat × List QWord)) : (s.setWires v).eth = s.eth := rfl
@[simp] theorem State.setWires_denyArmed (v : List (Nat × List QWord)) : (s.setWires v).denyArmed = s.denyArmed := rfl
@[simp] theorem State.setWires_resp (v : List (Nat × List QWord)) : (s.setWires v).resp = s.resp := rfl
@[simp] theorem State.setWires_free (v : List (Nat × List QWord)) : (s.setWires v).free = s.free := rfl
@[simp] theorem State.setWires_out (v : List (Nat × List QWord)) : (s.setWires v).out = s.out := rfl
@[simp] theorem State.setWires_hbm (v : List (Nat × List QWord)) : (s.setWires v).hbm = s.hbm := rfl
@[simp] theorem State.setWires_carry (v : List (Nat × List QWord)) : (s.setWires v).carry = s.carry := rfl
@[simp] theorem State.setWires_tiles (v : List (Nat × List QWord)) : (s.setWires v).tiles = s.tiles := rfl
@[simp] theorem State.setWires_edges (v : List (Nat × List QWord)) : (s.setWires v).edges = s.edges := rfl
@[simp] theorem State.setWires_gws (v : List (Nat × List QWord)) : (s.setWires v).gws = s.gws := rfl
@[simp] theorem State.setWires_spine (v : List (Nat × List QWord)) : (s.setWires v).spine = s.spine := rfl
@[simp] theorem State.setWires_spineBad (v : List (Nat × List QWord)) : (s.setWires v).spineBad = s.spineBad := rfl
@[simp] theorem State.setWires_seqs (v : List (Nat × List QWord)) : (s.setWires v).seqs = s.seqs := rfl
@[simp] theorem State.setWires_cores (v : List (Nat × List QWord)) : (s.setWires v).cores = s.cores := rfl
@[simp] theorem State.setWires_threads (v : List (Nat × List QWord)) : (s.setWires v).threads = s.threads := rfl
@[simp] theorem State.setWires_vtCopy (v : List (Nat × List QWord)) : (s.setWires v).vtCopy = s.vtCopy := rfl
@[simp] theorem State.setWires_sync (v : List (Nat × List QWord)) : (s.setWires v).sync = s.sync := rfl
@[simp] theorem State.setWires_sol (v : List (Nat × List QWord)) : (s.setWires v).sol = s.sol := rfl
@[simp] theorem State.setWires_qsk (v : List (Nat × List QWord)) : (s.setWires v).qsk = s.qsk := rfl
@[simp] theorem State.setWires_wires (v : List (Nat × List QWord)) : (s.setWires v).wires = v := rfl
@[simp] theorem State.setWires_flits (v : List (Nat × List QWord)) : (s.setWires v).flits = s.flits := rfl
@[simp] theorem State.setWires_rbufs (v : List (Nat × List QWord)) : (s.setWires v).rbufs = s.rbufs := rfl
@[simp] theorem State.setWires_fstr (v : List (Nat × List QWord)) : (s.setWires v).fstr = s.fstr := rfl
@[simp] theorem State.setWires_codec (v : List (Nat × List QWord)) : (s.setWires v).codec = s.codec := rfl
@[simp] theorem State.setWires_reqs (v : List (Nat × List QWord)) : (s.setWires v).reqs = s.reqs := rfl
@[simp] theorem State.setWires_nextReq (v : List (Nat × List QWord)) : (s.setWires v).nextReq = s.nextReq := rfl
@[simp] theorem State.setWires_held (v : List (Nat × List QWord)) : (s.setWires v).held = s.held := rfl
@[simp] theorem State.setWires_load (v : List (Nat × List QWord)) : (s.setWires v).load = s.load := rfl
@[simp] theorem State.setWires_unitGw (v : List (Nat × List QWord)) : (s.setWires v).unitGw = s.unitGw := rfl
@[simp] theorem State.setWires_otp (v : List (Nat × List QWord)) : (s.setWires v).otp = s.otp := rfl
@[simp] theorem State.setWires_bgw (v : List (Nat × List QWord)) : (s.setWires v).bgw = s.bgw := rfl
@[simp] theorem State.setWires_isl (v : List (Nat × List QWord)) : (s.setWires v).isl = s.isl := rfl
@[simp] theorem State.setWires_learn (v : List (Nat × List QWord)) : (s.setWires v).learn = s.learn := rfl
@[simp] theorem State.setWires_stw (v : List (Nat × List QWord)) : (s.setWires v).stw = s.stw := rfl
@[simp] theorem State.setWires_ev (v : List (Nat × List QWord)) : (s.setWires v).ev = s.ev := rfl
@[simp] theorem State.setFlits_pending (v : List (Nat × List (Nat × QWord))) : (s.setFlits v).pending = s.pending := rfl
@[simp] theorem State.setFlits_regs (v : List (Nat × List (Nat × QWord))) : (s.setFlits v).regs = s.regs := rfl
@[simp] theorem State.setFlits_mem (v : List (Nat × List (Nat × QWord))) : (s.setFlits v).mem = s.mem := rfl
@[simp] theorem State.setFlits_ecc (v : List (Nat × List (Nat × QWord))) : (s.setFlits v).ecc = s.ecc := rfl
@[simp] theorem State.setFlits_alm (v : List (Nat × List (Nat × QWord))) : (s.setFlits v).alm = s.alm := rfl
@[simp] theorem State.setFlits_bm (v : List (Nat × List (Nat × QWord))) : (s.setFlits v).bm = s.bm := rfl
@[simp] theorem State.setFlits_flt (v : List (Nat × List (Nat × QWord))) : (s.setFlits v).flt = s.flt := rfl
@[simp] theorem State.setFlits_pwr (v : List (Nat × List (Nat × QWord))) : (s.setFlits v).pwr = s.pwr := rfl
@[simp] theorem State.setFlits_irq (v : List (Nat × List (Nat × QWord))) : (s.setFlits v).irq = s.irq := rfl
@[simp] theorem State.setFlits_pipes (v : List (Nat × List (Nat × QWord))) : (s.setFlits v).pipes = s.pipes := rfl
@[simp] theorem State.setFlits_streams (v : List (Nat × List (Nat × QWord))) : (s.setFlits v).streams = s.streams := rfl
@[simp] theorem State.setFlits_ep (v : List (Nat × List (Nat × QWord))) : (s.setFlits v).ep = s.ep := rfl
@[simp] theorem State.setFlits_eth (v : List (Nat × List (Nat × QWord))) : (s.setFlits v).eth = s.eth := rfl
@[simp] theorem State.setFlits_denyArmed (v : List (Nat × List (Nat × QWord))) : (s.setFlits v).denyArmed = s.denyArmed := rfl
@[simp] theorem State.setFlits_resp (v : List (Nat × List (Nat × QWord))) : (s.setFlits v).resp = s.resp := rfl
@[simp] theorem State.setFlits_free (v : List (Nat × List (Nat × QWord))) : (s.setFlits v).free = s.free := rfl
@[simp] theorem State.setFlits_out (v : List (Nat × List (Nat × QWord))) : (s.setFlits v).out = s.out := rfl
@[simp] theorem State.setFlits_hbm (v : List (Nat × List (Nat × QWord))) : (s.setFlits v).hbm = s.hbm := rfl
@[simp] theorem State.setFlits_carry (v : List (Nat × List (Nat × QWord))) : (s.setFlits v).carry = s.carry := rfl
@[simp] theorem State.setFlits_tiles (v : List (Nat × List (Nat × QWord))) : (s.setFlits v).tiles = s.tiles := rfl
@[simp] theorem State.setFlits_edges (v : List (Nat × List (Nat × QWord))) : (s.setFlits v).edges = s.edges := rfl
@[simp] theorem State.setFlits_gws (v : List (Nat × List (Nat × QWord))) : (s.setFlits v).gws = s.gws := rfl
@[simp] theorem State.setFlits_spine (v : List (Nat × List (Nat × QWord))) : (s.setFlits v).spine = s.spine := rfl
@[simp] theorem State.setFlits_spineBad (v : List (Nat × List (Nat × QWord))) : (s.setFlits v).spineBad = s.spineBad := rfl
@[simp] theorem State.setFlits_seqs (v : List (Nat × List (Nat × QWord))) : (s.setFlits v).seqs = s.seqs := rfl
@[simp] theorem State.setFlits_cores (v : List (Nat × List (Nat × QWord))) : (s.setFlits v).cores = s.cores := rfl
@[simp] theorem State.setFlits_threads (v : List (Nat × List (Nat × QWord))) : (s.setFlits v).threads = s.threads := rfl
@[simp] theorem State.setFlits_vtCopy (v : List (Nat × List (Nat × QWord))) : (s.setFlits v).vtCopy = s.vtCopy := rfl
@[simp] theorem State.setFlits_sync (v : List (Nat × List (Nat × QWord))) : (s.setFlits v).sync = s.sync := rfl
@[simp] theorem State.setFlits_sol (v : List (Nat × List (Nat × QWord))) : (s.setFlits v).sol = s.sol := rfl
@[simp] theorem State.setFlits_qsk (v : List (Nat × List (Nat × QWord))) : (s.setFlits v).qsk = s.qsk := rfl
@[simp] theorem State.setFlits_wires (v : List (Nat × List (Nat × QWord))) : (s.setFlits v).wires = s.wires := rfl
@[simp] theorem State.setFlits_flits (v : List (Nat × List (Nat × QWord))) : (s.setFlits v).flits = v := rfl
@[simp] theorem State.setFlits_rbufs (v : List (Nat × List (Nat × QWord))) : (s.setFlits v).rbufs = s.rbufs := rfl
@[simp] theorem State.setFlits_fstr (v : List (Nat × List (Nat × QWord))) : (s.setFlits v).fstr = s.fstr := rfl
@[simp] theorem State.setFlits_codec (v : List (Nat × List (Nat × QWord))) : (s.setFlits v).codec = s.codec := rfl
@[simp] theorem State.setFlits_reqs (v : List (Nat × List (Nat × QWord))) : (s.setFlits v).reqs = s.reqs := rfl
@[simp] theorem State.setFlits_nextReq (v : List (Nat × List (Nat × QWord))) : (s.setFlits v).nextReq = s.nextReq := rfl
@[simp] theorem State.setFlits_held (v : List (Nat × List (Nat × QWord))) : (s.setFlits v).held = s.held := rfl
@[simp] theorem State.setFlits_load (v : List (Nat × List (Nat × QWord))) : (s.setFlits v).load = s.load := rfl
@[simp] theorem State.setFlits_unitGw (v : List (Nat × List (Nat × QWord))) : (s.setFlits v).unitGw = s.unitGw := rfl
@[simp] theorem State.setFlits_otp (v : List (Nat × List (Nat × QWord))) : (s.setFlits v).otp = s.otp := rfl
@[simp] theorem State.setFlits_bgw (v : List (Nat × List (Nat × QWord))) : (s.setFlits v).bgw = s.bgw := rfl
@[simp] theorem State.setFlits_isl (v : List (Nat × List (Nat × QWord))) : (s.setFlits v).isl = s.isl := rfl
@[simp] theorem State.setFlits_learn (v : List (Nat × List (Nat × QWord))) : (s.setFlits v).learn = s.learn := rfl
@[simp] theorem State.setFlits_stw (v : List (Nat × List (Nat × QWord))) : (s.setFlits v).stw = s.stw := rfl
@[simp] theorem State.setFlits_ev (v : List (Nat × List (Nat × QWord))) : (s.setFlits v).ev = s.ev := rfl
@[simp] theorem State.setRbufs_pending (v : List (Nat × RowBuf)) : (s.setRbufs v).pending = s.pending := rfl
@[simp] theorem State.setRbufs_regs (v : List (Nat × RowBuf)) : (s.setRbufs v).regs = s.regs := rfl
@[simp] theorem State.setRbufs_mem (v : List (Nat × RowBuf)) : (s.setRbufs v).mem = s.mem := rfl
@[simp] theorem State.setRbufs_ecc (v : List (Nat × RowBuf)) : (s.setRbufs v).ecc = s.ecc := rfl
@[simp] theorem State.setRbufs_alm (v : List (Nat × RowBuf)) : (s.setRbufs v).alm = s.alm := rfl
@[simp] theorem State.setRbufs_bm (v : List (Nat × RowBuf)) : (s.setRbufs v).bm = s.bm := rfl
@[simp] theorem State.setRbufs_flt (v : List (Nat × RowBuf)) : (s.setRbufs v).flt = s.flt := rfl
@[simp] theorem State.setRbufs_pwr (v : List (Nat × RowBuf)) : (s.setRbufs v).pwr = s.pwr := rfl
@[simp] theorem State.setRbufs_irq (v : List (Nat × RowBuf)) : (s.setRbufs v).irq = s.irq := rfl
@[simp] theorem State.setRbufs_pipes (v : List (Nat × RowBuf)) : (s.setRbufs v).pipes = s.pipes := rfl
@[simp] theorem State.setRbufs_streams (v : List (Nat × RowBuf)) : (s.setRbufs v).streams = s.streams := rfl
@[simp] theorem State.setRbufs_ep (v : List (Nat × RowBuf)) : (s.setRbufs v).ep = s.ep := rfl
@[simp] theorem State.setRbufs_eth (v : List (Nat × RowBuf)) : (s.setRbufs v).eth = s.eth := rfl
@[simp] theorem State.setRbufs_denyArmed (v : List (Nat × RowBuf)) : (s.setRbufs v).denyArmed = s.denyArmed := rfl
@[simp] theorem State.setRbufs_resp (v : List (Nat × RowBuf)) : (s.setRbufs v).resp = s.resp := rfl
@[simp] theorem State.setRbufs_free (v : List (Nat × RowBuf)) : (s.setRbufs v).free = s.free := rfl
@[simp] theorem State.setRbufs_out (v : List (Nat × RowBuf)) : (s.setRbufs v).out = s.out := rfl
@[simp] theorem State.setRbufs_hbm (v : List (Nat × RowBuf)) : (s.setRbufs v).hbm = s.hbm := rfl
@[simp] theorem State.setRbufs_carry (v : List (Nat × RowBuf)) : (s.setRbufs v).carry = s.carry := rfl
@[simp] theorem State.setRbufs_tiles (v : List (Nat × RowBuf)) : (s.setRbufs v).tiles = s.tiles := rfl
@[simp] theorem State.setRbufs_edges (v : List (Nat × RowBuf)) : (s.setRbufs v).edges = s.edges := rfl
@[simp] theorem State.setRbufs_gws (v : List (Nat × RowBuf)) : (s.setRbufs v).gws = s.gws := rfl
@[simp] theorem State.setRbufs_spine (v : List (Nat × RowBuf)) : (s.setRbufs v).spine = s.spine := rfl
@[simp] theorem State.setRbufs_spineBad (v : List (Nat × RowBuf)) : (s.setRbufs v).spineBad = s.spineBad := rfl
@[simp] theorem State.setRbufs_seqs (v : List (Nat × RowBuf)) : (s.setRbufs v).seqs = s.seqs := rfl
@[simp] theorem State.setRbufs_cores (v : List (Nat × RowBuf)) : (s.setRbufs v).cores = s.cores := rfl
@[simp] theorem State.setRbufs_threads (v : List (Nat × RowBuf)) : (s.setRbufs v).threads = s.threads := rfl
@[simp] theorem State.setRbufs_vtCopy (v : List (Nat × RowBuf)) : (s.setRbufs v).vtCopy = s.vtCopy := rfl
@[simp] theorem State.setRbufs_sync (v : List (Nat × RowBuf)) : (s.setRbufs v).sync = s.sync := rfl
@[simp] theorem State.setRbufs_sol (v : List (Nat × RowBuf)) : (s.setRbufs v).sol = s.sol := rfl
@[simp] theorem State.setRbufs_qsk (v : List (Nat × RowBuf)) : (s.setRbufs v).qsk = s.qsk := rfl
@[simp] theorem State.setRbufs_wires (v : List (Nat × RowBuf)) : (s.setRbufs v).wires = s.wires := rfl
@[simp] theorem State.setRbufs_flits (v : List (Nat × RowBuf)) : (s.setRbufs v).flits = s.flits := rfl
@[simp] theorem State.setRbufs_rbufs (v : List (Nat × RowBuf)) : (s.setRbufs v).rbufs = v := rfl
@[simp] theorem State.setRbufs_fstr (v : List (Nat × RowBuf)) : (s.setRbufs v).fstr = s.fstr := rfl
@[simp] theorem State.setRbufs_codec (v : List (Nat × RowBuf)) : (s.setRbufs v).codec = s.codec := rfl
@[simp] theorem State.setRbufs_reqs (v : List (Nat × RowBuf)) : (s.setRbufs v).reqs = s.reqs := rfl
@[simp] theorem State.setRbufs_nextReq (v : List (Nat × RowBuf)) : (s.setRbufs v).nextReq = s.nextReq := rfl
@[simp] theorem State.setRbufs_held (v : List (Nat × RowBuf)) : (s.setRbufs v).held = s.held := rfl
@[simp] theorem State.setRbufs_load (v : List (Nat × RowBuf)) : (s.setRbufs v).load = s.load := rfl
@[simp] theorem State.setRbufs_unitGw (v : List (Nat × RowBuf)) : (s.setRbufs v).unitGw = s.unitGw := rfl
@[simp] theorem State.setRbufs_otp (v : List (Nat × RowBuf)) : (s.setRbufs v).otp = s.otp := rfl
@[simp] theorem State.setRbufs_bgw (v : List (Nat × RowBuf)) : (s.setRbufs v).bgw = s.bgw := rfl
@[simp] theorem State.setRbufs_isl (v : List (Nat × RowBuf)) : (s.setRbufs v).isl = s.isl := rfl
@[simp] theorem State.setRbufs_learn (v : List (Nat × RowBuf)) : (s.setRbufs v).learn = s.learn := rfl
@[simp] theorem State.setRbufs_stw (v : List (Nat × RowBuf)) : (s.setRbufs v).stw = s.stw := rfl
@[simp] theorem State.setRbufs_ev (v : List (Nat × RowBuf)) : (s.setRbufs v).ev = s.ev := rfl
@[simp] theorem State.setFstr_pending (v : List (Nat × FStream)) : (s.setFstr v).pending = s.pending := rfl
@[simp] theorem State.setFstr_regs (v : List (Nat × FStream)) : (s.setFstr v).regs = s.regs := rfl
@[simp] theorem State.setFstr_mem (v : List (Nat × FStream)) : (s.setFstr v).mem = s.mem := rfl
@[simp] theorem State.setFstr_ecc (v : List (Nat × FStream)) : (s.setFstr v).ecc = s.ecc := rfl
@[simp] theorem State.setFstr_alm (v : List (Nat × FStream)) : (s.setFstr v).alm = s.alm := rfl
@[simp] theorem State.setFstr_bm (v : List (Nat × FStream)) : (s.setFstr v).bm = s.bm := rfl
@[simp] theorem State.setFstr_flt (v : List (Nat × FStream)) : (s.setFstr v).flt = s.flt := rfl
@[simp] theorem State.setFstr_pwr (v : List (Nat × FStream)) : (s.setFstr v).pwr = s.pwr := rfl
@[simp] theorem State.setFstr_irq (v : List (Nat × FStream)) : (s.setFstr v).irq = s.irq := rfl
@[simp] theorem State.setFstr_pipes (v : List (Nat × FStream)) : (s.setFstr v).pipes = s.pipes := rfl
@[simp] theorem State.setFstr_streams (v : List (Nat × FStream)) : (s.setFstr v).streams = s.streams := rfl
@[simp] theorem State.setFstr_ep (v : List (Nat × FStream)) : (s.setFstr v).ep = s.ep := rfl
@[simp] theorem State.setFstr_eth (v : List (Nat × FStream)) : (s.setFstr v).eth = s.eth := rfl
@[simp] theorem State.setFstr_denyArmed (v : List (Nat × FStream)) : (s.setFstr v).denyArmed = s.denyArmed := rfl
@[simp] theorem State.setFstr_resp (v : List (Nat × FStream)) : (s.setFstr v).resp = s.resp := rfl
@[simp] theorem State.setFstr_free (v : List (Nat × FStream)) : (s.setFstr v).free = s.free := rfl
@[simp] theorem State.setFstr_out (v : List (Nat × FStream)) : (s.setFstr v).out = s.out := rfl
@[simp] theorem State.setFstr_hbm (v : List (Nat × FStream)) : (s.setFstr v).hbm = s.hbm := rfl
@[simp] theorem State.setFstr_carry (v : List (Nat × FStream)) : (s.setFstr v).carry = s.carry := rfl
@[simp] theorem State.setFstr_tiles (v : List (Nat × FStream)) : (s.setFstr v).tiles = s.tiles := rfl
@[simp] theorem State.setFstr_edges (v : List (Nat × FStream)) : (s.setFstr v).edges = s.edges := rfl
@[simp] theorem State.setFstr_gws (v : List (Nat × FStream)) : (s.setFstr v).gws = s.gws := rfl
@[simp] theorem State.setFstr_spine (v : List (Nat × FStream)) : (s.setFstr v).spine = s.spine := rfl
@[simp] theorem State.setFstr_spineBad (v : List (Nat × FStream)) : (s.setFstr v).spineBad = s.spineBad := rfl
@[simp] theorem State.setFstr_seqs (v : List (Nat × FStream)) : (s.setFstr v).seqs = s.seqs := rfl
@[simp] theorem State.setFstr_cores (v : List (Nat × FStream)) : (s.setFstr v).cores = s.cores := rfl
@[simp] theorem State.setFstr_threads (v : List (Nat × FStream)) : (s.setFstr v).threads = s.threads := rfl
@[simp] theorem State.setFstr_vtCopy (v : List (Nat × FStream)) : (s.setFstr v).vtCopy = s.vtCopy := rfl
@[simp] theorem State.setFstr_sync (v : List (Nat × FStream)) : (s.setFstr v).sync = s.sync := rfl
@[simp] theorem State.setFstr_sol (v : List (Nat × FStream)) : (s.setFstr v).sol = s.sol := rfl
@[simp] theorem State.setFstr_qsk (v : List (Nat × FStream)) : (s.setFstr v).qsk = s.qsk := rfl
@[simp] theorem State.setFstr_wires (v : List (Nat × FStream)) : (s.setFstr v).wires = s.wires := rfl
@[simp] theorem State.setFstr_flits (v : List (Nat × FStream)) : (s.setFstr v).flits = s.flits := rfl
@[simp] theorem State.setFstr_rbufs (v : List (Nat × FStream)) : (s.setFstr v).rbufs = s.rbufs := rfl
@[simp] theorem State.setFstr_fstr (v : List (Nat × FStream)) : (s.setFstr v).fstr = v := rfl
@[simp] theorem State.setFstr_codec (v : List (Nat × FStream)) : (s.setFstr v).codec = s.codec := rfl
@[simp] theorem State.setFstr_reqs (v : List (Nat × FStream)) : (s.setFstr v).reqs = s.reqs := rfl
@[simp] theorem State.setFstr_nextReq (v : List (Nat × FStream)) : (s.setFstr v).nextReq = s.nextReq := rfl
@[simp] theorem State.setFstr_held (v : List (Nat × FStream)) : (s.setFstr v).held = s.held := rfl
@[simp] theorem State.setFstr_load (v : List (Nat × FStream)) : (s.setFstr v).load = s.load := rfl
@[simp] theorem State.setFstr_unitGw (v : List (Nat × FStream)) : (s.setFstr v).unitGw = s.unitGw := rfl
@[simp] theorem State.setFstr_otp (v : List (Nat × FStream)) : (s.setFstr v).otp = s.otp := rfl
@[simp] theorem State.setFstr_bgw (v : List (Nat × FStream)) : (s.setFstr v).bgw = s.bgw := rfl
@[simp] theorem State.setFstr_isl (v : List (Nat × FStream)) : (s.setFstr v).isl = s.isl := rfl
@[simp] theorem State.setFstr_learn (v : List (Nat × FStream)) : (s.setFstr v).learn = s.learn := rfl
@[simp] theorem State.setFstr_stw (v : List (Nat × FStream)) : (s.setFstr v).stw = s.stw := rfl
@[simp] theorem State.setFstr_ev (v : List (Nat × FStream)) : (s.setFstr v).ev = s.ev := rfl
@[simp] theorem State.setCodec_pending (v : List (Nat × List QWord)) : (s.setCodec v).pending = s.pending := rfl
@[simp] theorem State.setCodec_regs (v : List (Nat × List QWord)) : (s.setCodec v).regs = s.regs := rfl
@[simp] theorem State.setCodec_mem (v : List (Nat × List QWord)) : (s.setCodec v).mem = s.mem := rfl
@[simp] theorem State.setCodec_ecc (v : List (Nat × List QWord)) : (s.setCodec v).ecc = s.ecc := rfl
@[simp] theorem State.setCodec_alm (v : List (Nat × List QWord)) : (s.setCodec v).alm = s.alm := rfl
@[simp] theorem State.setCodec_bm (v : List (Nat × List QWord)) : (s.setCodec v).bm = s.bm := rfl
@[simp] theorem State.setCodec_flt (v : List (Nat × List QWord)) : (s.setCodec v).flt = s.flt := rfl
@[simp] theorem State.setCodec_pwr (v : List (Nat × List QWord)) : (s.setCodec v).pwr = s.pwr := rfl
@[simp] theorem State.setCodec_irq (v : List (Nat × List QWord)) : (s.setCodec v).irq = s.irq := rfl
@[simp] theorem State.setCodec_pipes (v : List (Nat × List QWord)) : (s.setCodec v).pipes = s.pipes := rfl
@[simp] theorem State.setCodec_streams (v : List (Nat × List QWord)) : (s.setCodec v).streams = s.streams := rfl
@[simp] theorem State.setCodec_ep (v : List (Nat × List QWord)) : (s.setCodec v).ep = s.ep := rfl
@[simp] theorem State.setCodec_eth (v : List (Nat × List QWord)) : (s.setCodec v).eth = s.eth := rfl
@[simp] theorem State.setCodec_denyArmed (v : List (Nat × List QWord)) : (s.setCodec v).denyArmed = s.denyArmed := rfl
@[simp] theorem State.setCodec_resp (v : List (Nat × List QWord)) : (s.setCodec v).resp = s.resp := rfl
@[simp] theorem State.setCodec_free (v : List (Nat × List QWord)) : (s.setCodec v).free = s.free := rfl
@[simp] theorem State.setCodec_out (v : List (Nat × List QWord)) : (s.setCodec v).out = s.out := rfl
@[simp] theorem State.setCodec_hbm (v : List (Nat × List QWord)) : (s.setCodec v).hbm = s.hbm := rfl
@[simp] theorem State.setCodec_carry (v : List (Nat × List QWord)) : (s.setCodec v).carry = s.carry := rfl
@[simp] theorem State.setCodec_tiles (v : List (Nat × List QWord)) : (s.setCodec v).tiles = s.tiles := rfl
@[simp] theorem State.setCodec_edges (v : List (Nat × List QWord)) : (s.setCodec v).edges = s.edges := rfl
@[simp] theorem State.setCodec_gws (v : List (Nat × List QWord)) : (s.setCodec v).gws = s.gws := rfl
@[simp] theorem State.setCodec_spine (v : List (Nat × List QWord)) : (s.setCodec v).spine = s.spine := rfl
@[simp] theorem State.setCodec_spineBad (v : List (Nat × List QWord)) : (s.setCodec v).spineBad = s.spineBad := rfl
@[simp] theorem State.setCodec_seqs (v : List (Nat × List QWord)) : (s.setCodec v).seqs = s.seqs := rfl
@[simp] theorem State.setCodec_cores (v : List (Nat × List QWord)) : (s.setCodec v).cores = s.cores := rfl
@[simp] theorem State.setCodec_threads (v : List (Nat × List QWord)) : (s.setCodec v).threads = s.threads := rfl
@[simp] theorem State.setCodec_vtCopy (v : List (Nat × List QWord)) : (s.setCodec v).vtCopy = s.vtCopy := rfl
@[simp] theorem State.setCodec_sync (v : List (Nat × List QWord)) : (s.setCodec v).sync = s.sync := rfl
@[simp] theorem State.setCodec_sol (v : List (Nat × List QWord)) : (s.setCodec v).sol = s.sol := rfl
@[simp] theorem State.setCodec_qsk (v : List (Nat × List QWord)) : (s.setCodec v).qsk = s.qsk := rfl
@[simp] theorem State.setCodec_wires (v : List (Nat × List QWord)) : (s.setCodec v).wires = s.wires := rfl
@[simp] theorem State.setCodec_flits (v : List (Nat × List QWord)) : (s.setCodec v).flits = s.flits := rfl
@[simp] theorem State.setCodec_rbufs (v : List (Nat × List QWord)) : (s.setCodec v).rbufs = s.rbufs := rfl
@[simp] theorem State.setCodec_fstr (v : List (Nat × List QWord)) : (s.setCodec v).fstr = s.fstr := rfl
@[simp] theorem State.setCodec_codec (v : List (Nat × List QWord)) : (s.setCodec v).codec = v := rfl
@[simp] theorem State.setCodec_reqs (v : List (Nat × List QWord)) : (s.setCodec v).reqs = s.reqs := rfl
@[simp] theorem State.setCodec_nextReq (v : List (Nat × List QWord)) : (s.setCodec v).nextReq = s.nextReq := rfl
@[simp] theorem State.setCodec_held (v : List (Nat × List QWord)) : (s.setCodec v).held = s.held := rfl
@[simp] theorem State.setCodec_load (v : List (Nat × List QWord)) : (s.setCodec v).load = s.load := rfl
@[simp] theorem State.setCodec_unitGw (v : List (Nat × List QWord)) : (s.setCodec v).unitGw = s.unitGw := rfl
@[simp] theorem State.setCodec_otp (v : List (Nat × List QWord)) : (s.setCodec v).otp = s.otp := rfl
@[simp] theorem State.setCodec_bgw (v : List (Nat × List QWord)) : (s.setCodec v).bgw = s.bgw := rfl
@[simp] theorem State.setCodec_isl (v : List (Nat × List QWord)) : (s.setCodec v).isl = s.isl := rfl
@[simp] theorem State.setCodec_learn (v : List (Nat × List QWord)) : (s.setCodec v).learn = s.learn := rfl
@[simp] theorem State.setCodec_stw (v : List (Nat × List QWord)) : (s.setCodec v).stw = s.stw := rfl
@[simp] theorem State.setCodec_ev (v : List (Nat × List QWord)) : (s.setCodec v).ev = s.ev := rfl
@[simp] theorem State.setReqs_pending (v : List (Nat × ReqSt)) : (s.setReqs v).pending = s.pending := rfl
@[simp] theorem State.setReqs_regs (v : List (Nat × ReqSt)) : (s.setReqs v).regs = s.regs := rfl
@[simp] theorem State.setReqs_mem (v : List (Nat × ReqSt)) : (s.setReqs v).mem = s.mem := rfl
@[simp] theorem State.setReqs_ecc (v : List (Nat × ReqSt)) : (s.setReqs v).ecc = s.ecc := rfl
@[simp] theorem State.setReqs_alm (v : List (Nat × ReqSt)) : (s.setReqs v).alm = s.alm := rfl
@[simp] theorem State.setReqs_bm (v : List (Nat × ReqSt)) : (s.setReqs v).bm = s.bm := rfl
@[simp] theorem State.setReqs_flt (v : List (Nat × ReqSt)) : (s.setReqs v).flt = s.flt := rfl
@[simp] theorem State.setReqs_pwr (v : List (Nat × ReqSt)) : (s.setReqs v).pwr = s.pwr := rfl
@[simp] theorem State.setReqs_irq (v : List (Nat × ReqSt)) : (s.setReqs v).irq = s.irq := rfl
@[simp] theorem State.setReqs_pipes (v : List (Nat × ReqSt)) : (s.setReqs v).pipes = s.pipes := rfl
@[simp] theorem State.setReqs_streams (v : List (Nat × ReqSt)) : (s.setReqs v).streams = s.streams := rfl
@[simp] theorem State.setReqs_ep (v : List (Nat × ReqSt)) : (s.setReqs v).ep = s.ep := rfl
@[simp] theorem State.setReqs_eth (v : List (Nat × ReqSt)) : (s.setReqs v).eth = s.eth := rfl
@[simp] theorem State.setReqs_denyArmed (v : List (Nat × ReqSt)) : (s.setReqs v).denyArmed = s.denyArmed := rfl
@[simp] theorem State.setReqs_resp (v : List (Nat × ReqSt)) : (s.setReqs v).resp = s.resp := rfl
@[simp] theorem State.setReqs_free (v : List (Nat × ReqSt)) : (s.setReqs v).free = s.free := rfl
@[simp] theorem State.setReqs_out (v : List (Nat × ReqSt)) : (s.setReqs v).out = s.out := rfl
@[simp] theorem State.setReqs_hbm (v : List (Nat × ReqSt)) : (s.setReqs v).hbm = s.hbm := rfl
@[simp] theorem State.setReqs_carry (v : List (Nat × ReqSt)) : (s.setReqs v).carry = s.carry := rfl
@[simp] theorem State.setReqs_tiles (v : List (Nat × ReqSt)) : (s.setReqs v).tiles = s.tiles := rfl
@[simp] theorem State.setReqs_edges (v : List (Nat × ReqSt)) : (s.setReqs v).edges = s.edges := rfl
@[simp] theorem State.setReqs_gws (v : List (Nat × ReqSt)) : (s.setReqs v).gws = s.gws := rfl
@[simp] theorem State.setReqs_spine (v : List (Nat × ReqSt)) : (s.setReqs v).spine = s.spine := rfl
@[simp] theorem State.setReqs_spineBad (v : List (Nat × ReqSt)) : (s.setReqs v).spineBad = s.spineBad := rfl
@[simp] theorem State.setReqs_seqs (v : List (Nat × ReqSt)) : (s.setReqs v).seqs = s.seqs := rfl
@[simp] theorem State.setReqs_cores (v : List (Nat × ReqSt)) : (s.setReqs v).cores = s.cores := rfl
@[simp] theorem State.setReqs_threads (v : List (Nat × ReqSt)) : (s.setReqs v).threads = s.threads := rfl
@[simp] theorem State.setReqs_vtCopy (v : List (Nat × ReqSt)) : (s.setReqs v).vtCopy = s.vtCopy := rfl
@[simp] theorem State.setReqs_sync (v : List (Nat × ReqSt)) : (s.setReqs v).sync = s.sync := rfl
@[simp] theorem State.setReqs_sol (v : List (Nat × ReqSt)) : (s.setReqs v).sol = s.sol := rfl
@[simp] theorem State.setReqs_qsk (v : List (Nat × ReqSt)) : (s.setReqs v).qsk = s.qsk := rfl
@[simp] theorem State.setReqs_wires (v : List (Nat × ReqSt)) : (s.setReqs v).wires = s.wires := rfl
@[simp] theorem State.setReqs_flits (v : List (Nat × ReqSt)) : (s.setReqs v).flits = s.flits := rfl
@[simp] theorem State.setReqs_rbufs (v : List (Nat × ReqSt)) : (s.setReqs v).rbufs = s.rbufs := rfl
@[simp] theorem State.setReqs_fstr (v : List (Nat × ReqSt)) : (s.setReqs v).fstr = s.fstr := rfl
@[simp] theorem State.setReqs_codec (v : List (Nat × ReqSt)) : (s.setReqs v).codec = s.codec := rfl
@[simp] theorem State.setReqs_reqs (v : List (Nat × ReqSt)) : (s.setReqs v).reqs = v := rfl
@[simp] theorem State.setReqs_nextReq (v : List (Nat × ReqSt)) : (s.setReqs v).nextReq = s.nextReq := rfl
@[simp] theorem State.setReqs_held (v : List (Nat × ReqSt)) : (s.setReqs v).held = s.held := rfl
@[simp] theorem State.setReqs_load (v : List (Nat × ReqSt)) : (s.setReqs v).load = s.load := rfl
@[simp] theorem State.setReqs_unitGw (v : List (Nat × ReqSt)) : (s.setReqs v).unitGw = s.unitGw := rfl
@[simp] theorem State.setReqs_otp (v : List (Nat × ReqSt)) : (s.setReqs v).otp = s.otp := rfl
@[simp] theorem State.setReqs_bgw (v : List (Nat × ReqSt)) : (s.setReqs v).bgw = s.bgw := rfl
@[simp] theorem State.setReqs_isl (v : List (Nat × ReqSt)) : (s.setReqs v).isl = s.isl := rfl
@[simp] theorem State.setReqs_learn (v : List (Nat × ReqSt)) : (s.setReqs v).learn = s.learn := rfl
@[simp] theorem State.setReqs_stw (v : List (Nat × ReqSt)) : (s.setReqs v).stw = s.stw := rfl
@[simp] theorem State.setReqs_ev (v : List (Nat × ReqSt)) : (s.setReqs v).ev = s.ev := rfl
@[simp] theorem State.setNextReq_pending (v : Nat) : (s.setNextReq v).pending = s.pending := rfl
@[simp] theorem State.setNextReq_regs (v : Nat) : (s.setNextReq v).regs = s.regs := rfl
@[simp] theorem State.setNextReq_mem (v : Nat) : (s.setNextReq v).mem = s.mem := rfl
@[simp] theorem State.setNextReq_ecc (v : Nat) : (s.setNextReq v).ecc = s.ecc := rfl
@[simp] theorem State.setNextReq_alm (v : Nat) : (s.setNextReq v).alm = s.alm := rfl
@[simp] theorem State.setNextReq_bm (v : Nat) : (s.setNextReq v).bm = s.bm := rfl
@[simp] theorem State.setNextReq_flt (v : Nat) : (s.setNextReq v).flt = s.flt := rfl
@[simp] theorem State.setNextReq_pwr (v : Nat) : (s.setNextReq v).pwr = s.pwr := rfl
@[simp] theorem State.setNextReq_irq (v : Nat) : (s.setNextReq v).irq = s.irq := rfl
@[simp] theorem State.setNextReq_pipes (v : Nat) : (s.setNextReq v).pipes = s.pipes := rfl
@[simp] theorem State.setNextReq_streams (v : Nat) : (s.setNextReq v).streams = s.streams := rfl
@[simp] theorem State.setNextReq_ep (v : Nat) : (s.setNextReq v).ep = s.ep := rfl
@[simp] theorem State.setNextReq_eth (v : Nat) : (s.setNextReq v).eth = s.eth := rfl
@[simp] theorem State.setNextReq_denyArmed (v : Nat) : (s.setNextReq v).denyArmed = s.denyArmed := rfl
@[simp] theorem State.setNextReq_resp (v : Nat) : (s.setNextReq v).resp = s.resp := rfl
@[simp] theorem State.setNextReq_free (v : Nat) : (s.setNextReq v).free = s.free := rfl
@[simp] theorem State.setNextReq_out (v : Nat) : (s.setNextReq v).out = s.out := rfl
@[simp] theorem State.setNextReq_hbm (v : Nat) : (s.setNextReq v).hbm = s.hbm := rfl
@[simp] theorem State.setNextReq_carry (v : Nat) : (s.setNextReq v).carry = s.carry := rfl
@[simp] theorem State.setNextReq_tiles (v : Nat) : (s.setNextReq v).tiles = s.tiles := rfl
@[simp] theorem State.setNextReq_edges (v : Nat) : (s.setNextReq v).edges = s.edges := rfl
@[simp] theorem State.setNextReq_gws (v : Nat) : (s.setNextReq v).gws = s.gws := rfl
@[simp] theorem State.setNextReq_spine (v : Nat) : (s.setNextReq v).spine = s.spine := rfl
@[simp] theorem State.setNextReq_spineBad (v : Nat) : (s.setNextReq v).spineBad = s.spineBad := rfl
@[simp] theorem State.setNextReq_seqs (v : Nat) : (s.setNextReq v).seqs = s.seqs := rfl
@[simp] theorem State.setNextReq_cores (v : Nat) : (s.setNextReq v).cores = s.cores := rfl
@[simp] theorem State.setNextReq_threads (v : Nat) : (s.setNextReq v).threads = s.threads := rfl
@[simp] theorem State.setNextReq_vtCopy (v : Nat) : (s.setNextReq v).vtCopy = s.vtCopy := rfl
@[simp] theorem State.setNextReq_sync (v : Nat) : (s.setNextReq v).sync = s.sync := rfl
@[simp] theorem State.setNextReq_sol (v : Nat) : (s.setNextReq v).sol = s.sol := rfl
@[simp] theorem State.setNextReq_qsk (v : Nat) : (s.setNextReq v).qsk = s.qsk := rfl
@[simp] theorem State.setNextReq_wires (v : Nat) : (s.setNextReq v).wires = s.wires := rfl
@[simp] theorem State.setNextReq_flits (v : Nat) : (s.setNextReq v).flits = s.flits := rfl
@[simp] theorem State.setNextReq_rbufs (v : Nat) : (s.setNextReq v).rbufs = s.rbufs := rfl
@[simp] theorem State.setNextReq_fstr (v : Nat) : (s.setNextReq v).fstr = s.fstr := rfl
@[simp] theorem State.setNextReq_codec (v : Nat) : (s.setNextReq v).codec = s.codec := rfl
@[simp] theorem State.setNextReq_reqs (v : Nat) : (s.setNextReq v).reqs = s.reqs := rfl
@[simp] theorem State.setNextReq_nextReq (v : Nat) : (s.setNextReq v).nextReq = v := rfl
@[simp] theorem State.setNextReq_held (v : Nat) : (s.setNextReq v).held = s.held := rfl
@[simp] theorem State.setNextReq_load (v : Nat) : (s.setNextReq v).load = s.load := rfl
@[simp] theorem State.setNextReq_unitGw (v : Nat) : (s.setNextReq v).unitGw = s.unitGw := rfl
@[simp] theorem State.setNextReq_otp (v : Nat) : (s.setNextReq v).otp = s.otp := rfl
@[simp] theorem State.setNextReq_bgw (v : Nat) : (s.setNextReq v).bgw = s.bgw := rfl
@[simp] theorem State.setNextReq_isl (v : Nat) : (s.setNextReq v).isl = s.isl := rfl
@[simp] theorem State.setNextReq_learn (v : Nat) : (s.setNextReq v).learn = s.learn := rfl
@[simp] theorem State.setNextReq_stw (v : Nat) : (s.setNextReq v).stw = s.stw := rfl
@[simp] theorem State.setNextReq_ev (v : Nat) : (s.setNextReq v).ev = s.ev := rfl
@[simp] theorem State.setHeld_pending (v : List HeldPart) : (s.setHeld v).pending = s.pending := rfl
@[simp] theorem State.setHeld_regs (v : List HeldPart) : (s.setHeld v).regs = s.regs := rfl
@[simp] theorem State.setHeld_mem (v : List HeldPart) : (s.setHeld v).mem = s.mem := rfl
@[simp] theorem State.setHeld_ecc (v : List HeldPart) : (s.setHeld v).ecc = s.ecc := rfl
@[simp] theorem State.setHeld_alm (v : List HeldPart) : (s.setHeld v).alm = s.alm := rfl
@[simp] theorem State.setHeld_bm (v : List HeldPart) : (s.setHeld v).bm = s.bm := rfl
@[simp] theorem State.setHeld_flt (v : List HeldPart) : (s.setHeld v).flt = s.flt := rfl
@[simp] theorem State.setHeld_pwr (v : List HeldPart) : (s.setHeld v).pwr = s.pwr := rfl
@[simp] theorem State.setHeld_irq (v : List HeldPart) : (s.setHeld v).irq = s.irq := rfl
@[simp] theorem State.setHeld_pipes (v : List HeldPart) : (s.setHeld v).pipes = s.pipes := rfl
@[simp] theorem State.setHeld_streams (v : List HeldPart) : (s.setHeld v).streams = s.streams := rfl
@[simp] theorem State.setHeld_ep (v : List HeldPart) : (s.setHeld v).ep = s.ep := rfl
@[simp] theorem State.setHeld_eth (v : List HeldPart) : (s.setHeld v).eth = s.eth := rfl
@[simp] theorem State.setHeld_denyArmed (v : List HeldPart) : (s.setHeld v).denyArmed = s.denyArmed := rfl
@[simp] theorem State.setHeld_resp (v : List HeldPart) : (s.setHeld v).resp = s.resp := rfl
@[simp] theorem State.setHeld_free (v : List HeldPart) : (s.setHeld v).free = s.free := rfl
@[simp] theorem State.setHeld_out (v : List HeldPart) : (s.setHeld v).out = s.out := rfl
@[simp] theorem State.setHeld_hbm (v : List HeldPart) : (s.setHeld v).hbm = s.hbm := rfl
@[simp] theorem State.setHeld_carry (v : List HeldPart) : (s.setHeld v).carry = s.carry := rfl
@[simp] theorem State.setHeld_tiles (v : List HeldPart) : (s.setHeld v).tiles = s.tiles := rfl
@[simp] theorem State.setHeld_edges (v : List HeldPart) : (s.setHeld v).edges = s.edges := rfl
@[simp] theorem State.setHeld_gws (v : List HeldPart) : (s.setHeld v).gws = s.gws := rfl
@[simp] theorem State.setHeld_spine (v : List HeldPart) : (s.setHeld v).spine = s.spine := rfl
@[simp] theorem State.setHeld_spineBad (v : List HeldPart) : (s.setHeld v).spineBad = s.spineBad := rfl
@[simp] theorem State.setHeld_seqs (v : List HeldPart) : (s.setHeld v).seqs = s.seqs := rfl
@[simp] theorem State.setHeld_cores (v : List HeldPart) : (s.setHeld v).cores = s.cores := rfl
@[simp] theorem State.setHeld_threads (v : List HeldPart) : (s.setHeld v).threads = s.threads := rfl
@[simp] theorem State.setHeld_vtCopy (v : List HeldPart) : (s.setHeld v).vtCopy = s.vtCopy := rfl
@[simp] theorem State.setHeld_sync (v : List HeldPart) : (s.setHeld v).sync = s.sync := rfl
@[simp] theorem State.setHeld_sol (v : List HeldPart) : (s.setHeld v).sol = s.sol := rfl
@[simp] theorem State.setHeld_qsk (v : List HeldPart) : (s.setHeld v).qsk = s.qsk := rfl
@[simp] theorem State.setHeld_wires (v : List HeldPart) : (s.setHeld v).wires = s.wires := rfl
@[simp] theorem State.setHeld_flits (v : List HeldPart) : (s.setHeld v).flits = s.flits := rfl
@[simp] theorem State.setHeld_rbufs (v : List HeldPart) : (s.setHeld v).rbufs = s.rbufs := rfl
@[simp] theorem State.setHeld_fstr (v : List HeldPart) : (s.setHeld v).fstr = s.fstr := rfl
@[simp] theorem State.setHeld_codec (v : List HeldPart) : (s.setHeld v).codec = s.codec := rfl
@[simp] theorem State.setHeld_reqs (v : List HeldPart) : (s.setHeld v).reqs = s.reqs := rfl
@[simp] theorem State.setHeld_nextReq (v : List HeldPart) : (s.setHeld v).nextReq = s.nextReq := rfl
@[simp] theorem State.setHeld_held (v : List HeldPart) : (s.setHeld v).held = v := rfl
@[simp] theorem State.setHeld_load (v : List HeldPart) : (s.setHeld v).load = s.load := rfl
@[simp] theorem State.setHeld_unitGw (v : List HeldPart) : (s.setHeld v).unitGw = s.unitGw := rfl
@[simp] theorem State.setHeld_otp (v : List HeldPart) : (s.setHeld v).otp = s.otp := rfl
@[simp] theorem State.setHeld_bgw (v : List HeldPart) : (s.setHeld v).bgw = s.bgw := rfl
@[simp] theorem State.setHeld_isl (v : List HeldPart) : (s.setHeld v).isl = s.isl := rfl
@[simp] theorem State.setHeld_learn (v : List HeldPart) : (s.setHeld v).learn = s.learn := rfl
@[simp] theorem State.setHeld_stw (v : List HeldPart) : (s.setHeld v).stw = s.stw := rfl
@[simp] theorem State.setHeld_ev (v : List HeldPart) : (s.setHeld v).ev = s.ev := rfl
@[simp] theorem State.setLoad_pending (v : Option LoadJob) : (s.setLoad v).pending = s.pending := rfl
@[simp] theorem State.setLoad_regs (v : Option LoadJob) : (s.setLoad v).regs = s.regs := rfl
@[simp] theorem State.setLoad_mem (v : Option LoadJob) : (s.setLoad v).mem = s.mem := rfl
@[simp] theorem State.setLoad_ecc (v : Option LoadJob) : (s.setLoad v).ecc = s.ecc := rfl
@[simp] theorem State.setLoad_alm (v : Option LoadJob) : (s.setLoad v).alm = s.alm := rfl
@[simp] theorem State.setLoad_bm (v : Option LoadJob) : (s.setLoad v).bm = s.bm := rfl
@[simp] theorem State.setLoad_flt (v : Option LoadJob) : (s.setLoad v).flt = s.flt := rfl
@[simp] theorem State.setLoad_pwr (v : Option LoadJob) : (s.setLoad v).pwr = s.pwr := rfl
@[simp] theorem State.setLoad_irq (v : Option LoadJob) : (s.setLoad v).irq = s.irq := rfl
@[simp] theorem State.setLoad_pipes (v : Option LoadJob) : (s.setLoad v).pipes = s.pipes := rfl
@[simp] theorem State.setLoad_streams (v : Option LoadJob) : (s.setLoad v).streams = s.streams := rfl
@[simp] theorem State.setLoad_ep (v : Option LoadJob) : (s.setLoad v).ep = s.ep := rfl
@[simp] theorem State.setLoad_eth (v : Option LoadJob) : (s.setLoad v).eth = s.eth := rfl
@[simp] theorem State.setLoad_denyArmed (v : Option LoadJob) : (s.setLoad v).denyArmed = s.denyArmed := rfl
@[simp] theorem State.setLoad_resp (v : Option LoadJob) : (s.setLoad v).resp = s.resp := rfl
@[simp] theorem State.setLoad_free (v : Option LoadJob) : (s.setLoad v).free = s.free := rfl
@[simp] theorem State.setLoad_out (v : Option LoadJob) : (s.setLoad v).out = s.out := rfl
@[simp] theorem State.setLoad_hbm (v : Option LoadJob) : (s.setLoad v).hbm = s.hbm := rfl
@[simp] theorem State.setLoad_carry (v : Option LoadJob) : (s.setLoad v).carry = s.carry := rfl
@[simp] theorem State.setLoad_tiles (v : Option LoadJob) : (s.setLoad v).tiles = s.tiles := rfl
@[simp] theorem State.setLoad_edges (v : Option LoadJob) : (s.setLoad v).edges = s.edges := rfl
@[simp] theorem State.setLoad_gws (v : Option LoadJob) : (s.setLoad v).gws = s.gws := rfl
@[simp] theorem State.setLoad_spine (v : Option LoadJob) : (s.setLoad v).spine = s.spine := rfl
@[simp] theorem State.setLoad_spineBad (v : Option LoadJob) : (s.setLoad v).spineBad = s.spineBad := rfl
@[simp] theorem State.setLoad_seqs (v : Option LoadJob) : (s.setLoad v).seqs = s.seqs := rfl
@[simp] theorem State.setLoad_cores (v : Option LoadJob) : (s.setLoad v).cores = s.cores := rfl
@[simp] theorem State.setLoad_threads (v : Option LoadJob) : (s.setLoad v).threads = s.threads := rfl
@[simp] theorem State.setLoad_vtCopy (v : Option LoadJob) : (s.setLoad v).vtCopy = s.vtCopy := rfl
@[simp] theorem State.setLoad_sync (v : Option LoadJob) : (s.setLoad v).sync = s.sync := rfl
@[simp] theorem State.setLoad_sol (v : Option LoadJob) : (s.setLoad v).sol = s.sol := rfl
@[simp] theorem State.setLoad_qsk (v : Option LoadJob) : (s.setLoad v).qsk = s.qsk := rfl
@[simp] theorem State.setLoad_wires (v : Option LoadJob) : (s.setLoad v).wires = s.wires := rfl
@[simp] theorem State.setLoad_flits (v : Option LoadJob) : (s.setLoad v).flits = s.flits := rfl
@[simp] theorem State.setLoad_rbufs (v : Option LoadJob) : (s.setLoad v).rbufs = s.rbufs := rfl
@[simp] theorem State.setLoad_fstr (v : Option LoadJob) : (s.setLoad v).fstr = s.fstr := rfl
@[simp] theorem State.setLoad_codec (v : Option LoadJob) : (s.setLoad v).codec = s.codec := rfl
@[simp] theorem State.setLoad_reqs (v : Option LoadJob) : (s.setLoad v).reqs = s.reqs := rfl
@[simp] theorem State.setLoad_nextReq (v : Option LoadJob) : (s.setLoad v).nextReq = s.nextReq := rfl
@[simp] theorem State.setLoad_held (v : Option LoadJob) : (s.setLoad v).held = s.held := rfl
@[simp] theorem State.setLoad_load (v : Option LoadJob) : (s.setLoad v).load = v := rfl
@[simp] theorem State.setLoad_unitGw (v : Option LoadJob) : (s.setLoad v).unitGw = s.unitGw := rfl
@[simp] theorem State.setLoad_otp (v : Option LoadJob) : (s.setLoad v).otp = s.otp := rfl
@[simp] theorem State.setLoad_bgw (v : Option LoadJob) : (s.setLoad v).bgw = s.bgw := rfl
@[simp] theorem State.setLoad_isl (v : Option LoadJob) : (s.setLoad v).isl = s.isl := rfl
@[simp] theorem State.setLoad_learn (v : Option LoadJob) : (s.setLoad v).learn = s.learn := rfl
@[simp] theorem State.setLoad_stw (v : Option LoadJob) : (s.setLoad v).stw = s.stw := rfl
@[simp] theorem State.setLoad_ev (v : Option LoadJob) : (s.setLoad v).ev = s.ev := rfl
@[simp] theorem State.setUnitGw_pending (v : List (Nat × W64)) : (s.setUnitGw v).pending = s.pending := rfl
@[simp] theorem State.setUnitGw_regs (v : List (Nat × W64)) : (s.setUnitGw v).regs = s.regs := rfl
@[simp] theorem State.setUnitGw_mem (v : List (Nat × W64)) : (s.setUnitGw v).mem = s.mem := rfl
@[simp] theorem State.setUnitGw_ecc (v : List (Nat × W64)) : (s.setUnitGw v).ecc = s.ecc := rfl
@[simp] theorem State.setUnitGw_alm (v : List (Nat × W64)) : (s.setUnitGw v).alm = s.alm := rfl
@[simp] theorem State.setUnitGw_bm (v : List (Nat × W64)) : (s.setUnitGw v).bm = s.bm := rfl
@[simp] theorem State.setUnitGw_flt (v : List (Nat × W64)) : (s.setUnitGw v).flt = s.flt := rfl
@[simp] theorem State.setUnitGw_pwr (v : List (Nat × W64)) : (s.setUnitGw v).pwr = s.pwr := rfl
@[simp] theorem State.setUnitGw_irq (v : List (Nat × W64)) : (s.setUnitGw v).irq = s.irq := rfl
@[simp] theorem State.setUnitGw_pipes (v : List (Nat × W64)) : (s.setUnitGw v).pipes = s.pipes := rfl
@[simp] theorem State.setUnitGw_streams (v : List (Nat × W64)) : (s.setUnitGw v).streams = s.streams := rfl
@[simp] theorem State.setUnitGw_ep (v : List (Nat × W64)) : (s.setUnitGw v).ep = s.ep := rfl
@[simp] theorem State.setUnitGw_eth (v : List (Nat × W64)) : (s.setUnitGw v).eth = s.eth := rfl
@[simp] theorem State.setUnitGw_denyArmed (v : List (Nat × W64)) : (s.setUnitGw v).denyArmed = s.denyArmed := rfl
@[simp] theorem State.setUnitGw_resp (v : List (Nat × W64)) : (s.setUnitGw v).resp = s.resp := rfl
@[simp] theorem State.setUnitGw_free (v : List (Nat × W64)) : (s.setUnitGw v).free = s.free := rfl
@[simp] theorem State.setUnitGw_out (v : List (Nat × W64)) : (s.setUnitGw v).out = s.out := rfl
@[simp] theorem State.setUnitGw_hbm (v : List (Nat × W64)) : (s.setUnitGw v).hbm = s.hbm := rfl
@[simp] theorem State.setUnitGw_carry (v : List (Nat × W64)) : (s.setUnitGw v).carry = s.carry := rfl
@[simp] theorem State.setUnitGw_tiles (v : List (Nat × W64)) : (s.setUnitGw v).tiles = s.tiles := rfl
@[simp] theorem State.setUnitGw_edges (v : List (Nat × W64)) : (s.setUnitGw v).edges = s.edges := rfl
@[simp] theorem State.setUnitGw_gws (v : List (Nat × W64)) : (s.setUnitGw v).gws = s.gws := rfl
@[simp] theorem State.setUnitGw_spine (v : List (Nat × W64)) : (s.setUnitGw v).spine = s.spine := rfl
@[simp] theorem State.setUnitGw_spineBad (v : List (Nat × W64)) : (s.setUnitGw v).spineBad = s.spineBad := rfl
@[simp] theorem State.setUnitGw_seqs (v : List (Nat × W64)) : (s.setUnitGw v).seqs = s.seqs := rfl
@[simp] theorem State.setUnitGw_cores (v : List (Nat × W64)) : (s.setUnitGw v).cores = s.cores := rfl
@[simp] theorem State.setUnitGw_threads (v : List (Nat × W64)) : (s.setUnitGw v).threads = s.threads := rfl
@[simp] theorem State.setUnitGw_vtCopy (v : List (Nat × W64)) : (s.setUnitGw v).vtCopy = s.vtCopy := rfl
@[simp] theorem State.setUnitGw_sync (v : List (Nat × W64)) : (s.setUnitGw v).sync = s.sync := rfl
@[simp] theorem State.setUnitGw_sol (v : List (Nat × W64)) : (s.setUnitGw v).sol = s.sol := rfl
@[simp] theorem State.setUnitGw_qsk (v : List (Nat × W64)) : (s.setUnitGw v).qsk = s.qsk := rfl
@[simp] theorem State.setUnitGw_wires (v : List (Nat × W64)) : (s.setUnitGw v).wires = s.wires := rfl
@[simp] theorem State.setUnitGw_flits (v : List (Nat × W64)) : (s.setUnitGw v).flits = s.flits := rfl
@[simp] theorem State.setUnitGw_rbufs (v : List (Nat × W64)) : (s.setUnitGw v).rbufs = s.rbufs := rfl
@[simp] theorem State.setUnitGw_fstr (v : List (Nat × W64)) : (s.setUnitGw v).fstr = s.fstr := rfl
@[simp] theorem State.setUnitGw_codec (v : List (Nat × W64)) : (s.setUnitGw v).codec = s.codec := rfl
@[simp] theorem State.setUnitGw_reqs (v : List (Nat × W64)) : (s.setUnitGw v).reqs = s.reqs := rfl
@[simp] theorem State.setUnitGw_nextReq (v : List (Nat × W64)) : (s.setUnitGw v).nextReq = s.nextReq := rfl
@[simp] theorem State.setUnitGw_held (v : List (Nat × W64)) : (s.setUnitGw v).held = s.held := rfl
@[simp] theorem State.setUnitGw_load (v : List (Nat × W64)) : (s.setUnitGw v).load = s.load := rfl
@[simp] theorem State.setUnitGw_unitGw (v : List (Nat × W64)) : (s.setUnitGw v).unitGw = v := rfl
@[simp] theorem State.setUnitGw_otp (v : List (Nat × W64)) : (s.setUnitGw v).otp = s.otp := rfl
@[simp] theorem State.setUnitGw_bgw (v : List (Nat × W64)) : (s.setUnitGw v).bgw = s.bgw := rfl
@[simp] theorem State.setUnitGw_isl (v : List (Nat × W64)) : (s.setUnitGw v).isl = s.isl := rfl
@[simp] theorem State.setUnitGw_learn (v : List (Nat × W64)) : (s.setUnitGw v).learn = s.learn := rfl
@[simp] theorem State.setUnitGw_stw (v : List (Nat × W64)) : (s.setUnitGw v).stw = s.stw := rfl
@[simp] theorem State.setUnitGw_ev (v : List (Nat × W64)) : (s.setUnitGw v).ev = s.ev := rfl
@[simp] theorem State.setOtp_pending (v : Otp) : (s.setOtp v).pending = s.pending := rfl
@[simp] theorem State.setOtp_regs (v : Otp) : (s.setOtp v).regs = s.regs := rfl
@[simp] theorem State.setOtp_mem (v : Otp) : (s.setOtp v).mem = s.mem := rfl
@[simp] theorem State.setOtp_ecc (v : Otp) : (s.setOtp v).ecc = s.ecc := rfl
@[simp] theorem State.setOtp_alm (v : Otp) : (s.setOtp v).alm = s.alm := rfl
@[simp] theorem State.setOtp_bm (v : Otp) : (s.setOtp v).bm = s.bm := rfl
@[simp] theorem State.setOtp_flt (v : Otp) : (s.setOtp v).flt = s.flt := rfl
@[simp] theorem State.setOtp_pwr (v : Otp) : (s.setOtp v).pwr = s.pwr := rfl
@[simp] theorem State.setOtp_irq (v : Otp) : (s.setOtp v).irq = s.irq := rfl
@[simp] theorem State.setOtp_pipes (v : Otp) : (s.setOtp v).pipes = s.pipes := rfl
@[simp] theorem State.setOtp_streams (v : Otp) : (s.setOtp v).streams = s.streams := rfl
@[simp] theorem State.setOtp_ep (v : Otp) : (s.setOtp v).ep = s.ep := rfl
@[simp] theorem State.setOtp_eth (v : Otp) : (s.setOtp v).eth = s.eth := rfl
@[simp] theorem State.setOtp_denyArmed (v : Otp) : (s.setOtp v).denyArmed = s.denyArmed := rfl
@[simp] theorem State.setOtp_resp (v : Otp) : (s.setOtp v).resp = s.resp := rfl
@[simp] theorem State.setOtp_free (v : Otp) : (s.setOtp v).free = s.free := rfl
@[simp] theorem State.setOtp_out (v : Otp) : (s.setOtp v).out = s.out := rfl
@[simp] theorem State.setOtp_hbm (v : Otp) : (s.setOtp v).hbm = s.hbm := rfl
@[simp] theorem State.setOtp_carry (v : Otp) : (s.setOtp v).carry = s.carry := rfl
@[simp] theorem State.setOtp_tiles (v : Otp) : (s.setOtp v).tiles = s.tiles := rfl
@[simp] theorem State.setOtp_edges (v : Otp) : (s.setOtp v).edges = s.edges := rfl
@[simp] theorem State.setOtp_gws (v : Otp) : (s.setOtp v).gws = s.gws := rfl
@[simp] theorem State.setOtp_spine (v : Otp) : (s.setOtp v).spine = s.spine := rfl
@[simp] theorem State.setOtp_spineBad (v : Otp) : (s.setOtp v).spineBad = s.spineBad := rfl
@[simp] theorem State.setOtp_seqs (v : Otp) : (s.setOtp v).seqs = s.seqs := rfl
@[simp] theorem State.setOtp_cores (v : Otp) : (s.setOtp v).cores = s.cores := rfl
@[simp] theorem State.setOtp_threads (v : Otp) : (s.setOtp v).threads = s.threads := rfl
@[simp] theorem State.setOtp_vtCopy (v : Otp) : (s.setOtp v).vtCopy = s.vtCopy := rfl
@[simp] theorem State.setOtp_sync (v : Otp) : (s.setOtp v).sync = s.sync := rfl
@[simp] theorem State.setOtp_sol (v : Otp) : (s.setOtp v).sol = s.sol := rfl
@[simp] theorem State.setOtp_qsk (v : Otp) : (s.setOtp v).qsk = s.qsk := rfl
@[simp] theorem State.setOtp_wires (v : Otp) : (s.setOtp v).wires = s.wires := rfl
@[simp] theorem State.setOtp_flits (v : Otp) : (s.setOtp v).flits = s.flits := rfl
@[simp] theorem State.setOtp_rbufs (v : Otp) : (s.setOtp v).rbufs = s.rbufs := rfl
@[simp] theorem State.setOtp_fstr (v : Otp) : (s.setOtp v).fstr = s.fstr := rfl
@[simp] theorem State.setOtp_codec (v : Otp) : (s.setOtp v).codec = s.codec := rfl
@[simp] theorem State.setOtp_reqs (v : Otp) : (s.setOtp v).reqs = s.reqs := rfl
@[simp] theorem State.setOtp_nextReq (v : Otp) : (s.setOtp v).nextReq = s.nextReq := rfl
@[simp] theorem State.setOtp_held (v : Otp) : (s.setOtp v).held = s.held := rfl
@[simp] theorem State.setOtp_load (v : Otp) : (s.setOtp v).load = s.load := rfl
@[simp] theorem State.setOtp_unitGw (v : Otp) : (s.setOtp v).unitGw = s.unitGw := rfl
@[simp] theorem State.setOtp_otp (v : Otp) : (s.setOtp v).otp = v := rfl
@[simp] theorem State.setOtp_bgw (v : Otp) : (s.setOtp v).bgw = s.bgw := rfl
@[simp] theorem State.setOtp_isl (v : Otp) : (s.setOtp v).isl = s.isl := rfl
@[simp] theorem State.setOtp_learn (v : Otp) : (s.setOtp v).learn = s.learn := rfl
@[simp] theorem State.setOtp_stw (v : Otp) : (s.setOtp v).stw = s.stw := rfl
@[simp] theorem State.setOtp_ev (v : Otp) : (s.setOtp v).ev = s.ev := rfl
@[simp] theorem State.setBgw_pending (v : Gateway) : (s.setBgw v).pending = s.pending := rfl
@[simp] theorem State.setBgw_regs (v : Gateway) : (s.setBgw v).regs = s.regs := rfl
@[simp] theorem State.setBgw_mem (v : Gateway) : (s.setBgw v).mem = s.mem := rfl
@[simp] theorem State.setBgw_ecc (v : Gateway) : (s.setBgw v).ecc = s.ecc := rfl
@[simp] theorem State.setBgw_alm (v : Gateway) : (s.setBgw v).alm = s.alm := rfl
@[simp] theorem State.setBgw_bm (v : Gateway) : (s.setBgw v).bm = s.bm := rfl
@[simp] theorem State.setBgw_flt (v : Gateway) : (s.setBgw v).flt = s.flt := rfl
@[simp] theorem State.setBgw_pwr (v : Gateway) : (s.setBgw v).pwr = s.pwr := rfl
@[simp] theorem State.setBgw_irq (v : Gateway) : (s.setBgw v).irq = s.irq := rfl
@[simp] theorem State.setBgw_pipes (v : Gateway) : (s.setBgw v).pipes = s.pipes := rfl
@[simp] theorem State.setBgw_streams (v : Gateway) : (s.setBgw v).streams = s.streams := rfl
@[simp] theorem State.setBgw_ep (v : Gateway) : (s.setBgw v).ep = s.ep := rfl
@[simp] theorem State.setBgw_eth (v : Gateway) : (s.setBgw v).eth = s.eth := rfl
@[simp] theorem State.setBgw_denyArmed (v : Gateway) : (s.setBgw v).denyArmed = s.denyArmed := rfl
@[simp] theorem State.setBgw_resp (v : Gateway) : (s.setBgw v).resp = s.resp := rfl
@[simp] theorem State.setBgw_free (v : Gateway) : (s.setBgw v).free = s.free := rfl
@[simp] theorem State.setBgw_out (v : Gateway) : (s.setBgw v).out = s.out := rfl
@[simp] theorem State.setBgw_hbm (v : Gateway) : (s.setBgw v).hbm = s.hbm := rfl
@[simp] theorem State.setBgw_carry (v : Gateway) : (s.setBgw v).carry = s.carry := rfl
@[simp] theorem State.setBgw_tiles (v : Gateway) : (s.setBgw v).tiles = s.tiles := rfl
@[simp] theorem State.setBgw_edges (v : Gateway) : (s.setBgw v).edges = s.edges := rfl
@[simp] theorem State.setBgw_gws (v : Gateway) : (s.setBgw v).gws = s.gws := rfl
@[simp] theorem State.setBgw_spine (v : Gateway) : (s.setBgw v).spine = s.spine := rfl
@[simp] theorem State.setBgw_spineBad (v : Gateway) : (s.setBgw v).spineBad = s.spineBad := rfl
@[simp] theorem State.setBgw_seqs (v : Gateway) : (s.setBgw v).seqs = s.seqs := rfl
@[simp] theorem State.setBgw_cores (v : Gateway) : (s.setBgw v).cores = s.cores := rfl
@[simp] theorem State.setBgw_threads (v : Gateway) : (s.setBgw v).threads = s.threads := rfl
@[simp] theorem State.setBgw_vtCopy (v : Gateway) : (s.setBgw v).vtCopy = s.vtCopy := rfl
@[simp] theorem State.setBgw_sync (v : Gateway) : (s.setBgw v).sync = s.sync := rfl
@[simp] theorem State.setBgw_sol (v : Gateway) : (s.setBgw v).sol = s.sol := rfl
@[simp] theorem State.setBgw_qsk (v : Gateway) : (s.setBgw v).qsk = s.qsk := rfl
@[simp] theorem State.setBgw_wires (v : Gateway) : (s.setBgw v).wires = s.wires := rfl
@[simp] theorem State.setBgw_flits (v : Gateway) : (s.setBgw v).flits = s.flits := rfl
@[simp] theorem State.setBgw_rbufs (v : Gateway) : (s.setBgw v).rbufs = s.rbufs := rfl
@[simp] theorem State.setBgw_fstr (v : Gateway) : (s.setBgw v).fstr = s.fstr := rfl
@[simp] theorem State.setBgw_codec (v : Gateway) : (s.setBgw v).codec = s.codec := rfl
@[simp] theorem State.setBgw_reqs (v : Gateway) : (s.setBgw v).reqs = s.reqs := rfl
@[simp] theorem State.setBgw_nextReq (v : Gateway) : (s.setBgw v).nextReq = s.nextReq := rfl
@[simp] theorem State.setBgw_held (v : Gateway) : (s.setBgw v).held = s.held := rfl
@[simp] theorem State.setBgw_load (v : Gateway) : (s.setBgw v).load = s.load := rfl
@[simp] theorem State.setBgw_unitGw (v : Gateway) : (s.setBgw v).unitGw = s.unitGw := rfl
@[simp] theorem State.setBgw_otp (v : Gateway) : (s.setBgw v).otp = s.otp := rfl
@[simp] theorem State.setBgw_bgw (v : Gateway) : (s.setBgw v).bgw = v := rfl
@[simp] theorem State.setBgw_isl (v : Gateway) : (s.setBgw v).isl = s.isl := rfl
@[simp] theorem State.setBgw_learn (v : Gateway) : (s.setBgw v).learn = s.learn := rfl
@[simp] theorem State.setBgw_stw (v : Gateway) : (s.setBgw v).stw = s.stw := rfl
@[simp] theorem State.setBgw_ev (v : Gateway) : (s.setBgw v).ev = s.ev := rfl
@[simp] theorem State.setIsl_pending (v : Island) : (s.setIsl v).pending = s.pending := rfl
@[simp] theorem State.setIsl_regs (v : Island) : (s.setIsl v).regs = s.regs := rfl
@[simp] theorem State.setIsl_mem (v : Island) : (s.setIsl v).mem = s.mem := rfl
@[simp] theorem State.setIsl_ecc (v : Island) : (s.setIsl v).ecc = s.ecc := rfl
@[simp] theorem State.setIsl_alm (v : Island) : (s.setIsl v).alm = s.alm := rfl
@[simp] theorem State.setIsl_bm (v : Island) : (s.setIsl v).bm = s.bm := rfl
@[simp] theorem State.setIsl_flt (v : Island) : (s.setIsl v).flt = s.flt := rfl
@[simp] theorem State.setIsl_pwr (v : Island) : (s.setIsl v).pwr = s.pwr := rfl
@[simp] theorem State.setIsl_irq (v : Island) : (s.setIsl v).irq = s.irq := rfl
@[simp] theorem State.setIsl_pipes (v : Island) : (s.setIsl v).pipes = s.pipes := rfl
@[simp] theorem State.setIsl_streams (v : Island) : (s.setIsl v).streams = s.streams := rfl
@[simp] theorem State.setIsl_ep (v : Island) : (s.setIsl v).ep = s.ep := rfl
@[simp] theorem State.setIsl_eth (v : Island) : (s.setIsl v).eth = s.eth := rfl
@[simp] theorem State.setIsl_denyArmed (v : Island) : (s.setIsl v).denyArmed = s.denyArmed := rfl
@[simp] theorem State.setIsl_resp (v : Island) : (s.setIsl v).resp = s.resp := rfl
@[simp] theorem State.setIsl_free (v : Island) : (s.setIsl v).free = s.free := rfl
@[simp] theorem State.setIsl_out (v : Island) : (s.setIsl v).out = s.out := rfl
@[simp] theorem State.setIsl_hbm (v : Island) : (s.setIsl v).hbm = s.hbm := rfl
@[simp] theorem State.setIsl_carry (v : Island) : (s.setIsl v).carry = s.carry := rfl
@[simp] theorem State.setIsl_tiles (v : Island) : (s.setIsl v).tiles = s.tiles := rfl
@[simp] theorem State.setIsl_edges (v : Island) : (s.setIsl v).edges = s.edges := rfl
@[simp] theorem State.setIsl_gws (v : Island) : (s.setIsl v).gws = s.gws := rfl
@[simp] theorem State.setIsl_spine (v : Island) : (s.setIsl v).spine = s.spine := rfl
@[simp] theorem State.setIsl_spineBad (v : Island) : (s.setIsl v).spineBad = s.spineBad := rfl
@[simp] theorem State.setIsl_seqs (v : Island) : (s.setIsl v).seqs = s.seqs := rfl
@[simp] theorem State.setIsl_cores (v : Island) : (s.setIsl v).cores = s.cores := rfl
@[simp] theorem State.setIsl_threads (v : Island) : (s.setIsl v).threads = s.threads := rfl
@[simp] theorem State.setIsl_vtCopy (v : Island) : (s.setIsl v).vtCopy = s.vtCopy := rfl
@[simp] theorem State.setIsl_sync (v : Island) : (s.setIsl v).sync = s.sync := rfl
@[simp] theorem State.setIsl_sol (v : Island) : (s.setIsl v).sol = s.sol := rfl
@[simp] theorem State.setIsl_qsk (v : Island) : (s.setIsl v).qsk = s.qsk := rfl
@[simp] theorem State.setIsl_wires (v : Island) : (s.setIsl v).wires = s.wires := rfl
@[simp] theorem State.setIsl_flits (v : Island) : (s.setIsl v).flits = s.flits := rfl
@[simp] theorem State.setIsl_rbufs (v : Island) : (s.setIsl v).rbufs = s.rbufs := rfl
@[simp] theorem State.setIsl_fstr (v : Island) : (s.setIsl v).fstr = s.fstr := rfl
@[simp] theorem State.setIsl_codec (v : Island) : (s.setIsl v).codec = s.codec := rfl
@[simp] theorem State.setIsl_reqs (v : Island) : (s.setIsl v).reqs = s.reqs := rfl
@[simp] theorem State.setIsl_nextReq (v : Island) : (s.setIsl v).nextReq = s.nextReq := rfl
@[simp] theorem State.setIsl_held (v : Island) : (s.setIsl v).held = s.held := rfl
@[simp] theorem State.setIsl_load (v : Island) : (s.setIsl v).load = s.load := rfl
@[simp] theorem State.setIsl_unitGw (v : Island) : (s.setIsl v).unitGw = s.unitGw := rfl
@[simp] theorem State.setIsl_otp (v : Island) : (s.setIsl v).otp = s.otp := rfl
@[simp] theorem State.setIsl_bgw (v : Island) : (s.setIsl v).bgw = s.bgw := rfl
@[simp] theorem State.setIsl_isl (v : Island) : (s.setIsl v).isl = v := rfl
@[simp] theorem State.setIsl_learn (v : Island) : (s.setIsl v).learn = s.learn := rfl
@[simp] theorem State.setIsl_stw (v : Island) : (s.setIsl v).stw = s.stw := rfl
@[simp] theorem State.setIsl_ev (v : Island) : (s.setIsl v).ev = s.ev := rfl
@[simp] theorem State.setLearn_pending (v : Learn) : (s.setLearn v).pending = s.pending := rfl
@[simp] theorem State.setLearn_regs (v : Learn) : (s.setLearn v).regs = s.regs := rfl
@[simp] theorem State.setLearn_mem (v : Learn) : (s.setLearn v).mem = s.mem := rfl
@[simp] theorem State.setLearn_ecc (v : Learn) : (s.setLearn v).ecc = s.ecc := rfl
@[simp] theorem State.setLearn_alm (v : Learn) : (s.setLearn v).alm = s.alm := rfl
@[simp] theorem State.setLearn_bm (v : Learn) : (s.setLearn v).bm = s.bm := rfl
@[simp] theorem State.setLearn_flt (v : Learn) : (s.setLearn v).flt = s.flt := rfl
@[simp] theorem State.setLearn_pwr (v : Learn) : (s.setLearn v).pwr = s.pwr := rfl
@[simp] theorem State.setLearn_irq (v : Learn) : (s.setLearn v).irq = s.irq := rfl
@[simp] theorem State.setLearn_pipes (v : Learn) : (s.setLearn v).pipes = s.pipes := rfl
@[simp] theorem State.setLearn_streams (v : Learn) : (s.setLearn v).streams = s.streams := rfl
@[simp] theorem State.setLearn_ep (v : Learn) : (s.setLearn v).ep = s.ep := rfl
@[simp] theorem State.setLearn_eth (v : Learn) : (s.setLearn v).eth = s.eth := rfl
@[simp] theorem State.setLearn_denyArmed (v : Learn) : (s.setLearn v).denyArmed = s.denyArmed := rfl
@[simp] theorem State.setLearn_resp (v : Learn) : (s.setLearn v).resp = s.resp := rfl
@[simp] theorem State.setLearn_free (v : Learn) : (s.setLearn v).free = s.free := rfl
@[simp] theorem State.setLearn_out (v : Learn) : (s.setLearn v).out = s.out := rfl
@[simp] theorem State.setLearn_hbm (v : Learn) : (s.setLearn v).hbm = s.hbm := rfl
@[simp] theorem State.setLearn_carry (v : Learn) : (s.setLearn v).carry = s.carry := rfl
@[simp] theorem State.setLearn_tiles (v : Learn) : (s.setLearn v).tiles = s.tiles := rfl
@[simp] theorem State.setLearn_edges (v : Learn) : (s.setLearn v).edges = s.edges := rfl
@[simp] theorem State.setLearn_gws (v : Learn) : (s.setLearn v).gws = s.gws := rfl
@[simp] theorem State.setLearn_spine (v : Learn) : (s.setLearn v).spine = s.spine := rfl
@[simp] theorem State.setLearn_spineBad (v : Learn) : (s.setLearn v).spineBad = s.spineBad := rfl
@[simp] theorem State.setLearn_seqs (v : Learn) : (s.setLearn v).seqs = s.seqs := rfl
@[simp] theorem State.setLearn_cores (v : Learn) : (s.setLearn v).cores = s.cores := rfl
@[simp] theorem State.setLearn_threads (v : Learn) : (s.setLearn v).threads = s.threads := rfl
@[simp] theorem State.setLearn_vtCopy (v : Learn) : (s.setLearn v).vtCopy = s.vtCopy := rfl
@[simp] theorem State.setLearn_sync (v : Learn) : (s.setLearn v).sync = s.sync := rfl
@[simp] theorem State.setLearn_sol (v : Learn) : (s.setLearn v).sol = s.sol := rfl
@[simp] theorem State.setLearn_qsk (v : Learn) : (s.setLearn v).qsk = s.qsk := rfl
@[simp] theorem State.setLearn_wires (v : Learn) : (s.setLearn v).wires = s.wires := rfl
@[simp] theorem State.setLearn_flits (v : Learn) : (s.setLearn v).flits = s.flits := rfl
@[simp] theorem State.setLearn_rbufs (v : Learn) : (s.setLearn v).rbufs = s.rbufs := rfl
@[simp] theorem State.setLearn_fstr (v : Learn) : (s.setLearn v).fstr = s.fstr := rfl
@[simp] theorem State.setLearn_codec (v : Learn) : (s.setLearn v).codec = s.codec := rfl
@[simp] theorem State.setLearn_reqs (v : Learn) : (s.setLearn v).reqs = s.reqs := rfl
@[simp] theorem State.setLearn_nextReq (v : Learn) : (s.setLearn v).nextReq = s.nextReq := rfl
@[simp] theorem State.setLearn_held (v : Learn) : (s.setLearn v).held = s.held := rfl
@[simp] theorem State.setLearn_load (v : Learn) : (s.setLearn v).load = s.load := rfl
@[simp] theorem State.setLearn_unitGw (v : Learn) : (s.setLearn v).unitGw = s.unitGw := rfl
@[simp] theorem State.setLearn_otp (v : Learn) : (s.setLearn v).otp = s.otp := rfl
@[simp] theorem State.setLearn_bgw (v : Learn) : (s.setLearn v).bgw = s.bgw := rfl
@[simp] theorem State.setLearn_isl (v : Learn) : (s.setLearn v).isl = s.isl := rfl
@[simp] theorem State.setLearn_learn (v : Learn) : (s.setLearn v).learn = v := rfl
@[simp] theorem State.setLearn_stw (v : Learn) : (s.setLearn v).stw = s.stw := rfl
@[simp] theorem State.setLearn_ev (v : Learn) : (s.setLearn v).ev = s.ev := rfl
@[simp] theorem State.setStw_pending (v : Stw) : (s.setStw v).pending = s.pending := rfl
@[simp] theorem State.setStw_regs (v : Stw) : (s.setStw v).regs = s.regs := rfl
@[simp] theorem State.setStw_mem (v : Stw) : (s.setStw v).mem = s.mem := rfl
@[simp] theorem State.setStw_ecc (v : Stw) : (s.setStw v).ecc = s.ecc := rfl
@[simp] theorem State.setStw_alm (v : Stw) : (s.setStw v).alm = s.alm := rfl
@[simp] theorem State.setStw_bm (v : Stw) : (s.setStw v).bm = s.bm := rfl
@[simp] theorem State.setStw_flt (v : Stw) : (s.setStw v).flt = s.flt := rfl
@[simp] theorem State.setStw_pwr (v : Stw) : (s.setStw v).pwr = s.pwr := rfl
@[simp] theorem State.setStw_irq (v : Stw) : (s.setStw v).irq = s.irq := rfl
@[simp] theorem State.setStw_pipes (v : Stw) : (s.setStw v).pipes = s.pipes := rfl
@[simp] theorem State.setStw_streams (v : Stw) : (s.setStw v).streams = s.streams := rfl
@[simp] theorem State.setStw_ep (v : Stw) : (s.setStw v).ep = s.ep := rfl
@[simp] theorem State.setStw_eth (v : Stw) : (s.setStw v).eth = s.eth := rfl
@[simp] theorem State.setStw_denyArmed (v : Stw) : (s.setStw v).denyArmed = s.denyArmed := rfl
@[simp] theorem State.setStw_resp (v : Stw) : (s.setStw v).resp = s.resp := rfl
@[simp] theorem State.setStw_free (v : Stw) : (s.setStw v).free = s.free := rfl
@[simp] theorem State.setStw_out (v : Stw) : (s.setStw v).out = s.out := rfl
@[simp] theorem State.setStw_hbm (v : Stw) : (s.setStw v).hbm = s.hbm := rfl
@[simp] theorem State.setStw_carry (v : Stw) : (s.setStw v).carry = s.carry := rfl
@[simp] theorem State.setStw_tiles (v : Stw) : (s.setStw v).tiles = s.tiles := rfl
@[simp] theorem State.setStw_edges (v : Stw) : (s.setStw v).edges = s.edges := rfl
@[simp] theorem State.setStw_gws (v : Stw) : (s.setStw v).gws = s.gws := rfl
@[simp] theorem State.setStw_spine (v : Stw) : (s.setStw v).spine = s.spine := rfl
@[simp] theorem State.setStw_spineBad (v : Stw) : (s.setStw v).spineBad = s.spineBad := rfl
@[simp] theorem State.setStw_seqs (v : Stw) : (s.setStw v).seqs = s.seqs := rfl
@[simp] theorem State.setStw_cores (v : Stw) : (s.setStw v).cores = s.cores := rfl
@[simp] theorem State.setStw_threads (v : Stw) : (s.setStw v).threads = s.threads := rfl
@[simp] theorem State.setStw_vtCopy (v : Stw) : (s.setStw v).vtCopy = s.vtCopy := rfl
@[simp] theorem State.setStw_sync (v : Stw) : (s.setStw v).sync = s.sync := rfl
@[simp] theorem State.setStw_sol (v : Stw) : (s.setStw v).sol = s.sol := rfl
@[simp] theorem State.setStw_qsk (v : Stw) : (s.setStw v).qsk = s.qsk := rfl
@[simp] theorem State.setStw_wires (v : Stw) : (s.setStw v).wires = s.wires := rfl
@[simp] theorem State.setStw_flits (v : Stw) : (s.setStw v).flits = s.flits := rfl
@[simp] theorem State.setStw_rbufs (v : Stw) : (s.setStw v).rbufs = s.rbufs := rfl
@[simp] theorem State.setStw_fstr (v : Stw) : (s.setStw v).fstr = s.fstr := rfl
@[simp] theorem State.setStw_codec (v : Stw) : (s.setStw v).codec = s.codec := rfl
@[simp] theorem State.setStw_reqs (v : Stw) : (s.setStw v).reqs = s.reqs := rfl
@[simp] theorem State.setStw_nextReq (v : Stw) : (s.setStw v).nextReq = s.nextReq := rfl
@[simp] theorem State.setStw_held (v : Stw) : (s.setStw v).held = s.held := rfl
@[simp] theorem State.setStw_load (v : Stw) : (s.setStw v).load = s.load := rfl
@[simp] theorem State.setStw_unitGw (v : Stw) : (s.setStw v).unitGw = s.unitGw := rfl
@[simp] theorem State.setStw_otp (v : Stw) : (s.setStw v).otp = s.otp := rfl
@[simp] theorem State.setStw_bgw (v : Stw) : (s.setStw v).bgw = s.bgw := rfl
@[simp] theorem State.setStw_isl (v : Stw) : (s.setStw v).isl = s.isl := rfl
@[simp] theorem State.setStw_learn (v : Stw) : (s.setStw v).learn = s.learn := rfl
@[simp] theorem State.setStw_stw (v : Stw) : (s.setStw v).stw = v := rfl
@[simp] theorem State.setStw_ev (v : Stw) : (s.setStw v).ev = s.ev := rfl
@[simp] theorem State.setEv_pending (v : EvState) : (s.setEv v).pending = s.pending := rfl
@[simp] theorem State.setEv_regs (v : EvState) : (s.setEv v).regs = s.regs := rfl
@[simp] theorem State.setEv_mem (v : EvState) : (s.setEv v).mem = s.mem := rfl
@[simp] theorem State.setEv_ecc (v : EvState) : (s.setEv v).ecc = s.ecc := rfl
@[simp] theorem State.setEv_alm (v : EvState) : (s.setEv v).alm = s.alm := rfl
@[simp] theorem State.setEv_bm (v : EvState) : (s.setEv v).bm = s.bm := rfl
@[simp] theorem State.setEv_flt (v : EvState) : (s.setEv v).flt = s.flt := rfl
@[simp] theorem State.setEv_pwr (v : EvState) : (s.setEv v).pwr = s.pwr := rfl
@[simp] theorem State.setEv_irq (v : EvState) : (s.setEv v).irq = s.irq := rfl
@[simp] theorem State.setEv_pipes (v : EvState) : (s.setEv v).pipes = s.pipes := rfl
@[simp] theorem State.setEv_streams (v : EvState) : (s.setEv v).streams = s.streams := rfl
@[simp] theorem State.setEv_ep (v : EvState) : (s.setEv v).ep = s.ep := rfl
@[simp] theorem State.setEv_eth (v : EvState) : (s.setEv v).eth = s.eth := rfl
@[simp] theorem State.setEv_denyArmed (v : EvState) : (s.setEv v).denyArmed = s.denyArmed := rfl
@[simp] theorem State.setEv_resp (v : EvState) : (s.setEv v).resp = s.resp := rfl
@[simp] theorem State.setEv_free (v : EvState) : (s.setEv v).free = s.free := rfl
@[simp] theorem State.setEv_out (v : EvState) : (s.setEv v).out = s.out := rfl
@[simp] theorem State.setEv_hbm (v : EvState) : (s.setEv v).hbm = s.hbm := rfl
@[simp] theorem State.setEv_carry (v : EvState) : (s.setEv v).carry = s.carry := rfl
@[simp] theorem State.setEv_tiles (v : EvState) : (s.setEv v).tiles = s.tiles := rfl
@[simp] theorem State.setEv_edges (v : EvState) : (s.setEv v).edges = s.edges := rfl
@[simp] theorem State.setEv_gws (v : EvState) : (s.setEv v).gws = s.gws := rfl
@[simp] theorem State.setEv_spine (v : EvState) : (s.setEv v).spine = s.spine := rfl
@[simp] theorem State.setEv_spineBad (v : EvState) : (s.setEv v).spineBad = s.spineBad := rfl
@[simp] theorem State.setEv_seqs (v : EvState) : (s.setEv v).seqs = s.seqs := rfl
@[simp] theorem State.setEv_cores (v : EvState) : (s.setEv v).cores = s.cores := rfl
@[simp] theorem State.setEv_threads (v : EvState) : (s.setEv v).threads = s.threads := rfl
@[simp] theorem State.setEv_vtCopy (v : EvState) : (s.setEv v).vtCopy = s.vtCopy := rfl
@[simp] theorem State.setEv_sync (v : EvState) : (s.setEv v).sync = s.sync := rfl
@[simp] theorem State.setEv_sol (v : EvState) : (s.setEv v).sol = s.sol := rfl
@[simp] theorem State.setEv_qsk (v : EvState) : (s.setEv v).qsk = s.qsk := rfl
@[simp] theorem State.setEv_wires (v : EvState) : (s.setEv v).wires = s.wires := rfl
@[simp] theorem State.setEv_flits (v : EvState) : (s.setEv v).flits = s.flits := rfl
@[simp] theorem State.setEv_rbufs (v : EvState) : (s.setEv v).rbufs = s.rbufs := rfl
@[simp] theorem State.setEv_fstr (v : EvState) : (s.setEv v).fstr = s.fstr := rfl
@[simp] theorem State.setEv_codec (v : EvState) : (s.setEv v).codec = s.codec := rfl
@[simp] theorem State.setEv_reqs (v : EvState) : (s.setEv v).reqs = s.reqs := rfl
@[simp] theorem State.setEv_nextReq (v : EvState) : (s.setEv v).nextReq = s.nextReq := rfl
@[simp] theorem State.setEv_held (v : EvState) : (s.setEv v).held = s.held := rfl
@[simp] theorem State.setEv_load (v : EvState) : (s.setEv v).load = s.load := rfl
@[simp] theorem State.setEv_unitGw (v : EvState) : (s.setEv v).unitGw = s.unitGw := rfl
@[simp] theorem State.setEv_otp (v : EvState) : (s.setEv v).otp = s.otp := rfl
@[simp] theorem State.setEv_bgw (v : EvState) : (s.setEv v).bgw = s.bgw := rfl
@[simp] theorem State.setEv_isl (v : EvState) : (s.setEv v).isl = s.isl := rfl
@[simp] theorem State.setEv_learn (v : EvState) : (s.setEv v).learn = s.learn := rfl
@[simp] theorem State.setEv_stw (v : EvState) : (s.setEv v).stw = s.stw := rfl
@[simp] theorem State.setEv_ev (v : EvState) : (s.setEv v).ev = v := rfl

end Sys2Proof.Machine
end

