-- ==== Sys2Proof/Laws/Regs.lean ====
section
/-!
SUPPORT. Laws of registers: reading a field after writing one, the canonical form of the register map, and what the register
operations leave alone.
-/

namespace Sys2Proof.Machine

/-! ### Words -/

@[simp] theorem State.word_setWord (s : State) (o : Nat) (v : W64) : (s.setWord o v).word o = v := by
  simp [State.word, State.setWord]

theorem State.word_setWord_ne (s : State) (o o' : Nat) (v : W64) (h : o' ≠ o) : (s.setWord o v).word o' = s.word o' := by
  simp [State.word, State.setWord, SMap.get_put_ne _ _ _ _ _ h]

/-- A register write keeps the canonical form of the register map. -/
theorem State.regsWf_setWord (s : State) (o : Nat) (v : W64) (h : SMap.wf Reg.reset s.regs = true) :
    SMap.wf Reg.reset (s.setWord o v).regs = true := SMap.wf_put _ _ _ _ h

/-! ### Fields -/

theorem bits_lt (n lo w : Nat) : bits n lo w < 2 ^ w := Nat.mod_lt _ (Nat.two_pow_pos w)

theorem testBit_bits (n lo w i : Nat) : (bits n lo w).testBit i = (decide (i < w) && n.testBit (lo + i)) := by
  simp [bits, Nat.testBit_mod_two_pow, Nat.testBit_shiftRight]

/-- A number is its bits below a field, the field and its bits above. -/
theorem bits_split (n lo w : Nat) : n = n % 2 ^ lo + 2 ^ lo * (bits n lo w + 2 ^ w * (n / 2 ^ (lo + w))) := by
  have h1 := Nat.mod_add_div n (2 ^ lo)
  have h2 := Nat.mod_add_div (n / 2 ^ lo) (2 ^ w)
  have h3 : n / 2 ^ lo / 2 ^ w = n / 2 ^ (lo + w) := by rw [Nat.div_div_eq_div_mul, Nat.pow_add]
  simp only [bits, Nat.shiftRight_eq_div_pow]
  rw [← h3, h2, h1]

/-- The number of a word with a field replaced: its lower bits, the new field, its upper bits. -/
theorem insField_num (n lo w v : Nat) :
    n - bits n lo w * 2 ^ lo + v % 2 ^ w * 2 ^ lo = n % 2 ^ lo + 2 ^ lo * (v % 2 ^ w + 2 ^ w * (n / 2 ^ (lo + w))) := by
  have h := bits_split n lo w
  have e1 : 2 ^ lo * (bits n lo w + 2 ^ w * (n / 2 ^ (lo + w))) =
      bits n lo w * 2 ^ lo + 2 ^ lo * (2 ^ w * (n / 2 ^ (lo + w))) := by ring
  have e2 : 2 ^ lo * (v % 2 ^ w + 2 ^ w * (n / 2 ^ (lo + w))) =
      v % 2 ^ w * 2 ^ lo + 2 ^ lo * (2 ^ w * (n / 2 ^ (lo + w))) := by ring
  rw [e1] at h
  rw [e2]
  omega

/-- Every bit of a word with a field replaced. -/
theorem testBit_insField (x : W64) (lo w v i : Nat) (h : lo + w ≤ 64) :
    (insField x lo w v).toNat.testBit i =
      if lo ≤ i ∧ i < lo + w then v.testBit (i - lo) else x.toNat.testBit i := by
  have hx : x.toNat < 2 ^ 64 := x.isLt
  have hv : v % 2 ^ w < 2 ^ w := Nat.mod_lt _ (Nat.two_pow_pos w)
  have hn : (insField x lo w v).toNat =
      (x.toNat % 2 ^ lo + 2 ^ lo * (v % 2 ^ w + 2 ^ w * (x.toNat / 2 ^ (lo + w)))) % 2 ^ 64 := by
    simp only [insField, BitVec.toNat_ofNat, insField_num]
  rw [hn, Nat.testBit_mod_two_pow]
  rw [Nat.add_comm (x.toNat % 2 ^ lo), Nat.testBit_two_pow_mul_add _ (Nat.mod_lt _ (Nat.two_pow_pos lo))]
  by_cases h1 : i < lo
  · have hi : i < 64 := by omega
    simp [h1, hi, Nat.testBit_mod_two_pow]
  · rw [Nat.add_comm (v % 2 ^ w), Nat.testBit_two_pow_mul_add _ hv]
    by_cases h2 : i < lo + w
    · have hi : i < 64 := by omega
      have h3 : i - lo < w := by omega
      have h4 : lo ≤ i := by omega
      simp [h1, hi, h3, h4, h2, Nat.testBit_mod_two_pow]
    · have h3 : ¬ i - lo < w := by omega
      have h4 : lo ≤ i := by omega
      have h5 : i - lo - w + (lo + w) = i := by omega
      simp only [h1, h3, h2, h4, if_false, and_false, Nat.testBit_div_two_pow, h5]
      by_cases hi : i < 64
      · simp [hi]
      · have : x.toNat.testBit i = false :=
          Nat.testBit_lt_two_pow (Nat.lt_of_lt_of_le hx (Nat.pow_le_pow_right (by omega) (by omega)))
        simp [hi, this]

/-- The field written reads as the low bits of the value. -/
theorem bits_insField_self (x : W64) (lo w v : Nat) (h : lo + w ≤ 64) : bits (insField x lo w v).toNat lo w = v % 2 ^ w := by
  apply Nat.eq_of_testBit_eq
  intro i
  rw [testBit_bits, testBit_insField x lo w v _ h, Nat.testBit_mod_two_pow]
  by_cases hi : i < w
  · have : lo ≤ lo + i ∧ lo + i < lo + w := by omega
    simp [hi]
  · simp [hi]

/-- A field that does not overlap the one written is unchanged. -/
theorem bits_insField_ne (x : W64) (lo w v lo' w' : Nat) (h : lo + w ≤ 64) (hd : lo' + w' ≤ lo ∨ lo + w ≤ lo') :
    bits (insField x lo w v).toNat lo' w' = bits x.toNat lo' w' := by
  apply Nat.eq_of_testBit_eq
  intro i
  rw [testBit_bits, testBit_bits, testBit_insField x lo w v _ h]
  by_cases hi : i < w'
  · have : ¬ (lo ≤ lo' + i ∧ lo' + i < lo + w) := by omega
    simp [this]
  · simp [hi]

/-- Reading a field after writing it. -/
theorem State.getF_setF (s : State) (f : Fld) (v : Nat) (h : f.lo + f.w ≤ 64) : (s.setF f v).getF f = v % 2 ^ f.w := by
  simp only [State.getF, State.setF, State.word_setWord]
  exact bits_insField_self _ _ _ _ h

/-- Writing a field leaves every field apart from it as it was. -/
theorem State.getF_setF_ne (s : State) (f g : Fld) (v : Nat) (h : f.lo + f.w ≤ 64) (hd : Apart f g) :
    (s.setF f v).getF g = s.getF g := by
  unfold State.getF State.setF
  by_cases ho : g.off = f.off
  · rw [ho, State.word_setWord]
    rcases hd with hd | hd | hd
    · exact absurd ho.symm hd
    · exact bits_insField_ne _ _ _ _ _ _ h (Or.inr hd)
    · exact bits_insField_ne _ _ _ _ _ _ h (Or.inl hd)
  · rw [State.word_setWord_ne _ _ _ _ ho]

/-- Writing a field leaves the words of other registers. -/
theorem State.word_setF_ne (s : State) (f : Fld) (v o : Nat) (h : o ≠ f.off) : (s.setF f v).word o = s.word o :=
  State.word_setWord_ne _ _ _ _ h

theorem State.regsWf_setF (s : State) (f : Fld) (v : Nat) (h : SMap.wf Reg.reset s.regs = true) :
    SMap.wf Reg.reset (s.setF f v).regs = true := State.regsWf_setWord _ _ _ h

/-! ### Signed fields -/

/-- The low bits of an integer within range, read as two's complement, give it back. -/
theorem sint_uint (w : Nat) (x : Int) (h1 : -((2 ^ w : Nat) : Int) ≤ 2 * x) (h2 : 2 * x < ((2 ^ w : Nat) : Int)) :
    sint w (uint w x % 2 ^ w) = x := by
  have hp : 0 < 2 ^ w := Nat.two_pow_pos w
  simp only [sint, uint, Nat.mod_mod]
  generalize 2 ^ w = p at *
  have hm := Int.emod_nonneg x (b := (p : Int)) (by omega)
  have hl := Int.emod_lt_of_pos x (b := (p : Int)) (by omega)
  have hq : (x % (p : Int)).toNat % p = (x % (p : Int)).toNat := Nat.mod_eq_of_lt (by omega)
  rw [hq]
  by_cases hx : 0 ≤ x
  · have : x % (p : Int) = x := Int.emod_eq_of_lt hx (by omega)
    rw [this]
    split <;> omega
  · have : x % (p : Int) = x + p := by
      rw [← Int.add_emod_right]; exact Int.emod_eq_of_lt (by omega) (by omega)
    rw [this]
    split <;> omega

/-- What a number reads as in two's complement lies in range. -/
theorem sint_range (w n : Nat) : -((2 ^ w : Nat) : Int) ≤ 2 * sint w n ∧ 2 * sint w n < ((2 ^ w : Nat) : Int) := by
  have hp : n % 2 ^ w < 2 ^ w := Nat.mod_lt _ (Nat.two_pow_pos w)
  simp only [sint]
  generalize n % 2 ^ w = m at *
  generalize 2 ^ w = p at *
  split <;> constructor <;> omega

/-- Reading a signed field after writing it. -/
theorem State.getI_setI (s : State) (f : Fld) (x : Int) (h : f.lo + f.w ≤ 64) (h1 : -((2 ^ f.w : Nat) : Int) ≤ 2 * x)
    (h2 : 2 * x < ((2 ^ f.w : Nat) : Int)) : (s.setI f x).getI f = x := by
  rw [State.getI, State.setI, State.getF_setF _ _ _ h, sint_uint _ _ h1 h2]

/-! ### What register operations leave alone -/

@[simp] theorem State.setF_mem (s : State) (f : Fld) (v : Nat) : (s.setF f v).mem = s.mem := rfl
@[simp] theorem State.setF_pending (s : State) (f : Fld) (v : Nat) : (s.setF f v).pending = s.pending := rfl
@[simp] theorem State.setF_threads (s : State) (f : Fld) (v : Nat) : (s.setF f v).threads = s.threads := rfl
@[simp] theorem State.setF_alm (s : State) (f : Fld) (v : Nat) : (s.setF f v).alm = s.alm := rfl
@[simp] theorem State.setF_flt (s : State) (f : Fld) (v : Nat) : (s.setF f v).flt = s.flt := rfl
@[simp] theorem State.setF_resp (s : State) (f : Fld) (v : Nat) : (s.setF f v).resp = s.resp := rfl
@[simp] theorem State.setF_out (s : State) (f : Fld) (v : Nat) : (s.setF f v).out = s.out := rfl
@[simp] theorem State.answer_regs (s : State) (st : Status) (v : W64) : (s.answer st v).regs = s.regs := rfl
@[simp] theorem State.answer_mem (s : State) (st : Status) (v : W64) : (s.answer st v).mem = s.mem := rfl
@[simp] theorem State.answer_resp (s : State) (st : Status) (v : W64) :
    (s.answer st v).resp = some { status := st, value := v } := rfl
@[simp] theorem State.answer_word (s : State) (st : Status) (v : W64) (o : Nat) : (s.answer st v).word o = s.word o := rfl
@[simp] theorem State.answer_getF (s : State) (st : Status) (v : W64) (f : Fld) : (s.answer st v).getF f = s.getF f := rfl

/-! ### The gate of a register write (R501, R502, R545, R546) -/

/-- A write that takes effect. -/
theorem State.gated_takes (s : State) (w : WriteReq) (off : Nat) (eff : State → State) (h : s.takes w off = true) :
    s.gated w.agent w.half off eff = (eff s).answer .ok 0#64 := by
  simp only [State.takes, granted, Bool.and_eq_true, Bool.or_eq_true, beq_iff_eq, Bool.not_eq_true'] at h
  obtain ⟨⟨hm, ha⟩, hl⟩ := h
  unfold State.gated
  rcases ha with ha | ha
  · rw [ha] at hm ⊢; simp [hm, hl]
  · simp [hm, ha, hl]

/-- A write that starts an action, in a unit that is ON. -/
theorem State.gatedAct_takes (s : State) (w : WriteReq) (off : Nat) (eff : State → State) (h : s.takesAct w off = true) :
    s.gatedAct w.agent w.half off eff = (eff s).answer .ok 0#64 := by
  simp only [State.takesAct, Bool.and_eq_true] at h
  rw [State.gatedAct, State.gated_takes s w off _ h.1]; simp [h.2]

/-- A granted write of a register whose domain holds no state is ignored (R545). -/
theorem State.gated_dead (s : State) (a : Agent) (h : Half) (off : Nat) (eff : State → State)
    (hg : granted s a h off = true) (hl : s.regLive off = false) : s.gated a h off eff = s.answer .ok 0#64 := by
  simp only [granted, Bool.and_eq_true, Bool.or_eq_true, beq_iff_eq, Bool.not_eq_true'] at hg
  obtain ⟨hm, ha⟩ := hg
  unfold State.gated
  rcases ha with ha | ha
  · rw [ha] at hm ⊢; simp [hm, hl]
  · simp [hm, ha, hl]

/-- A write that is not granted is refused (R502). -/
theorem State.gated_denied (s : State) (a : Agent) (h : Half) (off : Nat) (eff : State → State)
    (hn : granted s a h off = false) : s.gated a h off eff = s.deny a h off := by
  unfold State.gated
  simp only [granted] at hn
  by_cases hm : mayWrite s a off = true
  · simp only [hm, Bool.true_and, Bool.or_eq_false_iff, beq_eq_false_iff_ne, Bool.not_eq_false'] at hn
    simp [hm, hn.1, hn.2]
  · simp [hm]

/-! ### Fault records (R471) -/

/-- A record below DEVICE that the pending store has room for: it joins the pending records, and nothing else changes. -/
theorem State.raise_room (s : State) (r : FaultRec) (hc : r.cls < 4) (h : s.room = true) :
    s.raise r = s.setFlt { s.flt with pend := s.flt.pend ++ [{ r with devnum := s.getF Reg.MGT_DEVNUM, summary := none }] } := by
  simp only [State.room, decide_eq_true_eq] at h
  have h4 : r.cls ≠ 4 := by omega
  have h0 : pendCount s.flt.pend < (if r.cls = 0 then 96 else 127) := by split <;> omega
  simp [State.raise, h4, h0]

/-- A report of the present instant that the pending store has room for. -/
theorem State.report_room (s : State) (cls code unit : Nat) (detail : List (Nat × Nat)) (hc : cls < 4) (h : s.room = true) :
    s.report cls code unit detail = s.setFlt { s.flt with pend := s.flt.pend ++
      [{ cls := cls, code := code, unit := unit, time := s.now, detail := packDetail detail,
         devnum := s.getF Reg.MGT_DEVNUM }] } := by
  rw [State.report, State.raise_room _ _ (by exact hc) h]

end Sys2Proof.Machine
end

