-- ==== Sys2Proof/Laws/Keep.lean ====
section
/-!
SUPPORT. What every operation keeps: memory, check states and registers in their canonical forms, the queue of waiting commands, and
the bound of the pending store (R471). One lemma per
operation, in the files of Laws/Keep.
-/

namespace Sys2Proof.Machine

/-- Memory, check states and registers stand in their canonical forms, the queue is `q`, and the pending store holds at most 127
ordinary records and one summary. -/
structure Ok (q : List Instr) (s : State) : Prop where
  mem : Memory.wf s.mem = true
  regs : SMap.wf Reg.reset s.regs = true
  queue : s.pending = q
  ecc : SMap.wf (fun _ => EccState.clean) s.ecc = true
  pend : pendCount s.flt.pend ≤ 127
  summary : (s.flt.pend.filter (fun r => r.summary.isSome)).length ≤ 1

variable {q : List Instr} {s : State}

theorem foldl_ok {α : Type} {g : State → α → State} {l : List α} (h : Ok q s) (hg : ∀ s x, Ok q s → Ok q (g s x)) :
    Ok q (l.foldl g s) := by
  induction l generalizing s with
  | nil => exact h
  | cons x l ih => exact ih (hg s x h)

theorem foldl_ok1 {α β : Type} {g : State × β → α → State × β} {l : List α} {p : State × β} (h : Ok q p.1)
    (hg : ∀ p x, Ok q p.1 → Ok q (g p x).1) : Ok q (l.foldl g p).1 := by
  induction l generalizing p with
  | nil => exact h
  | cons x l ih => exact ih (hg p x h)

theorem ite_ok {c : Prop} [Decidable c] {a b : State} (ha : c → Ok q a) (hb : ¬c → Ok q b) :
    Ok q (if c then a else b) := by
  split
  · exact ha ‹_›
  · exact hb ‹_›

theorem ite_ok1 {β : Type} {c : Prop} [Decidable c] {a b : State × β} (ha : c → Ok q a.1) (hb : ¬c → Ok q b.1) :
    Ok q (if c then a else b).1 := by
  split
  · exact ha ‹_›
  · exact hb ‹_›

/-- What an outcome that is a next state keeps. -/
def OkOut (q : List Instr) (o : Out) : Prop := ∀ t, o = .next t → Ok q t

theorem next_ok {a : State} (h : Ok q a) : OkOut q (.next a) := by
  intro t e; cases e; exact h

theorem ite_next {c : Prop} [Decidable c] {a b : Out} (ha : c → OkOut q a) (hb : ¬c → OkOut q b) :
    OkOut q (if c then a else b) := by
  split
  · exact ha ‹_›
  · exact hb ‹_›

theorem State.setAlm_ok {v : AlmState} (h : Ok q s) : Ok q (s.setAlm v) := ⟨h.1, h.2, h.3, h.4, h.5, h.6⟩
theorem State.setBm_ok {v : List (Nat × BeatM)} (h : Ok q s) : Ok q (s.setBm v) := ⟨h.1, h.2, h.3, h.4, h.5, h.6⟩
theorem State.setPwr_ok {v : PwrState} (h : Ok q s) : Ok q (s.setPwr v) := ⟨h.1, h.2, h.3, h.4, h.5, h.6⟩
theorem State.setIrq_ok {v : IrqState} (h : Ok q s) : Ok q (s.setIrq v) := ⟨h.1, h.2, h.3, h.4, h.5, h.6⟩
theorem State.setPipes_ok {v : List (Nat × Pipe)} (h : Ok q s) : Ok q (s.setPipes v) := ⟨h.1, h.2, h.3, h.4, h.5, h.6⟩
theorem State.setStreams_ok {v : List (Nat × Stream)} (h : Ok q s) : Ok q (s.setStreams v) := ⟨h.1, h.2, h.3, h.4, h.5, h.6⟩
theorem State.setEp_ok {v : EpState} (h : Ok q s) : Ok q (s.setEp v) := ⟨h.1, h.2, h.3, h.4, h.5, h.6⟩
theorem State.setEth_ok {v : List (Nat × EthPort)} (h : Ok q s) : Ok q (s.setEth v) := ⟨h.1, h.2, h.3, h.4, h.5, h.6⟩
theorem State.setDenyArmed_ok {v : Bool} (h : Ok q s) : Ok q (s.setDenyArmed v) := ⟨h.1, h.2, h.3, h.4, h.5, h.6⟩
theorem State.setResp_ok {v : Option Resp} (h : Ok q s) : Ok q (s.setResp v) := ⟨h.1, h.2, h.3, h.4, h.5, h.6⟩
theorem State.setFree_ok {v : Nat} (h : Ok q s) : Ok q (s.setFree v) := ⟨h.1, h.2, h.3, h.4, h.5, h.6⟩
theorem State.setOut_ok {v : List OutMsg} (h : Ok q s) : Ok q (s.setOut v) := ⟨h.1, h.2, h.3, h.4, h.5, h.6⟩
theorem State.setHbm_ok {v : HbmState} (h : Ok q s) : Ok q (s.setHbm v) := ⟨h.1, h.2, h.3, h.4, h.5, h.6⟩
theorem State.setCarry_ok {v : List (Nat × CarryEntry)} (h : Ok q s) : Ok q (s.setCarry v) := ⟨h.1, h.2, h.3, h.4, h.5, h.6⟩
theorem State.setTiles_ok {v : List (Nat × Tile)} (h : Ok q s) : Ok q (s.setTiles v) := ⟨h.1, h.2, h.3, h.4, h.5, h.6⟩
theorem State.setEdges_ok {v : List (Nat × FabQueue)} (h : Ok q s) : Ok q (s.setEdges v) := ⟨h.1, h.2, h.3, h.4, h.5, h.6⟩
theorem State.setGws_ok {v : List (Nat × FabQueue)} (h : Ok q s) : Ok q (s.setGws v) := ⟨h.1, h.2, h.3, h.4, h.5, h.6⟩
theorem State.setSpine_ok {v : List (Nat × W32)} (h : Ok q s) : Ok q (s.setSpine v) := ⟨h.1, h.2, h.3, h.4, h.5, h.6⟩
theorem State.setSpineBad_ok {v : List (Nat × Bool)} (h : Ok q s) : Ok q (s.setSpineBad v) := ⟨h.1, h.2, h.3, h.4, h.5, h.6⟩
theorem State.setSeqs_ok {v : List (Nat × SeqSt)} (h : Ok q s) : Ok q (s.setSeqs v) := ⟨h.1, h.2, h.3, h.4, h.5, h.6⟩
theorem State.setCores_ok {v : List (Nat × CoreSt)} (h : Ok q s) : Ok q (s.setCores v) := ⟨h.1, h.2, h.3, h.4, h.5, h.6⟩
theorem State.setThreads_ok {v : List (Nat × VThread)} (h : Ok q s) : Ok q (s.setThreads v) := ⟨h.1, h.2, h.3, h.4, h.5, h.6⟩
theorem State.setVtCopy_ok {v : List (Nat × VtCopy)} (h : Ok q s) : Ok q (s.setVtCopy v) := ⟨h.1, h.2, h.3, h.4, h.5, h.6⟩
theorem State.setSync_ok {v : SyncState} (h : Ok q s) : Ok q (s.setSync v) := ⟨h.1, h.2, h.3, h.4, h.5, h.6⟩
theorem State.setSol_ok {v : SolState} (h : Ok q s) : Ok q (s.setSol v) := ⟨h.1, h.2, h.3, h.4, h.5, h.6⟩
theorem State.setQsk_ok {v : QskState} (h : Ok q s) : Ok q (s.setQsk v) := ⟨h.1, h.2, h.3, h.4, h.5, h.6⟩
theorem State.setWires_ok {v : List (Nat × List QWord)} (h : Ok q s) : Ok q (s.setWires v) := ⟨h.1, h.2, h.3, h.4, h.5, h.6⟩
theorem State.setFlits_ok {v : List (Nat × List (Nat × QWord))} (h : Ok q s) : Ok q (s.setFlits v) := ⟨h.1, h.2, h.3, h.4, h.5, h.6⟩
theorem State.setRbufs_ok {v : List (Nat × RowBuf)} (h : Ok q s) : Ok q (s.setRbufs v) := ⟨h.1, h.2, h.3, h.4, h.5, h.6⟩
theorem State.setFstr_ok {v : List (Nat × FStream)} (h : Ok q s) : Ok q (s.setFstr v) := ⟨h.1, h.2, h.3, h.4, h.5, h.6⟩
theorem State.setCodec_ok {v : List (Nat × List QWord)} (h : Ok q s) : Ok q (s.setCodec v) := ⟨h.1, h.2, h.3, h.4, h.5, h.6⟩
theorem State.setReqs_ok {v : List (Nat × ReqSt)} (h : Ok q s) : Ok q (s.setReqs v) := ⟨h.1, h.2, h.3, h.4, h.5, h.6⟩
theorem State.setNextReq_ok {v : Nat} (h : Ok q s) : Ok q (s.setNextReq v) := ⟨h.1, h.2, h.3, h.4, h.5, h.6⟩
theorem State.setHeld_ok {v : List HeldPart} (h : Ok q s) : Ok q (s.setHeld v) := ⟨h.1, h.2, h.3, h.4, h.5, h.6⟩
theorem State.setLoad_ok {v : Option LoadJob} (h : Ok q s) : Ok q (s.setLoad v) := ⟨h.1, h.2, h.3, h.4, h.5, h.6⟩
theorem State.setUnitGw_ok {v : List (Nat × W64)} (h : Ok q s) : Ok q (s.setUnitGw v) := ⟨h.1, h.2, h.3, h.4, h.5, h.6⟩
theorem State.setOtp_ok {v : Otp} (h : Ok q s) : Ok q (s.setOtp v) := ⟨h.1, h.2, h.3, h.4, h.5, h.6⟩
theorem State.setBgw_ok {v : Gateway} (h : Ok q s) : Ok q (s.setBgw v) := ⟨h.1, h.2, h.3, h.4, h.5, h.6⟩
theorem State.setIsl_ok {v : Island} (h : Ok q s) : Ok q (s.setIsl v) := ⟨h.1, h.2, h.3, h.4, h.5, h.6⟩
theorem State.setLearn_ok {v : Learn} (h : Ok q s) : Ok q (s.setLearn v) := ⟨h.1, h.2, h.3, h.4, h.5, h.6⟩
theorem State.setStw_ok {v : Stw} (h : Ok q s) : Ok q (s.setStw v) := ⟨h.1, h.2, h.3, h.4, h.5, h.6⟩
theorem State.setEv_ok {v : EvState} (h : Ok q s) : Ok q (s.setEv v) := ⟨h.1, h.2, h.3, h.4, h.5, h.6⟩

theorem State.setWord_ok {o : Nat} {v : W64} (h : Ok q s) : Ok q (s.setWord o v) :=
  ⟨h.1, State.regsWf_setWord _ _ _ h.2, h.3, h.4, h.5, h.6⟩

theorem State.setRegs_drop_ok {p : Nat → Bool} (h : Ok q s) : Ok q (s.setRegs (SMap.drop p s.regs)) :=
  ⟨h.1, SMap.wf_drop _ _ _ h.2, h.3, h.4, h.5, h.6⟩

theorem State.setMem_drop_ok {p : Nat → Bool} (h : Ok q s) : Ok q (s.setMem (SMap.drop p s.mem)) :=
  ⟨SMap.wf_drop _ _ _ h.1, h.2, h.3, h.4, h.5, h.6⟩

theorem State.wrByte_ok {a : Nat} {b : Byte} (h : Ok q s) : Ok q (s.wrByte a b) := ⟨SMap.wf_put _ _ _ _ h.1, h.2, h.3, h.4, h.5, h.6⟩

theorem State.setEccAt_ok {a : Nat} {e : EccState} (h : Ok q s) : Ok q (s.setEccAt a e) :=
  ⟨h.1, h.2, h.3, SMap.wf_put _ _ _ _ h.4, h.5, h.6⟩

theorem State.setEcc_drop_ok {p : Nat → Bool} (h : Ok q s) : Ok q (s.setEcc (SMap.drop p s.ecc)) :=
  ⟨h.1, h.2, h.3, SMap.wf_drop _ _ _ h.4, h.5, h.6⟩

theorem State.setFlt_ok {v : FltState} (h : Ok q s) (hp : v.pend = s.flt.pend) : Ok q (s.setFlt v) :=
  ⟨h.1, h.2, h.3, h.4, by rw [State.setFlt_flt, hp]; exact h.5, by rw [State.setFlt_flt, hp]; exact h.6⟩

theorem State.setFlt_nil_ok (h : Ok q s) : Ok q (s.setFlt { pend := [] }) :=
  ⟨h.1, h.2, h.3, h.4, Nat.zero_le _, Nat.zero_le _⟩

theorem State.wrBytes_ok {a : Nat} {bs : List Byte} (h : Ok q s) : Ok q (s.wrBytes a bs) := by
  induction bs generalizing s a with
  | nil => exact h
  | cons b bs ih => exact ih (State.wrByte_ok h)

end Sys2Proof.Machine
end

