-- ==== Sys2Proof/Laws/Keep/Ops.lean ====
section
/-!
SUPPORT. What the operations of Machine/Ops.lean keep.
-/

namespace Sys2Proof.Machine

theorem State.setF_ok {Q : List Instr} (s : State) (f : Fld) (v : Nat) (hok : Ok Q s) : Ok Q (State.setF s f v) := by
  unfold State.setF
  with_reducible repeat' (first | assumption | apply State.setWord_ok)

theorem State.setI_ok {Q : List Instr} (s : State) (f : Fld) (x : Int) (hok : Ok Q s) : Ok Q (State.setI s f x) := by
  unfold State.setI
  with_reducible repeat' (first | assumption | apply State.setF_ok)

theorem State.addF_ok {Q : List Instr} (s : State) (f : Fld) (n : Nat) (hok : Ok Q s) : Ok Q (State.addF s f n) := by
  unfold State.addF
  with_reducible repeat' (first | assumption | apply State.setF_ok)

theorem State.addSat_ok {Q : List Instr} (s : State) (f : Fld) (n : Nat) (hok : Ok Q s) : Ok Q (State.addSat s f n) := by
  unfold State.addSat
  with_reducible repeat' (first | assumption | apply State.setF_ok)

theorem State.clearRc_ok {Q : List Instr} (s : State) (h : Half) (off : Nat) (hok : Ok Q s) : Ok Q (State.clearRc s h off) := by
  unfold State.clearRc
  with_reducible repeat' (first | assumption | apply State.setWord_ok | apply foldl_ok | apply foldl_ok1 | apply ite_ok | apply ite_ok1 | apply ite_next | apply next_ok | intro _ | dsimp only | split)

theorem State.readRc_ok {Q : List Instr} (s : State) (h : Half) (f : Fld) (hok : Ok Q s) : Ok Q (State.readRc s h f).1 := by
  unfold State.readRc
  with_reducible repeat' (first | assumption | apply State.clearRc_ok | apply foldl_ok | apply foldl_ok1 | apply ite_ok | apply ite_ok1 | apply ite_next | apply next_ok | intro _ | dsimp only | split)

theorem State.plainWrite_ok {Q : List Instr} (s : State) (off : Nat) (w : WriteReq) (hok : Ok Q s) : Ok Q (State.plainWrite s off w) := by
  unfold State.plainWrite
  with_reducible repeat' (first | assumption | apply State.setWord_ok)

theorem State.answer_ok {Q : List Instr} (s : State) (st : Status) (v : W64) (hok : Ok Q s) : Ok Q (State.answer s st v) := by
  unfold State.answer
  with_reducible repeat' (first | assumption | apply State.setResp_ok)

theorem State.deny_ok {Q : List Instr} (s : State) (a : Agent) (h : Half) (off : Nat) (hok : Ok Q s) : Ok Q (State.deny s a h off) := by
  unfold State.deny
  with_reducible repeat' (first | assumption | apply State.addSat_ok | apply State.answer_ok | apply State.setDenyArmed_ok | apply State.setF_ok | apply foldl_ok | apply foldl_ok1 | apply ite_ok | apply ite_ok1 | apply ite_next | apply next_ok | intro _ | dsimp only | split)

theorem State.gated_ok {Q : List Instr} (s : State) (a : Agent) (h : Half) (off : Nat) (eff : State → State) (heff : ∀ s, Ok Q s → Ok Q (eff s)) (hok : Ok Q s) : Ok Q (State.gated s a h off eff) := by
  unfold State.gated
  with_reducible repeat' (first | assumption | apply heff | apply State.answer_ok | apply State.deny_ok | apply foldl_ok | apply foldl_ok1 | apply ite_ok | apply ite_ok1 | apply ite_next | apply next_ok | intro _)

theorem State.gatedAct_ok {Q : List Instr} (s : State) (a : Agent) (h : Half) (off : Nat) (eff : State → State) (heff : ∀ s, Ok Q s → Ok Q (eff s)) (hok : Ok Q s) : Ok Q (State.gatedAct s a h off eff) := by
  unfold State.gatedAct
  with_reducible repeat' (first | assumption | apply heff | apply State.gated_ok | apply foldl_ok | apply foldl_ok1 | apply ite_ok | apply ite_ok1 | apply ite_next | apply next_ok | intro _)

theorem State.ticks_ok {Q : List Instr} (s : State) (n : Nat) (hok : Ok Q s) : Ok Q (State.ticks s n) := by
  unfold State.ticks
  with_reducible repeat' (first | assumption | apply State.setAlm_ok)

theorem State.crystals_ok {Q : List Instr} (s : State) (n : Nat) (hok : Ok Q s) : Ok Q (State.crystals s n) := by
  unfold State.crystals
  with_reducible repeat' (first | assumption | apply State.setAlm_ok)

theorem State.reach_ok {Q : List Instr} (s : State) (t : Nat) (hok : Ok Q s) : Ok Q (State.reach s t) := by
  unfold State.reach
  with_reducible repeat' (first | assumption | apply State.crystals_ok | apply State.ticks_ok | apply foldl_ok | apply foldl_ok1 | apply ite_ok | apply ite_ok1 | apply ite_next | apply next_ok | intro _)

theorem State.elapse_ok {Q : List Instr} (s : State) (d : Nat) (hok : Ok Q s) : Ok Q (State.elapse s d) := by
  unfold State.elapse
  with_reducible repeat' (first | assumption | apply State.reach_ok)

theorem State.emit_ok {Q : List Instr} (s : State) (m : OutMsg) (hok : Ok Q s) : Ok Q (State.emit s m) := by
  unfold State.emit
  with_reducible repeat' (first | assumption | apply State.setOut_ok)

theorem State.putMsix_ok {Q : List Instr} (s : State) (off : Nat) (v : W64) (hok : Ok Q s) : Ok Q (State.putMsix s off v) := by
  unfold State.putMsix
  with_reducible repeat' (first | assumption | apply State.setStw_ok)

theorem State.sendMsix_ok {Q : List Instr} (s : State) (v : Nat) (hok : Ok Q s) : Ok Q (State.sendMsix s v) := by
  unfold State.sendMsix
  with_reducible repeat' (first | assumption | apply State.emit_ok | apply State.putMsix_ok | apply foldl_ok | apply foldl_ok1 | apply ite_ok | apply ite_ok1 | apply ite_next | apply next_ok | intro _)

theorem State.irqSource_ok {Q : List Instr} (s : State) (src : Nat) (hok : Ok Q s) : Ok Q (State.irqSource s src) := by
  unfold State.irqSource
  with_reducible repeat' (first | assumption | apply State.sendMsix_ok | apply State.setIrq_ok | apply foldl_ok | apply foldl_ok1 | apply ite_ok | apply ite_ok1 | apply ite_next | apply next_ok | intro _)

theorem State.irqSteward_ok {Q : List Instr} (s : State) (cause : Nat) (hok : Ok Q s) : Ok Q (State.irqSteward s cause) := by
  unfold State.irqSteward
  with_reducible repeat' (first | assumption | apply State.setIrq_ok)

theorem State.fltAssert_ok {Q : List Instr} (s : State) (d : Nat) (hok : Ok Q s) : Ok Q (State.fltAssert s d) := by
  unfold State.fltAssert
  with_reducible repeat' (first | assumption | exact rfl | apply State.irqSource_ok | apply State.irqSteward_ok | apply State.sendMsix_ok | apply State.setFlt_ok | apply foldl_ok | apply foldl_ok1 | apply ite_ok | apply ite_ok1 | apply ite_next | apply next_ok | intro _)

theorem State.fltVisible1_ok {Q : List Instr} (cls d : Nat) (s : State) (hok : Ok Q s) : Ok Q (State.fltVisible1 cls d s) := by
  unfold State.fltVisible1
  with_reducible repeat' (first | assumption | apply State.fltAssert_ok | apply State.setF_ok | apply foldl_ok | apply foldl_ok1 | apply ite_ok | apply ite_ok1 | apply ite_next | apply next_ok | intro _)

theorem State.fltVisible_ok {Q : List Instr} (s : State) (cls : Nat) (hok : Ok Q s) : Ok Q (State.fltVisible s cls) := by
  unfold State.fltVisible
  with_reducible repeat' (first | assumption | apply State.fltVisible1_ok)

theorem State.fltSpecial1_ok {Q : List Instr} (f : Nat → Fld) (d : Nat) (s : State) (hok : Ok Q s) : Ok Q (State.fltSpecial1 f d s) := by
  unfold State.fltSpecial1
  with_reducible repeat' (first | assumption | apply State.fltAssert_ok | apply State.setF_ok | apply foldl_ok | apply foldl_ok1 | apply ite_ok | apply ite_ok1 | apply ite_next | apply next_ok | intro _)

theorem State.fltSpecial_ok {Q : List Instr} (s : State) (f : Nat → Fld) (hok : Ok Q s) : Ok Q (State.fltSpecial s f) := by
  unfold State.fltSpecial
  with_reducible repeat' (first | assumption | apply State.fltSpecial1_ok)

theorem State.fltLevel_ok {Q : List Instr} (s : State) (d : Nat) (hok : Ok Q s) : Ok Q (State.fltLevel s d) := by
  unfold State.fltLevel
  with_reducible repeat' (first | assumption | apply State.fltAssert_ok | apply State.setFlt_ok | apply State.setIrq_ok | apply foldl_ok | apply foldl_ok1 | apply ite_ok | apply ite_ok1 | apply ite_next | apply next_ok | intro _ | dsimp only | split)

theorem State.lastDevice_ok {Q : List Instr} (s : State) (r : FaultRec) (hok : Ok Q s) : Ok Q (State.lastDevice s r) := by
  unfold State.lastDevice
  with_reducible repeat' (first | assumption | apply State.setF_ok | apply foldl_ok | apply foldl_ok1 | apply ite_ok | apply ite_ok1 | apply ite_next | apply next_ok | intro _)

theorem pendCount_append (p : List FaultRec) (r : FaultRec) (h : r.summary = none) :
    pendCount (p ++ [r]) = pendCount p + 1 := by
  simp [pendCount, List.filter_append, h]

theorem countLost_pend (p : List FaultRec) (cls time dev : Nat) : pendCount (countLost p cls time dev) = pendCount p := by
  unfold countLost
  split
  · unfold pendCount
    rw [List.filter_map, List.length_map]
    congr 2
    funext r
    rcases hr : r.summary with _ | cs <;> simp [hr, mkSummary]
  · simp [pendCount, List.filter_append, mkSummary]

theorem countLost_summary (p : List FaultRec) (cls time dev : Nat)
    (h : (p.filter (fun r => r.summary.isSome)).length ≤ 1) :
    ((countLost p cls time dev).filter (fun r => r.summary.isSome)).length ≤ 1 := by
  unfold countLost
  split
  · refine Nat.le_trans (Nat.le_of_eq ?_) h
    rw [List.filter_map, List.length_map]
    congr 2
    funext r
    rcases hr : r.summary with _ | cs <;> simp [hr, mkSummary]
  · rename_i hp
    simp only [List.any_eq_true, not_exists, not_and] at hp
    have : p.filter (fun r => r.summary.isSome) = [] := by
      rw [List.filter_eq_nil_iff]; exact fun a ha => hp a ha
    simp [List.filter_append, this, mkSummary]

theorem State.raise_ok {Q : List Instr} (s : State) (r0 : FaultRec) (hok : Ok Q s) : Ok Q (State.raise s r0) := by
  unfold State.raise
  dsimp only
  have h1 : Ok Q (if r0.cls = 4 then s.lastDevice { r0 with devnum := s.getF Reg.MGT_DEVNUM, summary := none } else s) :=
    ite_ok (fun _ => State.lastDevice_ok _ _ hok) (fun _ => hok)
  generalize (if r0.cls = 4 then s.lastDevice { r0 with devnum := s.getF Reg.MGT_DEVNUM, summary := none } else s) = u at *
  obtain ⟨lim, hl, hlim⟩ : ∃ lim, (if r0.cls = 0 then 96 else 127) = lim ∧ lim ≤ 127 := ⟨_, rfl, by split <;> omega⟩
  rw [hl]
  split
  · rename_i hn
    refine ⟨h1.1, h1.2, h1.3, h1.4, ?_, ?_⟩
    · rw [State.setFlt_flt]; dsimp only; rw [pendCount_append _ _ rfl]; omega
    · simpa [List.filter_append] using h1.6
  · apply State.fltSpecial_ok
    have h2 := State.addSat_ok u (Reg.FLT_LOST_C r0.cls) 1 h1
    generalize u.addSat (Reg.FLT_LOST_C r0.cls) 1 = v at *
    refine ⟨h2.1, h2.2, h2.3, h2.4, ?_, ?_⟩
    · rw [State.setFlt_flt]; dsimp only; rw [countLost_pend]; exact h1.5
    · rw [State.setFlt_flt]; dsimp only; exact countLost_summary _ _ _ _ h1.6

theorem State.report_ok {Q : List Instr} (s : State) (cls code unit : Nat) (detail : List (Nat × Nat)) (hok : Ok Q s) : Ok Q (State.report s cls code unit detail) := by
  unfold State.report
  with_reducible repeat' (first | assumption | apply State.raise_ok)

theorem State.reportP_ok {Q : List Instr} (s : State) (cls code unit pipe : Nat) (detail : List (Nat × Nat)) (hok : Ok Q s) : Ok Q (State.reportP s cls code unit pipe detail) := by
  unfold State.reportP
  with_reducible repeat' (first | assumption | apply State.raise_ok)

theorem State.powerRefuse_ok {Q : List Instr} (s : State) (d off value cause : Nat) (hok : Ok Q s) : Ok Q (State.powerRefuse s d off value cause) := by
  unfold State.powerRefuse
  with_reducible repeat' (first | assumption | apply State.report_ok)

theorem State.freeNext_ok {Q : List Instr} (s : State) (hok : Ok Q s) : Ok Q (State.freeNext s) := by
  unfold State.freeNext
  with_reducible repeat' (first | assumption | apply State.setFree_ok)

theorem State.setCoreMove_ok {Q : List Instr} (s : State) (c m : Nat) (hok : Ok Q s) : Ok Q (State.setCoreMove s c m) := by
  unfold State.setCoreMove
  with_reducible repeat' (first | assumption | apply State.setF_ok | apply State.setPwr_ok | apply foldl_ok | apply foldl_ok1 | apply ite_ok | apply ite_ok1 | apply ite_next | apply next_ok | intro _ | dsimp only | split)

theorem State.busyCore_ok {Q : List Instr} (s : State) (c : Nat) (hok : Ok Q s) : Ok Q (State.busyCore s c) := by
  unfold State.busyCore
  with_reducible repeat' (first | assumption | apply State.setCoreMove_ok | apply foldl_ok | apply foldl_ok1 | apply ite_ok | apply ite_ok1 | apply ite_next | apply next_ok | intro _ | dsimp only | split)

end Sys2Proof.Machine
end

