-- ==== Sys2Proof/Laws/Keep/Memory.lean ====
section
/-!
SUPPORT. What the operations of Machine/Memory.lean keep.
-/

namespace Sys2Proof.Machine

theorem State.hostPut_ok {Q : List Instr} (s : State) (off : Nat) (bs : List Byte) (hok : Ok Q s) : Ok Q (State.hostPut s off bs) := by
  unfold State.hostPut
  with_reducible repeat' (first | assumption | apply State.setSync_ok | apply State.wrBytes_ok | apply foldl_ok | apply foldl_ok1 | apply ite_ok | apply ite_ok1 | apply ite_next | apply next_ok | intro _ | dsimp only | split)

theorem State.eccCount_ok {Q : List Instr} (s : State) (g off kind : Nat) (hok : Ok Q s) : Ok Q (State.eccCount s g off kind) := by
  unfold State.eccCount
  with_reducible repeat' (first | assumption | apply State.addSat_ok | apply State.setF_ok)

theorem State.hbmReadAs_ok {Q : List Instr} (s : State) (g off req tag : Nat) (bs : List Byte) (e : EccState) (seen : EccSeen) (retry : Option EccSeen) (hok : Ok Q s) : Ok Q (State.hbmReadAs s g off req tag bs e seen retry).1 := by
  unfold State.hbmReadAs
  with_reducible repeat' (first | assumption | apply State.eccCount_ok | apply State.report_ok | apply foldl_ok | apply foldl_ok1 | apply ite_ok | apply ite_ok1 | apply ite_next | apply next_ok | intro _ | dsimp only | split)

theorem State.hbmReadStored_ok {Q : List Instr} (s : State) (g off req : Nat) (seen : EccSeen) (hok : Ok Q s) : Ok Q (State.hbmReadStored s g off req seen).1 := by
  unfold State.hbmReadStored
  with_reducible repeat' (first | assumption | apply State.freeNext_ok | apply State.hbmReadAs_ok | apply foldl_ok | apply foldl_ok1 | apply ite_ok | apply ite_ok1 | apply ite_next | apply next_ok | intro _ | dsimp only | split)

theorem State.inject_ok {Q : List Instr} (s : State) (g off : Nat) (hok : Ok Q s) : Ok Q (State.inject s g off) := by
  unfold State.inject
  with_reducible repeat' (first | assumption | apply State.setEccAt_ok | apply State.setF_ok | apply State.wrByte_ok | apply foldl_ok | apply foldl_ok1 | apply ite_ok | apply ite_ok1 | apply ite_next | apply next_ok | intro _)

theorem State.hbmWriteFull_ok {Q : List Instr} (s : State) (g off : Nat) (bs : List Byte) (hok : Ok Q s) : Ok Q (State.hbmWriteFull s g off bs) := by
  unfold State.hbmWriteFull
  with_reducible repeat' (first | assumption | apply State.inject_ok | apply State.setEccAt_ok | apply State.wrBytes_ok)

theorem State.hbmMerge_ok {Q : List Instr} (s : State) (g off : Nat) (bs : List (Nat × Byte)) (seen retry : EccSeen) (hok : Ok Q s) : Ok Q (State.hbmMerge s g off bs seen retry).1 := by
  unfold State.hbmMerge
  with_reducible repeat' (first | assumption | apply State.eccCount_ok | apply State.inject_ok | apply State.report_ok | apply State.setEccAt_ok | apply State.wrByte_ok | apply foldl_ok | apply foldl_ok1 | apply ite_ok | apply ite_ok1 | apply ite_next | apply next_ok | intro _ | dsimp only | split)

theorem State.putReq_ok {Q : List Instr} (s : State) (id : Nat) (r : ReqSt) (hok : Ok Q s) : Ok Q (State.putReq s id r) := by
  unfold State.putReq
  with_reducible repeat' (first | assumption | apply State.setReqs_ok)

theorem State.putGw_ok {Q : List Instr} (s : State) (g dir code : Nat) (v : FabQueue) (hok : Ok Q s) : Ok Q (State.putGw s g dir code v) := by
  unfold State.putGw
  with_reducible repeat' (first | assumption | apply State.setGws_ok | apply foldl_ok | apply foldl_ok1 | apply ite_ok | apply ite_ok1 | apply ite_next | apply next_ok | intro _ | dsimp only | split)

theorem State.returnWord_ok {Q : List Instr} (s : State) (g : Nat) (code : Option Nat) (data : W64) (tag : Byte) (mark : Bool) (hok : Ok Q s) : Ok Q (State.returnWord s g code data tag mark) := by
  unfold State.returnWord
  with_reducible repeat' (first | assumption | apply State.emit_ok | apply State.putGw_ok | apply foldl_ok | apply foldl_ok1 | apply ite_ok | apply ite_ok1 | apply ite_next | apply next_ok | intro _ | dsimp only | split)

theorem State.setChanReqs_ok {Q : List Instr} (s : State) (g : Nat) (rs : List ChanReq) (hok : Ok Q s) : Ok Q (State.setChanReqs s g rs) := by
  unfold State.setChanReqs
  with_reducible repeat' (first | assumption | apply State.setHbm_ok | apply foldl_ok | apply foldl_ok1 | apply ite_ok | apply ite_ok1 | apply ite_next | apply next_ok | intro _ | dsimp only | split)

theorem State.settleReturns_ok {Q : List Instr} (s : State) (g : Nat) (hok : Ok Q s) : Ok Q (State.settleReturns s g) := by
  unfold State.settleReturns
  with_reducible repeat' (first | assumption | apply State.returnWord_ok | apply State.setChanReqs_ok | apply foldl_ok | apply foldl_ok | apply foldl_ok1 | apply ite_ok | apply ite_ok1 | apply ite_next | apply next_ok | intro _ | dsimp only | split)

theorem State.deliver_ok {Q : List Instr} (s : State) (r : ReqSt) (id : Nat) (hok : Ok Q s) : Ok Q (State.deliver s r id) := by
  unfold State.deliver
  with_reducible repeat' (first | assumption | apply State.emit_ok | apply State.setChanReqs_ok | apply State.setF_ok | apply State.setResp_ok | apply State.setThreads_ok | apply State.settleReturns_ok | apply foldl_ok | apply foldl_ok1 | apply ite_ok | apply ite_ok1 | apply ite_next | apply next_ok | intro _ | dsimp only | split)

theorem State.finishPart_ok {Q : List Instr} (s : State) (id pos : Nat) (bs : List Byte) (st : Status) (hok : Ok Q s) : Ok Q (State.finishPart s id pos bs st) := by
  unfold State.finishPart
  with_reducible repeat' (first | assumption | apply State.deliver_ok | apply State.putReq_ok | apply foldl_ok | apply foldl_ok1 | apply ite_ok | apply ite_ok1 | apply ite_next | apply next_ok | intro _)

theorem State.forFrame_ok {Q : List Instr} (s : State) (id : Nat) (fr : Option (Nat × Nat)) (hok : Ok Q s) : Ok Q (State.forFrame s id fr) := by
  unfold State.forFrame
  with_reducible repeat' (first | assumption | apply State.putReq_ok | apply foldl_ok | apply foldl_ok1 | apply ite_ok | apply ite_ok1 | apply ite_next | apply next_ok | intro _ | dsimp only | split)

theorem State.disownStores_ok {Q : List Instr} (s : State) (c j : Nat) (hok : Ok Q s) : Ok Q (State.disownStores s c j) := by
  unfold State.disownStores
  with_reducible repeat' (first | assumption | apply State.putReq_ok | apply foldl_ok | apply foldl_ok | apply foldl_ok1 | apply ite_ok | apply ite_ok1 | apply ite_next | apply next_ok | intro _ | dsimp only | split)

theorem State.addPart_ok {Q : List Instr} (s : State) (id : Nat) (hok : Ok Q s) : Ok Q (State.addPart s id) := by
  unfold State.addPart
  with_reducible repeat' (first | assumption | apply State.putReq_ok)

theorem State.setWcb_ok {Q : List Instr} (s : State) (m : Nat) (es : List WcbEntry) (hok : Ok Q s) : Ok Q (State.setWcb s m es) := by
  unfold State.setWcb
  with_reducible repeat' (first | assumption | apply State.setF_ok | apply State.setHbm_ok)

theorem State.setWcbWaits_ok {Q : List Instr} (s : State) (m : Nat) (ws : List WcbWait) (hok : Ok Q s) : Ok Q (State.setWcbWaits s m ws) := by
  unfold State.setWcbWaits
  with_reducible repeat' (first | assumption | apply State.setHbm_ok)

theorem State.keepFor_ok {Q : List Instr} (s : State) (g off id : Nat) (hok : Ok Q s) : Ok Q (State.keepFor s g off id) := by
  unfold State.keepFor
  with_reducible repeat' (first | assumption | apply State.setChanReqs_ok | apply foldl_ok | apply foldl_ok1 | apply ite_ok | apply ite_ok1 | apply ite_next | apply next_ok | intro _ | dsimp only | split)

theorem State.hbmWriteDirect_ok {Q : List Instr} (s : State) (g off : Nat) (bs : List Byte) (hok : Ok Q s) : Ok Q (State.hbmWriteDirect s g off bs) := by
  unfold State.hbmWriteDirect
  with_reducible repeat' (first | assumption | apply State.hbmWriteFull_ok | apply State.keepFor_ok | apply State.setWcbWaits_ok | apply foldl_ok | apply foldl_ok1 | apply ite_ok | apply ite_ok1 | apply ite_next | apply next_ok | intro _ | dsimp only | split)

theorem State.wcbPut_ok {Q : List Instr} (s : State) (g line : Nat) (bs : List (Nat × Option Byte)) (id : Option Nat) (hok : Ok Q s) : Ok Q (State.wcbPut s g line bs id) := by
  unfold State.wcbPut
  with_reducible repeat' (first | assumption | apply State.addF_ok | apply State.setWcbWaits_ok | apply State.setWcb_ok | apply foldl_ok | apply foldl_ok1 | apply ite_ok | apply ite_ok1 | apply ite_next | apply next_ok | intro _ | dsimp only | split)

theorem State.wcbStore_ok {Q : List Instr} (s : State) (g : Nat) (e : WcbEntry) (seen : List (EccSeen × EccSeen)) (hok : Ok Q s) : Ok Q (State.wcbStore s g e seen).1 := by
  unfold State.wcbStore
  with_reducible repeat' (first | assumption | apply State.hbmMerge_ok | apply State.hbmWriteFull_ok | apply State.keepFor_ok | apply foldl_ok | apply foldl_ok | apply foldl_ok1 | apply ite_ok | apply ite_ok1 | apply ite_next | apply next_ok | intro _ | dsimp only | split)

theorem State.wcbAdmit1_ok {Q : List Instr} (s : State) (m : Nat) (w : WcbWait) (hok : Ok Q s) : Ok Q (State.wcbAdmit1 s m w) := by
  unfold State.wcbAdmit1
  with_reducible repeat' (first | assumption | apply State.setWcbWaits_ok | apply State.setWcb_ok | apply foldl_ok | apply foldl_ok1 | apply ite_ok | apply ite_ok1 | apply ite_next | apply next_ok | intro _ | dsimp only | split)

theorem State.wcbAdmit_ok {Q : List Instr} (s : State) (m : Nat) (hok : Ok Q s) : Ok Q (State.wcbAdmit s m) := by
  unfold State.wcbAdmit
  with_reducible repeat' (first | assumption | apply State.setWcbWaits_ok | apply State.wcbAdmit1_ok | apply foldl_ok | apply foldl_ok | apply foldl_ok1 | apply ite_ok | apply ite_ok1 | apply ite_next | apply next_ok | intro _ | dsimp only | split)

theorem State.notifyWriters_ok {Q : List Instr} (s : State) (ws : List (Nat × Nat)) (st : Nat → Status) (hok : Ok Q s) : Ok Q (State.notifyWriters s ws st) := by
  unfold State.notifyWriters
  with_reducible repeat' (first | assumption | apply State.finishPart_ok | apply foldl_ok | apply foldl_ok | apply foldl_ok1 | apply ite_ok | apply ite_ok1 | apply ite_next | apply next_ok | intro _ | dsimp only | split)

theorem State.wcbRelieve_ok {Q : List Instr} (s : State) (m : Nat) (hok : Ok Q s) : Ok Q (State.wcbRelieve s m) := by
  unfold State.wcbRelieve
  with_reducible repeat' (first | assumption | apply State.setWcb_ok | apply foldl_ok | apply foldl_ok1 | apply ite_ok | apply ite_ok1 | apply ite_next | apply next_ok | intro _ | dsimp only | split)

theorem State.wcbComplete_ok {Q : List Instr} (s : State) (m : Nat) (e : WcbEntry) (seen : List (EccSeen × EccSeen)) (hok : Ok Q s) : Ok Q (State.wcbComplete s m e seen) := by
  unfold State.wcbComplete
  with_reducible repeat' (first | assumption | apply State.addF_ok | apply State.notifyWriters_ok | apply State.setWcb_ok | apply State.wcbAdmit_ok | apply State.wcbRelieve_ok | apply State.wcbStore_ok | apply foldl_ok | apply foldl_ok1 | apply ite_ok | apply ite_ok1 | apply ite_next | apply next_ok | intro _ | dsimp only | split)

theorem State.wcbForce_ok {Q : List Instr} (s : State) (m : Nat) (e : WcbEntry) (hok : Ok Q s) : Ok Q (State.wcbForce s m e) := by
  unfold State.wcbForce
  with_reducible repeat' (first | assumption | apply State.freeNext_ok | apply State.wcbComplete_ok | apply foldl_ok | apply foldl_ok1 | apply ite_ok | apply ite_ok1 | apply ite_next | apply next_ok | intro _ | dsimp only | split)

theorem State.wcbDrainLine_ok {Q : List Instr} (s : State) (g line : Nat) (hok : Ok Q s) : Ok Q (State.wcbDrainLine s g line) := by
  unfold State.wcbDrainLine
  with_reducible repeat' (first | assumption | apply State.setWcbWaits_ok | apply State.wcbForce_ok | apply foldl_ok | apply foldl_ok | apply foldl_ok1 | apply ite_ok | apply ite_ok1 | apply ite_next | apply next_ok | intro _ | dsimp only | split)

theorem State.chanWriteWord_ok {Q : List Instr} (s : State) (g off : Nat) (bs : List Byte) (hok : Ok Q s) : Ok Q (State.chanWriteWord s g off bs) := by
  unfold State.chanWriteWord
  with_reducible repeat' (first | assumption | apply State.hbmWriteDirect_ok | apply State.wcbPut_ok | apply foldl_ok | apply foldl_ok1 | apply ite_ok | apply ite_ok1 | apply ite_next | apply next_ok | intro _ | dsimp only | split)

theorem State.addrInvalid_ok {Q : List Instr} (s : State) (a : Nat) (req : Nat := 0) (hok : Ok Q s) : Ok Q (State.addrInvalid s a req) := by
  unfold State.addrInvalid
  with_reducible repeat' (first | assumption | apply State.report_ok)

theorem State.storeMeet_ok {Q : List Instr} (s : State) (c off n who : Nat) (hok : Ok Q s) : Ok Q (State.storeMeet s c off n who).1 := by
  unfold State.storeMeet
  with_reducible repeat' (first | assumption | apply State.addF_ok | apply State.report_ok | apply foldl_ok | apply foldl_ok1 | apply ite_ok | apply ite_ok1 | apply ite_next | apply next_ok | intro _ | dsimp only | split)

theorem State.storePut_ok {Q : List Instr} (s : State) (c off who : Nat) (bs : List Byte) (seen : EccSeen := .clean) (hok : Ok Q s) : Ok Q (State.storePut s c off who bs seen).1 := by
  unfold State.storePut
  with_reducible repeat' (first | assumption | apply State.addF_ok | apply State.report_ok | apply State.setEccAt_ok | apply State.wrBytes_ok | apply foldl_ok | apply foldl_ok | apply foldl_ok1 | apply ite_ok | apply ite_ok1 | apply ite_next | apply next_ok | intro _ | dsimp only | split)

theorem State.unitAbsent_ok {Q : List Instr} (s : State) (c a : Nat) (hok : Ok Q s) : Ok Q (State.unitAbsent s c a) := by
  unfold State.unitAbsent
  with_reducible repeat' (first | assumption | apply State.report_ok | apply foldl_ok | apply foldl_ok1 | apply ite_ok | apply ite_ok1 | apply ite_next | apply next_ok | intro _ | dsimp only | split)

theorem State.unitHold_ok {Q : List Instr} (s : State) (c a : Nat) (bs : List Byte) (hok : Ok Q s) : Ok Q (State.unitHold s c a bs) := by
  unfold State.unitHold
  with_reducible repeat' (first | assumption | apply State.putReq_ok | apply State.setHeld_ok | apply State.setNextReq_ok | apply foldl_ok | apply foldl_ok1 | apply ite_ok | apply ite_ok1 | apply ite_next | apply next_ok | intro _ | dsimp only | split)

theorem State.unitWait_ok {Q : List Instr} (s : State) (c : Nat) (hok : Ok Q s) : Ok Q (State.unitWait s c).1 := by
  unfold State.unitWait
  with_reducible repeat' (first | assumption | apply State.freeNext_ok | apply foldl_ok | apply foldl_ok1 | apply ite_ok | apply ite_ok1 | apply ite_next | apply next_ok | intro _ | dsimp only | split)

theorem State.carryMeet4_ok {Q : List Instr} (s : State) (c e who : Nat) (hok : Ok Q s) : Ok Q (State.carryMeet4 s c e who).1 := by
  unfold State.carryMeet4
  with_reducible repeat' (first | assumption | apply State.addF_ok | apply State.report_ok | apply foldl_ok | apply foldl_ok | apply foldl_ok1 | apply ite_ok | apply ite_ok1 | apply ite_next | apply next_ok | intro _ | dsimp only | split)

theorem State.unitRead_ok {Q : List Instr} (s : State) (a req : Nat) (hok : Ok Q s) : Ok Q (State.unitRead s a req).1 := by
  unfold State.unitRead
  with_reducible repeat' (first | assumption | apply State.addrInvalid_ok | apply State.carryMeet4_ok | apply State.hbmReadStored_ok | apply State.report_ok | apply State.storeMeet_ok | apply State.unitAbsent_ok | apply State.unitWait_ok | apply State.wcbDrainLine_ok | apply foldl_ok | apply foldl_ok1 | apply ite_ok | apply ite_ok1 | apply ite_next | apply next_ok | intro _ | dsimp only | split)

theorem State.unitWrite_ok {Q : List Instr} (s : State) (a : Nat) (bs : List Byte) (hok : Ok Q s) : Ok Q (State.unitWrite s a bs).1 := by
  unfold State.unitWrite
  with_reducible repeat' (first | assumption | apply State.addrInvalid_ok | apply State.chanWriteWord_ok | apply State.hostPut_ok | apply State.setCarry_ok | apply State.storePut_ok | apply State.unitAbsent_ok | apply State.unitHold_ok | apply foldl_ok | apply foldl_ok | apply foldl_ok1 | apply ite_ok | apply ite_ok1 | apply ite_next | apply next_ok | intro _ | dsimp only | split)

theorem State.unitReadN_ok {Q : List Instr} (n : Nat) (s : State) (a req : Nat) (hok : Ok Q s) :
    Ok Q (State.unitReadN n s a req).1 := by
  induction n generalizing s a with
  | zero => exact hok
  | succ n ih => exact ih _ _ (State.unitRead_ok s a req hok)

theorem State.unitReadEach_ok {Q : List Instr} (n : Nat) (s : State) (a : Nat) (hok : Ok Q s) :
    Ok Q (State.unitReadEach n s a).1 := by
  induction n generalizing s a with
  | zero => exact hok
  | succ n ih => exact ih _ _ (State.unitRead_ok s a 0 hok)

theorem State.unitWriteN_ok {Q : List Instr} (n : Nat) (s : State) (a : Nat) (bs : List Byte) (hok : Ok Q s) :
    Ok Q (State.unitWriteN n s a bs).1 := by
  induction n generalizing s a bs with
  | zero => exact hok
  | succ n ih => exact ih _ _ _ (State.unitWrite_ok s a (sliceB bs 0 32) hok)

end Sys2Proof.Machine
end

