-- ==== Sys2Proof/Laws/Keep/Scale.lean ====
section
/-!
SUPPORT. What the operations of Machine/Scale.lean keep.
-/

namespace Sys2Proof.Machine

theorem State.initRecords_ok {Q : List Instr} (p : Pipe) (m : Nat) (s : State) (hok : Ok Q s) : Ok Q (State.initRecords p m s).1 := by
  unfold State.initRecords
  with_reducible repeat' (first | assumption | apply State.unitWrite_ok | apply foldl_ok | apply foldl_ok | apply foldl_ok1 | apply ite_ok | apply ite_ok1 | apply ite_next | apply next_ok | intro _ | dsimp only | split)

theorem State.initScales_ok {Q : List Instr} (p : Pipe) (m : Nat) (s : State) (hok : Ok Q s) : Ok Q (State.initScales p m s) := by
  unfold State.initScales
  with_reducible repeat' (first | assumption | apply State.initRecords_ok | apply foldl_ok | apply foldl_ok1 | apply ite_ok | apply ite_ok1 | apply ite_next | apply next_ok | intro _ | dsimp only | split)

theorem State.keepScale_ok {Q : List Instr} (p : Pipe) (m j t tensor : Nat) (s : State) (frame : Option (Nat × Nat)) (pipe : Nat) (hok : Ok Q s) : Ok Q (State.keepScale p m j t tensor s frame pipe) := by
  unfold State.keepScale
  with_reducible repeat' (first | assumption | apply State.raise_ok | apply State.unitRead_ok | apply State.unitWrite_ok | apply foldl_ok | apply foldl_ok1 | apply ite_ok | apply ite_ok1 | apply ite_next | apply next_ok | intro _)

end Sys2Proof.Machine
end

