-- ==== Sys2Proof/Laws/Keep/Pipeline.lean ====
section
/-!
SUPPORT. What the operations of Machine/Pipeline.lean keep.
-/

namespace Sys2Proof.Machine

theorem State.putPipe_ok {Q : List Instr} (s : State) (p : Nat) (v : Pipe) (hok : Ok Q s) : Ok Q (State.putPipe s p v) := by
  unfold State.putPipe
  with_reducible repeat' (first | assumption | apply State.setPipes_ok)

theorem State.onPipe_ok {Q : List Instr} (s : State) (p : Nat) (f : Pipe → Pipe) (hok : Ok Q s) : Ok Q (State.onPipe s p f) := by
  unfold State.onPipe
  with_reducible repeat' (first | assumption | apply State.putPipe_ok)

theorem State.putBeat_ok {Q : List Instr} (s : State) (n : Nat) (v : BeatM) (hok : Ok Q s) : Ok Q (State.putBeat s n v) := by
  unfold State.putBeat
  with_reducible repeat' (first | assumption | apply State.setBm_ok)

theorem State.onBeat_ok {Q : List Instr} (s : State) (n : Nat) (f : BeatM → BeatM) (hok : Ok Q s) : Ok Q (State.onBeat s n f) := by
  unfold State.onBeat
  with_reducible repeat' (first | assumption | apply State.putBeat_ok)

theorem State.putStrm_ok {Q : List Instr} (s : State) (m : Nat) (v : Stream) (hok : Ok Q s) : Ok Q (State.putStrm s m v) := by
  unfold State.putStrm
  with_reducible repeat' (first | assumption | apply State.setStreams_ok)

theorem State.onStrm_ok {Q : List Instr} (s : State) (m : Nat) (f : Stream → Stream) (hok : Ok Q s) : Ok Q (State.onStrm s m f) := by
  unfold State.onStrm
  with_reducible repeat' (first | assumption | apply State.putStrm_ok)

theorem State.putCore_ok {Q : List Instr} (s : State) (c : Nat) (v : CoreSt) (hok : Ok Q s) : Ok Q (State.putCore s c v) := by
  unfold State.putCore
  with_reducible repeat' (first | assumption | apply State.setCores_ok)

theorem State.onCore_ok {Q : List Instr} (s : State) (c : Nat) (f : CoreSt → CoreSt) (hok : Ok Q s) : Ok Q (State.onCore s c f) := by
  unfold State.onCore
  with_reducible repeat' (first | assumption | apply State.putCore_ok)

theorem State.putTile_ok {Q : List Instr} (s : State) (c t : Nat) (v : Tile) (hok : Ok Q s) : Ok Q (State.putTile s c t v) := by
  unfold State.putTile
  with_reducible repeat' (first | assumption | apply State.setTiles_ok)

theorem State.onTile_ok {Q : List Instr} (s : State) (c t : Nat) (f : Tile → Tile) (hok : Ok Q s) : Ok Q (State.onTile s c t f) := by
  unfold State.onTile
  with_reducible repeat' (first | assumption | apply State.putTile_ok)

theorem State.putSeqr_ok {Q : List Instr} (s : State) (c q : Nat) (v : SeqSt) (hok : Ok Q s) : Ok Q (State.putSeqr s c q v) := by
  unfold State.putSeqr
  with_reducible repeat' (first | assumption | apply State.setSeqs_ok)

theorem State.putThr_ok {Q : List Instr} (s : State) (c j : Nat) (v : VThread) (hok : Ok Q s) : Ok Q (State.putThr s c j v) := by
  unfold State.putThr
  with_reducible repeat' (first | assumption | apply State.setThreads_ok)

theorem State.onThr_ok {Q : List Instr} (s : State) (c j : Nat) (f : VThread → VThread) (hok : Ok Q s) : Ok Q (State.onThr s c j f) := by
  unfold State.onThr
  with_reducible repeat' (first | assumption | apply State.putThr_ok)

theorem State.putPort_ok {Q : List Instr} (s : State) (p : Nat) (v : EthPort) (hok : Ok Q s) : Ok Q (State.putPort s p v) := by
  unfold State.putPort
  with_reducible repeat' (first | assumption | apply State.setEth_ok)

theorem State.onLink_ok {Q : List Instr} (s : State) (l : Nat) (f : QLink → QLink) (hok : Ok Q s) : Ok Q (State.onLink s l f) := by
  unfold State.onLink
  with_reducible repeat' (first | assumption | apply State.setQsk_ok)

theorem State.onFrame_ok {Q : List Instr} (s : State) (p fif : Nat) (g : Frame → Frame) (hok : Ok Q s) : Ok Q (State.onFrame s p fif g) := by
  unfold State.onFrame
  with_reducible repeat' (first | assumption | apply State.onPipe_ok)

theorem State.voidFrame_ok {Q : List Instr} (s : State) (p fif reason : Nat) (hok : Ok Q s) : Ok Q (State.voidFrame s p fif reason) := by
  unfold State.voidFrame
  with_reducible repeat' (first | assumption | apply State.onFrame_ok)

theorem State.reportF_ok {Q : List Instr} (s : State) (cls code unit p fif : Nat) (detail : List (Nat × Nat)) (hok : Ok Q s) : Ok Q (State.reportF s cls code unit p fif detail) := by
  unfold State.reportF
  with_reducible repeat' (first | assumption | apply State.raise_ok)

theorem State.setStrState_ok {Q : List Instr} (s : State) (m v : Nat) (hok : Ok Q s) : Ok Q (State.setStrState s m v) := by
  unfold State.setStrState
  with_reducible repeat' (first | assumption | apply State.irqSource_ok | apply State.setF_ok | apply foldl_ok | apply foldl_ok1 | apply ite_ok | apply ite_ok1 | apply ite_next | apply next_ok | intro _)

theorem State.setBmState_ok {Q : List Instr} (s : State) (n v : Nat) (hok : Ok Q s) : Ok Q (State.setBmState s n v) := by
  unfold State.setBmState
  with_reducible repeat' (first | assumption | apply State.setF_ok | apply State.setStrState_ok | apply foldl_ok | apply foldl_ok1 | apply ite_ok | apply ite_ok1 | apply ite_next | apply next_ok | intro _)

theorem State.closeExcursion_ok {Q : List Instr} (s : State) (n : Nat) (frame : Option (Nat × Nat)) (hok : Ok Q s) : Ok Q (State.closeExcursion s n frame) := by
  unfold State.closeExcursion
  with_reducible repeat' (first | assumption | apply State.onBeat_ok | apply State.raise_ok | apply State.setF_ok | apply foldl_ok | apply foldl_ok1 | apply ite_ok | apply ite_ok1 | apply ite_next | apply next_ok | intro _)

theorem State.enterIdle_ok {Q : List Instr} (s : State) (n : Nat) (hok : Ok Q s) : Ok Q (State.enterIdle s n) := by
  unfold State.enterIdle
  with_reducible repeat' (first | assumption | apply State.closeExcursion_ok | apply State.onBeat_ok | apply State.setBmState_ok)

theorem State.settleStop_ok {Q : List Instr} (s : State) (n : Nat) (hok : Ok Q s) : Ok Q (State.settleStop s n) := by
  unfold State.settleStop
  with_reducible repeat' (first | assumption | apply State.enterIdle_ok | apply foldl_ok | apply foldl_ok1 | apply ite_ok | apply ite_ok1 | apply ite_next | apply next_ok | intro _)

theorem State.halt_ok {Q : List Instr} (s : State) (n : Nat) (hok : Ok Q s) : Ok Q (State.halt s n) := by
  unfold State.halt
  with_reducible repeat' (first | assumption | apply State.setBmState_ok | apply State.onPipe_ok | apply foldl_ok | apply foldl_ok1 | apply ite_ok | apply ite_ok1 | apply ite_next | apply next_ok | intro _)

theorem State.notice_ok {Q : List Instr} (s : State) (d kind : Nat) (fields : List Nat) (hok : Ok Q s) : Ok Q (State.notice s d kind fields) := by
  unfold State.notice
  with_reducible repeat' (first | assumption | apply State.emit_ok)

theorem State.tellHead_ok {Q : List Instr} (s : State) (p kind : Nat) (fields : List Nat) (hok : Ok Q s) : Ok Q (State.tellHead s p kind fields) := by
  unfold State.tellHead
  with_reducible repeat' (first | assumption | apply State.notice_ok)

theorem State.sendStatus_ok {Q : List Instr} (s : State) (p : Nat) (f : Frame) (folded : Bool) (hok : Ok Q s) : Ok Q (State.sendStatus s p f folded) := by
  unfold State.sendStatus
  with_reducible repeat' (first | assumption | apply State.tellHead_ok)

theorem State.settleLoss_ok {Q : List Instr} (s : State) (p : Nat) (hok : Ok Q s) : Ok Q (State.settleLoss s p) := by
  unfold State.settleLoss
  with_reducible repeat' (first | assumption | apply State.onPipe_ok | apply State.tellHead_ok | apply foldl_ok | apply foldl_ok1 | apply ite_ok | apply ite_ok1 | apply ite_next | apply next_ok | intro _ | dsimp only | split)

theorem State.settleFollower_ok {Q : List Instr} (s : State) (p : Nat) (hok : Ok Q s) : Ok Q (State.settleFollower s p) := by
  unfold State.settleFollower
  with_reducible repeat' (first | assumption | apply State.onPipe_ok | apply State.sendStatus_ok | apply State.settleLoss_ok | apply foldl_ok | apply foldl_ok | apply foldl_ok1 | apply ite_ok | apply ite_ok1 | apply ite_next | apply next_ok | intro _ | dsimp only | split)

theorem State.settleFollowers_ok {Q : List Instr} (s : State) (hok : Ok Q s) : Ok Q (State.settleFollowers s) := by
  unfold State.settleFollowers
  with_reducible repeat' (first | assumption | apply State.settleFollower_ok | apply foldl_ok)

theorem State.losePipe_ok {Q : List Instr} (s : State) (n unit : Nat) (needs : Frame → Bool) (hok : Ok Q s) : Ok Q (State.losePipe s n unit needs) := by
  unfold State.losePipe
  with_reducible repeat' (first | assumption | apply State.halt_ok | apply State.onPipe_ok | apply State.settleFollower_ok | apply foldl_ok | apply foldl_ok1 | apply ite_ok | apply ite_ok1 | apply ite_next | apply next_ok | intro _ | dsimp only | split)

theorem State.loseCore_ok {Q : List Instr} (s : State) (c cause : Nat) (hok : Ok Q s) : Ok Q (State.loseCore s c cause) := by
  unfold State.loseCore
  with_reducible repeat' (first | assumption | apply State.losePipe_ok | apply State.report_ok | apply State.reportP_ok | apply State.setF_ok | apply foldl_ok | apply foldl_ok1 | apply ite_ok | apply ite_ok1 | apply ite_next | apply next_ok | intro _ | dsimp only | split)

theorem State.loseSol_ok {Q : List Instr} (s : State) (cause : Nat) (hok : Ok Q s) : Ok Q (State.loseSol s cause) := by
  unfold State.loseSol
  with_reducible repeat' (first | assumption | apply State.losePipe_ok | apply State.report_ok | apply State.setSol_ok | apply foldl_ok | apply foldl_ok1 | apply ite_ok | apply ite_ok1 | apply ite_next | apply next_ok | intro _)

theorem State.loseThread_ok {Q : List Instr} (s : State) (c j cause : Nat) (hok : Ok Q s) : Ok Q (State.loseThread s c j cause) := by
  unfold State.loseThread
  with_reducible repeat' (first | assumption | apply State.losePipe_ok | apply State.reportP_ok)

theorem State.losePath_ok {Q : List Instr} (s : State) (n unit port : Nat) (hok : Ok Q s) : Ok Q (State.losePath s n unit port) := by
  unfold State.losePath
  with_reducible repeat' (first | assumption | apply State.losePipe_ok | apply foldl_ok | apply foldl_ok1 | apply ite_ok | apply ite_ok1 | apply ite_next | apply next_ok | intro _ | dsimp only | split)

theorem State.scanTake_ok {Q : List Instr} (s : State) (c j : Nat) (xs : List Nat) (hok : Ok Q s) : Ok Q (State.scanTake s c j xs) := by
  unfold State.scanTake
  with_reducible repeat' (first | assumption | apply State.onFrame_ok | apply foldl_ok | apply foldl_ok | apply foldl_ok1 | apply ite_ok | apply ite_ok1 | apply ite_next | apply next_ok | intro _ | dsimp only | split)

theorem State.passScale_ok {Q : List Instr} (s : State) (p fif tensor : Nat) (r : Nat × Nat) (hok : Ok Q s) : Ok Q (State.passScale s p fif tensor r) := by
  unfold State.passScale
  with_reducible repeat' (first | assumption | apply State.onFrame_ok | apply State.reportF_ok | apply foldl_ok | apply foldl_ok1 | apply ite_ok | apply ite_ok1 | apply ite_next | apply next_ok | intro _ | dsimp only | split)

theorem State.scanEnd_ok {Q : List Instr} (s : State) (c j fif : Nat) (hok : Ok Q s) : Ok Q (State.scanEnd s c j fif) := by
  unfold State.scanEnd
  with_reducible repeat' (first | assumption | apply State.passScale_ok | apply foldl_ok | apply foldl_ok1 | apply ite_ok | apply ite_ok1 | apply ite_next | apply next_ok | intro _ | dsimp only | split)

end Sys2Proof.Machine
end

