-- ==== Sys2Proof/Laws/Keep/Access.lean ====
section
/-!
SUPPORT. What the operations of Machine/Access.lean keep.
-/

namespace Sys2Proof.Machine

theorem State.onceFor_ok {Q : List Instr} (s : State) (id code : Nat) (f : State → State) (hf : ∀ s, Ok Q s → Ok Q (f s)) (hok : Ok Q s) : Ok Q (State.onceFor s id code f) := by
  unfold State.onceFor
  with_reducible repeat' (first | assumption | apply hf | apply State.putReq_ok | apply foldl_ok | apply foldl_ok1 | apply ite_ok | apply ite_ok1 | apply ite_next | apply next_ok | intro _)

theorem State.coreUnavailable_ok {Q : List Instr} (s : State) (id c a : Nat) (hok : Ok Q s) : Ok Q (State.coreUnavailable s id c a) := by
  unfold State.coreUnavailable
  with_reducible repeat' (first | assumption | apply State.onceFor_ok | apply State.report_ok | apply foldl_ok | apply foldl_ok1 | apply ite_ok | apply ite_ok1 | apply ite_next | apply next_ok | intro _)

theorem State.carryCorrected_ok {Q : List Instr} (s : State) (c e : Nat) (hok : Ok Q s) : Ok Q (State.carryCorrected s c e) := by
  unfold State.carryCorrected
  with_reducible repeat' (first | assumption | apply State.addF_ok | apply State.report_ok)

theorem State.carryRead_ok {Q : List Instr} (s : State) (id c off n req : Nat) (seen : EccSeen) (hok : Ok Q s) : Ok Q (State.carryRead s id c off n req seen).1 := by
  unfold State.carryRead
  with_reducible repeat' (first | assumption | apply State.carryCorrected_ok | apply State.onceFor_ok | apply State.report_ok | apply foldl_ok | apply foldl_ok | apply foldl_ok1 | apply ite_ok | apply ite_ok1 | apply ite_next | apply next_ok | intro _ | dsimp only | split)

theorem State.carryWrite1_ok {Q : List Instr} (s : State) (id c off req : Nat) (bs : List Byte) (seen : EccSeen) (e : Nat) (hok : Ok Q s) : Ok Q (State.carryWrite1 s id c off req bs seen e).1 := by
  unfold State.carryWrite1
  with_reducible repeat' (first | assumption | apply State.carryCorrected_ok | apply State.onceFor_ok | apply State.report_ok | apply State.setCarry_ok | apply foldl_ok | apply foldl_ok1 | apply ite_ok | apply ite_ok1 | apply ite_next | apply next_ok | intro _ | dsimp only | split)

theorem State.carryWrite_ok {Q : List Instr} (s : State) (id c off req : Nat) (bs : List Byte) (seen : EccSeen) (hok : Ok Q s) : Ok Q (State.carryWrite s id c off req bs seen).1 := by
  unfold State.carryWrite
  with_reducible repeat' (first | assumption | apply State.carryWrite1_ok | apply foldl_ok | apply foldl_ok | apply foldl_ok1 | apply ite_ok | apply ite_ok1 | apply ite_next | apply next_ok | intro _ | dsimp only | split)

theorem State.hostRead_ok {Q : List Instr} (s : State) (off n req : Nat) (seen : EccSeen) (hok : Ok Q s) : Ok Q (State.hostRead s off n req seen).1 := by
  unfold State.hostRead
  with_reducible repeat' (first | assumption | apply State.addSat_ok | apply State.setF_ok | apply foldl_ok | apply foldl_ok1 | apply ite_ok | apply ite_ok1 | apply ite_next | apply next_ok | intro _ | dsimp only | split)

theorem State.partRead_ok {Q : List Instr} (s : State) (id a n req : Nat) (seen : EccSeen) (hok : Ok Q s) : Ok Q (State.partRead s id a n req seen).1 := by
  unfold State.partRead
  with_reducible repeat' (first | assumption | apply State.addF_ok | apply State.addrInvalid_ok | apply State.carryRead_ok | apply State.coreUnavailable_ok | apply State.hbmReadStored_ok | apply State.hostRead_ok | apply State.onceFor_ok | apply State.report_ok | apply State.wcbDrainLine_ok | apply foldl_ok | apply foldl_ok1 | apply ite_ok | apply ite_ok1 | apply ite_next | apply next_ok | intro _ | dsimp only | split)

theorem State.partWrite_ok {Q : List Instr} (s : State) (id a req : Nat) (bs : List Byte) (stew : Bool) (seen : EccSeen) (hok : Ok Q s) : Ok Q (State.partWrite s id a req bs stew seen).1 := by
  unfold State.partWrite
  with_reducible repeat' (first | assumption | apply State.addSat_ok | apply State.addrInvalid_ok | apply State.carryWrite_ok | apply State.coreUnavailable_ok | apply State.hbmWriteDirect_ok | apply State.hostPut_ok | apply State.onceFor_ok | apply State.setDenyArmed_ok | apply State.setF_ok | apply State.storePut_ok | apply State.wcbPut_ok | apply foldl_ok | apply foldl_ok1 | apply ite_ok | apply ite_ok1 | apply ite_next | apply next_ok | intro _ | dsimp only | split)

theorem State.runPart_ok {Q : List Instr} (s : State) (h : HeldPart) (seen : EccSeen) (hok : Ok Q s) : Ok Q (State.runPart s h seen) := by
  unfold State.runPart
  with_reducible repeat' (first | assumption | apply State.finishPart_ok | apply State.partRead_ok | apply State.partWrite_ok | apply foldl_ok | apply foldl_ok1 | apply ite_ok | apply ite_ok1 | apply ite_next | apply next_ok | intro _ | dsimp only | split)

theorem State.startPart_ok {Q : List Instr} (s : State) (h : HeldPart) (slotted : Bool) (seen : EccSeen) (hok : Ok Q s) : Ok Q (State.startPart s h slotted seen) := by
  unfold State.startPart
  with_reducible repeat' (first | assumption | apply State.addPart_ok | apply State.runPart_ok | apply State.setHeld_ok | apply foldl_ok | apply foldl_ok1 | apply ite_ok | apply ite_ok1 | apply ite_next | apply next_ok | intro _ | dsimp only | split)

theorem State.openReq_ok {Q : List Instr} (s : State) (init : List Byte) (dest : Dest) (hok : Ok Q s) : Ok Q (State.openReq s init dest).1 := by
  unfold State.openReq
  with_reducible repeat' (first | assumption | apply State.putReq_ok | apply State.setNextReq_ok)

theorem State.closeReq_ok {Q : List Instr} (s : State) (id : Nat) (hok : Ok Q s) : Ok Q (State.closeReq s id) := by
  unfold State.closeReq
  with_reducible repeat' (first | assumption | apply State.finishPart_ok)

theorem State.startPiece_ok {Q : List Instr} (s : State) (id req : Nat) (slotted : Bool) (seen : EccSeen) (p : Piece) (hok : Ok Q s) : Ok Q (State.startPiece s id req slotted seen p) := by
  unfold State.startPiece
  with_reducible repeat' (first | assumption | apply State.freeNext_ok | apply State.startPart_ok | apply foldl_ok | apply foldl_ok | apply foldl_ok1 | apply ite_ok | apply ite_ok1 | apply ite_next | apply next_ok | intro _ | dsimp only | split)

theorem State.access_ok {Q : List Instr} (s : State) (ps : List Piece) (init : List Byte) (dest : Dest) (req : Nat) (slotted : Bool) (seen : EccSeen) (hok : Ok Q s) : Ok Q (State.access s ps init dest req slotted seen) := by
  unfold State.access
  with_reducible repeat' (first | assumption | apply State.closeReq_ok | apply State.openReq_ok | apply State.startPiece_ok | apply foldl_ok | apply foldl_ok1 | apply ite_ok | apply ite_ok1 | apply ite_next | apply next_ok | intro _)

theorem State.releaseHeld_ok {Q : List Instr} (s : State) (u : Nat) (hok : Ok Q s) : Ok Q (State.releaseHeld s u) := by
  unfold State.releaseHeld
  with_reducible repeat' (first | assumption | apply State.runPart_ok | apply State.setHeld_ok | apply foldl_ok | apply foldl_ok1 | apply ite_ok | apply ite_ok1 | apply ite_next | apply next_ok | intro _)

theorem State.failHeld_ok {Q : List Instr} (s : State) (h : HeldPart) (hok : Ok Q s) : Ok Q (State.failHeld s h) := by
  unfold State.failHeld
  with_reducible repeat' (first | assumption | apply State.coreUnavailable_ok | apply State.finishPart_ok | apply State.setHeld_ok)

theorem State.failHeldAll_ok {Q : List Instr} (s : State) (c : Nat) (hok : Ok Q s) : Ok Q (State.failHeldAll s c) := by
  unfold State.failHeldAll
  with_reducible repeat' (first | assumption | apply State.failHeld_ok | apply foldl_ok)

end Sys2Proof.Machine
end

