-- ==== Sys2Proof/Laws/Keep/Almanac.lean ====
section
/-!
SUPPORT. What the operations of Machine/Almanac.lean keep.
-/

namespace Sys2Proof.Machine

theorem State.writeRate_ok {Q : List Instr} (w : WriteReq) (s : State) (hok : Ok Q s) : Ok Q (State.writeRate w s) := by
  unfold State.writeRate
  with_reducible repeat' (first | assumption | apply State.setI_ok | apply foldl_ok | apply foldl_ok1 | apply ite_ok | apply ite_ok1 | apply ite_next | apply next_ok | intro _ | dsimp only | split)

theorem State.writeSlew_ok {Q : List Instr} (w : WriteReq) (s : State) (hok : Ok Q s) : Ok Q (State.writeSlew w s) := by
  unfold State.writeSlew
  with_reducible repeat' (first | assumption | apply State.setAlm_ok | apply foldl_ok | apply foldl_ok1 | apply ite_ok | apply ite_ok1 | apply ite_next | apply next_ok | intro _ | dsimp only | split)

theorem State.readNowLo_ok {Q : List Instr} (a : Agent) (s : State) (hok : Ok Q s) : Ok Q (State.readNowLo a s).1 := by
  unfold State.readNowLo
  with_reducible repeat' (first | assumption | apply State.setAlm_ok)

theorem execAlmRate_ok {Q : List Instr} (w : WriteReq) (s : State) (hok : Ok Q s) : OkOut Q (execAlmRate w s) := by
  unfold execAlmRate
  with_reducible repeat' (first | assumption | apply State.gated_ok | apply State.writeRate_ok | apply foldl_ok | apply foldl_ok1 | apply ite_ok | apply ite_ok1 | apply ite_next | apply next_ok)

theorem execAlmSlew_ok {Q : List Instr} (w : WriteReq) (s : State) (hok : Ok Q s) : OkOut Q (execAlmSlew w s) := by
  unfold execAlmSlew
  with_reducible repeat' (first | assumption | apply State.gated_ok | apply State.writeSlew_ok | apply foldl_ok | apply foldl_ok1 | apply ite_ok | apply ite_ok1 | apply ite_next | apply next_ok)

theorem execAlmNowLo_ok {Q : List Instr} (r : ReadReq) (s : State) (hok : Ok Q s) : OkOut Q (execAlmNowLo r s) := by
  unfold execAlmNowLo
  with_reducible repeat' (first | assumption | apply State.answer_ok | apply State.readNowLo_ok | apply foldl_ok | apply foldl_ok1 | apply ite_ok | apply ite_ok1 | apply ite_next | apply next_ok | intro _)

theorem execAonPeriodMeasure_ok {Q : List Instr} (ticks : Nat) (s : State) (hok : Ok Q s) : OkOut Q (execAonPeriodMeasure ticks s) := by
  unfold execAonPeriodMeasure
  with_reducible repeat' (first | assumption | apply State.setAlm_ok | apply State.setF_ok | apply State.ticks_ok | apply foldl_ok | apply foldl_ok1 | apply ite_ok | apply ite_ok1 | apply ite_next | apply next_ok | intro _)

theorem execAonClockFail_ok {Q : List Instr} (s : State) (hok : Ok Q s) : OkOut Q (execAonClockFail s) := by
  unfold execAonClockFail
  with_reducible repeat' (first | assumption | apply State.elapse_ok | apply State.report_ok | apply State.setAlm_ok | apply foldl_ok | apply foldl_ok1 | apply ite_ok | apply ite_ok1 | apply ite_next | apply next_ok | intro _)

theorem execAlmanacClockReturn_ok {Q : List Instr} (edge : Bool) (s : State) (hok : Ok Q s) : OkOut Q (execAlmanacClockReturn edge s) := by
  unfold execAlmanacClockReturn
  with_reducible repeat' (first | assumption | apply State.crystals_ok | apply State.report_ok | apply State.setAlm_ok | apply State.setPwr_ok | apply next_ok | apply foldl_ok | apply foldl_ok1 | apply ite_ok | apply ite_ok1 | apply ite_next | apply next_ok | intro _ | dsimp only | split)

end Sys2Proof.Machine
end

