-- ==== Sys2Proof/Laws/Keep/Remote.lean ====
section
/-!
SUPPORT. What the operations of Machine/Remote.lean keep.
-/

namespace Sys2Proof.Machine

theorem State.serviceSend_ok {Q : List Instr} (s : State) (d op addr : Nat) (data : List Byte) (req : Nat) (hok : Ok Q s) : Ok Q (State.serviceSend s d op addr data req).1 := by
  unfold State.serviceSend
  with_reducible repeat' (first | assumption | apply State.emit_ok | apply State.report_ok | apply State.setQsk_ok | apply foldl_ok | apply foldl_ok1 | apply ite_ok | apply ite_ok1 | apply ite_next | apply next_ok | intro _ | dsimp only | split)

end Sys2Proof.Machine
end

