-- ==== Sys2Proof/Laws/Keep/Operands.lean ====
section
/-!
SUPPORT. What the operations of Machine/Operands.lean keep.
-/

namespace Sys2Proof.Machine

theorem State.orTstat_ok {Q : List Instr} (s : State) (c j fl : Nat) (hok : Ok Q s) : Ok Q (State.orTstat s c j fl) := by
  unfold State.orTstat
  with_reducible repeat' (first | assumption | apply State.setF_ok)

theorem State.setPc_ok {Q : List Instr} (s : State) (c j pc : Nat) (hok : Ok Q s) : Ok Q (State.setPc s c j pc) := by
  unfold State.setPc
  with_reducible repeat' (first | assumption | apply State.setF_ok)

theorem State.trap_ok {Q : List Instr} (s : State) (c j cause : Nat) (hok : Ok Q s) : Ok Q (State.trap s c j cause) := by
  unfold State.trap
  with_reducible repeat' (first | assumption | apply State.loseThread_ok | apply State.onThr_ok | apply State.report_ok | apply State.setF_ok | apply foldl_ok | apply foldl_ok1 | apply ite_ok | apply ite_ok1 | apply ite_next | apply next_ok | intro _)

theorem State.issue_ok {Q : List Instr} (s : State) (v : VecInstr) (k : Nat) (legal : Bool) (body : State → State) (hbody : ∀ s, Ok Q s → Ok Q (body s)) (hok : Ok Q s) : Ok Q (State.issue s v k legal body) := by
  unfold State.issue
  with_reducible repeat' (first | assumption | apply hbody | apply State.report_ok | apply State.setPc_ok | apply State.trap_ok | apply foldl_ok | apply foldl_ok1 | apply ite_ok | apply ite_ok1 | apply ite_next | apply next_ok | intro _ | dsimp only | split)

theorem State.writeVd_ok {Q : List Instr} (s : State) (v : VecInstr) (f : Nat → Flagged) (hok : Ok Q s) : Ok Q (State.writeVd s v f) := by
  unfold State.writeVd
  with_reducible repeat' (first | assumption | apply State.orTstat_ok | apply State.putThr_ok)

theorem State.writeMd_ok {Q : List Instr} (s : State) (v : VecInstr) (f : Nat → Bool × Nat) (hok : Ok Q s) : Ok Q (State.writeMd s v f) := by
  unfold State.writeMd
  with_reducible repeat' (first | assumption | apply State.orTstat_ok | apply State.putThr_ok)

theorem State.writeSd_ok {Q : List Instr} (s : State) (v : VecInstr) (r : Nat) (x : W64) (hok : Ok Q s) : Ok Q (State.writeSd s v r x) := by
  unfold State.writeSd
  with_reducible repeat' (first | assumption | apply State.onThr_ok)

end Sys2Proof.Machine
end

