-- ==== Sys2Proof/Laws/Keep/Sync.lean ====
section
/-!
SUPPORT. What the operations of Machine/Sync.lean keep.
-/

namespace Sys2Proof.Machine

theorem State.wake_ok {Q : List Instr} (s : State) (c j : Nat) (hok : Ok Q s) : Ok Q (State.wake s c j) := by
  unfold State.wake
  with_reducible repeat' (first | assumption | apply State.busyCore_ok | apply State.onThr_ok | apply State.setF_ok | apply foldl_ok | apply foldl_ok1 | apply ite_ok | apply ite_ok1 | apply ite_next | apply next_ok | intro _ | dsimp only | split)

theorem State.sleep_ok {Q : List Instr} (s : State) (c j st : Nat) (w : ThreadWait) (hok : Ok Q s) : Ok Q (State.sleep s c j st w) := by
  unfold State.sleep
  with_reducible repeat' (first | assumption | apply State.onThr_ok | apply State.setF_ok)

theorem State.putSx_ok {Q : List Instr} (s : State) (c j r : Nat) (x : Nat) (hok : Ok Q s) : Ok Q (State.putSx s c j r x) := by
  unfold State.putSx
  with_reducible repeat' (first | assumption | apply State.onThr_ok)

theorem State.dropWaiter_ok {Q : List Instr} (s : State) (c j : Nat) (hok : Ok Q s) : Ok Q (State.dropWaiter s c j) := by
  unfold State.dropWaiter
  with_reducible repeat' (first | assumption | apply State.setSync_ok)

theorem State.fenceAll_ok {Q : List Instr} (s : State) (c j : Nat) (hok : Ok Q s) : Ok Q (State.fenceAll s c j) := by
  unfold State.fenceAll
  with_reducible repeat' (first | assumption | apply State.onThr_ok | apply foldl_ok | apply foldl_ok1 | apply ite_ok | apply ite_ok1 | apply ite_next | apply next_ok | intro _ | dsimp only | split)

theorem State.issueFenced_ok {Q : List Instr} (s : State) (v : VecInstr) (k : Nat) (legal : Bool) (body : State → State) (hbody : ∀ s, Ok Q s → Ok Q (body s)) (hok : Ok Q s) : Ok Q (State.issueFenced s v k legal body) := by
  unfold State.issueFenced
  with_reducible repeat' (first | assumption | apply hbody | apply State.issue_ok | apply foldl_ok | apply foldl_ok1 | apply ite_ok | apply ite_ok1 | apply ite_next | apply next_ok | intro _ | dsimp only | split)

theorem State.farReply_ok {Q : List Instr} (s : State) (w : FarWait) (v : Nat) (hok : Ok Q s) : Ok Q (State.farReply s w v) := by
  unfold State.farReply
  with_reducible repeat' (first | assumption | apply State.emit_ok)

theorem State.expireFar_ok {Q : List Instr} (s : State) (hok : Ok Q s) : Ok Q (State.expireFar s) := by
  unfold State.expireFar
  with_reducible repeat' (first | assumption | apply State.farReply_ok | apply State.setSync_ok | apply foldl_ok | apply foldl_ok | apply foldl_ok1 | apply ite_ok | apply ite_ok1 | apply ite_next | apply next_ok | intro _ | dsimp only | split)

theorem State.releaseFar_ok {Q : List Instr} (s : State) (b gen : Nat) (hok : Ok Q s) : Ok Q (State.releaseFar s b gen) := by
  unfold State.releaseFar
  with_reducible repeat' (first | assumption | apply State.farReply_ok | apply State.setSync_ok | apply foldl_ok | apply foldl_ok1 | apply ite_ok | apply ite_ok1 | apply ite_next | apply next_ok | intro _)

theorem State.releaseBar_ok {Q : List Instr} (s : State) (b : Nat) (hok : Ok Q s) : Ok Q (State.releaseBar s b) := by
  unfold State.releaseBar
  with_reducible repeat' (first | assumption | apply State.fenceAll_ok | apply State.putSx_ok | apply State.releaseFar_ok | apply State.wake_ok | apply foldl_ok | apply foldl_ok | apply foldl_ok1 | apply ite_ok | apply ite_ok1 | apply ite_next | apply next_ok | intro _ | dsimp only | split)

theorem State.arriveBar_ok {Q : List Instr} (s : State) (b : Nat) (hok : Ok Q s) : Ok Q (State.arriveBar s b) := by
  unfold State.arriveBar
  with_reducible repeat' (first | assumption | apply State.addF_ok | apply State.releaseBar_ok | apply State.setF_ok | apply foldl_ok | apply foldl_ok1 | apply ite_ok | apply ite_ok1 | apply ite_next | apply next_ok | intro _)

theorem State.controlReject_ok {Q : List Instr} (s : State) (unit v : Nat) (hok : Ok Q s) : Ok Q (State.controlReject s unit v) := by
  unfold State.controlReject
  with_reducible repeat' (first | assumption | apply State.report_ok)

theorem State.waitBar_ok {Q : List Instr} (s : State) (v : VecInstr) (b gen deadline : Nat) (hok : Ok Q s) : Ok Q (State.waitBar s v b gen deadline) := by
  unfold State.waitBar
  with_reducible repeat' (first | assumption | apply State.fenceAll_ok | apply State.putSx_ok | apply State.sleep_ok | apply foldl_ok | apply foldl_ok1 | apply ite_ok | apply ite_ok1 | apply ite_next | apply next_ok | intro _ | dsimp only | split)

theorem State.remoteSync_ok {Q : List Instr} (s : State) (v : VecInstr) (d op kind : Nat) (data : List Byte) (deadline : Nat) (hok : Ok Q s) : Ok Q (State.remoteSync s v d op kind data deadline) := by
  unfold State.remoteSync
  with_reducible repeat' (first | assumption | apply State.freeNext_ok | apply State.putSx_ok | apply State.serviceSend_ok | apply State.sleep_ok | apply foldl_ok | apply foldl_ok1 | apply ite_ok | apply ite_ok1 | apply ite_next | apply next_ok | intro _)

theorem State.barOp_ok {Q : List Instr} (s : State) (v : VecInstr) (op : Nat) (hok : Ok Q s) : Ok Q (State.barOp s v op) := by
  unfold State.barOp
  with_reducible repeat' (first | assumption | apply State.arriveBar_ok | apply State.putSx_ok | apply State.remoteSync_ok | apply State.waitBar_ok | apply foldl_ok | apply foldl_ok1 | apply ite_ok | apply ite_ok1 | apply ite_next | apply next_ok | intro _ | dsimp only | split)

theorem State.issueBar_ok {Q : List Instr} (s : State) (v : VecInstr) (op : Nat) (hok : Ok Q s) : Ok Q (State.issueBar s v op) := by
  unfold State.issueBar
  with_reducible repeat' (first | assumption | apply State.barOp_ok | apply State.issue_ok | apply foldl_ok | apply foldl_ok1 | apply ite_ok | apply ite_ok1 | apply ite_next | apply next_ok | intro _ | dsimp only | split)

theorem execBarArrive_ok {Q : List Instr} (v : VecInstr) (s : State) (hok : Ok Q s) : OkOut Q (execBarArrive v s) := by
  unfold execBarArrive
  with_reducible repeat' (first | assumption | apply State.issueBar_ok | apply next_ok | apply foldl_ok | apply foldl_ok1 | apply ite_ok | apply ite_ok1 | apply ite_next | apply next_ok | intro _ | dsimp only | split)

theorem execBarWait_ok {Q : List Instr} (v : VecInstr) (s : State) (hok : Ok Q s) : OkOut Q (execBarWait v s) := by
  unfold execBarWait
  with_reducible repeat' (first | assumption | apply State.issueBar_ok | apply next_ok | apply foldl_ok | apply foldl_ok1 | apply ite_ok | apply ite_ok1 | apply ite_next | apply next_ok | intro _ | dsimp only | split)

theorem execBarSync_ok {Q : List Instr} (v : VecInstr) (s : State) (hok : Ok Q s) : OkOut Q (execBarSync v s) := by
  unfold execBarSync
  with_reducible repeat' (first | assumption | apply State.issueBar_ok | apply next_ok | apply foldl_ok | apply foldl_ok1 | apply ite_ok | apply ite_ok1 | apply ite_next | apply next_ok | intro _ | dsimp only | split)

theorem execMgtBarArrive_ok {Q : List Instr} (b : Fin 64) (w : WriteReq) (s : State) (hok : Ok Q s) : OkOut Q (execMgtBarArrive b w s) := by
  unfold execMgtBarArrive
  with_reducible repeat' (first | assumption | apply State.arriveBar_ok | apply State.gatedAct_ok | apply foldl_ok | apply foldl_ok1 | apply ite_ok | apply ite_ok1 | apply ite_next | apply next_ok | intro _)

theorem State.writeExpect_ok {Q : List Instr} (b : Nat) (w : WriteReq) (s : State) (hok : Ok Q s) : Ok Q (State.writeExpect b w s) := by
  unfold State.writeExpect
  with_reducible repeat' (first | assumption | apply State.controlReject_ok | apply State.setF_ok | apply foldl_ok | apply foldl_ok1 | apply ite_ok | apply ite_ok1 | apply ite_next | apply next_ok | intro _ | dsimp only | split)

theorem execMgtBarExpect_ok {Q : List Instr} (b : Fin 64) (w : WriteReq) (s : State) (hok : Ok Q s) : OkOut Q (execMgtBarExpect b w s) := by
  unfold execMgtBarExpect
  with_reducible repeat' (first | assumption | apply State.gated_ok | apply State.writeExpect_ok | apply foldl_ok | apply foldl_ok1 | apply ite_ok | apply ite_ok1 | apply ite_next | apply next_ok)

theorem State.putQueue_ok {Q : List Instr} (s : State) (q : Nat) (ms : List (List Byte)) (hok : Ok Q s) : Ok Q (State.putQueue s q ms) := by
  unfold State.putQueue
  with_reducible repeat' (first | assumption | apply State.setF_ok | apply State.setSync_ok)

theorem State.giveMessage_ok {Q : List Instr} (s : State) (c j : Nat) (m : List Byte) (hok : Ok Q s) : Ok Q (State.giveMessage s c j m) := by
  unfold State.giveMessage
  with_reducible repeat' (first | assumption | apply State.dropWaiter_ok | apply State.fenceAll_ok | apply State.onThr_ok | apply State.wake_ok | apply foldl_ok | apply foldl_ok1 | apply ite_ok | apply ite_ok1 | apply ite_next | apply next_ok | intro _ | dsimp only | split)

theorem State.acceptMsg_ok {Q : List Instr} (s : State) (q : Nat) (m : List Byte) (hok : Ok Q s) : Ok Q (State.acceptMsg s q m) := by
  unfold State.acceptMsg
  with_reducible repeat' (first | assumption | apply State.giveMessage_ok | apply State.putQueue_ok | apply foldl_ok | apply foldl_ok1 | apply ite_ok | apply ite_ok1 | apply ite_next | apply next_ok | intro _ | dsimp only | split)

theorem State.admitFar_ok {Q : List Instr} (s : State) (q : Nat) (hok : Ok Q s) : Ok Q (State.admitFar s q) := by
  unfold State.admitFar
  with_reducible repeat' (first | assumption | apply State.acceptMsg_ok | apply State.farReply_ok | apply State.setSync_ok | apply foldl_ok | apply foldl_ok1 | apply ite_ok | apply ite_ok1 | apply ite_next | apply next_ok | intro _ | dsimp only | split)

theorem State.admitSender_ok {Q : List Instr} (s : State) (q : Nat) (hok : Ok Q s) : Ok Q (State.admitSender s q) := by
  unfold State.admitSender
  with_reducible repeat' (first | assumption | apply State.acceptMsg_ok | apply State.admitFar_ok | apply State.dropWaiter_ok | apply State.putSx_ok | apply State.wake_ok | apply foldl_ok | apply foldl_ok1 | apply ite_ok | apply ite_ok1 | apply ite_next | apply next_ok | intro _ | dsimp only | split)

theorem State.popQueue_ok {Q : List Instr} (s : State) (q : Nat) (hok : Ok Q s) : Ok Q (State.popQueue s q).1 := by
  unfold State.popQueue
  with_reducible repeat' (first | assumption | apply State.admitSender_ok | apply State.putQueue_ok | apply foldl_ok | apply foldl_ok1 | apply ite_ok | apply ite_ok1 | apply ite_next | apply next_ok | intro _ | dsimp only | split)

theorem State.trySend_ok {Q : List Instr} (s : State) (q source : Nat) (payload : List Byte) (hok : Ok Q s) : Ok Q (State.trySend s q source payload).1 := by
  unfold State.trySend
  with_reducible repeat' (first | assumption | apply State.acceptMsg_ok | apply foldl_ok | apply foldl_ok1 | apply ite_ok | apply ite_ok1 | apply ite_next | apply next_ok | intro _)

theorem execQsend_ok {Q : List Instr} (v : VecInstr) (s : State) (hok : Ok Q s) : OkOut Q (execQsend v s) := by
  unfold execQsend
  with_reducible repeat' (first | assumption | apply State.issueFenced_ok | apply State.putSx_ok | apply State.remoteSync_ok | apply State.setSync_ok | apply State.sleep_ok | apply State.trySend_ok | apply next_ok | apply foldl_ok | apply foldl_ok1 | apply ite_ok | apply ite_ok1 | apply ite_next | apply next_ok | intro _ | dsimp only | split)

theorem execQrecv_ok {Q : List Instr} (v : VecInstr) (s : State) (hok : Ok Q s) : OkOut Q (execQrecv v s) := by
  unfold execQrecv
  with_reducible repeat' (first | assumption | apply State.giveMessage_ok | apply State.issue_ok | apply State.popQueue_ok | apply State.putSx_ok | apply State.setSync_ok | apply State.sleep_ok | apply foldl_ok | apply foldl_ok1 | apply ite_ok | apply ite_ok1 | apply ite_next | apply next_ok | intro _ | dsimp only | split)

theorem State.writeMqCfg_ok {Q : List Instr} (q : Nat) (w : WriteReq) (s : State) (hok : Ok Q s) : Ok Q (State.writeMqCfg q w s) := by
  unfold State.writeMqCfg
  with_reducible repeat' (first | assumption | apply State.controlReject_ok | apply State.setF_ok | apply foldl_ok | apply foldl_ok1 | apply ite_ok | apply ite_ok1 | apply ite_next | apply next_ok | intro _ | dsimp only | split)

theorem execMqCfg_ok {Q : List Instr} (q : Fin 256) (w : WriteReq) (s : State) (hok : Ok Q s) : OkOut Q (execMqCfg q w s) := by
  unfold execMqCfg
  with_reducible repeat' (first | assumption | apply State.gated_ok | apply State.writeMqCfg_ok | apply foldl_ok | apply foldl_ok1 | apply ite_ok | apply ite_ok1 | apply ite_next | apply next_ok)

theorem State.readPop_ok {Q : List Instr} (s : State) (a : Agent) (h : Half) (q k : Nat) (hok : Ok Q s) : Ok Q (State.readPop s a h q k).1 := by
  unfold State.readPop
  with_reducible repeat' (first | assumption | apply State.popQueue_ok | apply State.setSync_ok | apply foldl_ok | apply foldl_ok1 | apply ite_ok | apply ite_ok1 | apply ite_next | apply next_ok | intro _)

theorem execMgtMqPop_ok {Q : List Instr} (q : Fin 256) (k : Fin 4) (r : ReadReq) (s : State) (hok : Ok Q s) : OkOut Q (execMgtMqPop q k r s) := by
  unfold execMgtMqPop
  with_reducible repeat' (first | assumption | apply State.answer_ok | apply State.readPop_ok | apply foldl_ok | apply foldl_ok1 | apply ite_ok | apply ite_ok1 | apply ite_next | apply next_ok)

theorem State.writePush_ok {Q : List Instr} (q k : Nat) (w : WriteReq) (s : State) (hok : Ok Q s) : Ok Q (State.writePush q k w s) := by
  unfold State.writePush
  with_reducible repeat' (first | assumption | apply State.addSat_ok | apply State.freeNext_ok | apply State.setSync_ok | apply State.trySend_ok | apply foldl_ok | apply foldl_ok1 | apply ite_ok | apply ite_ok1 | apply ite_next | apply next_ok | intro _)

theorem execMgtMqPush_ok {Q : List Instr} (q : Fin 256) (k : Fin 4) (w : WriteReq) (s : State) (hok : Ok Q s) : OkOut Q (execMgtMqPush q k w s) := by
  unfold execMgtMqPush
  with_reducible repeat' (first | assumption | apply State.gated_ok | apply State.writePush_ok | apply foldl_ok | apply foldl_ok1 | apply ite_ok | apply ite_ok1 | apply ite_next | apply next_ok)

theorem execMgtMqPushdropRead_ok {Q : List Instr} (r : ReadReq) (s : State) (hok : Ok Q s) : OkOut Q (execMgtMqPushdropRead r s) := by
  unfold execMgtMqPushdropRead
  with_reducible repeat' (first | assumption | apply State.answer_ok | apply State.readRc_ok | apply foldl_ok | apply foldl_ok1 | apply ite_ok | apply ite_ok1 | apply ite_next | apply next_ok)

theorem execAwait_ok {Q : List Instr} (v : VecInstr) (s : State) (hok : Ok Q s) : OkOut Q (execAwait v s) := by
  unfold execAwait
  with_reducible repeat' (first | assumption | apply State.issue_ok | apply State.sleep_ok | apply foldl_ok | apply foldl_ok1 | apply ite_ok | apply ite_ok1 | apply ite_next | apply next_ok | intro _)

theorem State.expireThread_ok {Q : List Instr} (s : State) (c j : Nat) (hok : Ok Q s) : Ok Q (State.expireThread s c j) := by
  unfold State.expireThread
  with_reducible repeat' (first | assumption | apply State.dropWaiter_ok | apply State.freeNext_ok | apply State.onThr_ok | apply State.putSx_ok | apply State.wake_ok | apply foldl_ok | apply foldl_ok1 | apply ite_ok | apply ite_ok1 | apply ite_next | apply next_ok | intro _ | dsimp only | split)

theorem State.expireAll_ok {Q : List Instr} (s : State) (hok : Ok Q s) : Ok Q (State.expireAll s) := by
  unfold State.expireAll
  with_reducible repeat' (first | assumption | apply State.expireFar_ok | apply State.expireThread_ok | apply foldl_ok | apply foldl_ok | apply foldl_ok1 | apply ite_ok | apply ite_ok1 | apply ite_next | apply next_ok | intro _ | dsimp only | split)

theorem State.expireCore_ok {Q : List Instr} (s : State) (c : Nat) (hok : Ok Q s) : Ok Q (State.expireCore s c) := by
  unfold State.expireCore
  with_reducible repeat' (first | assumption | apply State.expireThread_ok | apply foldl_ok | apply foldl_ok1 | apply ite_ok | apply ite_ok1 | apply ite_next | apply next_ok | intro _)

theorem execAwaitExpiry_ok {Q : List Instr} (c : Fin 32) (j : Fin 16) (s : State) (hok : Ok Q s) : OkOut Q (execAwaitExpiry c j s) := by
  unfold execAwaitExpiry
  with_reducible repeat' (first | assumption | apply State.expireThread_ok | apply State.reach_ok | apply foldl_ok | apply foldl_ok1 | apply ite_ok | apply ite_ok1 | apply ite_next | apply next_ok | intro _ | dsimp only | split)

theorem execWaitDeadline_ok {Q : List Instr} (c : Fin 32) (j : Fin 16) (s : State) (hok : Ok Q s) : OkOut Q (execWaitDeadline c j s) := by
  unfold execWaitDeadline
  with_reducible repeat' (first | assumption | apply State.expireFar_ok | apply State.expireThread_ok | apply State.reach_ok | apply next_ok | apply foldl_ok | apply foldl_ok1 | apply ite_ok | apply ite_ok1 | apply ite_next | apply next_ok | intro _ | dsimp only | split)

theorem execSop_ok {Q : List Instr} (v : VecInstr) (s : State) (hok : Ok Q s) : OkOut Q (execSop v s) := by
  unfold execSop
  with_reducible repeat' (first | assumption | apply State.issue_ok | apply State.writeSd_ok | apply foldl_ok | apply foldl_ok1 | apply ite_ok | apply ite_ok1 | apply ite_next | apply next_ok | intro _)

theorem execSli_ok {Q : List Instr} (v : VecInstr) (s : State) (hok : Ok Q s) : OkOut Q (execSli v s) := by
  unfold execSli
  with_reducible repeat' (first | assumption | apply State.issue_ok | apply State.writeSd_ok | apply foldl_ok | apply foldl_ok1 | apply ite_ok | apply ite_ok1 | apply ite_next | apply next_ok | intro _)

theorem State.branch_ok {Q : List Instr} (s : State) (v : VecInstr) (hok : Ok Q s) : Ok Q (State.branch s v) := by
  unfold State.branch
  with_reducible repeat' (first | assumption | apply State.setPc_ok)

theorem execBr_ok {Q : List Instr} (v : VecInstr) (s : State) (hok : Ok Q s) : OkOut Q (execBr v s) := by
  unfold execBr
  with_reducible repeat' (first | assumption | apply State.branch_ok | apply State.issue_ok | apply foldl_ok | apply foldl_ok1 | apply ite_ok | apply ite_ok1 | apply ite_next | apply next_ok | intro _)

theorem execJmp_ok {Q : List Instr} (v : VecInstr) (s : State) (hok : Ok Q s) : OkOut Q (execJmp v s) := by
  unfold execJmp
  with_reducible repeat' (first | assumption | apply State.branch_ok | apply State.issue_ok | apply State.writeSd_ok | apply foldl_ok | apply foldl_ok1 | apply ite_ok | apply ite_ok1 | apply ite_next | apply next_ok | intro _)

theorem execCsr_ok {Q : List Instr} (v : VecInstr) (s : State) (hok : Ok Q s) : OkOut Q (execCsr v s) := by
  unfold execCsr
  with_reducible repeat' (first | assumption | apply State.issue_ok | apply State.setF_ok | apply State.writeSd_ok | apply foldl_ok | apply foldl_ok1 | apply ite_ok | apply ite_ok1 | apply ite_next | apply next_ok | intro _)

theorem execFence_ok {Q : List Instr} (v : VecInstr) (s : State) (hok : Ok Q s) : OkOut Q (execFence v s) := by
  unfold execFence
  with_reducible repeat' (first | assumption | apply State.issueFenced_ok | apply State.issue_ok | apply next_ok | apply foldl_ok | apply foldl_ok1 | apply ite_ok | apply ite_ok1 | apply ite_next | apply next_ok | intro _ | dsimp only | split)

theorem State.freeSlot_ok {Q : List Instr} (s : State) (c j : Nat) (hok : Ok Q s) : Ok Q (State.freeSlot s c j) := by
  unfold State.freeSlot
  with_reducible repeat' (first | assumption | apply State.disownStores_ok | apply State.dropWaiter_ok | apply State.onThr_ok | apply State.setF_ok | apply foldl_ok | apply foldl_ok1 | apply ite_ok | apply ite_ok1 | apply ite_next | apply next_ok | intro _ | dsimp only | split)

theorem State.startSlot_ok {Q : List Instr} (s : State) (c j pc : Nat) (args : List Nat) (hok : Ok Q s) : Ok Q (State.startSlot s c j pc args) := by
  unfold State.startSlot
  with_reducible repeat' (first | assumption | apply State.busyCore_ok | apply State.putThr_ok | apply State.setF_ok | apply State.setPc_ok | apply foldl_ok | apply foldl_ok | apply foldl_ok1 | apply ite_ok | apply ite_ok1 | apply ite_next | apply next_ok | intro _ | dsimp only | split)

theorem State.startReq_ok {Q : List Instr} (s : State) (c slot pc : Nat) (args : List Nat) (hok : Ok Q s) : Ok Q (State.startReq s c slot pc args).1 := by
  unfold State.startReq
  with_reducible repeat' (first | assumption | apply State.startSlot_ok | apply foldl_ok | apply foldl_ok1 | apply ite_ok | apply ite_ok1 | apply ite_next | apply next_ok | intro _ | dsimp only | split)

theorem execTstart_ok {Q : List Instr} (v : VecInstr) (s : State) (hok : Ok Q s) : OkOut Q (execTstart v s) := by
  unfold execTstart
  with_reducible repeat' (first | assumption | apply State.freeNext_ok | apply State.issue_ok | apply State.putSx_ok | apply State.startReq_ok | apply State.writeSd_ok | apply foldl_ok | apply foldl_ok1 | apply ite_ok | apply ite_ok1 | apply ite_next | apply next_ok | intro _)

theorem execExit_ok {Q : List Instr} (v : VecInstr) (s : State) (hok : Ok Q s) : OkOut Q (execExit v s) := by
  unfold execExit
  with_reducible repeat' (first | assumption | apply State.freeSlot_ok | apply State.issue_ok | apply State.loseThread_ok | apply foldl_ok | apply foldl_ok1 | apply ite_ok | apply ite_ok1 | apply ite_next | apply next_ok | intro _)

theorem State.putVt_ok {Q : List Instr} (s : State) (a : Agent) (c : Nat) (x : VtCopy) (hok : Ok Q s) : Ok Q (State.putVt s a c x) := by
  unfold State.putVt
  with_reducible repeat' (first | assumption | apply State.setVtCopy_ok)

theorem State.writeVtStart_ok {Q : List Instr} (c : Nat) (w : WriteReq) (s : State) (hok : Ok Q s) : Ok Q (State.writeVtStart c w s) := by
  unfold State.writeVtStart
  with_reducible repeat' (first | assumption | apply State.putVt_ok | apply State.startReq_ok | apply foldl_ok | apply foldl_ok1 | apply ite_ok | apply ite_ok1 | apply ite_next | apply next_ok | intro _)

theorem execVtStart_ok {Q : List Instr} (c : Fin 32) (w : WriteReq) (s : State) (hok : Ok Q s) : OkOut Q (execVtStart c w s) := by
  unfold execVtStart
  with_reducible repeat' (first | assumption | apply State.gatedAct_ok | apply State.writeVtStart_ok | apply foldl_ok | apply foldl_ok1 | apply ite_ok | apply ite_ok1 | apply ite_next | apply next_ok)

theorem State.killSlot_ok {Q : List Instr} (s : State) (c j v : Nat) (hok : Ok Q s) : Ok Q (State.killSlot s c j v) := by
  unfold State.killSlot
  with_reducible repeat' (first | assumption | apply State.controlReject_ok | apply State.freeSlot_ok | apply foldl_ok | apply foldl_ok1 | apply ite_ok | apply ite_ok1 | apply ite_next | apply next_ok | intro _)

theorem State.freeTrapped_ok {Q : List Instr} (s : State) (c j : Nat) (hok : Ok Q s) : Ok Q (State.freeTrapped s c j) := by
  unfold State.freeTrapped
  with_reducible repeat' (first | assumption | apply State.freeSlot_ok | apply foldl_ok | apply foldl_ok1 | apply ite_ok | apply ite_ok1 | apply ite_next | apply next_ok | intro _)

theorem State.writeKill_ok {Q : List Instr} (c : Nat) (w : WriteReq) (s : State) (hok : Ok Q s) : Ok Q (State.writeKill c w s) := by
  unfold State.writeKill
  with_reducible repeat' (first | assumption | apply State.killSlot_ok | apply foldl_ok | apply foldl_ok1 | apply ite_ok | apply ite_ok1 | apply ite_next | apply next_ok | intro _ | dsimp only | split)

theorem State.writeFree_ok {Q : List Instr} (c : Nat) (w : WriteReq) (s : State) (hok : Ok Q s) : Ok Q (State.writeFree c w s) := by
  unfold State.writeFree
  with_reducible repeat' (first | assumption | apply State.freeTrapped_ok | apply foldl_ok | apply foldl_ok1 | apply ite_ok | apply ite_ok1 | apply ite_next | apply next_ok | intro _ | dsimp only | split)

theorem execVtKill_ok {Q : List Instr} (c : Fin 32) (w : WriteReq) (s : State) (hok : Ok Q s) : OkOut Q (execVtKill c w s) := by
  unfold execVtKill
  with_reducible repeat' (first | assumption | apply State.gatedAct_ok | apply State.writeKill_ok | apply foldl_ok | apply foldl_ok1 | apply ite_ok | apply ite_ok1 | apply ite_next | apply next_ok)

theorem execVtFree_ok {Q : List Instr} (c : Fin 32) (w : WriteReq) (s : State) (hok : Ok Q s) : OkOut Q (execVtFree c w s) := by
  unfold execVtFree
  with_reducible repeat' (first | assumption | apply State.gatedAct_ok | apply State.writeFree_ok | apply foldl_ok | apply foldl_ok1 | apply ite_ok | apply ite_ok1 | apply ite_next | apply next_ok)

theorem State.loadArrive_ok {Q : List Instr} (s : State) (c j : Nat) (hok : Ok Q s) : Ok Q (State.loadArrive s c j) := by
  unfold State.loadArrive
  with_reducible repeat' (first | assumption | apply State.onThr_ok | apply State.orTstat_ok | apply State.voidFrame_ok | apply State.wake_ok | apply foldl_ok | apply foldl_ok1 | apply ite_ok | apply ite_ok1 | apply ite_next | apply next_ok | intro _ | dsimp only | split)

theorem execLoadDataArrival_ok {Q : List Instr} (c : Fin 32) (j : Fin 16) (s : State) (hok : Ok Q s) : OkOut Q (execLoadDataArrival c j s) := by
  unfold execLoadDataArrival
  with_reducible repeat' (first | assumption | apply State.loadArrive_ok | apply foldl_ok | apply foldl_ok1 | apply ite_ok | apply ite_ok1 | apply ite_next | apply next_ok | intro _)

theorem execThreadBudget_ok {Q : List Instr} (c : Fin 32) (j : Fin 16) (fif : Fin 8) (cycles : Nat) (s : State) (hok : Ok Q s) : OkOut Q (execThreadBudget c j fif cycles s) := by
  unfold execThreadBudget
  with_reducible repeat' (first | assumption | apply State.onThr_ok | apply State.reportF_ok | apply foldl_ok | apply foldl_ok1 | apply ite_ok | apply ite_ok1 | apply ite_next | apply next_ok | intro _)

end Sys2Proof.Machine
end

