-- ==== Sys2Proof/Laws/Keep/Endpoint.lean ====
section
/-!
SUPPORT. What the operations of Machine/Endpoint.lean keep.
-/

namespace Sys2Proof.Machine

theorem State.queueCmd_ok {Q : List Instr} (s : State) (i type target duration stream level : Nat) (late : Bool) (due : Nat) (hok : Ok Q s) : Ok Q (State.queueCmd s i type target duration stream level late due).1 := by
  unfold State.queueCmd
  with_reducible repeat' (first | assumption | apply State.addF_ok | apply State.putPort_ok | apply State.setEp_ok | apply foldl_ok | apply foldl_ok1 | apply ite_ok | apply ite_ok1 | apply ite_next | apply next_ok | intro _ | dsimp only | split)

theorem State.exposeNow_ok {Q : List Instr} (s : State) (i m k target : Nat) (late : Bool) (hok : Ok Q s) : Ok Q (State.exposeNow s i m k target late) := by
  unfold State.exposeNow
  with_reducible repeat' (first | assumption | apply State.onStrm_ok | apply State.queueCmd_ok | apply State.setEp_ok | apply foldl_ok | apply foldl_ok1 | apply ite_ok | apply ite_ok1 | apply ite_next | apply next_ok | intro _)

theorem execExposeLaunch_ok {Q : List Instr} (ep : Fin 1024) (s : State) (hok : Ok Q s) : OkOut Q (execExposeLaunch ep s) := by
  unfold execExposeLaunch
  with_reducible repeat' (first | assumption | apply State.exposeNow_ok | apply State.reach_ok | apply next_ok | apply foldl_ok | apply foldl_ok1 | apply ite_ok | apply ite_ok1 | apply ite_next | apply next_ok | intro _ | dsimp only | split)

theorem State.strobeNow_ok {Q : List Instr} (s : State) (i m k target : Nat) (late : Bool) (hok : Ok Q s) : Ok Q (State.strobeNow s i m k target late) := by
  unfold State.strobeNow
  with_reducible repeat' (first | assumption | apply State.queueCmd_ok | apply State.setEp_ok)

theorem execStrobeLaunch_ok {Q : List Instr} (ep : Fin 1024) (s : State) (hok : Ok Q s) : OkOut Q (execStrobeLaunch ep s) := by
  unfold execStrobeLaunch
  with_reducible repeat' (first | assumption | apply State.reach_ok | apply State.strobeNow_ok | apply next_ok | apply foldl_ok | apply foldl_ok1 | apply ite_ok | apply ite_ok1 | apply ite_next | apply next_ok | intro _ | dsimp only | split)

end Sys2Proof.Machine
end

