-- ==== Sys2Proof/Laws/Keep/Beat.lean ====
section
/-!
SUPPORT. What the operations of Machine/Beat.lean keep.
-/

namespace Sys2Proof.Machine

theorem State.latchScale_ok {Q : List Instr} (s : State) (n m t tensor j fif : Nat) (hok : Ok Q s) : Ok Q (State.latchScale s n m t tensor j fif).1 := by
  unfold State.latchScale
  with_reducible repeat' (first | assumption | apply State.raise_ok | apply State.unitRead_ok | apply foldl_ok | apply foldl_ok1 | apply ite_ok | apply ite_ok1 | apply ite_next | apply next_ok | intro _)

theorem State.fillBank_ok {Q : List Instr} (s : State) (n m j fif : Nat) (hok : Ok Q s) : Ok Q (State.fillBank s n m j fif).1 := by
  unfold State.fillBank
  with_reducible repeat' (first | assumption | apply State.latchScale_ok | apply foldl_ok | apply foldl_ok | apply foldl_ok1 | apply ite_ok | apply ite_ok1 | apply ite_next | apply next_ok | intro _ | dsimp only | split)

theorem State.launchWakes_ok {Q : List Instr} (s : State) (n k a : Nat) (admits : Bool) (hok : Ok Q s) : Ok Q (State.launchWakes s n k a admits) := by
  unfold State.launchWakes
  with_reducible repeat' (first | assumption | apply State.onCore_ok | apply State.wake_ok | apply foldl_ok | apply foldl_ok1 | apply ite_ok | apply ite_ok1 | apply ite_next | apply next_ok | intro _)

theorem State.solToken_ok {Q : List Instr} (s : State) (n k a : Nat) (hok : Ok Q s) : Ok Q (State.solToken s n k a) := by
  unfold State.solToken
  with_reducible repeat' (first | assumption | apply State.emit_ok | apply State.onCore_ok | apply foldl_ok | apply foldl_ok1 | apply ite_ok | apply ite_ok1 | apply ite_next | apply next_ok | intro _)

theorem State.newFif_ok {Q : List Instr} (s : State) (n fif : Nat) (hok : Ok Q s) : Ok Q (State.newFif s n fif) := by
  unfold State.newFif
  with_reducible repeat' (first | assumption | apply State.setFstr_ok | apply State.setGws_ok | apply State.setSeqs_ok | apply State.setTiles_ok | apply foldl_ok | apply foldl_ok1 | apply ite_ok | apply ite_ok1 | apply ite_next | apply next_ok | intro _)

theorem State.admitFrame_ok {Q : List Instr} (s : State) (n m : Nat) (e : Exposure) (j k a l : Nat) (hok : Ok Q s) : Ok Q (State.admitFrame s n m e j k a l) := by
  unfold State.admitFrame
  with_reducible repeat' (first | assumption | apply State.fillBank_ok | apply State.launchWakes_ok | apply State.newFif_ok | apply State.notice_ok | apply State.onPipe_ok | apply State.setSol_ok | apply State.solToken_ok | apply foldl_ok | apply foldl_ok | apply foldl_ok1 | apply ite_ok | apply ite_ok1 | apply ite_next | apply next_ok | intro _ | dsimp only | split)

theorem State.refuseInput_ok {Q : List Instr} (s : State) (n m : Nat) (e : Exposure) (j k a l : Nat) (hok : Ok Q s) : Ok Q (State.refuseInput s n m e j k a l) := by
  unfold State.refuseInput
  with_reducible repeat' (first | assumption | apply State.keepScale_ok | apply State.launchWakes_ok | apply State.onPipe_ok | apply State.raise_ok | apply foldl_ok | apply foldl_ok1 | apply ite_ok | apply ite_ok1 | apply ite_next | apply next_ok | intro _)

theorem State.malformedRaise_ok {Q : List Instr} (s : State) (n m ts : Nat) (frame : Option (Nat × Nat)) (count cond : Nat) (hok : Ok Q s) : Ok Q (State.malformedRaise s n m ts frame count cond) := by
  unfold State.malformedRaise
  with_reducible repeat' (first | assumption | apply State.onStrm_ok | apply State.raise_ok | apply foldl_ok | apply foldl_ok1 | apply ite_ok | apply ite_ok1 | apply ite_next | apply next_ok | intro _ | dsimp only | split)

theorem State.malformedReport_ok {Q : List Instr} (s : State) (n m : Nat) (frame : Option (Nat × Nat)) (e : Exposure) (hok : Ok Q s) : Ok Q (State.malformedReport s n m frame e) := by
  unfold State.malformedReport
  with_reducible repeat' (first | assumption | apply State.malformedRaise_ok | apply foldl_ok | apply foldl_ok1 | apply ite_ok | apply ite_ok1 | apply ite_next | apply next_ok | intro _ | dsimp only | split)

theorem State.beatInput_ok {Q : List Instr} (s : State) (n k a l : Nat) (hok : Ok Q s) : Ok Q (State.beatInput s n k a l) := by
  unfold State.beatInput
  with_reducible repeat' (first | assumption | apply State.admitFrame_ok | apply State.launchWakes_ok | apply State.malformedReport_ok | apply State.onStrm_ok | apply State.refuseInput_ok | apply State.setF_ok | apply foldl_ok | apply foldl_ok1 | apply ite_ok | apply ite_ok1 | apply ite_next | apply next_ok | intro _ | dsimp only | split)

theorem State.lagReports_ok {Q : List Instr} (s : State) (n l : Nat) (frame : Option (Nat × Nat)) (hok : Ok Q s) : Ok Q (State.lagReports s n l frame) := by
  unfold State.lagReports
  with_reducible repeat' (first | assumption | apply State.closeExcursion_ok | apply State.onBeat_ok | apply State.raise_ok | apply State.setF_ok | apply foldl_ok | apply foldl_ok1 | apply ite_ok | apply ite_ok1 | apply ite_next | apply next_ok | intro _)

theorem State.passBeat_ok {Q : List Instr} (s : State) (n : Nat) (hok : Ok Q s) : Ok Q (State.passBeat s n) := by
  unfold State.passBeat
  with_reducible repeat' (first | assumption | apply State.onBeat_ok | apply State.setF_ok | apply foldl_ok | apply foldl_ok1 | apply ite_ok | apply ite_ok1 | apply ite_next | apply next_ok | intro _)

theorem State.setLate_ok {Q : List Instr} (s : State) (f : Fld) (bit : Nat) (hok : Ok Q s) : Ok Q (State.setLate s f bit) := by
  unfold State.setLate
  with_reducible repeat' (first | assumption | apply State.setF_ok | apply foldl_ok | apply foldl_ok1 | apply ite_ok | apply ite_ok1 | apply ite_next | apply next_ok | intro _ | dsimp only | split)

theorem State.launchBeat_ok {Q : List Instr} (s0 : State) (n a : Nat) (hok : Ok Q s0) : Ok Q (State.launchBeat s0 n a) := by
  unfold State.launchBeat
  with_reducible repeat' (first | assumption | apply State.beatInput_ok | apply State.lagReports_ok | apply State.onBeat_ok | apply State.passBeat_ok | apply State.setBmState_ok | apply State.setF_ok | apply State.setLate_ok | apply foldl_ok | apply foldl_ok1 | apply ite_ok | apply ite_ok1 | apply ite_next | apply next_ok | intro _ | dsimp only | split)

theorem State.reportScaleWait_ok {Q : List Instr} (s : State) (n : Nat) (hok : Ok Q s) : Ok Q (State.reportScaleWait s n) := by
  unfold State.reportScaleWait
  with_reducible repeat' (first | assumption | apply State.onBeat_ok | apply State.raise_ok | apply foldl_ok | apply foldl_ok1 | apply ite_ok | apply ite_ok1 | apply ite_next | apply next_ok | intro _ | dsimp only | split)

theorem execBeatLaunch_ok {Q : List Instr} (n : Fin 4) (ready : Nat) (s : State) (hok : Ok Q s) : OkOut Q (execBeatLaunch n ready s) := by
  unfold execBeatLaunch
  with_reducible repeat' (first | assumption | apply State.launchBeat_ok | apply State.passBeat_ok | apply State.reach_ok | apply State.reportScaleWait_ok | apply next_ok | apply foldl_ok | apply foldl_ok1 | apply ite_ok | apply ite_ok1 | apply ite_next | apply next_ok | intro _ | dsimp only | split)

theorem State.beatReject_ok {Q : List Instr} (s : State) (n v : Nat) (hok : Ok Q s) : Ok Q (State.beatReject s n v) := by
  unfold State.beatReject
  with_reducible repeat' (first | assumption | apply State.report_ok)

theorem State.discardFrames_ok {Q : List Instr} (s : State) (m : Nat) (hok : Ok Q s) : Ok Q (State.discardFrames s m) := by
  unfold State.discardFrames
  with_reducible repeat' (first | assumption | apply State.addF_ok | apply State.malformedReport_ok | apply State.onStrm_ok | apply foldl_ok | apply foldl_ok1 | apply ite_ok | apply ite_ok1 | apply ite_next | apply next_ok | intro _)

theorem State.armBeat_ok {Q : List Instr} (s : State) (n : Nat) (hok : Ok Q s) : Ok Q (State.armBeat s n) := by
  unfold State.armBeat
  with_reducible repeat' (first | assumption | apply State.beatReject_ok | apply State.discardFrames_ok | apply State.putBeat_ok | apply State.onPipe_ok | apply State.setBmState_ok | apply State.setEp_ok | apply State.setF_ok | apply foldl_ok | apply foldl_ok1 | apply ite_ok | apply ite_ok1 | apply ite_next | apply next_ok | intro _)

theorem State.stopBeat_ok {Q : List Instr} (s : State) (n : Nat) (hok : Ok Q s) : Ok Q (State.stopBeat s n) := by
  unfold State.stopBeat
  with_reducible repeat' (first | assumption | apply State.setBmState_ok | apply State.settleStop_ok | apply foldl_ok | apply foldl_ok1 | apply ite_ok | apply ite_ok1 | apply ite_next | apply next_ok | intro _)

theorem State.writeBmCtl_ok {Q : List Instr} (n : Nat) (w : WriteReq) (s : State) (hok : Ok Q s) : Ok Q (State.writeBmCtl n w s) := by
  unfold State.writeBmCtl
  with_reducible repeat' (first | assumption | apply State.armBeat_ok | apply State.stopBeat_ok | apply foldl_ok | apply foldl_ok1 | apply ite_ok | apply ite_ok1 | apply ite_next | apply next_ok | intro _)

theorem State.setEffective_ok {Q : List Instr} (s : State) (n : Nat) (raises : Bool) (hok : Ok Q s) : Ok Q (State.setEffective s n raises) := by
  unfold State.setEffective
  with_reducible repeat' (first | assumption | apply State.report_ok | apply State.setF_ok | apply foldl_ok | apply foldl_ok1 | apply ite_ok | apply ite_ok1 | apply ite_next | apply next_ok | intro _)

theorem State.writePeriod_ok {Q : List Instr} (n : Nat) (w : WriteReq) (s : State) (hok : Ok Q s) : Ok Q (State.writePeriod n w s) := by
  unfold State.writePeriod
  with_reducible repeat' (first | assumption | apply State.beatReject_ok | apply State.onBeat_ok | apply State.setEffective_ok | apply State.setF_ok | apply foldl_ok | apply foldl_ok1 | apply ite_ok | apply ite_ok1 | apply ite_next | apply next_ok | intro _ | dsimp only | split)

theorem State.writeShrink_ok {Q : List Instr} (n : Nat) (w : WriteReq) (s : State) (hok : Ok Q s) : Ok Q (State.writeShrink n w s) := by
  unfold State.writeShrink
  with_reducible repeat' (first | assumption | apply State.setEffective_ok | apply State.setF_ok | apply foldl_ok | apply foldl_ok1 | apply ite_ok | apply ite_ok1 | apply ite_next | apply next_ok | intro _ | dsimp only | split)

theorem execAlmBmArm_ok {Q : List Instr} (n : Fin 4) (w : WriteReq) (s : State) (hok : Ok Q s) : OkOut Q (execAlmBmArm n w s) := by
  unfold execAlmBmArm
  with_reducible repeat' (first | assumption | apply State.gated_ok | apply State.writeBmCtl_ok | apply foldl_ok | apply foldl_ok1 | apply ite_ok | apply ite_ok1 | apply ite_next | apply next_ok)

theorem execAlmBmStop_ok {Q : List Instr} (n : Fin 4) (w : WriteReq) (s : State) (hok : Ok Q s) : OkOut Q (execAlmBmStop n w s) := by
  unfold execAlmBmStop
  with_reducible repeat' (first | assumption | apply State.gated_ok | apply State.writeBmCtl_ok | apply foldl_ok | apply foldl_ok1 | apply ite_ok | apply ite_ok1 | apply ite_next | apply next_ok)

theorem execAlmBmPeriod_ok {Q : List Instr} (n : Fin 4) (w : WriteReq) (s : State) (hok : Ok Q s) : OkOut Q (execAlmBmPeriod n w s) := by
  unfold execAlmBmPeriod
  with_reducible repeat' (first | assumption | apply State.gated_ok | apply State.writePeriod_ok | apply foldl_ok | apply foldl_ok1 | apply ite_ok | apply ite_ok1 | apply ite_next | apply next_ok)

theorem execAlmBmShrink_ok {Q : List Instr} (n : Fin 4) (w : WriteReq) (s : State) (hok : Ok Q s) : OkOut Q (execAlmBmShrink n w s) := by
  unfold execAlmBmShrink
  with_reducible repeat' (first | assumption | apply State.gated_ok | apply State.writeShrink_ok | apply foldl_ok | apply foldl_ok1 | apply ite_ok | apply ite_ok1 | apply ite_next | apply next_ok)

theorem execAlmBmLaglim_ok {Q : List Instr} (n : Fin 4) (w : WriteReq) (s : State) (hok : Ok Q s) : OkOut Q (execAlmBmLaglim n w s) := by
  unfold execAlmBmLaglim
  with_reducible repeat' (first | assumption | apply State.gated_ok | apply State.plainWrite_ok | apply foldl_ok | apply foldl_ok1 | apply ite_ok | apply ite_ok1 | apply ite_next | apply next_ok | intro _)

theorem State.tallySnap_ok {Q : List Instr} (s : State) (c : Nat) (hok : Ok Q s) : Ok Q (State.tallySnap s c) := by
  unfold State.tallySnap
  with_reducible repeat' (first | assumption | apply State.setF_ok | apply foldl_ok | apply foldl_ok1 | apply ite_ok | apply ite_ok1 | apply ite_next | apply next_ok | intro _)

theorem State.glAct_ok {Q : List Instr} (s : State) (p : Nat) (hok : Ok Q s) : Ok Q (State.glAct s p) := by
  unfold State.glAct
  with_reducible repeat' (first | assumption | apply State.irqSource_ok | apply State.report_ok | apply State.tallySnap_ok | apply State.trySend_ok | apply foldl_ok | apply foldl_ok1 | apply ite_ok | apply ite_ok1 | apply ite_next | apply next_ok | intro _)

theorem State.glFire_ok {Q : List Instr} (s : State) (p : Nat) (hok : Ok Q s) : Ok Q (State.glFire s p) := by
  unfold State.glFire
  with_reducible repeat' (first | assumption | apply State.glAct_ok | apply State.setF_ok | apply foldl_ok | apply foldl_ok1 | apply ite_ok | apply ite_ok1 | apply ite_next | apply next_ok | intro _)

theorem State.glFireLate_ok {Q : List Instr} (s : State) (p : Nat) (hok : Ok Q s) : Ok Q (State.glFireLate s p) := by
  unfold State.glFireLate
  with_reducible repeat' (first | assumption | apply State.glAct_ok | apply State.setF_ok | apply foldl_ok | apply foldl_ok1 | apply ite_ok | apply ite_ok1 | apply ite_next | apply next_ok | intro _)

theorem State.glCheck_ok {Q : List Instr} (s : State) (p : Nat) (hok : Ok Q s) : Ok Q (State.glCheck s p) := by
  unfold State.glCheck
  with_reducible repeat' (first | assumption | apply State.glFireLate_ok | apply foldl_ok | apply foldl_ok1 | apply ite_ok | apply ite_ok1 | apply ite_next | apply next_ok | intro _)

theorem execGeneralPortFire_ok {Q : List Instr} (p : Fin 16) (s : State) (hok : Ok Q s) : OkOut Q (execGeneralPortFire p s) := by
  unfold execGeneralPortFire
  with_reducible repeat' (first | assumption | apply State.glFire_ok | apply State.reach_ok | apply foldl_ok | apply foldl_ok1 | apply ite_ok | apply ite_ok1 | apply ite_next | apply next_ok | intro _)

theorem State.writeGl_ok {Q : List Instr} (p : Nat) (r : GlReg) (w : WriteReq) (s : State) (hok : Ok Q s) : Ok Q (State.writeGl p r w s) := by
  unfold State.writeGl
  with_reducible repeat' (first | assumption | apply State.glCheck_ok | apply State.plainWrite_ok | apply foldl_ok | apply foldl_ok1 | apply ite_ok | apply ite_ok1 | apply ite_next | apply next_ok | intro _ | dsimp only | split)

theorem execAlmGlTime_ok {Q : List Instr} (p : Fin 16) (reg : GlReg) (w : WriteReq) (s : State) (hok : Ok Q s) : OkOut Q (execAlmGlTime p reg w s) := by
  unfold execAlmGlTime
  with_reducible repeat' (first | assumption | apply State.gated_ok | apply State.writeGl_ok | apply foldl_ok | apply foldl_ok1 | apply ite_ok | apply ite_ok1 | apply ite_next | apply next_ok)

end Sys2Proof.Machine
end

