-- ==== Sys2Proof/Laws/Keep/Fabric.lean ====
section
/-!
SUPPORT. What the operations of Machine/Fabric.lean keep.
-/

namespace Sys2Proof.Machine

theorem State.reportTagP_ok {Q : List Instr} (s : State) (cls code unit : Nat) (p : Option Nat) (tag : Byte) (detail : List (Nat × Nat)) (hok : Ok Q s) : Ok Q (State.reportTagP s cls code unit p tag detail) := by
  unfold State.reportTagP
  with_reducible repeat' (first | assumption | apply State.reportF_ok | apply State.report_ok | apply foldl_ok | apply foldl_ok1 | apply ite_ok | apply ite_ok1 | apply ite_next | apply next_ok | intro _ | dsimp only | split)

theorem State.reportTag_ok {Q : List Instr} (s : State) (cls code unit c : Nat) (tag : Byte) (detail : List (Nat × Nat)) (hok : Ok Q s) : Ok Q (State.reportTag s cls code unit c tag detail) := by
  unfold State.reportTag
  with_reducible repeat' (first | assumption | apply State.reportTagP_ok | apply foldl_ok | apply foldl_ok1 | apply ite_ok | apply ite_ok1 | apply ite_next | apply next_ok | intro _ | dsimp only | split)

theorem State.voidTagP_ok {Q : List Instr} (s : State) (p : Option Nat) (tag : Byte) (reason time : Nat) (hok : Ok Q s) : Ok Q (State.voidTagP s p tag reason time) := by
  unfold State.voidTagP
  with_reducible repeat' (first | assumption | apply State.onFrame_ok | apply foldl_ok | apply foldl_ok1 | apply ite_ok | apply ite_ok1 | apply ite_next | apply next_ok | intro _ | dsimp only | split)

theorem State.voidTagAt_ok {Q : List Instr} (s : State) (c : Nat) (tag : Byte) (reason time : Nat) (hok : Ok Q s) : Ok Q (State.voidTagAt s c tag reason time) := by
  unfold State.voidTagAt
  with_reducible repeat' (first | assumption | apply State.voidTagP_ok | apply foldl_ok | apply foldl_ok1 | apply ite_ok | apply ite_ok1 | apply ite_next | apply next_ok | intro _ | dsimp only | split)

theorem State.voidTag_ok {Q : List Instr} (s : State) (c : Nat) (tag : Byte) (reason : Nat) (hok : Ok Q s) : Ok Q (State.voidTag s c tag reason) := by
  unfold State.voidTag
  with_reducible repeat' (first | assumption | apply State.voidTagAt_ok)

theorem State.departs_ok {Q : List Instr} (s : State) (c unit stage slot cause : Nat) (tag : Byte) (hok : Ok Q s) : Ok Q (State.departs s c unit stage slot cause tag) := by
  unfold State.departs
  with_reducible repeat' (first | assumption | apply State.onFrame_ok | apply State.reportF_ok | apply foldl_ok | apply foldl_ok1 | apply ite_ok | apply ite_ok1 | apply ite_next | apply next_ok | intro _ | dsimp only | split)

theorem State.checkWord_ok {Q : List Instr} (s : State) (unit pos : Nat) (p : Option Nat) (w : QWord) (ecc : EccSeen) (hok : Ok Q s) : Ok Q (State.checkWord s unit pos p w ecc).1 := by
  unfold State.checkWord
  with_reducible repeat' (first | assumption | apply State.reportTagP_ok | apply State.report_ok | apply foldl_ok | apply foldl_ok1 | apply ite_ok | apply ite_ok1 | apply ite_next | apply next_ok | intro _ | dsimp only | split)

theorem State.overrun_ok {Q : List Instr} (s : State) (unit : Nat) (p : Option Nat) (queue : Nat) (tag : Byte) (hok : Ok Q s) : Ok Q (State.overrun s unit p queue tag) := by
  unfold State.overrun
  with_reducible repeat' (first | assumption | apply State.reportTagP_ok | apply State.voidTagP_ok | apply foldl_ok | apply foldl_ok1 | apply ite_ok | apply ite_ok1 | apply ite_next | apply next_ok | intro _ | dsimp only | split)

theorem State.strayWord_ok {Q : List Instr} (s : State) (unit : Nat) (p : Option Nat) (input : Nat) (slot : Option Nat) (tag : Byte) (hok : Ok Q s) : Ok Q (State.strayWord s unit p input slot tag) := by
  unfold State.strayWord
  with_reducible repeat' (first | assumption | apply State.reportTagP_ok | apply State.voidTagP_ok | apply foldl_ok | apply foldl_ok1 | apply ite_ok | apply ite_ok1 | apply ite_next | apply next_ok | intro _ | dsimp only | split)

theorem State.offTraffic_ok {Q : List Instr} (s : State) (src : Nat) (hok : Ok Q s) : Ok Q (State.offTraffic s src).1 := by
  unfold State.offTraffic
  with_reducible repeat' (first | assumption | apply State.report_ok | apply State.setPwr_ok | apply foldl_ok | apply foldl_ok1 | apply ite_ok | apply ite_ok1 | apply ite_next | apply next_ok | intro _)

theorem State.beginWake_ok {Q : List Instr} (s : State) (c kind : Nat) (hok : Ok Q s) : Ok Q (State.beginWake s c kind) := by
  unfold State.beginWake
  with_reducible repeat' (first | assumption | apply State.addF_ok | apply State.busyCore_ok | apply State.setCoreMove_ok | apply foldl_ok | apply foldl_ok1 | apply ite_ok | apply ite_ok1 | apply ite_next | apply next_ok | intro _ | dsimp only | split)

theorem State.tileHold_ok {Q : List Instr} (s : State) (c t q slot : Nat) (tag : Byte) (hok : Ok Q s) : Ok Q (State.tileHold s c t q slot tag) := by
  unfold State.tileHold
  with_reducible repeat' (first | assumption | apply State.departs_ok | apply State.onTile_ok | apply foldl_ok | apply foldl_ok1 | apply ite_ok | apply ite_ok1 | apply ite_next | apply next_ok | intro _)

theorem State.tilePush_ok {Q : List Instr} (s : State) (c t q slot : Nat) (w : QWord) (hok : Ok Q s) : Ok Q (State.tilePush s c t q slot w) := by
  unfold State.tilePush
  with_reducible repeat' (first | assumption | apply State.busyCore_ok | apply State.onTile_ok | apply State.overrun_ok | apply State.putTile_ok | apply State.reportTag_ok | apply State.tileHold_ok | apply foldl_ok | apply foldl_ok1 | apply ite_ok | apply ite_ok1 | apply ite_next | apply next_ok | intro _ | dsimp only | split)

theorem State.putEdge_ok {Q : List Instr} (s : State) (c side lane dir : Nat) (v : FabQueue) (hok : Ok Q s) : Ok Q (State.putEdge s c side lane dir v) := by
  unfold State.putEdge
  with_reducible repeat' (first | assumption | apply State.setEdges_ok)

theorem State.gwHold_ok {Q : List Instr} (s : State) (g dir code slot : Nat) (tag : Byte) (hok : Ok Q s) : Ok Q (State.gwHold s g dir code slot tag) := by
  unfold State.gwHold
  with_reducible repeat' (first | assumption | apply State.departs_ok | apply State.putGw_ok | apply foldl_ok | apply foldl_ok1 | apply ite_ok | apply ite_ok1 | apply ite_next | apply next_ok | intro _ | dsimp only | split)

theorem State.gwPush_ok {Q : List Instr} (s : State) (p : Option Nat) (g dir code slot : Nat) (w : QWord) (hok : Ok Q s) : Ok Q (State.gwPush s p g dir code slot w) := by
  unfold State.gwPush
  with_reducible repeat' (first | assumption | apply State.beginWake_ok | apply State.busyCore_ok | apply State.gwHold_ok | apply State.overrun_ok | apply State.putGw_ok | apply State.reportTagP_ok | apply foldl_ok | apply foldl_ok1 | apply ite_ok | apply ite_ok1 | apply ite_next | apply next_ok | intro _ | dsimp only | split)

theorem State.edgePush_ok {Q : List Instr} (s : State) (c side lane dir : Nat) (w : QWord) (hok : Ok Q s) : Ok Q (State.edgePush s c side lane dir w) := by
  unfold State.edgePush
  with_reducible repeat' (first | assumption | apply State.busyCore_ok | apply State.overrun_ok | apply State.putEdge_ok | apply foldl_ok | apply foldl_ok1 | apply ite_ok | apply ite_ok1 | apply ite_next | apply next_ok | intro _ | dsimp only | split)

theorem State.portPush_ok {Q : List Instr} (s : State) (c port : Nat) (w : QWord) (hok : Ok Q s) : Ok Q (State.portPush s c port w) := by
  unfold State.portPush
  with_reducible repeat' (first | assumption | apply State.edgePush_ok | apply State.gwPush_ok | apply foldl_ok | apply foldl_ok1 | apply ite_ok | apply ite_ok1 | apply ite_next | apply next_ok | intro _)

theorem State.roomAt_ok {Q : List Instr} (s : State) (c port : Nat) (hok : Ok Q s) : Ok Q (State.roomAt s c port) := by
  unfold State.roomAt
  with_reducible repeat' (first | assumption | apply State.portPush_ok | apply State.wake_ok | apply foldl_ok | apply foldl_ok1 | apply ite_ok | apply ite_ok1 | apply ite_next | apply next_ok | intro _ | dsimp only | split)

theorem State.gwPop_ok {Q : List Instr} (s : State) (g dir code slot : Nat) (hok : Ok Q s) : Ok Q (State.gwPop s g dir code slot).1 := by
  unfold State.gwPop
  with_reducible repeat' (first | assumption | apply State.gwHold_ok | apply State.putGw_ok | apply State.roomAt_ok | apply State.settleReturns_ok | apply foldl_ok | apply foldl_ok1 | apply ite_ok | apply ite_ok1 | apply ite_next | apply next_ok | intro _ | dsimp only | split)

theorem State.edgePop_ok {Q : List Instr} (s : State) (c side lane dir : Nat) (hok : Ok Q s) : Ok Q (State.edgePop s c side lane dir).1 := by
  unfold State.edgePop
  with_reducible repeat' (first | assumption | apply State.putEdge_ok | apply State.roomAt_ok | apply foldl_ok | apply foldl_ok1 | apply ite_ok | apply ite_ok1 | apply ite_next | apply next_ok | intro _ | dsimp only | split)

theorem State.giveWord_ok {Q : List Instr} (s : State) (c j vd vb : Nat) (form : DestForm) (w : QWord) (hok : Ok Q s) : Ok Q (State.giveWord s c j vd vb form w) := by
  unfold State.giveWord
  with_reducible repeat' (first | assumption | apply State.onThr_ok | apply State.overrun_ok | apply State.setF_ok | apply State.voidTagAt_ok | apply foldl_ok | apply foldl_ok1 | apply ite_ok | apply ite_ok1 | apply ite_next | apply next_ok | intro _ | dsimp only | split)

theorem State.portPop_ok {Q : List Instr} (s : State) (c port : Nat) (hok : Ok Q s) : Ok Q (State.portPop s c port).1 := by
  unfold State.portPop
  with_reducible repeat' (first | assumption | apply State.edgePop_ok | apply State.gwPop_ok | apply foldl_ok | apply foldl_ok1 | apply ite_ok | apply ite_ok1 | apply ite_next | apply next_ok | intro _)

theorem State.recvDeliver_ok {Q : List Instr} (s : State) (c port : Nat) (hok : Ok Q s) : Ok Q (State.recvDeliver s c port) := by
  unfold State.recvDeliver
  with_reducible repeat' (first | assumption | apply State.giveWord_ok | apply State.portPop_ok | apply State.wake_ok | apply foldl_ok | apply foldl_ok1 | apply ite_ok | apply ite_ok1 | apply ite_next | apply next_ok | intro _ | dsimp only | split)

theorem State.putWire_ok {Q : List Instr} (s : State) (k : Nat) (ws : List QWord) (hok : Ok Q s) : Ok Q (State.putWire s k ws) := by
  unfold State.putWire
  with_reducible repeat' (first | assumption | apply State.setWires_ok)

theorem State.sendLink_ok {Q : List Instr} (s : State) (c t dir : Nat) (w : QWord) (hok : Ok Q s) : Ok Q (State.sendLink s c t dir w) := by
  unfold State.sendLink
  with_reducible repeat' (first | assumption | apply State.putWire_ok)

theorem State.routeWord_ok {Q : List Instr} (s : State) (c t slot src e : Nat) (w wl : QWord) (hok : Ok Q s) : Ok Q (State.routeWord s c t slot src e w wl).1 := by
  unfold State.routeWord
  with_reducible repeat' (first | assumption | apply State.onTile_ok | apply State.overrun_ok | apply State.sendLink_ok | apply State.tilePush_ok | apply foldl_ok | apply foldl_ok | apply foldl_ok1 | apply ite_ok | apply ite_ok1 | apply ite_next | apply next_ok | intro _ | dsimp only | split)

theorem State.routerFeed_ok {Q : List Instr} (s : State) (c t src slot e : Nat) (hok : Ok Q s) : Ok Q (State.routerFeed s c t src slot e).1 := by
  unfold State.routerFeed
  with_reducible repeat' (first | assumption | apply State.edgePop_ok | apply State.onTile_ok | apply State.putWire_ok | apply foldl_ok | apply foldl_ok1 | apply ite_ok | apply ite_ok1 | apply ite_next | apply next_ok | intro _ | dsimp only | split)

theorem State.takeReleased_ok {Q : List Instr} (s : State) (c q : Nat) (hok : Ok Q s) : Ok Q (State.takeReleased s c q).1 := by
  unfold State.takeReleased
  with_reducible repeat' (first | assumption | apply State.putSeqr_ok | apply foldl_ok | apply foldl_ok1 | apply ite_ok | apply ite_ok1 | apply ite_next | apply next_ok | intro _ | dsimp only | split)

theorem State.fetchWord_ok {Q : List Instr} (s : State) (src : WordFrom) (own : Option Nat) (feed : State × Option QWord) (inb : Nat → State × Option QWord) (hfeed : Ok Q feed.1) (hinb : ∀ k, Ok Q (inb k).1) (hok : Ok Q s) : Ok Q (State.fetchWord s src own feed inb).1 := by
  unfold State.fetchWord
  cases src
  · exact hfeed
  · exact hinb _
  · exact State.takeReleased_ok _ _ _ hok
  · exact hok

theorem State.arrive_ok {Q : List Instr} (s : State) (r : State × Option (QWord × Option Nat)) (unit pos : Nat) (p : Option Nat) (ecc : EccSeen) (eff : State → QWord → State) (hfeed : Ok Q r.1) (heff : ∀ s x, Ok Q s → Ok Q (eff s x)) (hok : Ok Q s) : Ok Q (State.arrive s r unit pos p ecc eff) := by
  unfold State.arrive
  with_reducible repeat' (first | assumption | apply heff | apply State.checkWord_ok | apply State.offTraffic_ok | apply foldl_ok | apply foldl_ok1 | apply ite_ok | apply ite_ok1 | apply ite_next | apply next_ok | intro _ | dsimp only | split)

theorem State.putRbuf_ok {Q : List Instr} (s : State) (c b : Nat) (v : RowBuf) (hok : Ok Q s) : Ok Q (State.putRbuf s c b v) := by
  unfold State.putRbuf
  with_reducible repeat' (first | assumption | apply State.setRbufs_ok)

theorem State.bandWord_ok {Q : List Instr} (s : State) (c b off : Nat) (endRow : Bool) (w : QWord) (hok : Ok Q s) : Ok Q (State.bandWord s c b off endRow w) := by
  unfold State.bandWord
  with_reducible repeat' (first | assumption | apply State.putRbuf_ok | apply State.storePut_ok | apply foldl_ok | apply foldl_ok1 | apply ite_ok | apply ite_ok1 | apply ite_next | apply next_ok | intro _ | dsimp only | split)

theorem State.seqFull_ok {Q : List Instr} (s : State) (c q slot : Nat) (tag : Byte) (hok : Ok Q s) : Ok Q (State.seqFull s c q slot tag) := by
  unfold State.seqFull
  with_reducible repeat' (first | assumption | apply State.departs_ok | apply State.putSeqr_ok | apply foldl_ok | apply foldl_ok1 | apply ite_ok | apply ite_ok1 | apply ite_next | apply next_ok | intro _ | dsimp only | split)

theorem State.seqPush_ok {Q : List Instr} (s : State) (c q slot : Nat) (w : QWord) (hok : Ok Q s) : Ok Q (State.seqPush s c q slot w) := by
  unfold State.seqPush
  with_reducible repeat' (first | assumption | apply State.putSeqr_ok | apply State.reportTag_ok | apply State.seqFull_ok | apply State.storePut_ok | apply foldl_ok | apply foldl_ok1 | apply ite_ok | apply ite_ok1 | apply ite_next | apply next_ok | intro _ | dsimp only | split)

theorem State.atSpineSlot_ok {Q : List Instr} (s : State) (slot : Nat) (hok : Ok Q s) : Ok Q (State.atSpineSlot s slot) := by
  unfold State.atSpineSlot
  with_reducible repeat' (first | assumption | apply State.reach_ok | apply foldl_ok | apply foldl_ok1 | apply ite_ok | apply ite_ok1 | apply ite_next | apply next_ok | intro _ | dsimp only | split)

theorem State.atCoreSlot_ok {Q : List Instr} (s : State) (c slot : Nat) (hok : Ok Q s) : Ok Q (State.atCoreSlot s c slot) := by
  unfold State.atCoreSlot
  with_reducible repeat' (first | assumption | apply State.onCore_ok | apply foldl_ok | apply foldl_ok1 | apply ite_ok | apply ite_ok1 | apply ite_next | apply next_ok | intro _ | dsimp only | split)

theorem State.putFlit_ok {Q : List Instr} (s : State) (k : Nat) (ws : List (Nat × QWord)) (hok : Ok Q s) : Ok Q (State.putFlit s k ws) := by
  unfold State.putFlit
  with_reducible repeat' (first | assumption | apply State.setFlits_ok)

theorem State.switchWord_ok {Q : List Instr} (s : State) (q port pos slot : Nat) (w : QWord) (hok : Ok Q s) : Ok Q (State.switchWord s q port pos slot w) := by
  unfold State.switchWord
  with_reducible repeat' (first | assumption | apply State.putFlit_ok | apply State.strayWord_ok | apply foldl_ok | apply foldl_ok1 | apply ite_ok | apply ite_ok1 | apply ite_next | apply next_ok | intro _ | dsimp only | split)

theorem State.gwSend_ok {Q : List Instr} (s : State) (g slot pos : Nat) (p : Option Nat) (hok : Ok Q s) : Ok Q (State.gwSend s g slot pos p).1 := by
  unfold State.gwSend
  with_reducible repeat' (first | assumption | apply State.gwPop_ok | apply foldl_ok | apply foldl_ok1 | apply ite_ok | apply ite_ok1 | apply ite_next | apply next_ok | intro _ | dsimp only | split)

theorem State.routerWord_ok {Q : List Instr} (s : State) (c t k slot : Nat) (src : WordFrom) (ecc : EccSeen) (hok : Ok Q s) : Ok Q (State.routerWord s c t k slot src ecc) := by
  unfold State.routerWord
  with_reducible repeat' (first | assumption | apply State.arrive_ok | apply State.checkWord_ok | apply State.fetchWord_ok | apply State.routeWord_ok | apply State.routerFeed_ok | apply State.strayWord_ok | apply foldl_ok | apply foldl_ok1 | apply ite_ok | apply ite_ok1 | apply ite_next | apply next_ok | intro _ | dsimp only | split)

theorem State.edgeWord_ok {Q : List Instr} (s : State) (c side lane slot : Nat) (inward : Bool) (src : WordFrom) (ecc : EccSeen) (hok : Ok Q s) : Ok Q (State.edgeWord s c side lane slot inward src ecc) := by
  unfold State.edgeWord
  with_reducible repeat' (first | assumption | apply State.arrive_ok | apply State.edgePush_ok | apply State.fetchWord_ok | apply State.gwPop_ok | apply State.putWire_ok | apply State.recvDeliver_ok | apply foldl_ok | apply foldl_ok1 | apply ite_ok | apply ite_ok1 | apply ite_next | apply next_ok | intro _ | dsimp only | split)

theorem State.laneWord_ok {Q : List Instr} (s : State) (c code slot : Nat) (src : WordFrom) (ecc : EccSeen) (hok : Ok Q s) : Ok Q (State.laneWord s c code slot src ecc) := by
  unfold State.laneWord
  with_reducible repeat' (first | assumption | apply State.arrive_ok | apply State.edgePop_ok | apply State.fetchWord_ok | apply State.gwPush_ok | apply foldl_ok | apply foldl_ok1 | apply ite_ok | apply ite_ok1 | apply ite_next | apply next_ok | intro _ | dsimp only | split)

theorem State.seqWord_ok {Q : List Instr} (s : State) (c q row slot : Nat) (src : WordFrom) (ecc : EccSeen) (hok : Ok Q s) : Ok Q (State.seqWord s c q row slot src ecc) := by
  unfold State.seqWord
  with_reducible repeat' (first | assumption | apply State.arrive_ok | apply State.edgePop_ok | apply State.fetchWord_ok | apply State.gwPop_ok | apply State.seqFull_ok | apply State.seqPush_ok | apply foldl_ok | apply foldl_ok1 | apply ite_ok | apply ite_ok1 | apply ite_next | apply next_ok | intro _ | dsimp only | split)

theorem State.rowWord_ok {Q : List Instr} (s : State) (c b off slot : Nat) (endRow : Bool) (src : WordFrom) (ecc : EccSeen) (hok : Ok Q s) : Ok Q (State.rowWord s c b off slot endRow src ecc) := by
  unfold State.rowWord
  with_reducible repeat' (first | assumption | apply State.arrive_ok | apply State.bandWord_ok | apply State.fetchWord_ok | apply State.gwPop_ok | apply foldl_ok | apply foldl_ok1 | apply ite_ok | apply ite_ok1 | apply ite_next | apply next_ok | intro _ | dsimp only | split)

theorem State.portWord_ok {Q : List Instr} (s : State) (q port pos slot : Nat) (src : WordFrom) (ecc : EccSeen) (hok : Ok Q s) : Ok Q (State.portWord s q port pos slot src ecc) := by
  unfold State.portWord
  with_reducible repeat' (first | assumption | apply State.arrive_ok | apply State.fetchWord_ok | apply State.gwSend_ok | apply State.switchWord_ok | apply foldl_ok | apply foldl_ok1 | apply ite_ok | apply ite_ok1 | apply ite_next | apply next_ok | intro _ | dsimp only | split)

theorem State.settleFrame_ok {Q : List Instr} (s : State) (p : Nat) (f : Frame) (hok : Ok Q s) : Ok Q (State.settleFrame s p f) := by
  unfold State.settleFrame
  with_reducible repeat' (first | assumption | apply State.onPipe_ok | apply State.settleFollower_ok | apply foldl_ok | apply foldl_ok1 | apply ite_ok | apply ite_ok1 | apply ite_next | apply next_ok | intro _ | dsimp only | split)

theorem State.settleDone_ok {Q : List Instr} (s : State) (hok : Ok Q s) : Ok Q (State.settleDone s) := by
  unfold State.settleDone
  with_reducible repeat' (first | assumption | apply State.settleFrame_ok | apply foldl_ok | apply foldl_ok | apply foldl_ok1 | apply ite_ok | apply ite_ok1 | apply ite_next | apply next_ok | intro _ | dsimp only | split)

theorem execWordArrival_ok {Q : List Instr} (site : FabSite) (slot : Fin 128) (src : WordFrom) (ecc : EccSeen) (s : State) (hok : Ok Q s) : OkOut Q (execWordArrival site slot src ecc s) := by
  unfold execWordArrival
  with_reducible repeat' (first | assumption | apply State.atCoreSlot_ok | apply State.atSpineSlot_ok | apply State.edgeWord_ok | apply State.laneWord_ok | apply State.portWord_ok | apply State.routerWord_ok | apply State.rowWord_ok | apply State.seqWord_ok | apply State.settleDone_ok | apply next_ok | apply foldl_ok | apply foldl_ok1 | apply ite_ok | apply ite_ok1 | apply ite_next | apply next_ok | intro _ | dsimp only | split)

theorem State.loseLock_ok {Q : List Instr} (s : State) (err : Int) (hok : Ok Q s) : Ok Q (State.loseLock s err) := by
  unfold State.loseLock
  with_reducible repeat' (first | assumption | apply State.report_ok | apply State.setF_ok | apply State.setQsk_ok | apply foldl_ok | apply foldl_ok1 | apply ite_ok | apply ite_ok1 | apply ite_next | apply next_ok | intro _ | dsimp only | split)

theorem execHoldSample_ok {Q : List Instr} (site : HoldSite) (slot : Fin 128) (src : HoldFrom) (s : State) (hok : Ok Q s) : OkOut Q (execHoldSample site slot src s) := by
  unfold execHoldSample
  with_reducible repeat' (first | assumption | apply State.atCoreSlot_ok | apply State.atSpineSlot_ok | apply State.onLink_ok | apply State.onTile_ok | apply State.putEdge_ok | apply State.putGw_ok | apply next_ok | apply foldl_ok | apply foldl_ok1 | apply ite_ok | apply ite_ok1 | apply ite_next | apply next_ok | intro _ | dsimp only | split)

theorem State.tagOcc_ok {Q : List Instr} (s : State) (c t : Nat) (tag : Byte) (hok : Ok Q s) : Ok Q (State.tagOcc s c t tag) := by
  unfold State.tagOcc
  with_reducible repeat' (first | assumption | apply State.onTile_ok | apply State.reportTag_ok | apply foldl_ok | apply foldl_ok1 | apply ite_ok | apply ite_ok1 | apply ite_next | apply next_ok | intro _)

theorem execQueueHeadMove_ok {Q : List Instr} (c : Fin 32) (t : Fin 256) (q : Fin 4) (s : State) (hok : Ok Q s) : OkOut Q (execQueueHeadMove c t q s) := by
  unfold execQueueHeadMove
  with_reducible repeat' (first | assumption | apply State.departs_ok | apply State.onTile_ok | apply State.putTile_ok | apply State.reportTag_ok | apply State.tagOcc_ok | apply State.tileHold_ok | apply State.voidTag_ok | apply foldl_ok | apply foldl_ok1 | apply ite_ok | apply ite_ok1 | apply ite_next | apply next_ok | intro _ | dsimp only | split)

theorem execJoinStall_ok {Q : List Instr} (site : StallSite) (slot : Fin 128) (cycles : Nat) (s : State) (hok : Ok Q s) : OkOut Q (execJoinStall site slot cycles s) := by
  unfold execJoinStall
  with_reducible repeat' (first | assumption | apply State.onTile_ok | apply State.putGw_ok | apply State.putSeqr_ok | apply State.report_ok | apply next_ok | apply foldl_ok | apply foldl_ok1 | apply ite_ok | apply ite_ok1 | apply ite_next | apply next_ok | intro _ | dsimp only | split)

theorem State.inputFlit_ok {Q : List Instr} (s : State) (q port slot : Nat) (p : Option Nat) (ecc : List EccSeen) (hok : Ok Q s) : Ok Q (State.inputFlit s q port slot p ecc).1 := by
  unfold State.inputFlit
  with_reducible repeat' (first | assumption | apply State.checkWord_ok | apply State.gwSend_ok | apply State.putFlit_ok | apply foldl_ok | apply foldl_ok | apply foldl_ok1 | apply ite_ok | apply ite_ok1 | apply ite_next | apply next_ok | intro _ | dsimp only | split)

theorem State.settleTail_ok {Q : List Instr} (s : State) (hok : Ok Q s) : Ok Q (State.settleTail s) := by
  unfold State.settleTail
  with_reducible repeat' (first | assumption | apply State.putGw_ok | apply State.setSol_ok | apply foldl_ok | apply foldl_ok | apply foldl_ok1 | apply ite_ok | apply ite_ok1 | apply ite_next | apply next_ok | intro _ | dsimp only | split)

theorem State.unitWord_ok {Q : List Instr} (s : State) (g code slot : Nat) (p : Option Nat) (w : QWord) (hok : Ok Q s) : Ok Q (State.unitWord s g code slot p w) := by
  unfold State.unitWord
  with_reducible repeat' (first | assumption | apply State.emit_ok | apply State.gwPush_ok | apply State.setCodec_ok | apply State.setSol_ok | apply State.settleTail_ok | apply foldl_ok | apply foldl_ok1 | apply ite_ok | apply ite_ok1 | apply ite_next | apply next_ok | intro _ | dsimp only | split)

theorem State.gateFlit_ok {Q : List Instr} (s : State) (g slot : Nat) (p : Option Nat) (ws : List (Nat × QWord)) (ecc : List EccSeen) (hok : Ok Q s) : Ok Q (State.gateFlit s g slot p ws ecc) := by
  unfold State.gateFlit
  with_reducible repeat' (first | assumption | apply State.checkWord_ok | apply State.gwPush_ok | apply State.recvDeliver_ok | apply State.strayWord_ok | apply State.unitWord_ok | apply foldl_ok | apply foldl_ok | apply foldl_ok1 | apply ite_ok | apply ite_ok1 | apply ite_next | apply next_ok | intro _ | dsimp only | split)

theorem State.sendFlit_ok {Q : List Instr} (s : State) (q port slot : Nat) (flit : Option (List (Nat × QWord))) (hok : Ok Q s) : Ok Q (State.sendFlit s q port slot flit) := by
  unfold State.sendFlit
  with_reducible repeat' (first | assumption | apply State.emit_ok | apply foldl_ok | apply foldl_ok | apply foldl_ok1 | apply ite_ok | apply ite_ok1 | apply ite_next | apply next_ok | intro _ | dsimp only | split)

theorem State.outFlit_ok {Q : List Instr} (s : State) (q port slot : Nat) (p : Option Nat) (ws : List (Nat × QWord)) (ecc : List EccSeen) (hok : Ok Q s) : Ok Q (State.outFlit s q port slot p ws ecc) := by
  unfold State.outFlit
  with_reducible repeat' (first | assumption | apply State.checkWord_ok | apply State.emit_ok | apply State.gateFlit_ok | apply State.sendFlit_ok | apply State.switchWord_ok | apply foldl_ok | apply foldl_ok | apply foldl_ok1 | apply ite_ok | apply ite_ok1 | apply ite_next | apply next_ok | intro _ | dsimp only | split)

theorem State.loseEntry_ok {Q : List Instr} (s : State) (p q port slot : Nat) (hok : Ok Q s) : Ok Q (State.loseEntry s p q port slot) := by
  unfold State.loseEntry
  with_reducible repeat' (first | assumption | apply State.losePath_ok | apply foldl_ok | apply foldl_ok1 | apply ite_ok | apply ite_ok1 | apply ite_next | apply next_ok | intro _ | dsimp only | split)

theorem execFlitForward_ok {Q : List Instr} (q : Fin 4) (port : Fin 40) (slot : Fin 128) (tab : EccSeen) (ecc : FlitEcc) (s : State) (hok : Ok Q s) : OkOut Q (execFlitForward q port slot tab ecc s) := by
  unfold execFlitForward
  with_reducible repeat' (first | assumption | apply State.atSpineSlot_ok | apply State.inputFlit_ok | apply State.loseEntry_ok | apply State.offTraffic_ok | apply State.outFlit_ok | apply State.putFlit_ok | apply State.reportP_ok | apply State.report_ok | apply State.sendFlit_ok | apply State.setSpineBad_ok | apply State.settleDone_ok | apply State.strayWord_ok | apply foldl_ok | apply next_ok | apply foldl_ok | apply foldl_ok1 | apply ite_ok | apply ite_ok1 | apply ite_next | apply next_ok | intro _ | dsimp only | split)

end Sys2Proof.Machine
end

