-- ==== Sys2Proof/Laws/Keep/Tile.lean ====
section
/-!
SUPPORT. What the operations of Machine/Tile.lean keep.
-/

namespace Sys2Proof.Machine

theorem State.tallyTile_ok {Q : List Instr} (s : State) (c t i n : Nat) (hok : Ok Q s) : Ok Q (State.tallyTile s c t i n) := by
  unfold State.tallyTile
  with_reducible repeat' (first | assumption | apply State.addF_ok | apply foldl_ok | apply foldl_ok1 | apply ite_ok | apply ite_ok1 | apply ite_next | apply next_ok | intro _)

theorem State.consumeMark_ok {Q : List Instr} (s : State) (c t : Nat) (tag : Byte) (m : Mark) (hok : Ok Q s) : Ok Q (State.consumeMark s c t tag m) := by
  unfold State.consumeMark
  with_reducible repeat' (first | assumption | apply State.reportTag_ok | apply State.voidTag_ok | apply State.voidTagAt_ok | apply foldl_ok | apply foldl_ok1 | apply ite_ok | apply ite_ok1 | apply ite_next | apply next_ok | intro _ | dsimp only | split)

theorem State.startFiring_ok {Q : List Instr} (s : State) (c t j : Nat) (hok : Ok Q s) : Ok Q (State.startFiring s c t j) := by
  unfold State.startFiring
  with_reducible repeat' (first | assumption | apply State.consumeMark_ok | apply State.onTile_ok | apply State.tallyTile_ok | apply foldl_ok | apply foldl_ok1 | apply ite_ok | apply ite_ok1 | apply ite_next | apply next_ok | intro _ | dsimp only | split)

theorem execFiring_ok {Q : List Instr} (c : Fin 32) (t : Fin 256) (s : State) (hok : Ok Q s) : OkOut Q (execFiring c t s) := by
  unfold execFiring
  with_reducible repeat' (first | assumption | apply State.startFiring_ok | apply foldl_ok | apply foldl_ok1 | apply ite_ok | apply ite_ok1 | apply ite_next | apply next_ok | intro _ | dsimp only | split)

theorem State.tileNext_ok {Q : List Instr} (s : State) (f : FireAt) (hok : Ok Q s) : Ok Q (State.tileNext s f) := by
  unfold State.tileNext
  with_reducible repeat' (first | assumption | apply State.onTile_ok)

theorem State.tileIssue_ok {Q : List Instr} (s : State) (op : Nat) (mi : TileInstr) (sends : State → FireAt → Bool) (body : State → FireAt → State) (hbody : ∀ s x, Ok Q s → Ok Q (body s x)) (hok : Ok Q s) : Ok Q (State.tileIssue s op mi sends body) := by
  unfold State.tileIssue
  with_reducible repeat' (first | assumption | apply hbody | apply State.tileNext_ok | apply foldl_ok | apply foldl_ok1 | apply ite_ok | apply ite_ok1 | apply ite_next | apply next_ok | intro _ | dsimp only | split)

theorem State.tileSend_ok {Q : List Instr} (s : State) (f : FireAt) (data : W64) (tag : Byte) (hok : Ok Q s) : Ok Q (State.tileSend s f data tag) := by
  unfold State.tileSend
  with_reducible repeat' (first | assumption | apply State.onTile_ok)

theorem State.wrReg_ok {Q : List Instr} (s : State) (f : FireAt) (n v : Nat) (hok : Ok Q s) : Ok Q (State.wrReg s f n v) := by
  unfold State.wrReg
  with_reducible repeat' (first | assumption | apply State.onTile_ok | apply State.setF_ok | apply foldl_ok | apply foldl_ok1 | apply ite_ok | apply ite_ok1 | apply ite_next | apply next_ok | intro _)

theorem State.wrLane_ok {Q : List Instr} (s : State) (f : FireAt) (n lane v : Nat) (hok : Ok Q s) : Ok Q (State.wrLane s f n lane v) := by
  unfold State.wrLane
  with_reducible repeat' (first | assumption | apply State.wrReg_ok)

theorem State.stageCount_ok {Q : List Instr} (s : State) (c : Nat) (tag : Byte) (stage : Nat) (sat sv : Nat) (hok : Ok Q s) : Ok Q (State.stageCount s c tag stage sat sv) := by
  unfold State.stageCount
  with_reducible repeat' (first | assumption | apply State.onFrame_ok | apply foldl_ok | apply foldl_ok1 | apply ite_ok | apply ite_ok1 | apply ite_next | apply next_ok | intro _ | dsimp only | split)

theorem State.svEvent_ok {Q : List Instr} (s : State) (f : FireAt) (hok : Ok Q s) : Ok Q (State.svEvent s f) := by
  unfold State.svEvent
  with_reducible repeat' (first | assumption | apply State.addF_ok | apply State.stageCount_ok)

theorem State.elemWrite_ok {Q : List Instr} (s : State) (f : FireAt) (mi : TileInstr) (r : Nat × Bool) (hok : Ok Q s) : Ok Q (State.elemWrite s f mi r) := by
  unfold State.elemWrite
  with_reducible repeat' (first | assumption | apply State.svEvent_ok | apply State.wrReg_ok | apply foldl_ok | apply foldl_ok1 | apply ite_ok | apply ite_ok1 | apply ite_next | apply next_ok | intro _)

theorem State.elemOp_ok {Q : List Instr} (mi : TileInstr) (g : Int → Int → Int → Int) (s : State) (f : FireAt) (hok : Ok Q s) : Ok Q (State.elemOp mi g s f) := by
  unfold State.elemOp
  with_reducible repeat' (first | assumption | apply State.elemWrite_ok)

theorem execNop_ok {Q : List Instr} (mi : TileInstr) (s : State) (hok : Ok Q s) : OkOut Q (execNop mi s) := by
  unfold execNop
  with_reducible repeat' (first | assumption | apply State.tileIssue_ok | apply foldl_ok | apply foldl_ok1 | apply ite_ok | apply ite_ok1 | apply ite_next | apply next_ok | intro _)

theorem execTileAdd_ok {Q : List Instr} (mi : TileInstr) (s : State) (hok : Ok Q s) : OkOut Q (execTileAdd mi s) := by
  unfold execTileAdd
  with_reducible repeat' (first | assumption | apply State.elemOp_ok | apply State.tileIssue_ok | apply foldl_ok | apply foldl_ok1 | apply ite_ok | apply ite_ok1 | apply ite_next | apply next_ok)

theorem execTileSub_ok {Q : List Instr} (mi : TileInstr) (s : State) (hok : Ok Q s) : OkOut Q (execTileSub mi s) := by
  unfold execTileSub
  with_reducible repeat' (first | assumption | apply State.elemOp_ok | apply State.tileIssue_ok | apply foldl_ok | apply foldl_ok1 | apply ite_ok | apply ite_ok1 | apply ite_next | apply next_ok)

theorem execTileMax_ok {Q : List Instr} (mi : TileInstr) (s : State) (hok : Ok Q s) : OkOut Q (execTileMax mi s) := by
  unfold execTileMax
  with_reducible repeat' (first | assumption | apply State.elemOp_ok | apply State.tileIssue_ok | apply foldl_ok | apply foldl_ok1 | apply ite_ok | apply ite_ok1 | apply ite_next | apply next_ok)

theorem execTileMin_ok {Q : List Instr} (mi : TileInstr) (s : State) (hok : Ok Q s) : OkOut Q (execTileMin mi s) := by
  unfold execTileMin
  with_reducible repeat' (first | assumption | apply State.elemOp_ok | apply State.tileIssue_ok | apply foldl_ok | apply foldl_ok1 | apply ite_ok | apply ite_ok1 | apply ite_next | apply next_ok)

theorem execTileCmp_ok {Q : List Instr} (mi : TileInstr) (s : State) (hok : Ok Q s) : OkOut Q (execTileCmp mi s) := by
  unfold execTileCmp
  with_reducible repeat' (first | assumption | apply State.elemOp_ok | apply State.tileIssue_ok | apply foldl_ok | apply foldl_ok1 | apply ite_ok | apply ite_ok1 | apply ite_next | apply next_ok)

theorem execTileSel_ok {Q : List Instr} (mi : TileInstr) (s : State) (hok : Ok Q s) : OkOut Q (execTileSel mi s) := by
  unfold execTileSel
  with_reducible repeat' (first | assumption | apply State.elemOp_ok | apply State.tileIssue_ok | apply foldl_ok | apply foldl_ok1 | apply ite_ok | apply ite_ok1 | apply ite_next | apply next_ok)

theorem execTileRshr_ok {Q : List Instr} (mi : TileInstr) (s : State) (hok : Ok Q s) : OkOut Q (execTileRshr mi s) := by
  unfold execTileRshr
  with_reducible repeat' (first | assumption | apply State.elemOp_ok | apply State.tileIssue_ok | apply foldl_ok | apply foldl_ok1 | apply ite_ok | apply ite_ok1 | apply ite_next | apply next_ok)

theorem execClamp_ok {Q : List Instr} (mi : TileInstr) (s : State) (hok : Ok Q s) : OkOut Q (execClamp mi s) := by
  unfold execClamp
  with_reducible repeat' (first | assumption | apply State.elemOp_ok | apply State.tileIssue_ok | apply foldl_ok | apply foldl_ok1 | apply ite_ok | apply ite_ok1 | apply ite_next | apply next_ok | intro _)

theorem execMov_ok {Q : List Instr} (mi : TileInstr) (s : State) (hok : Ok Q s) : OkOut Q (execMov mi s) := by
  unfold execMov
  with_reducible repeat' (first | assumption | apply State.elemOp_ok | apply State.tileIssue_ok | apply foldl_ok | apply foldl_ok1 | apply ite_ok | apply ite_ok1 | apply ite_next | apply next_ok)

theorem execEmit_ok {Q : List Instr} (mi : TileInstr) (s : State) (hok : Ok Q s) : OkOut Q (execEmit mi s) := by
  unfold execEmit
  with_reducible repeat' (first | assumption | apply State.tileIssue_ok | apply State.tileSend_ok | apply foldl_ok | apply foldl_ok1 | apply ite_ok | apply ite_ok1 | apply ite_next | apply next_ok | intro _)

theorem State.putAcc_ok {Q : List Instr} (s : State) (f : FireAt) (k : Nat) (a : AccSlot) (hok : Ok Q s) : Ok Q (State.putAcc s f k a) := by
  unfold State.putAcc
  with_reducible repeat' (first | assumption | apply State.onTile_ok)

theorem State.onTag_ok {Q : List Instr} (s : State) (c : Nat) (tag : Byte) (g : Frame → Frame) (hok : Ok Q s) : Ok Q (State.onTag s c tag g) := by
  unfold State.onTag
  with_reducible repeat' (first | assumption | apply State.onFrame_ok | apply foldl_ok | apply foldl_ok1 | apply ite_ok | apply ite_ok1 | apply ite_next | apply next_ok | intro _ | dsimp only | split)

theorem State.countClamp_ok {Q : List Instr} (s : State) (c : Nat) (tag : Byte) (stage tensor : Nat) (hok : Ok Q s) : Ok Q (State.countClamp s c tag stage tensor) := by
  unfold State.countClamp
  with_reducible repeat' (first | assumption | apply State.addF_ok | apply State.onTag_ok)

theorem State.rescaleCount_ok {Q : List Instr} (s : State) (f : FireAt) (t : Int) (sat : Bool) (e : RescEntry) (b : Nat) (hok : Ok Q s) : Ok Q (State.rescaleCount s f t sat e b).1 := by
  unfold State.rescaleCount
  with_reducible repeat' (first | assumption | apply State.countClamp_ok | apply State.onTag_ok | apply State.stageCount_ok | apply foldl_ok | apply foldl_ok1 | apply ite_ok | apply ite_ok1 | apply ite_next | apply next_ok | intro _ | dsimp only | split)

theorem State.spill_ok {Q : List Instr} (s : State) (f : FireAt) (h : AccHdr) (k : Nat) (a : AccSlot) (hok : Ok Q s) : Ok Q (State.spill s f h k a) := by
  unfold State.spill
  with_reducible repeat' (first | assumption | apply State.putAcc_ok | apply State.tileSend_ok | apply foldl_ok | apply foldl_ok1 | apply ite_ok | apply ite_ok1 | apply ite_next | apply next_ok | intro _ | dsimp only | split)

theorem execMac_ok {Q : List Instr} (mi : TileInstr) (s : State) (hok : Ok Q s) : OkOut Q (execMac mi s) := by
  unfold execMac
  with_reducible repeat' (first | assumption | apply State.spill_ok | apply State.tallyTile_ok | apply State.tileIssue_ok | apply foldl_ok | apply foldl_ok1 | apply ite_ok | apply ite_ok1 | apply ite_next | apply next_ok | intro _)

theorem State.candidates_ok {Q : List Instr} (mi : TileInstr) (isMin : Bool) (s : State) (f : FireAt) (hok : Ok Q s) : Ok Q (State.candidates mi isMin s f) := by
  unfold State.candidates
  with_reducible repeat' (first | assumption | apply State.putAcc_ok | apply State.tileSend_ok | apply foldl_ok | apply foldl_ok1 | apply ite_ok | apply ite_ok1 | apply ite_next | apply next_ok | intro _)

theorem execMaxx_ok {Q : List Instr} (mi : TileInstr) (s : State) (hok : Ok Q s) : OkOut Q (execMaxx mi s) := by
  unfold execMaxx
  with_reducible repeat' (first | assumption | apply State.candidates_ok | apply State.tileIssue_ok | apply foldl_ok | apply foldl_ok1 | apply ite_ok | apply ite_ok1 | apply ite_next | apply next_ok)

theorem execMinx_ok {Q : List Instr} (mi : TileInstr) (s : State) (hok : Ok Q s) : OkOut Q (execMinx mi s) := by
  unfold execMinx
  with_reducible repeat' (first | assumption | apply State.candidates_ok | apply State.tileIssue_ok | apply foldl_ok | apply foldl_ok1 | apply ite_ok | apply ite_ok1 | apply ite_next | apply next_ok)

theorem execResume_ok {Q : List Instr} (mi : TileInstr) (s : State) (hok : Ok Q s) : OkOut Q (execResume mi s) := by
  unfold execResume
  with_reducible repeat' (first | assumption | apply State.putAcc_ok | apply State.tileIssue_ok | apply foldl_ok | apply foldl_ok1 | apply ite_ok | apply ite_ok1 | apply ite_next | apply next_ok | intro _)

theorem State.outWrite_ok {Q : List Instr} (s : State) (f : FireAt) (dst i form : Nat) (o : RescOut) (sat : Bool) (hok : Ok Q s) : Ok Q (State.outWrite s f dst i form o sat) := by
  unfold State.outWrite
  with_reducible repeat' (first | assumption | apply State.wrLane_ok | apply State.wrReg_ok | apply foldl_ok | apply foldl_ok1 | apply ite_ok | apply ite_ok1 | apply ite_next | apply next_ok | intro _)

theorem State.outA32_ok {Q : List Instr} (mi : TileInstr) (h : AccHdr) (a : AccSlot) (s s0 : State) (f : FireAt) (row : Nat) (hok : Ok Q s) : Ok Q (State.outA32 mi h a s s0 f row) := by
  unfold State.outA32
  with_reducible repeat' (first | assumption | apply State.outWrite_ok | apply State.rescaleCount_ok | apply foldl_ok | apply foldl_ok1 | apply ite_ok | apply ite_ok1 | apply ite_next | apply next_ok | intro _ | dsimp only | split)

theorem State.outA16_ok {Q : List Instr} (mi : TileInstr) (h : AccHdr) (a : AccSlot) (s s0 : State) (f : FireAt) (k : Nat) (hok : Ok Q s) : Ok Q (State.outA16 mi h a s s0 f k) := by
  unfold State.outA16
  with_reducible repeat' (first | assumption | apply State.outWrite_ok | apply State.rescaleCount_ok | apply foldl_ok | apply foldl_ok1 | apply ite_ok | apply ite_ok1 | apply ite_next | apply next_ok | intro _ | dsimp only | split)

theorem State.outA32X_ok {Q : List Instr} (mi : TileInstr) (h : AccHdr) (a : AccSlot) (s : State) (f : FireAt) (row : Nat) (hok : Ok Q s) : Ok Q (State.outA32X mi h a s f row) := by
  unfold State.outA32X
  with_reducible repeat' (first | assumption | apply State.wrReg_ok)

theorem execOut_ok {Q : List Instr} (mi : TileInstr) (s : State) (hok : Ok Q s) : OkOut Q (execOut mi s) := by
  unfold execOut
  with_reducible repeat' (first | assumption | apply State.outA16_ok | apply State.outA32_ok | apply State.outA32X_ok | apply State.putAcc_ok | apply State.tileIssue_ok | apply foldl_ok | apply foldl_ok1 | apply ite_ok | apply ite_ok1 | apply ite_next | apply next_ok | intro _)

theorem execRescale_ok {Q : List Instr} (mi : TileInstr) (s : State) (hok : Ok Q s) : OkOut Q (execRescale mi s) := by
  unfold execRescale
  with_reducible repeat' (first | assumption | apply State.rescaleCount_ok | apply State.tileIssue_ok | apply State.wrLane_ok | apply State.wrReg_ok | apply foldl_ok | apply foldl_ok1 | apply ite_ok | apply ite_ok1 | apply ite_next | apply next_ok | intro _)

theorem execQuant_ok {Q : List Instr} (mi : TileInstr) (s : State) (hok : Ok Q s) : OkOut Q (execQuant mi s) := by
  unfold execQuant
  with_reducible repeat' (first | assumption | apply State.countClamp_ok | apply State.onTag_ok | apply State.tileIssue_ok | apply State.wrLane_ok | apply foldl_ok | apply foldl_ok1 | apply ite_ok | apply ite_ok1 | apply ite_next | apply next_ok | intro _)

end Sys2Proof.Machine
end

