-- ==== Sys2Proof/Laws/Keep/Array.lean ====
section
/-!
SUPPORT. What the operations of Machine/Array.lean keep.
-/

namespace Sys2Proof.Machine

theorem State.putCarry_ok {Q : List Instr} (s : State) (c e : Nat) (x : CarryEntry) (hok : Ok Q s) : Ok Q (State.putCarry s c e x) := by
  unfold State.putCarry
  with_reducible repeat' (first | assumption | apply State.setCarry_ok)

theorem State.resetCarry_ok {Q : List Instr} (s : State) (c : Nat) (d : CarryDesc) (e : Nat) (hok : Ok Q s) : Ok Q (State.resetCarry s c d e) := by
  unfold State.resetCarry
  with_reducible repeat' (first | assumption | apply State.putCarry_ok | apply foldl_ok | apply foldl_ok1 | apply ite_ok | apply ite_ok1 | apply ite_next | apply next_ok | intro _)

theorem State.carryMeet_ok {Q : List Instr} (s : State) (c e : Nat) (seen : EccSeen) (hok : Ok Q s) : Ok Q (State.carryMeet s c e seen).1 := by
  unfold State.carryMeet
  with_reducible repeat' (first | assumption | apply State.addF_ok | apply State.report_ok | apply foldl_ok | apply foldl_ok1 | apply ite_ok | apply ite_ok1 | apply ite_next | apply next_ok | intro _ | dsimp only | split)

theorem State.drain_ok {Q : List Instr} (s : State) (c : Nat) (d : CarryDesc) (e index : Nat) (tag : Byte) (mark : Option Mark) (hok : Ok Q s) : Ok Q (State.drain s c d e index tag mark) := by
  unfold State.drain
  with_reducible repeat' (first | assumption | apply State.edgePush_ok | apply State.resetCarry_ok | apply foldl_ok | apply foldl_ok1 | apply ite_ok | apply ite_ok1 | apply ite_next | apply next_ok | intro _)

theorem State.applySpill_ok {Q : List Instr} (s : State) (c : Nat) (d : CarryDesc) (w : QWord) (idx : Option QWord) (seen : EccSeen) (hok : Ok Q s) : Ok Q (State.applySpill s c d w idx seen) := by
  unfold State.applySpill
  with_reducible repeat' (first | assumption | apply State.carryMeet_ok | apply State.drain_ok | apply State.putCarry_ok | apply foldl_ok | apply foldl_ok1 | apply ite_ok | apply ite_ok1 | apply ite_next | apply next_ok | intro _ | dsimp only | split)

theorem execCarrySpillArrival_ok {Q : List Instr} (c : Fin 32) (col : Fin 16) (seen : EccSeen) (s : State) (hok : Ok Q s) : OkOut Q (execCarrySpillArrival c col seen s) := by
  unfold execCarrySpillArrival
  with_reducible repeat' (first | assumption | apply State.applySpill_ok | apply State.edgePop_ok | apply State.reportTag_ok | apply State.voidTag_ok | apply State.voidTagAt_ok | apply foldl_ok | apply foldl_ok1 | apply ite_ok | apply ite_ok1 | apply ite_next | apply next_ok | intro _ | dsimp only | split)

theorem State.stageDone_ok {Q : List Instr} (s : State) (p fif stage : Nat) (hok : Ok Q s) : Ok Q (State.stageDone s p fif stage) := by
  unfold State.stageDone
  with_reducible repeat' (first | assumption | apply State.onPipe_ok | apply State.settleFrame_ok | apply foldl_ok | apply foldl_ok1 | apply ite_ok | apply ite_ok1 | apply ite_next | apply next_ok | intro _ | dsimp only | split)

theorem State.nonfinite_ok {Q : List Instr} (s : State) (p fif tensor : Nat) (n : Nat × Nat × Nat) (hok : Ok Q s) : Ok Q (State.nonfinite s p fif tensor n) := by
  unfold State.nonfinite
  with_reducible repeat' (first | assumption | apply State.onFrame_ok | apply State.reportF_ok | apply foldl_ok | apply foldl_ok1 | apply ite_ok | apply ite_ok1 | apply ite_next | apply next_ok | intro _ | dsimp only | split)

theorem State.leaveStage_ok {Q : List Instr} (s : State) (unit p fif stage : Nat) (hok : Ok Q s) : Ok Q (State.leaveStage s unit p fif stage) := by
  unfold State.leaveStage
  with_reducible repeat' (first | assumption | apply State.nonfinite_ok | apply State.onFrame_ok | apply State.reportF_ok | apply foldl_ok | apply foldl_ok | apply foldl_ok1 | apply ite_ok | apply ite_ok1 | apply ite_next | apply next_ok | intro _ | dsimp only | split)

theorem State.heldWords_ok {Q : List Instr} (s : State) (c : Nat) (ws : List SeqWord) (hok : Ok Q s) : Ok Q (State.heldWords s c ws).1 := by
  unfold State.heldWords
  with_reducible repeat' (first | assumption | apply State.storeMeet_ok | apply foldl_ok | apply foldl_ok | apply foldl_ok1 | apply ite_ok | apply ite_ok1 | apply ite_next | apply next_ok | intro _ | dsimp only | split)

theorem State.seqFree_ok {Q : List Instr} (s : State) (c q : Nat) (hok : Ok Q s) : Ok Q (State.seqFree s c q) := by
  unfold State.seqFree
  with_reducible repeat' (first | assumption | apply State.putSeqr_ok | apply foldl_ok | apply foldl_ok1 | apply ite_ok | apply ite_ok1 | apply ite_next | apply next_ok | intro _ | dsimp only | split)

theorem execSequencerRelease_ok {Q : List Instr} (c : Fin 32) (q : Fin 8) (s : State) (hok : Ok Q s) : OkOut Q (execSequencerRelease c q s) := by
  unfold execSequencerRelease
  with_reducible repeat' (first | assumption | apply State.heldWords_ok | apply State.leaveStage_ok | apply State.putSeqr_ok | apply State.seqFree_ok | apply State.settleFollower_ok | apply State.stageDone_ok | apply next_ok | apply foldl_ok | apply foldl_ok1 | apply ite_ok | apply ite_ok1 | apply ite_next | apply next_ok | intro _ | dsimp only | split)

theorem State.sendTokens_ok {Q : List Instr} (s : State) (streams : List (Fin 32 × Fin 8)) (fif op : Nat) (hok : Ok Q s) : Ok Q (State.sendTokens s streams fif op) := by
  unfold State.sendTokens
  with_reducible repeat' (first | assumption | apply State.emit_ok | apply foldl_ok | apply foldl_ok1 | apply ite_ok | apply ite_ok1 | apply ite_next | apply next_ok | intro _)

theorem State.retallyHold_ok {Q : List Instr} (s : State) (p fif dR : Nat) (hok : Ok Q s) : Ok Q (State.retallyHold s p fif dR) := by
  unfold State.retallyHold
  with_reducible repeat' (first | assumption | apply State.onBeat_ok | apply State.tellHead_ok | apply foldl_ok | apply foldl_ok1 | apply ite_ok | apply ite_ok1 | apply ite_next | apply next_ok | intro _)

theorem State.startRetally_ok {Q : List Instr} (s : State) (p fif c q r dR : Nat) (streams : List (Fin 32 × Fin 8)) (hok : Ok Q s) : Ok Q (State.startRetally s p fif c q r dR streams) := by
  unfold State.startRetally
  with_reducible repeat' (first | assumption | apply State.addF_ok | apply State.onFrame_ok | apply State.onTile_ok | apply State.putSeqr_ok | apply State.reportF_ok | apply State.retallyHold_ok | apply State.sendTokens_ok | apply State.seqFree_ok | apply foldl_ok | apply foldl_ok | apply foldl_ok1 | apply ite_ok | apply ite_ok1 | apply ite_next | apply next_ok | intro _ | dsimp only | split)

theorem execPassEnd_ok {Q : List Instr} (c : Fin 32) (q : Fin 8) (fif : Fin 8) (streams : List (Fin 32 × Fin 8)) (s : State) (hok : Ok Q s) : OkOut Q (execPassEnd c q fif streams s) := by
  unfold execPassEnd
  with_reducible repeat' (first | assumption | apply State.putSeqr_ok | apply State.sendTokens_ok | apply State.startRetally_ok | apply foldl_ok | apply foldl_ok1 | apply ite_ok | apply ite_ok1 | apply ite_next | apply next_ok | intro _ | dsimp only | split)

theorem State.foldFail_ok {Q : List Instr} (s : State) (p fif tensor addr : Nat) (hok : Ok Q s) : Ok Q (State.foldFail s p fif tensor addr) := by
  unfold State.foldFail
  with_reducible repeat' (first | assumption | apply State.reportF_ok)

theorem State.foldScale_ok {Q : List Instr} (s : State) (p : Nat) (f : Frame) (tensor t adapt : Nat) (hok : Ok Q s) : Ok Q (State.foldScale s p f tensor t adapt) := by
  unfold State.foldScale
  with_reducible repeat' (first | assumption | apply State.foldFail_ok | apply State.keepScale_ok | apply State.unitRead_ok | apply State.unitWrite_ok | apply foldl_ok | apply foldl_ok1 | apply ite_ok | apply ite_ok1 | apply ite_next | apply next_ok | intro _ | dsimp only | split)

theorem execScaleFold_ok {Q : List Instr} (p : Fin 4) (fif : Fin 8) (stage : Fin 256) (tensor : Fin 4096) (s : State) (hok : Ok Q s) : OkOut Q (execScaleFold p fif stage tensor s) := by
  unfold execScaleFold
  with_reducible repeat' (first | assumption | apply State.foldScale_ok | apply State.onPipe_ok | apply State.settleFollower_ok | apply next_ok | apply foldl_ok | apply foldl_ok1 | apply ite_ok | apply ite_ok1 | apply ite_next | apply next_ok | intro _ | dsimp only | split)

theorem State.carryResidue_ok {Q : List Instr} (s : State) (p c : Nat) (hok : Ok Q s) : Ok Q (State.carryResidue s p c) := by
  unfold State.carryResidue
  with_reducible repeat' (first | assumption | apply State.report_ok | apply State.reportF_ok | apply State.resetCarry_ok | apply State.voidFrame_ok | apply foldl_ok | apply foldl_ok1 | apply ite_ok | apply ite_ok1 | apply ite_next | apply next_ok | intro _ | dsimp only | split)

theorem State.idleBank_ok {Q : List Instr} (s : State) (p bank : Nat) (hok : Ok Q s) : Ok Q (State.idleBank s p bank) := by
  unfold State.idleBank
  with_reducible repeat' (first | assumption | apply State.setSpine_ok | apply foldl_ok | apply foldl_ok | apply foldl_ok1 | apply ite_ok | apply ite_ok1 | apply ite_next | apply next_ok | intro _ | dsimp only | split)

theorem State.reloadSpine_ok {Q : List Instr} (s : State) (p a next : Nat) (hok : Ok Q s) : Ok Q (State.reloadSpine s p a next).1 := by
  unfold State.reloadSpine
  with_reducible repeat' (first | assumption | apply State.idleBank_ok | apply State.setSpine_ok | apply State.setUnitGw_ok | apply State.unitReadN_ok | apply foldl_ok | apply next_ok | apply foldl_ok | apply foldl_ok1 | apply ite_ok | apply ite_ok1 | apply ite_next | apply next_ok | intro _ | dsimp only | split)

theorem State.chanRead_ok {Q : List Instr} (n : Nat) (s : State) (g off : Nat) (hok : Ok Q s) :
    Ok Q (State.chanRead n s g off).1 := by
  induction n generalizing s off with
  | zero => exact hok
  | succ n ih =>
    unfold State.chanRead
    generalize hbmKey g off = a
    exact ih _ _ (State.unitRead_ok s a 0 hok)

theorem State.imageWrite_ok {Q : List Instr} (n : Nat) (s : State) (off : Nat) (bs : List Byte) (hok : Ok Q s) :
    Ok Q (State.imageWrite n s off bs) := by
  induction n generalizing s off bs with
  | zero => exact hok
  | succ n ih => exact ih _ _ _ (State.setWord_ok hok)

theorem State.writeImage_ok {Q : List Instr} (s : State) (c j : Nat) (bs : List Byte) (hok : Ok Q s) : Ok Q (State.writeImage s c j bs) := by
  unfold State.writeImage
  with_reducible repeat' (first | assumption | apply State.imageWrite_ok)

theorem State.readNear_ok {Q : List Instr} (n : Nat) (s : State) (c off : Nat) (hok : Ok Q s) : Ok Q (State.readNear n s c off).1 := by
  unfold State.readNear
  with_reducible repeat' (first | assumption | apply State.chanRead_ok)

theorem State.readImage_ok {Q : List Instr} (s : State) (c off : Nat) (hok : Ok Q s) : Ok Q (State.readImage s c off).1 := by
  unfold State.readImage
  with_reducible repeat' (first | assumption | apply State.readNear_ok)

theorem State.reloadFailed_ok {Q : List Instr} (s : State) (p c j a : Nat) (hok : Ok Q s) : Ok Q (State.reloadFailed s p c j a) := by
  unfold State.reloadFailed
  with_reducible repeat' (first | assumption | apply State.halt_ok | apply State.onPipe_ok | apply State.report_ok | apply State.reportF_ok | apply State.voidFrame_ok | apply foldl_ok | apply foldl_ok1 | apply ite_ok | apply ite_ok1 | apply ite_next | apply next_ok | intro _ | dsimp only | split)

theorem State.spineEnd_ok {Q : List Instr} (s : State) (p c a next : Nat) (hok : Ok Q s) : Ok Q (State.spineEnd s p c a next) := by
  unfold State.spineEnd
  with_reducible repeat' (first | assumption | apply State.reloadFailed_ok | apply State.reloadSpine_ok | apply next_ok | apply foldl_ok | apply foldl_ok1 | apply ite_ok | apply ite_ok1 | apply ite_next | apply next_ok | intro _ | dsimp only | split)

theorem execSectionEnd_ok {Q : List Instr} (c : Fin 32) (s : State) (hok : Ok Q s) : OkOut Q (execSectionEnd c s) := by
  unfold execSectionEnd
  with_reducible repeat' (first | assumption | apply State.carryResidue_ok | apply State.onPipe_ok | apply State.setF_ok | apply State.spineEnd_ok | apply next_ok | apply foldl_ok | apply foldl_ok1 | apply ite_ok | apply ite_ok1 | apply ite_next | apply next_ok | intro _ | dsimp only | split)

theorem State.imageWord_ok {Q : List Instr} (s : State) (off : Nat) (v : W64) (hok : Ok Q s) : Ok Q (State.imageWord s off v) := by
  unfold State.imageWord
  with_reducible repeat' (first | assumption | apply State.setWord_ok | apply foldl_ok | apply foldl_ok | apply foldl_ok1 | apply ite_ok | apply ite_ok1 | apply ite_next | apply next_ok | intro _ | dsimp only | split)

theorem execContextReloadDone_ok {Q : List Instr} (c : Fin 32) (s : State) (hok : Ok Q s) : OkOut Q (execContextReloadDone c s) := by
  unfold execContextReloadDone
  with_reducible repeat' (first | assumption | apply State.onPipe_ok | apply State.readImage_ok | apply State.reloadFailed_ok | apply State.setF_ok | apply State.writeImage_ok | apply foldl_ok | apply foldl_ok1 | apply ite_ok | apply ite_ok1 | apply ite_next | apply next_ok | intro _ | dsimp only | split)

theorem State.switchCore_ok {Q : List Instr} (s : State) (q : Pipe) (c : Nat) (hok : Ok Q s) : Ok Q (State.switchCore s q c) := by
  unfold State.switchCore
  with_reducible repeat' (first | assumption | apply State.addF_ok | apply State.onCore_ok | apply State.setF_ok | apply State.setFstr_ok | apply State.setRbufs_ok | apply next_ok | apply foldl_ok | apply foldl_ok1 | apply ite_ok | apply ite_ok1 | apply ite_next | apply next_ok | intro _ | dsimp only | split)

theorem execContextSwitch_ok {Q : List Instr} (p : Fin 4) (s : State) (hok : Ok Q s) : OkOut Q (execContextSwitch p s) := by
  unfold execContextSwitch
  with_reducible repeat' (first | assumption | apply State.onPipe_ok | apply State.settleStop_ok | apply State.switchCore_ok | apply foldl_ok | apply next_ok | apply foldl_ok | apply foldl_ok1 | apply ite_ok | apply ite_ok1 | apply ite_next | apply next_ok | intro _ | dsimp only | split)

end Sys2Proof.Machine
end

