-- ==== Sys2Proof/Laws/Keep/Codec.lean ====
section
/-!
SUPPORT. What the operations of Machine/Codec.lean keep.
-/

namespace Sys2Proof.Machine

theorem execSegmentEncode_ok {Q : List Instr} (p : Fin 4) (r : Fin 16) (code : Fin 25) (s : State) (hok : Ok Q s) : OkOut Q (execSegmentEncode p r code s) := by
  unfold execSegmentEncode
  with_reducible repeat' (first | assumption | apply State.onPipe_ok | apply State.setCodec_ok | apply State.unitWriteN_ok | apply next_ok | apply foldl_ok | apply foldl_ok1 | apply ite_ok | apply ite_ok1 | apply ite_next | apply next_ok | intro _ | dsimp only | split)

theorem State.fetchSegment_ok {Q : List Instr} (s : State) (p fif : Nat) (g : CodedRegion) (i : Nat) (hok : Ok Q s) : Ok Q (State.fetchSegment s p fif g i).1 := by
  unfold State.fetchSegment
  with_reducible repeat' (first | assumption | apply State.reportF_ok | apply State.unitReadN_ok | apply State.unitRead_ok | apply foldl_ok | apply foldl_ok1 | apply ite_ok | apply ite_ok1 | apply ite_next | apply next_ok | intro _ | dsimp only | split)

theorem State.readSegment_ok {Q : List Instr} (s : State) (p fif : Nat) (g : CodedRegion) (i : Nat) (hok : Ok Q s) : Ok Q (State.readSegment s p fif g i).1 := by
  unfold State.readSegment
  with_reducible repeat' (first | assumption | apply State.fetchSegment_ok | apply State.voidFrame_ok | apply foldl_ok | apply foldl_ok1 | apply ite_ok | apply ite_ok1 | apply ite_next | apply next_ok | intro _ | dsimp only | split)

end Sys2Proof.Machine
end

