-- ==== Sys2Proof/Laws/Keep/Hbm.lean ====
section
/-!
SUPPORT. What the operations of Machine/Hbm.lean keep.
-/

namespace Sys2Proof.Machine

theorem State.headerInvalid_ok {Q : List Instr} (s : State) (g : Nat) (h : MemHdr) (op req : Nat) (hok : Ok Q s) : Ok Q (State.headerInvalid s g h op req) := by
  unfold State.headerInvalid
  with_reducible repeat' (first | assumption | apply State.report_ok)

theorem State.takeWords_ok {Q : List Instr} (s : State) (g : Nat) (ws : List W64) (tag : Byte) (hok : Ok Q s) : Ok Q (State.takeWords s g ws tag).1 := by
  unfold State.takeWords
  with_reducible repeat' (first | assumption | apply State.gwPop_ok | apply foldl_ok | apply foldl_ok | apply foldl_ok1 | apply ite_ok | apply ite_ok1 | apply ite_next | apply next_ok | intro _ | dsimp only | split)

theorem State.flushFor_ok {Q : List Instr} (s : State) (g : Nat) (r : ChanReq) (hok : Ok Q s) : Ok Q (State.flushFor s g r) := by
  unfold State.flushFor
  with_reducible repeat' (first | assumption | apply State.setWcb_ok)

theorem State.takeRead_ok {Q : List Instr} (s : State) (g : Nat) (h : MemHdr) (op : Nat) (tag : Byte) (req : Nat) (first : List EccSeen) (hok : Ok Q s) : Ok Q (State.takeRead s g h op tag req first) := by
  unfold State.takeRead
  with_reducible repeat' (first | assumption | apply State.addrInvalid_ok | apply State.flushFor_ok | apply State.headerInvalid_ok | apply State.setChanReqs_ok | apply State.setNextReq_ok | apply State.takeWords_ok | apply foldl_ok | apply foldl_ok1 | apply ite_ok | apply ite_ok1 | apply ite_next | apply next_ok | intro _ | dsimp only | split)

theorem execRead_ok {Q : List Instr} (g : Fin 64) (h : MemHdr) (op3 : Bool) (tag : Byte) (req : Fin 65536) (first : List EccSeen) (s : State) (hok : Ok Q s) : OkOut Q (execRead g h op3 tag req first s) := by
  unfold execRead
  with_reducible repeat' (first | assumption | apply State.headerInvalid_ok | apply State.takeRead_ok | apply State.takeWords_ok | apply next_ok | apply foldl_ok | apply foldl_ok1 | apply ite_ok | apply ite_ok1 | apply ite_next | apply next_ok | intro _ | dsimp only | split)

theorem execNarrow_ok {Q : List Instr} (g : Fin 64) (h : MemHdr) (tag : Byte) (req : Fin 65536) (first : List EccSeen) (s : State) (hok : Ok Q s) : OkOut Q (execNarrow g h tag req first s) := by
  unfold execNarrow
  with_reducible repeat' (first | assumption | apply State.takeRead_ok | apply foldl_ok | apply foldl_ok1 | apply ite_ok | apply ite_ok1 | apply ite_next | apply next_ok | intro _)

theorem State.returnWords_ok {Q : List Instr} (s : State) (g : Nat) (r : ChanReq) (bs : List Byte) (mark : Bool) (hok : Ok Q s) : Ok Q (State.returnWords s g r bs mark) := by
  unfold State.returnWords
  with_reducible repeat' (first | assumption | apply State.returnWord_ok | apply foldl_ok | apply foldl_ok | apply foldl_ok1 | apply ite_ok | apply ite_ok1 | apply ite_next | apply next_ok | intro _ | dsimp only | split)

theorem State.returnOne_ok {Q : List Instr} (s : State) (g : Nat) (r : ChanReq) (i : Nat) (hok : Ok Q s) : Ok Q (State.returnOne s g r i).1 := by
  unfold State.returnOne
  with_reducible repeat' (first | assumption | apply State.hbmReadAs_ok | apply State.returnWords_ok | apply foldl_ok | apply foldl_ok1 | apply ite_ok | apply ite_ok1 | apply ite_next | apply next_ok | intro _ | dsimp only | split)

theorem execReadReturn_ok {Q : List Instr} (g : Fin 64) (req : Fin 65536) (s : State) (hok : Ok Q s) : OkOut Q (execReadReturn g req s) := by
  unfold execReadReturn
  with_reducible repeat' (first | assumption | apply State.report_ok | apply State.returnOne_ok | apply State.setChanReqs_ok | apply State.settleReturns_ok | apply foldl_ok | apply next_ok | apply foldl_ok | apply foldl_ok1 | apply ite_ok | apply ite_ok1 | apply ite_next | apply next_ok | intro _ | dsimp only | split)

theorem execReadRetry_ok {Q : List Instr} (g : Fin 64) (req : Fin 65536) (i : Fin 8) (second : EccSeen) (s : State) (hok : Ok Q s) : OkOut Q (execReadRetry g req i second s) := by
  unfold execReadRetry
  with_reducible repeat' (first | assumption | apply State.elapse_ok | apply State.setChanReqs_ok | apply foldl_ok | apply foldl_ok1 | apply ite_ok | apply ite_ok1 | apply ite_next | apply next_ok | intro _ | dsimp only | split)

theorem State.writeWord_ok {Q : List Instr} (s : State) (g id off : Nat) (bs : List (Nat × Byte)) (hok : Ok Q s) : Ok Q (State.writeWord s g id off bs) := by
  unfold State.writeWord
  with_reducible repeat' (first | assumption | apply State.addPart_ok | apply State.finishPart_ok | apply State.hbmWriteDirect_ok | apply State.wcbPut_ok | apply foldl_ok | apply foldl_ok1 | apply ite_ok | apply ite_ok1 | apply ite_next | apply next_ok | intro _ | dsimp only | split)

theorem State.openWrite_ok {Q : List Instr} (s : State) (g : Nat) (h : MemHdr) (tag : Byte) (req : Nat) (code : Option Nat) (hok : Ok Q s) : Ok Q (State.openWrite s g h tag req code).1 := by
  unfold State.openWrite
  with_reducible repeat' (first | assumption | apply State.openReq_ok | apply State.setChanReqs_ok | apply foldl_ok | apply foldl_ok1 | apply ite_ok | apply ite_ok1 | apply ite_next | apply next_ok | intro _ | dsimp only | split)

theorem State.performWrite_ok {Q : List Instr} (s : State) (g id : Nat) (h : MemHdr) (data : List W64) (req : Nat) (hok : Ok Q s) : Ok Q (State.performWrite s g id h data req) := by
  unfold State.performWrite
  with_reducible repeat' (first | assumption | apply State.addPart_ok | apply State.addrInvalid_ok | apply State.finishPart_ok | apply State.headerInvalid_ok | apply State.writeWord_ok | apply foldl_ok | apply foldl_ok | apply foldl_ok1 | apply ite_ok | apply ite_ok1 | apply ite_next | apply next_ok | intro _ | dsimp only | split)

theorem execWrite_ok {Q : List Instr} (g : Fin 64) (h : MemHdr) (data : List W64) (tag : Byte) (req : Fin 65536) (s : State) (hok : Ok Q s) : OkOut Q (execWrite g h data tag req s) := by
  unfold execWrite
  with_reducible repeat' (first | assumption | apply State.closeReq_ok | apply State.forFrame_ok | apply State.openWrite_ok | apply State.performWrite_ok | apply State.settleDone_ok | apply State.takeWords_ok | apply next_ok | apply foldl_ok | apply foldl_ok1 | apply ite_ok | apply ite_ok1 | apply ite_next | apply next_ok | intro _ | dsimp only | split)

theorem execWcbAgeFlush_ok {Q : List Instr} (m : Fin 4) (s : State) (hok : Ok Q s) : OkOut Q (execWcbAgeFlush m s) := by
  unfold execWcbAgeFlush
  with_reducible repeat' (first | assumption | apply State.reach_ok | apply State.setWcb_ok | apply foldl_ok | apply foldl_ok1 | apply ite_ok | apply ite_ok1 | apply ite_next | apply next_ok | intro _ | dsimp only | split)

theorem execFlushComplete_ok {Q : List Instr} (m : Fin 4) (seen : List (EccSeen × EccSeen)) (s : State) (hok : Ok Q s) : OkOut Q (execFlushComplete m seen s) := by
  unfold execFlushComplete
  with_reducible repeat' (first | assumption | apply State.settleDone_ok | apply State.wcbComplete_ok | apply next_ok | apply foldl_ok | apply foldl_ok1 | apply ite_ok | apply ite_ok1 | apply ite_next | apply next_ok | intro _ | dsimp only | split)

theorem execRetainAccessTimeout_ok {Q : List Instr} (c : Fin 32) (s : State) (hok : Ok Q s) : OkOut Q (execRetainAccessTimeout c s) := by
  unfold execRetainAccessTimeout
  with_reducible repeat' (first | assumption | apply State.failHeld_ok | apply State.reach_ok | apply State.settleDone_ok | apply next_ok | apply foldl_ok | apply foldl_ok1 | apply ite_ok | apply ite_ok1 | apply ite_next | apply next_ok | intro _ | dsimp only | split)

theorem State.loseChan_ok {Q : List Instr} (s : State) (g cause : Nat) (hok : Ok Q s) : Ok Q (State.loseChan s g cause) := by
  unfold State.loseChan
  with_reducible repeat' (first | assumption | apply State.losePath_ok | apply State.notifyWriters_ok | apply State.report_ok | apply State.setF_ok | apply State.setWcbWaits_ok | apply State.setWcb_ok | apply State.wcbAdmit_ok | apply State.wcbRelieve_ok | apply foldl_ok | apply foldl_ok | apply foldl_ok1 | apply ite_ok | apply ite_ok1 | apply ite_next | apply next_ok | intro _ | dsimp only | split)

theorem execChannelLost_ok {Q : List Instr} (g : Fin 64) (cause : Fin 3) (s : State) (hok : Ok Q s) : OkOut Q (execChannelLost g cause s) := by
  unfold execChannelLost
  with_reducible repeat' (first | assumption | apply State.loseChan_ok | apply foldl_ok | apply foldl_ok1 | apply ite_ok | apply ite_ok1 | apply ite_next | apply next_ok)

theorem execRefresh_ok {Q : List Instr} (_g : Fin 64) (s : State) (hok : Ok Q s) : OkOut Q (execRefresh _g s) := by
  unfold execRefresh
  with_reducible repeat' (first | assumption | apply foldl_ok | apply foldl_ok1 | apply ite_ok | apply ite_ok1 | apply ite_next | apply next_ok)

theorem execRecentre_ok {Q : List Instr} (g : Fin 64) (fails : Bool) (s : State) (hok : Ok Q s) : OkOut Q (execRecentre g fails s) := by
  unfold execRecentre
  with_reducible repeat' (first | assumption | apply State.loseChan_ok | apply foldl_ok | apply foldl_ok1 | apply ite_ok | apply ite_ok1 | apply ite_next | apply next_ok | intro _)

theorem execStackTempRead_ok {Q : List Instr} (m : Fin 4) (t : BitVec 8) (s : State) (hok : Ok Q s) : OkOut Q (execStackTempRead m t s) := by
  unfold execStackTempRead
  with_reducible repeat' (first | assumption | apply State.report_ok | apply State.setF_ok | apply foldl_ok | apply foldl_ok1 | apply ite_ok | apply ite_ok1 | apply ite_next | apply next_ok | intro _)

theorem State.setTraining_ok {Q : List Instr} (s : State) (gs : List Nat) (v : Bool) (hok : Ok Q s) : Ok Q (State.setTraining s gs v) := by
  unfold State.setTraining
  with_reducible repeat' (first | assumption | apply State.setHbm_ok)

theorem State.writeTrainCtl_ok {Q : List Instr} (m : Nat) (w : WriteReq) (s : State) (hok : Ok Q s) : Ok Q (State.writeTrainCtl m w s) := by
  unfold State.writeTrainCtl
  with_reducible repeat' (first | assumption | apply State.setF_ok | apply State.setHbm_ok | apply State.setTraining_ok | apply State.setWord_ok | apply foldl_ok | apply foldl_ok1 | apply ite_ok | apply ite_ok1 | apply ite_next | apply next_ok | intro _)

theorem execMcTrainGo_ok {Q : List Instr} (m : Fin 4) (w : WriteReq) (s : State) (hok : Ok Q s) : OkOut Q (execMcTrainGo m w s) := by
  unfold execMcTrainGo
  with_reducible repeat' (first | assumption | apply State.gatedAct_ok | apply State.writeTrainCtl_ok | apply foldl_ok | apply foldl_ok1 | apply ite_ok | apply ite_ok1 | apply ite_next | apply next_ok)

theorem execTrainingDone_ok {Q : List Instr} (g : Fin 64) (pass : Bool) (repaired : Fin 16) (margin : Fin 256) (s : State) (hok : Ok Q s) : OkOut Q (execTrainingDone g pass repaired margin s) := by
  unfold execTrainingDone
  with_reducible repeat' (first | assumption | apply State.loseChan_ok | apply State.report_ok | apply State.setF_ok | apply State.setTraining_ok | apply foldl_ok | apply foldl_ok1 | apply ite_ok | apply ite_ok1 | apply ite_next | apply next_ok | intro _)

theorem State.memReject_ok {Q : List Instr} (s : State) (unit off : Nat) (w : WriteReq) (hok : Ok Q s) : Ok Q (State.memReject s unit off w) := by
  unfold State.memReject
  with_reducible repeat' (first | assumption | apply State.report_ok)

theorem State.writeHbmCtl_ok {Q : List Instr} (w : WriteReq) (s : State) (hok : Ok Q s) : Ok Q (State.writeHbmCtl w s) := by
  unfold State.writeHbmCtl
  with_reducible repeat' (first | assumption | apply State.memReject_ok | apply State.setF_ok | apply foldl_ok | apply foldl_ok1 | apply ite_ok | apply ite_ok1 | apply ite_next | apply next_ok | intro _)

theorem execMgtHbmCommit_ok {Q : List Instr} (w : WriteReq) (s : State) (hok : Ok Q s) : OkOut Q (execMgtHbmCommit w s) := by
  unfold execMgtHbmCommit
  with_reducible repeat' (first | assumption | apply State.gated_ok | apply State.writeHbmCtl_ok | apply foldl_ok | apply foldl_ok1 | apply ite_ok | apply ite_ok1 | apply ite_next | apply next_ok)

theorem State.writeChMap_ok {Q : List Instr} (m : Nat) (w : WriteReq) (s : State) (hok : Ok Q s) : Ok Q (State.writeChMap m w s) := by
  unfold State.writeChMap
  with_reducible repeat' (first | assumption | apply State.memReject_ok | apply State.plainWrite_ok | apply foldl_ok | apply foldl_ok1 | apply ite_ok | apply ite_ok1 | apply ite_next | apply next_ok | intro _)

theorem State.tgVisit_ok {Q : List Instr} (s : State) (g : Nat) (t : TgConf) (acc : TgAcc) (i : Nat) (hok : Ok Q s) : Ok Q (State.tgVisit s g t acc i).1 := by
  unfold State.tgVisit
  with_reducible repeat' (first | assumption | apply State.chanWriteWord_ok | apply State.wcbDrainLine_ok | apply foldl_ok | apply foldl_ok1 | apply ite_ok | apply ite_ok1 | apply ite_next | apply next_ok | intro _ | dsimp only | split)

theorem State.tgFinish_ok {Q : List Instr} (s : State) (g visits : Nat) (aborted : Bool) (hok : Ok Q s) : Ok Q (State.tgFinish s g visits aborted) := by
  unfold State.tgFinish
  with_reducible repeat' (first | assumption | apply State.releaseHeld_ok | apply State.setF_ok | apply State.tgVisit_ok | apply foldl_ok | apply foldl_ok1 | apply ite_ok | apply ite_ok1 | apply ite_next | apply next_ok | intro _ | dsimp only | split)

theorem State.tgClear_ok {Q : List Instr} (s : State) (g : Nat) (hok : Ok Q s) : Ok Q (State.tgClear s g) := by
  unfold State.tgClear
  with_reducible repeat' (first | assumption | apply State.setF_ok | apply State.setWord_ok | apply foldl_ok | apply foldl_ok1 | apply ite_ok | apply ite_ok1 | apply ite_next | apply next_ok | intro _)

theorem State.writeTgCtl_ok {Q : List Instr} (g : Nat) (w : WriteReq) (s : State) (hok : Ok Q s) : Ok Q (State.writeTgCtl g w s) := by
  unfold State.writeTgCtl
  with_reducible repeat' (first | assumption | apply State.memReject_ok | apply State.plainWrite_ok | apply State.setF_ok | apply State.setHbm_ok | apply State.tgClear_ok | apply State.tgFinish_ok | apply foldl_ok | apply foldl_ok1 | apply ite_ok | apply ite_ok1 | apply ite_next | apply next_ok | intro _)

theorem execTgStart_ok {Q : List Instr} (g : Fin 64) (w : WriteReq) (s : State) (hok : Ok Q s) : OkOut Q (execTgStart g w s) := by
  unfold execTgStart
  with_reducible repeat' (first | assumption | apply State.gatedAct_ok | apply State.writeTgCtl_ok | apply foldl_ok | apply foldl_ok1 | apply ite_ok | apply ite_ok1 | apply ite_next | apply next_ok)

theorem execTgDone_ok {Q : List Instr} (g : Fin 64) (ns : Nat) (s : State) (hok : Ok Q s) : OkOut Q (execTgDone g ns s) := by
  unfold execTgDone
  with_reducible repeat' (first | assumption | apply State.reach_ok | apply State.settleDone_ok | apply State.tgFinish_ok | apply next_ok | apply foldl_ok | apply foldl_ok1 | apply ite_ok | apply ite_ok1 | apply ite_next | apply next_ok | intro _ | dsimp only | split)

theorem State.tgAbort_ok {Q : List Instr} (s : State) (g : Nat) (hok : Ok Q s) : Ok Q (State.tgAbort s g) := by
  unfold State.tgAbort
  with_reducible repeat' (first | assumption | apply State.freeNext_ok | apply State.tgFinish_ok | apply foldl_ok | apply foldl_ok1 | apply ite_ok | apply ite_ok1 | apply ite_next | apply next_ok | intro _)

theorem State.writeInj_ok {Q : List Instr} (m : Nat) (w : WriteReq) (s : State) (hok : Ok Q s) : Ok Q (State.writeInj m w s) := by
  unfold State.writeInj
  with_reducible repeat' (first | assumption | apply State.plainWrite_ok | apply State.setHbm_ok | apply foldl_ok | apply foldl_ok1 | apply ite_ok | apply ite_ok1 | apply ite_next | apply next_ok | intro _)

theorem execMcInj_ok {Q : List Instr} (m : Fin 4) (w : WriteReq) (s : State) (hok : Ok Q s) : OkOut Q (execMcInj m w s) := by
  unfold execMcInj
  with_reducible repeat' (first | assumption | apply State.gated_ok | apply State.writeInj_ok | apply foldl_ok | apply foldl_ok1 | apply ite_ok | apply ite_ok1 | apply ite_next | apply next_ok)

theorem execEccCounterRead_ok {Q : List Instr} (g : Fin 64) (k : Fin 3) (r : ReadReq) (s : State) (hok : Ok Q s) : OkOut Q (execEccCounterRead g k r s) := by
  unfold execEccCounterRead
  with_reducible repeat' (first | assumption | apply State.answer_ok | apply State.readRc_ok | apply next_ok | apply foldl_ok | apply foldl_ok1 | apply ite_ok | apply ite_ok1 | apply ite_next | apply next_ok | intro _ | dsimp only | split)

theorem execWcbCounterRead_ok {Q : List Instr} (m : Fin 4) (wait : Bool) (r : ReadReq) (s : State) (hok : Ok Q s) : OkOut Q (execWcbCounterRead m wait r s) := by
  unfold execWcbCounterRead
  with_reducible repeat' (first | assumption | apply State.answer_ok | apply State.readRc_ok | apply next_ok | apply foldl_ok | apply foldl_ok1 | apply ite_ok | apply ite_ok1 | apply ite_next | apply next_ok | intro _ | dsimp only | split)

end Sys2Proof.Machine
end

