-- ==== Sys2Proof/Laws/Keep/Window.lean ====
section
/-!
SUPPORT. What the operations of Machine/Window.lean keep.
-/

namespace Sys2Proof.Machine

theorem State.putFstr'_ok {Q : List Instr} (s : State) (c e : Nat) (v : FStream) (hok : Ok Q s) : Ok Q (State.putFstr' s c e v) := by
  unfold State.putFstr'
  with_reducible repeat' (first | assumption | apply State.setFstr_ok)

theorem State.releaseBand_ok {Q : List Instr} (s : State) (core buf fif band : Nat) (hok : Ok Q s) : Ok Q (State.releaseBand s core buf fif band) := by
  unfold State.releaseBand
  with_reducible repeat' (first | assumption | apply State.putRbuf_ok | apply foldl_ok | apply foldl_ok1 | apply ite_ok | apply ite_ok1 | apply ite_next | apply next_ok | intro _ | dsimp only | split)

theorem State.releaseAll_ok {Q : List Instr} (s : State) (c e : Nat) (d : FstrDesc) (fif : Nat) (hok : Ok Q s) : Ok Q (State.releaseAll s c e d fif) := by
  unfold State.releaseAll
  with_reducible repeat' (first | assumption | apply State.putFstr'_ok | apply State.releaseBand_ok | apply foldl_ok | apply foldl_ok | apply foldl_ok1 | apply ite_ok | apply ite_ok1 | apply ite_next | apply next_ok | intro _ | dsimp only | split)

theorem State.bandAnew_ok {Q : List Instr} (s : State) (c b fif : Nat) (hok : Ok Q s) : Ok Q (State.bandAnew s c b fif) := by
  unfold State.bandAnew
  with_reducible repeat' (first | assumption | apply State.putFstr'_ok | apply foldl_ok | apply foldl_ok | apply foldl_ok1 | apply ite_ok | apply ite_ok1 | apply ite_next | apply next_ok | intro _ | dsimp only | split)

theorem State.meetWords_ok {Q : List Instr} (s : State) (ws : List Nat) (hok : Ok Q s) : Ok Q (State.meetWords s ws).1 := by
  unfold State.meetWords
  with_reducible repeat' (first | assumption | apply State.unitRead_ok | apply foldl_ok | apply foldl_ok | apply foldl_ok1 | apply ite_ok | apply ite_ok1 | apply ite_next | apply next_ok | intro _ | dsimp only | split)

theorem State.hbmWord_ok {Q : List Instr} (s : State) (p c fif : Nat) (d : FstrDesc) (bs prev : List ByteSrc) (hok : Ok Q s) : Ok Q (State.hbmWord s p c fif d bs prev).1 := by
  unfold State.hbmWord
  with_reducible repeat' (first | assumption | apply State.meetWords_ok | apply State.readSegment_ok | apply foldl_ok | apply foldl_ok | apply foldl_ok1 | apply ite_ok | apply ite_ok1 | apply ite_next | apply next_ok | intro _ | dsimp only | split)

theorem State.strayPoison_ok {Q : List Instr} (s : State) (p c fif : Nat) (d : FstrDesc) (hok : Ok Q s) : Ok Q (State.strayPoison s p c fif d) := by
  unfold State.strayPoison
  with_reducible repeat' (first | assumption | apply State.fetchSegment_ok | apply State.meetWords_ok | apply State.onFrame_ok | apply foldl_ok | apply foldl_ok | apply foldl_ok1 | apply ite_ok | apply ite_ok1 | apply ite_next | apply next_ok | intro _ | dsimp only | split)

theorem State.streamWord_ok {Q : List Instr} (s : State) (p c fif : Nat) (d : FstrDesc) (bs prev : List ByteSrc)
    (hok : Ok Q s) (s1 : State) (v : Nat) (b : Option Mark) (h : s.streamWord p c fif d bs prev = some (s1, v, b)) :
    Ok Q s1 := by
  unfold State.streamWord at h
  dsimp only at h
  split at h
  · simp only [Option.some.injEq, Prod.mk.injEq] at h
    rw [← h.1]
    exact State.hbmWord_ok _ _ _ _ _ _ _ hok
  · split at h
    · simp only [Option.some.injEq, Prod.mk.injEq] at h
      rw [← h.1]
      apply foldl_ok hok
      intro s x hs
      apply State.report_ok
      apply State.addF_ok
      exact hs
    · exact absurd h (by simp)

theorem State.fetchPush_ok {Q : List Instr} (s : State) (c : Nat) (dst : FetchDst) (w : QWord) (hok : Ok Q s) : Ok Q (State.fetchPush s c dst w) := by
  unfold State.fetchPush
  with_reducible repeat' (first | assumption | apply State.edgePush_ok | apply State.gwPush_ok | apply foldl_ok | apply foldl_ok1 | apply ite_ok | apply ite_ok1 | apply ite_next | apply next_ok | intro _ | dsimp only | split)

theorem State.streamAfter_ok {Q : List Instr} (s : State) (p c e fif i : Nat) (d : FstrDesc) (x : FStream) (hok : Ok Q s) : Ok Q (State.streamAfter s p c e fif i d x) := by
  unfold State.streamAfter
  with_reducible repeat' (first | assumption | apply State.onFrame_ok | apply State.putFstr'_ok | apply State.releaseAll_ok | apply State.releaseBand_ok | apply State.strayPoison_ok | apply foldl_ok | apply foldl_ok | apply foldl_ok1 | apply ite_ok | apply ite_ok1 | apply ite_next | apply next_ok | intro _ | dsimp only | split)

theorem execFetchStreamSend_ok {Q : List Instr} (c : Fin 32) (e : Fin 8) (tensor : Fin 4096) (dst : FetchDst) (s : State)
    (hok : Ok Q s) : OkOut Q (execFetchStreamSend c e tensor dst s) := by
  unfold execFetchStreamSend
  dsimp only
  split
  · exact next_ok hok
  · split
    · exact next_ok hok
    · split
      · exact next_ok hok
      · split
        · exact next_ok hok
        · rename_i h
          apply next_ok
          apply State.streamAfter_ok
          apply State.fetchPush_ok
          exact State.streamWord_ok _ _ _ _ _ _ _ hok _ _ _ h

theorem State.tokenError_ok {Q : List Instr} (s : State) (p c e fif op : Nat) (hok : Ok Q s) : Ok Q (State.tokenError s p c e fif op) := by
  unfold State.tokenError
  with_reducible repeat' (first | assumption | apply State.reportF_ok | apply State.voidFrame_ok)

theorem execSettle_ok {Q : List Instr} (c : Fin 32) (e : Fin 8) (fif : Fin 8) (s : State) (hok : Ok Q s) : OkOut Q (execSettle c e fif s) := by
  unfold execSettle
  with_reducible repeat' (first | assumption | apply State.putFstr'_ok | apply State.releaseAll_ok | apply State.tokenError_ok | apply foldl_ok | apply foldl_ok1 | apply ite_ok | apply ite_ok1 | apply ite_next | apply next_ok | intro _ | dsimp only | split)

theorem execRefetch_ok {Q : List Instr} (c : Fin 32) (e : Fin 8) (fif : Fin 8) (s : State) (hok : Ok Q s) : OkOut Q (execRefetch c e fif s) := by
  unfold execRefetch
  with_reducible repeat' (first | assumption | apply State.putFstr'_ok | apply State.tokenError_ok | apply foldl_ok | apply foldl_ok1 | apply ite_ok | apply ite_ok1 | apply ite_next | apply next_ok | intro _ | dsimp only | split)

theorem State.openBand_ok {Q : List Instr} (s : State) (p c b stage : Nat) (hok : Ok Q s) : Ok Q (State.openBand s p c b stage).1 := by
  unfold State.openBand
  with_reducible repeat' (first | assumption | apply State.bandAnew_ok | apply State.departs_ok | apply State.putRbuf_ok | apply next_ok | apply foldl_ok | apply foldl_ok1 | apply ite_ok | apply ite_ok1 | apply ite_next | apply next_ok | intro _ | dsimp only | split)

theorem State.fillBand_ok {Q : List Instr} (s : State) (c b : Nat) (rows : List (List Byte)) (hok : Ok Q s) : Ok Q (State.fillBand s c b rows) := by
  unfold State.fillBand
  with_reducible repeat' (first | assumption | apply State.putRbuf_ok | apply State.storePut_ok | apply foldl_ok | apply foldl_ok1 | apply ite_ok | apply ite_ok1 | apply ite_next | apply next_ok | intro _ | dsimp only | split)

theorem execReleaseStall_ok {Q : List Instr} (c : Fin 32) (b : Fin 8) (cycles : Nat) (s : State) (hok : Ok Q s) : OkOut Q (execReleaseStall c b cycles s) := by
  unfold execReleaseStall
  with_reducible repeat' (first | assumption | apply State.putRbuf_ok | apply State.report_ok | apply foldl_ok | apply foldl_ok1 | apply ite_ok | apply ite_ok1 | apply ite_next | apply next_ok | intro _)

theorem State.noteOut_ok {Q : List Instr} (s : State) (p fif stage : Nat) (d : RescDesc) (e : RescEntry) (o : RescOut) (sat : Bool) (sOut : Nat) (hok : Ok Q s) : Ok Q (State.noteOut s p fif stage d e o sat sOut) := by
  unfold State.noteOut
  with_reducible repeat' (first | assumption | apply State.onFrame_ok)

theorem State.dwRow_ok {Q : List Instr} (s : State) (p c fif stage g : Nat) (d : DwDesc) (f : FstrDesc) (layout : Nat) (oy : Nat) (b : Nat → Nat → Nat) (hok : Ok Q s) : Ok Q (State.dwRow s p c fif stage g d f layout oy b).1 := by
  unfold State.dwRow
  with_reducible repeat' (first | assumption | apply State.addF_ok | apply State.noteOut_ok | apply foldl_ok | apply foldl_ok1 | apply ite_ok | apply ite_ok1 | apply ite_next | apply next_ok | intro _)

theorem State.meetFor_ok {Q : List Instr} (s : State) (p fif : Nat) (ws : List Nat) (hok : Ok Q s) : Ok Q (State.meetFor s p fif ws) := by
  unfold State.meetFor
  with_reducible repeat' (first | assumption | apply State.meetWords_ok | apply State.voidFrame_ok | apply foldl_ok | apply foldl_ok1 | apply ite_ok | apply ite_ok1 | apply ite_next | apply next_ok | intro _ | dsimp only | split)

theorem State.takeRows_ok {Q : List Instr} (s : State) (p c fif : Nat) (f : FstrDesc) (from' upto : Nat) (hok : Ok Q s) : Ok Q (State.takeRows s p c fif f from' upto) := by
  unfold State.takeRows
  with_reducible repeat' (first | assumption | apply State.meetFor_ok | apply State.readSegment_ok | apply State.storeMeet_ok | apply State.voidFrame_ok | apply foldl_ok | apply foldl_ok | apply foldl_ok1 | apply ite_ok | apply ite_ok1 | apply ite_next | apply next_ok | intro _ | dsimp only | split)

theorem State.freeRows_ok {Q : List Instr} (s : State) (fif : Nat) (f : FstrDesc) (from' upto : Nat) (hok : Ok Q s) : Ok Q (State.freeRows s fif f from' upto) := by
  unfold State.freeRows
  with_reducible repeat' (first | assumption | apply State.releaseBand_ok | apply foldl_ok | apply foldl_ok | apply foldl_ok1 | apply ite_ok | apply ite_ok1 | apply ite_next | apply next_ok | intro _ | dsimp only | split)

theorem State.dwBand_ok {Q : List Instr} (s : State) (p c b g : Nat) (epi : Option (Fin 8)) (hok : Ok Q s) : Ok Q (State.dwBand s p c b g epi) := by
  unfold State.dwBand
  with_reducible repeat' (first | assumption | apply State.dwRow_ok | apply State.fillBand_ok | apply State.freeRows_ok | apply State.openBand_ok | apply State.takeRows_ok | apply foldl_ok | apply foldl_ok | apply foldl_ok1 | apply ite_ok | apply ite_ok1 | apply ite_next | apply next_ok | intro _ | dsimp only | split)

theorem execDepthwiseFrame_ok {Q : List Instr} (c : Fin 32) (s : State) (hok : Ok Q s) : OkOut Q (execDepthwiseFrame c s) := by
  unfold execDepthwiseFrame
  with_reducible repeat' (first | assumption | apply State.putSeqr_ok | apply foldl_ok | apply foldl_ok1 | apply ite_ok | apply ite_ok1 | apply ite_next | apply next_ok | intro _ | dsimp only | split)

end Sys2Proof.Machine
end

