-- ==== Sys2Proof/Laws/Keep/Reset.lean ====
section
/-!
SUPPORT. What the operations of Machine/Reset.lean keep.
-/

namespace Sys2Proof.Machine

theorem State.wipeRegs_ok {Q : List Instr} (s : State) (d : Nat) (hok : Ok Q s) : Ok Q (State.wipeRegs s d) := by
  unfold State.wipeRegs
  with_reducible repeat' (first | assumption | apply State.setRegs_drop_ok)

theorem State.wipeMem_ok {Q : List Instr} (s : State) (lo hi : Nat) (hok : Ok Q s) : Ok Q (State.wipeMem s lo hi) := by
  unfold State.wipeMem
  have h := State.setMem_drop_ok (p := fun a => decide (lo ≤ a ∧ a < hi)) hok
  exact ⟨h.1, h.2, h.3, SMap.wf_filter _ _ _ hok.4, h.5, h.6⟩

theorem State.wipeCore_ok {Q : List Instr} (s0 : State) (c : Nat) (hok : Ok Q s0) : Ok Q (State.wipeCore s0 c) := by
  unfold State.wipeCore
  with_reducible repeat' (first | assumption | apply State.disownStores_ok | apply State.onCore_ok | apply State.setCarry_ok | apply State.setEdges_ok | apply State.setFstr_ok | apply State.setGws_ok | apply State.setRbufs_ok | apply State.setSeqs_ok | apply State.setSync_ok | apply State.setThreads_ok | apply State.setTiles_ok | apply State.setVtCopy_ok | apply State.setWires_ok | apply State.wipeMem_ok | apply State.wipeRegs_ok | apply foldl_ok | apply foldl_ok | apply foldl_ok1 | apply ite_ok | apply ite_ok1 | apply ite_next | apply next_ok | intro _ | dsimp only | split)

theorem State.wipeSol_ok {Q : List Instr} (s : State) (hok : Ok Q s) : Ok Q (State.wipeSol s) := by
  unfold State.wipeSol
  with_reducible repeat' (first | assumption | apply State.setLearn_ok | apply State.setSol_ok | apply State.wipeRegs_ok)

theorem State.wipeQuad_ok {Q : List Instr} (s : State) (q : Nat) (hok : Ok Q s) : Ok Q (State.wipeQuad s q) := by
  unfold State.wipeQuad
  with_reducible repeat' (first | assumption | apply State.setFlits_ok | apply State.setSpine_ok | apply State.setSpineBad_ok | apply State.wipeRegs_ok)

theorem State.wipeMemCtl_ok {Q : List Instr} (s : State) (m : Nat) (hok : Ok Q s) : Ok Q (State.wipeMemCtl s m) := by
  unfold State.wipeMemCtl
  with_reducible repeat' (first | assumption | apply State.setHbm_ok | apply State.wipeMem_ok | apply State.wipeRegs_ok)

theorem State.wipePorts_ok {Q : List Instr} (s : State) (k : Nat) (hok : Ok Q s) : Ok Q (State.wipePorts s k) := by
  unfold State.wipePorts
  with_reducible repeat' (first | assumption | apply State.setEth_ok | apply State.wipeRegs_ok)

theorem State.wipeLinks_ok {Q : List Instr} (s : State) (k : Nat) (hok : Ok Q s) : Ok Q (State.wipeLinks s k) := by
  unfold State.wipeLinks
  with_reducible repeat' (first | assumption | apply State.setQsk_ok | apply State.wipeRegs_ok)

theorem State.wipeIngest_ok {Q : List Instr} (s : State) (hok : Ok Q s) : Ok Q (State.wipeIngest s) := by
  unfold State.wipeIngest
  with_reducible repeat' (first | assumption | apply State.setCodec_ok | apply State.setEp_ok | apply State.setEv_ok | apply State.setStreams_ok | apply State.wipeRegs_ok)

theorem State.wipeDomain_ok {Q : List Instr} (s : State) (d : Nat) (hok : Ok Q s) : Ok Q (State.wipeDomain s d) := by
  unfold State.wipeDomain
  with_reducible repeat' (first | assumption | apply State.setAlm_ok | apply State.setStw_ok | apply State.wipeCore_ok | apply State.wipeIngest_ok | apply State.wipeLinks_ok | apply State.wipeMem_ok | apply State.wipeMemCtl_ok | apply State.wipePorts_ok | apply State.wipeQuad_ok | apply State.wipeRegs_ok | apply State.wipeSol_ok | apply foldl_ok | apply foldl_ok1 | apply ite_ok | apply ite_ok1 | apply ite_next | apply next_ok | intro _)

end Sys2Proof.Machine
end

