-- ==== Sys2Proof/Laws/Keep/Power.lean ====
section
/-!
SUPPORT. What the operations of Machine/Power.lean keep.
-/

namespace Sys2Proof.Machine

theorem State.setTrans_ok {Q : List Instr} (s : State) (d : Nat) (v : Option Nat) (hok : Ok Q s) : Ok Q (State.setTrans s d v) := by
  unfold State.setTrans
  with_reducible repeat' (first | assumption | apply State.setF_ok | apply State.setPwr_ok)

theorem State.domDone_ok {Q : List Instr} (s : State) (hok : Ok Q s) : Ok Q (State.domDone s) := by
  unfold State.domDone
  with_reducible repeat' (first | assumption | apply State.irqSteward_ok | apply State.setF_ok)

theorem State.startVolt_ok {Q : List Instr} (s : State) (d n : Nat) (hok : Ok Q s) : Ok Q (State.startVolt s d n) := by
  unfold State.startVolt
  with_reducible repeat' (first | assumption | apply State.setF_ok)

theorem State.switchDiv_ok {Q : List Instr} (s : State) (d n : Nat) (hok : Ok Q s) : Ok Q (State.switchDiv s d n) := by
  unfold State.switchDiv
  with_reducible repeat' (first | assumption | apply State.setF_ok | apply foldl_ok | apply foldl_ok1 | apply ite_ok | apply ite_ok1 | apply ite_next | apply next_ok | intro _ | dsimp only | split)

theorem State.setDivWait_ok {Q : List Instr} (s : State) (d : Nat) (v : Option Nat) (hok : Ok Q s) : Ok Q (State.setDivWait s d v) := by
  unfold State.setDivWait
  with_reducible repeat' (first | assumption | apply State.setPwr_ok)

theorem State.retune_ok {Q : List Instr} (s : State) (d : Nat) (hok : Ok Q s) : Ok Q (State.retune s d) := by
  unfold State.retune
  with_reducible repeat' (first | assumption | apply State.setDivWait_ok | apply State.startVolt_ok | apply State.switchDiv_ok | apply foldl_ok | apply foldl_ok1 | apply ite_ok | apply ite_ok1 | apply ite_next | apply next_ok | intro _)

theorem State.sendToken_ok {Q : List Instr} (s : State) (c n k : Nat) (hok : Ok Q s) : Ok Q (State.sendToken s c n k) := by
  unfold State.sendToken
  with_reducible repeat' (first | assumption | apply State.addF_ok | apply State.emit_ok)

theorem State.payTokens_ok {Q : List Instr} (s : State) (c : Nat) (hok : Ok Q s) : Ok Q (State.payTokens s c) := by
  unfold State.payTokens
  with_reducible repeat' (first | assumption | apply State.onCore_ok | apply State.sendToken_ok | apply foldl_ok | apply foldl_ok1 | apply ite_ok | apply ite_ok1 | apply ite_next | apply next_ok | intro _)

theorem State.coreOn_ok {Q : List Instr} (s : State) (c : Nat) (hok : Ok Q s) : Ok Q (State.coreOn s c) := by
  unfold State.coreOn
  with_reducible repeat' (first | assumption | apply State.expireCore_ok | apply State.payTokens_ok | apply State.recvDeliver_ok | apply State.releaseHeld_ok | apply State.setCoreMove_ok | apply State.setF_ok | apply State.settleDone_ok | apply State.startVolt_ok | apply foldl_ok | apply foldl_ok | apply foldl_ok1 | apply ite_ok | apply ite_ok1 | apply ite_next | apply next_ok | intro _ | dsimp only | split)

theorem State.retrain_ok {Q : List Instr} (s : State) (m : Nat) (hok : Ok Q s) : Ok Q (State.retrain s m) := by
  unfold State.retrain
  with_reducible repeat' (first | assumption | apply State.setHbm_ok | apply State.setPwr_ok | apply State.setTraining_ok | apply foldl_ok | apply foldl_ok1 | apply ite_ok | apply ite_ok1 | apply ite_next | apply next_ok | intro _)

theorem State.gateVolt_ok {Q : List Instr} (s : State) (d v was : Nat) (hok : Ok Q s) : Ok Q (State.gateVolt s d v was) := by
  unfold State.gateVolt
  with_reducible repeat' (first | assumption | apply State.setF_ok | apply State.startVolt_ok | apply foldl_ok | apply foldl_ok1 | apply ite_ok | apply ite_ok1 | apply ite_next | apply next_ok | intro _)

theorem State.enter_ok {Q : List Instr} (s : State) (d v : Nat) (hok : Ok Q s) : Ok Q (State.enter s d v) := by
  unfold State.enter
  with_reducible repeat' (first | assumption | apply State.coreOn_ok | apply State.failHeldAll_ok | apply State.gateVolt_ok | apply State.retrain_ok | apply State.retune_ok | apply State.setCoreMove_ok | apply State.setF_ok | apply State.setPwr_ok | apply State.startVolt_ok | apply State.wipeDomain_ok | apply foldl_ok | apply foldl_ok1 | apply ite_ok | apply ite_ok1 | apply ite_next | apply next_ok | intro _ | dsimp only | split)

theorem State.writeDomReq_ok {Q : List Instr} (d : Nat) (w : WriteReq) (s : State) (hok : Ok Q s) : Ok Q (State.writeDomReq d w s) := by
  unfold State.writeDomReq
  with_reducible repeat' (first | assumption | apply State.domDone_ok | apply State.powerRefuse_ok | apply State.setCoreMove_ok | apply State.setF_ok | apply State.setTrans_ok | apply foldl_ok | apply foldl_ok1 | apply ite_ok | apply ite_ok1 | apply ite_next | apply next_ok | intro _ | dsimp only | split)

theorem execPwrDomReq_ok {Q : List Instr} (d : Fin 57) (w : WriteReq) (s : State) (hok : Ok Q s) : OkOut Q (execPwrDomReq d w s) := by
  unfold execPwrDomReq
  with_reducible repeat' (first | assumption | apply State.gated_ok | apply State.writeDomReq_ok | apply foldl_ok | apply foldl_ok1 | apply ite_ok | apply ite_ok1 | apply ite_next | apply next_ok)

theorem State.transitionDone_ok {Q : List Instr} (s : State) (d : Nat) (hok : Ok Q s) : Ok Q (State.transitionDone s d) := by
  unfold State.transitionDone
  with_reducible repeat' (first | assumption | apply State.domDone_ok | apply State.enter_ok | apply State.setTrans_ok | apply foldl_ok | apply foldl_ok1 | apply ite_ok | apply ite_ok1 | apply ite_next | apply next_ok | intro _ | dsimp only | split)

theorem execIdleEntry_ok {Q : List Instr} (c : Fin 32) (done : Bool) (s : State) (hok : Ok Q s) : OkOut Q (execIdleEntry c done s) := by
  unfold execIdleEntry
  with_reducible repeat' (first | assumption | apply State.elapse_ok | apply State.enter_ok | apply State.setCoreMove_ok | apply foldl_ok | apply foldl_ok1 | apply ite_ok | apply ite_ok1 | apply ite_next | apply next_ok | intro _)

theorem State.wakeLaunch_ok {Q : List Instr} (s : State) (c : Nat) (hok : Ok Q s) : Ok Q (State.wakeLaunch s c) := by
  unfold State.wakeLaunch
  with_reducible repeat' (first | assumption | apply State.beginWake_ok | apply State.onCore_ok | apply State.sendToken_ok | apply State.setPwr_ok | apply foldl_ok | apply foldl_ok1 | apply ite_ok | apply ite_ok1 | apply ite_next | apply next_ok | intro _ | dsimp only | split)

theorem execCoreWakeLaunch_ok {Q : List Instr} (c : Fin 32) (s : State) (hok : Ok Q s) : OkOut Q (execCoreWakeLaunch c s) := by
  unfold execCoreWakeLaunch
  with_reducible repeat' (first | assumption | apply State.reach_ok | apply State.wakeLaunch_ok | apply State.wake_ok | apply next_ok | apply foldl_ok | apply foldl_ok1 | apply ite_ok | apply ite_ok1 | apply ite_next | apply next_ok | intro _ | dsimp only | split)

theorem execCoreWakeDone_ok {Q : List Instr} (c : Fin 32) (ns : Nat) (s : State) (hok : Ok Q s) : OkOut Q (execCoreWakeDone c ns s) := by
  unfold execCoreWakeDone
  with_reducible repeat' (first | assumption | apply State.elapse_ok | apply State.enter_ok | apply State.report_ok | apply State.setPwr_ok | apply foldl_ok | apply foldl_ok1 | apply ite_ok | apply ite_ok1 | apply ite_next | apply next_ok | intro _)

theorem State.writeClk_ok {Q : List Instr} (d : Nat) (w : WriteReq) (s : State) (hok : Ok Q s) : Ok Q (State.writeClk d w s) := by
  unfold State.writeClk
  with_reducible repeat' (first | assumption | apply State.powerRefuse_ok | apply State.retune_ok | apply State.setF_ok | apply foldl_ok | apply foldl_ok1 | apply ite_ok | apply ite_ok1 | apply ite_next | apply next_ok | intro _ | dsimp only | split)

theorem execPwrClk_ok {Q : List Instr} (d : Fin 33) (w : WriteReq) (s : State) (hok : Ok Q s) : OkOut Q (execPwrClk d w s) := by
  unfold execPwrClk
  with_reducible repeat' (first | assumption | apply State.gated_ok | apply State.writeClk_ok | apply foldl_ok | apply foldl_ok1 | apply ite_ok | apply ite_ok1 | apply ite_next | apply next_ok)

theorem execDividerSwitch_ok {Q : List Instr} (d : Fin 33) (s : State) (hok : Ok Q s) : OkOut Q (execDividerSwitch d s) := by
  unfold execDividerSwitch
  with_reducible repeat' (first | assumption | apply State.setDivWait_ok | apply State.switchDiv_ok | apply foldl_ok | apply foldl_ok1 | apply ite_ok | apply ite_ok1 | apply ite_next | apply next_ok | intro _ | dsimp only | split)

theorem execQuadrantPllLost_ok {Q : List Instr} (q : Fin 4) (s : State) (hok : Ok Q s) : OkOut Q (execQuadrantPllLost q s) := by
  unfold execQuadrantPllLost
  with_reducible repeat' (first | assumption | apply State.loseCore_ok | apply State.loseSol_ok | apply State.report_ok | apply State.setF_ok | apply foldl_ok | apply foldl_ok1 | apply ite_ok | apply ite_ok1 | apply ite_next | apply next_ok | intro _)

theorem State.writeQpll_ok {Q : List Instr} (q : Nat) (w : WriteReq) (s : State) (hok : Ok Q s) : Ok Q (State.writeQpll q w s) := by
  unfold State.writeQpll
  with_reducible repeat' (first | assumption | apply State.setF_ok | apply State.setPwr_ok | apply foldl_ok | apply foldl_ok1 | apply ite_ok | apply ite_ok1 | apply ite_next | apply next_ok | intro _)

theorem execPwrQpllRelock_ok {Q : List Instr} (q : Fin 4) (w : WriteReq) (s : State) (hok : Ok Q s) : OkOut Q (execPwrQpllRelock q w s) := by
  unfold execPwrQpllRelock
  with_reducible repeat' (first | assumption | apply State.gated_ok | apply State.writeQpll_ok | apply foldl_ok | apply foldl_ok1 | apply ite_ok | apply ite_ok1 | apply ite_next | apply next_ok)

theorem execQpllLocked_ok {Q : List Instr} (q : Fin 4) (ok : Bool) (s : State) (hok : Ok Q s) : OkOut Q (execQpllLocked q ok s) := by
  unfold execQpllLocked
  with_reducible repeat' (first | assumption | apply State.setF_ok | apply State.setPwr_ok | apply foldl_ok | apply foldl_ok1 | apply ite_ok | apply ite_ok1 | apply ite_next | apply next_ok | intro _)

theorem State.setCeil_ok {Q : List Instr} (s : State) (d n : Nat) (hok : Ok Q s) : Ok Q (State.setCeil s d n) := by
  unfold State.setCeil
  with_reducible repeat' (first | assumption | apply State.setPwr_ok)

theorem execAvsIteration_ok {Q : List Instr} (d : Fin 33) (margin : Int) (s : State) (hok : Ok Q s) : OkOut Q (execAvsIteration d margin s) := by
  unfold execAvsIteration
  with_reducible repeat' (first | assumption | apply State.setCeil_ok | apply State.setF_ok | apply foldl_ok | apply foldl_ok1 | apply ite_ok | apply ite_ok1 | apply ite_next | apply next_ok | intro _)

theorem State.writeAvs_ok {Q : List Instr} (d : Nat) (w : WriteReq) (s : State) (hok : Ok Q s) : Ok Q (State.writeAvs d w s) := by
  unfold State.writeAvs
  with_reducible repeat' (first | assumption | apply State.plainWrite_ok | apply State.powerRefuse_ok | apply State.setF_ok | apply foldl_ok | apply foldl_ok1 | apply ite_ok | apply ite_ok1 | apply ite_next | apply next_ok | intro _ | dsimp only | split)

theorem State.writeVset_ok {Q : List Instr} (d : Nat) (w : WriteReq) (s : State) (hok : Ok Q s) : Ok Q (State.writeVset d w s) := by
  unfold State.writeVset
  with_reducible repeat' (first | assumption | apply State.powerRefuse_ok | apply State.setF_ok | apply foldl_ok | apply foldl_ok1 | apply ite_ok | apply ite_ok1 | apply ite_next | apply next_ok | intro _ | dsimp only | split)

theorem State.writeIdle_ok {Q : List Instr} (c : Nat) (w : WriteReq) (s : State) (hok : Ok Q s) : Ok Q (State.writeIdle c w s) := by
  unfold State.writeIdle
  with_reducible repeat' (first | assumption | apply State.plainWrite_ok | apply State.powerRefuse_ok | apply foldl_ok | apply foldl_ok1 | apply ite_ok | apply ite_ok1 | apply ite_next | apply next_ok | intro _ | dsimp only | split)

theorem State.retuneHost_ok {Q : List Instr} (s : State) (hok : Ok Q s) : Ok Q (State.retuneHost s) := by
  unfold State.retuneHost
  with_reducible repeat' (first | assumption | apply State.setPwr_ok | apply foldl_ok | apply foldl_ok1 | apply ite_ok | apply ite_ok1 | apply ite_next | apply next_ok | intro _ | dsimp only | split)

theorem State.writeHostClk_ok {Q : List Instr} (w : WriteReq) (s : State) (hok : Ok Q s) : Ok Q (State.writeHostClk w s) := by
  unfold State.writeHostClk
  with_reducible repeat' (first | assumption | apply State.powerRefuse_ok | apply State.retuneHost_ok | apply State.setF_ok | apply foldl_ok | apply foldl_ok1 | apply ite_ok | apply ite_ok1 | apply ite_next | apply next_ok | intro _ | dsimp only | split)

theorem execLdoOutOfRegulation_ok {Q : List Instr} (d : Fin 33) (s : State) (hok : Ok Q s) : OkOut Q (execLdoOutOfRegulation d s) := by
  unfold execLdoOutOfRegulation
  with_reducible repeat' (first | assumption | apply State.loseCore_ok | apply State.loseSol_ok | apply foldl_ok | apply foldl_ok1 | apply ite_ok | apply ite_ok1 | apply ite_next | apply next_ok | intro _)

theorem execPmAlert_ok {Q : List Instr} (addr : Fin 128) (status : Fin 65536) (s : State) (hok : Ok Q s) : OkOut Q (execPmAlert addr status s) := by
  unfold execPmAlert
  with_reducible repeat' (first | assumption | apply State.emit_ok | apply State.report_ok | apply foldl_ok | apply foldl_ok1 | apply ite_ok | apply ite_ok1 | apply ite_next | apply next_ok | intro _)

theorem State.allOff_ok {Q : List Instr} (s : State) (ds : List Nat) (hok : Ok Q s) : Ok Q (State.allOff s ds) := by
  unfold State.allOff
  with_reducible repeat' (first | assumption | apply State.enter_ok | apply State.setTrans_ok | apply foldl_ok | apply foldl_ok1 | apply ite_ok | apply ite_ok1 | apply ite_next | apply next_ok | intro _)

theorem State.writeSleep_ok {Q : List Instr} (w : WriteReq) (s : State) (hok : Ok Q s) : Ok Q (State.writeSleep w s) := by
  unfold State.writeSleep
  with_reducible repeat' (first | assumption | apply State.allOff_ok | apply State.enter_ok | apply State.powerRefuse_ok | apply State.setPwr_ok | apply State.setTrans_ok | apply foldl_ok | apply foldl_ok1 | apply ite_ok | apply ite_ok1 | apply ite_next | apply next_ok | intro _)

theorem execPwrSleep_ok {Q : List Instr} (w : WriteReq) (s : State) (hok : Ok Q s) : OkOut Q (execPwrSleep w s) := by
  unfold execPwrSleep
  with_reducible repeat' (first | assumption | apply State.gated_ok | apply State.writeSleep_ok | apply foldl_ok | apply foldl_ok1 | apply ite_ok | apply ite_ok1 | apply ite_next | apply next_ok)

theorem State.goDormant_ok {Q : List Instr} (s : State) (hok : Ok Q s) : Ok Q (State.goDormant s) := by
  unfold State.goDormant
  with_reducible repeat' (first | assumption | apply State.setAlm_ok | apply State.setBgw_ok | apply State.setF_ok | apply State.setPwr_ok)

theorem State.setLocks_ok {Q : List Instr} (s : State) (v : Nat) (hok : Ok Q s) : Ok Q (State.setLocks s v) := by
  unfold State.setLocks
  with_reducible repeat' (first | assumption | apply State.setF_ok | apply foldl_ok | apply foldl_ok1 | apply ite_ok | apply ite_ok1 | apply ite_next | apply next_ok | intro _)

theorem execDormantEntry_ok {Q : List Instr} (s : State) (hok : Ok Q s) : OkOut Q (execDormantEntry s) := by
  unfold execDormantEntry
  with_reducible repeat' (first | assumption | apply State.goDormant_ok | apply State.setLocks_ok | apply foldl_ok | apply foldl_ok1 | apply ite_ok | apply ite_ok1 | apply ite_next | apply next_ok | intro _)

theorem State.startWaking_ok {Q : List Instr} (s : State) (src : Nat) (hok : Ok Q s) : Ok Q (State.startWaking s src) := by
  unfold State.startWaking
  with_reducible repeat' (first | assumption | apply State.setF_ok | apply State.setPwr_ok)

theorem execDeviceWakeFire_ok {Q : List Instr} (s : State) (hok : Ok Q s) : OkOut Q (execDeviceWakeFire s) := by
  unfold execDeviceWakeFire
  with_reducible repeat' (first | assumption | apply State.reach_ok | apply State.setF_ok | apply State.startWaking_ok | apply foldl_ok | apply foldl_ok1 | apply ite_ok | apply ite_ok1 | apply ite_next | apply next_ok | intro _)

theorem execPwWakeN_ok {Q : List Instr} (cycles : Nat) (s : State) (hok : Ok Q s) : OkOut Q (execPwWakeN cycles s) := by
  unfold execPwWakeN
  with_reducible repeat' (first | assumption | apply State.crystals_ok | apply State.startWaking_ok | apply foldl_ok | apply foldl_ok1 | apply ite_ok | apply ite_ok1 | apply ite_next | apply next_ok | intro _)

theorem execReferenceCheck_ok {Q : List Instr} (count : Nat) (s : State) (hok : Ok Q s) : OkOut Q (execReferenceCheck count s) := by
  unfold execReferenceCheck
  with_reducible repeat' (first | assumption | apply State.elapse_ok | apply State.goDormant_ok | apply State.report_ok | apply State.setPwr_ok | apply foldl_ok | apply foldl_ok1 | apply ite_ok | apply ite_ok1 | apply ite_next | apply next_ok | intro _)

theorem State.lateGenerals_ok {Q : List Instr} (s : State) (hok : Ok Q s) : Ok Q (State.lateGenerals s) := by
  unfold State.lateGenerals
  with_reducible repeat' (first | assumption | apply State.glCheck_ok | apply foldl_ok)

theorem State.wakingComplete_ok {Q : List Instr} (s : State) (hok : Ok Q s) : Ok Q (State.wakingComplete s) := by
  unfold State.wakingComplete
  with_reducible repeat' (first | assumption | apply State.enter_ok | apply State.irqSteward_ok | apply State.lateGenerals_ok | apply State.setF_ok | apply State.setLocks_ok | apply State.setPwr_ok | apply foldl_ok | apply foldl_ok1 | apply ite_ok | apply ite_ok1 | apply ite_next | apply next_ok | intro _)

theorem State.dropFrames_ok {Q : List Instr} (s : State) (hok : Ok Q s) : Ok Q (State.dropFrames s) := by
  unfold State.dropFrames
  with_reducible repeat' (first | assumption | apply State.onPipe_ok | apply foldl_ok | apply foldl_ok1 | apply ite_ok | apply ite_ok1 | apply ite_next | apply next_ok | intro _)

theorem execReferenceLost_ok {Q : List Instr} (s : State) (hok : Ok Q s) : OkOut Q (execReferenceLost s) := by
  unfold execReferenceLost
  with_reducible repeat' (first | assumption | apply State.allOff_ok | apply State.dropFrames_ok | apply State.goDormant_ok | apply State.report_ok | apply State.setLocks_ok | apply foldl_ok | apply foldl_ok1 | apply ite_ok | apply ite_ok1 | apply ite_next | apply next_ok | intro _)

theorem State.retuneAll_ok {Q : List Instr} (s : State) (hok : Ok Q s) : Ok Q (State.retuneAll s) := by
  unfold State.retuneAll
  with_reducible repeat' (first | assumption | apply State.retuneHost_ok | apply State.retune_ok | apply foldl_ok | apply foldl_ok | apply foldl_ok1 | apply ite_ok | apply ite_ok1 | apply ite_next | apply next_ok | intro _ | dsimp only | split)

theorem State.trip_ok {Q : List Instr} (s : State) (sensor : Nat) (temp : Int) (hok : Ok Q s) : Ok Q (State.trip s sensor temp) := by
  unfold State.trip
  with_reducible repeat' (first | assumption | apply State.setFlt_nil_ok | exact rfl | apply State.allOff_ok | apply State.dropFrames_ok | apply State.report_ok | apply State.setAlm_ok | apply State.setF_ok | apply State.setFlt_ok | apply State.setLocks_ok | apply State.setPwr_ok)

theorem State.throttle_ok {Q : List Instr} (s : State) (stage sensor : Nat) (temp : Int) (hok : Ok Q s) : Ok Q (State.throttle s stage sensor temp) := by
  unfold State.throttle
  with_reducible repeat' (first | assumption | apply State.report_ok | apply State.retuneAll_ok | apply State.setF_ok)

theorem execThermalSample_ok {Q : List Instr} (ts : List (BitVec 8)) (s : State) (hok : Ok Q s) : OkOut Q (execThermalSample ts s) := by
  unfold execThermalSample
  with_reducible repeat' (first | assumption | apply State.setI_ok | apply State.setPwr_ok | apply State.throttle_ok | apply State.trip_ok | apply foldl_ok | apply foldl_ok1 | apply ite_ok | apply ite_ok1 | apply ite_next | apply next_ok | intro _ | dsimp only | split)

theorem execThrottleStage2_ok {Q : List Instr} (s : State) (hok : Ok Q s) : OkOut Q (execThrottleStage2 s) := by
  unfold execThrottleStage2
  with_reducible repeat' (first | assumption | apply State.reach_ok | apply State.setPwr_ok | apply State.throttle_ok | apply foldl_ok | apply foldl_ok1 | apply ite_ok | apply ite_ok1 | apply ite_next | apply next_ok | intro _ | dsimp only | split)

theorem execThrottleRelease_ok {Q : List Instr} (s : State) (hok : Ok Q s) : OkOut Q (execThrottleRelease s) := by
  unfold execThrottleRelease
  with_reducible repeat' (first | assumption | apply State.reach_ok | apply State.report_ok | apply State.retuneAll_ok | apply State.setF_ok | apply State.setPwr_ok | apply foldl_ok | apply foldl_ok1 | apply ite_ok | apply ite_ok1 | apply ite_next | apply next_ok | intro _ | dsimp only | split)

theorem execOvertempComparator_ok {Q : List Instr} (sensor : Fin 44) (s : State) (hok : Ok Q s) : OkOut Q (execOvertempComparator sensor s) := by
  unfold execOvertempComparator
  with_reducible repeat' (first | assumption | apply State.trip_ok | apply foldl_ok | apply foldl_ok1 | apply ite_ok | apply ite_ok1 | apply ite_next | apply next_ok | intro _)

end Sys2Proof.Machine
end

