-- ==== Sys2Proof/Laws/Keep/CoreUnit.lean ====
section
/-!
SUPPORT. What the operations of Machine/CoreUnit.lean keep.
-/

namespace Sys2Proof.Machine

theorem State.setMiss_ok {Q : List Instr} (s : State) (u n : Nat) (hok : Ok Q s) : Ok Q (State.setMiss s u n) := by
  unfold State.setMiss
  with_reducible repeat' (first | assumption | apply State.setF_ok | apply State.setSol_ok | apply foldl_ok | apply foldl_ok1 | apply ite_ok | apply ite_ok1 | apply ite_next | apply next_ok | intro _)

theorem State.missToken_ok {Q : List Instr} (s : State) (u : Nat) (hok : Ok Q s) : Ok Q (State.missToken s u) := by
  unfold State.missToken
  with_reducible repeat' (first | assumption | apply State.loseCore_ok | apply State.loseSol_ok | apply State.report_ok | apply State.setMiss_ok | apply foldl_ok | apply foldl_ok1 | apply ite_ok | apply ite_ok1 | apply ite_next | apply next_ok | intro _)

theorem execHeartbeatToken_ok {Q : List Instr} (token : W64) (s : State) (hok : Ok Q s) : OkOut Q (execHeartbeatToken token s) := by
  unfold execHeartbeatToken
  with_reducible repeat' (first | assumption | apply State.offTraffic_ok | apply State.missToken_ok | apply State.onCore_ok | apply State.setMiss_ok | apply foldl_ok | apply foldl_ok1 | apply ite_ok | apply ite_ok1 | apply ite_next | apply next_ok | intro _ | dsimp only | split)

theorem execHeartbeatDeadline_ok {Q : List Instr} (u : Fin 33) (s : State) (hok : Ok Q s) : OkOut Q (execHeartbeatDeadline u s) := by
  unfold execHeartbeatDeadline
  with_reducible repeat' (first | assumption | apply State.offTraffic_ok | apply State.missToken_ok | apply State.onCore_ok | apply State.reach_ok | apply foldl_ok | apply foldl_ok1 | apply ite_ok | apply ite_ok1 | apply ite_next | apply next_ok | intro _ | dsimp only | split)

theorem State.writeHbCfg_ok {Q : List Instr} (w : WriteReq) (s : State) (hok : Ok Q s) : Ok Q (State.writeHbCfg w s) := by
  unfold State.writeHbCfg
  with_reducible repeat' (first | assumption | apply State.plainWrite_ok | apply State.setPwr_ok | apply foldl_ok | apply foldl_ok1 | apply ite_ok | apply ite_ok1 | apply ite_next | apply next_ok | intro _)

theorem execMgtHbRearm_ok {Q : List Instr} (w : WriteReq) (s : State) (hok : Ok Q s) : OkOut Q (execMgtHbRearm w s) := by
  unfold execMgtHbRearm
  with_reducible repeat' (first | assumption | apply State.gated_ok | apply State.writeHbCfg_ok | apply foldl_ok | apply foldl_ok1 | apply ite_ok | apply ite_ok1 | apply ite_next | apply next_ok)

theorem execCoreLost_ok {Q : List Instr} (c : Fin 32) (storage : Bool) (s : State) (hok : Ok Q s) : OkOut Q (execCoreLost c storage s) := by
  unfold execCoreLost
  with_reducible repeat' (first | assumption | apply State.loseCore_ok | apply foldl_ok | apply foldl_ok1 | apply ite_ok | apply ite_ok1 | apply ite_next | apply next_ok | intro _)

theorem State.tallyClear_ok {Q : List Instr} (s : State) (c : Nat) (hok : Ok Q s) : Ok Q (State.tallyClear s c) := by
  unfold State.tallyClear
  with_reducible repeat' (first | assumption | apply State.setF_ok | apply foldl_ok | apply foldl_ok1 | apply ite_ok | apply ite_ok1 | apply ite_next | apply next_ok | intro _)

theorem State.writeTallyCtl_ok {Q : List Instr} (c : Nat) (w : WriteReq) (s : State) (hok : Ok Q s) : Ok Q (State.writeTallyCtl c w s) := by
  unfold State.writeTallyCtl
  with_reducible repeat' (first | assumption | apply State.plainWrite_ok | apply State.tallyClear_ok | apply State.tallySnap_ok | apply foldl_ok | apply foldl_ok1 | apply ite_ok | apply ite_ok1 | apply ite_next | apply next_ok | intro _)

theorem execTallySnap_ok {Q : List Instr} (c : Fin 32) (w : WriteReq) (s : State) (hok : Ok Q s) : OkOut Q (execTallySnap c w s) := by
  unfold execTallySnap
  with_reducible repeat' (first | assumption | apply State.gated_ok | apply State.writeTallyCtl_ok | apply foldl_ok | apply foldl_ok1 | apply ite_ok | apply ite_ok1 | apply ite_next | apply next_ok)

theorem execTallyClear_ok {Q : List Instr} (c : Fin 32) (w : WriteReq) (s : State) (hok : Ok Q s) : OkOut Q (execTallyClear c w s) := by
  unfold execTallyClear
  with_reducible repeat' (first | assumption | apply State.gated_ok | apply State.writeTallyCtl_ok | apply foldl_ok | apply foldl_ok1 | apply ite_ok | apply ite_ok1 | apply ite_next | apply next_ok)

theorem State.writeWindow_ok {Q : List Instr} (c o : Nat) (w : WriteReq) (s : State) (hok : Ok Q s) : Ok Q (State.writeWindow c o w s) := by
  unfold State.writeWindow
  with_reducible repeat' (first | assumption | apply State.addSat_ok | apply State.plainWrite_ok | apply foldl_ok | apply foldl_ok1 | apply ite_ok | apply ite_ok1 | apply ite_next | apply next_ok | intro _)

theorem execContextWindowWrite_ok {Q : List Instr} (c : Fin 32) (o : Fin 0xE0000) (w : WriteReq) (s : State) (hok : Ok Q s) : OkOut Q (execContextWindowWrite c o w s) := by
  unfold execContextWindowWrite
  with_reducible repeat' (first | assumption | apply State.gated_ok | apply State.writeWindow_ok | apply foldl_ok | apply foldl_ok1 | apply ite_ok | apply ite_ok1 | apply ite_next | apply next_ok)

theorem execCcWdenyRead_ok {Q : List Instr} (c : Fin 32) (r : ReadReq) (s : State) (hok : Ok Q s) : OkOut Q (execCcWdenyRead c r s) := by
  unfold execCcWdenyRead
  with_reducible repeat' (first | assumption | apply State.answer_ok | apply State.readRc_ok | apply foldl_ok | apply foldl_ok1 | apply ite_ok | apply ite_ok1 | apply ite_next | apply next_ok | intro _)

end Sys2Proof.Machine
end

