-- ==== Sys2Proof/Laws/Keep/Launch.lean ====
section
/-!
SUPPORT. What the operations of Machine/Launch.lean keep.
-/

namespace Sys2Proof.Machine

theorem lateWakes_ok {Q : List Instr} (s : State) (c : Nat) (hok : Ok Q s) : Ok Q (lateWakes s c).1 := by
  unfold lateWakes
  with_reducible repeat' (first | assumption | apply State.wakeLaunch_ok | apply foldl_ok | apply foldl_ok1 | apply ite_ok | apply ite_ok1 | apply ite_next | apply next_ok | intro _)

theorem lateBeat_ok {Q : List Instr} (s : State) (n : Nat) (hok : Ok Q s) : Ok Q (lateBeat s n).1 := by
  unfold lateBeat
  with_reducible repeat' (first | assumption | apply State.freeNext_ok | apply State.launchBeat_ok | apply State.onBeat_ok | apply State.reportScaleWait_ok | apply foldl_ok | apply foldl_ok1 | apply ite_ok | apply ite_ok1 | apply ite_next | apply next_ok | intro _ | dsimp only | split)

theorem lateFrames_ok {Q : List Instr} (was : Nat) (s : State) (l : Nat) (hok : Ok Q s) : Ok Q (lateFrames was s l).1 := by
  unfold lateFrames
  with_reducible repeat' (first | assumption | apply State.onLink_ok | apply State.setLate_ok | apply foldl_ok | apply foldl_ok1 | apply ite_ok | apply ite_ok1 | apply ite_next | apply next_ok | intro _ | dsimp only | split)

theorem lateExpose_ok {Q : List Instr} (n : Nat) (s : State) (i : Nat) (hok : Ok Q s) : Ok Q (lateExpose n s i).1 := by
  induction n generalizing s with
  | zero => exact hok
  | succ n ih =>
    unfold lateExpose
    split
    · split
      · apply State.setLate_ok; apply ih; apply State.exposeNow_ok; exact hok
      · exact hok
    · exact hok

theorem lateStrobe_ok {Q : List Instr} (n : Nat) (s : State) (i : Nat) (hok : Ok Q s) : Ok Q (lateStrobe n s i).1 := by
  induction n generalizing s with
  | zero => exact hok
  | succ n ih =>
    unfold lateStrobe
    split
    · split
      · apply State.setLate_ok; apply ih; apply State.strobeNow_ok; exact hok
      · exact hok
    · exact hok

theorem lateGeneral_ok {Q : List Instr} (n : Nat) (s : State) (p : Nat) (hok : Ok Q s) : Ok Q (lateGeneral n s p).1 := by
  induction n generalizing s with
  | zero => exact hok
  | succ n ih =>
    unfold lateGeneral
    split
    · apply ih; apply State.setLate_ok; apply State.glFire_ok; exact hok
    · exact hok

theorem lateWakePort_ok {Q : List Instr} (s : State) (hok : Ok Q s) : Ok Q (lateWakePort s).1 := by
  unfold lateWakePort
  with_reducible repeat' (first | assumption | apply State.setF_ok | apply foldl_ok | apply foldl_ok1 | apply ite_ok | apply ite_ok1 | apply ite_next | apply next_ok | intro _)

theorem lateAll_ok {Q : List Instr} (f : State → Nat → Late) (ports : List Nat) (a : Late) (hf : ∀ s x, Ok Q s → Ok Q (f s x).1) (hok : Ok Q a.1) : Ok Q (lateAll f ports a).1 := by
  unfold lateAll
  with_reducible repeat' (first | assumption | apply hf | apply foldl_ok | apply foldl_ok1 | apply ite_ok | apply ite_ok1 | apply ite_next | apply next_ok | intro _)

theorem State.timerCompares_ok {Q : List Instr} (s : State) (hok : Ok Q s) : Ok Q (State.timerCompares s) := by
  unfold State.timerCompares
  with_reducible repeat' (first | assumption | apply State.setIrq_ok | apply foldl_ok | apply foldl_ok1 | apply ite_ok | apply ite_ok1 | apply ite_next | apply next_ok | intro _ | dsimp only | split)

theorem State.stepForward_ok {Q : List Instr} (s : State) (was d : Nat) (hok : Ok Q s) : Ok Q (State.stepForward s was d).1 := by
  unfold State.stepForward
  with_reducible repeat' (first | assumption | apply State.expireAll_ok | apply State.timerCompares_ok | apply lateAll_ok | apply lateBeat_ok | apply lateExpose_ok | apply lateFrames_ok | apply lateGeneral_ok | apply lateStrobe_ok | apply lateWakePort_ok | apply lateWakes_ok | apply foldl_ok | apply foldl_ok1 | apply ite_ok | apply ite_ok1 | apply ite_next | apply next_ok | intro _ | dsimp only | split)

theorem State.stepBack_ok {Q : List Instr} (s : State) (was d : Nat) (hok : Ok Q s) : Ok Q (State.stepBack s was d) := by
  unfold State.stepBack
  with_reducible repeat' (first | assumption | apply State.onLink_ok | apply State.putBeat_ok | apply State.setEp_ok | apply State.setF_ok | apply foldl_ok | apply foldl_ok | apply foldl_ok1 | apply ite_ok | apply ite_ok1 | apply ite_next | apply next_ok | intro _ | dsimp only | split)

theorem State.stepTime_ok {Q : List Instr} (s : State) (x : Int) (hok : Ok Q s) : Ok Q (State.stepTime s x) := by
  unfold State.stepTime
  with_reducible repeat' (first | assumption | apply State.freeNext_ok | apply State.loseLock_ok | apply State.raise_ok | apply State.setAlm_ok | apply State.stepBack_ok | apply State.stepForward_ok | apply State.ticks_ok | apply foldl_ok | apply foldl_ok1 | apply ite_ok | apply ite_ok1 | apply ite_next | apply next_ok | intro _ | dsimp only | split)

theorem State.writeStep_ok {Q : List Instr} (w : WriteReq) (s : State) (hok : Ok Q s) : Ok Q (State.writeStep w s) := by
  unfold State.writeStep
  with_reducible repeat' (first | assumption | apply State.setAlm_ok | apply State.setBgw_ok | apply State.stepTime_ok | apply foldl_ok | apply foldl_ok1 | apply ite_ok | apply ite_ok1 | apply ite_next | apply next_ok | intro _ | dsimp only | split)

theorem execAlmStep_ok {Q : List Instr} (w : WriteReq) (s : State) (hok : Ok Q s) : OkOut Q (execAlmStep w s) := by
  unfold execAlmStep
  with_reducible repeat' (first | assumption | apply State.gated_ok | apply State.writeStep_ok | apply foldl_ok | apply foldl_ok1 | apply ite_ok | apply ite_ok1 | apply ite_next | apply next_ok)

theorem execMtimecmpCompare_ok {Q : List Instr} (h : Fin 4) (t : Nat) (s : State) (hok : Ok Q s) : OkOut Q (execMtimecmpCompare h t s) := by
  unfold execMtimecmpCompare
  with_reducible repeat' (first | assumption | apply State.reach_ok | apply State.setAlm_ok | apply State.timerCompares_ok | apply foldl_ok | apply foldl_ok1 | apply ite_ok | apply ite_ok1 | apply ite_next | apply next_ok | intro _)

end Sys2Proof.Machine
end

