-- ==== Sys2Proof/Laws/Keep/Solstice.lean ====
section
/-!
SUPPORT. What the operations of Machine/Solstice.lean keep.
-/

namespace Sys2Proof.Machine

theorem State.convOut_ok {Q : List Instr} (s : State) (p fif stage base : Nat) (k : ConvConf) (code : Nat → Nat → Nat → Int) (oy ox oc : Nat) (hok : Ok Q s) : Ok Q (State.convOut s p fif stage base k code oy ox oc).1 := by
  unfold State.convOut
  with_reducible repeat' (first | assumption | apply State.noteOut_ok)

theorem State.readInput_ok {Q : List Instr} (s : State) (p : Nat) (f : Frame) (hok : Ok Q s) : Ok Q (State.readInput s p f) := by
  unfold State.readInput
  with_reducible repeat' (first | assumption | apply State.meetFor_ok | apply foldl_ok | apply foldl_ok1 | apply ite_ok | apply ite_ok1 | apply ite_next | apply next_ok | intro _ | dsimp only | split)

theorem State.rereadInput_ok {Q : List Instr} (s : State) (p : Nat) (f : Frame) (r0 r1 : Nat) (hok : Ok Q s) : Ok Q (State.rereadInput s p f r0 r1) := by
  unfold State.rereadInput
  with_reducible repeat' (first | assumption | apply State.meetFor_ok | apply foldl_ok | apply foldl_ok1 | apply ite_ok | apply ite_ok1 | apply ite_next | apply next_ok | intro _ | dsimp only | split)

theorem execStemScanDone_ok {Q : List Instr} (s : State) (hok : Ok Q s) : OkOut Q (execStemScanDone s) := by
  unfold execStemScanDone
  with_reducible repeat' (first | assumption | apply State.passScale_ok | apply State.readInput_ok | apply State.setSol_ok | apply foldl_ok | apply next_ok | apply foldl_ok | apply foldl_ok1 | apply ite_ok | apply ite_ok1 | apply ite_next | apply next_ok | intro _ | dsimp only | split)

theorem State.stemBand_ok {Q : List Instr} (s : State) (p c b : Nat) (hok : Ok Q s) : Ok Q (State.stemBand s p c b) := by
  unfold State.stemBand
  with_reducible repeat' (first | assumption | apply State.convOut_ok | apply State.fillBand_ok | apply State.openBand_ok | apply State.rereadInput_ok | apply foldl_ok | apply foldl_ok | apply foldl_ok1 | apply ite_ok | apply ite_ok1 | apply ite_next | apply next_ok | intro _ | dsimp only | split)

theorem execBandWriteStart_ok {Q : List Instr} (c : Fin 32) (b : Fin 8) (prod : BandProducer) (s : State) (hok : Ok Q s) : OkOut Q (execBandWriteStart c b prod s) := by
  unfold execBandWriteStart
  with_reducible repeat' (first | assumption | apply State.dwBand_ok | apply State.openBand_ok | apply State.stemBand_ok | apply foldl_ok | apply foldl_ok1 | apply ite_ok | apply ite_ok1 | apply ite_next | apply next_ok | intro _ | dsimp only | split)

theorem State.solErrs_ok {Q : List Instr} (s : State) (errs : List (Fin 327680 × Bool)) (hok : Ok Q s) : Ok Q (State.solErrs s errs) := by
  unfold State.solErrs
  with_reducible repeat' (first | assumption | apply State.setSol_ok)

theorem State.solMem_ok {Q : List Instr} (s : State) (p fif path lo len : Nat) (hok : Ok Q s) : Ok Q (State.solMem s p fif path lo len) := by
  unfold State.solMem
  with_reducible repeat' (first | assumption | apply State.reportF_ok | apply State.voidFrame_ok | apply foldl_ok | apply foldl_ok1 | apply ite_ok | apply ite_ok1 | apply ite_next | apply next_ok | intro _)

theorem State.scanReports_ok {Q : List Instr} (s : State) (p : Nat) (f : Frame) (hok : Ok Q s) : Ok Q (State.scanReports s p f) := by
  unfold State.scanReports
  with_reducible repeat' (first | assumption | apply State.nonfinite_ok | apply State.reportF_ok | apply foldl_ok | apply foldl_ok1 | apply ite_ok | apply ite_ok1 | apply ite_next | apply next_ok | intro _ | dsimp only | split)

theorem execStemPassDone_ok {Q : List Instr} (errs : List (Fin 327680 × Bool)) (s : State) (hok : Ok Q s) : OkOut Q (execStemPassDone errs s) := by
  unfold execStemPassDone
  with_reducible repeat' (first | assumption | apply State.leaveStage_ok | apply State.scanReports_ok | apply State.setSol_ok | apply State.settleFollower_ok | apply State.solErrs_ok | apply State.solMem_ok | apply State.stageDone_ok | apply foldl_ok | apply foldl_ok1 | apply ite_ok | apply ite_ok1 | apply ite_next | apply next_ok | intro _ | dsimp only | split)

theorem execTailDone_ok {Q : List Instr} (errs : List (Fin 327680 × Bool)) (s : State) (hok : Ok Q s) : OkOut Q (execTailDone errs s) := by
  unfold execTailDone
  with_reducible repeat' (first | assumption | apply State.convOut_ok | apply State.leaveStage_ok | apply State.onFrame_ok | apply State.setSol_ok | apply State.settleFollower_ok | apply State.settleTail_ok | apply State.solErrs_ok | apply State.solMem_ok | apply State.stageDone_ok | apply State.unitWriteN_ok | apply foldl_ok | apply next_ok | apply foldl_ok | apply foldl_ok1 | apply ite_ok | apply ite_ok1 | apply ite_next | apply next_ok | intro _ | dsimp only | split)

theorem execSolsticeLost_ok {Q : List Instr} (cause : Fin 4) (s : State) (hok : Ok Q s) : OkOut Q (execSolsticeLost cause s) := by
  unfold execSolsticeLost
  with_reducible repeat' (first | assumption | apply State.loseSol_ok | apply foldl_ok | apply foldl_ok1 | apply ite_ok | apply ite_ok1 | apply ite_next | apply next_ok)

end Sys2Proof.Machine
end

