-- ==== Sys2Proof/Laws/Keep/Loader.lean ====
section
/-!
SUPPORT. What the operations of Machine/Loader.lean keep.
-/

namespace Sys2Proof.Machine

theorem State.meetN_ok {Q : List Instr} (s : State) (a n : Nat) (hok : Ok Q s) : Ok Q (State.meetN s a n) := by
  unfold State.meetN
  with_reducible repeat' (first | assumption | apply State.meetWords_ok | apply foldl_ok | apply foldl_ok1 | apply ite_ok | apply ite_ok1 | apply ite_next | apply next_ok | intro _ | dsimp only | split)

theorem State.loadFault_ok {Q : List Instr} (s : State) (cls code pipe : Nat) (detail : List (Nat × Nat)) (hok : Ok Q s) : Ok Q (State.loadFault s cls code pipe detail) := by
  unfold State.loadFault
  with_reducible repeat' (first | assumption | apply State.irqSteward_ok | apply State.report_ok | apply State.setF_ok | apply foldl_ok | apply foldl_ok1 | apply ite_ok | apply ite_ok1 | apply ite_next | apply next_ok | intro _)

theorem State.startRequest_ok {Q : List Instr} (s : State) (r : LoadReq) (hok : Ok Q s) : Ok Q (State.startRequest s r) := by
  unfold State.startRequest
  with_reducible repeat' (first | assumption | apply State.loadFault_ok | apply State.meetN_ok | apply State.setF_ok | apply State.setLoad_ok | apply foldl_ok | apply foldl_ok1 | apply ite_ok | apply ite_ok1 | apply ite_next | apply next_ok | intro _ | dsimp only | split)

theorem State.startLoad_ok {Q : List Instr} (s : State) (hok : Ok Q s) : Ok Q (State.startLoad s) := by
  unfold State.startLoad
  with_reducible repeat' (first | assumption | apply State.meetN_ok | apply State.startRequest_ok | apply foldl_ok | apply foldl_ok1 | apply ite_ok | apply ite_ok1 | apply ite_next | apply next_ok | intro _ | dsimp only | split)

theorem State.writeWvlCtl_ok {Q : List Instr} (w : WriteReq) (s : State) (hok : Ok Q s) : Ok Q (State.writeWvlCtl w s) := by
  unfold State.writeWvlCtl
  with_reducible repeat' (first | assumption | apply State.loadFault_ok | apply State.startLoad_ok | apply foldl_ok | apply foldl_ok1 | apply ite_ok | apply ite_ok1 | apply ite_next | apply next_ok | intro _ | dsimp only | split)

theorem execWvlGo_ok {Q : List Instr} (w : WriteReq) (s : State) (hok : Ok Q s) : OkOut Q (execWvlGo w s) := by
  unfold execWvlGo
  with_reducible repeat' (first | assumption | apply State.gatedAct_ok | apply State.writeWvlCtl_ok | apply foldl_ok | apply foldl_ok1 | apply ite_ok | apply ite_ok1 | apply ite_next | apply next_ok)

theorem State.settleSolFloor_ok {Q : List Instr} (s : State) (hok : Ok Q s) : Ok Q (State.settleSolFloor s) := by
  unfold State.settleSolFloor
  with_reducible repeat' (first | assumption | apply State.retune_ok | apply State.setF_ok | apply foldl_ok | apply foldl_ok1 | apply ite_ok | apply ite_ok1 | apply ite_next | apply next_ok | intro _ | dsimp only | split)

theorem State.commitActive_ok {Q : List Instr} (s : State) (nsect c : Nat) (hok : Ok Q s) : Ok Q (State.commitActive s nsect c) := by
  unfold State.commitActive
  with_reducible repeat' (first | assumption | apply State.setF_ok | apply foldl_ok | apply foldl_ok1 | apply ite_ok | apply ite_ok1 | apply ite_next | apply next_ok | intro _)

theorem State.writeNear_ok {Q : List Instr} (n : Nat) (s : State) (c off : Nat) (bs : List Byte) (hok : Ok Q s) : Ok Q (State.writeNear n s c off bs).1 := by
  unfold State.writeNear
  with_reducible repeat' (first | assumption | apply State.unitWriteN_ok)

theorem State.writeReload_ok {Q : List Instr} (s : State) (c off : Nat) (bs : List Byte) (hok : Ok Q s) : Ok Q (State.writeReload s c off bs).1 := by
  unfold State.writeReload
  with_reducible repeat' (first | assumption | apply State.writeNear_ok)

theorem writeAll_ok {Q : List Instr} {α : Type} {f : State → α → State × Bool} {l : List α} {p : State × Bool}
    (h : Ok Q p.1) (hf : ∀ s x, Ok Q s → Ok Q (f s x).1) : Ok Q (writeAll f l p).1 :=
  foldl_ok1 h (fun p x hp => hf p.1 x hp)

theorem State.commitReload_ok {Q : List Instr} (s : State) (cs : List WChunk) (x : WVar) (r : LoadJob) (c i : Nat)
    (hok : Ok Q s) : Ok Q (State.commitReload s cs x r c i).1 :=
  writeAll_ok hok (fun s _ hs => State.writeReload_ok s c _ _ hs)

theorem State.clearTables_ok {Q : List Instr} (s : State) (r : LoadJob) (hok : Ok Q s) : Ok Q (State.clearTables s r) := by
  unfold State.clearTables
  exact State.setRegs_drop_ok hok

theorem State.commitStores_ok {Q : List Instr} (s : State) (cs : List WChunk) (x : WVar) (r : LoadJob) (sect : Nat) (hok : Ok Q s) : Ok Q (State.commitStores s cs x r sect) := by
  unfold State.commitStores
  with_reducible repeat' (first | assumption | apply State.storePut_ok | apply foldl_ok | apply foldl_ok | apply foldl_ok1 | apply ite_ok | apply ite_ok1 | apply ite_next | apply next_ok | intro _ | dsimp only | split)

theorem State.resetRegion_ok {Q : List Instr} (s : State) (c w : Nat) (hok : Ok Q s) : Ok Q (State.resetRegion s c w) := by
  unfold State.resetRegion
  with_reducible repeat' (first | assumption | apply State.putCarry_ok | apply foldl_ok | apply foldl_ok | apply foldl_ok1 | apply ite_ok | apply ite_ok1 | apply ite_next | apply next_ok | intro _ | dsimp only | split)

theorem State.commitClaim_ok {Q : List Instr} (s : State) (bs : List Byte) (cs : List WChunk) (x : WVar) (r : LoadJob) (al : Alloc) (hops : List Hop) (hok : Ok Q s) : Ok Q (State.commitClaim s bs cs x r al hops) := by
  unfold State.commitClaim
  with_reducible repeat' (first | assumption | apply State.putPipe_ok | apply State.setF_ok | apply State.setSpine_ok | apply State.settleSolFloor_ok | apply State.tgAbort_ok | apply foldl_ok | apply foldl_ok | apply foldl_ok1 | apply ite_ok | apply ite_ok1 | apply ite_next | apply next_ok | intro _ | dsimp only | split)

theorem State.commitSegs_ok {Q : List Instr} (s : State) (cs : List WChunk) (x : WVar) (al : Alloc) (hok : Ok Q s) : Ok Q (State.commitSegs s cs x al).1 := by
  unfold State.commitSegs
  with_reducible repeat' (first | assumption | apply State.setSol_ok | apply State.unitWriteN_ok | apply foldl_ok | apply foldl_ok | apply foldl_ok1 | apply ite_ok | apply ite_ok1 | apply ite_next | apply next_ok | intro _ | dsimp only | split)

theorem State.commitRuns_ok {Q : List Instr} (s : State) (c : Nat) (bs : List Byte) (hok : Ok Q s) : Ok Q (State.commitRuns s c bs) := by
  unfold State.commitRuns
  with_reducible repeat' (first | assumption | apply State.imageWord_ok | apply foldl_ok | apply foldl_ok | apply foldl_ok1 | apply ite_ok | apply ite_ok1 | apply ite_next | apply next_ok | intro _ | dsimp only | split)

theorem State.commitImages_ok {Q : List Instr} (s : State) (cs : List WChunk) (x : WVar) (r : LoadJob) (hok : Ok Q s) : Ok Q (State.commitImages s cs x r).1 := by
  unfold State.commitImages
  with_reducible repeat' (first | assumption | apply State.clearTables_ok | apply State.commitActive_ok | apply State.commitReload_ok | apply State.commitRuns_ok | apply State.commitStores_ok | apply foldl_ok | apply writeAll_ok | apply foldl_ok | apply foldl_ok1 | apply ite_ok | apply ite_ok1 | apply ite_next | apply next_ok | intro _ | dsimp only | split)

theorem State.commitCores_ok {Q : List Instr} (s : State) (cs : List WChunk) (x : WVar) (r : LoadJob) (hok : Ok Q s) : Ok Q (State.commitCores s cs x r) := by
  unfold State.commitCores
  with_reducible repeat' (first | assumption | apply State.resetRegion_ok | apply State.retune_ok | apply State.setEdges_ok | apply State.setF_ok | apply State.setFstr_ok | apply State.setGws_ok | apply State.setRbufs_ok | apply State.setSeqs_ok | apply State.setTiles_ok | apply State.setWires_ok | apply foldl_ok | apply foldl_ok | apply foldl_ok1 | apply ite_ok | apply ite_ok1 | apply ite_next | apply next_ok | intro _ | dsimp only | split)

theorem State.commitSol_ok {Q : List Instr} (s : State) (cs : List WChunk) (x : WVar) (r : LoadJob) (hok : Ok Q s) : Ok Q (State.commitSol s cs x r) := by
  unfold State.commitSol
  with_reducible repeat' (first | assumption | apply State.setSol_ok | apply State.settleSolFloor_ok | apply foldl_ok | apply foldl_ok1 | apply ite_ok | apply ite_ok1 | apply ite_next | apply next_ok | intro _)

theorem State.commitScales_ok {Q : List Instr} (s : State) (r : LoadJob) (hok : Ok Q s) : Ok Q (State.commitScales s r).1 := by
  unfold State.commitScales
  with_reducible repeat' (first | assumption | apply State.initRecords_ok | apply writeAll_ok | apply foldl_ok | apply foldl_ok1 | apply ite_ok | apply ite_ok1 | apply ite_next | apply next_ok | intro _ | dsimp only | split)

theorem State.commitTables_ok {Q : List Instr} (s : State) (raw cs : List WChunk) (x : WVar) (r : LoadJob) (al : Alloc) (hok : Ok Q s) : Ok Q (State.commitTables s raw cs x r al) := by
  unfold State.commitTables
  with_reducible repeat' (first | assumption | apply State.onPipe_ok | apply State.setSpineBad_ok | apply State.setSpine_ok | apply State.setUnitGw_ok | apply State.setWord_ok | apply State.unitWriteN_ok | apply foldl_ok | apply foldl_ok | apply foldl_ok1 | apply ite_ok | apply ite_ok1 | apply ite_next | apply next_ok | intro _ | dsimp only | split)

theorem State.commitThreads_ok {Q : List Instr} (s : State) (cs : List WChunk) (x : WVar) (r : LoadJob) (hok : Ok Q s) : Ok Q (State.commitThreads s cs x r) := by
  unfold State.commitThreads
  with_reducible repeat' (first | assumption | apply State.onPipe_ok | apply State.onThr_ok | apply State.setF_ok | apply State.setWord_ok | apply State.startSlot_ok | apply foldl_ok | apply foldl_ok1 | apply ite_ok | apply ite_ok1 | apply ite_next | apply next_ok | intro _)

theorem State.commitEnd_ok {Q : List Instr} (s : State) (bs : List Byte) (x : WVar) (r : LoadJob) (hok : Ok Q s) : Ok Q (State.commitEnd s bs x r) := by
  unfold State.commitEnd
  with_reducible repeat' (first | assumption | apply State.irqSteward_ok | apply State.putBeat_ok | apply State.setBmState_ok | apply State.setEffective_ok | apply State.setF_ok | apply foldl_ok | apply foldl_ok1 | apply ite_ok | apply ite_ok1 | apply ite_next | apply next_ok | intro _)

theorem State.commitStop_ok {Q : List Instr} (s : State) (r : LoadJob) (step cause : Nat) (hok : Ok Q s) : Ok Q (State.commitStop s r step cause) := by
  unfold State.commitStop
  with_reducible repeat' (first | assumption | apply State.loadFault_ok | apply State.setF_ok)

theorem State.commitSteps_ok {Q : List Instr} (s : State) (bs : List Byte) (raw cs : List WChunk) (x : WVar) (r : LoadJob) (al : Alloc) (hok : Ok Q s) : Ok Q (State.commitSteps s bs raw cs x r al) := by
  unfold State.commitSteps
  with_reducible repeat' (first | assumption | apply State.commitCores_ok | apply State.commitEnd_ok | apply State.commitImages_ok | apply State.commitScales_ok | apply State.commitSegs_ok | apply State.commitSol_ok | apply State.commitStop_ok | apply State.commitTables_ok | apply State.commitThreads_ok | apply foldl_ok | apply foldl_ok | apply foldl_ok1 | apply ite_ok | apply ite_ok1 | apply ite_next | apply next_ok | intro _ | dsimp only | split)

theorem State.unload_ok {Q : List Instr} (s : State) (n : Nat) (hok : Ok Q s) : Ok Q (State.unload s n) := by
  unfold State.unload
  with_reducible repeat' (first | assumption | apply State.enterIdle_ok | apply State.freeSlot_ok | apply State.putPipe_ok | apply State.retune_ok | apply State.setF_ok | apply State.setSpineBad_ok | apply State.setSpine_ok | apply State.settleSolFloor_ok | apply foldl_ok | apply foldl_ok | apply foldl_ok1 | apply ite_ok | apply ite_ok1 | apply ite_next | apply next_ok | intro _ | dsimp only | split)

theorem State.tryUnload_ok {Q : List Instr} (s : State) (n : Nat) (hok : Ok Q s) : Ok Q (State.tryUnload s n) := by
  unfold State.tryUnload
  with_reducible repeat' (first | assumption | apply State.loadFault_ok | apply State.unload_ok | apply foldl_ok | apply foldl_ok1 | apply ite_ok | apply ite_ok1 | apply ite_next | apply next_ok | intro _ | dsimp only | split)

theorem State.dueUnloads_ok {Q : List Instr} (s : State) (hok : Ok Q s) : Ok Q (State.dueUnloads s) := by
  unfold State.dueUnloads
  with_reducible repeat' (first | assumption | apply State.onPipe_ok | apply State.tryUnload_ok | apply foldl_ok | apply foldl_ok | apply foldl_ok1 | apply ite_ok | apply ite_ok1 | apply ite_next | apply next_ok | intro _ | dsimp only | split)

theorem State.commitLoad_ok {Q : List Instr} (s : State) (r : LoadJob) (hok : Ok Q s) : Ok Q (State.commitLoad s r) := by
  unfold State.commitLoad
  with_reducible repeat' (first | assumption | apply State.commitClaim_ok | apply State.commitSteps_ok | apply State.dueUnloads_ok | apply State.meetN_ok | apply State.setF_ok | apply State.setLoad_ok | apply foldl_ok | apply foldl_ok1 | apply ite_ok | apply ite_ok1 | apply ite_next | apply next_ok | intro _ | dsimp only | split)

theorem State.writeUnload_ok {Q : List Instr} (n : Nat) (w : WriteReq) (s : State) (hok : Ok Q s) : Ok Q (State.writeUnload n w s) := by
  unfold State.writeUnload
  with_reducible repeat' (first | assumption | apply State.onPipe_ok | apply State.tryUnload_ok | apply foldl_ok | apply foldl_ok1 | apply ite_ok | apply ite_ok1 | apply ite_next | apply next_ok | intro _ | dsimp only | split)

theorem execWvlUnload_ok {Q : List Instr} (n : Fin 4) (w : WriteReq) (s : State) (hok : Ok Q s) : OkOut Q (execWvlUnload n w s) := by
  unfold execWvlUnload
  with_reducible repeat' (first | assumption | apply State.gatedAct_ok | apply State.writeUnload_ok | apply foldl_ok | apply foldl_ok1 | apply ite_ok | apply ite_ok1 | apply ite_next | apply next_ok)

end Sys2Proof.Machine
end

