-- ==== Sys2Proof/Laws/Keep/Ports.lean ====
section
/-!
SUPPORT. What the operations of Machine/Ports.lean keep.
-/

namespace Sys2Proof.Machine

theorem State.stageEp_ok {Q : List Instr} (s : State) (i k : Nat) (w : WriteReq) (hok : Ok Q s) : Ok Q (State.stageEp s i k w) := by
  unfold State.stageEp
  with_reducible repeat' (first | assumption | apply State.setEp_ok)

theorem State.putEp_ok {Q : List Instr} (s : State) (i : Nat) (b : List Byte) (hok : Ok Q s) : Ok Q (State.putEp s i b) := by
  unfold State.putEp
  with_reducible repeat' (first | assumption | apply State.setWord_ok | apply foldl_ok | apply foldl_ok1 | apply ite_ok | apply ite_ok1 | apply ite_next | apply next_ok | intro _)

theorem State.commitEp_ok {Q : List Instr} (i : Nat) (w : WriteReq) (s : State) (hok : Ok Q s) : Ok Q (State.commitEp i w s) := by
  unfold State.commitEp
  with_reducible repeat' (first | assumption | apply State.putEp_ok | apply State.report_ok | apply State.setEp_ok | apply State.stageEp_ok | apply foldl_ok | apply foldl_ok1 | apply ite_ok | apply ite_ok1 | apply ite_next | apply next_ok | intro _ | dsimp only | split)

theorem execEndpointCommit_ok {Q : List Instr} (i : Fin 1024) (w : WriteReq) (s : State) (hok : Ok Q s) : OkOut Q (execEndpointCommit i w s) := by
  unfold execEndpointCommit
  with_reducible repeat' (first | assumption | apply State.commitEp_ok | apply State.gated_ok | apply foldl_ok | apply foldl_ok1 | apply ite_ok | apply ite_ok1 | apply ite_next | apply next_ok)

theorem State.checkEye_ok {Q : List Instr} (s : State) (p : Nat) (hok : Ok Q s) : Ok Q (State.checkEye s p) := by
  unfold State.checkEye
  with_reducible repeat' (first | assumption | apply State.putPort_ok | apply State.report_ok | apply foldl_ok | apply foldl_ok1 | apply ite_ok | apply ite_ok1 | apply ite_next | apply next_ok | intro _)

theorem execEyeMeasure_ok {Q : List Instr} (p : Fin 4) (height width : Fin 65536) (s : State) (hok : Ok Q s) : OkOut Q (execEyeMeasure p height width s) := by
  unfold execEyeMeasure
  with_reducible repeat' (first | assumption | apply State.checkEye_ok | apply State.setF_ok | apply foldl_ok | apply foldl_ok1 | apply ite_ok | apply ite_ok1 | apply ite_next | apply next_ok | intro _)

theorem execPortLinkDown_ok {Q : List Instr} (p : Fin 6) (lock fec : Bool) (ns : Nat) (s : State) (hok : Ok Q s) : OkOut Q (execPortLinkDown p lock fec ns s) := by
  unfold execPortLinkDown
  with_reducible repeat' (first | assumption | apply State.putPort_ok | apply State.report_ok | apply State.setF_ok | apply foldl_ok | apply foldl_ok1 | apply ite_ok | apply ite_ok1 | apply ite_next | apply next_ok | intro _)

theorem execPortLinkUp_ok {Q : List Instr} (p : Fin 6) (s : State) (hok : Ok Q s) : OkOut Q (execPortLinkUp p s) := by
  unfold execPortLinkUp
  with_reducible repeat' (first | assumption | apply State.putPort_ok | apply State.report_ok | apply State.setF_ok | apply foldl_ok | apply foldl_ok1 | apply ite_ok | apply ite_ok1 | apply ite_next | apply next_ok | intro _)

theorem State.devWrite_ok {Q : List Instr} (s : State) (a : Nat) (bs : List Byte) (hok : Ok Q s) : Ok Q (State.devWrite s a bs) := by
  unfold State.devWrite
  with_reducible repeat' (first | assumption | apply State.access_ok)

theorem State.devRead_ok {Q : List Instr} (s : State) (a n : Nat) (hok : Ok Q s) : Ok Q (State.devRead s a n).1 := by
  unfold State.devRead
  with_reducible repeat' (first | assumption | apply State.unitReadN_ok)

theorem State.ringReceive_ok {Q : List Instr} (s : State) (p : Nat) (tq : Bool) (bs : List Byte) (hok : Ok Q s) : Ok Q (State.ringReceive s p tq bs) := by
  unfold State.ringReceive
  with_reducible repeat' (first | assumption | apply State.addF_ok | apply State.devRead_ok | apply State.devWrite_ok | apply State.irqSource_ok | apply foldl_ok | apply foldl_ok1 | apply ite_ok | apply ite_ok1 | apply ite_next | apply next_ok | intro _)

theorem State.ringSend_ok {Q : List Instr} (s : State) (p : Nat) (tq held : Bool) (hok : Ok Q s) : Ok Q (State.ringSend s p tq held) := by
  unfold State.ringSend
  with_reducible repeat' (first | assumption | apply State.addF_ok | apply State.deny_ok | apply State.devRead_ok | apply State.devWrite_ok | apply State.emit_ok | apply State.irqSource_ok | apply foldl_ok | apply foldl_ok1 | apply ite_ok | apply ite_ok1 | apply ite_next | apply next_ok | intro _)

theorem State.sendNext_ok {Q : List Instr} (s : State) (p : Nat) (held : Bool) (hok : Ok Q s) : Ok Q (State.sendNext s p held) := by
  unfold State.sendNext
  with_reducible repeat' (first | assumption | apply State.addF_ok | apply State.emit_ok | apply State.putPort_ok | apply State.ringSend_ok | apply foldl_ok | apply foldl_ok1 | apply ite_ok | apply ite_ok1 | apply ite_next | apply next_ok | intro _ | dsimp only | split)

theorem execFrameTransmit_ok {Q : List Instr} (p : Fin 6) (t : Nat) (s : State) (hok : Ok Q s) : OkOut Q (execFrameTransmit p t s) := by
  unfold execFrameTransmit
  with_reducible repeat' (first | assumption | apply State.reach_ok | apply State.sendNext_ok | apply foldl_ok | apply foldl_ok1 | apply ite_ok | apply ite_ok1 | apply ite_next | apply next_ok | intro _)

theorem execNicRxPost_ok {Q : List Instr} (p : Fin 6) (tq : Bool) (w : WriteReq) (s : State) (hok : Ok Q s) : OkOut Q (execNicRxPost p tq w s) := by
  unfold execNicRxPost
  with_reducible repeat' (first | assumption | apply State.gated_ok | apply State.plainWrite_ok | apply foldl_ok | apply foldl_ok1 | apply ite_ok | apply ite_ok1 | apply ite_next | apply next_ok | intro _)

theorem execNicTxPost_ok {Q : List Instr} (p : Fin 6) (tq : Bool) (w : WriteReq) (s : State) (hok : Ok Q s) : OkOut Q (execNicTxPost p tq w s) := by
  unfold execNicTxPost
  with_reducible repeat' (first | assumption | apply State.gated_ok | apply State.plainWrite_ok | apply foldl_ok | apply foldl_ok1 | apply ite_ok | apply ite_ok1 | apply ite_next | apply next_ok | intro _)

end Sys2Proof.Machine
end

