-- ==== Sys2Proof/Laws/Keep/Boot.lean ====
section
/-!
SUPPORT. What the operations of Machine/Boot.lean keep.
-/

namespace Sys2Proof.Machine

theorem State.mbxPut_ok {Q : List Instr} (s : State) (c : Nat) (body : List Byte) (hok : Ok Q s) : Ok Q (State.mbxPut s c body) := by
  unfold State.mbxPut
  with_reducible repeat' (first | assumption | apply State.addF_ok | apply State.devWrite_ok | apply State.irqSource_ok)

theorem State.setLost_ok {Q : List Instr} (s : State) (c n : Nat) (hok : Ok Q s) : Ok Q (State.setLost s c n) := by
  unfold State.setLost
  with_reducible repeat' (first | assumption | apply State.setStw_ok)

theorem State.tellLost_ok {Q : List Instr} (s : State) (c : Nat) (hok : Ok Q s) : Ok Q (State.tellLost s c) := by
  unfold State.tellLost
  with_reducible repeat' (first | assumption | apply State.mbxPut_ok | apply State.setLost_ok | apply foldl_ok | apply foldl_ok1 | apply ite_ok | apply ite_ok1 | apply ite_next | apply next_ok | intro _)

theorem State.eventOn_ok {Q : List Instr} (code : Nat) (result : List Byte) (c : Nat) (s : State) (hok : Ok Q s) : Ok Q (State.eventOn code result c s) := by
  unfold State.eventOn
  with_reducible repeat' (first | assumption | apply State.mbxPut_ok | apply State.setLost_ok | apply State.tellLost_ok | apply foldl_ok | apply foldl_ok1 | apply ite_ok | apply ite_ok1 | apply ite_next | apply next_ok | intro _)

theorem State.mbxEvent_ok {Q : List Instr} (s : State) (code : Nat) (result : List Byte) (hok : Ok Q s) : Ok Q (State.mbxEvent s code result) := by
  unfold State.mbxEvent
  with_reducible repeat' (first | assumption | apply State.eventOn_ok)

theorem State.setJob_ok {Q : List Instr} (s : State) (c : Nat) (j : Option (Nat × Nat)) (hok : Ok Q s) : Ok Q (State.setJob s c j) := by
  unfold State.setJob
  with_reducible repeat' (first | assumption | apply State.setStw_ok)

theorem State.mbxDisable_ok {Q : List Instr} (s : State) (c : Nat) (hok : Ok Q s) : Ok Q (State.mbxDisable s c) := by
  unfold State.mbxDisable
  with_reducible repeat' (first | assumption | apply State.setF_ok | apply State.setJob_ok | apply State.setLost_ok)

theorem State.writeMbxCtl_ok {Q : List Instr} (c : Nat) (w : WriteReq) (s : State) (hok : Ok Q s) : Ok Q (State.writeMbxCtl c w s) := by
  unfold State.writeMbxCtl
  with_reducible repeat' (first | assumption | apply State.mbxDisable_ok | apply State.setF_ok | apply foldl_ok | apply foldl_ok1 | apply ite_ok | apply ite_ok1 | apply ite_next | apply next_ok | intro _ | dsimp only | split)

theorem State.writeMbxBase_ok {Q : List Instr} (c : Nat) (f : Fld) (w : WriteReq) (s : State) (hok : Ok Q s) : Ok Q (State.writeMbxBase c f w s) := by
  unfold State.writeMbxBase
  with_reducible repeat' (first | assumption | apply State.plainWrite_ok | apply foldl_ok | apply foldl_ok1 | apply ite_ok | apply ite_ok1 | apply ite_next | apply next_ok | intro _)

theorem State.writeReqWr_ok {Q : List Instr} (c : Nat) (w : WriteReq) (s : State) (hok : Ok Q s) : Ok Q (State.writeReqWr c w s) := by
  unfold State.writeReqWr
  with_reducible repeat' (first | assumption | apply State.irqSteward_ok | apply State.plainWrite_ok | apply foldl_ok | apply foldl_ok1 | apply ite_ok | apply ite_ok1 | apply ite_next | apply next_ok | intro _)

theorem State.writeRspRd_ok {Q : List Instr} (c : Nat) (w : WriteReq) (s : State) (hok : Ok Q s) : Ok Q (State.writeRspRd c w s) := by
  unfold State.writeRspRd
  with_reducible repeat' (first | assumption | apply State.plainWrite_ok | apply State.tellLost_ok | apply foldl_ok | apply foldl_ok1 | apply ite_ok | apply ite_ok1 | apply ite_next | apply next_ok | intro _)

theorem execMgtMbxCtl_ok {Q : List Instr} (c : Fin 2) (w : WriteReq) (s : State) (hok : Ok Q s) : OkOut Q (execMgtMbxCtl c w s) := by
  unfold execMgtMbxCtl
  with_reducible repeat' (first | assumption | apply State.gated_ok | apply State.writeMbxCtl_ok | apply foldl_ok | apply foldl_ok1 | apply ite_ok | apply ite_ok1 | apply ite_next | apply next_ok)

theorem execMbxReqWr_ok {Q : List Instr} (c : Fin 2) (w : WriteReq) (s : State) (hok : Ok Q s) : OkOut Q (execMbxReqWr c w s) := by
  unfold execMbxReqWr
  with_reducible repeat' (first | assumption | apply State.gated_ok | apply State.writeReqWr_ok | apply foldl_ok | apply foldl_ok1 | apply ite_ok | apply ite_ok1 | apply ite_next | apply next_ok)

theorem keptRegs_wf (por : Bool) (l : List (Nat × W64)) : SMap.wf Reg.reset (keptRegs por l) = true := by
  unfold keptRegs
  suffices h : ∀ m, SMap.wf Reg.reset m = true → SMap.wf Reg.reset (l.foldl (fun m e =>
      SMap.put Reg.reset m e.1 ((Reg.reset e.1 &&& ~~~keptMask por e.1) ||| (e.2 &&& keptMask por e.1))) m) = true from h [] rfl
  induction l with
  | nil => exact fun m h => h
  | cons e l ih => exact fun m h => ih _ (SMap.wf_put _ _ _ _ h)

theorem State.resetWith_ok {Q : List Instr} (s : State) (por : Bool) (cause : Nat) (hok : Ok Q s) :
    Ok Q (State.resetWith s por cause) := by
  unfold State.resetWith
  apply State.setF_ok
  exact ⟨rfl, keptRegs_wf por s.regs, hok.3, rfl, Nat.zero_le _, Nat.zero_le _⟩

theorem State.deviceReset_ok {Q : List Instr} (s : State) (cause : Nat) (hok : Ok Q s) : Ok Q (State.deviceReset s cause) := by
  unfold State.deviceReset
  with_reducible repeat' (first | assumption | apply State.resetWith_ok)

theorem execPowerOnReset_ok {Q : List Instr} (s : State) (hok : Ok Q s) : OkOut Q (execPowerOnReset s) := by
  unfold execPowerOnReset
  with_reducible repeat' (first | assumption | apply State.resetWith_ok | apply foldl_ok | apply foldl_ok1 | apply ite_ok | apply ite_ok1 | apply ite_next | apply next_ok)

theorem execPwResetN_ok {Q : List Instr} (s : State) (hok : Ok Q s) : OkOut Q (execPwResetN s) := by
  unfold execPwResetN
  with_reducible repeat' (first | assumption | apply State.deviceReset_ok | apply foldl_ok | apply foldl_ok1 | apply ite_ok | apply ite_ok1 | apply ite_next | apply next_ok | intro _)

theorem execJtagReset_ok {Q : List Instr} (s : State) (hok : Ok Q s) : OkOut Q (execJtagReset s) := by
  unfold execJtagReset
  with_reducible repeat' (first | assumption | apply State.deviceReset_ok | apply foldl_ok | apply foldl_ok1 | apply ite_ok | apply ite_ok1 | apply ite_next | apply next_ok | intro _)

theorem execResetRelease_ok {Q : List Instr} (bootSrc : Fin 4) (debugEn : Bool) (s : State) (hok : Ok Q s) : OkOut Q (execResetRelease bootSrc debugEn s) := by
  unfold execResetRelease
  with_reducible repeat' (first | assumption | apply State.setF_ok | apply State.setPwr_ok | apply foldl_ok | apply foldl_ok1 | apply ite_ok | apply ite_ok1 | apply ite_next | apply next_ok | intro _)

theorem State.putNor_ok {Q : List Instr} (s : State) (a : Nat) (bs : List Byte) (hok : Ok Q s) : Ok Q (State.putNor s a bs) := by
  unfold State.putNor
  with_reducible repeat' (first | assumption | apply State.setStw_ok)

theorem State.phase_ok {Q : List Instr} (s : State) (p : Nat) (hok : Ok Q s) : Ok Q (State.phase s p) := by
  unfold State.phase
  with_reducible repeat' (first | assumption | apply State.setF_ok)

theorem State.bootError_ok {Q : List Instr} (s : State) (e : Nat) (hok : Ok Q s) : Ok Q (State.bootError s e) := by
  unfold State.bootError
  with_reducible repeat' (first | assumption | apply State.setF_ok)

theorem State.setRun_ok {Q : List Instr} (s : State) (r : StwRun) (hok : Ok Q s) : Ok Q (State.setRun s r) := by
  unfold State.setRun
  with_reducible repeat' (first | assumption | apply State.setStw_ok)

theorem State.startImage_ok {Q : List Instr} (s : State) (bank : Nat) (im : List Byte) (hok : Ok Q s) : Ok Q (State.startImage s bank im) := by
  unfold State.startImage
  with_reducible repeat' (first | assumption | apply State.phase_ok | apply State.setF_ok | apply State.setStw_ok)

theorem State.tryBank_ok {Q : List Instr} (s : State) (b : Nat) (hok : Ok Q s) : Ok Q (State.tryBank s b).1 := by
  unfold State.tryBank
  with_reducible repeat' (first | assumption | apply State.phase_ok | apply State.startImage_ok | apply State.wrBytes_ok | apply foldl_ok | apply foldl_ok1 | apply ite_ok | apply ite_ok1 | apply ite_next | apply next_ok | intro _)

theorem State.bootPcie_ok {Q : List Instr} (s : State) (hok : Ok Q s) : Ok Q (State.bootPcie s) := by
  unfold State.bootPcie
  with_reducible repeat' (first | assumption | apply State.bootError_ok | apply State.phase_ok | apply State.setF_ok | apply State.setRun_ok | apply State.writeDomReq_ok | apply foldl_ok | apply foldl_ok1 | apply ite_ok | apply ite_ok1 | apply ite_next | apply next_ok | intro _)

theorem State.bootImage_ok {Q : List Instr} (s : State) (hok : Ok Q s) : Ok Q (State.bootImage s) := by
  unfold State.bootImage
  with_reducible repeat' (first | assumption | apply State.bootError_ok | apply State.bootPcie_ok | apply State.setRun_ok | apply State.tryBank_ok | apply foldl_ok | apply foldl_ok1 | apply ite_ok | apply ite_ok1 | apply ite_next | apply next_ok | intro _)

theorem execBootRomStart_ok {Q : List Instr} (rom sram otp : Bool) (s : State) (hok : Ok Q s) : OkOut Q (execBootRomStart rom sram otp s) := by
  unfold execBootRomStart
  with_reducible repeat' (first | assumption | apply State.bootError_ok | apply State.bootImage_ok | apply State.phase_ok | apply State.setRun_ok | apply State.writeDomReq_ok | apply foldl_ok | apply foldl_ok1 | apply ite_ok | apply ite_ok1 | apply ite_next | apply next_ok | intro _ | dsimp only | split)

theorem State.writeBootPcie_ok {Q : List Instr} (w : WriteReq) (s : State) (hok : Ok Q s) : Ok Q (State.writeBootPcie w s) := by
  unfold State.writeBootPcie
  with_reducible repeat' (first | assumption | apply State.bootError_ok | apply State.phase_ok | apply State.plainWrite_ok | apply State.startImage_ok | apply foldl_ok | apply foldl_ok1 | apply ite_ok | apply ite_ok1 | apply ite_next | apply next_ok | intro _)

theorem execMgtBootPcieGo_ok {Q : List Instr} (w : WriteReq) (s : State) (hok : Ok Q s) : OkOut Q (execMgtBootPcieGo w s) := by
  unfold execMgtBootPcieGo
  with_reducible repeat' (first | assumption | apply State.gated_ok | apply State.writeBootPcie_ok | apply foldl_ok | apply foldl_ok1 | apply ite_ok | apply ite_ok1 | apply ite_next | apply next_ok)

theorem execMgtHcmLock_ok {Q : List Instr} (w : WriteReq) (s : State) (hok : Ok Q s) : OkOut Q (execMgtHcmLock w s) := by
  unfold execMgtHcmLock
  with_reducible repeat' (first | assumption | apply State.gated_ok | apply State.plainWrite_ok | apply foldl_ok | apply foldl_ok1 | apply ite_ok | apply ite_ok1 | apply ite_next | apply next_ok | intro _)

theorem State.writeRevoke_ok {Q : List Instr} (w : WriteReq) (s : State) (hok : Ok Q s) : Ok Q (State.writeRevoke w s) := by
  unfold State.writeRevoke
  with_reducible repeat' (first | assumption | apply State.setF_ok | apply foldl_ok | apply foldl_ok1 | apply ite_ok | apply ite_ok1 | apply ite_next | apply next_ok | intro _)

theorem execMgtOtpRevoke_ok {Q : List Instr} (w : WriteReq) (s : State) (hok : Ok Q s) : OkOut Q (execMgtOtpRevoke w s) := by
  unfold execMgtOtpRevoke
  with_reducible repeat' (first | assumption | apply State.gated_ok | apply State.writeRevoke_ok | apply foldl_ok | apply foldl_ok1 | apply ite_ok | apply ite_ok1 | apply ite_next | apply next_ok)

theorem State.writeDevnum_ok {Q : List Instr} (w : WriteReq) (s : State) (hok : Ok Q s) : Ok Q (State.writeDevnum w s) := by
  unfold State.writeDevnum
  with_reducible repeat' (first | assumption | apply State.plainWrite_ok | apply foldl_ok | apply foldl_ok1 | apply ite_ok | apply ite_ok1 | apply ite_next | apply next_ok | intro _)

theorem execMgtDevnum_ok {Q : List Instr} (w : WriteReq) (s : State) (hok : Ok Q s) : OkOut Q (execMgtDevnum w s) := by
  unfold execMgtDevnum
  with_reducible repeat' (first | assumption | apply State.gated_ok | apply State.writeDevnum_ok | apply foldl_ok | apply foldl_ok1 | apply ite_ok | apply ite_ok1 | apply ite_next | apply next_ok)

theorem State.writeWdog_ok {Q : List Instr} (w : WriteReq) (s : State) (hok : Ok Q s) : Ok Q (State.writeWdog w s) := by
  unfold State.writeWdog
  with_reducible repeat' (first | assumption | apply State.setF_ok | apply State.setStw_ok | apply foldl_ok | apply foldl_ok1 | apply ite_ok | apply ite_ok1 | apply ite_next | apply next_ok | intro _)

theorem execMgtWdogKick_ok {Q : List Instr} (w : WriteReq) (s : State) (hok : Ok Q s) : OkOut Q (execMgtWdogKick w s) := by
  unfold execMgtWdogKick
  with_reducible repeat' (first | assumption | apply State.gated_ok | apply State.writeWdog_ok | apply foldl_ok | apply foldl_ok1 | apply ite_ok | apply ite_ok1 | apply ite_next | apply next_ok)

theorem execWdogExpire_ok {Q : List Instr} (s : State) (hok : Ok Q s) : OkOut Q (execWdogExpire s) := by
  unfold execWdogExpire
  with_reducible repeat' (first | assumption | apply State.irqSource_ok | apply State.reach_ok | apply State.setF_ok | apply foldl_ok | apply foldl_ok1 | apply ite_ok | apply ite_ok1 | apply ite_next | apply next_ok | intro _)

theorem State.releaseHart_ok {Q : List Instr} (s : State) (h entry : Nat) (hok : Ok Q s) : Ok Q (State.releaseHart s h entry) := by
  unfold State.releaseHart
  with_reducible repeat' (first | assumption | apply State.setStw_ok)

theorem State.writeHartStart_ok {Q : List Instr} (w : WriteReq) (s : State) (hok : Ok Q s) : Ok Q (State.writeHartStart w s) := by
  unfold State.writeHartStart
  with_reducible repeat' (first | assumption | apply State.releaseHart_ok | apply State.setF_ok | apply foldl_ok | apply foldl_ok1 | apply ite_ok | apply ite_ok1 | apply ite_next | apply next_ok | intro _)

theorem execMgtHartStart_ok {Q : List Instr} (w : WriteReq) (s : State) (hok : Ok Q s) : OkOut Q (execMgtHartStart w s) := by
  unfold execMgtHartStart
  with_reducible repeat' (first | assumption | apply State.gated_ok | apply State.writeHartStart_ok | apply foldl_ok | apply foldl_ok1 | apply ite_ok | apply ite_ok1 | apply ite_next | apply next_ok)

theorem State.setTesting_ok {Q : List Instr} (s : State) (u : Nat) (b : Bool) (hok : Ok Q s) : Ok Q (State.setTesting s u b) := by
  unfold State.setTesting
  with_reducible repeat' (first | assumption | apply State.setStw_ok)

theorem State.writeBist_ok {Q : List Instr} (c : Nat) (w : WriteReq) (s : State) (hok : Ok Q s) : Ok Q (State.writeBist c w s) := by
  unfold State.writeBist
  with_reducible repeat' (first | assumption | apply State.setF_ok | apply State.setTesting_ok | apply foldl_ok | apply foldl_ok1 | apply ite_ok | apply ite_ok1 | apply ite_next | apply next_ok | intro _)

theorem execCcBistGo_ok {Q : List Instr} (c : Fin 32) (w : WriteReq) (s : State) (hok : Ok Q s) : OkOut Q (execCcBistGo c w s) := by
  unfold execCcBistGo
  with_reducible repeat' (first | assumption | apply State.gatedAct_ok | apply State.writeBist_ok | apply foldl_ok | apply foldl_ok1 | apply ite_ok | apply ite_ok1 | apply ite_next | apply next_ok)

theorem State.writeSolBist_ok {Q : List Instr} (w : WriteReq) (s : State) (hok : Ok Q s) : Ok Q (State.writeSolBist w s) := by
  unfold State.writeSolBist
  with_reducible repeat' (first | assumption | apply State.setF_ok | apply State.setTesting_ok | apply foldl_ok | apply foldl_ok1 | apply ite_ok | apply ite_ok1 | apply ite_next | apply next_ok | intro _)

theorem execSolBistGo_ok {Q : List Instr} (w : WriteReq) (s : State) (hok : Ok Q s) : OkOut Q (execSolBistGo w s) := by
  unfold execSolBistGo
  with_reducible repeat' (first | assumption | apply State.gatedAct_ok | apply State.writeSolBist_ok | apply foldl_ok | apply foldl_ok1 | apply ite_ok | apply ite_ok1 | apply ite_next | apply next_ok)

theorem State.testedCore_ok {Q : List Instr} (s : State) (c : Nat) (hok : Ok Q s) : Ok Q (State.testedCore s c) := by
  have hw := State.wipeCore_ok s c hok
  unfold State.testedCore
  generalize s.wipeCore c = u at *
  exact ⟨hw.1, SMap.wf_filter _ _ _ hok.2, hw.3, hw.4, hw.5, hw.6⟩

theorem execBistDone_ok {Q : List Instr} (u : Fin 33) (pass : Bool) (s : State) (hok : Ok Q s) : OkOut Q (execBistDone u pass s) := by
  unfold execBistDone
  with_reducible repeat' (first | assumption | apply State.loseCore_ok | apply State.loseSol_ok | apply State.setF_ok | apply State.setLearn_ok | apply State.setSol_ok | apply State.setTesting_ok | apply State.testedCore_ok | apply foldl_ok | apply foldl_ok1 | apply ite_ok | apply ite_ok1 | apply ite_next | apply next_ok | intro _)

theorem State.pcieReset_ok {Q : List Instr} (s : State) (hok : Ok Q s) : Ok Q (State.pcieReset s) := by
  unfold State.pcieReset
  with_reducible repeat' (first | assumption | apply State.mbxDisable_ok | apply State.setF_ok | apply State.setRegs_drop_ok | apply State.setStw_ok | apply foldl_ok | apply foldl_ok1 | apply ite_ok | apply ite_ok1 | apply ite_next | apply next_ok | intro _)

theorem execPcieReset_ok {Q : List Instr} (s : State) (hok : Ok Q s) : OkOut Q (execPcieReset s) := by
  unfold execPcieReset
  with_reducible repeat' (first | assumption | apply State.pcieReset_ok | apply foldl_ok | apply foldl_ok1 | apply ite_ok | apply ite_ok1 | apply ite_next | apply next_ok | intro _)

theorem execPePerstN_ok {Q : List Instr} (low : Bool) (s : State) (hok : Ok Q s) : OkOut Q (execPePerstN low s) := by
  unfold execPePerstN
  with_reducible repeat' (first | assumption | apply State.pcieReset_ok | apply State.setF_ok | apply State.setPwr_ok | apply foldl_ok | apply foldl_ok1 | apply ite_ok | apply ite_ok1 | apply ite_next | apply next_ok | intro _)

theorem State.writeLoop_ok {Q : List Instr} (k : LoopSite) (w : WriteReq) (s : State) (hok : Ok Q s) : Ok Q (State.writeLoop k w s) := by
  unfold State.writeLoop
  with_reducible repeat' (first | assumption | apply State.plainWrite_ok | apply foldl_ok | apply foldl_ok1 | apply ite_ok | apply ite_ok1 | apply ite_next | apply next_ok | intro _)

theorem execLoopbackWrite_ok {Q : List Instr} (k : LoopSite) (w : WriteReq) (s : State) (hok : Ok Q s) : OkOut Q (execLoopbackWrite k w s) := by
  unfold execLoopbackWrite
  with_reducible repeat' (first | assumption | apply State.gated_ok | apply State.writeLoop_ok | apply foldl_ok | apply foldl_ok1 | apply ite_ok | apply ite_ok1 | apply ite_next | apply next_ok)

end Sys2Proof.Machine
end

