-- ==== Sys2Proof/Laws/Keep/FaultUnit.lean ====
section
/-!
SUPPORT. What the operations of Machine/FaultUnit.lean keep.
-/

namespace Sys2Proof.Machine

theorem State.wrWord32_ok {Q : List Instr} (s : State) (p : Place) (bs : List Byte) (hok : Ok Q s) : Ok Q (State.wrWord32 s p bs) := by
  unfold State.wrWord32
  with_reducible repeat' (first | assumption | apply State.hbmWriteFull_ok | apply State.hostPut_ok | apply foldl_ok | apply foldl_ok1 | apply ite_ok | apply ite_ok1 | apply ite_next | apply next_ok | intro _ | dsimp only | split)

theorem State.deliverWeight_ok {Q : List Instr} (s : State) (bs : List Byte) (hok : Ok Q s) : Ok Q (State.deliverWeight s bs) := by
  unfold State.deliverWeight
  with_reducible repeat' (first | assumption | apply State.addF_ok | apply State.irqSource_ok | apply State.overrun_ok | apply State.report_ok | apply State.setBgw_ok | apply State.wrWord32_ok | apply foldl_ok | apply foldl_ok1 | apply ite_ok | apply ite_ok1 | apply ite_next | apply next_ok | intro _ | dsimp only | split)

theorem State.releaseWeights_ok {Q : List Instr} (s : State) (hok : Ok Q s) : Ok Q (State.releaseWeights s) := by
  unfold State.releaseWeights
  with_reducible repeat' (first | assumption | apply State.deliverWeight_ok | apply State.setBgw_ok | apply foldl_ok | apply foldl_ok1 | apply ite_ok | apply ite_ok1 | apply ite_next | apply next_ok | intro _)

theorem execFaultRingWrite_ok {Q : List Instr} (s : State) (hok : Ok Q s) : OkOut Q (execFaultRingWrite s) := by
  unfold execFaultRingWrite
  split
  · exact next_ok hok
  · rename_i r rest hp
    dsimp only
    split
    · split
      · rename_i p hq
        apply next_ok
        apply State.releaseWeights_ok
        apply State.settleFollowers_ok
        apply State.fltVisible_ok
        have h1 := State.addF_ok _ Reg.FLT_Q_WR 1 (State.wrWord32_ok s p (r.bytes (s.getF Reg.FLT_Q_WR)) hok)
        refine ⟨h1.1, h1.2, h1.3, h1.4, ?_, ?_⟩
        · have h5 := hok.5
          rw [State.setFlt_flt]
          rw [hp] at h5
          simp only [pendCount, List.filter_cons] at h5 ⊢
          split at h5
          · simp only [List.length_cons] at h5; omega
          · exact h5
        · have h6 := hok.6
          rw [State.setFlt_flt]
          rw [hp] at h6
          simp only [List.filter_cons] at h6 ⊢
          split at h6
          · simp only [List.length_cons] at h6; omega
          · exact h6
      · apply next_ok
        apply State.report_ok
        apply State.fltSpecial_ok
        apply State.setF_ok
        exact hok
    · exact next_ok hok

theorem State.writeFltCtl_ok {Q : List Instr} (w : WriteReq) (s : State) (hok : Ok Q s) : Ok Q (State.writeFltCtl w s) := by
  unfold State.writeFltCtl
  with_reducible repeat' (first | assumption | apply State.report_ok | apply State.setF_ok | apply foldl_ok | apply foldl_ok1 | apply ite_ok | apply ite_ok1 | apply ite_next | apply next_ok | intro _)

theorem State.writeFltRing_ok {Q : List Instr} (f : Fld) (w : WriteReq) (s : State) (hok : Ok Q s) : Ok Q (State.writeFltRing f w s) := by
  unfold State.writeFltRing
  with_reducible repeat' (first | assumption | apply State.report_ok | apply State.setF_ok | apply foldl_ok | apply foldl_ok1 | apply ite_ok | apply ite_ok1 | apply ite_next | apply next_ok | intro _)

theorem execFltCtlEn_ok {Q : List Instr} (w : WriteReq) (s : State) (hok : Ok Q s) : OkOut Q (execFltCtlEn w s) := by
  unfold execFltCtlEn
  with_reducible repeat' (first | assumption | apply State.gated_ok | apply State.writeFltCtl_ok | apply foldl_ok | apply foldl_ok1 | apply ite_ok | apply ite_ok1 | apply ite_next | apply next_ok)

theorem execFltLastClr_ok {Q : List Instr} (w : WriteReq) (s : State) (hok : Ok Q s) : OkOut Q (execFltLastClr w s) := by
  unfold execFltLastClr
  with_reducible repeat' (first | assumption | apply State.gated_ok | apply State.writeFltCtl_ok | apply foldl_ok | apply foldl_ok1 | apply ite_ok | apply ite_ok1 | apply ite_next | apply next_ok)

theorem execFltLostRead_ok {Q : List Instr} (n : Fin 5) (r : ReadReq) (s : State) (hok : Ok Q s) : OkOut Q (execFltLostRead n r s) := by
  unfold execFltLostRead
  with_reducible repeat' (first | assumption | apply State.answer_ok | apply State.setF_ok | apply foldl_ok | apply foldl_ok1 | apply ite_ok | apply ite_ok1 | apply ite_next | apply next_ok | intro _)

theorem execIrqHoldoffExpiry_ok {Q : List Instr} (d : Fin 3) (s : State) (hok : Ok Q s) : OkOut Q (execIrqHoldoffExpiry d s) := by
  unfold execIrqHoldoffExpiry
  with_reducible repeat' (first | assumption | apply State.fltAssert_ok | apply State.reach_ok | apply foldl_ok | apply foldl_ok1 | apply ite_ok | apply ite_ok1 | apply ite_next | apply next_ok | intro _ | dsimp only | split)

end Sys2Proof.Machine
end

