-- ==== Sys2Proof/Laws/Keep/Gateway.lean ====
section
/-!
SUPPORT. What the operations of Machine/Gateway.lean keep.
-/

namespace Sys2Proof.Machine

theorem State.bgwPut_ok {Q : List Instr} (s : State) (f : Gateway → Gateway) (hok : Ok Q s) : Ok Q (State.bgwPut s f) := by
  unfold State.bgwPut
  with_reducible repeat' (first | assumption | apply State.setBgw_ok)

theorem State.barCrc_ok {Q : List Instr} (s : State) (c : Nat) (hok : Ok Q s) : Ok Q (State.barCrc s c) := by
  unfold State.barCrc
  with_reducible repeat' (first | assumption | apply State.addF_ok | apply State.bgwPut_ok | apply State.report_ok | apply foldl_ok | apply foldl_ok1 | apply ite_ok | apply ite_ok1 | apply ite_next | apply next_ok | intro _)

theorem State.barSeq_ok {Q : List Instr} (s : State) (c ty lseq : Nat) (hok : Ok Q s) : Ok Q (State.barSeq s c ty lseq) := by
  unfold State.barSeq
  with_reducible repeat' (first | assumption | apply State.bgwPut_ok | apply State.report_ok | apply foldl_ok | apply foldl_ok1 | apply ite_ok | apply ite_ok1 | apply ite_next | apply next_ok | intro _ | dsimp only | split)

theorem State.barTrain_ok {Q : List Instr} (s : State) (c : Nat) (hok : Ok Q s) : Ok Q (State.barTrain s c) := by
  unfold State.barTrain
  with_reducible repeat' (first | assumption | apply State.bgwPut_ok | apply State.report_ok | apply State.setF_ok | apply foldl_ok | apply foldl_ok1 | apply ite_ok | apply ite_ok1 | apply ite_next | apply next_ok | intro _)

theorem State.barRx_ok {Q : List Instr} (s : State) (c ty : Nat) (bytes : List Byte) (act : List Byte → State → State) (hact : ∀ bs s, Ok Q s → Ok Q (act bs s)) (hok : Ok Q s) : Ok Q (State.barRx s c ty bytes act) := by
  unfold State.barRx
  with_reducible repeat' (first | assumption | apply hact | apply State.barCrc_ok | apply State.barSeq_ok | apply State.barTrain_ok | apply State.bgwPut_ok | apply State.report_ok | apply foldl_ok | apply foldl_ok1 | apply ite_ok | apply ite_ok1 | apply ite_next | apply next_ok | intro _)

theorem State.barSend_ok {Q : List Instr} (s : State) (c ty t : Nat) (body : List Byte) (hok : Ok Q s) : Ok Q (State.barSend s c ty t body) := by
  unfold State.barSend
  with_reducible repeat' (first | assumption | apply State.bgwPut_ok | apply State.emit_ok)

theorem State.barDrain1_ok {Q : List Instr} (s : State) (c : Nat) (hok : Ok Q s) : Ok Q (State.barDrain1 s c) := by
  unfold State.barDrain1
  with_reducible repeat' (first | assumption | apply State.addF_ok | apply State.barSend_ok | apply State.bgwPut_ok | apply State.setF_ok | apply foldl_ok | apply foldl_ok1 | apply ite_ok | apply ite_ok1 | apply ite_next | apply next_ok | intro _)

theorem State.barDrain_ok {Q : List Instr} (s : State) (hok : Ok Q s) : Ok Q (State.barDrain s) := by
  unfold State.barDrain
  with_reducible repeat' (first | assumption | apply State.barDrain1_ok | apply foldl_ok | apply foldl_ok1 | apply ite_ok | apply ite_ok1 | apply ite_next | apply next_ok | intro _)

theorem execBarrierLost_ok {Q : List Instr} (cause : Fin 2) (s : State) (hok : Ok Q s) : OkOut Q (execBarrierLost cause s) := by
  unfold execBarrierLost
  with_reducible repeat' (first | assumption | apply State.barDrain_ok | apply State.addF_ok | apply State.bgwPut_ok | apply State.report_ok | apply State.setF_ok | apply foldl_ok | apply foldl_ok1 | apply ite_ok | apply ite_ok1 | apply ite_next | apply next_ok | intro _)

theorem State.weightReject_ok {Q : List Instr} (s : State) (bs : List Byte) (cause : Nat) (hok : Ok Q s) : Ok Q (State.weightReject s bs cause) := by
  unfold State.weightReject
  with_reducible repeat' (first | assumption | apply State.report_ok)

theorem State.weightAccept_ok {Q : List Instr} (s : State) (bs : List Byte) (raised : Bool) (hok : Ok Q s) : Ok Q (State.weightAccept s bs raised) := by
  unfold State.weightAccept
  with_reducible repeat' (first | assumption | apply State.bgwPut_ok | apply State.deliverWeight_ok | apply foldl_ok | apply foldl_ok1 | apply ite_ok | apply ite_ok1 | apply ite_next | apply next_ok | intro _ | dsimp only | split)

theorem State.weight_ok {Q : List Instr} (bs : List Byte) (s : State) (hok : Ok Q s) : Ok Q (State.weight bs s) := by
  unfold State.weight
  with_reducible repeat' (first | assumption | apply State.bgwPut_ok | apply State.report_ok | apply State.weightAccept_ok | apply State.weightReject_ok | apply foldl_ok | apply foldl_ok1 | apply ite_ok | apply ite_ok1 | apply ite_next | apply next_ok | intro _ | dsimp only | split)

theorem execWeight_ok {Q : List Instr} (c : Fin 2) (bytes : List Byte) (s : State) (hok : Ok Q s) : OkOut Q (execWeight c bytes s) := by
  unfold execWeight
  with_reducible repeat' (first | assumption | apply State.barRx_ok | apply State.weight_ok | apply foldl_ok | apply foldl_ok1 | apply ite_ok | apply ite_ok1 | apply ite_next | apply next_ok)

theorem State.writeSrcCfg_ok {Q : List Instr} (n : Nat) (w : WriteReq) (s : State) (hok : Ok Q s) : Ok Q (State.writeSrcCfg n w s) := by
  unfold State.writeSrcCfg
  with_reducible repeat' (first | assumption | apply State.bgwPut_ok | apply State.overrun_ok | apply State.plainWrite_ok | apply State.setF_ok | apply foldl_ok | apply foldl_ok1 | apply ite_ok | apply ite_ok1 | apply ite_next | apply next_ok | intro _)

theorem execBgwSrcCfg_ok {Q : List Instr} (n : Fin 128) (w : WriteReq) (s : State) (hok : Ok Q s) : OkOut Q (execBgwSrcCfg n w s) := by
  unfold execBgwSrcCfg
  with_reducible repeat' (first | assumption | apply State.gated_ok | apply State.writeSrcCfg_ok | apply foldl_ok | apply foldl_ok1 | apply ite_ok | apply ite_ok1 | apply ite_next | apply next_ok)

theorem State.writeSrcRd_ok {Q : List Instr} (n : Nat) (w : WriteReq) (s : State) (hok : Ok Q s) : Ok Q (State.writeSrcRd n w s) := by
  unfold State.writeSrcRd
  with_reducible repeat' (first | assumption | apply State.bgwPut_ok | apply State.overrun_ok | apply State.plainWrite_ok | apply foldl_ok | apply foldl_ok1 | apply ite_ok | apply ite_ok1 | apply ite_next | apply next_ok | intro _)

theorem State.writeSrcBase_ok {Q : List Instr} (n : Nat) (w : WriteReq) (s : State) (hok : Ok Q s) : Ok Q (State.writeSrcBase n w s) := by
  unfold State.writeSrcBase
  with_reducible repeat' (first | assumption | apply State.plainWrite_ok | apply foldl_ok | apply foldl_ok1 | apply ite_ok | apply ite_ok1 | apply ite_next | apply next_ok | intro _)

theorem State.mrPut_ok {Q : List Instr} (s : State) (bs : List Byte) (hok : Ok Q s) : Ok Q (State.mrPut s bs) := by
  unfold State.mrPut
  with_reducible repeat' (first | assumption | apply State.addF_ok | apply State.irqSource_ok | apply State.wrWord32_ok | apply foldl_ok | apply foldl_ok1 | apply ite_ok | apply ite_ok1 | apply ite_next | apply next_ok | intro _ | dsimp only | split)

theorem State.mrDrain_ok {Q : List Instr} (s : State) (hok : Ok Q s) : Ok Q (State.mrDrain s) := by
  unfold State.mrDrain
  with_reducible repeat' (first | assumption | apply State.bgwPut_ok | apply State.mrPut_ok | apply foldl_ok | apply foldl_ok1 | apply ite_ok | apply ite_ok1 | apply ite_next | apply next_ok | intro _)

theorem State.message_ok {Q : List Instr} (bs : List Byte) (s : State) (hok : Ok Q s) : Ok Q (State.message bs s) := by
  unfold State.message
  with_reducible repeat' (first | assumption | apply State.bgwPut_ok | apply State.mrDrain_ok | apply State.mrPut_ok | apply State.report_ok | apply foldl_ok | apply foldl_ok1 | apply ite_ok | apply ite_ok1 | apply ite_next | apply next_ok | intro _)

theorem execIdent_ok {Q : List Instr} (c : Fin 2) (bytes : List Byte) (s : State) (hok : Ok Q s) : OkOut Q (execIdent c bytes s) := by
  unfold execIdent
  with_reducible repeat' (first | assumption | apply State.barRx_ok | apply State.message_ok | apply foldl_ok | apply foldl_ok1 | apply ite_ok | apply ite_ok1 | apply ite_next | apply next_ok)

theorem execResult_ok {Q : List Instr} (c : Fin 2) (bytes : List Byte) (s : State) (hok : Ok Q s) : OkOut Q (execResult c bytes s) := by
  unfold execResult
  with_reducible repeat' (first | assumption | apply State.barRx_ok | apply State.message_ok | apply foldl_ok | apply foldl_ok1 | apply ite_ok | apply ite_ok1 | apply ite_next | apply next_ok)

theorem execEvent_ok {Q : List Instr} (c : Fin 2) (bytes : List Byte) (s : State) (hok : Ok Q s) : OkOut Q (execEvent c bytes s) := by
  unfold execEvent
  with_reducible repeat' (first | assumption | apply State.barRx_ok | apply State.message_ok | apply foldl_ok | apply foldl_ok1 | apply ite_ok | apply ite_ok1 | apply ite_next | apply next_ok)

theorem execImageReq_ok {Q : List Instr} (c : Fin 2) (bytes : List Byte) (s : State) (hok : Ok Q s) : OkOut Q (execImageReq c bytes s) := by
  unfold execImageReq
  with_reducible repeat' (first | assumption | apply State.barRx_ok | apply State.message_ok | apply foldl_ok | apply foldl_ok1 | apply ite_ok | apply ite_ok1 | apply ite_next | apply next_ok)

theorem State.writeMrCtl_ok {Q : List Instr} (w : WriteReq) (s : State) (hok : Ok Q s) : Ok Q (State.writeMrCtl w s) := by
  unfold State.writeMrCtl
  with_reducible repeat' (first | assumption | apply State.mrDrain_ok | apply State.plainWrite_ok | apply State.setF_ok | apply foldl_ok | apply foldl_ok1 | apply ite_ok | apply ite_ok1 | apply ite_next | apply next_ok | intro _)

theorem execBgwMrCtl_ok {Q : List Instr} (w : WriteReq) (s : State) (hok : Ok Q s) : OkOut Q (execBgwMrCtl w s) := by
  unfold execBgwMrCtl
  with_reducible repeat' (first | assumption | apply State.gated_ok | apply State.writeMrCtl_ok | apply foldl_ok | apply foldl_ok1 | apply ite_ok | apply ite_ok1 | apply ite_next | apply next_ok)

theorem State.writeMrBase_ok {Q : List Instr} (w : WriteReq) (s : State) (hok : Ok Q s) : Ok Q (State.writeMrBase w s) := by
  unfold State.writeMrBase
  with_reducible repeat' (first | assumption | apply State.plainWrite_ok | apply foldl_ok | apply foldl_ok1 | apply ite_ok | apply ite_ok1 | apply ite_next | apply next_ok | intro _)

theorem State.writeMrRd_ok {Q : List Instr} (w : WriteReq) (s : State) (hok : Ok Q s) : Ok Q (State.writeMrRd w s) := by
  unfold State.writeMrRd
  with_reducible repeat' (first | assumption | apply State.mrDrain_ok | apply State.plainWrite_ok)

theorem State.barIdle_ok {Q : List Instr} (s : State) (c : Nat) (hok : Ok Q s) : Ok Q (State.barIdle s c) := by
  unfold State.barIdle
  with_reducible repeat' (first | assumption | apply State.barDrain_ok | apply State.bgwPut_ok | apply State.emit_ok | apply State.reach_ok | apply foldl_ok | apply foldl_ok1 | apply ite_ok | apply ite_ok1 | apply ite_next | apply next_ok | intro _ | dsimp only | split)

theorem State.writeTxGo_ok {Q : List Instr} (c : Nat) (w : WriteReq) (s : State) (hok : Ok Q s) : Ok Q (State.writeTxGo c w s) := by
  unfold State.writeTxGo
  with_reducible repeat' (first | assumption | apply State.barDrain_ok | apply State.bgwPut_ok | apply State.report_ok | apply State.setF_ok | apply foldl_ok | apply foldl_ok1 | apply ite_ok | apply ite_ok1 | apply ite_next | apply next_ok | intro _ | dsimp only | split)

theorem execBgwTxGo_ok {Q : List Instr} (c : Fin 2) (w : WriteReq) (s : State) (hok : Ok Q s) : OkOut Q (execBgwTxGo c w s) := by
  unfold execBgwTxGo
  with_reducible repeat' (first | assumption | apply State.gatedAct_ok | apply State.writeTxGo_ok | apply foldl_ok | apply foldl_ok1 | apply ite_ok | apply ite_ok1 | apply ite_next | apply next_ok)

theorem execBarrierTimeSend_ok {Q : List Instr} (s : State) (hok : Ok Q s) : OkOut Q (execBarrierTimeSend s) := by
  unfold execBarrierTimeSend
  with_reducible repeat' (first | assumption | apply State.barDrain_ok | apply State.barSend_ok | apply State.bgwPut_ok | apply State.reach_ok | apply foldl_ok | apply foldl_ok1 | apply ite_ok | apply ite_ok1 | apply ite_next | apply next_ok | intro _)

theorem State.writeTimeCfg_ok {Q : List Instr} (w : WriteReq) (s : State) (hok : Ok Q s) : Ok Q (State.writeTimeCfg w s) := by
  unfold State.writeTimeCfg
  with_reducible repeat' (first | assumption | apply State.plainWrite_ok | apply foldl_ok | apply foldl_ok1 | apply ite_ok | apply ite_ok1 | apply ite_next | apply next_ok | intro _)

theorem State.writeKeyData_ok {Q : List Instr} (k : Nat) (w : WriteReq) (s : State) (hok : Ok Q s) : Ok Q (State.writeKeyData k w s) := by
  unfold State.writeKeyData
  with_reducible repeat' (first | assumption | apply State.bgwPut_ok | apply foldl_ok | apply foldl_ok1 | apply ite_ok | apply ite_ok1 | apply ite_next | apply next_ok | intro _ | dsimp only | split)

theorem State.writeKeyChk_ok {Q : List Instr} (k : Nat) (w : WriteReq) (s : State) (hok : Ok Q s) : Ok Q (State.writeKeyChk k w s) := by
  unfold State.writeKeyChk
  with_reducible repeat' (first | assumption | apply State.bgwPut_ok | apply foldl_ok | apply foldl_ok1 | apply ite_ok | apply ite_ok1 | apply ite_next | apply next_ok | intro _ | dsimp only | split)

theorem State.writeKeyGo_ok {Q : List Instr} (k : Nat) (w : WriteReq) (s : State) (hok : Ok Q s) : Ok Q (State.writeKeyGo k w s) := by
  unfold State.writeKeyGo
  with_reducible repeat' (first | assumption | apply State.bgwPut_ok | apply State.setF_ok | apply State.setOtp_ok | apply foldl_ok | apply foldl_ok1 | apply ite_ok | apply ite_ok1 | apply ite_next | apply next_ok | intro _)

theorem execBgwKeyprogGo_ok {Q : List Instr} (k : Fin 2) (w : WriteReq) (s : State) (hok : Ok Q s) : OkOut Q (execBgwKeyprogGo k w s) := by
  unfold execBgwKeyprogGo
  with_reducible repeat' (first | assumption | apply State.gatedAct_ok | apply State.writeKeyGo_ok | apply foldl_ok | apply foldl_ok1 | apply ite_ok | apply ite_ok1 | apply ite_next | apply next_ok)

end Sys2Proof.Machine
end

