-- ==== Sys2Proof/Laws/Keep/Island.lean ====
section
/-!
SUPPORT. What the operations of Machine/Island.lean keep.
-/

namespace Sys2Proof.Machine

theorem State.islPut_ok {Q : List Instr} (s : State) (f : Island → Island) (hok : Ok Q s) : Ok Q (State.islPut s f) := by
  unfold State.islPut
  with_reducible repeat' (first | assumption | apply State.setIsl_ok)

theorem State.islTicks_ok {Q : List Instr} (s : State) (n : Nat) (hok : Ok Q s) : Ok Q (State.islTicks s n) := by
  unfold State.islTicks
  with_reducible repeat' (first | assumption | apply State.freeNext_ok | apply State.islPut_ok | apply foldl_ok | apply foldl_ok1 | apply ite_ok | apply ite_ok1 | apply ite_next | apply next_ok | intro _)

theorem execIslTimeStep_ok {Q : List Instr} (x : IslTime) (s : State) (hok : Ok Q s) : OkOut Q (execIslTimeStep x s) := by
  unfold execIslTimeStep
  with_reducible repeat' (first | assumption | apply State.islPut_ok | apply foldl_ok | apply foldl_ok1 | apply ite_ok | apply ite_ok1 | apply ite_next | apply next_ok | intro _ | dsimp only | split)

theorem State.putBridge_ok {Q : List Instr} (s : State) (c : Nat) (b : Bridge) (hok : Ok Q s) : Ok Q (State.putBridge s c b) := by
  unfold State.putBridge
  with_reducible repeat' (first | assumption | apply State.islPut_ok)

theorem State.bridgeCode_ok {Q : List Instr} (s : State) (range : Nat) (sig sen : Int) (hok : Ok Q s) : Ok Q (State.bridgeCode s range sig sen).1 := by
  unfold State.bridgeCode
  with_reducible repeat' (first | assumption | apply State.freeNext_ok | apply foldl_ok | apply foldl_ok1 | apply ite_ok | apply ite_ok1 | apply ite_next | apply next_ok | intro _)

theorem execBridgeConversion_ok {Q : List Instr} (c : Fin 4) (sig : Int) (sen : Int) (ticks : Nat) (s : State) (hok : Ok Q s) : OkOut Q (execBridgeConversion c sig sen ticks s) := by
  unfold execBridgeConversion
  with_reducible repeat' (first | assumption | apply State.bridgeCode_ok | apply State.islTicks_ok | apply State.putBridge_ok | apply State.ticks_ok | apply foldl_ok | apply foldl_ok1 | apply ite_ok | apply ite_ok1 | apply ite_next | apply next_ok | intro _)

theorem State.putSeg_ok {Q : List Instr} (s : State) (g : Nat) (v : IslSeg) (hok : Ok Q s) : Ok Q (State.putSeg s g v) := by
  unfold State.putSeg
  with_reducible repeat' (first | assumption | apply State.islPut_ok)

theorem execPlcaBeacon_ok {Q : List Instr} (g : Fin 8) (s : State) (hok : Ok Q s) : OkOut Q (execPlcaBeacon g s) := by
  unfold execPlcaBeacon
  with_reducible repeat' (first | assumption | apply State.emit_ok | apply foldl_ok | apply foldl_ok1 | apply ite_ok | apply ite_ok1 | apply ite_next | apply next_ok | intro _)

theorem execSync_ok {Q : List Instr} (g : Fin 8) (ticks : Nat) (s : State) (hok : Ok Q s) : OkOut Q (execSync g ticks s) := by
  unfold execSync
  with_reducible repeat' (first | assumption | apply State.emit_ok | apply State.islTicks_ok | apply State.putSeg_ok | apply State.ticks_ok | apply foldl_ok | apply foldl_ok1 | apply ite_ok | apply ite_ok1 | apply ite_next | apply next_ok | intro _)

theorem State.segQueue_ok {Q : List Instr} (s : State) (g etype : Nat) (bs : List Byte) (hok : Ok Q s) : Ok Q (State.segQueue s g etype bs) := by
  unfold State.segQueue
  with_reducible repeat' (first | assumption | apply State.islPut_ok | apply foldl_ok | apply foldl_ok1 | apply ite_ok | apply ite_ok1 | apply ite_next | apply next_ok | intro _ | dsimp only | split)

theorem execSample_ok {Q : List Instr} (g : Fin 8) (node : Fin 17) (frame : SegFrame) (ticks : Nat) (s : State) (hok : Ok Q s) : OkOut Q (execSample g node frame ticks s) := by
  unfold execSample
  with_reducible repeat' (first | assumption | apply State.freeNext_ok | apply State.islPut_ok | apply State.islTicks_ok | apply State.putSeg_ok | apply State.segQueue_ok | apply State.ticks_ok | apply next_ok | apply foldl_ok | apply foldl_ok1 | apply ite_ok | apply ite_ok1 | apply ite_next | apply next_ok | intro _ | dsimp only | split)

theorem execReply_ok {Q : List Instr} (g : Fin 8) (node : Fin 17) (frame : SegFrame) (ticks : Nat) (s : State) (hok : Ok Q s) : OkOut Q (execReply g node frame ticks s) := by
  unfold execReply
  with_reducible repeat' (first | assumption | apply State.islTicks_ok | apply State.segQueue_ok | apply State.ticks_ok | apply next_ok | apply foldl_ok | apply foldl_ok1 | apply ite_ok | apply ite_ok1 | apply ite_next | apply next_ok | intro _ | dsimp only | split)

theorem State.islSend_ok {Q : List Instr} (s : State) (c ty : Nat) (body : List Byte) (hok : Ok Q s) : Ok Q (State.islSend s c ty body) := by
  unfold State.islSend
  with_reducible repeat' (first | assumption | apply State.emit_ok | apply State.islPut_ok)

theorem State.islSeq_ok {Q : List Instr} (s : State) (c ty lseq : Nat) (hok : Ok Q s) : Ok Q (State.islSeq s c ty lseq) := by
  unfold State.islSeq
  with_reducible repeat' (first | assumption | apply State.islPut_ok)

theorem State.islRx_ok {Q : List Instr} (s : State) (c ty : Nat) (bytes : List Byte) (act : List Byte → State → State) (hact : ∀ bs s, Ok Q s → Ok Q (act bs s)) (hok : Ok Q s) : Ok Q (State.islRx s c ty bytes act) := by
  unfold State.islRx
  with_reducible repeat' (first | assumption | apply hact | apply State.islPut_ok | apply State.islSeq_ok | apply foldl_ok | apply foldl_ok1 | apply ite_ok | apply ite_ok1 | apply ite_next | apply next_ok | intro _)

theorem execIdle_ok {Q : List Instr} (c : Fin 2) (x : IdleFrame) (s : State) (hok : Ok Q s) : OkOut Q (execIdle c x s) := by
  unfold execIdle
  with_reducible repeat' (first | assumption | apply State.barIdle_ok | apply State.barRx_ok | apply State.emit_ok | apply State.islRx_ok | apply next_ok | apply foldl_ok | apply foldl_ok1 | apply ite_ok | apply ite_ok1 | apply ite_next | apply next_ok | intro _ | dsimp only | split)

theorem State.toFirmware_ok {Q : List Instr} (c : Nat) (bs : List Byte) (s : State) (hok : Ok Q s) : Ok Q (State.toFirmware c bs s) := by
  unfold State.toFirmware
  with_reducible repeat' (first | assumption | apply State.barRx_ok | apply State.islPut_ok | apply foldl_ok | apply foldl_ok1 | apply ite_ok | apply ite_ok1 | apply ite_next | apply next_ok | intro _)

theorem execTime_ok {Q : List Instr} (c : Fin 2) (bytes : List Byte) (ticks : Nat) (s : State) (hok : Ok Q s) : OkOut Q (execTime c bytes ticks s) := by
  unfold execTime
  with_reducible repeat' (first | assumption | apply State.islPut_ok | apply State.islRx_ok | apply State.islTicks_ok | apply State.ticks_ok | apply State.toFirmware_ok | apply foldl_ok | apply foldl_ok1 | apply ite_ok | apply ite_ok1 | apply ite_next | apply next_ok | intro _)

theorem execIdentReq_ok {Q : List Instr} (c : Fin 2) (bytes : List Byte) (s : State) (hok : Ok Q s) : OkOut Q (execIdentReq c bytes s) := by
  unfold execIdentReq
  with_reducible repeat' (first | assumption | apply State.islRx_ok | apply State.toFirmware_ok | apply foldl_ok | apply foldl_ok1 | apply ite_ok | apply ite_ok1 | apply ite_next | apply next_ok)

theorem execZeroReq_ok {Q : List Instr} (c : Fin 2) (bytes : List Byte) (s : State) (hok : Ok Q s) : OkOut Q (execZeroReq c bytes s) := by
  unfold execZeroReq
  with_reducible repeat' (first | assumption | apply State.islRx_ok | apply State.toFirmware_ok | apply foldl_ok | apply foldl_ok1 | apply ite_ok | apply ite_ok1 | apply ite_next | apply next_ok)

theorem execTareReq_ok {Q : List Instr} (c : Fin 2) (bytes : List Byte) (s : State) (hok : Ok Q s) : OkOut Q (execTareReq c bytes s) := by
  unfold execTareReq
  with_reducible repeat' (first | assumption | apply State.islRx_ok | apply State.toFirmware_ok | apply foldl_ok | apply foldl_ok1 | apply ite_ok | apply ite_ok1 | apply ite_next | apply next_ok)

theorem execEventReq_ok {Q : List Instr} (c : Fin 2) (bytes : List Byte) (s : State) (hok : Ok Q s) : OkOut Q (execEventReq c bytes s) := by
  unfold execEventReq
  with_reducible repeat' (first | assumption | apply State.islRx_ok | apply State.toFirmware_ok | apply foldl_ok | apply foldl_ok1 | apply ite_ok | apply ite_ok1 | apply ite_next | apply next_ok)

theorem execSignHandover_ok {Q : List Instr} (bytes : List Byte) (s : State) (hok : Ok Q s) : OkOut Q (execSignHandover bytes s) := by
  unfold execSignHandover
  with_reducible repeat' (first | assumption | apply State.islSend_ok | apply State.setFree_ok | apply foldl_ok | apply foldl_ok1 | apply ite_ok | apply ite_ok1 | apply ite_next | apply next_ok | intro _)

theorem State.putFlash_ok {Q : List Instr} (s : State) (a : Nat) (bs : List Byte) (hok : Ok Q s) : Ok Q (State.putFlash s a bs) := by
  unfold State.putFlash
  with_reducible repeat' (first | assumption | apply State.islPut_ok)

theorem State.islStart_ok {Q : List Instr} (s : State) (bank : Nat) (im : List Byte) (hok : Ok Q s) : Ok Q (State.islStart s bank im) := by
  unfold State.islStart
  with_reducible repeat' (first | assumption | apply State.islPut_ok)

theorem State.islBoot_ok {Q : List Instr} (s : State) (hok : Ok Q s) : Ok Q (State.islBoot s) := by
  unfold State.islBoot
  with_reducible repeat' (first | assumption | apply State.islPut_ok | apply State.islStart_ok | apply State.setIsl_ok | apply foldl_ok | apply foldl_ok1 | apply ite_ok | apply ite_ok1 | apply ite_next | apply next_ok | intro _ | dsimp only | split)

theorem execIslandBoot_ok {Q : List Instr} (s : State) (hok : Ok Q s) : OkOut Q (execIslandBoot s) := by
  unfold execIslandBoot
  with_reducible repeat' (first | assumption | apply State.islBoot_ok | apply foldl_ok | apply foldl_ok1 | apply ite_ok | apply ite_ok1 | apply ite_next | apply next_ok)

theorem execBootFailedIdent_ok {Q : List Instr} (s : State) (hok : Ok Q s) : OkOut Q (execBootFailedIdent s) := by
  unfold execBootFailedIdent
  with_reducible repeat' (first | assumption | apply State.islSend_ok | apply State.setFree_ok | apply foldl_ok | apply foldl_ok1 | apply ite_ok | apply ite_ok1 | apply ite_next | apply next_ok | intro _)

theorem State.askImage_ok {Q : List Instr} (s : State) (o : IslOffer) (hok : Ok Q s) : Ok Q (State.askImage s o) := by
  unfold State.askImage
  with_reducible repeat' (first | assumption | apply State.islSend_ok)

theorem execImageOffer_ok {Q : List Instr} (c : Fin 2) (bytes : List Byte) (s : State) (hok : Ok Q s) : OkOut Q (execImageOffer c bytes s) := by
  unfold execImageOffer
  with_reducible repeat' (first | assumption | apply State.askImage_ok | apply State.islPut_ok | apply State.islRx_ok | apply State.toFirmware_ok | apply foldl_ok | apply foldl_ok1 | apply ite_ok | apply ite_ok1 | apply ite_next | apply next_ok | intro _)

theorem execImageData_ok {Q : List Instr} (c : Fin 2) (bytes : List Byte) (s : State) (hok : Ok Q s) : OkOut Q (execImageData c bytes s) := by
  unfold execImageData
  with_reducible repeat' (first | assumption | apply State.askImage_ok | apply State.islBoot_ok | apply State.islPut_ok | apply State.islRx_ok | apply State.putFlash_ok | apply State.toFirmware_ok | apply foldl_ok | apply foldl_ok1 | apply ite_ok | apply ite_ok1 | apply ite_next | apply next_ok | intro _ | dsimp only | split)

theorem State.islWrite_ok {Q : List Instr} (s : State) (x : IslWrite) (hok : Ok Q s) : Ok Q (State.islWrite s x) := by
  unfold State.islWrite
  with_reducible repeat' (first | assumption | apply State.barRx_ok | apply State.emit_ok | apply State.islPut_ok | apply State.putBridge_ok | apply State.putFlash_ok | apply State.putSeg_ok | apply foldl_ok | apply foldl_ok1 | apply ite_ok | apply ite_ok1 | apply ite_next | apply next_ok | intro _ | dsimp only | split)

end Sys2Proof.Machine
end

