-- ==== Sys2Proof/Laws/Keep/Ingest.lean ====
section
/-!
SUPPORT. What the operations of Machine/Ingest.lean keep.
-/

namespace Sys2Proof.Machine

theorem State.evClear_ok {Q : List Instr} (s : State) (a : Nat) (hok : Ok Q s) : Ok Q (State.evClear s a) := by
  unfold State.evClear
  with_reducible repeat' (first | assumption | apply State.devRead_ok | apply State.devWrite_ok)

theorem State.evPut_ok {Q : List Instr} (s : State) (h : EvHead) (payload : List Byte) (len : Nat) (hok : Ok Q s) : Ok Q (State.evPut s h payload len) := by
  unfold State.evPut
  with_reducible repeat' (first | assumption | apply State.addF_ok | apply State.devWrite_ok | apply State.evClear_ok | apply State.setEv_ok | apply State.setF_ok | apply foldl_ok | apply foldl_ok1 | apply ite_ok | apply ite_ok1 | apply ite_next | apply next_ok | intro _)

theorem State.writeEvidence_ok {Q : List Instr} (s : State) (h : EvHead) (payload : List Byte) (hok : Ok Q s) : Ok Q (State.writeEvidence s h payload).1 := by
  unfold State.writeEvidence
  with_reducible repeat' (first | assumption | apply State.addF_ok | apply State.evPut_ok | apply State.reach_ok | apply State.report_ok | apply State.setEv_ok | apply foldl_ok | apply foldl_ok1 | apply ite_ok | apply ite_ok1 | apply ite_next | apply next_ok | intro _)

theorem State.writeEvrCtl_ok {Q : List Instr} (w : WriteReq) (s : State) (hok : Ok Q s) : Ok Q (State.writeEvrCtl w s) := by
  unfold State.writeEvrCtl
  with_reducible repeat' (first | assumption | apply State.plainWrite_ok | apply State.setF_ok | apply foldl_ok | apply foldl_ok1 | apply ite_ok | apply ite_ok1 | apply ite_next | apply next_ok | intro _)

theorem execIngEvrCtl_ok {Q : List Instr} (w : WriteReq) (s : State) (hok : Ok Q s) : OkOut Q (execIngEvrCtl w s) := by
  unfold execIngEvrCtl
  with_reducible repeat' (first | assumption | apply State.gated_ok | apply State.writeEvrCtl_ok | apply foldl_ok | apply foldl_ok1 | apply ite_ok | apply ite_ok1 | apply ite_next | apply next_ok)

theorem State.freeBytes_ok {Q : List Instr} (s : State) (n : Nat) (hok : Ok Q s) : Ok Q (State.freeBytes s n).1 := by
  unfold State.freeBytes
  with_reducible repeat' (first | assumption | apply State.setFree_ok)

theorem State.putExposure_ok {Q : List Instr} (s : State) (m : Nat) (e : Exposure) (hok : Ok Q s) : Ok Q (State.putExposure s m e) := by
  unfold State.putExposure
  with_reducible repeat' (first | assumption | apply State.onStrm_ok)

theorem State.completeFrame_ok {Q : List Instr} (s : State) (m i : Nat) (e : Exposure) (hok : Ok Q s) : Ok Q (State.completeFrame s m i e) := by
  unfold State.completeFrame
  with_reducible repeat' (first | assumption | apply State.freeBytes_ok | apply State.putExposure_ok | apply State.unitWriteN_ok | apply State.writeEvidence_ok | apply foldl_ok | apply foldl_ok1 | apply ite_ok | apply ite_ok1 | apply ite_next | apply next_ok | intro _)

theorem State.takePacket_ok {Q : List Instr} (s : State) (m i : Nat) (r : Rtp) (e : Exposure) (hok : Ok Q s) : Ok Q (State.takePacket s m i r e) := by
  unfold State.takePacket
  with_reducible repeat' (first | assumption | apply State.addF_ok | apply State.completeFrame_ok | apply State.putExposure_ok | apply State.raise_ok | apply foldl_ok | apply foldl_ok1 | apply ite_ok | apply ite_ok1 | apply ite_next | apply next_ok | intro _ | dsimp only | split)

theorem State.badPacket_ok {Q : List Instr} (s : State) (m ts cond : Nat) (e : Option Exposure) (hok : Ok Q s) : Ok Q (State.badPacket s m ts cond e) := by
  unfold State.badPacket
  with_reducible repeat' (first | assumption | apply State.addF_ok | apply State.malformedRaise_ok | apply State.putExposure_ok | apply foldl_ok | apply foldl_ok1 | apply ite_ok | apply ite_ok1 | apply ite_next | apply next_ok | intro _ | dsimp only | split)

theorem State.lostPacket_ok {Q : List Instr} (s : State) (m ts : Nat) (hok : Ok Q s) : Ok Q (State.lostPacket s m ts) := by
  unfold State.lostPacket
  with_reducible repeat' (first | assumption | apply State.addF_ok | apply State.onStrm_ok | apply State.raise_ok | apply State.report_ok | apply foldl_ok | apply foldl_ok1 | apply ite_ok | apply ite_ok1 | apply ite_next | apply next_ok | intro _ | dsimp only | split)

theorem State.ingest_ok {Q : List Instr} (s : State) (i : Nat) (d : Datagram) (hok : Ok Q s) : Ok Q (State.ingest s i d) := by
  unfold State.ingest
  with_reducible repeat' (first | assumption | apply State.badPacket_ok | apply State.freeNext_ok | apply State.lostPacket_ok | apply State.takePacket_ok | apply foldl_ok | apply foldl_ok1 | apply ite_ok | apply ite_ok1 | apply ite_next | apply next_ok | intro _ | dsimp only | split)

theorem execEthFrameReceive_ok {Q : List Instr} (p : Fin 6) (t : Nat) (bytes : List Byte) (good : Bool) (s : State) (hok : Ok Q s) : OkOut Q (execEthFrameReceive p t bytes good s) := by
  unfold execEthFrameReceive
  with_reducible repeat' (first | assumption | apply State.addF_ok | apply State.ingest_ok | apply State.reach_ok | apply State.ringReceive_ok | apply foldl_ok | apply foldl_ok1 | apply ite_ok | apply ite_ok1 | apply ite_next | apply next_ok | intro _ | dsimp only | split)

theorem State.strReject_ok {Q : List Instr} (s : State) (m off : Nat) (hok : Ok Q s) : Ok Q (State.strReject s m off) := by
  unfold State.strReject
  with_reducible repeat' (first | assumption | apply State.report_ok)

theorem State.bindNow_ok {Q : List Instr} (s : State) (m : Nat) (hok : Ok Q s) : Ok Q (State.bindNow s m) := by
  unfold State.bindNow
  with_reducible repeat' (first | assumption | apply State.initScales_ok | apply State.notice_ok | apply State.putStrm_ok | apply State.setF_ok | apply State.setQsk_ok | apply State.setStrState_ok | apply foldl_ok | apply foldl_ok1 | apply ite_ok | apply ite_ok1 | apply ite_next | apply next_ok | intro _)

theorem State.writeStrCtl_ok {Q : List Instr} (m : Nat) (w : WriteReq) (s : State) (hok : Ok Q s) : Ok Q (State.writeStrCtl m w s) := by
  unfold State.writeStrCtl
  with_reducible repeat' (first | assumption | apply State.bindNow_ok | apply State.discardFrames_ok | apply State.onStrm_ok | apply State.setStrState_ok | apply State.strReject_ok | apply foldl_ok | apply foldl_ok1 | apply ite_ok | apply ite_ok1 | apply ite_next | apply next_ok | intro _)

theorem execUnbind_ok {Q : List Instr} (m : Fin 64) (w : WriteReq) (s : State) (hok : Ok Q s) : OkOut Q (execUnbind m w s) := by
  unfold execUnbind
  with_reducible repeat' (first | assumption | apply State.gatedAct_ok | apply State.writeStrCtl_ok | apply foldl_ok | apply foldl_ok1 | apply ite_ok | apply ite_ok1 | apply ite_next | apply next_ok)

theorem State.writeRotation_ok {Q : List Instr} (n g : Nat) (w : WriteReq) (s : State) (hok : Ok Q s) : Ok Q (State.writeRotation n g w s) := by
  unfold State.writeRotation
  with_reducible repeat' (first | assumption | apply State.plainWrite_ok | apply State.strReject_ok | apply foldl_ok | apply foldl_ok1 | apply ite_ok | apply ite_ok1 | apply ite_next | apply next_ok | intro _)

theorem execRotationWrite_ok {Q : List Instr} (n : Fin 4) (g : Fin 33) (w : WriteReq) (s : State) (hok : Ok Q s) : OkOut Q (execRotationWrite n g w s) := by
  unfold execRotationWrite
  with_reducible repeat' (first | assumption | apply State.gated_ok | apply State.writeRotation_ok | apply foldl_ok | apply foldl_ok1 | apply ite_ok | apply ite_ok1 | apply ite_next | apply next_ok)

end Sys2Proof.Machine
end

