-- ==== Sys2Proof/Laws/Keep/Policy.lean ====
section
/-!
SUPPORT. What the operations of Machine/Policy.lean keep.
-/

namespace Sys2Proof.Machine

theorem State.applyCore_ok {Q : List Instr} (s : State) (c : Nat) (hok : Ok Q s) : Ok Q (State.applyCore s c) := by
  unfold State.applyCore
  with_reducible repeat' (first | assumption | apply State.writeClk_ok | apply State.writeIdle_ok | apply foldl_ok | apply foldl_ok1 | apply ite_ok | apply ite_ok1 | apply ite_next | apply next_ok | intro _)

theorem State.applyBeat_ok {Q : List Instr} (s : State) (n : Nat) (hok : Ok Q s) : Ok Q (State.applyBeat s n) := by
  unfold State.applyBeat
  with_reducible repeat' (first | assumption | apply State.setF_ok | apply State.writeShrink_ok | apply foldl_ok | apply foldl_ok1 | apply ite_ok | apply ite_ok1 | apply ite_next | apply next_ok | intro _)

theorem State.applyMem_ok {Q : List Instr} (s : State) (m : Nat) (hok : Ok Q s) : Ok Q (State.applyMem s m) := by
  unfold State.applyMem
  with_reducible repeat' (first | assumption | apply State.setF_ok | apply foldl_ok | apply foldl_ok1 | apply ite_ok | apply ite_ok1 | apply ite_next | apply next_ok | intro _)

theorem State.applyDevice_ok {Q : List Instr} (s : State) (hok : Ok Q s) : Ok Q (State.applyDevice s) := by
  unfold State.applyDevice
  with_reducible repeat' (first | assumption | apply State.fltLevel_ok | apply State.setF_ok | apply foldl_ok | apply foldl_ok1 | apply ite_ok | apply ite_ok1 | apply ite_next | apply next_ok | intro _)

theorem State.applyAll_ok {Q : List Instr} (s : State) (hok : Ok Q s) : Ok Q (State.applyAll s) := by
  unfold State.applyAll
  with_reducible repeat' (first | assumption | apply State.applyBeat_ok | apply State.applyCore_ok | apply State.applyDevice_ok | apply State.applyMem_ok | apply foldl_ok | apply foldl_ok1 | apply ite_ok | apply ite_ok1 | apply ite_next | apply next_ok | intro _)

theorem State.setParam_ok {Q : List Instr} (s : State) (id v : Nat) (hok : Ok Q s) : Ok Q (State.setParam s id v) := by
  unfold State.setParam
  with_reducible repeat' (first | assumption | apply State.applyBeat_ok | apply State.applyCore_ok | apply State.applyDevice_ok | apply State.applyMem_ok | apply State.setStw_ok | apply foldl_ok | apply foldl_ok1 | apply ite_ok | apply ite_ok1 | apply ite_next | apply next_ok | intro _)

theorem State.reapplyPipe_ok {Q : List Instr} (s : State) (n : Nat) (hok : Ok Q s) : Ok Q (State.reapplyPipe s n) := by
  unfold State.reapplyPipe
  with_reducible repeat' (first | assumption | apply State.applyBeat_ok | apply State.applyCore_ok | apply foldl_ok | apply foldl_ok1 | apply ite_ok | apply ite_ok1 | apply ite_next | apply next_ok | intro _)

theorem State.reapplyDom_ok {Q : List Instr} (s : State) (d : Nat) (hok : Ok Q s) : Ok Q (State.reapplyDom s d) := by
  unfold State.reapplyDom
  with_reducible repeat' (first | assumption | apply State.applyCore_ok | apply State.applyMem_ok | apply foldl_ok | apply foldl_ok1 | apply ite_ok | apply ite_ok1 | apply ite_next | apply next_ok | intro _)

theorem execDomainTransitionDone_ok {Q : List Instr} (d : Fin 57) (s : State) (hok : Ok Q s) : OkOut Q (execDomainTransitionDone d s) := by
  unfold execDomainTransitionDone
  with_reducible repeat' (first | assumption | apply State.reapplyDom_ok | apply State.transitionDone_ok | apply foldl_ok | apply foldl_ok1 | apply ite_ok | apply ite_ok1 | apply ite_next | apply next_ok | intro _)

theorem execWakingComplete_ok {Q : List Instr} (s : State) (hok : Ok Q s) : OkOut Q (execWakingComplete s) := by
  unfold execWakingComplete
  with_reducible repeat' (first | assumption | apply State.reapplyDom_ok | apply State.wakingComplete_ok | apply foldl_ok | apply foldl_ok1 | apply ite_ok | apply ite_ok1 | apply ite_next | apply next_ok | intro _)

theorem State.finishLoad_ok {Q : List Instr} (s : State) (hok : Ok Q s) : Ok Q (State.finishLoad s) := by
  unfold State.finishLoad
  with_reducible repeat' (first | assumption | apply State.commitLoad_ok | apply State.reapplyPipe_ok | apply State.setStw_ok | apply foldl_ok | apply foldl_ok1 | apply ite_ok | apply ite_ok1 | apply ite_next | apply next_ok | intro _ | dsimp only | split)

theorem execLoadCommit_ok {Q : List Instr} (s : State) (hok : Ok Q s) : OkOut Q (execLoadCommit s) := by
  unfold execLoadCommit
  with_reducible repeat' (first | assumption | apply State.finishLoad_ok | apply foldl_ok | apply foldl_ok1 | apply ite_ok | apply ite_ok1 | apply ite_next | apply next_ok)

theorem State.writeBind_ok {Q : List Instr} (m : Nat) (w : WriteReq) (s : State) (hok : Ok Q s) : Ok Q (State.writeBind m w s) := by
  unfold State.writeBind
  with_reducible repeat' (first | assumption | apply State.reapplyPipe_ok | apply State.writeStrCtl_ok | apply foldl_ok | apply foldl_ok1 | apply ite_ok | apply ite_ok1 | apply ite_next | apply next_ok | intro _)

theorem execBind_ok {Q : List Instr} (m : Fin 64) (w : WriteReq) (s : State) (hok : Ok Q s) : OkOut Q (execBind m w s) := by
  unfold execBind
  with_reducible repeat' (first | assumption | apply State.gatedAct_ok | apply State.writeBind_ok | apply foldl_ok | apply foldl_ok1 | apply ite_ok | apply ite_ok1 | apply ite_next | apply next_ok)

theorem State.meetHead_ok {Q : List Instr} (s : State) (c : Nat) (hok : Ok Q s) : Ok Q (State.meetHead s c) := by
  unfold State.meetHead
  with_reducible repeat' (first | assumption | apply State.meetN_ok | apply foldl_ok | apply foldl_ok1 | apply ite_ok | apply ite_ok1 | apply ite_next | apply next_ok | intro _ | dsimp only | split)

theorem State.mbxAnswer_ok {Q : List Instr} (s : State) (c : Nat) (status detail : Nat) (result : List Byte) (hok : Ok Q s) : Ok Q (State.mbxAnswer s c status detail result) := by
  unfold State.mbxAnswer
  with_reducible repeat' (first | assumption | apply State.addF_ok | apply State.mbxPut_ok | apply State.setJob_ok | apply State.setStw_ok)

theorem State.tellRestarted_ok {Q : List Instr} (s : State) (c : Nat) (hok : Ok Q s) : Ok Q (State.tellRestarted s c) := by
  unfold State.tellRestarted
  with_reducible repeat' (first | assumption | apply State.meetHead_ok | apply State.mbxAnswer_ok | apply State.setJob_ok | apply foldl_ok | apply foldl_ok1 | apply ite_ok | apply ite_ok1 | apply ite_next | apply next_ok | intro _)

theorem State.grantHost_ok {Q : List Instr} (s : State) (hok : Ok Q s) : Ok Q (State.grantHost s) := by
  unfold State.grantHost
  with_reducible repeat' (first | assumption | apply State.setF_ok)

theorem State.tellStarted_ok {Q : List Instr} (s : State) (reason : Nat) (hok : Ok Q s) : Ok Q (State.tellStarted s reason) := by
  unfold State.tellStarted
  with_reducible repeat' (first | assumption | apply State.mbxEvent_ok)

theorem State.restarted_ok {Q : List Instr} (s : State) (hok : Ok Q s) : Ok Q (State.restarted s) := by
  unfold State.restarted
  with_reducible repeat' (first | assumption | apply State.applyAll_ok | apply State.grantHost_ok | apply State.phase_ok | apply State.tellRestarted_ok | apply State.tellStarted_ok)

theorem State.writeStwCtl_ok {Q : List Instr} (w : WriteReq) (s : State) (hok : Ok Q s) : Ok Q (State.writeStwCtl w s) := by
  unfold State.writeStwCtl
  with_reducible repeat' (first | assumption | apply State.bootError_ok | apply State.restarted_ok | apply State.setF_ok | apply State.setRun_ok | apply State.setStw_ok | apply State.startImage_ok | apply foldl_ok | apply foldl_ok1 | apply ite_ok | apply ite_ok1 | apply ite_next | apply next_ok | intro _)

theorem execMgtStwRestart_ok {Q : List Instr} (w : WriteReq) (s : State) (hok : Ok Q s) : OkOut Q (execMgtStwRestart w s) := by
  unfold execMgtStwRestart
  with_reducible repeat' (first | assumption | apply State.gated_ok | apply State.writeStwCtl_ok | apply foldl_ok | apply foldl_ok1 | apply ite_ok | apply ite_ok1 | apply ite_next | apply next_ok)

end Sys2Proof.Machine
end

