-- ==== Sys2Proof/Laws/Keep/Quosk.lean ====
section
/-!
SUPPORT. What the operations of Machine/Quosk.lean keep.
-/

namespace Sys2Proof.Machine

theorem State.fillRoutes_ok {Q : List Instr} (s : State) (hok : Ok Q s) : Ok Q (State.fillRoutes s) := by
  unfold State.fillRoutes
  with_reducible repeat' (first | assumption | apply State.setF_ok | apply foldl_ok | apply foldl_ok1 | apply ite_ok | apply ite_ok1 | apply ite_next | apply next_ok | intro _)

theorem State.writeRouteCtl_ok {Q : List Instr} (w : WriteReq) (s : State) (hok : Ok Q s) : Ok Q (State.writeRouteCtl w s) := by
  unfold State.writeRouteCtl
  with_reducible repeat' (first | assumption | apply State.fillRoutes_ok | apply foldl_ok | apply foldl_ok1 | apply ite_ok | apply ite_ok1 | apply ite_next | apply next_ok | intro _)

theorem execQskRouteDefault_ok {Q : List Instr} (w : WriteReq) (s : State) (hok : Ok Q s) : OkOut Q (execQskRouteDefault w s) := by
  unfold execQskRouteDefault
  with_reducible repeat' (first | assumption | apply State.gatedAct_ok | apply State.writeRouteCtl_ok | apply foldl_ok | apply foldl_ok1 | apply ite_ok | apply ite_ok1 | apply ite_next | apply next_ok)

theorem State.writeTopo_ok {Q : List Instr} (w : WriteReq) (s : State) (hok : Ok Q s) : Ok Q (State.writeTopo w s) := by
  unfold State.writeTopo
  with_reducible repeat' (first | assumption | apply State.plainWrite_ok | apply foldl_ok | apply foldl_ok1 | apply ite_ok | apply ite_ok1 | apply ite_next | apply next_ok | intro _)

theorem execQskTopo_ok {Q : List Instr} (w : WriteReq) (s : State) (hok : Ok Q s) : OkOut Q (execQskTopo w s) := by
  unfold execQskTopo
  with_reducible repeat' (first | assumption | apply State.gated_ok | apply State.writeTopo_ok | apply foldl_ok | apply foldl_ok1 | apply ite_ok | apply ite_ok1 | apply ite_next | apply next_ok)

theorem State.trainCommit_ok {Q : List Instr} (s : State) (hok : Ok Q s) : Ok Q (State.trainCommit s) := by
  unfold State.trainCommit
  with_reducible repeat' (first | assumption | apply State.fillRoutes_ok | apply State.setQsk_ok | apply foldl_ok | apply foldl_ok1 | apply ite_ok | apply ite_ok1 | apply ite_next | apply next_ok | intro _)

theorem State.setPhase_ok {Q : List Instr} (s : State) (l ph : Nat) (hok : Ok Q s) : Ok Q (State.setPhase s l ph) := by
  unfold State.setPhase
  with_reducible repeat' (first | assumption | apply State.onLink_ok | apply State.setF_ok)

theorem State.failLink_ok {Q : List Instr} (s : State) (l cause : Nat) (hok : Ok Q s) : Ok Q (State.failLink s l cause) := by
  unfold State.failLink
  with_reducible repeat' (first | assumption | apply State.onLink_ok | apply State.report_ok | apply State.setF_ok | apply State.setPhase_ok | apply State.trainCommit_ok)

theorem State.failLinkFree_ok {Q : List Instr} (s : State) (l : Nat) (hok : Ok Q s) : Ok Q (State.failLinkFree s l) := by
  unfold State.failLinkFree
  with_reducible repeat' (first | assumption | apply State.failLink_ok | apply State.freeNext_ok)

theorem State.dropOver_ok {Q : List Instr} (s : State) (l : Nat) (hok : Ok Q s) : Ok Q (State.dropOver s l) := by
  unfold State.dropOver
  with_reducible repeat' (first | assumption | apply State.finishPart_ok | apply State.freeNext_ok | apply State.putSx_ok | apply State.setHeld_ok | apply State.wake_ok | apply foldl_ok | apply foldl_ok1 | apply ite_ok | apply ite_ok1 | apply ite_next | apply next_ok | intro _ | dsimp only | split)

theorem State.clearLink_ok {Q : List Instr} (s : State) (l : Nat) (hok : Ok Q s) : Ok Q (State.clearLink s l) := by
  unfold State.clearLink
  with_reducible repeat' (first | assumption | apply State.onLink_ok)

theorem State.writeLinkCtl_ok {Q : List Instr} (l : Nat) (w : WriteReq) (s : State) (hok : Ok Q s) : Ok Q (State.writeLinkCtl l w s) := by
  unfold State.writeLinkCtl
  with_reducible repeat' (first | assumption | apply State.clearLink_ok | apply State.dropOver_ok | apply State.onLink_ok | apply State.setF_ok | apply State.setPhase_ok | apply State.setQsk_ok | apply foldl_ok | apply foldl_ok1 | apply ite_ok | apply ite_ok1 | apply ite_next | apply next_ok | intro _ | dsimp only | split)

theorem execQskLinkEn_ok {Q : List Instr} (l : Fin 8) (w : WriteReq) (s : State) (hok : Ok Q s) : OkOut Q (execQskLinkEn l w s) := by
  unfold execQskLinkEn
  with_reducible repeat' (first | assumption | apply State.gatedAct_ok | apply State.writeLinkCtl_ok | apply foldl_ok | apply foldl_ok1 | apply ite_ok | apply ite_ok1 | apply ite_next | apply next_ok)

theorem execClockRecoveryLock_ok {Q : List Instr} (l : Fin 8) (s : State) (hok : Ok Q s) : OkOut Q (execClockRecoveryLock l s) := by
  unfold execClockRecoveryLock
  with_reducible repeat' (first | assumption | apply State.setPhase_ok | apply foldl_ok | apply foldl_ok1 | apply ite_ok | apply ite_ok1 | apply ite_next | apply next_ok | intro _)

theorem execCodewordLock_ok {Q : List Instr} (l : Fin 8) (s : State) (hok : Ok Q s) : OkOut Q (execCodewordLock l s) := by
  unfold execCodewordLock
  with_reducible repeat' (first | assumption | apply State.notice_ok | apply State.setPhase_ok | apply foldl_ok | apply foldl_ok1 | apply ite_ok | apply ite_ok1 | apply ite_next | apply next_ok | intro _)

theorem execTrainingPhaseTimeout_ok {Q : List Instr} (l : Fin 8) (s : State) (hok : Ok Q s) : OkOut Q (execTrainingPhaseTimeout l s) := by
  unfold execTrainingPhaseTimeout
  with_reducible repeat' (first | assumption | apply State.failLinkFree_ok | apply State.reach_ok | apply foldl_ok | apply foldl_ok1 | apply ite_ok | apply ite_ok1 | apply ite_next | apply next_ok | intro _)

theorem execHello_ok {Q : List Instr} (l : Fin 8) (h : HelloMsg) (s : State) (hok : Ok Q s) : OkOut Q (execHello l h s) := by
  unfold execHello
  with_reducible repeat' (first | assumption | apply State.failLink_ok | apply State.onLink_ok | apply State.setPhase_ok | apply foldl_ok | apply foldl_ok1 | apply ite_ok | apply ite_ok1 | apply ite_next | apply next_ok | intro _ | dsimp only | split)

theorem execTimeExchange_ok {Q : List Instr} (l : Fin 8) (s : State) (hok : Ok Q s) : OkOut Q (execTimeExchange l s) := by
  unfold execTimeExchange
  with_reducible repeat' (first | assumption | apply State.emit_ok | apply State.onLink_ok | apply foldl_ok | apply foldl_ok1 | apply ite_ok | apply ite_ok1 | apply ite_next | apply next_ok | intro _)

theorem State.looseDiv_ok {Q : List Instr} (s : State) (a : Int) (b : Nat) (hok : Ok Q s) : Ok Q (State.looseDiv s a b).1 := by
  unfold State.looseDiv
  with_reducible repeat' (first | assumption | apply State.freeNext_ok | apply foldl_ok | apply foldl_ok1 | apply ite_ok | apply ite_ok1 | apply ite_next | apply next_ok | intro _)

theorem State.putMeans_ok {Q : List Instr} (s : State) (l : Nat) (hok : Ok Q s) : Ok Q (State.putMeans s l) := by
  unfold State.putMeans
  with_reducible repeat' (first | assumption | apply State.looseDiv_ok | apply State.setI_ok)

theorem State.checkOffset_ok {Q : List Instr} (s : State) (l : Nat) (th2 : Int) (hok : Ok Q s) : Ok Q (State.checkOffset s l th2) := by
  unfold State.checkOffset
  with_reducible repeat' (first | assumption | apply State.looseDiv_ok | apply State.onLink_ok | apply State.report_ok | apply foldl_ok | apply foldl_ok1 | apply ite_ok | apply ite_ok1 | apply ite_next | apply next_ok | intro _ | dsimp only | split)

theorem State.linkCameUp_ok {Q : List Instr} (s : State) (l : Nat) (hok : Ok Q s) : Ok Q (State.linkCameUp s l) := by
  unfold State.linkCameUp
  with_reducible repeat' (first | assumption | apply State.onLink_ok | apply State.report_ok | apply State.setPhase_ok | apply State.setQsk_ok | apply State.trainCommit_ok)

theorem execTimeUnit_ok {Q : List Instr} (l : Fin 8) (u : TimeMsg) (t : Nat) (s : State) (hok : Ok Q s) : OkOut Q (execTimeUnit l u t s) := by
  unfold execTimeUnit
  with_reducible repeat' (first | assumption | apply State.answer_ok | apply State.checkOffset_ok | apply State.emit_ok | apply State.failLinkFree_ok | apply State.linkCameUp_ok | apply State.onLink_ok | apply State.putMeans_ok | apply State.reach_ok | apply foldl_ok | apply foldl_ok1 | apply ite_ok | apply ite_ok1 | apply ite_next | apply next_ok | intro _ | dsimp only | split)

theorem State.loseLink_ok {Q : List Instr} (s : State) (l cause : Nat) (hok : Ok Q s) : Ok Q (State.loseLink s l cause) := by
  unfold State.loseLink
  with_reducible repeat' (first | assumption | apply State.clearLink_ok | apply State.dropOver_ok | apply State.losePath_ok | apply State.report_ok | apply State.setPhase_ok | apply foldl_ok | apply foldl_ok1 | apply ite_ok | apply ite_ok1 | apply ite_next | apply next_ok | intro _)

theorem execLinkLost_ok {Q : List Instr} (l : Fin 8) (cause : Fin 4) (s : State) (hok : Ok Q s) : OkOut Q (execLinkLost l cause s) := by
  unfold execLinkLost
  with_reducible repeat' (first | assumption | apply State.loseLink_ok | apply foldl_ok | apply foldl_ok1 | apply ite_ok | apply ite_ok1 | apply ite_next | apply next_ok)

theorem execSlotFrameLaunch_ok {Q : List Instr} (l : Fin 8) (s : State) (hok : Ok Q s) : OkOut Q (execSlotFrameLaunch l s) := by
  unfold execSlotFrameLaunch
  with_reducible repeat' (first | assumption | apply State.onLink_ok | apply State.reach_ok | apply next_ok | apply foldl_ok | apply foldl_ok1 | apply ite_ok | apply ite_ok1 | apply ite_next | apply next_ok | intro _ | dsimp only | split)

theorem execSlotFrameUnlocked_ok {Q : List Instr} (err : Int) (s : State) (hok : Ok Q s) : OkOut Q (execSlotFrameUnlocked err s) := by
  unfold execSlotFrameUnlocked
  with_reducible repeat' (first | assumption | apply State.loseLock_ok | apply State.report_ok | apply State.setF_ok | apply State.setQsk_ok | apply foldl_ok | apply foldl_ok1 | apply ite_ok | apply ite_ok1 | apply ite_next | apply next_ok | intro _)

theorem execSlotFrameLock_ok {Q : List Instr} (s : State) (hok : Ok Q s) : OkOut Q (execSlotFrameLock s) := by
  unfold execSlotFrameLock
  with_reducible repeat' (first | assumption | apply State.setF_ok | apply State.setQsk_ok | apply foldl_ok | apply foldl_ok1 | apply ite_ok | apply ite_ok1 | apply ite_next | apply next_ok)

theorem State.dropFlit_ok {Q : List Instr} (s : State) (l slot code : Nat) (detail : List (Nat × Nat)) (ws : List (Nat × QWord)) (hok : Ok Q s) : Ok Q (State.dropFlit s l slot code detail ws) := by
  unfold State.dropFlit
  with_reducible repeat' (first | assumption | apply State.reportTagP_ok | apply State.report_ok | apply State.voidTagP_ok | apply foldl_ok | apply foldl_ok | apply foldl_ok1 | apply ite_ok | apply ite_ok1 | apply ite_next | apply next_ok | intro _ | dsimp only | split)

theorem State.keepFlit_ok {Q : List Instr} (s : State) (l frame slot : Nat) (ws : List (Nat × QWord)) (hok : Ok Q s) : Ok Q (State.keepFlit s l frame slot ws) := by
  unfold State.keepFlit
  with_reducible repeat' (first | assumption | apply State.dropFlit_ok | apply State.freeNext_ok | apply State.onLink_ok | apply State.report_ok | apply State.voidFlit_ok | apply foldl_ok | apply foldl_ok1 | apply ite_ok | apply ite_ok1 | apply ite_next | apply next_ok | intro _ | dsimp only | split)

theorem State.fecLost_ok {Q : List Instr} (s : State) (l : Nat) (hok : Ok Q s) : Ok Q (State.fecLost s l) := by
  unfold State.fecLost
  with_reducible repeat' (first | assumption | apply State.addF_ok | apply State.onLink_ok | apply State.report_ok | apply foldl_ok | apply foldl_ok1 | apply ite_ok | apply ite_ok1 | apply ite_next | apply next_ok | intro _)

theorem execFlitReceive_ok {Q : List Instr} (l : Fin 8) (frame : Fin 256) (slot : Fin 128) (ok : Bool) (words : List (Fin 8 × FabWord)) (s : State) (hok : Ok Q s) : OkOut Q (execFlitReceive l frame slot ok words s) := by
  unfold execFlitReceive
  with_reducible repeat' (first | assumption | apply State.fecLost_ok | apply State.keepFlit_ok | apply State.loseLink_ok | apply State.onLink_ok | apply foldl_ok | apply foldl_ok1 | apply ite_ok | apply ite_ok1 | apply ite_next | apply next_ok | intro _ | dsimp only | split)

theorem execFlitPresent_ok {Q : List Instr} (l : Fin 8) (slot : Fin 128) (s : State) (hok : Ok Q s) : OkOut Q (execFlitPresent l slot s) := by
  unfold execFlitPresent
  with_reducible repeat' (first | assumption | apply State.onLink_ok | apply State.reach_ok | apply State.switchWord_ok | apply foldl_ok | apply foldl_ok1 | apply ite_ok | apply ite_ok1 | apply ite_next | apply next_ok | intro _ | dsimp only | split)

theorem execBindNotice_ok {Q : List Instr} (src : Fin 64) (p : Fin 4) (m : Fin 64) (s : State) (hok : Ok Q s) : OkOut Q (execBindNotice src p m s) := by
  unfold execBindNotice
  with_reducible repeat' (first | assumption | apply State.initScales_ok | apply State.setFree_ok | apply State.tellHead_ok | apply foldl_ok | apply foldl_ok1 | apply ite_ok | apply ite_ok1 | apply ite_next | apply next_ok | intro _ | dsimp only | split)

theorem execBeatNotice_ok {Q : List Instr} (src : Fin 64) (p : Fin 4) (k : Nat) (a : Nat) (fif : Fin 8) (m : Fin 64) (j : Fin 65536) (s : State) (hok : Ok Q s) : OkOut Q (execBeatNotice src p k a fif m j s) := by
  unfold execBeatNotice
  with_reducible repeat' (first | assumption | apply State.fillBank_ok | apply State.launchWakes_ok | apply State.newFif_ok | apply State.onPipe_ok | apply State.solToken_ok | apply next_ok | apply foldl_ok | apply foldl_ok1 | apply ite_ok | apply ite_ok1 | apply ite_next | apply next_ok | intro _ | dsimp only | split)

theorem execStatusNotice_ok {Q : List Instr} (src : Fin 64) (p : Fin 4) (fif : Fin 8) (j : Fin 65536) (quality : Fin 32) (reason : Fin 10) (first done : Nat) (fold : Bool) (s : State) (hok : Ok Q s) : OkOut Q (execStatusNotice src p fif j quality reason first done fold s) := by
  unfold execStatusNotice
  with_reducible repeat' (first | assumption | apply State.onFrame_ok | apply State.setQsk_ok | apply foldl_ok | apply foldl_ok1 | apply ite_ok | apply ite_ok1 | apply ite_next | apply next_ok | intro _ | dsimp only | split)

theorem execRetallyNotice_ok {Q : List Instr} (src : Fin 64) (p : Fin 4) (_fif : Fin 8) (dR : Nat) (s : State) (hok : Ok Q s) : OkOut Q (execRetallyNotice src p _fif dR s) := by
  unfold execRetallyNotice
  with_reducible repeat' (first | assumption | apply State.onBeat_ok | apply foldl_ok | apply foldl_ok1 | apply ite_ok | apply ite_ok1 | apply ite_next | apply next_ok | intro _)

theorem State.losePart_ok {Q : List Instr} (s : State) (p d cause : Nat) (hok : Ok Q s) : Ok Q (State.losePart s p d cause) := by
  unfold State.losePart
  with_reducible repeat' (first | assumption | apply State.losePipe_ok | apply State.losePath_ok | apply State.raise_ok | dsimp only | split)

theorem execLossNotice_ok {Q : List Instr} (src : Fin 64) (p : Fin 4) (_kind : Fin 16) (_coord : BitVec 28) (s : State) (hok : Ok Q s) : OkOut Q (execLossNotice src p _kind _coord s) := by
  unfold execLossNotice
  with_reducible repeat' (first | assumption | apply State.losePart_ok | apply foldl_ok | apply foldl_ok1 | apply ite_ok | apply ite_ok1 | apply ite_next | apply next_ok | intro _)

theorem execPartStatusTimeout_ok {Q : List Instr} (p : Fin 4) (d : Fin 64) (s : State) (hok : Ok Q s) : OkOut Q (execPartStatusTimeout p d s) := by
  unfold execPartStatusTimeout
  with_reducible repeat' (first | assumption | apply State.losePart_ok | apply State.onPipe_ok | apply State.reach_ok | apply foldl_ok | apply foldl_ok1 | apply ite_ok | apply ite_ok1 | apply ite_next | apply next_ok | intro _ | dsimp only | split)

end Sys2Proof.Machine
end

