-- ==== Sys2Proof/Laws/Keep/Learning.lean ====
section
/-!
SUPPORT. What the operations of Machine/Learning.lean keep.
-/

namespace Sys2Proof.Machine

theorem State.lrnReject_ok {Q : List Instr} (s : State) (off v : Nat) (hok : Ok Q s) : Ok Q (State.lrnReject s off v) := by
  unfold State.lrnReject
  with_reducible repeat' (first | assumption | apply State.report_ok)

theorem State.writeLrn_ok {Q : List Instr} (r : LrnReg) (w : WriteReq) (s : State) (hok : Ok Q s) : Ok Q (State.writeLrn r w s) := by
  unfold State.writeLrn
  with_reducible repeat' (first | assumption | apply State.lrnReject_ok | apply State.plainWrite_ok | apply State.setF_ok | apply foldl_ok | apply foldl_ok1 | apply ite_ok | apply ite_ok1 | apply ite_next | apply next_ok | intro _)

theorem execSolLrnCfg_ok {Q : List Instr} (r : LrnReg) (w : WriteReq) (s : State) (hok : Ok Q s) : OkOut Q (execSolLrnCfg r w s) := by
  unfold execSolLrnCfg
  with_reducible repeat' (first | assumption | apply State.gated_ok | apply State.writeLrn_ok | apply foldl_ok | apply foldl_ok1 | apply ite_ok | apply ite_ok1 | apply ite_next | apply next_ok)

theorem State.putTraces_ok {Q : List Instr} (s : State) (r : Nat) (ts : List Int) (g : Nat) (hok : Ok Q s) : Ok Q (State.putTraces s r ts g) := by
  unfold State.putTraces
  with_reducible repeat' (first | assumption | apply State.setLearn_ok)

theorem State.writeSeed_ok {Q : List Instr} (w : WriteReq) (s : State) (hok : Ok Q s) : Ok Q (State.writeSeed w s) := by
  unfold State.writeSeed
  with_reducible repeat' (first | assumption | apply State.lrnReject_ok | apply State.putTraces_ok | apply State.setF_ok | apply foldl_ok | apply foldl_ok1 | apply ite_ok | apply ite_ok1 | apply ite_next | apply next_ok | intro _ | dsimp only | split)

theorem execSolLrnSeed_ok {Q : List Instr} (w : WriteReq) (s : State) (hok : Ok Q s) : OkOut Q (execSolLrnSeed w s) := by
  unfold execSolLrnSeed
  with_reducible repeat' (first | assumption | apply State.gated_ok | apply State.gatedAct_ok | apply State.writeSeed_ok | apply foldl_ok | apply foldl_ok1 | apply ite_ok | apply ite_ok1 | apply ite_next | apply next_ok)

theorem State.lrnRead_ok {Q : List Instr} (n : Nat) (s : State) (a : Nat) (hok : Ok Q s) :
    Ok Q (State.lrnRead n s a).1 := by
  induction n generalizing s a with
  | zero => exact hok
  | succ n ih => exact ih _ _ (State.unitRead_ok s a 0 hok)

theorem State.lrnTraces_ok {Q : List Instr} (s : State) (r lo : Nat) (hok : Ok Q s) : Ok Q (State.lrnTraces s r lo).1 := by
  unfold State.lrnTraces
  with_reducible repeat' (first | assumption | apply State.report_ok | apply foldl_ok | apply foldl_ok | apply foldl_ok1 | apply ite_ok | apply ite_ok1 | apply ite_next | apply next_ok | intro _ | dsimp only | split)

theorem State.lrnStore_ok {Q : List Instr} (s : State) (r : Nat) (old : List Byte) (x : RowUp) (hok : Ok Q s) : Ok Q (State.lrnStore s r old x) := by
  unfold State.lrnStore
  with_reducible repeat' (first | assumption | apply State.putTraces_ok | apply State.unitWrite_ok | apply foldl_ok | apply foldl_ok1 | apply ite_ok | apply ite_ok1 | apply ite_next | apply next_ok | intro _)

theorem State.lrnDone_ok {Q : List Instr} (s : State) (lab : List Byte) (status commits clamps : Nat) (hok : Ok Q s) : Ok Q (State.lrnDone s lab status commits clamps) := by
  unfold State.lrnDone
  with_reducible repeat' (first | assumption | apply State.addF_ok | apply State.report_ok | apply State.unitWrite_ok | apply foldl_ok | apply foldl_ok1 | apply ite_ok | apply ite_ok1 | apply ite_next | apply next_ok | intro _)

theorem State.lrnBad_ok {Q : List Instr} (s : State) (lab : List Byte) (idx : Nat) (table cache : Option Nat) (hok : Ok Q s) : Ok Q (State.lrnBad s lab idx table cache) := by
  unfold State.lrnBad
  with_reducible repeat' (first | assumption | apply State.freeNext_ok | apply State.lrnDone_ok | apply State.report_ok)

theorem State.lrnApply_ok {Q : List Instr} (s : State) (lab : List Byte) (idx : Nat) (head : List Byte) (hbad : Option Nat) (hok : Ok Q s) : Ok Q (State.lrnApply s lab idx head hbad) := by
  unfold State.lrnApply
  with_reducible repeat' (first | assumption | apply State.lrnBad_ok | apply State.lrnDone_ok | apply State.lrnRead_ok | apply State.lrnStore_ok | apply State.lrnTraces_ok | apply State.report_ok | apply foldl_ok | apply foldl_ok1 | apply ite_ok | apply ite_ok1 | apply ite_next | apply next_ok | intro _)

theorem execLabelUpdate_ok {Q : List Instr} (errs : List (Fin 4096 × Fin 257 × Bool)) (s : State) (hok : Ok Q s) : OkOut Q (execLabelUpdate errs s) := by
  unfold execLabelUpdate
  with_reducible repeat' (first | assumption | apply State.lrnApply_ok | apply State.lrnDone_ok | apply State.lrnRead_ok | apply State.lrnTraces_ok | apply State.setLearn_ok | apply State.unitRead_ok | apply foldl_ok | apply foldl_ok1 | apply ite_ok | apply ite_ok1 | apply ite_next | apply next_ok | intro _)

end Sys2Proof.Machine
end

