-- ==== Sys2Proof/Laws/Keep/Results.lean ====
section
/-!
SUPPORT. What the operations of Machine/Results.lean keep.
-/

namespace Sys2Proof.Machine

theorem State.outWords_ok {Q : List Instr} (s : State) (p : Nat) (f : Frame) (off n : Nat) (hok : Ok Q s) : Ok Q (State.outWords s p f off n).1 := by
  unfold State.outWords
  with_reducible repeat' (first | assumption | apply State.unitReadEach_ok | apply State.freeBytes_ok | apply foldl_ok | apply foldl_ok1 | apply ite_ok | apply ite_ok1 | apply ite_next | apply next_ok | intro _ | dsimp only | split)

theorem State.cacheCopy_ok {Q : List Instr} (s : State) (p : Nat) (f : Frame) (hok : Ok Q s) : Ok Q (State.cacheCopy s p f) := by
  unfold State.cacheCopy
  with_reducible repeat' (first | assumption | apply State.outWords_ok | apply State.freeNext_ok | apply State.unitReadN_ok | apply State.unitWrite_ok | apply State.unitWriteN_ok | apply foldl_ok | apply foldl_ok1 | apply ite_ok | apply ite_ok1 | apply ite_next | apply next_ok | intro _)

theorem State.resultEvidence_ok {Q : List Instr} (s : State) (p : Nat) (f : Frame) (rec' : List Byte) (hok : Ok Q s) : Ok Q (State.resultEvidence s p f rec') := by
  unfold State.resultEvidence
  with_reducible repeat' (first | assumption | apply State.outWords_ok | apply State.setFree_ok | apply State.unitReadN_ok | apply State.writeEvidence_ok | apply foldl_ok | apply foldl_ok1 | apply ite_ok | apply ite_ok1 | apply ite_next | apply next_ok | intro _)

theorem State.writeRecord_ok {Q : List Instr} (s : State) (p : Nat) (f : Frame) (hok : Ok Q s) : Ok Q (State.writeRecord s p f) := by
  unfold State.writeRecord
  with_reducible repeat' (first | assumption | apply State.addF_ok | apply State.cacheCopy_ok | apply State.freeNext_ok | apply State.irqSource_ok | apply State.onPipe_ok | apply State.resultEvidence_ok | apply State.settleStop_ok | apply State.unitWriteN_ok | apply foldl_ok | apply foldl_ok1 | apply ite_ok | apply ite_ok1 | apply ite_next | apply next_ok | intro _)

theorem State.drainRecord_ok {Q : List Instr} (s : State) (m : Nat) (hok : Ok Q s) : Ok Q (State.drainRecord s m) := by
  unfold State.drainRecord
  with_reducible repeat' (first | assumption | apply State.onStrm_ok | apply State.report_ok | apply State.writeRecord_ok | apply foldl_ok | apply foldl_ok1 | apply ite_ok | apply ite_ok1 | apply ite_next | apply next_ok | intro _ | dsimp only | split)

theorem State.drainRecords_ok {Q : List Instr} (s : State) (m : Nat) (hok : Ok Q s) : Ok Q (State.drainRecords s m) := by
  unfold State.drainRecords
  with_reducible repeat' (first | assumption | apply State.drainRecord_ok | apply foldl_ok | apply foldl_ok1 | apply ite_ok | apply ite_ok1 | apply ite_next | apply next_ok | intro _)

theorem execResultRecordWrite_ok {Q : List Instr} (m : Fin 64) (s : State) (hok : Ok Q s) : OkOut Q (execResultRecordWrite m s) := by
  unfold execResultRecordWrite
  with_reducible repeat' (first | assumption | apply State.drainRecords_ok | apply State.onPipe_ok | apply State.onStrm_ok | apply State.report_ok | apply State.writeRecord_ok | apply foldl_ok | apply foldl_ok1 | apply ite_ok | apply ite_ok1 | apply ite_next | apply next_ok | intro _ | dsimp only | split)

theorem State.writeRingRd_ok {Q : List Instr} (m : Nat) (w : WriteReq) (s : State) (hok : Ok Q s) : Ok Q (State.writeRingRd m w s) := by
  unfold State.writeRingRd
  with_reducible repeat' (first | assumption | apply State.drainRecords_ok | apply State.plainWrite_ok)

theorem execIngStrRingRd_ok {Q : List Instr} (m : Fin 64) (w : WriteReq) (s : State) (hok : Ok Q s) : OkOut Q (execIngStrRingRd m w s) := by
  unfold execIngStrRingRd
  with_reducible repeat' (first | assumption | apply State.gated_ok | apply State.writeRingRd_ok | apply foldl_ok | apply foldl_ok1 | apply ite_ok | apply ite_ok1 | apply ite_next | apply next_ok)

end Sys2Proof.Machine
end

