-- ==== Sys2Proof/Laws/Keep/Control.lean ====
section
/-!
SUPPORT. What the operations of Machine/Control.lean keep.
-/

namespace Sys2Proof.Machine

theorem State.writeIf_ok {Q : List Instr} (s : State) (off : Nat) (w : WriteReq) (ok : State → Bool) (hok : Ok Q s) : Ok Q (State.writeIf s off w ok) := by
  unfold State.writeIf
  with_reducible repeat' (first | assumption | apply State.plainWrite_ok | apply foldl_ok | apply foldl_ok1 | apply ite_ok | apply ite_ok1 | apply ite_next | apply next_ok | intro _)

theorem State.onlyOn_ok {Q : List Instr} (s : State) (off : Nat) (f : State → State) (hf : ∀ s, Ok Q s → Ok Q (f s)) (hok : Ok Q s) : Ok Q (State.onlyOn s off f) := by
  unfold State.onlyOn
  with_reducible repeat' (first | assumption | apply hf | apply foldl_ok | apply foldl_ok1 | apply ite_ok | apply ite_ok1 | apply ite_next | apply next_ok | intro _)

theorem State.writeFltIrq_ok {Q : List Instr} (d off : Nat) (w : WriteReq) (s : State) (hok : Ok Q s) : Ok Q (State.writeFltIrq d off w s) := by
  unfold State.writeFltIrq
  with_reducible repeat' (first | assumption | apply State.fltLevel_ok | exact rfl | apply State.fltAssert_ok | apply State.plainWrite_ok | apply State.setFlt_ok | apply State.setIrq_ok | apply foldl_ok | apply foldl_ok1 | apply ite_ok | apply ite_ok1 | apply ite_next | apply next_ok | intro _)

theorem State.writeStrCfg_ok {Q : List Instr} (m : Nat) (w : WriteReq) (s : State) (hok : Ok Q s) : Ok Q (State.writeStrCfg m w s) := by
  unfold State.writeStrCfg
  with_reducible repeat' (first | assumption | apply State.plainWrite_ok | apply State.setF_ok | apply foldl_ok | apply foldl_ok1 | apply ite_ok | apply ite_ok1 | apply ite_next | apply next_ok | intro _)

theorem State.writeEthCfg_ok {Q : List Instr} (p : Nat) (w : WriteReq) (s : State) (hok : Ok Q s) : Ok Q (State.writeEthCfg p w s) := by
  unfold State.writeEthCfg
  with_reducible repeat' (first | assumption | apply State.plainWrite_ok | apply State.setF_ok | apply foldl_ok | apply foldl_ok1 | apply ite_ok | apply ite_ok1 | apply ite_next | apply next_ok | intro _)

theorem State.writeRingCfg_ok {Q : List Instr} (p : Nat) (tq : Bool) (off : Nat) (w : WriteReq) (s : State) (hok : Ok Q s) : Ok Q (State.writeRingCfg p tq off w s) := by
  unfold State.writeRingCfg
  with_reducible repeat' (first | assumption | apply State.writeIf_ok | apply foldl_ok | apply foldl_ok1 | apply ite_ok | apply ite_ok1 | apply ite_next | apply next_ok | intro _)

theorem State.writeVtArg_ok {Q : List Instr} (c k : Nat) (w : WriteReq) (s : State) (hok : Ok Q s) : Ok Q (State.writeVtArg c k w s) := by
  unfold State.writeVtArg
  with_reducible repeat' (first | assumption | apply State.putVt_ok)

theorem State.writeMgt_ok {Q : List Instr} (o : Nat) (w : WriteReq) (s : State) (hok : Ok Q s) : Ok Q (State.writeMgt o w s) := by
  unfold State.writeMgt
  with_reducible repeat' (first | assumption | apply State.arriveBar_ok | apply State.onlyOn_ok | apply State.plainWrite_ok | apply State.writeBootPcie_ok | apply State.writeDevnum_ok | apply State.writeExpect_ok | apply State.writeHartStart_ok | apply State.writeHbCfg_ok | apply State.writeHbmCtl_ok | apply State.writeIf_ok | apply State.writeMbxBase_ok | apply State.writeMbxCtl_ok | apply State.writeMqCfg_ok | apply State.writePush_ok | apply State.writeReqWr_ok | apply State.writeRevoke_ok | apply State.writeRspRd_ok | apply State.writeStwCtl_ok | apply State.writeWdog_ok | apply foldl_ok | apply foldl_ok1 | apply ite_ok | apply ite_ok1 | apply ite_next | apply next_ok | intro _ | dsimp only | split)

theorem State.writeAlm_ok {Q : List Instr} (off : Nat) (w : WriteReq) (s : State) (hok : Ok Q s) : Ok Q (State.writeAlm off w s) := by
  unfold State.writeAlm
  with_reducible repeat' (first | assumption | apply State.plainWrite_ok | apply State.writeBmCtl_ok | apply State.writeGl_ok | apply State.writePeriod_ok | apply State.writeRate_ok | apply State.writeShrink_ok | apply State.writeSlew_ok | apply State.writeStep_ok | apply foldl_ok | apply foldl_ok1 | apply ite_ok | apply ite_ok1 | apply ite_next | apply next_ok | intro _ | dsimp only | split)

theorem State.writePwr_ok {Q : List Instr} (off : Nat) (w : WriteReq) (s : State) (hok : Ok Q s) : Ok Q (State.writePwr off w s) := by
  unfold State.writePwr
  with_reducible repeat' (first | assumption | apply State.plainWrite_ok | apply State.writeAvs_ok | apply State.writeClk_ok | apply State.writeDomReq_ok | apply State.writeHostClk_ok | apply State.writeIdle_ok | apply State.writeQpll_ok | apply State.writeSleep_ok | apply State.writeVset_ok | apply foldl_ok | apply foldl_ok1 | apply ite_ok | apply ite_ok1 | apply ite_next | apply next_ok | intro _ | dsimp only | split)

theorem State.writeFlt_ok {Q : List Instr} (off : Nat) (w : WriteReq) (s : State) (hok : Ok Q s) : Ok Q (State.writeFlt off w s) := by
  unfold State.writeFlt
  with_reducible repeat' (first | assumption | apply State.plainWrite_ok | apply State.writeFltCtl_ok | apply State.writeFltIrq_ok | apply State.writeFltRing_ok | apply foldl_ok | apply foldl_ok1 | apply ite_ok | apply ite_ok1 | apply ite_next | apply next_ok | intro _ | dsimp only | split)

theorem State.writeWvl_ok {Q : List Instr} (off : Nat) (w : WriteReq) (s : State) (hok : Ok Q s) : Ok Q (State.writeWvl off w s) := by
  unfold State.writeWvl
  with_reducible repeat' (first | assumption | apply State.onlyOn_ok | apply State.plainWrite_ok | apply State.writeUnload_ok | apply State.writeWvlCtl_ok | apply foldl_ok | apply foldl_ok1 | apply ite_ok | apply ite_ok1 | apply ite_next | apply next_ok | intro _)

theorem State.writeIng_ok {Q : List Instr} (off : Nat) (w : WriteReq) (s : State) (hok : Ok Q s) : Ok Q (State.writeIng off w s) := by
  unfold State.writeIng
  with_reducible repeat' (first | assumption | apply State.onlyOn_ok | apply State.plainWrite_ok | apply State.writeBind_ok | apply State.writeEvrCtl_ok | apply State.writeIf_ok | apply State.writeRingRd_ok | apply State.writeRotation_ok | apply State.writeStrCfg_ok | apply foldl_ok | apply foldl_ok1 | apply ite_ok | apply ite_ok1 | apply ite_next | apply next_ok | intro _ | dsimp only | split)

theorem State.writeEth_ok {Q : List Instr} (off : Nat) (w : WriteReq) (s : State) (hok : Ok Q s) : Ok Q (State.writeEth off w s) := by
  unfold State.writeEth
  with_reducible repeat' (first | assumption | apply State.commitEp_ok | apply State.plainWrite_ok | apply State.stageEp_ok | apply State.writeEthCfg_ok | apply State.writeLoop_ok | apply State.writeRingCfg_ok | apply foldl_ok | apply foldl_ok1 | apply ite_ok | apply ite_ok1 | apply ite_next | apply next_ok | intro _ | dsimp only | split)

theorem State.writeQsk_ok {Q : List Instr} (off : Nat) (w : WriteReq) (s : State) (hok : Ok Q s) : Ok Q (State.writeQsk off w s) := by
  unfold State.writeQsk
  with_reducible repeat' (first | assumption | apply State.onlyOn_ok | apply State.plainWrite_ok | apply State.writeIf_ok | apply State.writeLinkCtl_ok | apply State.writeLoop_ok | apply State.writeRouteCtl_ok | apply State.writeTopo_ok | apply foldl_ok | apply foldl_ok1 | apply ite_ok | apply ite_ok1 | apply ite_next | apply next_ok | intro _ | dsimp only | split)

theorem State.writeBgw_ok {Q : List Instr} (off : Nat) (w : WriteReq) (s : State) (hok : Ok Q s) : Ok Q (State.writeBgw off w s) := by
  unfold State.writeBgw
  with_reducible repeat' (first | assumption | apply State.onlyOn_ok | apply State.plainWrite_ok | apply State.writeKeyChk_ok | apply State.writeKeyData_ok | apply State.writeKeyGo_ok | apply State.writeMrBase_ok | apply State.writeMrCtl_ok | apply State.writeMrRd_ok | apply State.writeSrcBase_ok | apply State.writeSrcCfg_ok | apply State.writeSrcRd_ok | apply State.writeTimeCfg_ok | apply State.writeTxGo_ok | apply foldl_ok | apply foldl_ok1 | apply ite_ok | apply ite_ok1 | apply ite_next | apply next_ok | intro _ | dsimp only | split)

theorem State.writeSol_ok {Q : List Instr} (off : Nat) (w : WriteReq) (s : State) (hok : Ok Q s) : Ok Q (State.writeSol off w s) := by
  unfold State.writeSol
  with_reducible repeat' (first | assumption | apply State.onlyOn_ok | apply State.plainWrite_ok | apply State.writeLrn_ok | apply State.writeSeed_ok | apply State.writeSolBist_ok | apply foldl_ok | apply foldl_ok1 | apply ite_ok | apply ite_ok1 | apply ite_next | apply next_ok | intro _ | dsimp only | split)

theorem State.writeCc_ok {Q : List Instr} (off : Nat) (w : WriteReq) (s : State) (hok : Ok Q s) : Ok Q (State.writeCc off w s) := by
  unfold State.writeCc
  with_reducible repeat' (first | assumption | apply State.onlyOn_ok | apply State.plainWrite_ok | apply State.writeBist_ok | apply State.writeFree_ok | apply State.writeKill_ok | apply State.writeTallyCtl_ok | apply State.writeVtArg_ok | apply State.writeVtStart_ok | apply State.writeWindow_ok | apply foldl_ok | apply foldl_ok1 | apply ite_ok | apply ite_ok1 | apply ite_next | apply next_ok | intro _ | dsimp only | split)

theorem State.writeMc_ok {Q : List Instr} (off : Nat) (w : WriteReq) (s : State) (hok : Ok Q s) : Ok Q (State.writeMc off w s) := by
  unfold State.writeMc
  with_reducible repeat' (first | assumption | apply State.onlyOn_ok | apply State.plainWrite_ok | apply State.writeChMap_ok | apply State.writeInj_ok | apply State.writeTgCtl_ok | apply State.writeTrainCtl_ok | apply foldl_ok | apply foldl_ok1 | apply ite_ok | apply ite_ok1 | apply ite_next | apply next_ok | intro _ | dsimp only | split)

theorem State.ctlEffect_ok {Q : List Instr} (off : Nat) (w : WriteReq) (s : State) (hok : Ok Q s) : Ok Q (State.ctlEffect off w s) := by
  unfold State.ctlEffect
  with_reducible repeat' (first | assumption | apply State.plainWrite_ok | apply State.writeAlm_ok | apply State.writeBgw_ok | apply State.writeCc_ok | apply State.writeEth_ok | apply State.writeFlt_ok | apply State.writeIng_ok | apply State.writeMc_ok | apply State.writeMgt_ok | apply State.writePwr_ok | apply State.writeQsk_ok | apply State.writeSol_ok | apply State.writeWvl_ok | apply foldl_ok | apply foldl_ok1 | apply ite_ok | apply ite_ok1 | apply ite_next | apply next_ok | intro _ | dsimp only | split)

theorem State.ctlWrite_ok {Q : List Instr} (s : State) (off : Nat) (w : WriteReq) (hok : Ok Q s) : Ok Q (State.ctlWrite s off w) := by
  unfold State.ctlWrite
  with_reducible repeat' (first | assumption | apply State.answer_ok | apply State.ctlEffect_ok | apply State.gated_ok | apply foldl_ok | apply foldl_ok1 | apply ite_ok | apply ite_ok1 | apply ite_next | apply next_ok | intro _)

theorem execRegisterWrite_ok {Q : List Instr} (x : CtlWrite) (s : State) (hok : Ok Q s) : OkOut Q (execRegisterWrite x s) := by
  unfold execRegisterWrite
  with_reducible repeat' (first | assumption | apply State.ctlWrite_ok | apply State.islWrite_ok | apply foldl_ok | apply foldl_ok1 | apply ite_ok | apply ite_ok1 | apply ite_next | apply next_ok | intro _ | dsimp only | split)

theorem State.ctlClear_ok {Q : List Instr} (s : State) (h : Half) (off : Nat) (hok : Ok Q s) : Ok Q (State.ctlClear s h off) := by
  unfold State.ctlClear
  with_reducible repeat' (first | assumption | apply State.clearRc_ok | apply State.setDenyArmed_ok | apply foldl_ok | apply foldl_ok1 | apply ite_ok | apply ite_ok1 | apply ite_next | apply next_ok | intro _ | dsimp only | split)

theorem State.ctlRead_ok {Q : List Instr} (s : State) (a : Agent) (h : Half) (off : Nat) (hok : Ok Q s) : Ok Q (State.ctlRead s a h off).1 := by
  unfold State.ctlRead
  with_reducible repeat' (first | assumption | apply State.barDrain_ok | apply State.ctlClear_ok | apply State.readNowLo_ok | apply State.readPop_ok | apply foldl_ok | apply foldl_ok1 | apply ite_ok | apply ite_ok1 | apply ite_next | apply next_ok | intro _)

theorem execMgtHostDenyRead_ok {Q : List Instr} (r : ReadReq) (s : State) (hok : Ok Q s) : OkOut Q (execMgtHostDenyRead r s) := by
  unfold execMgtHostDenyRead
  with_reducible repeat' (first | assumption | apply State.answer_ok | apply State.ctlRead_ok | apply foldl_ok | apply foldl_ok1 | apply ite_ok | apply ite_ok1 | apply ite_next | apply next_ok)

theorem execMgtHcmEccRead_ok {Q : List Instr} (r : ReadReq) (s : State) (hok : Ok Q s) : OkOut Q (execMgtHcmEccRead r s) := by
  unfold execMgtHcmEccRead
  with_reducible repeat' (first | assumption | apply State.answer_ok | apply State.ctlRead_ok | apply foldl_ok | apply foldl_ok1 | apply ite_ok | apply ite_ok1 | apply ite_next | apply next_ok)

theorem execPrbsErrRead_ok {Q : List Instr} (k : PrbsSite) (r : ReadReq) (s : State) (hok : Ok Q s) : OkOut Q (execPrbsErrRead k r s) := by
  unfold execPrbsErrRead
  with_reducible repeat' (first | assumption | apply State.answer_ok | apply State.ctlRead_ok | apply foldl_ok | apply foldl_ok1 | apply ite_ok | apply ite_ok1 | apply ite_next | apply next_ok)

end Sys2Proof.Machine
end

