-- ==== Sys2Proof/Laws/Keep/Service.lean ====
section
/-!
SUPPORT. What the operations of Machine/Service.lean keep.
-/

namespace Sys2Proof.Machine

theorem State.remotePart_ok {Q : List Instr} (s : State) (id dev pos addr len : Nat) (data : Option (List Byte)) (hok : Ok Q s) : Ok Q (State.remotePart s id dev pos addr len data) := by
  unfold State.remotePart
  with_reducible repeat' (first | assumption | apply State.addPart_ok | apply State.finishPart_ok | apply State.serviceSend_ok | apply State.setHeld_ok | apply foldl_ok | apply foldl_ok1 | apply ite_ok | apply ite_ok1 | apply ite_next | apply next_ok | intro _)

theorem State.ctlBytes_ok {Q : List Instr} (s : State) (a : Agent) (off n : Nat) (hok : Ok Q s) : Ok Q (State.ctlBytes s a off n).1 := by
  unfold State.ctlBytes
  with_reducible repeat' (first | assumption | apply State.ctlRead_ok | apply foldl_ok | apply foldl_ok1 | apply ite_ok | apply ite_ok1 | apply ite_next | apply next_ok | intro _)

theorem State.ctlPut_ok {Q : List Instr} (s : State) (a : Agent) (off : Nat) (bs : List Byte) (hok : Ok Q s) : Ok Q (State.ctlPut s a off bs).1 := by
  unfold State.ctlPut
  with_reducible repeat' (first | assumption | apply State.ctlWrite_ok | apply foldl_ok | apply foldl_ok1 | apply ite_ok | apply ite_ok1 | apply ite_next | apply next_ok | intro _ | dsimp only | split)

theorem State.badAccess_ok {Q : List Instr} (s : State) (a : Agent) (addr : Nat) (hok : Ok Q s) : Ok Q (State.badAccess s a addr) := by
  unfold State.badAccess
  with_reducible repeat' (first | assumption | apply State.addF_ok | apply State.addrInvalid_ok | apply State.setResp_ok | apply foldl_ok | apply foldl_ok1 | apply ite_ok | apply ite_ok1 | apply ite_next | apply next_ok | intro _)

theorem State.svcAccess_ok {Q : List Instr} (s : State) (a : Agent) (dev addr : Nat) (op : SvcOp) (seen : EccSeen) (hok : Ok Q s) : Ok Q (State.svcAccess s a dev addr op seen) := by
  unfold State.svcAccess
  with_reducible repeat' (first | assumption | apply State.access_ok | apply State.badAccess_ok | apply State.closeReq_ok | apply State.ctlBytes_ok | apply State.ctlPut_ok | apply State.openReq_ok | apply State.remotePart_ok | apply State.setResp_ok | apply foldl_ok | apply foldl_ok1 | apply ite_ok | apply ite_ok1 | apply ite_next | apply next_ok | intro _ | dsimp only | split)

theorem State.reserve_ok {Q : List Instr} (s : State) (h : Nat) (r : Option (Nat × Nat)) (hok : Ok Q s) : Ok Q (State.reserve s h r) := by
  unfold State.reserve
  with_reducible repeat' (first | assumption | apply State.setSync_ok | apply foldl_ok | apply foldl_ok1 | apply ite_ok | apply ite_ok1 | apply ite_next | apply next_ok | intro _ | dsimp only | split)

theorem State.hostAtomic_ok {Q : List Instr} (s : State) (h off addr n : Nat) (op : AmoOp) (x : Nat) (seen : EccSeen) (hok : Ok Q s) : Ok Q (State.hostAtomic s h off addr n op x seen) := by
  unfold State.hostAtomic
  with_reducible repeat' (first | assumption | apply State.answer_ok | apply State.hostRead_ok | apply State.partWrite_ok | apply State.reserve_ok | apply State.setResp_ok | apply foldl_ok | apply foldl_ok1 | apply ite_ok | apply ite_ok1 | apply ite_next | apply next_ok | intro _ | dsimp only | split)

theorem State.svcAtomic_ok {Q : List Instr} (s : State) (a : Agent) (dev addr : Nat) (op : AmoOp) (dword : Bool) (x : Nat) (seen : EccSeen) (hok : Ok Q s) : Ok Q (State.svcAtomic s a dev addr op dword x seen) := by
  unfold State.svcAtomic
  with_reducible repeat' (first | assumption | apply State.badAccess_ok | apply State.hostAtomic_ok | apply State.setResp_ok | apply foldl_ok | apply foldl_ok1 | apply ite_ok | apply ite_ok1 | apply ite_next | apply next_ok | intro _ | dsimp only | split)

theorem execServiceAccess_ok {Q : List Instr} (a : Agent) (addr : BitVec 54) (op : SvcReq) (seen : EccSeen) (s : State) (hok : Ok Q s) : OkOut Q (execServiceAccess a addr op seen s) := by
  unfold execServiceAccess
  with_reducible repeat' (first | assumption | apply State.svcAccess_ok | apply State.svcAtomic_ok | apply next_ok | apply foldl_ok | apply foldl_ok1 | apply ite_ok | apply ite_ok1 | apply ite_next | apply next_ok | intro _ | dsimp only | split)

theorem State.unsupported_ok {Q : List Instr} (s : State) (hok : Ok Q s) : Ok Q (State.unsupported s) := by
  unfold State.unsupported
  with_reducible repeat' (first | assumption | apply State.addF_ok | apply State.setResp_ok)

theorem State.msixPut_ok {Q : List Instr} (s : State) (off : Nat) (bs : List Byte) (e : Nat) (hok : Ok Q s) : Ok Q (State.msixPut s off bs e) := by
  unfold State.msixPut
  with_reducible repeat' (first | assumption | apply State.putMsix_ok | apply State.sendMsix_ok | apply foldl_ok | apply foldl_ok1 | apply ite_ok | apply ite_ok1 | apply ite_next | apply next_ok | intro _)

theorem State.pcieAccess_ok {Q : List Instr} (s : State) (bar off : Nat) (op : SvcOp) (seen : EccSeen) (hok : Ok Q s) : Ok Q (State.pcieAccess s bar off op seen) := by
  unfold State.pcieAccess
  with_reducible repeat' (first | assumption | apply State.msixPut_ok | apply State.setResp_ok | apply State.svcAccess_ok | apply State.unsupported_ok | apply foldl_ok | apply foldl_ok1 | apply ite_ok | apply ite_ok1 | apply ite_next | apply next_ok | intro _ | dsimp only | split)

theorem execPcieRequest_ok {Q : List Instr} (q : PcieReq) (seen : EccSeen) (s : State) (hok : Ok Q s) : OkOut Q (execPcieRequest q seen s) := by
  unfold execPcieRequest
  with_reducible repeat' (first | assumption | apply State.pcieAccess_ok | apply State.unsupported_ok | apply foldl_ok | apply foldl_ok1 | apply ite_ok | apply ite_ok1 | apply ite_next | apply next_ok | intro _ | dsimp only | split)

theorem State.farAccess_ok {Q : List Instr} (s : State) (l src req addr : Nat) (op : SvcOp) (seen : EccSeen) (hok : Ok Q s) : Ok Q (State.farAccess s l src req addr op seen) := by
  unfold State.farAccess
  with_reducible repeat' (first | assumption | apply State.access_ok | apply State.ctlBytes_ok | apply State.ctlPut_ok | apply State.emit_ok | apply State.setResp_ok | apply foldl_ok | apply foldl_ok1 | apply ite_ok | apply ite_ok1 | apply ite_next | apply next_ok | intro _ | dsimp only | split)

theorem State.farBarrier_ok {Q : List Instr} (s : State) (w : FarWait) (op gen : Nat) (hok : Ok Q s) : Ok Q (State.farBarrier s w op gen) := by
  unfold State.farBarrier
  with_reducible repeat' (first | assumption | apply State.arriveBar_ok | apply State.farReply_ok | apply State.setSync_ok | apply foldl_ok | apply foldl_ok1 | apply ite_ok | apply ite_ok1 | apply ite_next | apply next_ok | intro _ | dsimp only | split)

theorem State.farQueue_ok {Q : List Instr} (s : State) (w : FarWait) (block : Bool) (hok : Ok Q s) : Ok Q (State.farQueue s w block) := by
  unfold State.farQueue
  with_reducible repeat' (first | assumption | apply State.farReply_ok | apply State.setSync_ok | apply State.trySend_ok | apply foldl_ok | apply foldl_ok1 | apply ite_ok | apply ite_ok1 | apply ite_next | apply next_ok | intro _)

theorem State.threadResponse_ok {Q : List Instr} (s : State) (c j src st : Nat) (data : List Byte) (hok : Ok Q s) : Ok Q (State.threadResponse s c j src st data) := by
  unfold State.threadResponse
  with_reducible repeat' (first | assumption | apply State.fenceAll_ok | apply State.freeNext_ok | apply State.putSx_ok | apply State.wake_ok | apply foldl_ok | apply foldl_ok1 | apply ite_ok | apply ite_ok1 | apply ite_next | apply next_ok | intro _ | dsimp only | split)

theorem State.farResponse_ok {Q : List Instr} (s : State) (src req st : Nat) (data : List Byte) (hok : Ok Q s) : Ok Q (State.farResponse s src req st data) := by
  unfold State.farResponse
  with_reducible repeat' (first | assumption | apply State.setSync_ok | apply State.finishPart_ok | apply State.setHeld_ok | apply State.threadResponse_ok | apply foldl_ok | apply foldl_ok1 | apply ite_ok | apply ite_ok1 | apply ite_next | apply next_ok | intro _ | dsimp only | split)

theorem State.routeOn_ok {Q : List Instr} (s : State) (dest : Nat) (u : SvcUnit) (hok : Ok Q s) : Ok Q (State.routeOn s dest u) := by
  unfold State.routeOn
  with_reducible repeat' (first | assumption | apply State.emit_ok | apply foldl_ok | apply foldl_ok1 | apply ite_ok | apply ite_ok1 | apply ite_next | apply next_ok | intro _ | dsimp only | split)

theorem execServiceUnit_ok {Q : List Instr} (l : Fin 8) (u : SvcFrame) (seen : EccSeen) (s : State) (hok : Ok Q s) : OkOut Q (execServiceUnit l u seen s) := by
  unfold execServiceUnit
  with_reducible repeat' (first | assumption | apply State.access_ok | apply State.expireFar_ok | apply State.farAccess_ok | apply State.farBarrier_ok | apply State.farQueue_ok | apply State.farResponse_ok | apply State.routeOn_ok | apply next_ok | apply foldl_ok | apply foldl_ok1 | apply ite_ok | apply ite_ok1 | apply ite_next | apply next_ok | intro _ | dsimp only | split)

end Sys2Proof.Machine
end

