-- ==== Sys2Proof/Laws/Keep/Mailbox.lean ====
section
/-!
SUPPORT. What the operations of Machine/Mailbox.lean keep.
-/

namespace Sys2Proof.Machine

theorem State.serve_ok {Q : List Instr} (s : State) (c op : Nat) (body : List Byte → State → State) (hbody : ∀ bs s, Ok Q s → Ok Q (body bs s)) (hok : Ok Q s) : Ok Q (State.serve s c op body) := by
  unfold State.serve
  with_reducible repeat' (first | assumption | apply State.meetHead_ok | apply hbody | apply State.mbxAnswer_ok | apply foldl_ok | apply foldl_ok1 | apply ite_ok | apply ite_ok1 | apply ite_next | apply next_ok | intro _ | dsimp only | split)

theorem execMbxPing_ok {Q : List Instr} (c : Fin 2) (s : State) (hok : Ok Q s) : OkOut Q (execMbxPing c s) := by
  unfold execMbxPing
  with_reducible repeat' (first | assumption | apply State.mbxAnswer_ok | apply State.serve_ok | apply foldl_ok | apply foldl_ok1 | apply ite_ok | apply ite_ok1 | apply ite_next | apply next_ok | intro _)

theorem execMbxVersion_ok {Q : List Instr} (c : Fin 2) (s : State) (hok : Ok Q s) : OkOut Q (execMbxVersion c s) := by
  unfold execMbxVersion
  with_reducible repeat' (first | assumption | apply State.mbxAnswer_ok | apply State.serve_ok | apply foldl_ok | apply foldl_ok1 | apply ite_ok | apply ite_ok1 | apply ite_next | apply next_ok | intro _)

theorem execMbxGetPolicy_ok {Q : List Instr} (c : Fin 2) (s : State) (hok : Ok Q s) : OkOut Q (execMbxGetPolicy c s) := by
  unfold execMbxGetPolicy
  with_reducible repeat' (first | assumption | apply State.mbxAnswer_ok | apply State.serve_ok | apply foldl_ok | apply foldl_ok1 | apply ite_ok | apply ite_ok1 | apply ite_next | apply next_ok | intro _)

theorem execMbxSetPolicy_ok {Q : List Instr} (c : Fin 2) (s : State) (hok : Ok Q s) : OkOut Q (execMbxSetPolicy c s) := by
  unfold execMbxSetPolicy
  with_reducible repeat' (first | assumption | apply State.mbxAnswer_ok | apply State.serve_ok | apply State.setParam_ok | apply foldl_ok | apply foldl_ok1 | apply ite_ok | apply ite_ok1 | apply ite_next | apply next_ok | intro _)

theorem execMbxSeed_ok {Q : List Instr} (c : Fin 2) (s : State) (hok : Ok Q s) : OkOut Q (execMbxSeed c s) := by
  unfold execMbxSeed
  with_reducible repeat' (first | assumption | apply State.mbxAnswer_ok | apply State.onlyOn_ok | apply State.serve_ok | apply State.writeSeed_ok | apply foldl_ok | apply foldl_ok1 | apply ite_ok | apply ite_ok1 | apply ite_next | apply next_ok | intro _)

theorem execMbxFwStage_ok {Q : List Instr} (c : Fin 2) (s : State) (hok : Ok Q s) : OkOut Q (execMbxFwStage c s) := by
  unfold execMbxFwStage
  with_reducible repeat' (first | assumption | apply State.meetN_ok | apply State.mbxAnswer_ok | apply State.putNor_ok | apply State.serve_ok | apply foldl_ok | apply foldl_ok1 | apply ite_ok | apply ite_ok1 | apply ite_next | apply next_ok | intro _)

theorem execMbxFwSvnCommit_ok {Q : List Instr} (c : Fin 2) (s : State) (hok : Ok Q s) : OkOut Q (execMbxFwSvnCommit c s) := by
  unfold execMbxFwSvnCommit
  with_reducible repeat' (first | assumption | apply State.mbxAnswer_ok | apply State.serve_ok | apply State.setF_ok | apply foldl_ok | apply foldl_ok1 | apply ite_ok | apply ite_ok1 | apply ite_next | apply next_ok | intro _)

theorem execMbxDeviceReset_ok {Q : List Instr} (c : Fin 2) (s : State) (hok : Ok Q s) : OkOut Q (execMbxDeviceReset c s) := by
  unfold execMbxDeviceReset
  with_reducible repeat' (first | assumption | apply State.deviceReset_ok | apply State.mbxAnswer_ok | apply State.serve_ok | apply foldl_ok | apply foldl_ok1 | apply ite_ok | apply ite_ok1 | apply ite_next | apply next_ok | intro _)

theorem execMbxPortCfg_ok {Q : List Instr} (c : Fin 2) (s : State) (hok : Ok Q s) : OkOut Q (execMbxPortCfg c s) := by
  unfold execMbxPortCfg
  with_reducible repeat' (first | assumption | apply State.mbxAnswer_ok | apply State.serve_ok | apply State.writeEthCfg_ok | apply foldl_ok | apply foldl_ok1 | apply ite_ok | apply ite_ok1 | apply ite_next | apply next_ok | intro _)

theorem execMbxTimeStatus_ok {Q : List Instr} (c : Fin 2) (s : State) (hok : Ok Q s) : OkOut Q (execMbxTimeStatus c s) := by
  unfold execMbxTimeStatus
  with_reducible repeat' (first | assumption | apply State.mbxAnswer_ok | apply State.serve_ok | apply foldl_ok | apply foldl_ok1 | apply ite_ok | apply ite_ok1 | apply ite_next | apply next_ok | intro _)

theorem State.armAt_ok {Q : List Instr} (s : State) (n g b : Nat) (hok : Ok Q s) : Ok Q (State.armAt s n g b).1 := by
  unfold State.armAt
  with_reducible repeat' (first | assumption | apply State.armBeat_ok | apply State.setF_ok | apply State.writePeriod_ok | apply foldl_ok | apply foldl_ok1 | apply ite_ok | apply ite_ok1 | apply ite_next | apply next_ok | intro _)

theorem execMbxArm_ok {Q : List Instr} (c : Fin 2) (s : State) (hok : Ok Q s) : OkOut Q (execMbxArm c s) := by
  unfold execMbxArm
  with_reducible repeat' (first | assumption | apply State.armAt_ok | apply State.mbxAnswer_ok | apply State.serve_ok | apply foldl_ok | apply foldl_ok1 | apply ite_ok | apply ite_ok1 | apply ite_next | apply next_ok | intro _)

theorem State.stopAnswer_ok {Q : List Instr} (s : State) (c n : Nat) (hok : Ok Q s) : Ok Q (State.stopAnswer s c n) := by
  unfold State.stopAnswer
  with_reducible repeat' (first | assumption | apply State.mbxAnswer_ok | apply State.setJob_ok | apply foldl_ok | apply foldl_ok1 | apply ite_ok | apply ite_ok1 | apply ite_next | apply next_ok | intro _)

theorem execMbxStop_ok {Q : List Instr} (c : Fin 2) (s : State) (hok : Ok Q s) : OkOut Q (execMbxStop c s) := by
  unfold execMbxStop
  with_reducible repeat' (first | assumption | apply State.mbxAnswer_ok | apply State.serve_ok | apply State.stopAnswer_ok | apply State.stopBeat_ok | apply foldl_ok | apply foldl_ok1 | apply ite_ok | apply ite_ok1 | apply ite_next | apply next_ok | intro _ | dsimp only | split)

theorem State.loaderGo_ok {Q : List Instr} (s : State) (r : LoadReq) (hok : Ok Q s) : Ok Q (State.loaderGo s r) := by
  unfold State.loaderGo
  with_reducible repeat' (first | assumption | apply State.meetN_ok | apply State.freeNext_ok | apply State.setF_ok | apply State.startRequest_ok)

theorem State.retainFree_ok {Q : List Instr} (s : State) (hok : Ok Q s) : Ok Q (State.retainFree s) := by
  unfold State.retainFree
  with_reducible repeat' (first | assumption | apply State.writeDomReq_ok | apply foldl_ok | apply foldl_ok1 | apply ite_ok | apply ite_ok1 | apply ite_next | apply next_ok | intro _)

theorem State.loadGo_ok {Q : List Instr} (s : State) (c : Nat) (q : List Byte) (hok : Ok Q s) : Ok Q (State.loadGo s c q) := by
  unfold State.loadGo
  with_reducible repeat' (first | assumption | apply State.loaderGo_ok | apply State.mbxAnswer_ok | apply State.setJob_ok | apply foldl_ok | apply foldl_ok1 | apply ite_ok | apply ite_ok1 | apply ite_next | apply next_ok | intro _ | dsimp only | split)

theorem State.loadAnswer_ok {Q : List Instr} (s : State) (c n : Nat) (hok : Ok Q s) : Ok Q (State.loadAnswer s c n) := by
  unfold State.loadAnswer
  with_reducible repeat' (first | assumption | apply State.mbxAnswer_ok | apply foldl_ok | apply foldl_ok1 | apply ite_ok | apply ite_ok1 | apply ite_next | apply next_ok | intro _)

theorem execMbxLoad_ok {Q : List Instr} (c : Fin 2) (s : State) (hok : Ok Q s) : OkOut Q (execMbxLoad c s) := by
  unfold execMbxLoad
  with_reducible repeat' (first | assumption | apply State.loadAnswer_ok | apply State.loadGo_ok | apply State.mbxAnswer_ok | apply State.retainFree_ok | apply State.serve_ok | apply State.setJob_ok | apply foldl_ok | apply foldl_ok1 | apply ite_ok | apply ite_ok1 | apply ite_next | apply next_ok | intro _ | dsimp only | split)

theorem execMbxUnload_ok {Q : List Instr} (c : Fin 2) (s : State) (hok : Ok Q s) : OkOut Q (execMbxUnload c s) := by
  unfold execMbxUnload
  with_reducible repeat' (first | assumption | apply State.mbxAnswer_ok | apply State.serve_ok | apply State.writeUnload_ok | apply foldl_ok | apply foldl_ok1 | apply ite_ok | apply ite_ok1 | apply ite_next | apply next_ok | intro _)

theorem State.putRot_ok {Q : List Instr} (s : State) (n : Nat) (ws : List W64) (hok : Ok Q s) : Ok Q (State.putRot s n ws) := by
  unfold State.putRot
  with_reducible repeat' (first | assumption | apply State.writeRotation_ok | apply foldl_ok | apply foldl_ok1 | apply ite_ok | apply ite_ok1 | apply ite_next | apply next_ok | intro _)

theorem State.recoveryFailed_ok {Q : List Instr} (s : State) (n code : Nat) (hok : Ok Q s) : Ok Q (State.recoveryFailed s n code) := by
  unfold State.recoveryFailed
  with_reducible repeat' (first | assumption | apply State.mbxEvent_ok)

theorem State.recoverEnd_ok {Q : List Instr} (s : State) (n : Nat) (ms : List Nat) (ws : List W64) (g b : Nat) (hok : Ok Q s) : Ok Q (State.recoverEnd s n ms ws g b) := by
  unfold State.recoverEnd
  with_reducible repeat' (first | assumption | apply State.armAt_ok | apply State.mbxEvent_ok | apply State.putRot_ok | apply State.recoveryFailed_ok | apply State.writeBind_ok | apply foldl_ok | apply foldl_ok1 | apply ite_ok | apply ite_ok1 | apply ite_next | apply next_ok | intro _)

theorem State.recover_ok {Q : List Instr} (s : State) (n : Nat) (hok : Ok Q s) : Ok Q (State.recover s n) := by
  unfold State.recover
  with_reducible repeat' (first | assumption | apply State.finishLoad_ok | apply State.loaderGo_ok | apply State.putRot_ok | apply State.recoverEnd_ok | apply State.recoveryFailed_ok | apply State.stopBeat_ok | apply State.writeBind_ok | apply State.writeUnload_ok | apply foldl_ok | apply foldl_ok1 | apply ite_ok | apply ite_ok1 | apply ite_next | apply next_ok | intro _)

theorem execRecovery_ok {Q : List Instr} (n : Fin 4) (s : State) (hok : Ok Q s) : OkOut Q (execRecovery n s) := by
  unfold execRecovery
  with_reducible repeat' (first | assumption | apply State.recover_ok | apply foldl_ok | apply foldl_ok1 | apply ite_ok | apply ite_ok1 | apply ite_next | apply next_ok | intro _)

theorem State.setLock_ok {Q : List Instr} (s : State) (on : Bool) (code : Nat) (result : List Byte) (hok : Ok Q s) : Ok Q (State.setLock s on code result) := by
  unfold State.setLock
  with_reducible repeat' (first | assumption | apply State.mbxEvent_ok | apply State.setF_ok | apply State.setStw_ok)

theorem State.correct_ok {Q : List Instr} (s : State) (offset : Int) (hok : Ok Q s) : Ok Q (State.correct s offset) := by
  unfold State.correct
  with_reducible repeat' (first | assumption | apply State.writeSlew_ok | apply State.writeStep_ok | apply foldl_ok | apply foldl_ok1 | apply ite_ok | apply ite_ok1 | apply ite_next | apply next_ok | intro _)

theorem execGptpServo_ok {Q : List Instr} (offset : Int) (gm : W64) (s : State) (hok : Ok Q s) : OkOut Q (execGptpServo offset gm s) := by
  unfold execGptpServo
  with_reducible repeat' (first | assumption | apply State.correct_ok | apply State.setLock_ok | apply State.setStw_ok | apply foldl_ok | apply foldl_ok1 | apply ite_ok | apply ite_ok1 | apply ite_next | apply next_ok | intro _)

theorem execGptpSyncTimeout_ok {Q : List Instr} (s : State) (hok : Ok Q s) : OkOut Q (execGptpSyncTimeout s) := by
  unfold execGptpSyncTimeout
  with_reducible repeat' (first | assumption | apply State.setLock_ok | apply State.setStw_ok | apply foldl_ok | apply foldl_ok1 | apply ite_ok | apply ite_ok1 | apply ite_next | apply next_ok | intro _)

end Sys2Proof.Machine
end

