-- ==== Sys2Proof/Laws/Keep/Startup.lean ====
section
/-!
SUPPORT. What the operations of Machine/Startup.lean keep.
-/

namespace Sys2Proof.Machine

theorem State.turnOn_ok {Q : List Instr} (s : State) (ds : List Nat) (hok : Ok Q s) : Ok Q (State.turnOn s ds) := by
  unfold State.turnOn
  with_reducible repeat' (first | assumption | apply State.writeDomReq_ok | apply foldl_ok | apply foldl_ok1 | apply ite_ok | apply ite_ok1 | apply ite_next | apply next_ok | intro _)

theorem State.setStep_ok {Q : List Instr} (s : State) (n : Nat) (hok : Ok Q s) : Ok Q (State.setStep s n) := by
  unfold State.setStep
  with_reducible repeat' (first | assumption | apply State.setStw_ok)

theorem State.toPhase_ok {Q : List Instr} (s : State) (p : Nat) (hok : Ok Q s) : Ok Q (State.toPhase s p) := by
  unfold State.toPhase
  with_reducible repeat' (first | assumption | apply State.phase_ok | apply State.setStep_ok)

theorem State.openFaults_ok {Q : List Instr} (s : State) (hok : Ok Q s) : Ok Q (State.openFaults s) := by
  unfold State.openFaults
  with_reducible repeat' (first | assumption | apply State.toPhase_ok | apply State.writeFltCtl_ok | apply State.writeFltRing_ok)

theorem State.commitMap_ok {Q : List Instr} (s : State) (hok : Ok Q s) : Ok Q (State.commitMap s) := by
  unfold State.commitMap
  with_reducible repeat' (first | assumption | apply State.bootError_ok | apply State.toPhase_ok | apply State.writeChMap_ok | apply State.writeHbmCtl_ok | apply foldl_ok | apply foldl_ok1 | apply ite_ok | apply ite_ok1 | apply ite_next | apply next_ok | intro _)

theorem State.trainHbm_ok {Q : List Instr} (s : State) (hok : Ok Q s) : Ok Q (State.trainHbm s) := by
  unfold State.trainHbm
  with_reducible repeat' (first | assumption | apply State.commitMap_ok | apply State.setStep_ok | apply State.turnOn_ok | apply State.writeTrainCtl_ok | apply foldl_ok | apply foldl_ok1 | apply ite_ok | apply ite_ok1 | apply ite_next | apply next_ok | intro _ | dsimp only | split)

theorem State.applyBoard_ok {Q : List Instr} (s : State) (hok : Ok Q s) : Ok Q (State.applyBoard s) := by
  unfold State.applyBoard
  with_reducible repeat' (first | assumption | apply State.setF_ok | apply State.toPhase_ok | apply State.turnOn_ok | apply State.writeDevnum_ok | apply State.writeTopo_ok | apply foldl_ok | apply foldl_ok1 | apply ite_ok | apply ite_ok1 | apply ite_next | apply next_ok | intro _)

theorem State.selfTests_ok {Q : List Instr} (s : State) (hok : Ok Q s) : Ok Q (State.selfTests s) := by
  unfold State.selfTests
  with_reducible repeat' (first | assumption | apply State.applyBoard_ok | apply State.setStep_ok | apply State.writeBist_ok | apply State.writeDomReq_ok | apply State.writeSolBist_ok | apply foldl_ok | apply foldl_ok1 | apply ite_ok | apply ite_ok1 | apply ite_next | apply next_ok | intro _ | dsimp only | split)

theorem State.startHost_ok {Q : List Instr} (s : State) (hok : Ok Q s) : Ok Q (State.startHost s) := by
  unfold State.startHost
  with_reducible repeat' (first | assumption | apply State.grantHost_ok | apply State.toPhase_ok | apply State.turnOn_ok)

theorem State.bringUp_ok {Q : List Instr} (s : State) (hok : Ok Q s) : Ok Q (State.bringUp s) := by
  unfold State.bringUp
  with_reducible repeat' (first | assumption | apply State.setStep_ok | apply State.startHost_ok | apply State.writeEthCfg_ok | apply State.writeLinkCtl_ok | apply foldl_ok | apply foldl_ok1 | apply ite_ok | apply ite_ok1 | apply ite_next | apply next_ok | intro _ | dsimp only | split)

theorem State.hostLoader_ok {Q : List Instr} (s : State) (hok : Ok Q s) : Ok Q (State.hostLoader s) := by
  unfold State.hostLoader
  with_reducible repeat' (first | assumption | apply State.bootError_ok | apply State.releaseHart_ok | apply State.setF_ok | apply State.wrBytes_ok | apply foldl_ok | apply foldl_ok1 | apply ite_ok | apply ite_ok1 | apply ite_next | apply next_ok | intro _)

theorem State.services_ok {Q : List Instr} (s : State) (hok : Ok Q s) : Ok Q (State.services s) := by
  unfold State.services
  with_reducible repeat' (first | assumption | apply State.applyAll_ok | apply State.hostLoader_ok | apply State.setStw_ok | apply State.tellStarted_ok | apply State.toPhase_ok)

theorem execStewardStartSequence_ok {Q : List Instr} (s : State) (hok : Ok Q s) : OkOut Q (execStewardStartSequence s) := by
  unfold execStewardStartSequence
  with_reducible repeat' (first | assumption | apply State.bringUp_ok | apply State.openFaults_ok | apply State.selfTests_ok | apply State.services_ok | apply State.toPhase_ok | apply State.trainHbm_ok | apply State.turnOn_ok | apply foldl_ok | apply foldl_ok1 | apply ite_ok | apply ite_ok1 | apply ite_next | apply next_ok | intro _ | dsimp only | split)

end Sys2Proof.Machine
end

