-- ==== Sys2Proof/Laws/Keep/VectorInt.lean ====
section
/-!
SUPPORT. What the operations of Machine/VectorInt.lean keep.
-/

namespace Sys2Proof.Machine

theorem State.intOp_ok {Q : List Instr} (s : State) (v : VecInstr) (f : Int → Int → Flagged) (hok : Ok Q s) : Ok Q (State.intOp s v f) := by
  unfold State.intOp
  with_reducible repeat' (first | assumption | apply State.writeVd_ok)

theorem State.bitOp_ok {Q : List Instr} (s : State) (v : VecInstr) (f : Nat → Nat → Nat) (hok : Ok Q s) : Ok Q (State.bitOp s v f) := by
  unfold State.bitOp
  with_reducible repeat' (first | assumption | apply State.writeVd_ok)

theorem State.issueInt_ok {Q : List Instr} (s : State) (v : VecInstr) (k : Nat) (body : State → State) (hbody : ∀ s, Ok Q s → Ok Q (body s)) (hok : Ok Q s) : Ok Q (State.issueInt s v k body) := by
  unfold State.issueInt
  with_reducible repeat' (first | assumption | apply hbody | apply State.issue_ok)

theorem execAdd_ok {Q : List Instr} (v : VecInstr) (s : State) (hok : Ok Q s) : OkOut Q (execAdd v s) := by
  unfold execAdd
  with_reducible repeat' (first | assumption | apply State.intOp_ok | apply State.issueInt_ok | apply foldl_ok | apply foldl_ok1 | apply ite_ok | apply ite_ok1 | apply ite_next | apply next_ok | intro _)

theorem execAdds_ok {Q : List Instr} (v : VecInstr) (s : State) (hok : Ok Q s) : OkOut Q (execAdds v s) := by
  unfold execAdds
  with_reducible repeat' (first | assumption | apply State.intOp_ok | apply State.issueInt_ok | apply foldl_ok | apply foldl_ok1 | apply ite_ok | apply ite_ok1 | apply ite_next | apply next_ok | intro _)

theorem execSub_ok {Q : List Instr} (v : VecInstr) (s : State) (hok : Ok Q s) : OkOut Q (execSub v s) := by
  unfold execSub
  with_reducible repeat' (first | assumption | apply State.intOp_ok | apply State.issueInt_ok | apply foldl_ok | apply foldl_ok1 | apply ite_ok | apply ite_ok1 | apply ite_next | apply next_ok | intro _)

theorem execSubs_ok {Q : List Instr} (v : VecInstr) (s : State) (hok : Ok Q s) : OkOut Q (execSubs v s) := by
  unfold execSubs
  with_reducible repeat' (first | assumption | apply State.intOp_ok | apply State.issueInt_ok | apply foldl_ok | apply foldl_ok1 | apply ite_ok | apply ite_ok1 | apply ite_next | apply next_ok | intro _)

theorem execMul_ok {Q : List Instr} (v : VecInstr) (s : State) (hok : Ok Q s) : OkOut Q (execMul v s) := by
  unfold execMul
  with_reducible repeat' (first | assumption | apply State.intOp_ok | apply State.issueInt_ok | apply foldl_ok | apply foldl_ok1 | apply ite_ok | apply ite_ok1 | apply ite_next | apply next_ok | intro _)

theorem execMulh_ok {Q : List Instr} (v : VecInstr) (s : State) (hok : Ok Q s) : OkOut Q (execMulh v s) := by
  unfold execMulh
  with_reducible repeat' (first | assumption | apply State.intOp_ok | apply State.issueInt_ok | apply foldl_ok | apply foldl_ok1 | apply ite_ok | apply ite_ok1 | apply ite_next | apply next_ok | intro _)

theorem execMin_ok {Q : List Instr} (v : VecInstr) (s : State) (hok : Ok Q s) : OkOut Q (execMin v s) := by
  unfold execMin
  with_reducible repeat' (first | assumption | apply State.intOp_ok | apply State.issueInt_ok | apply foldl_ok | apply foldl_ok1 | apply ite_ok | apply ite_ok1 | apply ite_next | apply next_ok | intro _)

theorem execMax_ok {Q : List Instr} (v : VecInstr) (s : State) (hok : Ok Q s) : OkOut Q (execMax v s) := by
  unfold execMax
  with_reducible repeat' (first | assumption | apply State.intOp_ok | apply State.issueInt_ok | apply foldl_ok | apply foldl_ok1 | apply ite_ok | apply ite_ok1 | apply ite_next | apply next_ok | intro _)

theorem execAbs_ok {Q : List Instr} (v : VecInstr) (s : State) (hok : Ok Q s) : OkOut Q (execAbs v s) := by
  unfold execAbs
  with_reducible repeat' (first | assumption | apply State.intOp_ok | apply State.issueInt_ok | apply foldl_ok | apply foldl_ok1 | apply ite_ok | apply ite_ok1 | apply ite_next | apply next_ok | intro _)

theorem execDot4_ok {Q : List Instr} (v : VecInstr) (s : State) (hok : Ok Q s) : OkOut Q (execDot4 v s) := by
  unfold execDot4
  with_reducible repeat' (first | assumption | apply State.issue_ok | apply State.orTstat_ok | apply State.putThr_ok | apply foldl_ok | apply foldl_ok1 | apply ite_ok | apply ite_ok1 | apply ite_next | apply next_ok | intro _)

theorem execRshr_ok {Q : List Instr} (v : VecInstr) (s : State) (hok : Ok Q s) : OkOut Q (execRshr v s) := by
  unfold execRshr
  with_reducible repeat' (first | assumption | apply State.issueInt_ok | apply State.writeVd_ok | apply foldl_ok | apply foldl_ok1 | apply ite_ok | apply ite_ok1 | apply ite_next | apply next_ok | intro _)

theorem execCmp_ok {Q : List Instr} (v : VecInstr) (s : State) (hok : Ok Q s) : OkOut Q (execCmp v s) := by
  unfold execCmp
  with_reducible repeat' (first | assumption | apply State.issue_ok | apply State.writeMd_ok | apply foldl_ok | apply foldl_ok1 | apply ite_ok | apply ite_ok1 | apply ite_next | apply next_ok | intro _)

theorem execAnd_ok {Q : List Instr} (v : VecInstr) (s : State) (hok : Ok Q s) : OkOut Q (execAnd v s) := by
  unfold execAnd
  with_reducible repeat' (first | assumption | apply State.bitOp_ok | apply State.issue_ok | apply foldl_ok | apply foldl_ok1 | apply ite_ok | apply ite_ok1 | apply ite_next | apply next_ok | intro _)

theorem execOr_ok {Q : List Instr} (v : VecInstr) (s : State) (hok : Ok Q s) : OkOut Q (execOr v s) := by
  unfold execOr
  with_reducible repeat' (first | assumption | apply State.bitOp_ok | apply State.issue_ok | apply foldl_ok | apply foldl_ok1 | apply ite_ok | apply ite_ok1 | apply ite_next | apply next_ok | intro _)

theorem execXor_ok {Q : List Instr} (v : VecInstr) (s : State) (hok : Ok Q s) : OkOut Q (execXor v s) := by
  unfold execXor
  with_reducible repeat' (first | assumption | apply State.bitOp_ok | apply State.issue_ok | apply foldl_ok | apply foldl_ok1 | apply ite_ok | apply ite_ok1 | apply ite_next | apply next_ok | intro _)

theorem execSll_ok {Q : List Instr} (v : VecInstr) (s : State) (hok : Ok Q s) : OkOut Q (execSll v s) := by
  unfold execSll
  with_reducible repeat' (first | assumption | apply State.bitOp_ok | apply State.issue_ok | apply foldl_ok | apply foldl_ok1 | apply ite_ok | apply ite_ok1 | apply ite_next | apply next_ok | intro _)

theorem execSrl_ok {Q : List Instr} (v : VecInstr) (s : State) (hok : Ok Q s) : OkOut Q (execSrl v s) := by
  unfold execSrl
  with_reducible repeat' (first | assumption | apply State.bitOp_ok | apply State.issue_ok | apply foldl_ok | apply foldl_ok1 | apply ite_ok | apply ite_ok1 | apply ite_next | apply next_ok | intro _)

theorem execSra_ok {Q : List Instr} (v : VecInstr) (s : State) (hok : Ok Q s) : OkOut Q (execSra v s) := by
  unfold execSra
  with_reducible repeat' (first | assumption | apply State.bitOp_ok | apply State.issue_ok | apply foldl_ok | apply foldl_ok1 | apply ite_ok | apply ite_ok1 | apply ite_next | apply next_ok | intro _)

theorem execSel_ok {Q : List Instr} (v : VecInstr) (s : State) (hok : Ok Q s) : OkOut Q (execSel v s) := by
  unfold execSel
  with_reducible repeat' (first | assumption | apply State.issue_ok | apply State.writeVd_ok | apply foldl_ok | apply foldl_ok1 | apply ite_ok | apply ite_ok1 | apply ite_next | apply next_ok | intro _)

theorem execMovi_ok {Q : List Instr} (v : VecInstr) (s : State) (hok : Ok Q s) : OkOut Q (execMovi v s) := by
  unfold execMovi
  with_reducible repeat' (first | assumption | apply State.issue_ok | apply State.writeVd_ok | apply foldl_ok | apply foldl_ok1 | apply ite_ok | apply ite_ok1 | apply ite_next | apply next_ok | intro _)

theorem execBcast_ok {Q : List Instr} (v : VecInstr) (s : State) (hok : Ok Q s) : OkOut Q (execBcast v s) := by
  unfold execBcast
  with_reducible repeat' (first | assumption | apply State.issue_ok | apply State.writeVd_ok | apply foldl_ok | apply foldl_ok1 | apply ite_ok | apply ite_ok1 | apply ite_next | apply next_ok | intro _)

theorem execMovs_ok {Q : List Instr} (v : VecInstr) (s : State) (hok : Ok Q s) : OkOut Q (execMovs v s) := by
  unfold execMovs
  with_reducible repeat' (first | assumption | apply State.freeNext_ok | apply State.issue_ok | apply State.writeSd_ok | apply foldl_ok | apply foldl_ok1 | apply ite_ok | apply ite_ok1 | apply ite_next | apply next_ok | intro _)

theorem execPerm_ok {Q : List Instr} (v : VecInstr) (s : State) (hok : Ok Q s) : OkOut Q (execPerm v s) := by
  unfold execPerm
  with_reducible repeat' (first | assumption | apply State.issue_ok | apply State.writeVd_ok | apply foldl_ok | apply foldl_ok1 | apply ite_ok | apply ite_ok1 | apply ite_next | apply next_ok | intro _)

theorem execSlide_ok {Q : List Instr} (v : VecInstr) (s : State) (hok : Ok Q s) : OkOut Q (execSlide v s) := by
  unfold execSlide
  with_reducible repeat' (first | assumption | apply State.issue_ok | apply State.writeVd_ok | apply foldl_ok | apply foldl_ok1 | apply ite_ok | apply ite_ok1 | apply ite_next | apply next_ok | intro _)

theorem execRsum_ok {Q : List Instr} (v : VecInstr) (s : State) (hok : Ok Q s) : OkOut Q (execRsum v s) := by
  unfold execRsum
  with_reducible repeat' (first | assumption | apply State.issueInt_ok | apply State.writeSd_ok | apply foldl_ok | apply foldl_ok1 | apply ite_ok | apply ite_ok1 | apply ite_next | apply next_ok | intro _)

theorem State.reduceInt_ok {Q : List Instr} (s : State) (v : VecInstr) (better : Int → Int → Bool) (hok : Ok Q s) : Ok Q (State.reduceInt s v better) := by
  unfold State.reduceInt
  with_reducible repeat' (first | assumption | apply State.writeSd_ok | apply foldl_ok | apply foldl_ok1 | apply ite_ok | apply ite_ok1 | apply ite_next | apply next_ok | intro _ | dsimp only | split)

theorem execRmax_ok {Q : List Instr} (v : VecInstr) (s : State) (hok : Ok Q s) : OkOut Q (execRmax v s) := by
  unfold execRmax
  with_reducible repeat' (first | assumption | apply State.issueInt_ok | apply State.reduceInt_ok | apply foldl_ok | apply foldl_ok1 | apply ite_ok | apply ite_ok1 | apply ite_next | apply next_ok | intro _)

theorem execRmin_ok {Q : List Instr} (v : VecInstr) (s : State) (hok : Ok Q s) : OkOut Q (execRmin v s) := by
  unfold execRmin
  with_reducible repeat' (first | assumption | apply State.issueInt_ok | apply State.reduceInt_ok | apply foldl_ok | apply foldl_ok1 | apply ite_ok | apply ite_ok1 | apply ite_next | apply next_ok | intro _)

end Sys2Proof.Machine
end

