-- ==== Sys2Proof/Laws/Keep/VectorFp.lean ====
section
/-!
SUPPORT. What the operations of Machine/VectorFp.lean keep.
-/

namespace Sys2Proof.Machine

theorem State.issueFp_ok {Q : List Instr} (s : State) (v : VecInstr) (k : Nat) (body : State → State) (hbody : ∀ s, Ok Q s → Ok Q (body s)) (hok : Ok Q s) : Ok Q (State.issueFp s v k body) := by
  unfold State.issueFp
  with_reducible repeat' (first | assumption | apply hbody | apply State.issue_ok)

theorem State.fpOp_ok {Q : List Instr} (s : State) (v : VecInstr) (f : Fmt → Nat → Nat → Nat → Flagged) (hok : Ok Q s) : Ok Q (State.fpOp s v f) := by
  unfold State.fpOp
  with_reducible repeat' (first | assumption | apply State.writeVd_ok)

theorem execFadd_ok {Q : List Instr} (v : VecInstr) (s : State) (hok : Ok Q s) : OkOut Q (execFadd v s) := by
  unfold execFadd
  with_reducible repeat' (first | assumption | apply State.fpOp_ok | apply State.issueFp_ok | apply foldl_ok | apply foldl_ok1 | apply ite_ok | apply ite_ok1 | apply ite_next | apply next_ok | intro _)

theorem execFsub_ok {Q : List Instr} (v : VecInstr) (s : State) (hok : Ok Q s) : OkOut Q (execFsub v s) := by
  unfold execFsub
  with_reducible repeat' (first | assumption | apply State.fpOp_ok | apply State.issueFp_ok | apply foldl_ok | apply foldl_ok1 | apply ite_ok | apply ite_ok1 | apply ite_next | apply next_ok | intro _)

theorem execFmul_ok {Q : List Instr} (v : VecInstr) (s : State) (hok : Ok Q s) : OkOut Q (execFmul v s) := by
  unfold execFmul
  with_reducible repeat' (first | assumption | apply State.fpOp_ok | apply State.issueFp_ok | apply foldl_ok | apply foldl_ok1 | apply ite_ok | apply ite_ok1 | apply ite_next | apply next_ok | intro _)

theorem execFfma_ok {Q : List Instr} (v : VecInstr) (s : State) (hok : Ok Q s) : OkOut Q (execFfma v s) := by
  unfold execFfma
  with_reducible repeat' (first | assumption | apply State.fpOp_ok | apply State.issueFp_ok | apply foldl_ok | apply foldl_ok1 | apply ite_ok | apply ite_ok1 | apply ite_next | apply next_ok | intro _)

theorem execFdiv_ok {Q : List Instr} (v : VecInstr) (s : State) (hok : Ok Q s) : OkOut Q (execFdiv v s) := by
  unfold execFdiv
  with_reducible repeat' (first | assumption | apply State.fpOp_ok | apply State.issueFp_ok | apply foldl_ok | apply foldl_ok1 | apply ite_ok | apply ite_ok1 | apply ite_next | apply next_ok | intro _)

theorem execFsqrt_ok {Q : List Instr} (v : VecInstr) (s : State) (hok : Ok Q s) : OkOut Q (execFsqrt v s) := by
  unfold execFsqrt
  with_reducible repeat' (first | assumption | apply State.fpOp_ok | apply State.issueFp_ok | apply foldl_ok | apply foldl_ok1 | apply ite_ok | apply ite_ok1 | apply ite_next | apply next_ok | intro _)

theorem execFmin_ok {Q : List Instr} (v : VecInstr) (s : State) (hok : Ok Q s) : OkOut Q (execFmin v s) := by
  unfold execFmin
  with_reducible repeat' (first | assumption | apply State.fpOp_ok | apply State.issueFp_ok | apply foldl_ok | apply foldl_ok1 | apply ite_ok | apply ite_ok1 | apply ite_next | apply next_ok | intro _)

theorem execFmax_ok {Q : List Instr} (v : VecInstr) (s : State) (hok : Ok Q s) : OkOut Q (execFmax v s) := by
  unfold execFmax
  with_reducible repeat' (first | assumption | apply State.fpOp_ok | apply State.issueFp_ok | apply foldl_ok | apply foldl_ok1 | apply ite_ok | apply ite_ok1 | apply ite_next | apply next_ok | intro _)

theorem execFabs_ok {Q : List Instr} (v : VecInstr) (s : State) (hok : Ok Q s) : OkOut Q (execFabs v s) := by
  unfold execFabs
  with_reducible repeat' (first | assumption | apply State.fpOp_ok | apply State.issueFp_ok | apply foldl_ok | apply foldl_ok1 | apply ite_ok | apply ite_ok1 | apply ite_next | apply next_ok | intro _)

theorem execFneg_ok {Q : List Instr} (v : VecInstr) (s : State) (hok : Ok Q s) : OkOut Q (execFneg v s) := by
  unfold execFneg
  with_reducible repeat' (first | assumption | apply State.fpOp_ok | apply State.issueFp_ok | apply foldl_ok | apply foldl_ok1 | apply ite_ok | apply ite_ok1 | apply ite_next | apply next_ok | intro _)

theorem execFcmp_ok {Q : List Instr} (v : VecInstr) (s : State) (hok : Ok Q s) : OkOut Q (execFcmp v s) := by
  unfold execFcmp
  with_reducible repeat' (first | assumption | apply State.issue_ok | apply State.writeMd_ok | apply foldl_ok | apply foldl_ok1 | apply ite_ok | apply ite_ok1 | apply ite_next | apply next_ok | intro _)

theorem execFclass_ok {Q : List Instr} (v : VecInstr) (s : State) (hok : Ok Q s) : OkOut Q (execFclass v s) := by
  unfold execFclass
  with_reducible repeat' (first | assumption | apply State.fpOp_ok | apply State.issueFp_ok | apply foldl_ok | apply foldl_ok1 | apply ite_ok | apply ite_ok1 | apply ite_next | apply next_ok | intro _)

theorem State.convertOp_ok {Q : List Instr} (s : State) (v : VecInstr) (d : Nat) (f : Nat → Flagged) (hok : Ok Q s) : Ok Q (State.convertOp s v d f) := by
  unfold State.convertOp
  with_reducible repeat' (first | assumption | apply State.orTstat_ok | apply State.putThr_ok)

theorem execFcvt_ok {Q : List Instr} (v : VecInstr) (s : State) (hok : Ok Q s) : OkOut Q (execFcvt v s) := by
  unfold execFcvt
  with_reducible repeat' (first | assumption | apply State.convertOp_ok | apply State.issue_ok | apply foldl_ok | apply foldl_ok1 | apply ite_ok | apply ite_ok1 | apply ite_next | apply next_ok | intro _)

theorem execItof_ok {Q : List Instr} (v : VecInstr) (s : State) (hok : Ok Q s) : OkOut Q (execItof v s) := by
  unfold execItof
  with_reducible repeat' (first | assumption | apply State.convertOp_ok | apply State.issue_ok | apply foldl_ok | apply foldl_ok1 | apply ite_ok | apply ite_ok1 | apply ite_next | apply next_ok | intro _)

theorem execFtoi_ok {Q : List Instr} (v : VecInstr) (s : State) (hok : Ok Q s) : OkOut Q (execFtoi v s) := by
  unfold execFtoi
  with_reducible repeat' (first | assumption | apply State.convertOp_ok | apply State.issue_ok | apply foldl_ok | apply foldl_ok1 | apply ite_ok | apply ite_ok1 | apply ite_next | apply next_ok | intro _)

theorem execFrcp_ok {Q : List Instr} (v : VecInstr) (s : State) (hok : Ok Q s) : OkOut Q (execFrcp v s) := by
  unfold execFrcp
  with_reducible repeat' (first | assumption | apply State.fpOp_ok | apply State.issueFp_ok | apply foldl_ok | apply foldl_ok1 | apply ite_ok | apply ite_ok1 | apply ite_next | apply next_ok | intro _)

theorem execFrsq_ok {Q : List Instr} (v : VecInstr) (s : State) (hok : Ok Q s) : OkOut Q (execFrsq v s) := by
  unfold execFrsq
  with_reducible repeat' (first | assumption | apply State.fpOp_ok | apply State.issueFp_ok | apply foldl_ok | apply foldl_ok1 | apply ite_ok | apply ite_ok1 | apply ite_next | apply next_ok | intro _)

theorem execFexp2_ok {Q : List Instr} (v : VecInstr) (s : State) (hok : Ok Q s) : OkOut Q (execFexp2 v s) := by
  unfold execFexp2
  with_reducible repeat' (first | assumption | apply State.fpOp_ok | apply State.issueFp_ok | apply foldl_ok | apply foldl_ok1 | apply ite_ok | apply ite_ok1 | apply ite_next | apply next_ok | intro _)

theorem execFlog2_ok {Q : List Instr} (v : VecInstr) (s : State) (hok : Ok Q s) : OkOut Q (execFlog2 v s) := by
  unfold execFlog2
  with_reducible repeat' (first | assumption | apply State.fpOp_ok | apply State.issueFp_ok | apply foldl_ok | apply foldl_ok1 | apply ite_ok | apply ite_ok1 | apply ite_next | apply next_ok | intro _)

theorem execFexp_ok {Q : List Instr} (v : VecInstr) (s : State) (hok : Ok Q s) : OkOut Q (execFexp v s) := by
  unfold execFexp
  with_reducible repeat' (first | assumption | apply State.fpOp_ok | apply State.issueFp_ok | apply foldl_ok | apply foldl_ok1 | apply ite_ok | apply ite_ok1 | apply ite_next | apply next_ok | intro _)

theorem execFsig_ok {Q : List Instr} (v : VecInstr) (s : State) (hok : Ok Q s) : OkOut Q (execFsig v s) := by
  unfold execFsig
  with_reducible repeat' (first | assumption | apply State.fpOp_ok | apply State.issueFp_ok | apply foldl_ok | apply foldl_ok1 | apply ite_ok | apply ite_ok1 | apply ite_next | apply next_ok | intro _)

theorem execFtanh_ok {Q : List Instr} (v : VecInstr) (s : State) (hok : Ok Q s) : OkOut Q (execFtanh v s) := by
  unfold execFtanh
  with_reducible repeat' (first | assumption | apply State.fpOp_ok | apply State.issueFp_ok | apply foldl_ok | apply foldl_ok1 | apply ite_ok | apply ite_ok1 | apply ite_next | apply next_ok | intro _)

theorem execFrsum_ok {Q : List Instr} (v : VecInstr) (s : State) (hok : Ok Q s) : OkOut Q (execFrsum v s) := by
  unfold execFrsum
  with_reducible repeat' (first | assumption | apply State.issueFp_ok | apply State.onThr_ok | apply State.orTstat_ok | apply foldl_ok | apply foldl_ok1 | apply ite_ok | apply ite_ok1 | apply ite_next | apply next_ok | intro _)

theorem State.reduceFp_ok {Q : List Instr} (s : State) (v : VecInstr) (max : Bool) (hok : Ok Q s) : Ok Q (State.reduceFp s v max) := by
  unfold State.reduceFp
  with_reducible repeat' (first | assumption | apply State.orTstat_ok | apply State.putThr_ok)

theorem execFrmax_ok {Q : List Instr} (v : VecInstr) (s : State) (hok : Ok Q s) : OkOut Q (execFrmax v s) := by
  unfold execFrmax
  with_reducible repeat' (first | assumption | apply State.issueFp_ok | apply State.reduceFp_ok | apply foldl_ok | apply foldl_ok1 | apply ite_ok | apply ite_ok1 | apply ite_next | apply next_ok | intro _)

theorem execFrmin_ok {Q : List Instr} (v : VecInstr) (s : State) (hok : Ok Q s) : OkOut Q (execFrmin v s) := by
  unfold execFrmin
  with_reducible repeat' (first | assumption | apply State.issueFp_ok | apply State.reduceFp_ok | apply foldl_ok | apply foldl_ok1 | apply ite_ok | apply ite_ok1 | apply ite_next | apply next_ok | intro _)

theorem execFrange_ok {Q : List Instr} (v : VecInstr) (s : State) (hok : Ok Q s) : OkOut Q (execFrange v s) := by
  unfold execFrange
  with_reducible repeat' (first | assumption | apply State.issue_ok | apply State.putThr_ok | apply State.scanTake_ok | apply foldl_ok | apply next_ok | apply foldl_ok | apply foldl_ok1 | apply ite_ok | apply ite_ok1 | apply ite_next | apply next_ok | intro _ | dsimp only | split)

end Sys2Proof.Machine
end

