-- ==== Sys2Proof/Laws/Keep/VectorMem.lean ====
section
/-!
SUPPORT. What the operations of Machine/VectorMem.lean keep.
-/

namespace Sys2Proof.Machine

theorem State.trapHere_ok {Q : List Instr} (s : State) (v : VecInstr) (cause : Nat) (hok : Ok Q s) : Ok Q (State.trapHere s v cause) := by
  unfold State.trapHere
  with_reducible repeat' (first | assumption | apply State.setPc_ok | apply State.trap_ok)

theorem State.startMem_ok {Q : List Instr} (s : State) (v : VecInstr) (id : Nat) (seen : EccSeen) (ps : List Piece) (hok : Ok Q s) : Ok Q (State.startMem s v id seen ps) := by
  unfold State.startMem
  with_reducible repeat' (first | assumption | apply State.remotePart_ok | apply State.startPiece_ok | apply foldl_ok | apply foldl_ok1 | apply ite_ok | apply ite_ok1 | apply ite_next | apply next_ok | intro _)

theorem State.memLoad_ok {Q : List Instr} (s : State) (v : VecInstr) (scalar : Bool) (init : List Byte) (seen : EccSeen) (ps : List Piece) (hok : Ok Q s) : Ok Q (State.memLoad s v scalar init seen ps) := by
  unfold State.memLoad
  with_reducible repeat' (first | assumption | apply State.closeReq_ok | apply State.openReq_ok | apply State.sleep_ok | apply State.startMem_ok)

theorem State.memStore_ok {Q : List Instr} (s : State) (v : VecInstr) (ps : List Piece) (hok : Ok Q s) : Ok Q (State.memStore s v ps) := by
  unfold State.memStore
  with_reducible repeat' (first | assumption | apply State.forFrame_ok | apply State.closeReq_ok | apply State.openReq_ok | apply State.startMem_ok)

theorem State.vecAccess_ok {Q : List Instr} (s : State) (v : VecInstr) (store : Bool) (seen : EccSeen) (es : List Nat) (f : Nat → Nat) (hok : Ok Q s) : Ok Q (State.vecAccess s v store seen es f) := by
  unfold State.vecAccess
  with_reducible repeat' (first | assumption | apply State.memLoad_ok | apply State.memStore_ok | apply State.trapHere_ok | apply foldl_ok | apply foldl_ok1 | apply ite_ok | apply ite_ok1 | apply ite_next | apply next_ok | intro _ | dsimp only | split)

theorem execLd_ok {Q : List Instr} (v : VecInstr) (seen : EccSeen) (s : State) (hok : Ok Q s) : OkOut Q (execLd v seen s) := by
  unfold execLd
  with_reducible repeat' (first | assumption | apply State.issue_ok | apply State.vecAccess_ok | apply foldl_ok | apply foldl_ok1 | apply ite_ok | apply ite_ok1 | apply ite_next | apply next_ok | intro _)

theorem execSt_ok {Q : List Instr} (v : VecInstr) (s : State) (hok : Ok Q s) : OkOut Q (execSt v s) := by
  unfold execSt
  with_reducible repeat' (first | assumption | apply State.issue_ok | apply State.vecAccess_ok | apply foldl_ok | apply foldl_ok1 | apply ite_ok | apply ite_ok1 | apply ite_next | apply next_ok | intro _)

theorem execLds_ok {Q : List Instr} (v : VecInstr) (seen : EccSeen) (s : State) (hok : Ok Q s) : OkOut Q (execLds v seen s) := by
  unfold execLds
  with_reducible repeat' (first | assumption | apply State.issue_ok | apply State.vecAccess_ok | apply foldl_ok | apply foldl_ok1 | apply ite_ok | apply ite_ok1 | apply ite_next | apply next_ok | intro _)

theorem execSts_ok {Q : List Instr} (v : VecInstr) (s : State) (hok : Ok Q s) : OkOut Q (execSts v s) := by
  unfold execSts
  with_reducible repeat' (first | assumption | apply State.issue_ok | apply State.vecAccess_ok | apply foldl_ok | apply foldl_ok1 | apply ite_ok | apply ite_ok1 | apply ite_next | apply next_ok | intro _)

theorem execLdx_ok {Q : List Instr} (v : VecInstr) (seen : EccSeen) (s : State) (hok : Ok Q s) : OkOut Q (execLdx v seen s) := by
  unfold execLdx
  with_reducible repeat' (first | assumption | apply State.issue_ok | apply State.vecAccess_ok | apply foldl_ok | apply foldl_ok1 | apply ite_ok | apply ite_ok1 | apply ite_next | apply next_ok | intro _)

theorem execStx_ok {Q : List Instr} (v : VecInstr) (s : State) (hok : Ok Q s) : OkOut Q (execStx v s) := by
  unfold execStx
  with_reducible repeat' (first | assumption | apply State.issue_ok | apply State.vecAccess_ok | apply foldl_ok | apply foldl_ok1 | apply ite_ok | apply ite_ok1 | apply ite_next | apply next_ok | intro _)

theorem State.narrowLoad_ok {Q : List Instr} (s : State) (v : VecInstr) (seen : EccSeen) (hok : Ok Q s) : Ok Q (State.narrowLoad s v seen) := by
  unfold State.narrowLoad
  with_reducible repeat' (first | assumption | apply State.trapHere_ok | apply State.vecAccess_ok | apply foldl_ok | apply foldl_ok1 | apply ite_ok | apply ite_ok1 | apply ite_next | apply next_ok | intro _ | dsimp only | split)

theorem execLdn_ok {Q : List Instr} (v : VecInstr) (seen : EccSeen) (s : State) (hok : Ok Q s) : OkOut Q (execLdn v seen s) := by
  unfold execLdn
  with_reducible repeat' (first | assumption | apply State.issue_ok | apply State.narrowLoad_ok | apply foldl_ok | apply foldl_ok1 | apply ite_ok | apply ite_ok1 | apply ite_next | apply next_ok | intro _)

theorem State.scalarLoad_ok {Q : List Instr} (s : State) (v : VecInstr) (seen : EccSeen) (hok : Ok Q s) : Ok Q (State.scalarLoad s v seen) := by
  unfold State.scalarLoad
  with_reducible repeat' (first | assumption | apply State.ctlRead_ok | apply State.memLoad_ok | apply State.sleep_ok | apply State.trapHere_ok | apply foldl_ok | apply foldl_ok1 | apply ite_ok | apply ite_ok1 | apply ite_next | apply next_ok | intro _ | dsimp only | split)

theorem State.scalarStore_ok {Q : List Instr} (s : State) (v : VecInstr) (hok : Ok Q s) : Ok Q (State.scalarStore s v) := by
  unfold State.scalarStore
  with_reducible repeat' (first | assumption | apply State.ctlWrite_ok | apply State.memStore_ok | apply State.setResp_ok | apply State.trapHere_ok | apply foldl_ok | apply foldl_ok1 | apply ite_ok | apply ite_ok1 | apply ite_next | apply next_ok | intro _ | dsimp only | split)

theorem execSld_ok {Q : List Instr} (v : VecInstr) (seen : EccSeen) (s : State) (hok : Ok Q s) : OkOut Q (execSld v seen s) := by
  unfold execSld
  with_reducible repeat' (first | assumption | apply State.issue_ok | apply State.scalarLoad_ok | apply foldl_ok | apply foldl_ok1 | apply ite_ok | apply ite_ok1 | apply ite_next | apply next_ok | intro _)

theorem execSst_ok {Q : List Instr} (v : VecInstr) (s : State) (hok : Ok Q s) : OkOut Q (execSst v s) := by
  unfold execSst
  with_reducible repeat' (first | assumption | apply State.issue_ok | apply State.scalarStore_ok | apply foldl_ok | apply foldl_ok1 | apply ite_ok | apply ite_ok1 | apply ite_next | apply next_ok | intro _)

theorem State.recvOp_ok {Q : List Instr} (s : State) (v : VecInstr) (hok : Ok Q s) : Ok Q (State.recvOp s v) := by
  unfold State.recvOp
  with_reducible repeat' (first | assumption | apply State.giveWord_ok | apply State.portPop_ok | apply State.sleep_ok | apply foldl_ok | apply foldl_ok1 | apply ite_ok | apply ite_ok1 | apply ite_next | apply next_ok | intro _ | dsimp only | split)

theorem execRecv_ok {Q : List Instr} (v : VecInstr) (s : State) (hok : Ok Q s) : OkOut Q (execRecv v s) := by
  unfold execRecv
  with_reducible repeat' (first | assumption | apply State.issue_ok | apply State.recvOp_ok | apply foldl_ok | apply foldl_ok1 | apply ite_ok | apply ite_ok1 | apply ite_next | apply next_ok | intro _)

theorem State.sendOp_ok {Q : List Instr} (s : State) (v : VecInstr) (hok : Ok Q s) : Ok Q (State.sendOp s v) := by
  unfold State.sendOp
  with_reducible repeat' (first | assumption | apply State.onThr_ok | apply State.portPush_ok | apply State.scanEnd_ok | apply State.sleep_ok | apply foldl_ok | apply foldl_ok1 | apply ite_ok | apply ite_ok1 | apply ite_next | apply next_ok | intro _ | dsimp only | split)

theorem execSend_ok {Q : List Instr} (v : VecInstr) (s : State) (hok : Ok Q s) : OkOut Q (execSend v s) := by
  unfold execSend
  with_reducible repeat' (first | assumption | apply State.issue_ok | apply State.sendOp_ok | apply foldl_ok | apply foldl_ok1 | apply ite_ok | apply ite_ok1 | apply ite_next | apply next_ok | intro _)

end Sys2Proof.Machine
end

