-- ==== Sys2Proof/WellFormed.lean ====
section
/-!
DEFINITION. Which commands are well formed: the sizes that the spec gives what a command carries from outside. Every meaning
is total, so an ill-formed command has an effect too; nothing outside the device sends one.
-/

namespace Sys2Proof

/-- An access on the service path moves 1 to 4,096 bytes. -/
def svcOk : SvcOp → Bool
  | .read n => decide (1 ≤ n.val)
  | .write bs => decide (1 ≤ bs.length ∧ bs.length ≤ 4096)

/-- Of the service path's requesters only a host core executes atomic operations (R250). -/
def reqOk (a : Agent) : SvcReq → Bool
  | .plain op => svcOk op
  | .atomic _ _ _ => match a with | .hart _ => true | _ => false

/-- An inbound PCIe request stays in its BAR (Table 20-5); a write carries at most 512 bytes (Table 20-4). -/
def pcieOk : PcieReq → Bool
  | .read bar off n => decide (1 ≤ n.val) && decide (off.toNat + n.val ≤ barSize bar)
  | .write bar off bs => decide (1 ≤ bs.length ∧ bs.length ≤ 512) && decide (off.toNat + bs.length ≤ barSize bar)
  | .atomic bar off => decide (off.toNat < barSize bar)
where
  /-- The size of a BAR. -/
  barSize (bar : Fin 3) : Nat := if bar.val = 0 then 2 ^ 26 else if bar.val = 1 then 2 ^ 33 else 2 ^ 16

/-- A SERVICE unit: an access as above, a message of 16 bytes (R256), a response of at most 4,096. -/
def unitOk : SvcUnit → Bool
  | .access _ _ _ op => svcOk op
  | .barrier _ _ _ _ _ _ => true
  | .queue _ _ _ payload _ _ => decide (payload.length = 16)
  | .response _ _ _ data => decide (data.length ≤ 4096)

/-- An IDLE frame that arrives has 64 bytes (R428). -/
def idleOk : IdleFrame → Bool
  | .toHost bytes => decide (bytes.length = 64)
  | .toIsland bytes => decide (bytes.length = 64)
  | .hostSends | .islandSends => true

/-- A setting of island firmware: a segment has 2 to 17 nodes and a SYNC interval of 1 to 1,000 ms (R422, R423); a body that it sends
leaves room for the header of Table 16-4 in the largest frame of Table 16-3. -/
def ctlOk : CtlWrite → Bool
  | .host _ _ => true
  | .island (.segPlca _ nodes _ _) => decide (2 ≤ nodes ∧ nodes ≤ 17)
  | .island (.segSync _ ms) => decide (1 ≤ ms ∧ ms ≤ 1000)
  | .island (.segSend _ body) => decide (body.length ≤ 1492)
  | .island _ => true

/-- A well-formed command: 44 sensors (R497); barrier frames of 64 bytes (R428); the words and checks that a memory request
has room for (R277); a record of 40 bytes for the signing unit (R432); a segment frame of 64 to 1,522 bytes (Table 16-3); nothing named
twice. -/
def Instr.wf : Instr → Bool
  | .flitForward _ _ _ _ ecc => decide (ecc.sent.length ≤ 8 ∧ ecc.got.length ≤ 8)
  | .passEnd _ _ _ streams => decide streams.Nodup
  | .stemPassDone errs => decide (errs.map (fun x => x.1)).Nodup
  | .tailDone errs => decide (errs.map (fun x => x.1)).Nodup
  | .serviceAccess a _ op _ => reqOk a op
  | .read _ h _ _ _ first => decide (first.length ≤ h.len.val + 1)
  | .narrow _ h _ _ first => decide (first.length ≤ h.len.val + 1)
  | .write _ h data _ _ => decide (data.length = 4 * (h.len.val + 1))
  | .flushComplete _ seen => decide (seen.length ≤ 2)
  | .ethFrameReceive _ _ bytes _ => decide (1 ≤ bytes.length)
  | .flitReceive _ _ _ _ words => decide (words.map (fun x => x.1)).Nodup
  | .serviceUnit _ u _ => unitOk u.unit
  | .idle _ x => idleOk x
  | .weight _ bytes => decide (bytes.length = 64)
  | .ident _ bytes => decide (bytes.length = 64)
  | .result _ bytes => decide (bytes.length = 64)
  | .event _ bytes => decide (bytes.length = 64)
  | .imageReq _ bytes => decide (bytes.length = 64)
  | .time _ bytes _ => decide (bytes.length = 64)
  | .identReq _ bytes => decide (bytes.length = 64)
  | .zeroReq _ bytes => decide (bytes.length = 64)
  | .tareReq _ bytes => decide (bytes.length = 64)
  | .eventReq _ bytes => decide (bytes.length = 64)
  | .imageOffer _ bytes => decide (bytes.length = 64)
  | .imageData _ bytes => decide (bytes.length = 64)
  | .sample _ _ frame _ => decide (46 ≤ frame.payload.length ∧ frame.payload.length ≤ 1500)
  | .signHandover bytes => decide (bytes.length = 40)
  | .labelUpdate errs => decide (errs.map (fun x => (x.1, x.2.1))).Nodup
  | .thermalSample ts => decide (ts.length = 44)
  | .pcieRequest q _ => pcieOk q
  | .registerWrite x => ctlOk x
  | .reply _ _ frame _ => decide (46 ≤ frame.payload.length ∧ frame.payload.length ≤ 1500)
  | .almRate _ | .almSlew _ | .almStep _ | .almNowLo _ | .aonPeriodMeasure _ | .aonClockFail | .almanacClockReturn _
  | .beatLaunch _ _ | .coreWakeLaunch _ | .exposeLaunch _ | .strobeLaunch _ | .slotFrameLaunch _ | .generalPortFire _
  | .deviceWakeFire | .almBmArm _ _ | .almBmStop _ _ | .almBmPeriod _ _ | .almBmShrink _ _ | .almBmLaglim _ _
  | .almGlTime _ _ _ | .wordArrival _ _ _ _ | .holdSample _ _ _ | .queueHeadMove _ _ _ | .joinStall _ _ _
  | .firing _ _ | .nop _ | .mac _ | .maxx _ | .minx _ | .resume _ | .out _ | .tileAdd _ | .tileSub _ | .tileMax _
  | .tileMin _ | .tileCmp _ | .tileSel _ | .tileRshr _ | .clamp _ | .mov _ | .rescale _ | .quant _ | .emit _
  | .carrySpillArrival _ _ _ | .sequencerRelease _ _ | .scaleFold _ _ _ _ | .sectionEnd _ | .contextReloadDone _
  | .contextSwitch _ | .heartbeatToken _ | .heartbeatDeadline _ | .coreLost _ _ | .tallySnap _ _ | .tallyClear _ _
  | .retainAccessTimeout _ | .contextWindowWrite _ _ _ | .ccWdenyRead _ _ | .bandWriteStart _ _ _
  | .releaseStall _ _ _ | .fetchStreamSend _ _ _ _ | .settle _ _ _ | .refetch _ _ _ | .stemScanDone | .solsticeLost _
  | .depthwiseFrame _ | .add _ | .adds _ | .sub _ | .subs _ | .mul _ | .mulh _ | .min _ | .max _ | .abs _ | .dot4 _
  | .rshr _ | .cmp _ | .and _ | .or _ | .xor _ | .sll _ | .srl _ | .sra _ | .sel _ | .movi _ | .bcast _ | .movs _
  | .fadd _ | .fsub _ | .fmul _ | .ffma _ | .fdiv _ | .fsqrt _ | .fmin _ | .fmax _ | .fabs _ | .fneg _ | .fcmp _
  | .fclass _ | .fcvt _ | .itof _ | .ftoi _ | .frcp _ | .frsq _ | .fexp2 _ | .flog2 _ | .fexp _ | .fsig _ | .ftanh _
  | .rsum _ | .rmax _ | .rmin _ | .frsum _ | .frmax _ | .frmin _ | .frange _ | .perm _ | .slide _ | .ld _ _ | .st _
  | .lds _ _ | .sts _ | .ldx _ _ | .stx _ | .ldn _ _ | .sld _ _ | .sst _ | .fence _ | .recv _ | .send _ | .sop _
  | .sli _ | .br _ | .jmp _ | .barArrive _ | .barWait _ | .barSync _ | .qsend _ | .qrecv _ | .await _ | .tstart _
  | .exit _ | .csr _ | .loadDataArrival _ _ | .awaitExpiry _ _ | .waitDeadline _ _ | .threadBudget _ _ _ _
  | .vtStart _ _ | .vtKill _ _ | .vtFree _ _ | .mgtBarArrive _ _ | .mgtBarExpect _ _ | .mqCfg _ _ | .mgtMqPop _ _ _
  | .mgtMqPush _ _ _ | .mgtMqPushdropRead _ | .readReturn _ _ | .readRetry _ _ _ _ | .wcbAgeFlush _ | .refresh _
  | .recentre _ _ | .stackTempRead _ _ | .channelLost _ _ | .mcTrainGo _ _ | .trainingDone _ _ _ _ | .mgtHbmCommit _
  | .tgStart _ _ | .tgDone _ _ | .mcInj _ _ | .eccCounterRead _ _ _ | .wcbCounterRead _ _ _ | .segmentEncode _ _ _
  | .ingEvrCtl _ | .wvlGo _ | .loadCommit | .wvlUnload _ _ | .eyeMeasure _ _ _ | .portLinkDown _ _ _ _ | .portLinkUp _
  | .endpointCommit _ _ | .bind _ _ | .unbind _ _ | .rotationWrite _ _ _ | .frameTransmit _ _ | .resultRecordWrite _
  | .ingStrRingRd _ _ | .nicRxPost _ _ _ | .nicTxPost _ _ _ | .qskLinkEn _ _ | .trainingPhaseTimeout _ | .hello _ _
  | .timeExchange _ | .timeUnit _ _ _ | .flitPresent _ _ | .bindNotice _ _ _ | .beatNotice _ _ _ _ _ _ _
  | .statusNotice _ _ _ _ _ _ _ _ _ | .retallyNotice _ _ _ _ | .lossNotice _ _ _ _ | .linkLost _ _
  | .slotFrameUnlocked _ | .partStatusTimeout _ _ | .qskRouteDefault _ | .qskTopo _ | .barrierLost _
  | .barrierTimeSend | .bgwTxGo _ _ | .bgwSrcCfg _ _ | .bgwMrCtl _ | .bgwKeyprogGo _ _ | .bridgeConversion _ _ _ _
  | .sync _ _ | .islandBoot | .bootFailedIdent | .islTimeStep _ | .solLrnCfg _ _ | .solLrnSeed _ | .faultRingWrite
  | .fltCtlEn _ | .fltLastClr _ | .fltLostRead _ _ | .irqHoldoffExpiry _ | .mgtHbRearm _ | .pwrDomReq _ _
  | .domainTransitionDone _ | .pwrSleep _ | .dormantEntry | .pwWakeN _ | .referenceCheck _ | .wakingComplete
  | .referenceLost | .pwrClk _ _ | .dividerSwitch _ | .avsIteration _ _ | .ldoOutOfRegulation _ | .pmAlert _ _
  | .quadrantPllLost _ | .pwrQpllRelock _ _ | .qpllLocked _ _ | .idleEntry _ _ | .coreWakeDone _ _ | .throttleStage2
  | .throttleRelease | .overtempComparator _ | .mbxReqWr _ _ | .mgtMbxCtl _ _ | .mbxPing _ | .mbxVersion _
  | .mbxGetPolicy _ | .mbxSetPolicy _ | .mbxLoad _ | .mbxUnload _ | .mbxArm _ | .mbxStop _ | .mbxSeed _
  | .mbxFwStage _ | .mbxFwSvnCommit _ | .mbxDeviceReset _ | .mbxPortCfg _ | .mbxTimeStatus _ | .recovery _
  | .gptpServo _ _ | .gptpSyncTimeout | .mgtWdogKick _ | .wdogExpire | .mgtStwRestart _ | .pcieReset | .pePerstN _
  | .mgtHartStart _ | .mgtHostDenyRead _ | .mgtHcmEccRead _ | .prbsErrRead _ _ | .powerOnReset | .pwResetN
  | .jtagReset | .resetRelease _ _ | .bootRomStart _ _ _ | .mgtBootPcieGo _ | .stewardStartSequence | .ccBistGo _ _
  | .bistDone _ _ | .solBistGo _ | .mgtOtpRevoke _ | .mgtHcmLock _ | .loopbackWrite _ _ | .mgtDevnum _
  | .clockRecoveryLock _ | .codewordLock _ | .slotFrameLock | .plcaBeacon _ | .mtimecmpCompare _ _ => true

end Sys2Proof
end

