-- ==== Sys2Proof/Tests/Slice0.lean ====
section
/-!
SUPPORT. Tests: for each statement with hypotheses, states and operands that meet them, clause by clause (`met_<statement>`), and
the ill-formed commands that WellFormed refuses. The states of the clauses are built from `rig`, a device in Active with every
domain ON at 1 s, by setting the fields that a clause speaks of.
-/

set_option maxRecDepth 20000
set_option Elab.async false
set_option linter.unusedVariables false

namespace Sys2Proof.Machine

/-- A field set among register words; the rest of a word not listed yet is 0. -/
def putFld (m : List (Nat × W64)) (f : Fld) (v : Nat) : List (Nat × W64) :=
  (f.off, insField (SMap.get (fun _ => 0#64) m f.off) f.lo f.w v) :: m.filter (fun e => e.1 != f.off)

/-- A state with fields set, for a test: the list of words is not brought into its canonical form. -/
def State.sets (s : State) (l : List (Fld × Nat)) : State := s.setRegs (l.foldl (fun m x => putFld m x.1 x.2) s.regs)

end Sys2Proof.Machine

namespace Sys2Proof.Tests
open Sys2Proof Sys2Proof.Machine

/-- A 64-bit write by the steward core. -/
def stw (v : Nat) : WriteReq := { agent := .steward, half := .both, value := BitVec.ofNat 64 v }

/-- One second of the Almanac. -/
def sec : Nat := 65536 * unitFrac * 1000000000

/-- Active, every domain ON, the Almanac at 1 s. -/
def rig : State :=
  { State.reset with
    regs := (List.range 57).map (fun d => ((Reg.PWR_DOM_STAT_STATE d).off, 3#64))
    alm := { State.reset.alm with alm := sec, crystal := false }
    pwr := { State.reset.pwr with dev := .active } }

/-- `rig` with pipeline 1 on core 3, stream 5 bound to it and machine 1 in state `st` at grid 2 s. -/
def rig1 (st : Nat) : State :=
  let s := State.sets rig [(Reg.WVL_PIPE_STATE 1, 2), (Reg.WVL_PIPE_PLACE_VALID 1 0, 1), (Reg.WVL_PIPE_PLACE_CORE 1 0, 3),
    (Reg.ING_STR_STATE 5, 1), (Reg.ING_STR_CFG_PIPE 5, 1), (Reg.ING_ROT_LEN 1, 1), (Reg.ING_ROT_ENT 1 0, 0x85),
    (Reg.ALM_BM_PERIOD 1, 1000000), (Reg.ALM_BM_FLOOR 1, 500000), (Reg.ALM_BM_LAGLIM 1, 5000), (Reg.ALM_BM_STAT_STATE 1, st), (Reg.ALM_BM_ORIGIN 1, 2000000000)]
  let s := s.putPipe 1 { place := [3], nsect := 1, stages := [{stage := 0, kind := 0, sect := 0, seqCore := 3, seq := 0, retallyMax := 0, minMhz := 0, workOff := 0, dR := 0, outCount := 1, reorderBase := 0, reorderLen := 0, cores := [3]}] }
  s.putBeat 1 { gNext := 2000000000, nNext := 2000000000, armedAt := 900000000 }

/-- A frame in flight. -/
def addF (s : State) (p : Nat) (f : Frame) : State := s.onPipe p (fun q => { q with frames := q.frames ++ [f] })

def fr : Frame := { fif := 2, stream := 5, frameNo := 7, k := 3, launch := 100, lag := 0, target := 90, slot := 0 }

def expo : Exposure := { k := 0, target := 1999990000, slot := some 2, complete := true }

/-- Fields of an endpoint entry set, at byte places. -/
def wEp (s : State) (i : Nat) (l : List (Nat × Nat × Nat)) : State :=
  -- (pos, bytes, value) into the 64 byte entry
  l.foldl (fun s x => s.setF { Reg.ETH_EP i (x.1 / 8) with lo := 8 * (x.1 % 8), w := 8 * x.2.1 } x.2.2) s

def qw (d tag : Nat) : QWord := { data := BitVec.ofNat 64 d, tag := BitVec.ofNat 8 tag }

def fw (d tag : Nat) : FabWord := { data := BitVec.ofNat 64 d, tag := BitVec.ofNat 8 tag, mark := false, src := none }

/-- Core 3 of pipeline 1 with period 50, and tile 17 with slot entry `e` in slot 5 and control word `ctl`. -/
def rigT (e ctl : Nat) : State := (addF (rig1 2) 1 fr).sets [(Reg.CC_CTX_PERIOD 3 0, 50), (Reg.CC_CTX_SLOT 3 0 17 5, e), (Reg.CC_CTX_CTL 3 0 17, ctl)]

def mi0 : TileInstr := { core := 3, tile := 17, dst := 10, sa := 20, sb := 30, sc := 40, pm := .always, ty := .i8, acc := 1, fx := false, imb := false, md := 0, imm := 0 }

def wordOf (op : Nat) (m : TileInstr) : Nat :=
  op + m.dst.val * 2^6 + m.sa.val * 2^12 + m.sb.val * 2^18 + m.sc.val * 2^24 + pmCode m.pm * 2^30 + tyCode m.ty * 2^32 + m.acc.val * 2^34 + b2n m.fx * 2^38 + b2n m.imb * 2^39 + m.md.val * 2^40 + m.imm.toNat * 2^48

def fs0 : FiringSt := { slot := 2, tag := 66#8, pc := 1 }

def st (n : Nat) : Fld := ⟨(Reg.CC_CTX_ST 3 0 17 (n / 2)).off, 32 * (n % 2), 32⟩

/-- Tile 17 of core 3 firing tag 66, at word 1 of a body of `len + 1` words, which is `m`. -/
def rigM (op : Nat) (m : TileInstr) (len : Nat) (l : List (Fld × Nat)) (acc : AccSlot) : State :=
  (((rigT 0 (2^47 + 5 * 2^41 + 2 * 2^44 + len)).sets ([(Reg.CC_CTX_BODY 3 0 17 1, wordOf op m)] ++ l)).putTile 3 17
    { firing := some fs0, tags := [(2, some { tag := 66#8, present := 15 })], dyn := [(16 + 5, 1#32), (16 + 1, 12345#32)], acc := [(1, acc), (2, acc)] })

def v0 : VecInstr := { core := 3, slot := 4, vd := 5, va := 6, vb := 7, vc := 2, mreg := 0, mz := false, fmt := 0, rsv := 0, imm := 0, ecc := .clean, eccInstr := false }

def pat (seed : Nat) (w n : Nat) (f : Nat → Nat) : W512 := BitVec.ofNat 512 ((List.range n).foldl (fun a i => a + (f (seed + i) % 2^w) * 2^(w*i)) 0)

def rndN (i : Nat) : Nat := (i * 6364136223846793005 + 1442695040888963407) % 2^64 / 2^20

def thr0 (w : Nat) (a b c : Nat → Nat) : VThread :=
  { vx := [(2, pat 40 w (512/w) c), (5, pat 30 w (512/w) rndN), (6, pat 1 w (512/w) a), (7, pat 2 w (512/w) b)],
    sx := [(2, 1000000500#64), (5, 77#64), (6, 0x2003000100#64), (7, 8#64)], mask := [(1, 0xA5A5F00F3C5A0FF0#64), (2, 0x55AA00FF12345678#64)] }

def thr (s : State) (th : VThread) : State := s.setThreads [(52, th)]

/-- Slot 4 of core 3, READY at word 10, which holds the word of operation `k` of `v`. -/
def rigV (k : Nat) (v : VecInstr) (th : VThread) : State :=
  (thr (((rigT 0 0).sets [(Reg.CC_VT_SLOT_STATE 3 4, 1), (Reg.CC_VT_SLOT_PC 3 4, 10)])) th).setWord (0x1000000 + 0x300000 + 0xC0000 + 80) (vecWord v k)

def pubB : List Byte := [71,28,62,117,140,73,4,40,91,186,126,83,17,142,208,245,36,173,235,7,87,210,91,210,248,231,176,215,109,250,113,76,221,82,15,122,202,138,139,145,122,204,55,245,29,232,240,201,187,227,173,133,131,130,231,2,220,37,161,45,9,247,168,88]

def imA : List Byte := [83,84,87,49,7,0,0,0,5,0,0,0,100,0,0,0,40,0,0,0,0,0,0,0,0,0,0,0,0,0,0,0,3,10,17,24,31,38,45,52,59,66,73,80,87,94,101,108,115,122,129,136,143,150,157,164,171,178,185,192,199,206,213,220,227,234,241,248,255,6,13,20,27,34,41,48,55,62,69,76,83,90,97,104,111,118,125,132,139,146,153,160,167,174,181,188,195,202,209,216,223,230,237,244,251,2,9,16,23,30,37,44,51,58,65,72,79,86,93,100,107,114,121,128,135,142,149,156,163,170,177,184,71,28,62,117,140,73,4,40,91,186,126,83,17,142,208,245,36,173,235,7,87,210,91,210,248,231,176,215,109,250,113,76,221,82,15,122,202,138,139,145,122,204,55,245,29,232,240,201,187,227,173,133,131,130,231,2,220,37,161,45,9,247,168,88,92,224,155,96,156,235,235,60,7,220,144,135,32,55,55,213,0,214,174,135,162,123,117,125,99,104,214,91,41,159,128,180,198,166,41,86,110,131,40,250,126,88,46,244,87,147,52,192,34,48,165,11,39,89,173,192,156,116,70,199,171,183,248,212,0,0,0,0,0,0,0,0,0,0,0,0,83,83,73,71]

def mc (l : List (Fld × Nat)) : State := (rig1 2).sets ([(Reg.MC_CH_MAP_ACTIVE 0, 0xFFFF), (Reg.MC_CH_MAP_ACTIVE 1, 0xFFFF), (Reg.MGT_HBM_CTL_COMMITTED, 1)] ++ l)
def crq (w l req : Nat) (nar : Bool := false) : ChanReq := { word := w, len := l, narrow := nar, bad := false, tag := 5, req := req, retry := true }
def hr (l : List (Fld × Nat)) : State := (rig1 2).sets l
def hcm (off n : Nat) (s : State) : State := s.wrBytes (hostKey off) ((List.range n).map (fun i => BitVec.ofNat 8 (i * 7 + 3)))
def er (l : List (Fld × Nat)) : State := (rig1 2).sets ([(Reg.ETH_P_STAT_LINK_UP 3, 1), (Reg.ETH_P_CFG_MODE 3, 1)] ++ l)
def rw (f : Fld) (v : Nat) : WriteReq := stw (v * 2 ^ f.lo)
def lk (l : List (Fld × Nat)) : State := (rig1 2).sets ([(Reg.QSK_TOPO_NX, 1), (Reg.QSK_TOPO_NY, 1), (Reg.QSK_TOPO_NZ, 0), (Reg.QSK_TOPO_SYSTEM_ID, 0xABCD1234), (Reg.MGT_DEVNUM, 5)] ++ l)
def ql (l : Nat) (f : QLink → QLink) (s : State) : State := s.setQsk { s.qsk with links := [(l, f {})] }
def pl (l : Nat) (k : Nat) : List (Fld × Nat) := [(Reg.QSK_L_CTL_EN l, 1), (Reg.QSK_L_STAT_PHASE l, k)]
def sp (q port slot e : Nat) (s : State) : State := s.setSpine (SMap.put (fun _ => 0#32) s.spine (((q * 40 + port) * 4 + 0) * 128 + slot) (BitVec.ofNat 32 e))
def barS (arr exp gen : Nat) (s : State) : State := s.sets [(Reg.MGT_BAR_ARRIVED 9, arr), (Reg.MGT_BAR_EXPECT 9, exp), (Reg.MGT_BAR_GEN 9, gen)]
def own1 : Nat := 2^14 + 1 * 2^12
def sqq (x : Nat) : State := (rigT 0 0).sets [(Reg.CC_SEQ 3 0 2 0, 2 + 1 * 2^42 + 2^44 + x * 2^40), (Reg.CC_SEQ 3 0 2 1, 4096 + 16 * 2^32)]
def rq (f : Fld) (v : Nat) : WriteReq := stw (v * 2 ^ f.lo)
def drS (f : PwrState → PwrState) (s : State) : State := s.setPwr (f s.pwr)
def m0 (l : List (Fld × Nat)) : State := (addF (rig1 2) 1 fr).sets l
def stwS (f : Stw → Stw) (s : State) : State := s.setStw (f s.stw)
def acc0 : AccSlot := { cell := [(0, 5), (9, -7), (31, 2147483647)], chunk := [(0, 100), (31, 5)], count := 15, index := 9 }
def regs : List (Fld × Nat) := []
def w0 : Nat := 0x1000 + 2 * 2^24 + 16 * 2^32 + 2 * 2^48
def w1 : Nat := 0x2000 + 4 * 2^22 + 1 * 2^38
def rbx (s : State) (x : RowBuf) : State := (s.putRbuf 3 4 x).putFstr' 3 5 { freed := [2, 3] }
def stemc : ConvConf := { inW := 4, inH := 4, inC := 1, outC := 4, outCore := 3, outBuf := 4, zw := [0,0,0,0], entries := [0,0,0,0], rsc0 := 3 * 2 }
def wst (s : State) : State := (s.setSol { s.sol with mac := [(1, 2), (2, 5)] }).onPipe 1 (fun p => {p with sol := {p.sol with stem := stemc}, usesStem := true, io := {w := 4, h := 4, chans := 1}})
def dws : StageRec := {stage := 1, kind := 1, sect := 0, seqCore := 3, seq := 2, retallyMax := 0, minMhz := 0, workOff := 0, dR := 0, outCount := 5, reorderBase := 0, reorderLen := 0, cores := [3]}
def dwS (s : State) : State := (s.onPipe 1 (fun p => {p with stages := p.stages ++ [dws]})).sets [(Reg.CC_DW_DESC 3 0 0, 5 * 2^30 + 6 * 2^33 + 0x3000 * 2^36), (Reg.CC_DW_DESC 3 0 1, 4 + 4 * 2^16 + 4 * 2^32 + 2^48), (Reg.CC_RBUF 3 0 6 0, w0 + 0x4000), (Reg.CC_RBUF 3 0 6 1, w1)]
def inBands : RowBuf := { next := 2, band := 0, fif := some 2, slots := [(0, {fif := 2, band := 0, valid := true, remaining := 1}), (1, {fif := 2, band := 1, valid := true, remaining := 1})] }
def rnd : VThread := thr0 32 rndN rndN rndN
def RV (k : Nat) (v : VecInstr) (t : VThread) := rigV k v t

namespace AlmanacRegisters

def rd (h : Half) : ReadReq := { agent := .steward, half := h }

/-- States that meet the hypotheses of AlmanacRegisters, for each of its clauses. -/
theorem met_AlmanacRegisters :
    (∃ (s : State) (w : WriteReq), (s.takes w Reg.ALM_RATE.off = true) ∧ (coversLo w.half = true)) ∧
    (∃ (s : State) (w : WriteReq), (s.takes w Reg.ALM_SLEW.off = true) ∧ (coversLo w.half = true)) ∧
    (∃ (s : State) (r : ReadReq), (coversLo r.half = true)) ∧
    (∃ (s : State) (w : WriteReq), (s.takes w Reg.ALM_STEP_FRAC.off = true) ∧ (w.half = .lo)) ∧
    (∃ (s : State) (w : WriteReq), (s.takes w Reg.ALM_STEP_FRAC.off = true) ∧ (w.half = .both) ∧ (s.room = true) ∧ (s.alm.crystal = false) ∧ 
    let x := sint 64 w.value.toNat
    (x < 0)) :=
  ⟨⟨rig, (stw 5), by decide +kernel⟩,
   ⟨rig, (stw 5), by decide +kernel⟩,
   ⟨rig, (rd .lo), by decide +kernel⟩,
   ⟨rig, { agent := .steward, half := .lo, value := 77 }, by decide +kernel⟩,
   ⟨(rig1 2), (stw (2^64 - 65536*1000000 - 7)), by decide +kernel⟩⟩

end AlmanacRegisters

/-- States that meet the hypotheses of CrystalAndWakePort, for each of its clauses. -/
theorem met_CrystalAndWakePort :
    (∃ (s : State) (ticks : Nat), (s.pwr.dev = .active) ∧ (s.alm.crystal = false) ∧ (s.alm.winBad = false)) ∧
    (∃ (s : State) (ticks : Nat), (s.pwr.dev = .active) ∧ (s.alm.crystal = false) ∧ (s.alm.winBad = true)) ∧
    (∃ (s : State), (s.pwr.dev = .active) ∧ (s.alm.crystal = false) ∧ (s.alm.aonFail = false) ∧ (s.room = true)) ∧
    (∃ (s : State), (s.pwr.dev = .waking) ∧ (s.pwr.refOk = true) ∧ (s.alm.crystal = true)) ∧
    (∃ (s : State), (s.pwr.dev = .waking) ∧ (s.pwr.refOk = true) ∧ (s.alm.crystal = true) ∧ (s.room = true)) ∧
    (∃ (s : State), (s.pwr.dev = .dormant) ∧ (s.alm.crystal = true) ∧ (s.flag Reg.ALM_WAKE_CTL_EN = true)) :=
  ⟨⟨(rig.setAlm {rig.alm with winStart := 1000}), 32768000, by decide +kernel⟩,
   ⟨(rig.setAlm {rig.alm with winBad := true}), 5, by decide +kernel⟩,
   ⟨rig, by decide +kernel⟩,
   ⟨((rig.setPwr {rig.pwr with dev := .waking, refOk := true}).setAlm {rig.alm with crystal := true}), by decide +kernel⟩,
   ⟨((rig.setPwr {rig.pwr with dev := .waking, refOk := true}).setAlm {rig.alm with crystal := true}), by decide +kernel⟩,
   ⟨(((rig.setPwr {rig.pwr with dev := .dormant}).setAlm {rig.alm with crystal := true}).sets [(Reg.ALM_WAKE_CTL_EN, 1), (Reg.ALM_WAKE_TIME, 1000100000)]), by decide +kernel⟩⟩

/-- States that meet the hypotheses of BeatParameterWrites, for each of its clauses. -/
theorem met_BeatParameterWrites :
    (∃ (s : State) (n : Fin 4) (w : WriteReq), (s.takes w (Reg.ALM_BM_PERIOD n).off = true) ∧ (coversLo w.half = true) ∧ (s.room = true) ∧ 
    let b := w.field (Reg.ALM_BM_PERIOD n)
    
    let sh := s.getF (Reg.ALM_BM_SHRINK_S n)
    (50000 ≤ b) ∧ (b ≤ 100000000) ∧ (s.getF (Reg.ALM_BM_FLOOR n) ≤ b)) ∧
    (∃ (s : State) (n : Fin 4) (w : WriteReq), (s.takes w (Reg.ALM_BM_PERIOD n).off = true) ∧ (coversLo w.half = true) ∧ (s.room = true) ∧ 
    let b := w.field (Reg.ALM_BM_PERIOD n)
    ((b < 50000 ∨ 100000000 < b ∨ b < s.getF (Reg.ALM_BM_FLOOR n)))) ∧
    (∃ (s : State) (n : Fin 4) (w : WriteReq), (s.takes w (Reg.ALM_BM_SHRINK_S n).off = true) ∧ (coversLo w.half = true) ∧ (s.room = true)) ∧
    (∃ (s : State) (n : Fin 4) (w : WriteReq), (s.takes w (Reg.ALM_BM_LAGLIM n).off = true) ∧ (coversLo w.half = true)) :=
  ⟨⟨(rig1 2), 1, (stw 1000000), by decide +kernel⟩,
   ⟨(rig1 2), 1, (stw 400000), by decide +kernel⟩,
   ⟨(rig1 2), 1, (stw 4000), by decide +kernel⟩,
   ⟨(rig1 2), 1, (stw 4000), by decide +kernel⟩⟩

namespace BeatArmAndStop

def arm : WriteReq := stw (2 ^ (Reg.ALM_BM_CTL_ARM 1).lo)
def stp : WriteReq := stw (2 ^ (Reg.ALM_BM_CTL_STOP 1).lo)

/-- States that meet the hypotheses of BeatArmAndStop, for each of its clauses. -/
theorem met_BeatArmAndStop :
    (∃ (s : State) (n : Fin 4) (w : WriteReq), (s.takes w (Reg.ALM_BM_CTL_ARM n).off = true) ∧ (wBit w (Reg.ALM_BM_CTL_ARM n) = true) ∧ (wBit w (Reg.ALM_BM_CTL_STOP n) = false) ∧ (s.bmState n = 0) ∧ (s.loaded n = true) ∧ (s.now + 100000 ≤ s.getF (Reg.ALM_BM_ORIGIN n))) ∧
    (∃ (s : State) (n : Fin 4) (w : WriteReq), (s.takes w (Reg.ALM_BM_CTL_ARM n).off = true) ∧ (wBit w (Reg.ALM_BM_CTL_ARM n) = true) ∧ (wBit w (Reg.ALM_BM_CTL_STOP n) = false) ∧ (s.room = true) ∧ (s.bmState n = 0) ∧ (s.loaded n = true) ∧ (s.getF (Reg.ALM_BM_ORIGIN n) < s.now + 100000)) ∧
    (∃ (s : State) (n : Fin 4) (w : WriteReq), (s.takes w (Reg.ALM_BM_CTL_ARM n).off = true) ∧ (wBit w (Reg.ALM_BM_CTL_ARM n) = true) ∧ (wBit w (Reg.ALM_BM_CTL_STOP n) = false) ∧ (s.bmState n ≠ 0 ∨ s.loaded n = false)) ∧
    (∃ (s : State) (n : Fin 4) (w : WriteReq), (s.takes w (Reg.ALM_BM_CTL_ARM n).off = true) ∧ (wBit w (Reg.ALM_BM_CTL_ARM n) = false) ∧ (wBit w (Reg.ALM_BM_CTL_STOP n) = true) ∧ (s.bmState n ≠ 0) ∧ ((s.pipe n).quiet = false ∨ (s.pipe n).sectOpen = true)) ∧
    (∃ (s : State) (n : Fin 4) (w : WriteReq), (s.takes w (Reg.ALM_BM_CTL_ARM n).off = true) ∧ (wBit w (Reg.ALM_BM_CTL_ARM n) = false) ∧ (wBit w (Reg.ALM_BM_CTL_STOP n) = true) ∧ (s.bmState n ≠ 0) ∧ ((s.pipe n).quiet = true) ∧ ((s.pipe n).sectOpen = false) ∧ (s.room = true)) :=
  ⟨⟨(rig1 0), 1, arm, by decide +kernel⟩,
   ⟨((rig1 0).sets [(Reg.ALM_BM_ORIGIN 1, 1000000100)]), 1, arm, by decide +kernel⟩,
   ⟨(rig1 1), 1, arm, by decide +kernel⟩,
   ⟨(addF (rig1 2) 1 fr), 1, stp, by decide +kernel⟩,
   ⟨(rig1 2), 1, stp, by decide +kernel⟩⟩

end BeatArmAndStop

namespace BeatAndPortLaunches

def wk (d : Nat) := ((rig1 2).onCore 3 (fun x => {x with wakes := [(1000000500, 1000000900, 4)]})).sets [(Reg.PWR_DOM_STAT_STATE 3, d)]
def cam (up : Nat) := (wEp ((rig1 2).sets [(Reg.ING_STR_CFG_CAMERA 5, 9), (Reg.ETH_P_STAT_LINK_UP 2, up)]) 9 [(0,1,1),(2,1,2),(32,2,5),(36,4,2000),(40,4,3000),(44,4,600)])
def lit (up : Nat) := wEp (cam up) 11 [(0,1,2),(2,1,2),(32,2,5),(36,4,1000),(40,4,700),(44,1,9)]

/-- States that meet the hypotheses of BeatAndPortLaunches, for each of its clauses. -/
theorem met_BeatAndPortLaunches :
    (∃ (s : State) (n : Fin 4) (ready : Nat), 
    let u := s.reach (max ready (s.beat n).nNext)
    
    let a := u.launchAt (max ready (s.beat n).nNext)
    
    let l := a - (s.beat n).gNext
    (s.alm.crystal = false) ∧ (s.bmState n = 1 ∨ s.bmState n = 2 ∨ s.bmState n = 3) ∧ (u.entryReady n = true) ∧ (u.scanYields n = false) ∧ (s.nextExposure n = none)) ∧
    (∃ (s : State) (n : Fin 4) (ready m : Nat) (e : Exposure), 
    let u := s.reach (max ready (s.beat n).nNext)
    
    let a := u.launchAt (max ready (s.beat n).nNext)
    
    let l := a - (s.beat n).gNext
    (s.alm.crystal = false) ∧ (s.bmState n = 1 ∨ s.bmState n = 2 ∨ s.bmState n = 3) ∧ (u.entryReady n = true) ∧ (u.scanYields n = false) ∧ (s.nextExposure n = some (m, e)) ∧ (e.complete = true) ∧ ((s.pipe n).running = [])) ∧
    (∃ (s : State) (n : Fin 4) (ready m : Nat) (e : Exposure), 
    let u := s.reach (max ready (s.beat n).nNext)
    
    let a := u.launchAt (max ready (s.beat n).nNext)
    
    let l := a - (s.beat n).gNext
    (s.alm.crystal = false) ∧ (s.bmState n = 1 ∨ s.bmState n = 2 ∨ s.bmState n = 3) ∧ (u.entryReady n = true) ∧ (u.scanYields n = false) ∧ (s.nextExposure n = some (m, e)) ∧ (e.complete = false) ∧ ((s.pipe n).running = [])) ∧
    (∃ (s : State) (n : Fin 4) (ready : Nat), (s.alm.crystal = false) ∧ (s.bmState n = 4)) ∧
    (∃ (s : State) (c : Fin 32) (wake work k : Nat) (rest : List (Nat × Nat × Nat)), ((s.core c).wakes = (wake, work, k) :: rest) ∧ (s.alm.crystal = false)) ∧
    (∃ (s : State) (ep : Fin 1024) (n m k target : Nat), (s.nextExpose ep = some (n, m, k, target)) ∧ (s.alm.crystal = false) ∧ (s.flag (Reg.ETH_P_STAT_LINK_UP (s.epPort ep)) = true)) ∧
    (∃ (s : State) (ep : Fin 1024) (n m k target : Nat), (s.nextExpose ep = some (n, m, k, target)) ∧ (s.alm.crystal = false) ∧ (s.flag (Reg.ETH_P_STAT_LINK_UP (s.epPort ep)) = false)) ∧
    (∃ (s : State) (ep : Fin 1024) (n m k target : Nat), (s.nextStrobe ep = some (n, m, k, target)) ∧ (s.alm.crystal = false) ∧ (s.flag (Reg.ETH_P_STAT_LINK_UP (s.epPort ep)) = true)) ∧
    (∃ (s : State) (l : Fin 8), (s.linkUp l = true) ∧ (s.alm.crystal = false)) ∧
    (∃ (s : State), (s.alm.crystal = true)) :=
  ⟨⟨(rig1 1), 1, 2000000000, by decide +kernel⟩,
   ⟨((rig1 1).putStrm 5 {outs := [expo]}), 1, 2000000000, 5, expo, by decide +kernel⟩,
   ⟨((rig1 1).putStrm 5 {outs := [{expo with complete := false}]}), 1, 2000000000, 5, {expo with complete := false}, by decide +kernel⟩,
   ⟨(rig1 4), 1, 7, by decide +kernel⟩,
   ⟨(wk 3), 3, 1000000500, 1000000900, 4, [], by decide +kernel⟩,
   ⟨(cam 1), 9, 1, 5, 0, 1999997000, by decide +kernel⟩,
   ⟨(cam 0), 9, 1, 5, 0, 1999997000, by decide +kernel⟩,
   ⟨(lit 1), 11, 1, 5, 0, 1999997000, by decide +kernel⟩,
   ⟨(rig.sets [(Reg.QSK_L_STAT_PHASE 3, 5)]), 3, by decide +kernel⟩,
   ⟨(rig.setAlm {rig.alm with crystal := true}), by decide +kernel⟩⟩

end BeatAndPortLaunches

namespace TimersAndGeneralPorts

def gl (p : Nat) := (rig.sets [(Reg.ALM_GL_CTL_EN 4,1),(Reg.ALM_GL_PERIOD 4, p),(Reg.ALM_GL_TIME 4, 3000000000)])
def ihx (d : Nat) := (rig.sets [(Reg.FLT_IRQ_STAT_CLASS d, 3), (Reg.FLT_IRQ_CFG_CLASS_EN d, 3),(Reg.FLT_IRQ_CFG_HOLDOFF d, 3)]).setFlt {rig.flt with irqLast := [(d, some 1000000000)]}

/-- States that meet the hypotheses of TimersAndGeneralPorts, for each of its clauses. -/
theorem met_TimersAndGeneralPorts :
    (∃ (s : State) (p : Fin 16), (s.flag (Reg.ALM_GL_CTL_EN p) = true) ∧ (s.alm.crystal = false) ∧ (s.flag (Reg.ALM_GL_CTL_MSG p) = false) ∧ (s.flag (Reg.ALM_GL_CTL_SNAP p) = false) ∧ (s.getF (Reg.MGT_IRQ_ROUTE_DEST (78 + p)) = 0) ∧ (s.getF (Reg.ALM_GL_PERIOD p) = 0)) ∧
    (∃ (s : State) (p : Fin 16), (s.flag (Reg.ALM_GL_CTL_EN p) = true) ∧ (s.alm.crystal = false) ∧ (s.flag (Reg.ALM_GL_CTL_MSG p) = false) ∧ (s.flag (Reg.ALM_GL_CTL_SNAP p) = false) ∧ (s.getF (Reg.MGT_IRQ_ROUTE_DEST (78 + p)) = 0) ∧ (s.getF (Reg.ALM_GL_PERIOD p) ≠ 0)) ∧
    (∃ (s : State) (p : Fin 16) (w : WriteReq), (s.takes w (Reg.ALM_GL_TIME p).off = true) ∧ (w.half = .both) ∧ (s.flag (Reg.ALM_GL_CTL_EN p) = false ∨ s.now < w.field (Reg.ALM_GL_TIME p))) ∧
    (∃ (s : State) (h : Fin 4) (x : Nat), (s.alm.crystal = false) ∧ (s.dom (33 + h) = 3) ∧ (s.alm.mtimecmp = []) ∧ (x ≤ (s.reach x).now)) ∧
    (∃ (s : State) (d : Fin 3) (last : Nat), ((s.getF (Reg.FLT_IRQ_STAT_CLASS d) &&& s.getF (Reg.FLT_IRQ_CFG_CLASS_EN d)) % 4 ≠ 0) ∧ (SMap.get (fun _ => none) s.flt.irqLast d = some last)) :=
  ⟨⟨(gl 0), 4, by decide +kernel⟩,
   ⟨(gl 100), 4, by decide +kernel⟩,
   ⟨(gl 100), 5, (stw 10), by decide +kernel⟩,
   ⟨rig, 2, 1000000700, by decide +kernel⟩,
   ⟨(ihx 0), 0, 1000000000, by decide +kernel⟩⟩

end TimersAndGeneralPorts

namespace WordArrivals

def e1 : Nat := 1 * 2^12 + 2 * 2^15
def rs (src : Nat) : State := sp 0 4 9 (own1 + src) (rigT 0 0)
def seqFull : State := ((sqq 1).putEdge 3 3 5 0 {words := [qw 5 64]}).putSeqr 3 2 {frames := [{fif := 2, held := [{word := qw 1 64, addr := some 4096},{word := qw 1 64, addr := some 4104}]}]}
def rb0 : State := (rigT 0 0).putRbuf 3 4 { cur := some (1, 2), next := 1 }

/-- States that meet the hypotheses of WordArrivals, for each of its clauses. -/
theorem met_WordArrivals :
    (∃ (s : State) (c : Fin 32) (t : Fin 256) (k : Fin 7) (slot : Fin 128) (e t' d' : Nat) (w : QWord) (ws : List QWord), (s.slotEntry c t slot = some e) ∧ (k = 1 ∨ k = 2 ∨ k = 3 ∨ k = 4) ∧ (neighbour t (k.val - 1) = some (t', d')) ∧ (s.wire (wireKey c t k) = w :: ws) ∧ (s.domOn c = true) ∧ (s.debugMode = false) ∧ (outSrc e 0 ≠ k) ∧ (outSrc e 1 ≠ k) ∧ (outSrc e 2 ≠ k) ∧ (outSrc e 3 ≠ k) ∧ (bits e 17 3 ≠ k) ∧ (bits e 12 3 = k) ∧ (s.fires c t = true) ∧ 
    let q := bits e 15 2
    
    let x := s.tile c t
    ((x.q q).length + 1 < 8 - s.tileMargin c t q) ∧ (x.holds q = false)) ∧
    (∃ (s : State) (c : Fin 32) (t : Fin 256) (k : Fin 7) (slot : Fin 128) (e t' d' : Nat) (w : QWord) (ws : List QWord), (s.slotEntry c t slot = some e) ∧ (k = 1 ∨ k = 2 ∨ k = 3 ∨ k = 4) ∧ (neighbour t (k.val - 1) = some (t', d')) ∧ (s.wire (wireKey c t k) = w :: ws) ∧ (s.domOn c = true) ∧ (outSrc e 0 = k) ∧ (outSrc e 1 ≠ k) ∧ (outSrc e 2 ≠ k) ∧ (outSrc e 3 ≠ k) ∧ (bits e 17 3 ≠ k) ∧ (bits e 12 3 ≠ k) ∧ (16 ≤ t.val)) ∧
    (∃ (s : State) (c : Fin 32) (t : Fin 256) (k : Fin 7) (slot : Fin 128) (e t' d' : Nat) (w : QWord) (ws : List QWord), (s.slotEntry c t slot = some e) ∧ (k = 1 ∨ k = 2 ∨ k = 3 ∨ k = 4) ∧ (neighbour t (k.val - 1) = some (t', d')) ∧ (s.wire (wireKey c t k) = w :: ws) ∧ (s.domOn c = true) ∧ (s.room = true) ∧ (outSrc e 0 ≠ k) ∧ (outSrc e 1 ≠ k) ∧ (outSrc e 2 ≠ k) ∧ (outSrc e 3 ≠ k) ∧ (bits e 17 3 ≠ k) ∧ (bits e 12 3 ≠ k ∨ s.fires c t = false)) ∧
    (∃ (s : State) (site : FabSite) (slot : Fin 128) (src : WordFrom) (ecc : EccSeen) (c : Fin 32), (s.domOn c = false ∨ s.getF (Reg.CC_CTX_PERIOD c (s.ctx c)) ≤ slot.val) ∧ (((∃ t k, site = .router c t k) ∨ (∃ side lane b, site = .edge c side lane b) ∨ (∃ code, site = .gateway c code) ∨ (∃ q row, site = .seq c q row) ∨ (∃ b off z, site = .rowBuf c b off z)))) ∧
    (∃ (s : State) (c : Fin 32) (side : Fin 4) (lane : Fin 16) (slot : Fin 128) (w : QWord) (ws : List QWord), (s.inPeriod c slot = true) ∧ (s.wire (edgeWire c side lane) = w :: ws) ∧ (side ≠ 1) ∧ ((s.edge c side lane 0).words.length < 8)) ∧
    (∃ (s : State) (c : Fin 32) (code : Fin 25) (slot : Fin 128) (w : FabWord), (w.src = none) ∧ (s.inPeriod c slot = true) ∧ ((s.gw c 0 code).words.length + 1 < 32) ∧ ((s.gw c 0 code).held = false)) ∧
    (∃ (s : State) (c : Fin 32) (code : Fin 25) (slot : Fin 128) (w : FabWord), (w.src = none) ∧ (s.inPeriod c slot = true) ∧ (32 ≤ (s.gw c 0 code).words.length) ∧ (s.room = true)) ∧
    (∃ (s : State) (q : Fin 4) (port : Fin 40) (pos : Fin 8) (slot : Fin 128) (w : FabWord) (o : Fin 40), (w.src = none) ∧ (s.spineEntry q o slot = some port.val)) ∧
    (∃ (s : State) (q : Fin 4) (port : Fin 40) (pos : Fin 8) (slot : Fin 128) (w : FabWord) (o : Fin 40), (w.src = none) ∧ (s.spineEntry q o slot = some port.val) ∧ (s.room = true)) ∧
    (∃ (s : State) (q : Fin 4) (port : Fin 40) (pos : Fin 8) (slot : Fin 128) (w : FabWord), (w.src = none) ∧ ((∀ o : Fin 40, s.spineEntry q o slot ≠ some port.val)) ∧ (s.room = true)) ∧
    (∃ (s : State) (c : Fin 32) (q : Fin 8) (row : Fin 16) (slot : Fin 128) (w : QWord) (ws : List QWord) (f : SeqFrame), (s.inPeriod c slot = true) ∧ ((s.edge c 3 row 0).words = w :: ws) ∧ (s.debugMode = false) ∧ ((s.seqr c q).frames = [f]) ∧ (f.fif = fifOf w.tag) ∧ (s.reorders c q f.fif = false)) ∧
    (∃ (s : State) (c : Fin 32) (q : Fin 8) (row : Fin 16) (slot : Fin 128) (w : QWord) (ws : List QWord) (f : SeqFrame)
      (a : Nat), (s.inPeriod c slot = true) ∧ ((s.edge c 3 row 0).words = w :: ws) ∧ ((s.seqr c q).frames = [f]) ∧ (f.fif = fifOf w.tag) ∧ (s.reorders c q f.fif = true) ∧ (s.reorderSlot c q = some a) ∧ (a % 8 = 0)) ∧
    (∃ (s : State) (c : Fin 32) (q : Fin 8) (row : Fin 16) (slot : Fin 128) (w : QWord) (ws : List QWord), (s.inPeriod c slot = true) ∧ ((s.edge c 3 row 0).words = w :: ws) ∧ (s.reorders c q (fifOf w.tag) = true) ∧ (s.reorderSlot c q = none) ∧ (s.room = true)) ∧
    (∃ (s : State) (c : Fin 32) (b : Fin 8) (off : Fin 4194304) (slot : Fin 128) (w : FabWord) (j n : Nat), (w.src = none) ∧ (s.inPeriod c slot = true) ∧ (s.noneDone = true) ∧ ((s.rbuf c b).cur = some (j, n))) ∧
    (∃ (s : State) (c : Fin 32) (b : Fin 8) (off : Fin 4194304) (endRow : Bool) (slot : Fin 128) (src : WordFrom)
      (ecc : EccSeen), (s.inPeriod c slot = true) ∧ (s.noneDone = true) ∧ ((s.rbuf c b).cur = none)) :=
  ⟨⟨((rigT e1 (2^47)).putWire (wireKey 3 17 1) [qw 77 (2*32+4)]), 3, 17, 1, 5, e1, 1, 3, (qw 77 (2*32+4)), [], by decide +kernel⟩,
   ⟨((rigT 1 0).putWire (wireKey 3 17 1) [qw 77 (2*32+4)]), 3, 17, 1, 5, 1, 1, 3, (qw 77 (2*32+4)), [], by decide +kernel⟩,
   ⟨((rigT 2 0).putWire (wireKey 3 17 1) [qw 77 (2*32+4)]), 3, 17, 1, 5, 2, 1, 3, (qw 77 (2*32+4)), [], by decide +kernel⟩,
   ⟨(rigT 2 0), (.router 3 17 1), 50, .feed, .clean, 3, by decide +kernel⟩,
   ⟨((rigT 0 0).putWire (edgeWire 3 0 7) [qw 9 64]), 3, 0, 7, 49, (qw 9 64), [], by decide +kernel⟩,
   ⟨(rigT 0 0), 3, 24, 49, (fw 9 64), by decide +kernel⟩,
   ⟨((rigT 0 0).putGw 3 0 24 {words := List.replicate 32 (qw 1 64), held := true}), 3, 24, 49, (fw 9 64), by decide +kernel⟩,
   ⟨(rs 30), 0, 30, 5, 9, (fw 9 64), 4, by decide +kernel⟩,
   ⟨(rs 30), 0, 30, 5, 9, (fw 9 64), 4, by decide +kernel⟩,
   ⟨(sp 0 31 9 own1 (rs 30)), 0, 31, 5, 9, (fw 9 64), by decide +kernel⟩,
   ⟨(((sqq 0).putEdge 3 3 5 0 {words := [qw 5 64]}).putSeqr 3 2 {frames := [{fif := 2}]}), 3, 2, 5, 7, (qw 5 64), [], {fif := 2}, by decide +kernel⟩,
   ⟨(((sqq 1).putEdge 3 3 5 0 {words := [qw 5 64]}).putSeqr 3 2 {frames := [{fif := 2}]}), 3, 2, 5, 7, (qw 5 64), [], {fif := 2}, 4096, by decide +kernel⟩,
   ⟨seqFull, 3, 2, 5, 7, (qw 5 64), [], by decide +kernel⟩,
   ⟨rb0, 3, 4, 24, 7, (fw 9 64), 1, 2, by decide +kernel⟩,
   ⟨(rigT 0 0), 3, 4, 24, true, 7, .feed, .clean, by decide +kernel⟩⟩

end WordArrivals

namespace FabricMoves

def tl (s : State) (x : Tile) : State := s.putTile 3 17 x
def ctlB : Nat := 1 * 2^47 + 2 * 2^35
def tq (x : Tile) : State := tl (rigT 1 ctlB) x
def fl (port src : Nat) : State := sp 0 port 9 (own1 + src) (rigT 0 0)
def flw (port src : Nat) : State := (fl port src).putFlit (flitKey 0 src 9) [(2, qw 4 64)]
def lkUp (l : Nat) (s : State) : State := s.setF (Reg.QSK_L_STAT_PHASE l) 5

/-- States that meet the hypotheses of FabricMoves, for each of its clauses. -/
theorem met_FabricMoves :
    (∃ (s : State) (c : Fin 32) (t : Fin 256) (dir : Fin 4) (slot : Fin 128) (src : HoldFrom), (s.inPeriod c slot = true)) ∧
    (∃ (s : State) (c : Fin 32) (side : Fin 4) (lane : Fin 16) (slot : Fin 128) (src : HoldFrom), (s.inPeriod c slot = true)) ∧
    (∃ (s : State) (l pos : Fin 8) (slot : Fin 128) (b : Bool), (s.linkUp l = true)) ∧
    (∃ (s : State) (c : Fin 32) (t : Fin 256) (q : Fin 4) (w : QWord) (ws : List QWord) (j : Nat), 
    let x := s.tile c t
    (x.q q = w :: ws) ∧ (x.slotOf w.tag = none) ∧ (x.freeTag = some j) ∧ (s.debugMode = false) ∧ (decide (8 - ws.length ≤ s.tileMargin c t q) = x.holds q)) ∧
    (∃ (s : State) (c : Fin 32) (t : Fin 256) (q : Fin 4) (w : QWord) (ws : List QWord) (j : Nat) (y : TagSlot), 
    let x := s.tile c t
    (x.q q = w :: ws) ∧ (x.slotOf w.tag = some j) ∧ (x.tagAt j = some y) ∧ (bit1 y.present q = false) ∧ (decide (8 - ws.length ≤ s.tileMargin c t q) = x.holds q)) ∧
    (∃ (s : State) (c : Fin 32) (t : Fin 256) (q : Fin 4) (w : QWord) (ws : List QWord) (j : Nat) (y : TagSlot), 
    let x := s.tile c t
    (x.q q = w :: ws) ∧ (x.slotOf w.tag = some j) ∧ (x.tagAt j = some y) ∧ (bit1 y.present q = true) ∧ (s.room = true) ∧ (decide (8 - ws.length ≤ s.tileMargin c t q) = x.holds q)) ∧
    (∃ (s : State) (c : Fin 32) (t : Fin 256) (q : Fin 4) (w : QWord) (ws : List QWord), 
    let x := s.tile c t
    (x.q q = w :: ws) ∧ (x.slotOf w.tag = none) ∧ (x.freeTag = none) ∧ (s.room = true)) ∧
    (∃ (s : State) (c : Fin 32) (t : Fin 256) (q : Fin 4) (slot : Fin 128) (cycles : Nat), 
    let x := s.tile c t
    (x.holds q = true) ∧ (SMap.get (fun _ => false) x.stalled q = false) ∧ (s.room = true) ∧ (bits (s.getF (Reg.CC_CTX_ROUTER_HDR c (s.ctx c) t)) 28 16 * 16 < cycles)) ∧
    (∃ (s : State) (c : Fin 32) (code : Fin 25) (slot : Fin 128) (cycles : Nat), ((s.gw c 1 code).held = true) ∧ ((s.gw c 1 code).stalled = false) ∧ (s.room = true) ∧ (s.getF (Reg.CC_GW_HDR_HOLD_BOUND c (s.ctx c)) * 16 < cycles)) ∧
    (∃ (s : State) (c : Fin 32) (q : Fin 8) (slot : Fin 128) (cycles : Nat), ((s.seqr c q).full = true) ∧ ((s.seqr c q).stalled = false) ∧ (s.room = true) ∧ (s.seqBound c q * 16 < cycles)) ∧
    (∃ (s : State) (q : Fin 4) (port : Fin 40) (slot : Fin 128) (sent : List EccSeen) (p src : Nat), (s.slotOwner q port slot = some p) ∧ (s.spineEntry q port slot = some src) ∧ (24 ≤ src) ∧ (src < 38) ∧ (24 ≤ port.val) ∧ (port.val < 36) ∧ (s.flit (flitKey q src slot) ≠ []) ∧ (s.noneDone = true) ∧ ((s.outputOf (trunkPeer q port) port ((slot + 7) % 128)).isSome = true)) ∧
    (∃ (s : State) (q : Fin 4) (port : Fin 40) (slot : Fin 128) (sent : List EccSeen) (p src pos code : Nat) (w : QWord), (s.slotOwner q port slot = some p) ∧ (s.spineEntry q port slot = some src) ∧ (24 ≤ src) ∧ (src < 38) ∧ (port.val < 8) ∧ (s.flit (flitKey q src slot) = [(pos, w)]) ∧ (s.noneDone = true) ∧ (s.debugMode = false) ∧ 
    let g := coreAt q port
    
    let x := s.gw g 1 code
    (s.gwCode g 1 slot pos (some p) = some code) ∧ (code ≠ 24) ∧ (s.dom g = 3) ∧ (s.coreMove g ≠ 1) ∧ (x.words.length + 1 + s.gwMargin g 1 < 32) ∧ (x.held = false)) ∧
    (∃ (s : State) (q : Fin 4) (port : Fin 40) (slot : Fin 128) (ecc : FlitEcc) (p : Nat), (s.slotOwner q port slot = some p) ∧ (s.room = true) ∧ 
    let k := ((q.val * 40 + port.val) * 4 + s.pipeCtx p) * 128 + slot.val
    
    let z := s.atSpineSlot slot
    (SMap.get (fun _ => false) s.spineBad k = false) ∧ (s.isFollower p = false) ∧ ((∀ src, s.spineEntry q port slot = some src → s.flit (flitKey q src slot) = []))) ∧
    (∃ (s : State) (q : Fin 4) (port : Fin 40) (slot : Fin 128) (ecc : FlitEcc) (p src : Nat), (s.slotOwner q port slot = some p) ∧ (s.spineEntry q port slot = some src)) ∧
    (∃ (s : State) (q : Fin 4) (port : Fin 40) (slot : Fin 128) (sent : List EccSeen) (p src : Nat), (s.slotOwner q port slot = some p) ∧ (s.spineEntry q port slot = some src) ∧ (24 ≤ src) ∧ (src < 38) ∧ (port.val = 36 ∨ port.val = 37) ∧ (s.noneDone = true) ∧ 
    let l := 2 * q.val + (port.val - 36)
    (s.linkUp l = true) ∧ (s.getF (Reg.QSK_L_LOOP l) = 0)) ∧
    (∃ (s : State) (c : Fin 32) (b : Fin 8) (cycles : Nat), 
    let d := s.rbufDesc c b
    
    let x := s.rbuf c b
    (x.held = true) ∧ (x.stalled = false) ∧ (d.holdBound * 256 < cycles) ∧ (s.room = true)) :=
  ⟨⟨(rigT 0 0), 3, 17, 2, 7, .route, by decide +kernel⟩,
   ⟨(rigT 0 0), 3, 1, 2, 7, (.unit true), by decide +kernel⟩,
   ⟨(lkUp 3 (rigT 0 0)), 3, 2, 126, true, by decide +kernel⟩,
   ⟨(tq { qs := [(1, [qw 77 66, qw 78 67])] }), 3, 17, 1, (qw 77 66), [qw 78 67], 0, by decide +kernel⟩,
   ⟨(tq { qs := [(1, [qw 77 66, qw 78 67])], tags := [(5, some {tag := 66#8, present := 1})] }), 3, 17, 1, (qw 77 66), [qw 78 67], 5, {tag := 66#8, present := 1}, by decide +kernel⟩,
   ⟨(tq { qs := [(1, [qw 77 66, qw 78 67])], tags := [(5, some {tag := 66#8, present := 2})] }), 3, 17, 1, (qw 77 66), [qw 78 67], 5, {tag := 66#8, present := 2}, by decide +kernel⟩,
   ⟨(tq { qs := [(1, [qw 77 66, qw 78 67])], tags := (List.range 8).map (fun i => (i, some {tag := BitVec.ofNat 8 i, present := 2})) }), 3, 17, 1, (qw 77 66), [qw 78 67], by decide +kernel⟩,
   ⟨(tq { held := [(1, true)] }), 3, 17, 1, 5, 17, by decide +kernel⟩,
   ⟨((rigT 0 0).putGw 3 1 4 {held := true}), 3, 4, 5, 17, by decide +kernel⟩,
   ⟨((sqq 1).putSeqr 3 2 {full := true}), 3, 2, 5, 100000, by decide +kernel⟩,
   ⟨(sp (trunkPeer 0 30) 5 16 (own1 + 30) (flw 30 25)), 0, 30, 9, [], 1, 25, by decide +kernel⟩,
   ⟨((flw 5 25).sets [(⟨(Reg.CC_GWIN (coreAt 0 5) 0 9).off,10,5⟩, 7), (⟨(Reg.CC_GWIN (coreAt 0 5) 0 9).off,0,5⟩, 31)]), 0, 5, 9, [], 1, 25, 2, 7, (qw 4 64), by decide +kernel⟩,
   ⟨(fl 3 25), 0, 3, 9, ⟨[],[]⟩, 1, by decide +kernel⟩,
   ⟨(flw 3 25), 0, 3, 9, ⟨[],[]⟩, 1, 25, by decide +kernel⟩,
   ⟨(lkUp 0 (flw 36 25)), 0, 36, 9, [], 1, 25, by decide +kernel⟩,
   ⟨(((rigT 0 0).putRbuf 3 4 { held := true, next := 3 }).sets [(Reg.CC_RBUF 3 0 4 0, 0)]), 3, 4, 1000000, by decide +kernel⟩⟩

end FabricMoves

namespace TileFirings

def tagged (y : TagSlot) (s : State) : State := s.putTile 3 17 { tags := [(2, some y), (4, some { tag := 65#8, present := 15 })] }

/-- States that meet the hypotheses of TileFirings, for each of its clauses. -/
theorem met_TileFirings :
    (∃ (s : State) (c : Fin 32) (t : Fin 256) (j : Nat) (y : TagSlot), (s.domOn c = true) ∧ (s.fires c t = true) ∧ ((s.tile c t).firing = none) ∧ (s.nextFire c t = some j) ∧ ((s.tile c t).tagAt j = some y) ∧ (y.marks = []) ∧ (s.flag (Reg.CC_TALLY_CTL_STAGE_EN c) = false)) ∧
    (∃ (s : State) (mi : TileInstr) (x : FiringSt), (s.issuesTile 0 mi x = true)) ∧
    (∃ (s : State) (mi : TileInstr) (x : FiringSt), (s.issuesTile 4 mi x = true)) ∧
    (∃ (s : State) (mi : TileInstr) (x : FiringSt), (s.issuesTile 19 mi x = true) ∧ ((∀ f, s.tagFrame mi.core x.tag = some f → f.void = none))) ∧
    (∃ (s : State) (mi : TileInstr) (x : FiringSt), (s.domOn mi.core = true) ∧ ((s.tile mi.core mi.tile).firing = some x) ∧ (2 ≤ (s.tile mi.core mi.tile).outq.length)) :=
  ⟨⟨(tagged { tag := 66#8, present := 15 } (rigT 0 (2^47 + 7 * 2^8))), 3, 17, 4, { tag := 65#8, present := 15 }, by decide +kernel⟩,
   ⟨(rigM 0 mi0 3 regs acc0), mi0, fs0, by decide +kernel⟩,
   ⟨(rigM 4 {mi0 with md := 1, imm := 77} 1 regs acc0), {mi0 with md := 1, imm := 77}, fs0, by decide +kernel⟩,
   ⟨(rigM 19 {mi0 with imm := 33} 3 regs acc0), {mi0 with imm := 33}, fs0, by decide +kernel⟩,
   ⟨((rigM 19 mi0 3 regs acc0).onTile 3 17 (fun x => {x with outq := [qw 1 1, qw 2 2]})), mi0, fs0, by decide +kernel⟩⟩

end TileFirings

namespace TileAccumulation

def acc1 : AccSlot := { acc0 with count := 3, elem := [(0, some 4), (9, some 1)] }
def hdr (rc fmt gs : Nat) : Nat := rc + fmt * 2^3 + gs * 2^11 + 10000 * 2^32
def H (rc fmt gs : Nat) := (Reg.CC_CTX_ACC_HDR 3 0 17, hdr rc fmt gs) :: regs
def mii : TileInstr := {mi0 with ty := .i32}

/-- States that meet the hypotheses of TileAccumulation, for each of its clauses. -/
theorem met_TileAccumulation :
    (∃ (s : State) (mi : TileInstr) (x : FiringSt), (s.issuesTile 1 mi x = true) ∧ 
    let f := fireAt mi x
    
    let h := s.accHdr mi.core mi.tile
    
    let k := accSlotOf h f mi
    
    let a := s.accOf f k
    
    let w := fun (n : Nat) => sint 8 (s.runByte f mi.sa n) * (s.runByte f mi.sb (n % h.cols) : Int)
    (a.closed = false) ∧ (h.fmt = 0) ∧ (h.int4 = false) ∧ (h.carry = false) ∧ (mi.md.val % 2 = 0) ∧ (s.passOf mi.core x.tag (s.tileStage mi.core mi.tile) = 0) ∧ (h.elemNo (h.cols - 1) a.count + 1 < h.plen) ∧ (s.flag (Reg.CC_TALLY_CTL_STAGE_EN mi.core) = false)) ∧
    (∃ (s : State) (mi : TileInstr) (x : FiringSt), (s.issuesTile 5 mi x = true) ∧ 
    let f := fireAt mi x
    
    let h := s.accHdr mi.core mi.tile
    
    let k := accSlotOf h f mi
    
    let a := s.accOf f k
    (h.fmt = 1) ∧ (mi.dst.val + 2 * h.rows ≤ 64)) ∧
    (∃ (s : State) (mi : TileInstr) (x : FiringSt), (s.issuesTile 5 mi x = true) ∧ 
    let f := fireAt mi x
    
    let h := s.accHdr mi.core mi.tile
    
    let k := accSlotOf h f mi
    
    let a := s.accOf f k
    (h.fmt = 0) ∧ ((s.rescDesc mi.core mi.tile).out = 3) ∧ (h.corrEn = false) ∧ (mi.dst.val + 2 * h.rows ≤ 64)) :=
  ⟨⟨(rigM 1 mi0 3 (H 0 0 0) acc0), mi0, fs0, by decide +kernel⟩,
   ⟨(rigM 5 mii 1 (H 0 1 0) acc1), mii, fs0, by decide +kernel⟩,
   ⟨(rigM 5 mii 3 ((Reg.CC_RSC 3 0 2 0, 3 * 2) :: H 0 0 0) acc0), mii, fs0, by decide +kernel⟩⟩

end TileAccumulation

namespace TileConversions

def bk (s : State) : State := s.onFrame 1 2 (fun f => { f with bank := [(6, (0x3F800000#32, 12)), (7, (0x40000000#32, 3))] })
def ent : Nat := 2^30 + 30 * 2^31 + 5 * 2^37 + 3 * 2^45 + 250 * 2^53
def dec (n : Nat) : Bool × Rat2 := match Fp.decode Fmt.fp32 n with | .fin a b => (a, b) | _ => (false, ⟨0,0⟩)

/-- States that meet the hypotheses of TileConversions, for each of its clauses. -/
theorem met_TileConversions :
    (∃ (s : State) (mi : TileInstr) (x : FiringSt), (s.issuesTile 17 mi x = true) ∧ 
    let f := fireAt mi x
    
    let d := s.rescDesc mi.core mi.tile
    (d.out = 3)) ∧
    (∃ (s : State) (mi : TileInstr) (x : FiringSt), (s.issuesTile 17 mi x = true) ∧ 
    let f := fireAt mi x
    
    let d := s.rescDesc mi.core mi.tile
    
    let lane := mi.md.val % 4
    
    let e := s.rescEntry f mi.sb
    
    let cx := s.rescCtx f d (bits (s.rdReg f mi.sc) (8 * lane) 8)
    (d.out = 1) ∧ (d.epi = 0) ∧ (e.act = 0) ∧ (e.lo ≤ e.hi)) ∧
    (∃ (s : State) (mi : TileInstr) (x : FiringSt), (s.issuesTile 18 mi x = true)) ∧
    (∃ (s : State) (mi : TileInstr) (x : FiringSt) (neg : Bool) (m : Rat2), (s.issuesTile 18 mi x = true) ∧ 
    let f := fireAt mi x
    
    let lane := mi.md.val % 4
    
    let b := s.bankOf mi.core x.tag (mi.imm.toNat % 4096)
    (Fp.decode Fmt.fp32 (s.rdReg f mi.sa) = .fin neg m)) :=
  ⟨⟨(rigM 17 mi0 3 ((Reg.CC_RSC 3 0 2 0, 3 * 2) :: regs) acc0), mi0, fs0, by decide +kernel⟩,
   ⟨(bk (rigM 17 {mi0 with md := 2} 3 ([(Reg.CC_RSC 3 0 2 0, 2 + 6 * 2^28), (Reg.CC_RSC 3 0 2 1, 0x3F800000 * 2^32)] ++ regs ++ [(st 20, 100), (st 30, ent % 2^32), (st 31, ent / 2^32)]) acc0)), {mi0 with md := 2}, fs0, by decide +kernel⟩,
   ⟨(bk (rigM 18 {mi0 with md := 2, imm := 7} 3 (regs ++ [(st 20, 0x7F800000)]) acc0)), {mi0 with md := 2, imm := 7}, fs0, by decide +kernel⟩,
   ⟨(bk (rigM 18 {mi0 with md := 1, imm := 7} 3 (regs ++ [(st 20, 0x41280000)]) acc0)), {mi0 with md := 1, imm := 7}, fs0, (dec 0x41280000).1, (dec 0x41280000).2, by decide +kernel⟩⟩

end TileConversions

namespace SpillsAndStageOutputs

def cdv (mode : Nat) : Nat := 100 + 8 * 2^15 + 10 * 2^32 + 1 * 2^47 + mode * 2^49 + 2^51 + 9 * 2^52
def spw (v last idx : Nat) : QWord := { data := BitVec.ofNat 64 (v + last * 2^49 + idx * 2^50), tag := 66#8 }
def cs (mode : Nat) (ws : List QWord) : State := ((rigT 0 0).sets [(Reg.CC_CARRY_DESC 3 0 5, cdv mode)]).putEdge 3 2 5 0 { words := ws }
def ce (x : CarryEntry) (e : Nat) (s : State) : State := s.putCarry 3 e x
def seqd (rm x : Nat) : Nat := 2 + 0 * 2^32 + rm * 2^40 + 1 * 2^42 + 2^44 + x * 0
def sqf (rm : Nat) (y : SeqFrame) (s : State) : State := (s.sets [(Reg.CC_SEQ 3 0 2 0, seqd rm 0), (Reg.CC_SEQ 3 0 2 1, 4096 + 16 * 2 ^ 32)]).putSeqr 3 2 {frames := [y], full := true}
def y0 : SeqFrame := { fif := 2, got := 2, held := [{word := qw 5 64}, {word := qw 6 64, addr := some 4096}] }
def fo : Frame := {fr with outs := [(0, (4, 2, 1))]}
def ro : State := (rigT 0 0).onFrame 1 2 (fun f => {f with outs := [(0, (4, 2, 1))]})
def stg : StageRec := {stage := 0, kind := 0, sect := 0, seqCore := 3, seq := 0, retallyMax := 0, minMhz := 0, workOff := 0, dR := 0, outCount := 1, reorderBase := 0, reorderLen := 0, cores := [3]}
def tr : TensorRec := { idx := 44, kind := 0, initLo := 0#32, initHi := 0x3F800000#32 }
def fsd : State := (rigT 0 0).onPipe 1 (fun p => {p with tensors := [tr], tbase := 0x3000000000, usesScale := true, frames := p.frames.map (fun f => {f with stagesDone := [0], made := [(44,0,9)], ranges := [(44, (0xBF800000#32, 0x40000000#32))]})})

/-- States that meet the hypotheses of SpillsAndStageOutputs, for each of its clauses. -/
theorem met_SpillsAndStageOutputs :
    (∃ (s : State) (c : Fin 32) (col : Fin 16) (w : QWord) (rest : List QWord), 
    let d := s.carryDesc c col
    
    let n := w.data.toNat
    
    let e := d.base + fifOf w.tag * d.stride + bits n 50 14
    
    let x := s.carryAt c e
    ((s.edge c 2 col 0).words = w :: rest) ∧ (w.mark = none) ∧ (d.mode ≤ 1) ∧ (bits n 50 14 ≤ d.len) ∧ (x.ecc = .clean) ∧ (x.last + b2n (bit1 n 49) < d.parts)) ∧
    (∃ (s : State) (c : Fin 32) (col : Fin 16) (w : QWord) (rest : List QWord), 
    let d := s.carryDesc c col
    
    let n := w.data.toNat
    
    let e := d.base + fifOf w.tag * d.stride + bits n 50 14
    
    let x := s.carryAt c e
    ((s.edge c 2 col 0).words = w :: rest) ∧ (w.mark = none) ∧ (d.mode ≤ 1) ∧ (bits n 50 14 ≤ d.len) ∧ (x.ecc = .clean) ∧ (d.parts ≤ x.last + b2n (bit1 n 49)) ∧ ((s.edge c 2 d.outCol 1).words.length < 8)) ∧
    (∃ (s : State) (c : Fin 32) (col : Fin 16) (w : QWord) (rest : List QWord) (seen : EccSeen), 
    let d := s.carryDesc c col
    
    let n := w.data.toNat
    
    let x := s.carryAt c (d.base + fifOf w.tag * d.stride + bits n 50 14)
    ((s.edge c 2 col 0).words = w :: rest) ∧ (d.mode ≤ 1) ∧ (bits n 50 14 ≤ d.len) ∧ (d.parts ≤ x.last + b2n (bit1 n 49)) ∧ (8 ≤ (s.edge c 2 d.outCol 1).words.length)) ∧
    (∃ (s : State) (c : Fin 32) (col : Fin 16) (w i : QWord) (rest : List QWord), 
    let d := s.carryDesc c col
    
    let n := w.data.toNat
    
    let e := d.base + fifOf w.tag * d.stride + bits n 50 14 * 2
    
    let x := s.carryAt c e
    
    let y := s.carryAt c (e + 1)
    ((s.edge c 2 col 0).words = w :: i :: rest) ∧ (w.mark = none) ∧ (2 ≤ d.mode) ∧ (bits n 50 14 ≤ d.len) ∧ (x.ecc = .clean) ∧ (y.ecc = .clean) ∧ (bit1 i.data.toNat 31 = false) ∧ ((bit1 y.value.toNat 31 = true ∨ (if d.mode = 3 then sint 48 n < sint 48 x.value.toNat else sint 48 x.value.toNat < sint 48 n) ∨ (sint 48 n = sint 48 x.value.toNat ∧ i.data.toNat % 2 ^ 31 < y.value.toNat % 2 ^ 31))) ∧ (x.last + b2n (bit1 n 49) < d.parts)) ∧
    (∃ (s : State) (c : Fin 32) (col : Fin 16) (w : QWord) (rest : List QWord) (seen : EccSeen), 
    let d := s.carryDesc c col
    ((s.edge c 2 col 0).words = w :: rest) ∧ (w.mark = none) ∧ (d.mode ≤ 1) ∧ (d.len < bits w.data.toNat 50 14) ∧ (s.room = true)) ∧
    (∃ (s : State) (c : Fin 32) (q : Fin 8) (f : Frame) (y : SeqFrame), 
    let d := s.seqDesc c q
    ((s.pipe d.pipe).oldestOwing d.stage = some f) ∧ ((s.pipe d.pipe).frame f.fif = some f) ∧ ((s.seqr c q).frames.find? (fun y => y.fif == f.fif) = some y) ∧ (d.valid = true) ∧ (d.outCount ≤ y.got) ∧ (d.retallyMax = 0 ∨ y.settled = true) ∧ (s.isFollower d.pipe = false) ∧ ((∀ w ∈ y.held, ∀ a, w.addr = some a → a % 8 = 0 ∧ s.eccAt (storeKey c a) = .clean))) ∧
    (∃ (s : State) (c : Fin 32) (q fif : Fin 8) (streams : List (Fin 32 × Fin 8)) (f : Frame) (y : SeqFrame), 
    let d := s.seqDesc c q
    ((s.pipe d.pipe).frame fif = some f) ∧ ((s.seqr c q).frames.find? (fun y => y.fif == fif.val) = some y) ∧ (d.valid = true) ∧ (d.retallyMax ≠ 0) ∧ (d.outCount ≤ y.got) ∧ (y.settled = false) ∧ ((SMap.get (fun _ => (0, 0, 0)) f.outs d.stage).2.1 = 0 ∨ f.void ≠ none ∨ d.retallyMax ≤ SMap.get (fun _ => 0) f.attempt d.stage)) ∧
    (∃ (s : State) (c : Fin 32) (q fif : Fin 8) (streams : List (Fin 32 × Fin 8)) (f : Frame) (y : SeqFrame) (g : StageRec), 
    let d := s.seqDesc c q
    
    let r := SMap.get (fun _ => 0) f.attempt d.stage
    ((s.pipe d.pipe).frame fif = some f) ∧ ((s.seqr c q).frames = [y]) ∧ (y.fif = fif.val) ∧ (d.valid = true) ∧ (d.retallyMax ≠ 0) ∧ (d.outCount ≤ y.got) ∧ (y.settled = false) ∧ ((SMap.get (fun _ => (0, 0, 0)) f.outs d.stage).2.1 ≠ 0) ∧ (f.void = none) ∧ (r < d.retallyMax) ∧ ((s.pipe d.pipe).stages.find? (fun g => g.stage == d.stage) = some g) ∧ ((s.pipe d.pipe).quosk = false) ∧ (s.room = true)) ∧
    (∃ (s : State) (p : Fin 4) (fif : Fin 8) (stage : Fin 256) (tensor : Fin 4096) (f : Frame) (adapt n : Nat), ((s.pipe p).toFold fif stage tensor = some (f, adapt)) ∧ ((s.pipe p).recOf tensor = some n) ∧ (s.sol.lost = false) ∧ (s.isFollower p = false) ∧ 
    let a := (s.pipe p).recAddr f.stream n
    
    let r := s.unitRead a 0
    
    let old := ScaleRec.ofBytes r.2.bytes
    
    let o := SMap.get (fun _ => (0#32, 0#32)) f.ranges tensor
    (r.2.bad = false) ∧ (r.2.unavail = false)) ∧
    (∃ (s : State) (p : Fin 4) (fif : Fin 8) (stage : Fin 256) (tensor : Fin 4096), (s.sol.lost = true)) :=
  ⟨⟨(cs 0 [spw 77 1 3, qw 1 1]), 3, 5, (spw 77 1 3), [qw 1 1], by decide +kernel⟩,
   ⟨(ce { value := 0x7FFFFFFFFFFF#48, last := 1 } 123 (cs 0 [spw 77 1 3, qw 1 1])), 3, 5, (spw 77 1 3), [qw 1 1], by decide +kernel⟩,
   ⟨((ce { value := 0x800#48, last := 1 } 123 (cs 1 [spw 77 1 3, qw 1 1])).putEdge 3 2 9 1 {words := List.replicate 8 (qw 1 1)}), 3, 5, (spw 77 1 3), [qw 1 1], .double, by decide +kernel⟩,
   ⟨(ce emptyIndex 127 (cs 2 [spw 77 1 3, qw 55 66, qw 1 1])), 3, 5, (spw 77 1 3), (qw 55 66), [qw 1 1], by decide +kernel⟩,
   ⟨(cs 0 [spw 77 1 9, qw 1 1]), 3, 5, (spw 77 1 9), [qw 1 1], .clean, by decide +kernel⟩,
   ⟨(sqf 0 y0 (rigT 0 0)), 3, 2, fr, y0, by decide +kernel⟩,
   ⟨(sqf 1 y0 (rigT 0 0)), 3, 2, 2, [(4, 5)], fr, y0, by decide +kernel⟩,
   ⟨(sqf 1 y0 ro), 3, 2, 2, [(4, 5)], fo, y0, stg, by decide +kernel⟩,
   ⟨fsd, 1, 2, 0, 44, {fr with stagesDone := [0], made := [(44,0,9)], ranges := [(44, (0xBF800000#32, 0x40000000#32))]}, 9, 0, by decide +kernel⟩,
   ⟨(fsd.setSol {fsd.sol with lost := true}), 1, 2, 0, 44, by decide +kernel⟩⟩

end SpillsAndStageOutputs

namespace SectionSwitching

def ss (n : Nat) : State := (rigT 0 0).onPipe 1 (fun p => {p with nsect := n, frames := p.frames.map (fun f => {f with stagesDone := [0]})})
def fd : Frame := {fr with stagesDone := [0]}

/-- States that meet the hypotheses of SectionSwitching, for each of its clauses. -/
theorem met_SectionSwitching :
    (∃ (s : State) (c : Fin 32) (p : Nat) (f : Frame), (s.coreOwner c = some p) ∧ (((s.pipe p).past.filter (fun f => f.inSect) ++ (s.pipe p).frames).find? (fun f => f.admitted) = some f) ∧ (2 ≤ (s.pipe p).nsect) ∧ ((s.pipe p).sectDone c (s.getF (Reg.CC_CTX_STAT_SECTION c)) f.stagesDone = true) ∧ (c.val ∉ (s.pipe p).ended) ∧ (s.domOn c = true) ∧ (s.coreEmpty c = true) ∧ ((∀ r, r < 16 → (s.carryDesc c r).valid = true → s.residue c (s.carryDesc c r) = [])) ∧ (((s.pipe p).nsect ≤ 4 ∨ ∃ b ∈ s.coresOf p, b ≠ c.val ∧ b ∉ (s.pipe p).ended))) ∧
    (∃ (s : State) (c : Fin 32) (p : Nat), (s.coreOwner c = some p) ∧ (s.flag (Reg.CC_CTX_STAT_RELOAD c) = true)) ∧
    (∃ (s : State) (p : Fin 4), (2 ≤ (s.pipe p).nsect) ∧ ((s.pipe p).ctxFail = false) ∧ ((∀ c ∈ s.coresOf p, c ∈ (s.pipe p).ended)) ∧ (((s.pipe p).nsect ≤ 4 ∨ ∀ c ∈ s.coresOf p, c ∈ (s.pipe p).reloaded)) ∧ ((s.coresOf p).Nodup)) :=
  ⟨⟨(ss 3), 3, 1, fd, by decide +kernel⟩,
   ⟨((ss 6).sets [(Reg.CC_CTX_STAT_RELOAD 3, 1), (Reg.CC_CIMG_STRIDE 3, 0x40000)]), 3, 1, by decide +kernel⟩,
   ⟨((ss 3).onPipe 1 (fun p => {p with ended := [3]})), 1, by decide +kernel⟩⟩

end SectionSwitching

namespace CoreUnits

def hb (due : Nat) : HbExpect := { beat := 9, pipe := 1, due := due }
def hs (c : Nat) (l : List HbExpect) : State := (rig1 2).onCore c (fun x => {x with expects := l})
def tk (c : Nat) : W64 := BitVec.ofNat 64 (9 + 2^46 + c * 2^48 + 2^56)
def hp (d : Option (List Byte)) : HeldPart := { id := 7, unit := 3, addr := 0x2003000100, len := 8, pos := 0, data := d, req := 2, due := 1000000500 }
def hd (d : Option (List Byte)) : State := ((rigT 0 0).setHeld [hp d]).setReqs [(7, { left := 1, dest := .service 2 })]
def ty : State := rig.sets [(Reg.CC_TALLY 3 7, 55)]
def tw (a b : Nat) : WriteReq := stw (a * 2 ^ (Reg.CC_TALLY_CTL_SNAP 3).lo + b * 2 ^ (Reg.CC_TALLY_CTL_CLEAR 3).lo)

/-- States that meet the hypotheses of CoreUnits, for each of its clauses. -/
theorem met_CoreUnits :
    (∃ (s : State) (token : W64) (u : Nat) (e : HbExpect), (tokenUnit token = some u) ∧ (s.domHolds u = true) ∧ ((s.core u).expects.find? (fun e => e.beat % 2 ^ 32 == bits token.toNat 0 32 && e.pipe == bits token.toNat 46 2) = some e) ∧ (s.now ≤ e.due)) ∧
    (∃ (s : State) (c : Fin 32) (beat pipe : Nat) (e : HbExpect), (pipe < 4) ∧ (beat < 2 ^ 32) ∧ ((s.core c).expects = [e]) ∧ (e.beat = beat) ∧ (e.pipe = pipe) ∧ (s.now ≤ e.due) ∧ (s.domHolds c = true)) ∧
    (∃ (s : State) (c : Fin 32) (e : HbExpect) (rest : List HbExpect), ((s.core c).expects = e :: rest) ∧ (s.getF (Reg.CC_HB_STAT_MISS c) + 1 < s.missLimit) ∧ (s.missLimit ≤ 15) ∧ (s.domHolds c = true) ∧ (bit1 (s.getF Reg.MGT_CORE_LOST) c = false)) ∧
    (∃ (s : State) (c : Fin 32) (token : W64), (tokenUnit token = some c.val) ∧ (s.domHolds c = false) ∧ (s.room = true) ∧ (SMap.get (fun _ => false) s.pwr.offRaised c = false)) ∧
    (∃ (s : State) (c : Fin 32) (e : HbExpect) (rest : List HbExpect), ((s.core c).expects = e :: rest) ∧ (s.domHolds c = false ∨ bit1 (s.getF Reg.MGT_CORE_LOST) c = true)) ∧
    (∃ (s : State) (c : Fin 32) (storage : Bool), (s.domHolds c = true) ∧ (bit1 (s.getF Reg.MGT_CORE_LOST) c = false) ∧ (s.room = true)) ∧
    (∃ (s : State) (c : Fin 32) (storage : Bool), (s.domHolds c = false ∨ bit1 (s.getF Reg.MGT_CORE_LOST) c = true)) ∧
    (∃ (s : State) (c : Fin 32) (h : HeldPart), (s.held.find? (fun h => h.unit == c.val) = some h) ∧ ((s.reqOf h.id).codes.contains 0x029 = false) ∧ (s.room = true)) ∧
    (∃ (s : State) (c : Fin 32) (h : HeldPart) (q : Nat), (s.held.find? (fun h => h.unit == c.val) = some h) ∧ (s.reqOf h.id = { left := 1, dest := .service q }) ∧ (h.data ≠ none) ∧ (s.room = true) ∧ (s.noneDone = true)) ∧
    (∃ (s : State) (c : Fin 32) (w : WriteReq) (i : Nat), (s.takesAct w (Reg.CC_TALLY_CTL_SNAP c).off = true) ∧ (i < 16) ∧ (wBit w (Reg.CC_TALLY_CTL_SNAP c) = true) ∧ (wBit w (Reg.CC_TALLY_CTL_CLEAR c) = false)) ∧
    (∃ (s : State) (c : Fin 32) (w : WriteReq) (i : Nat), (s.takesAct w (Reg.CC_TALLY_CTL_SNAP c).off = true) ∧ (i < 16) ∧ (wBit w (Reg.CC_TALLY_CTL_CLEAR c) = true)) ∧
    (∃ (s : State) (c : Fin 32) (w : WriteReq), (s.takes w (Reg.CC_TALLY_CTL_SNAP c).off = true) ∧ (s.domOn c = false)) ∧
    (∃ (s : State) (c : Fin 32) (o : Fin 0xE0000) (w : WriteReq), 
    let off := 0x1000000 + 0x100000 * c.val + o.val / 8 * 8
    (s.takes w off = true) ∧ ((if inImem o then ∀ j, j < 16 → s.slotState c j ≠ 1 else s.corePlaced c = false))) ∧
    (∃ (s : State) (c : Fin 32) (o : Fin 0xE0000) (w : WriteReq), (s.takes w (0x1000000 + 0x100000 * c.val + o.val / 8 * 8) = true) ∧ (inImem o = false) ∧ (s.corePlaced c = true)) ∧
    (∃ (s : State) (c : Fin 32) (r : ReadReq), (s.domHolds c = true) ∧ (coversLo r.half = true)) :=
  ⟨⟨((hs 3 [hb 1000000002, hb 1000000001]).sets [(Reg.CC_HB_STAT_MISS 3, 2)]), (tk 3), 3, (hb 1000000002), by decide +kernel⟩,
   ⟨((hs 3 [hb 1000000002]).sets [(Reg.CC_HB_STAT_MISS 3, 2)]), 3, 9, 1, (hb 1000000002), by decide +kernel⟩,
   ⟨(hs 3 [hb 1000000002]), 3, (hb 1000000002), [], by decide +kernel⟩,
   ⟨(rig.sets [(Reg.PWR_DOM_STAT_STATE 3, 0)]), 3, (tk 3), by decide +kernel⟩,
   ⟨((hs 3 [hb 1000000002]).sets [(Reg.PWR_DOM_STAT_STATE 3, 0)]), 3, (hb 1000000002), [], by decide +kernel⟩,
   ⟨rig, 3, true, by decide +kernel⟩,
   ⟨(rig.sets [(Reg.PWR_DOM_STAT_STATE 3, 0)]), 3, true, by decide +kernel⟩,
   ⟨(hd none), 3, (hp none), by decide +kernel⟩,
   ⟨(hd (some (leBytes 8 5))), 3, (hp (some (leBytes 8 5))), 2, by decide +kernel⟩,
   ⟨ty, 3, (tw 1 0), 7, by decide +kernel⟩,
   ⟨ty, 3, (tw 1 1), 7, by decide +kernel⟩,
   ⟨(ty.sets [(Reg.PWR_DOM_STAT_STATE 3, 1)]), 3, (tw 0 1), by decide +kernel⟩,
   ⟨rig, 3, 0xC8008, (stw (2^64-1)), by decide +kernel⟩,
   ⟨(rigT 0 0), 3, 0x28, (stw 5), by decide +kernel⟩,
   ⟨(ty.sets [(Reg.CC_WDENY_COUNT 3, 5)]), 3, { agent := .steward, half := .lo }, by decide +kernel⟩⟩

end CoreUnits

namespace WindowStreams

def f0 (rh ro : Nat) : Nat := 3 + 4 * 2^6 + rh * 2^9 + 1 * 2^20 + 1 * 2^24 + ro * 2^60 + 2^63
def wb (rh ro : Nat) : State := (rigT 0 0).sets [(Reg.CC_RBUF 3 0 4 0, w0), (Reg.CC_RBUF 3 0 4 1, w1), (Reg.CC_FSTR 3 0 5 0, f0 rh ro), (Reg.CC_FSTR 3 0 5 1, 4 * 2^16 + 4 * 2^32 + 1 * 2^48), (Reg.CC_FSTR 3 0 5 2, 4 + 4 * 2^16 + 4 * 2^32), (Reg.CC_FSTR 3 0 5 3, 4 * 2^50)]
def fsn : State := (rbx (wb 1 1) inBands)
def sent : State := ((rbx (wb 1 1) inBands).putFstr' 3 5 {}).onFrame 1 2 (fun f => {f with sent := [29]})

/-- States that meet the hypotheses of WindowStreams, for each of its clauses. -/
theorem met_WindowStreams :
    (∃ (s : State) (c : Fin 32) (b : Fin 8) (p fif : Nat), 
    let x := s.rbuf c b
    
    let d := s.rbufDesc c b
    
    let j := x.next % max 1 d.nbands
    (s.coreOwner c = some p) ∧ (s.nextBandFif p x = some fif) ∧ (x.cur = none) ∧ ((SMap.get (fun _ => {}) x.slots j : RingSlot).remaining = 0)) ∧
    (∃ (s : State) (c : Fin 32) (b : Fin 8) (p fif : Nat), 
    let x := s.rbuf c b
    (s.coreOwner c = some p) ∧ (s.nextBandFif p x = some fif) ∧ (x.cur = none) ∧ (fif < 8) ∧ (s.room = true) ∧ ((SMap.get (fun _ => {}) x.slots (x.next % max 1 (s.rbufDesc c b).nbands) : RingSlot).remaining ≠ 0)) ∧
    (∃ (s : State) (c : Fin 32) (b : Fin 8) (p fif : Nat) (f : Frame) (rest : List (Nat × Nat)), 
    let x := s.rbuf c b
    
    let d := s.rbufDesc c b
    
    let j := x.next % max 1 d.nbands
    (s.coreOwner c = some p) ∧ (s.sol.mac = (p, fif) :: rest) ∧ ((s.pipe p).frame fif = some f) ∧ (s.sol.lost = false) ∧ (s.domOn 32 = true) ∧ (s.nextBandFif p x = some fif) ∧ (x.cur = none)) ∧
    (∃ (s : State) (c : Fin 32) (b g : Fin 8) (p fif : Nat) (st : StageRec), 
    let x := s.rbuf c b
    
    let d := s.rbufDesc c b
    
    let k := s.dwDesc c
    
    let j := x.next % max 1 d.nbands
    (s.coreOwner c = some p) ∧ (s.dwStage p c = some st) ∧ (s.nextBandFif p x = some fif) ∧ (k.valid = true) ∧ (k.outBuf = b.val) ∧ ((∀ y ∈ k.rows (x.band * d.bandRows) (x.band * d.bandRows + d.rowsOf x.band - 1), (s.sourceRow p c (s.fstrDesc c k.engine) fif y).isSome = true)) ∧ (x.cur = none) ∧ ((RescDesc.ofWords (s.getF (Reg.CC_RSC c (s.ctx c) g 0)) 0).epi = 0)) ∧
    (∃ (s : State) (c : Fin 32) (b g : Fin 8), ((RescDesc.ofWords (s.getF (Reg.CC_RSC c (s.ctx c) g 0)) 0).epi ≠ 0)) ∧
    (∃ (s : State) (c : Fin 32) (e : Fin 8) (tensor : Fin 4096) (r : Fin 16) (p fif i a : Nat) (x : FStream), 
    let d := s.fstrDesc c e
    
    let o := 8 * (i % max 1 d.rowWords)
    (s.coreOwner c = some p) ∧ (d.valid = true) ∧ (s.domOn c = true) ∧ ((s.edge c 3 r 1).words.length < 8) ∧ (i + 1 < d.total) ∧ (s.streamNext p c e d = some (fif, i, x)) ∧ (d.rowsOnly = true) ∧ (d.src ≠ 63) ∧ (d.rhold = true) ∧ (s.ecc = []) ∧ ((match (s.pipe p).frame fif with | some f => f.void.isNone | none => true) = true) ∧ (s.ringOff d.src d.buf fif (d.rowLo + i / max 1 d.rowWords) o = some a) ∧ (o + 8 ≤ rowPitch d.layout d.wIn d.cTotal) ∧ ((∀ k, k < 8 → unusedByte d.layout d.wIn d.cTotal (o + k) = false))) ∧
    (∃ (s : State) (c : Fin 32) (e : Fin 8) (tensor : Fin 4096) (code : Fin 25), (code.val ≠ 16 + e.val)) ∧
    (∃ (s : State) (c : Fin 32) (e fif : Fin 8) (p : Nat) (f : Frame), 
    let d := s.fstrDesc c e
    (s.coreOwner c = some p) ∧ (d.valid = true) ∧ (d.rhold = true) ∧ (s.holdsBands c e d fif = true) ∧ ((s.pipe p).frame fif = some f) ∧ (c.val * 8 + e.val ∉ f.sent)) ∧
    (∃ (s : State) (c : Fin 32) (e fif : Fin 8) (p : Nat) (f : Frame), 
    let d := s.fstrDesc c e
    (s.coreOwner c = some p) ∧ (d.valid = true) ∧ (d.rhold = true) ∧ (s.holdsBands c e d fif = true) ∧ ((s.pipe p).frame fif = some f) ∧ (c.val * 8 + e.val ∈ f.sent) ∧ (fif.val ∉ (s.fstr' c e).again)) ∧
    (∃ (s : State) (c : Fin 32) (e fif : Fin 8) (p : Nat), 
    let d := s.fstrDesc c e
    (s.coreOwner c = some p) ∧ (d.valid = true) ∧ (d.rhold = true) ∧ (s.holdsBands c e d fif = true)) ∧
    (∃ (s : State) (c : Fin 32) (e fif : Fin 8) (p : Nat), 
    let d := s.fstrDesc c e
    (s.coreOwner c = some p) ∧ (d.valid = false ∨ d.rhold = false ∨ s.holdsBands c e d fif = false) ∧ (s.room = true)) :=
  ⟨⟨(rbx (wb 1 1) {}), 3, 4, 1, 2, by decide +kernel⟩,
   ⟨(rbx (wb 1 1) { next := 7, band := 1, fif := some 2, slots := [(1, { fif := 1, valid := true, band := 3, remaining := 1 })] }), 3, 4, 1, 2, by decide +kernel⟩,
   ⟨(wst (rbx (wb 1 1) {})), 3, 4, 1, 2, fr, [(2, 5)], by decide +kernel⟩,
   ⟨(dwS (rbx (wb 0 1) inBands)), 3, 6, 0, 1, 2, dws, by decide +kernel⟩,
   ⟨(rig.sets [(Reg.CC_RSC 3 0 2 0, 2 ^ 64 - 1)]), 3, 0, 2, by decide +kernel⟩,
   ⟨fsn, 3, 5, 0, 7, 1, 2, 0, 0x1000, (fsn.fstr' 3 5), by decide +kernel⟩,
   ⟨fsn, 3, 5, 0, 7, by decide +kernel⟩,
   ⟨((rbx (wb 1 1) inBands).putFstr' 3 5 {}), 3, 5, 2, 1, fr, by decide +kernel⟩,
   ⟨sent, 3, 5, 2, 1, {fr with sent := [29]}, by decide +kernel⟩,
   ⟨((rbx (wb 1 1) inBands).putFstr' 3 5 {}), 3, 5, 2, 1, by decide +kernel⟩,
   ⟨(wb 0 1), 3, 5, 2, 1, by decide +kernel⟩⟩

end WindowStreams

namespace SolsticeEngine

def bk (s : State) : State := s.onFrame 1 2 (fun f => { f with bank := [(5, (0x3F800000#32, 12)), (7, (0x40000000#32, 3))] })
def f0 (rh ro : Nat) : Nat := 3 + 4 * 2^6 + rh * 2^9 + 1 * 2^20 + 1 * 2^24 + ro * 2^60 + 2^63
def wb (rh ro : Nat) : State := (rigT 0 0).sets [(Reg.CC_RBUF 3 0 4 0, w0), (Reg.CC_RBUF 3 0 4 1, w1), (Reg.CC_FSTR 3 0 5 0, f0 rh ro), (Reg.CC_FSTR 3 0 5 1, 4 * 2^16 + 4 * 2^32 + 1 * 2^48), (Reg.CC_FSTR 3 0 5 2, 4 + 4 * 2^16 + 4 * 2^32), (Reg.CC_FSTR 3 0 5 3, 4 * 2^50)]
def sc (s : State) : State := (wst s).setSol { s.sol with scan := some (1, 2), mac := [(0, 1)] }
def prep (s : State) : State := ((s.sets [(Reg.ING_STR_IBUF_BASE 5, 0x3000001000), (Reg.ING_STR_IBUF_STRIDE 5, 64)]).onPipe 1 (fun p => {p with io := {w := 2, h := 2, chans := 1, layout := 0}, sol := {p.sol with mean := [0x40000000#32, 0, 0], istd := [0x3F800000#32, 0, 0]}}))
def g1 (s : State) : Frame := (((s.readInput 1 fr).pipe 1).frame 2).getD fr
def seqr : State := wst (rbx (wb 1 1) { next := 2, band := 0, fif := some 2 })
def tailc : ConvConf := { inW := 1, inH := 1, inC := 1, outC := 1, zw := [3], entries := [0], rsc0 := 3 * 2 + 5 * 2^28, outOff := 64, outLayout := 0 }
def tst (m : Option Mark) : State := let s := bk (rigT 0 0); (s.setSol { s.sol with tail := [(1, 2), (2, 5)], tailIn := [(10, [{qw 200 64 with mark := m}])] }).onPipe 1 (fun p => {p with sol := {p.sol with tail := tailc}, usesTail := true, outBase := 0x3000002000, outBank := 256})
def frb : Frame := { fr with bank := [(5, (0x3F800000#32, 12)), (7, (0x40000000#32, 3))] }

/-- States that meet the hypotheses of SolsticeEngine, for each of its clauses. -/
theorem met_SolsticeEngine :
    (∃ (s : State) (p fif : Nat) (f g : Frame), s.sol.scan = some (p, fif) ∧ (s.pipe p).frame fif = some f ∧ s.sol.lost = false ∧
      s.domOn 32 = true ∧ ((s.readInput p f).pipe p).frame fif = some g) ∧
    (∃ (s : State) (p fif : Nat) (rest : List (Nat × Nat)) (f : Frame) (errs : List (Fin 327680 × Bool)), 
    let q := s.pipe p
    
    let k := q.sol.stem
    
    let x := s.rbuf k.outCore k.outBuf
    
    let st := q.stageOf 3
    (s.sol.mac = (p, fif) :: rest) ∧ (q.frame fif = some f) ∧ (x.fif = some fif) ∧ (x.band = 0) ∧ (x.cur = none) ∧ (s.sol.lost = false)) ∧
    (∃ (s : State) (p fif : Nat) (rest : List (Nat × Nat)) (f : Frame) (errs : List (Fin 327680 × Bool)), 
    let q := s.pipe p
    
    let ws := SMap.get (fun _ => []) s.sol.tailIn (p * 8 + fif)
    (s.sol.tail = (p, fif) :: rest) ∧ (q.frame fif = some f) ∧ (q.sol.tail.inWords ≤ ws.length) ∧ (s.sol.lost = false) ∧ (s.domOn 32 = true)) ∧
    (∃ (s : State) (p fif off : Nat) (rest : List (Nat × Nat)) (f : Frame), 
    let q := s.pipe p
    
    let k := q.sol.tail
    
    let st := q.stageOf 4
    
    let ws := SMap.get (fun _ => []) s.sol.tailIn (p * 8 + fif)
    
    let bs := ws.flatMap (fun w => leBytes 8 w.data.toNat)
    
    let code := fun (y x ch : Nat) =>
      ((fieldLe bs (y * (ceilDiv (rowPitch k.inLayout k.inW k.inC) 8) * 8 + rowOffset k.inLayout k.inW k.inC x ch) 1 : Nat) :
        Int) - ((s.bankFif p fif k.desc.inT).2 : Int)
    
    let total := s.convTotal q.solBase k code 0 0 0
    
    let v := clampI (-2147483648) 2147483647 total
    (s.sol.tail = (p, fif) :: rest) ∧ (q.frame fif = some f) ∧ (k.inWords ≤ ws.length) ∧ (s.sol.lost = false) ∧ (s.domOn 32 = true) ∧ (s.sol.wecc = []) ∧ (k.desc.out = 3) ∧ (k.outLayout = 0) ∧ (k.hOut = 1) ∧ (k.wOut = 1) ∧ (k.outC = 1) ∧ (s.isFollower p = false) ∧ (s.place (q.bankAddr fif + k.outOff) = .host off) ∧ (off % 32 = 0)) ∧
    (∃ (s : State) (cause : Fin 4), (s.sol.lost = false) ∧ (s.room = true)) ∧
    (∃ (s : State) (cause : Fin 4), (s.sol.lost = true)) ∧
    (∃ (s : State) (c : Fin 32) (p fif : Nat) (st : StageRec) (f : Frame), 
    let d := s.dwDesc c
    
    let x := s.rbuf c d.outBuf
    (s.coreOwner c = some p) ∧ (s.dwStage p c = some st) ∧ (x.fif = some fif) ∧ (d.valid = true) ∧ (x.band = 0) ∧ (x.cur = none) ∧ ((s.pipe p).frame fif = some f) ∧ (st.stage ∉ f.stagesDone) ∧ ((∀ y ∈ (s.seqr st.seqCore st.seq).frames, y.fif ≠ fif))) :=
  ⟨⟨prep (sc (wb 1 1)), 1, 2, fr, g1 (prep (sc (wb 1 1))), by decide +kernel⟩,
   ⟨seqr, 1, 2, [(2,5)], fr, [(0, true), (70, false)], by decide +kernel⟩,
   ⟨(tst none), 1, 2, [(2,5)], frb, [(0, true), (70, false)], by decide +kernel⟩,
   ⟨(tst none), 1, 2, 0x2240, [(2,5)], frb, by decide +kernel⟩,
   ⟨(tst none), 2, by decide +kernel⟩,
   ⟨(rig.setSol {rig.sol with lost := true}), 1, by decide +kernel⟩,
   ⟨((dwS (rbx (wb 0 1) inBands)).putRbuf 3 6 { fif := some 2, next := 4 }), 3, 1, 2, dws, fr, by decide +kernel⟩⟩

end SolsticeEngine

/-- States that meet the hypotheses of VectorFloatingPoint, for each of its clauses. -/
theorem met_VectorFloatingPoint :
    ∃ (f : Fmt), (f = Fmt.fp32 ∨ f = Fmt.fp16 ∨ f = Fmt.bf16) :=
  ⟨.bf16, Or.inr (Or.inr rfl)⟩

/-- States that meet the hypotheses of VectorApproximations, for each of its clauses. -/
theorem met_VectorApproximations :
    (∃ (f : Fmt) (k x : Nat), (k < 7) ∧ (f = Fmt.fp32 ∨ f = Fmt.fp16 ∨ f = Fmt.bf16) ∧ (f.isNan x = true)) ∧
    (∃ (f : Fmt) (k x : Nat), (k < 7) ∧ (f = Fmt.fp16 ∨ f = Fmt.bf16) ∧ (f.isNan x = false)) ∧
    (∃ x, (x < 2 ^ 32) ∧ (Fmt.fp32.isNan x = false)) ∧
    (∃ (k : Int) (neg : Bool), (-126 ≤ k) ∧ (k ≤ 126)) ∧
    (∃ (k : Int), (-149 ≤ k) ∧ (k ≤ 127)) :=
  ⟨⟨.fp32, 6, 0x7FC00000, by decide, Or.inl rfl, by decide⟩,
   ⟨.bf16, 6, 0x3F80, by decide, Or.inr rfl, by decide⟩,
   ⟨0x7F800000, by decide +kernel⟩,
   ⟨(-126), true, by decide +kernel⟩,
   ⟨127, by decide +kernel⟩⟩

namespace VectorReductions

def r8 : VThread := thr0 8 rndN rndN rndN
def spc (i : Nat) : Nat := [0x7F800000, 0xFF800000, 0x7FC00000, 0x7F800001, 0, 0x80000000, 1, 0x3F800000, 0xBF800000, 0x7F7FFFFF, 0x00800000, 0x42280000].getD (i % 12) 0
def sp32 : VThread := thr0 32 spc spc spc

/-- States that meet the hypotheses of VectorReductions, for each of its clauses. -/
theorem met_VectorReductions :
    (∃ (s : State) (v : VecInstr), (s.issuesVec 72 v = true) ∧ (v.fmt.val = 2 ∨ v.fmt.val = 3)) ∧
    (∃ (s : State) (v : VecInstr), (s.issuesVec 29 v = true) ∧ (fpFmt v = true)) ∧
    (∃ (s : State) (v : VecInstr), (s.issuesVec 53 v = true) ∧ (v.fmt.val = 4)) :=
  ⟨⟨(RV 72 {v0 with fmt := 2} r8), {v0 with fmt := 2}, by decide +kernel⟩,
   ⟨(RV 29 {v0 with fmt := 4} rnd), {v0 with fmt := 4}, by decide +kernel⟩,
   ⟨(RV 53 {v0 with fmt := 4} sp32), {v0 with fmt := 4}, by decide +kernel⟩⟩

end VectorReductions

namespace ThreadScalars

def stg (s : State) : State := s.sets [(Reg.CC_VT_SLOT_STAGE 3 4, 1), (Reg.CC_VT_SLOT_TAG 3 4, 64)]
def owed (s : State) : State := s.setReqs [(7, { left := 1, dest := .store 3 4 })]
def hst : HeldPart := { id := 7, unit := 5, addr := 0x2003000100, len := 8, pos := 0, data := some [], req := 2, due := 5 }
def owed2 (s : State) : State := (owed s).setHeld [hst]

/-- States that meet the hypotheses of ThreadScalars, for each of its clauses. -/
theorem met_ThreadScalars :
    (∃ (s : State) (v : VecInstr), (s.issuesVec 23 v = true) ∧ (v.fmt.val ≤ 5)) ∧
    (∃ (s : State) (v : VecInstr), (s.issuesVec 31 v = true)) ∧
    (∃ (s : State) (v : VecInstr), (s.issuesVec 87 v = true)) ∧
    (∃ (s : State) (v : VecInstr), (v.imm.toNat % 4 ≠ 1) ∧ (s.storesOwed v.core v.slot = true)) ∧
    (∃ (s : State) (v : VecInstr), (s.issuesVec 78 v = true) ∧ (v.imm.toNat % 4 ≠ 0) ∧ (v.imm.toNat % 4 = 1 ∨ s.storesOwed v.core v.slot = false)) ∧
    (∃ (s : State) (v : VecInstr), (s.issuesVec 79 v = true) ∧ (s.flag (Reg.CC_VT_SLOT_STAGE v.core v.slot) = false)) ∧
    (∃ (s : State) (v : VecInstr), (s.issuesVec 79 v = true) ∧ (s.flag (Reg.CC_VT_SLOT_STAGE v.core v.slot) = true) ∧ (s.room = true) ∧ ((s.thr v.core v.slot).pipe < 4) ∧ (s.isFollower (s.thr v.core v.slot).pipe = false)) :=
  ⟨⟨(RV 23 {v0 with fmt := 3, imm := 0xFFFFF0} rnd), {v0 with fmt := 3, imm := 0xFFFFF0}, by decide +kernel⟩,
   ⟨(RV 31 {v0 with imm := 0xFFFFF0} rnd), {v0 with imm := 0xFFFFF0}, by decide +kernel⟩,
   ⟨((RV 87 {v0 with imm := 0xFFFFD5} rnd).sets [(Reg.CC_VT_SLOT_TSTAT 3 4, 0x6F)]), {v0 with imm := 0xFFFFD5}, by decide +kernel⟩,
   ⟨(owed2 (RV 78 {v0 with imm := 2} rnd)), {v0 with imm := 2}, by decide +kernel⟩,
   ⟨((RV 78 {v0 with imm := 2} rnd)), {v0 with imm := 2}, by decide +kernel⟩,
   ⟨(RV 79 v0 rnd), v0, by decide +kernel⟩,
   ⟨(stg (RV 79 v0 {rnd with pipe := 1})), v0, by decide +kernel⟩⟩

end ThreadScalars

namespace ThreadMemory

def RB (s : State) : State := s.wrBytes 0x2003000100 ((List.range 64).map (fun i => BitVec.ofNat 8 (i * 37 + 5)))
def p64 : VThread := rnd.wrSx 6 0x2003000100#64

/-- States that meet the hypotheses of ThreadMemory, for each of its clauses. -/
theorem met_ThreadMemory :
    (∃ (s : State) (v : VecInstr), (v.fmt.val ≤ 1) ∧ (s.reqOf s.nextReq = {}) ∧ 
    let a := addr64 (sx s v v.va) v.imm.toInt
    
    let n := if v.fmt.val = 0 then 8 else 4
    (s.ownStore a n = true)) ∧
    (∃ (s : State) (v : VecInstr) (e : Nat) (seen : EccSeen) (k : Nat) (op : Instr), ((k = 6 ∧ op = .ld v seen) ∨ (k = 14 ∧ op = .st v)) ∧ (s.issuesVec k v = true) ∧ (s.room = true) ∧ (e < fmtCount v.fmt) ∧ (s.flag (Reg.CC_VT_SLOT_STAGE v.core v.slot) = false) ∧ ((∀ k, k < e → (enabled s v).toNat.testBit k = true → s.ownStore (addr64 (sx s v v.va) (v.imm.toInt + (k * (fmtBits v.fmt / 8) : Nat))) (fmtBits v.fmt / 8) = true)) ∧ ((enabled s v).toNat.testBit e = true) ∧ ((2 ^ 54 ≤ (addr64 (sx s v v.va) (v.imm.toInt + (e * (fmtBits v.fmt / 8) : Nat))) ∨ ((addr64 (sx s v v.va) (v.imm.toInt + (e * (fmtBits v.fmt / 8) : Nat))) / 2 ^ 48 ≠ s.getF Reg.MGT_DEVNUM ∧ s.devPresent ((addr64 (sx s v v.va) (v.imm.toInt + (e * (fmtBits v.fmt / 8) : Nat))) / 2 ^ 48) = false) ∨ (0x2020000000 ≤ (addr64 (sx s v v.va) (v.imm.toInt + (e * (fmtBits v.fmt / 8) : Nat))) % 2 ^ 48 ∧ (addr64 (sx s v v.va) (v.imm.toInt + (e * (fmtBits v.fmt / 8) : Nat))) % 2 ^ 48 < 0x2100000000) ∨ (0x3F00000000 ≤ (addr64 (sx s v v.va) (v.imm.toInt + (e * (fmtBits v.fmt / 8) : Nat))) % 2 ^ 48 ∧ (addr64 (sx s v v.va) (v.imm.toInt + (e * (fmtBits v.fmt / 8) : Nat))) % 2 ^ 48 < 0x3F04000000)))) ∧
    (∃ (s : State) (v : VecInstr) (e : Nat) (seen : EccSeen) (k : Nat) (op : Instr), ((k = 6 ∧ op = .ld v seen) ∨ (k = 14 ∧ op = .st v)) ∧ (s.issuesVec k v = true) ∧ (s.room = true) ∧ (e < fmtCount v.fmt) ∧ (s.flag (Reg.CC_VT_SLOT_STAGE v.core v.slot) = false) ∧ ((∀ k, k < e → (enabled s v).toNat.testBit k = true → s.ownStore (addr64 (sx s v v.va) (v.imm.toInt + (k * (fmtBits v.fmt / 8) : Nat))) (fmtBits v.fmt / 8) = true)) ∧ ((enabled s v).toNat.testBit e = true) ∧ ((addr64 (sx s v v.va) (v.imm.toInt + (e * (fmtBits v.fmt / 8) : Nat))) / 2 ^ 48 = s.getF Reg.MGT_DEVNUM) ∧ ((addr64 (sx s v v.va) (v.imm.toInt + (e * (fmtBits v.fmt / 8) : Nat))) % 2 ^ 48 < 0x2020000000) ∧ ((addr64 (sx s v v.va) (v.imm.toInt + (e * (fmtBits v.fmt / 8) : Nat))) % (fmtBits v.fmt / 8) ≠ 0)) :=
  ⟨⟨(RB (RV 62 {v0 with imm := 4, fmt := 1} p64)), {v0 with imm := 4, fmt := 1}, by decide +kernel⟩,
   ⟨RB (RV 6 v0 (rnd.wrSx 6 0x40000000000000#64)), v0, 0, .clean, 6, .ld v0 .clean, Or.inl ⟨rfl, rfl⟩, by decide +kernel, by decide +kernel, by decide +kernel, by decide +kernel,
    fun k h _ => absurd h (by omega), by decide +kernel, by decide +kernel⟩,
   ⟨RB (RV 6 {v0 with imm := 2} p64), {v0 with imm := 2}, 0, .double, 6, .ld {v0 with imm := 2} .double, Or.inl ⟨rfl, rfl⟩, by decide +kernel, by decide +kernel, by decide +kernel, by decide +kernel,
    fun k h _ => absurd h (by omega), by decide +kernel, by decide +kernel, by decide +kernel, by decide +kernel⟩⟩

end ThreadMemory

namespace PortsAndWaits

def stg (s : State) : State := s.sets [(Reg.CC_VT_SLOT_STAGE 3 4, 1), (Reg.CC_VT_SLOT_TAG 3 4, 64)]
def qp (w : QWord) (s : State) : State := s.putEdge 3 1 7 0 { words := [w, qw 1 1] }
def qwr : QWord := qw 0x123456789ABCDEF0 66
def wt (w : ThreadWait) (st : Nat) : State := (RV 63 v0 {rnd with wait := w}).sets [(Reg.CC_VT_SLOT_STATE 3 4, st)]

/-- States that meet the hypotheses of PortsAndWaits, for each of its clauses. -/
theorem met_PortsAndWaits :
    (∃ (s : State) (v : VecInstr) (w : QWord) (ws : List QWord), (s.issuesVec 86 v = true) ∧ (s.flag (Reg.CC_VT_SLOT_STAGE v.core v.slot) = false) ∧ (w.mark = none)) ∧
    (∃ (s : State) (v : VecInstr), (s.issuesVec 86 v = true) ∧ (v.imm.toNat % 32 ≤ 16) ∧ ((if v.imm.toNat % 32 < 16 then (s.edge v.core 1 (v.imm.toNat % 32) 0).words else (s.gw v.core 1 24).words) = [])) ∧
    (∃ (s : State) (v : VecInstr), (s.issuesVec 94 v = true) ∧ (v.imm.toNat % 32 ≤ 16)) ∧
    (∃ (s : State) (v : VecInstr), (s.issuesVec 63 v = true)) ∧
    (∃ (s : State) (c : Fin 32) (j : Fin 16) (d : Nat), ((s.thr c j).wait = .time d) ∧ ((s.reach d).now = d) ∧ (s.domOn c = true)) ∧
    (∃ (s : State) (c : Fin 32) (j : Fin 16) (b g d r : Nat), ((s.thr c j).wait = .bar b g d r) ∧ (d ≠ 0) ∧ ((s.reach d).now = d) ∧ (s.domOn c = true) ∧ ((s.reach d).farQuiet = true)) ∧
    (∃ (s : State) (c : Fin 32) (j : Fin 16) (q d x r : Nat) (form : DestForm), ((s.thr c j).wait = .qrecv q d x r form) ∧ (d ≠ 0) ∧ ((s.reach d).now = d) ∧ (s.domOn c = true) ∧ ((s.reach d).farQuiet = true)) ∧
    (∃ (s : State) (c : Fin 32) (j : Fin 16) (op r d dev l : Nat), ((s.thr c j).wait = .remote op r d dev l) ∧ (d ≠ 0) ∧ ((s.reach d).now = d) ∧ (s.domOn c = true) ∧ ((s.reach d).farQuiet = true)) ∧
    (∃ (s : State) (c : Fin 32) (j : Fin 16) (d : Nat) (w : FarWait), ((s.thr c j).wait = .time d)) ∧
    (∃ (s : State) (c : Fin 32) (j : Fin 16) (sc : Bool) (r : Nat) (x : W512), ((s.thr c j).wait = .load sc r x false) ∧ (s.domHolds c = true)) ∧
    (∃ (s : State) (c : Fin 32) (j : Fin 16) (r : Nat) (x : W512), ((s.thr c j).wait = .load false r x true) ∧ (s.domHolds c = true) ∧ (s.flag (Reg.CC_VT_SLOT_STAGE c j) = false)) ∧
    (∃ (s : State) (c : Fin 32) (j : Fin 16) (f : Fin 8) (n : Nat), (s.flag (Reg.CC_VT_SLOT_STAGE c j) = true) ∧ (f.val ∈ (s.thr c j).counting) ∧ (f.val ∉ (s.thr c j).overrun) ∧ (s.room = true)) :=
  ⟨⟨(qp qwr (RV 86 {v0 with imm := 7} rnd)), {v0 with imm := 7}, qwr, [qw 1 1], by decide +kernel⟩,
   ⟨(RV 86 {v0 with imm := 16} rnd), {v0 with imm := 16}, by decide +kernel⟩,
   ⟨(RV 94 {v0 with imm := 7} rnd), {v0 with imm := 7}, by decide +kernel⟩,
   ⟨(RV 63 v0 (rnd.wrSx 6 1000000500#64)), v0, by decide +kernel⟩,
   ⟨(wt (.time 1000000500) 4), 3, 4, 1000000500, by decide +kernel⟩,
   ⟨((wt (.bar 9 3 1000000500 5) 3).sets [(Reg.MGT_BAR_GEN 9, 3)]), 3, 4, 9, 3, 1000000500, 5, by decide +kernel⟩,
   ⟨((wt (.qrecv 9 1000000500 5 6 {mreg := 0, mz := false, fmt := 0}) 3).setSync { recvs := [(9, 3, 4), (9, 2, 2)] }), 3, 4, 9, 1000000500, 5, 6, {mreg := 0, mz := false, fmt := 0}, by decide +kernel⟩,
   ⟨(wt (.remote 3 5 1000000500 9 2) 3), 3, 4, 3, 5, 1000000500, 9, 2, by decide +kernel⟩,
   ⟨(wt (.time 5) 4), 3, 4, 5, {link:=0,dev:=0,req:=0,target:=0,gen:=0,deadline:=0}, by decide +kernel⟩,
   ⟨(wt (.load true 5 77#512 false) 2), 3, 4, true, 5, 77#512, by decide +kernel⟩,
   ⟨(wt (.load false 5 77#512 true) 2), 3, 4, 5, 77#512, by decide +kernel⟩,
   ⟨(stg (RV 94 v0 {rnd with counting := [0, 3], budget := 5})), 3, 4, 3, 9, by decide +kernel⟩⟩

end PortsAndWaits

namespace BarriersAndQueues

def owed2 (s : State) : State := (s.setReqs [(7, { left := 1, dest := .store 3 4 })]).setHeld [{ id := 7, unit := 5, addr := 0x2003000100, len := 8, pos := 0, data := some [], req := 2, due := 5 }]
def bw : WriteReq := stw (2 ^ (Reg.MGT_BAR_ARRIVE 9).lo)
def wts (w : ThreadWait) : VThread := {rnd with wait := w}
def fw1 : FarWait := { link := 1, dev := 3, req := 7, target := 9, gen := 3, deadline := 0 }
def fw2 : FarWait := { link := 1, dev := 3, req := 8, target := 9, gen := 2, deadline := 0 }
def bt (old d : Nat) : VThread := ((rnd.wrSx 6 (BitVec.ofNat 64 9)).wrSx 7 (BitVec.ofNat 64 old)).wrSx 2 (BitVec.ofNat 64 d)
def mqS (n : Nat) (en : Nat) (s : State) : State := (s.sets [(Reg.MGT_MQ_CFG_ENABLE 9, en), (Reg.MGT_MQ_CFG_DEPTH 9, 0), (Reg.MGT_MQ_COUNT 9, n)]).setSync { s.sync with queues := [(9, (List.range n).map (fun i => (List.range 32).map (fun j => BitVec.ofNat 8 (i * 40 + j))))] }
def rdb : ReadReq := { agent := .pcie, half := .both }

/-- States that meet the hypotheses of BarriersAndQueues, for each of its clauses. -/
theorem met_BarriersAndQueues :
    (∃ (s : State) (b : Fin 64) (w : WriteReq), (s.takesAct w (Reg.MGT_BAR_ARRIVE b).off = true) ∧ (wBit w (Reg.MGT_BAR_ARRIVE b) = true) ∧ 
    let n := s.getF (Reg.MGT_BAR_ARRIVED b) + 1
    (n < s.getF (Reg.MGT_BAR_EXPECT b))) ∧
    (∃ (s : State) (b : Fin 64) (w : WriteReq), (s.takesAct w (Reg.MGT_BAR_ARRIVE b).off = true) ∧ (wBit w (Reg.MGT_BAR_ARRIVE b) = true) ∧ (s.getF (Reg.MGT_BAR_EXPECT b) ≤ s.getF (Reg.MGT_BAR_ARRIVED b) + 1) ∧ (s.threads = []) ∧ (s.sync.farBar = [])) ∧
    (∃ (s : State) (b : Fin 64) (w : WriteReq), (s.takesAct w (Reg.MGT_BAR_ARRIVE b).off = true) ∧ (wBit w (Reg.MGT_BAR_ARRIVE b) = true) ∧ (s.getF (Reg.MGT_BAR_EXPECT b) ≤ s.getF (Reg.MGT_BAR_ARRIVED b) + 1)) ∧
    (∃ (s : State) (b : Fin 64) (w : WriteReq) (c : Fin 32) (j : Fin 16) (th : VThread) (d r : Nat), (s.takesAct w (Reg.MGT_BAR_ARRIVE b).off = true) ∧ (wBit w (Reg.MGT_BAR_ARRIVE b) = true) ∧ (s.getF (Reg.MGT_BAR_EXPECT b) ≤ s.getF (Reg.MGT_BAR_ARRIVED b) + 1) ∧ (s.threads = [(c.val * 16 + j.val, th)]) ∧ (th.wait = .bar b (s.getF (Reg.MGT_BAR_GEN b)) d r) ∧ (s.sync.farBar = [])) ∧
    (∃ (s : State) (b : Fin 64) (w : WriteReq), (s.takes w (Reg.MGT_BAR_EXPECT b).off = true) ∧ (coversLo w.half = true) ∧ (s.room = true)) ∧
    (∃ (s : State) (v : VecInstr), (v.imm.toNat % 4 ≠ 1) ∧ (s.storesOwed v.core v.slot = true)) ∧
    (∃ (s : State) (v : VecInstr), (s.issuesVec 39 v = true) ∧ (s.storesOwed v.core v.slot = false) ∧ 
    let a := (sx s v v.va).toNat
    
    let b := a % 64
    
    let g := s.getF (Reg.MGT_BAR_GEN b)
    (a / 256 % 64 = s.getF Reg.MGT_DEVNUM) ∧ (s.getF (Reg.MGT_BAR_ARRIVED b) + 1 < s.getF (Reg.MGT_BAR_EXPECT b))) ∧
    (∃ (s : State) (v : VecInstr), (s.issuesVec 39 v = true) ∧ (v.imm.toNat % 4 = 1) ∧ 
    let a := (sx s v v.va).toNat
    
    let b := a % 64
    
    let g := s.getF (Reg.MGT_BAR_GEN b)
    (a / 256 % 64 = s.getF Reg.MGT_DEVNUM)) ∧
    (∃ (s : State) (v : VecInstr), (s.storesOwed v.core v.slot = true)) ∧
    (∃ (s : State) (v : VecInstr), (s.issuesVec 47 v = true) ∧ (s.storesOwed v.core v.slot = false) ∧ 
    let a := (sx s v v.va).toNat
    
    let q := a % 256
    
    let pay := leBytes 8 (sx s v v.vb).toNat ++ leBytes 8 (sx s v v.vc).toNat
    
    let full := 4 * 2 ^ s.getF (Reg.MGT_MQ_CFG_DEPTH q)
    
    let th := s.thr v.core v.slot
    (a / 256 % 64 = s.getF Reg.MGT_DEVNUM)) ∧
    (∃ (s : State) (v : VecInstr), (s.issuesVec 55 v = true)) ∧
    (∃ (s : State) (q : Fin 256) (w : WriteReq), (s.takes w (Reg.MGT_MQ_CFG_ENABLE q).off = true) ∧ (coversLo w.half = true) ∧ (s.room = true)) ∧
    (∃ (s : State) (q : Fin 256) (r : ReadReq), (r.half = .both) ∧ (s.sync.sends = []) ∧ (s.sync.farSend = [])) ∧
    (∃ (s : State) (q : Fin 256) (w : WriteReq), (s.takes w (Reg.MGT_MQ_PUSH q 3).off = true) ∧ (w.half = .both) ∧ (w.agent = .steward ∨ w.agent = .pcie) ∧ 
    let old := SMap.get (fun _ => List.replicate 16 (0#8)) s.sync.pushLatch (agentIdx w.agent * 256 + q)
    
    let pay := old.take 8 ++ leBytes 8 w.value.toNat
    
    let src := if w.agent = .steward then 2 * 2 ^ 13 else 2 ^ 13 + 4
    (old.length = 16) ∧ (s.sync.recvs = [])) :=
  ⟨⟨(barS 1 4 5 rig), 9, bw, by decide +kernel⟩,
   ⟨(barS 3 4 0xFFFF rig), 9, bw, by decide +kernel⟩,
   ⟨((barS 3 4 3 (thr rig (wts (.bar 9 3 0 5)))).setSync {farBar := [fw1, fw2, {fw1 with target := 8}, {fw1 with gen := 4}]}), 9, bw, by decide +kernel⟩,
   ⟨(barS 3 4 3 ((thr rig (wts (.bar 9 3 0 5))).sets [(Reg.CC_VT_SLOT_STATE 3 4, 3)])), 9, bw, 3, 4, (wts (.bar 9 3 0 5)), 0, 5, by decide +kernel⟩,
   ⟨(barS 0 4 3 rig), 9, (stw 5), by decide +kernel⟩,
   ⟨(owed2 (RV 39 v0 rnd)), v0, by decide +kernel⟩,
   ⟨(barS 2 4 3 (RV 39 v0 (bt 3 0))), v0, by decide +kernel⟩,
   ⟨(barS 2 4 3 (RV 39 {v0 with imm := 1} (bt 3 1000000500))), {v0 with imm := 1}, by decide +kernel⟩,
   ⟨(owed2 (RV 47 v0 rnd)), v0, by decide +kernel⟩,
   ⟨(mqS 2 1 (RV 47 v0 (bt 3 0))), v0, by decide +kernel⟩,
   ⟨(mqS 2 1 (RV 55 v0 (bt 3 0))), v0, by decide +kernel⟩,
   ⟨rig, 9, (stw (1 * 2^(Reg.MGT_MQ_CFG_ENABLE 9).lo + 3 * 2^(Reg.MGT_MQ_CFG_DEPTH 9).lo)), by decide +kernel⟩,
   ⟨(mqS 2 1 rig), 9, rdb, by decide +kernel⟩,
   ⟨(mqS 2 1 rig), 9, (stw 0x1122334455667788), by decide +kernel⟩⟩

end BarriersAndQueues

namespace ThreadSlots

def owed2 (s : State) : State := (s.setReqs [(7, { left := 1, dest := .store 3 4 })]).setHeld [{ id := 7, unit := 5, addr := 0x2003000100, len := 8, pos := 0, data := some [], req := 2, due := 5 }]
def ts (slot core : Nat) : VThread := (rnd.wrSx 6 (BitVec.ofNat 64 (core + slot * 256))).wrSx 7 0x1ABC#64
def msk (l : List (Fld × Nat)) (s : State) : State := s.sets ([(Reg.MGT_CORE_MASK, 2^32-1)] ++ l)
def gow (slot pc : Nat) : WriteReq := stw (slot + pc * 2^16 + 2 ^ (Reg.CC_VT_START_GO 3).lo)
def kw (f : Fld) (v : Nat) : WriteReq := stw (v * 2 ^ f.lo)

/-- States that meet the hypotheses of ThreadSlots, for each of its clauses. -/
theorem met_ThreadSlots :
    (∃ (s : State) (v : VecInstr) (j : Fin 16), (s.issuesVec 71 v = true)) ∧
    (∃ (s : State) (c : Fin 32) (w : WriteReq) (j : Fin 16), (s.takesAct w (Reg.CC_VT_START_GO c).off = true) ∧ (w.half = .both) ∧ (wBit w (Reg.CC_VT_START_GO c) = true) ∧ (bit1 (s.getF Reg.MGT_CORE_MASK) c = true) ∧ ((w.value.toNat % 32 = j ∨ (w.value.toNat % 32 = 31 ∧ ∀ k, k < j.val → s.slotState c k ≠ 0)))) ∧
    (∃ (s : State) (c : Fin 32) (j : Fin 16) (w : WriteReq), (s.takesAct w (Reg.CC_VT_CTL_KILL c).off = true) ∧ (w.half = .both) ∧ (s.room = true) ∧ (w.field (Reg.CC_VT_CTL_KILL c) = 2 ^ j.val)) ∧
    (∃ (s : State) (c : Fin 32) (j : Fin 16) (w : WriteReq), (s.takesAct w (Reg.CC_VT_CTL_FREE c).off = true) ∧ (w.half = .both) ∧ (w.field (Reg.CC_VT_CTL_FREE c) = 2 ^ j.val)) :=
  ⟨⟨(msk [] (RV 71 v0 (ts 6 3))), v0, 6, by decide +kernel⟩,
   ⟨(msk [] rig), 3, (gow 6 0xABC), 6, by decide +kernel⟩,
   ⟨(msk [] rig), 3, 6, (kw (Reg.CC_VT_CTL_KILL 3) 64), by decide +kernel⟩,
   ⟨(owed2 (msk [(Reg.CC_VT_SLOT_STATE 3 4, 5)] (thr rig rnd))), 3, 4, (kw (Reg.CC_VT_CTL_FREE 3) 16), by decide +kernel⟩⟩

end ThreadSlots

namespace MemoryRequests

def hd (i l : Nat) (m : Nat) (r : Nat := 0) : MemHdr := { idx := BitVec.ofNat 25 i, len := Fin.ofNat 8 l, mask := BitVec.ofNat 32 m, rsv := Fin.ofNat 4 r }
def full : Nat := 2^32 - 1
def hb (f : HbmState → HbmState) (s : State) : State := s.setHbm (f s.hbm)
def rqS (l : List ChanReq) (s : State) : State := hb (fun h => { h with reqs := [(20, l)] }) s
def mem20 (s : State) (n : Nat) : State := s.wrBytes (hbmKey 20 (80 * 32)) ((List.range n).map (fun i => BitVec.ofNat 8 (i * 7 + 3)))

/-- States that meet the hypotheses of MemoryRequests, for each of its clauses. -/
theorem met_MemoryRequests :
    (∃ (s : State) (g : Fin 64) (h : MemHdr) (tag : Byte) (req : Fin 65536) (first : List EccSeen), (s.chanLive g = true) ∧ (s.circuitHeld g req = false) ∧ (h.rsv = 0) ∧ (h.idx.toNat % 8 + h.len.val ≤ 7) ∧ (h.len = 0 ∨ h.mask = BitVec.allOnes 32)) ∧
    (∃ (s : State) (g : Fin 64) (h : MemHdr) (tag : Byte) (req : Fin 65536) (first : List EccSeen), (s.room = true) ∧ (s.circuitHeld g req = false) ∧ (s.outside g = true)) ∧
    (∃ (s : State) (g : Fin 64) (req : Fin 65536) (r : ChanReq), ((s.chanReqs g).find? (fun x => x.req == req.val) = some r) ∧ (r.wr = none) ∧ ((∀ x ∈ s.chanReqs g, x.stat = none)) ∧ (r.code.all (fun k => decide ((s.gw (chanGate g) 0 k).words.length + 4 * (r.len + 1) ≤ 32)) = true) ∧ ((∀ e ∈ s.wcbOf (g / 16), e.chan = g % 16 → e.id ≤ r.id → e.line ∉ r.lines)) ∧ ((∀ w ∈ s.wcbWaits (g / 16), w.chan = g % 16 → w.id ≤ r.id → w.line ∉ r.lines))) ∧
    (∃ (s : State) (g : Fin 64) (req : Fin 65536) (i : Fin 8) (second : EccSeen) (r : ChanReq), (s.chanReqs g = [r]) ∧ (r.req = req.val) ∧ (i.val ≤ r.len) ∧ (r.retry = true) ∧ (r.bad = false) ∧ (r.retried = []) ∧ ((s.wordFor g r i).2 = .uncorrectable) ∧ ((s.reach (s.now + 60)).now = s.now + 60)) ∧
    (∃ (s : State) (g : Fin 64) (h : MemHdr) (data : List W64) (tag : Byte) (req : Fin 65536), (s.writeReady g req = true) ∧ (s.chanLive g = true) ∧ (s.chanLost g = false) ∧ (h.rsv = 0) ∧ (h.idx.toNat % 8 + h.len.val ≤ 7) ∧ (h.mask = BitVec.allOnes 32) ∧ (data.length = 4 * (h.len.val + 1)) ∧ (s.flag (Reg.MC_INJ_ARM (g / 16)) = false) ∧ ((∀ r ∈ s.chanReqs g, ∀ i, i ≤ h.len.val → r.covers ((h.idx.toNat + i) * 32) = false))) ∧
    (∃ (s : State) (g : Fin 64) (h : MemHdr) (data : List W64) (tag : Byte) (req : Fin 65536) (r : ChanReq), (s.writeReady g req = true) ∧ (s.chanLive g = true) ∧ (s.chanLost g = false) ∧ (h.rsv = 0) ∧ (h.idx.toNat % 8 + h.len.val ≤ 7) ∧ (h.mask = BitVec.allOnes 32) ∧ (data.length = 4 * (h.len.val + 1)) ∧ (s.chanReqs g = [r]) ∧ (r.wr = none) ∧ (r.id ≤ s.nextReq)) ∧
    (∃ (s : State) (g : Fin 64) (h : MemHdr) (data : List W64) (tag : Byte) (req : Fin 65536), (s.writeReady g req = true) ∧ (s.chanLive g = true) ∧ (s.chanLost g = false) ∧ (h.rsv = 0) ∧ (h.len = 0) ∧ (h.mask ≠ 0) ∧ (h.mask ≠ BitVec.allOnes 32) ∧ (data.length = 4)) ∧
    (∃ (s : State) (g : Fin 64) (h : MemHdr) (data : List W64) (tag : Byte) (req : Fin 65536), (s.writeReady g req = true) ∧ (s.chanLive g = true) ∧ (s.chanLost g = true) ∧ (h.rsv = 0) ∧ (h.idx.toNat % 8 + h.len.val ≤ 7) ∧ (h.mask = BitVec.allOnes 32)) :=
  ⟨⟨(mc []), 20, (hd 80 3 full), 7, 9, [], by decide +kernel⟩,
   ⟨(mc []), 20, (hd 80 3 full 1), 7, 9, [], by decide +kernel⟩,
   ⟨(mem20 (rqS [crq 80 2 9, crq 81 0 10] (mc [])) 70), 20, 9, (crq 80 2 9), by decide +kernel⟩,
   ⟨((rqS [crq 80 2 9] (mc [])).setEcc [(hbmKey 20 (82*32), .uncorrectable)]), 20, 9, 2, .double, (crq 80 2 9), by decide +kernel⟩,
   ⟨(mc []), 20, (hd 80 1 full), [1,0x1122334455667788,3,4,5,6,7,8], 7, 9, by decide +kernel⟩,
   ⟨(rqS [crq 80 1 8] (mem20 (mc []) 70)), 20, (hd 80 0 full), [0,0x1122334455667788,3,4], 7, 9, (crq 80 1 8), by decide +kernel⟩,
   ⟨(mc [(Reg.MC_WCB_CFG_AGE 1, 7)]), 20, (hd 80 0 0xF00F), [1,0x1122334455667788,3,4], 7, 9, by decide +kernel⟩,
   ⟨(mc [(Reg.MC_CH_MAP_LOST 1, 16)]), 20, (hd 80 0 full), [1,0x1122334455667788,3,4], 7, 9, by decide +kernel⟩⟩

end MemoryRequests

namespace MemoryUpkeep

def wc (c l : Nat) (bs : List (Nat × Nat)) (ws : List Nat) (fl : Bool := false) : WcbEntry := { chan := c, line := l, bytes := bs.map (fun x => (x.1, some (BitVec.ofNat 8 x.2))), taken := sec / (65536 * unitFrac) - 100, age := 4096, flushing := fl, writers := ws.map (fun w => (((bs.head?).getD (0,0)).1 / 32, w)) }
def hb (f : HbmState → HbmState) (s : State) : State := s.setHbm (f s.hbm)
def wcS (l : List WcbEntry) (s : State) : State := hb (fun h => { h with wcb := [(1, l)] }) s
def rqS (l : List ChanReq) (s : State) : State := hb (fun h => { h with reqs := [(20, l)] }) s
def up (l : List (Fld × Nat)) (e : WcbEntry) (i : Nat) : State := ((rqS [{crq 80 0 9 with wr := some i}] (wcS [e] (mc l))).setReqs [(i, {left := 1, dest := .circuit 20})]).setNextReq (i + 1)
def e35 : WcbEntry := wc 4 40 [(35, 0xAB)] [6] true
def onCh (s : State) : State := s.onPipe 1 (fun q => { q with chans := [3, 20], frames := [fr, {fr with fif := 3, id := 1, completion := some 4}, {fr with fif := 3, id := 2, admitted := false}]})

/-- States that meet the hypotheses of MemoryUpkeep, for each of its clauses. -/
theorem met_MemoryUpkeep :
    (∃ (s : State) (m : Fin 4) (pre : List WcbEntry) (e : WcbEntry) (rest : List WcbEntry), (s.wcbOf m = pre ++ e :: rest) ∧ (e.flushing = false) ∧ (e ∉ pre) ∧ (e ∉ rest) ∧ ((∀ x ∈ pre, x.flushing = false → e.taken + e.age < x.taken + x.age)) ∧ ((∀ x ∈ rest, x.flushing = false → e.taken + e.age ≤ x.taken + x.age))) ∧
    (∃ (s : State) (m : Fin 4), ((∀ e ∈ s.wcbOf m, e.flushing = true))) ∧
    (∃ (s : State) (m : Fin 4) (e : WcbEntry) (seen : List (EccSeen × EccSeen)), ((s.wcbOf m).find? (fun e => e.flushing) = some e) ∧ (s.storesNamed) ∧ (s.noneDone = true)) ∧
    (∃ (s : State) (m : Fin 4) (e : WcbEntry) (seen : List (EccSeen × EccSeen)) (i : Nat) (b : Byte) (g : Nat) (x : ChanReq), (s.chanReqs g = [x]) ∧ (x.wr = some (s.nextReq - 1)) ∧ (x.stat = none) ∧ (x.code = none) ∧ (s.wcbOf m = [e]) ∧ (e.flushing = true) ∧ (e.bytes = [(i, some b)]) ∧ (i < 64) ∧ (e.writers = [(i / 32, s.nextReq - 1)]) ∧ (s.noneDone = true) ∧ (s.reqOf (s.nextReq - 1) = { left := 1, dest := .circuit g }) ∧ (s.wcbWaits m = []) ∧ (e.chan < 16) ∧ (s.flag (Reg.MC_INJ_ARM m) = false) ∧ (seen = []) ∧ 
    let k := hbmKey (m * 16 + e.chan) (e.line * 64 + i / 32 * 32)
    (s.eccAt k = .clean)) ∧
    (∃ (s : State) (m : Fin 4) (e : WcbEntry) (i : Nat) (b : Byte) (g : Nat) (x : ChanReq), (s.chanReqs g = [x]) ∧ (x.wr = some (s.nextReq - 1)) ∧ (x.stat = none) ∧ (x.code = none) ∧ (s.wcbOf m = [e]) ∧ (e.flushing = true) ∧ (e.bytes = [(i, some b)]) ∧ (i < 64) ∧ (e.writers = [(i / 32, s.nextReq - 1)]) ∧ (s.noneDone = true) ∧ (s.reqOf (s.nextReq - 1) = { left := 1, dest := .circuit g }) ∧ (s.wcbWaits m = []) ∧ (e.chan < 16) ∧ (s.flag (Reg.MC_INJ_ARM m) = false) ∧ (s.room = true) ∧ 
    let k := hbmKey (m * 16 + e.chan) (e.line * 64 + i / 32 * 32)
    (s.eccAt k = .poisoned) ∧ (e.line * 64 < 2 ^ 30)) ∧
    (∃ (s : State) (m : Fin 4) (x : BitVec 8), (s.domOn (43 + m) = true) ∧ (s.room = true)) ∧
    (∃ (s : State) (g : Fin 64) (cause : Fin 3), (s.chanLost g = false) ∧ (s.chanServed g = true) ∧ (s.room = true) ∧ ((∀ n, n < 4 → s.loaded n = true → (s.pipe n).chans.contains g.val = false)) ∧ (s.wcbOf (g / 16) = []) ∧ (s.wcbWaits (g / 16) = [])) ∧
    (∃ (s : State) (g : Fin 64) (cause : Fin 3), (s.chanLost g = false) ∧ (s.chanServed g = true) ∧ (s.room = true) ∧ (s.storesNamed)) :=
  ⟨⟨(wcS [wc 4 40 [(3,4)] [], wc 5 1 [] []] (mc [])), 1, [], (wc 4 40 [(3,4)] []), [wc 5 1 [] []], by decide +kernel⟩,
   ⟨(wcS [{wc 4 40 [(3,4)] [] with flushing := true }] (mc [])), 1, by decide +kernel⟩,
   ⟨wcS [wc 5 1 [] [], wc 4 40 [(3, 4)] [] true] (mc []), 1, wc 4 40 [(3, 4)] [] true, [], by decide +kernel, (by intro e he; exact absurd (show e ∈ ([] : List (Nat × ReqSt)) from he) (by simp)), by decide +kernel⟩,
   ⟨(up [] e35 6), 1, e35, [], 35, 0xAB, 20, {crq 80 0 9 with wr := some 6}, by decide +kernel⟩,
   ⟨((up [] e35 6).setEcc [(hbmKey 20 (40*64+32), .poisoned)]), 1, e35, 35, 0xAB, 20, {crq 80 0 9 with wr := some 6}, by decide +kernel⟩,
   ⟨(mc []), 1, 96, by decide +kernel⟩,
   ⟨(mc []), 20, 0, by decide +kernel⟩,
   ⟨onCh (mc []), 20, 2, by decide +kernel, by decide +kernel, by decide +kernel, (by intro e he; exact absurd (show e ∈ ([] : List (Nat × ReqSt)) from he) (by simp))⟩⟩

end MemoryUpkeep

namespace MemoryTrainingAndTest

def hb (f : HbmState → HbmState) (s : State) : State := s.setHbm (f s.hbm)
def go : WriteReq := stw (2 ^ (Reg.MC_TRAIN_CTL_GO 1).lo)
def trn (l : List Nat) (go : Bool) (s : State) : State := hb (fun h => { h with training := l.map (fun g => (g, true)), byGo := [(1, go)] }) s
def cm : WriteReq := stw (2 ^ Reg.MGT_HBM_CTL_COMMIT.lo)
def mcu (l : List (Fld × Nat)) : State := rig.sets ([(Reg.MC_CH_MAP_ACTIVE 1, 0x30)] ++ l)
def tgw (mode pat pas : Nat) : WriteReq := stw (2 ^ (Reg.MC_TG_CTL_START 1 4).lo + mode * 2 ^ (Reg.MC_TG_CTL_MODE 1 4).lo + pat * 2 ^ (Reg.MC_TG_CTL_PATTERN 1 4).lo + pas * 2 ^ (Reg.MC_TG_CTL_PASSES 1 4).lo)
def rng (a b : Nat) : List (Fld × Nat) := [(Reg.MC_TG_RANGE_START_WORD 1 4, a), (Reg.MC_TG_RANGE_END_WORD 1 4, b)]
def tst (n : Nat) (s : State) : State := hb (fun h => { h with tgStart := [(20, n)] }) s
def run (mode pat pas a b : Nat) (l : List (Fld × Nat)) : State := tst 1000000100 (mc (rng a b ++ [(Reg.MC_TG_CTL_BUSY 1 4, 1), (Reg.MC_TG_CTL_MODE 1 4, mode), (Reg.MC_TG_CTL_PATTERN 1 4, pat), (Reg.MC_TG_CTL_PASSES 1 4, pas), (Reg.MC_TG_CONST 1 4, 0x123456789ABCDEF0)] ++ l))
def inj (a c w : Nat) : WriteReq := stw (a * 2 ^ (Reg.MC_INJ_ARM 1).lo + c * 2 ^ (Reg.MC_INJ_CHANNEL 1).lo + w * 2 ^ (Reg.MC_INJ_WORD 1).lo)

/-- States that meet the hypotheses of MemoryTrainingAndTest, for each of its clauses. -/
theorem met_MemoryTrainingAndTest :
    (∃ (s : State) (m : Fin 4) (w : WriteReq), (s.takesAct w (Reg.MC_TRAIN_CTL_GO m).off = true) ∧ (wBit w (Reg.MC_TRAIN_CTL_GO m) = true) ∧ (s.committed = false)) ∧
    (∃ (s : State) (g : Fin 64) (rep : Fin 16) (mar : Fin 256), (s.inTraining g = true) ∧ (s.room = true) ∧ (SMap.get (fun _ => false) s.hbm.byGo (g / 16) = true) ∧ ((∃ c, c < 16 ∧ (g / 16 * 16 + c ≠ g.val ∧ s.inTraining (g / 16 * 16 + c) = true)))) ∧
    (∃ (s : State) (g : Fin 64) (rep : Fin 16) (mar : Fin 256), (s.inTraining g = true) ∧ (s.room = true)) ∧
    (∃ (s : State) (w : WriteReq), (s.takes w Reg.MGT_HBM_CTL_COMMIT.off = true) ∧ (wBit w Reg.MGT_HBM_CTL_COMMIT = true) ∧ (s.room = true)) ∧
    (∃ (s : State) (g : Fin 64) (w : WriteReq), 
    let m := g.val / 16
    
    let c := g.val % 16
    (s.takesAct w (Reg.MC_TG_CTL_START m c).off = true) ∧ (wBit w (Reg.MC_TG_CTL_START m c) = true) ∧ (w.half = .both) ∧ (s.room = true)) ∧
    (∃ (s : State) (g : Fin 64) (ns : Nat), s.flag (Reg.MC_TG_CTL_BUSY (g.val / 16) (g.val % 16)) = true ∧ s.storesNamed) ∧
    (∃ (s : State) (g : Fin 64) (ns : Nat), 
    let m := g.val / 16
    
    let c := g.val % 16
    
    let k := hbmKey g (s.getF (Reg.MC_TG_RANGE_START_WORD m c) * 32)
    (s.flag (Reg.MC_TG_CTL_BUSY m c) = true) ∧ (s.getF (Reg.MC_TG_CTL_MODE m c) = 0) ∧ (s.getF (Reg.MC_TG_CTL_PATTERN m c) = 2) ∧ (s.getF (Reg.MC_TG_CTL_PASSES m c) = 1) ∧ (s.getF (Reg.MC_TG_RANGE_END_WORD m c) = s.getF (Reg.MC_TG_RANGE_START_WORD m c)) ∧ (s.wcbOf m = []) ∧ (s.wcbWaits m = []) ∧ (s.chanLost g = false) ∧ (s.held = []) ∧ (s.flag (Reg.MC_INJ_ARM m) = false) ∧ (s.noneDone = true) ∧ 
    let at0 := SMap.get (fun _ => 0) s.hbm.tgStart g
    ((s.reach (at0 + ns)).now = at0 + ns) ∧ (ns < 2 ^ 48)) ∧
    (∃ (s : State) (m : Fin 4) (w : WriteReq), (s.takes w (Reg.MC_INJ_ARM m).off = true) ∧ (w.half = .both)) :=
  ⟨⟨(mc [(Reg.MGT_HBM_CTL_COMMITTED, 0), (Reg.MC_TRAIN_CTL_DONE 1, 1), (Reg.MC_TRAIN_STAT_MARGIN 1 3, 5)]), 1, go, by decide +kernel⟩,
   ⟨(trn [20, 21] true (mc [])), 20, 3, 255, by decide +kernel⟩,
   ⟨(trn [20] true (mc [])), 20, 3, 255, by decide +kernel⟩,
   ⟨(mcu [(Reg.MC_TRAIN_STAT_PASS 1 4, 1), (Reg.MC_TRAIN_STAT_PASS 1 5, 1)]), cm, by decide +kernel⟩,
   ⟨(mc (rng 3 6)), 20, (tgw 2 3 7), by decide +kernel⟩,
   ⟨run 0 1 2 3 6 [], 20, 1000, by decide +kernel, (by intro e he; exact absurd (show e ∈ ([] : List (Nat × ReqSt)) from he) (by simp))⟩,
   ⟨(run 0 2 1 6 6 []), 20, 1000, by decide +kernel⟩,
   ⟨(mc [(Reg.MC_INJ_MASK 1, 5)]), 1, (inj 1 4 77), by decide +kernel⟩⟩

end MemoryTrainingAndTest

namespace ClearingReads

def rb (h : Half) (a : Agent := .steward) : ReadReq := { agent := a, half := h }
def ec : List (Fld × Nat) := [(wholeReg (Reg.MC_ECC_CNT0_CORRECTED 1 4).off, 2^64-5), (wholeReg (Reg.MC_ECC_CNT1_POISON_READ 1 4).off, 2^63+2^20), (Reg.MC_ECC_CNT2_RETRY_RECOVERED 1 4, 0xABCDE)]
def wf : List (Fld × Nat) := [(Reg.MC_WCB_FLUSH 1, 2^48-3), (Reg.MC_WCB_WAIT 1, 2^40+5)]

/-- States that meet the hypotheses of ClearingReads, for each of its clauses. -/
theorem met_ClearingReads :
    (∃ (s : State) (g : Fin 64) (k : Fin 3) (r : ReadReq), 
    let f := [wholeReg (Reg.MC_ECC_CNT0_CORRECTED (g / 16) (g % 16)).off,
      wholeReg (Reg.MC_ECC_CNT1_POISON_READ (g / 16) (g % 16)).off,
      Reg.MC_ECC_CNT2_RETRY_RECOVERED (g / 16) (g % 16)].getD k (wholeReg 0)
    (s.regLive f.off = true)) ∧
    (∃ (s : State) (m : Fin 4) (r : ReadReq), (s.domHolds (43 + m) = true)) ∧
    (∃ (s : State) (n : Fin 5) (r : ReadReq), (coversLo r.half = true) ∧ (s.domHolds 38 = true)) ∧
    (∃ (s : State) (r : ReadReq), (coversLo r.half = true)) ∧
    (∃ (s : State) (r : ReadReq), (r.half = .both) ∧ (s.domHolds 38 = true)) ∧
    (∃ (s : State) (p : Fin 6) (r : ReadReq), (s.domHolds (47 + p / 2) = true)) ∧
    (∃ (s : State) (l : Fin 8) (k : Fin 4) (r : ReadReq), (s.regLive (Reg.QSK_L_PRBS_ERR l k).off = true)) :=
  ⟨⟨(mc ec), 20, 0, (rb .both), by decide +kernel⟩,
   ⟨(mc wf), 1, (rb .both), by decide +kernel⟩,
   ⟨(mc [(Reg.FLT_LOST_C 3, 77)]), 3, (rb .both), by decide +kernel⟩,
   ⟨(mc [(Reg.MGT_MQ_PUSHDROP, 77)]), (rb .lo .debug), by decide +kernel⟩,
   ⟨(mc [(Reg.MGT_HOST_DENY_COUNT, 77), (Reg.MGT_HCM_ECC_CORR, 4), (Reg.MGT_HCM_ECC_UNCORR, 5)]), (rb .both .debug), by decide +kernel⟩,
   ⟨(mc [(Reg.ETH_P_PRBS_ERR 5, 2^48-2)]), 5, (rb .both), by decide +kernel⟩,
   ⟨(mc [(Reg.QSK_L_PRBS_ERR 7 3, 2^48-2)]), 7, 3, (rb .lo), by decide +kernel⟩⟩

end ClearingReads

namespace HostAccesses

def resv (l : List (Nat × Option (Nat × Nat))) (s : State) : State := s.setSync {resv := l}
def hoff (d v : Nat) : WriteReq := { agent := .steward, half := .lo, value := BitVec.ofNat 64 (v * 2 ^ (Reg.FLT_IRQ_CFG_HOLDOFF d).lo + 2 * 2 ^ (Reg.FLT_IRQ_CFG_CLASS_EN d).lo) }
def irqS (d : Nat) (s : State) : State := s.setFlt { s.flt with irqOn := [(d, true)] }
def lpw (f : Fld) (v : Nat) : WriteReq := stw (v * 2 ^ f.lo)

/-- States that meet the hypotheses of HostAccesses, for each of its clauses. -/
theorem met_HostAccesses :
    (∃ (s : State) (a : Agent) (off : Fin 33554432) (n : Fin 4097), (s.domOn 37 = true) ∧ (s.domHolds 37 = true) ∧ (s.reqOf s.nextReq = {}) ∧ (1 ≤ n.val) ∧ (n.val ≤ 8) ∧ (off.val % 32 + n.val ≤ 32) ∧ (s.getF Reg.MGT_DEVNUM < 64)) ∧
    (∃ (s : State) (a : Agent) (off : Fin 33554432) (bs : List Byte), (s.domHolds 37 = true) ∧ (s.reqOf s.nextReq = {}) ∧ (bs ≠ []) ∧ (off.val % 32 + bs.length ≤ 32) ∧ (s.flag Reg.MGT_HCM_LOCK = false) ∧ (s.getF Reg.MGT_DEVNUM < 64)) ∧
    (∃ (s : State) (h : Fin 4) (off : Fin 33554432) (dword : Bool) (x : W64), (s.domHolds 37 = true) ∧ (s.getF Reg.MGT_DEVNUM < 64) ∧ (s.flag Reg.MGT_HCM_LOCK = false) ∧ 
    let n := if dword then 8 else 4
    (off.val % n = 0)) ∧
    (∃ (s : State) (h : Fin 4) (addr : BitVec 54) (op : AmoOp) (dword : Bool) (x : W64) (seen : EccSeen), 
    let y := addr.toNat % 2 ^ 48
    (addr.toNat / 2 ^ 48 = s.getF Reg.MGT_DEVNUM) ∧ (y + 8 ≤ 0x2020000000)) ∧
    (∃ (s : State) (a : Agent) (x : Fin 0x1000000) (op : SvcOp) (seen : EccSeen), (s.room = true) ∧ (a ≠ .pcie) ∧ (s.getF Reg.MGT_DEVNUM < 64) ∧ (1 ≤ svcSize op)) ∧
    (∃ (s : State) (q : PcieReq) (seen : EccSeen), (s.domOn 55 = false ∨ s.pwr.perst = true)) ∧
    (∃ (s : State) (bar : Fin 3) (off : BitVec 33) (seen : EccSeen), (s.domOn 55 = true) ∧ (s.pwr.perst = false)) ∧
    (∃ (s : State) (n : Fin 4097) (off : BitVec 33) (seen : EccSeen), (s.domOn 55 = true) ∧ (s.pwr.perst = false) ∧ (0x10000 < off.toNat + n.val)) ∧
    (∃ (s : State) (off : Fin 0x8000) (n : Fin 4097), (s.domOn 55 = true) ∧ (s.pwr.perst = false) ∧ (s.domOn 37 = true) ∧ (s.domHolds 37 = true) ∧ (s.reqOf s.nextReq = {}) ∧ (s.flag (Reg.PCI_WIN_EN 1) = true) ∧ (s.getF (Reg.PCI_WIN_BASE 1) = 0xC0) ∧ (1 ≤ n.val) ∧ (n.val ≤ 8) ∧ (off.val % 32 + n.val ≤ 32)) ∧
    (∃ (s : State) (w : WriteReq) (d : Fin 3), (s.takes w (Reg.FLT_IRQ_CFG_HOLDOFF d).off = true) ∧ (w.half = .lo) ∧ (SMap.get (fun _ => false) s.flt.irqOn d = true) ∧ (w.field (Reg.FLT_IRQ_CFG_CLASS_EN d) = s.getF (Reg.FLT_IRQ_CFG_CLASS_EN d)) ∧ (s.fltSet d ≠ 0)) ∧
    (∃ (s : State) (off : BitVec 28) (w : WriteReq), (Reg.row (off.toNat / 8 * 8) = none)) ∧
    (∃ (s : State) (w : WriteReq) (h : Fin 4), (s.takes w Reg.MGT_HART_START.off = true) ∧ (coversLo w.half = true) ∧ (w.field Reg.MGT_HART_START = 2 ^ h.val) ∧ (s.domOn (33 + h) = true) ∧ (bit1 (s.getF Reg.MGT_HART_START) h = false) ∧ ((∀ e ∈ s.stw.harts, e.1 ≠ h.val))) ∧
    (∃ (s : State) (k : LoopSite) (w : WriteReq), (s.takesAct w (loopFld k).off = true) ∧ (w.half = .both)) :=
  ⟨⟨(hcm 0x100 64 (hr [])), .pcie, 0x104, 8, by decide +kernel⟩,
   ⟨((hcm 0x100 64 (hr [])).setSync {resv := [(0, some (0x118, 4)), (1, some (0x200,8))]}), (.hart 3), 0x111, [1,2,3,4,5,6,7,8,9], by decide +kernel⟩,
   ⟨(resv [(2, some (0x108, 8)), (3, some (0x10C, 4))] (hcm 0x100 64 (hr []))), 2, 0x108, true, 0xF122334455667788, by decide +kernel⟩,
   ⟨(hr []), 1, (0x2020000000 - 8), .add, true, 7, .clean, by decide +kernel⟩,
   ⟨(hr []), (.hart 1), 5, (.read 4096), .clean, by decide +kernel⟩,
   ⟨(hr [(Reg.PWR_DOM_STAT_STATE 55, 0)]), (.read 1 5 8), .clean, by decide +kernel⟩,
   ⟨(hr [(Reg.PCI_UR_COUNT, 2^32-1)]), 1, 5, .clean, by decide +kernel⟩,
   ⟨(hr []), 1, 0x10000, .clean, by decide +kernel⟩,
   ⟨(hcm 0x100 64 (hr [(Reg.PCI_WIN_EN 1, 1), (Reg.PCI_WIN_BASE 1, 0xC0)])), 0x104, 8, by decide +kernel⟩,
   ⟨(irqS 2 (hr [(Reg.FLT_IRQ_STAT_CLASS 2, 2), (Reg.FLT_IRQ_CFG_CLASS_EN 2, 2)])), (hoff 2 77), 2, by decide +kernel⟩,
   ⟨(hr []), 0xFFFFFF8, (stw 5), by decide +kernel⟩,
   ⟨(hr [(Reg.MGT_HART_ENTRY, 0x3000001000)]), (stw (4 * 2^Reg.MGT_HART_START.lo)), 2, by decide +kernel⟩,
   ⟨(hr []), (.ethLoop 5), (lpw (Reg.ETH_P_LOOP 5) 2), by decide +kernel⟩⟩

end HostAccesses

namespace BlockCodec

def cr (sect done nt : Nat) (k : Nat := 0) : CodedRegion := { sect := sect, base := 0x3000010000, kind := 0, k := k, d := 4, ntotal := nt, done := done }
def cdS (l : List CodedRegion) (n : Nat) (s : State) : State := (s.onPipe 1 (fun q => {q with coded := l})).setCodec [(32 + 5, (List.range n).map (fun i => qw (rndN i) 66))]

/-- States that meet the hypotheses of BlockCodec, for each of its clauses. -/
theorem met_BlockCodec :
    (∃ (kind k d : Nat) (marked : Bool) (xs : List Nat), (kindOk kind k) ∧ (1 ≤ d) ∧ (d ≤ 32) ∧ (1 ≤ xs.length) ∧ (xs.length ≤ 512) ∧ ((∀ x ∈ xs, x < 2 ^ kindBits kind))) ∧
    (∃ (kind x : Nat), (kind ≤ 3) ∧ (x < 2 ^ kindBits kind)) ∧
    (∃ (kind k x : Nat), (kind ≤ 1) ∧ (kindOk kind k) ∧ (1 ≤ k) ∧ (x < 2 ^ kindBits kind)) ∧
    (∃ (s : State) (p : Fin 4) (r : Fin 16) (code : Fin 25) (g : CodedRegion), 
    let sect := match s.coresOf p with | c :: _ => s.getF (Reg.CC_CTX_STAT_SECTION c) | [] => 0
    
    let k := p.val * 32 + code.val
    
    let n := g.elems g.done
    
    let nw := ceilDiv (n * g.width) 8
    
    let ws := (SMap.get (fun _ => []) s.codec k).take nw
    
    let seg := encodeSegment g.kind g.k g.d (ws.any (fun w => w.mark.isSome))
      ((elemsOf g.kind (ws.flatMap (fun w => leBytes 8 w.data.toNat))).take n)
    
    let a := g.addr g.done
    (((s.pipe p).coded.filter (fun g => g.sect == sect))[r.val]? = some g) ∧ (0 < nw) ∧ (ws.length = nw) ∧ (0x3000000000 ≤ a) ∧ (a + seg.length ≤ 0x3002000000) ∧ (a % 32 = 0) ∧ (seg.length % 32 = 0)) ∧
    (∃ (s : State) (p : Fin 4) (r : Fin 16) (code : Fin 25), (SMap.get (fun _ => []) s.codec (p.val * 32 + code.val) = [])) :=
  ⟨⟨2, 4, 32, false, (List.range 37).map (fun i => rndN i % 65536), by unfold kindOk; decide, by decide, by decide, by decide +kernel, by decide +kernel, by decide +kernel⟩,
   ⟨3, 0xFFFF, by decide +kernel⟩,
   ⟨1, 3, 0x81, by decide, by unfold kindOk; decide, by decide, by decide⟩,
   ⟨(cdS [cr 3 0 600, cr 0 0 1000] 70 (hr [])), 1, 0, 5, (cr 0 0 1000), by decide +kernel⟩,
   ⟨(hr []), 1, 0, 5, by decide +kernel⟩⟩

end BlockCodec

namespace EthernetPorts

def prt (s : State) (p : Nat) (v : EthPort) : State := s.setEth [(p, v)]
def fz (ty n : Nat) (dst : Byte := 0xFF) : List Byte := List.replicate 6 dst ++ List.replicate 6 2 ++ beBytes 2 ty ++ (List.range (n - 14)).map (fun i => BitVec.ofNat 8 (i*3))
def camF : List Byte := List.replicate 6 0xFF ++ List.replicate 6 2 ++ [8, 0] ++ [0x45, 0] ++ beBytes 2 46 ++ [0, 0, 0, 0, 64, 17, 0, 0] ++ [10, 0, 0, 10] ++ [10, 0, 0, 1] ++
  beBytes 2 5000 ++ beBytes 2 6000 ++ beBytes 2 26 ++ [0, 0] ++ List.replicate 18 7

/-- States that meet the hypotheses of EthernetPorts, for each of its clauses. -/
theorem met_EthernetPorts :
    (∃ (s : State) (p : Fin 4) (h w : Fin 65536), (s.domOn (47 + p / 2) = true) ∧ (s.getF (Reg.ETH_P_CFG_MODE p) ≠ 0) ∧ (s.room = true)) ∧
    (∃ (s : State) (p : Fin 6) (lock fec : Bool) (ns : Nat), (s.flag (Reg.ETH_P_STAT_LINK_UP p) = true) ∧ ((lock && fec) = false) ∧ (s.room = true)) ∧
    (∃ (s : State) (p : Fin 6), (s.flag (Reg.ETH_P_STAT_LINK_UP p) = false) ∧ (s.domOn (47 + p / 2) = true) ∧ (s.getF (Reg.ETH_P_CFG_MODE p) ≠ 0) ∧ (s.room = true)) ∧
    (∃ (s : State) (p : Fin 6) (at' : Nat) (bytes : List Byte) (good : Bool), (s.hears p bytes = true)) ∧
    (∃ (s : State) (p : Fin 6) (at' : Nat) (bytes : List Byte) (i : Nat) (d : Datagram), (s.hears p bytes = true) ∧ (s.frameForPort p bytes = true ∨ s.flag (Reg.ETH_P_CFG_PROMISC p) = true) ∧ (udpOf bytes = some d) ∧ (s.claimedBy p d = some i) ∧ (s.domOn 54 = true)) ∧
    (∃ (s : State) (p : Fin 6) (at' : Nat), (s.domOn (47 + p / 2) = true)) ∧
    (∃ (s : State) (p : Fin 6) (tq : Bool) (w : WriteReq), (coversLo w.half = true)) :=
  ⟨⟨(er [(Reg.ETH_P_EYE_MIN 3, 100 + 65536*50)]), 3, 99, 60, by decide +kernel⟩,
   ⟨(er []), 3, true, false, 9999, by decide +kernel⟩,
   ⟨(er [(Reg.ETH_P_STAT_LINK_UP 3, 0)]), 3, by decide +kernel⟩,
   ⟨(er [(Reg.ETH_P_FCSERR 3, 2^32-1)]), 3, 1000000999, (fz 0x0806 60), false, by decide +kernel⟩,
   ⟨(er []).sets [(Reg.ETH_EP 0 0, 1 + 3 * 2 ^ 16), (Reg.ETH_EP 0 1, 5000 * 2 ^ 32 + 6000 * 2 ^ 48), (Reg.ETH_EP 0 2, 0x0A00000A)], 3, 1000000999, camF, 0, (udpOf camF).get (by decide +kernel), by decide +kernel, by decide +kernel,
    (Option.some_get _).symm, by decide +kernel, by decide +kernel⟩,
   ⟨(prt (er []) 3 {cmdq := [{kind := 0, bytes := [1,2,3], ref := 9, due := 5}, {kind := 0, bytes := [4], ref := 9, due := 5}]}), 3, 1000000999, by decide +kernel⟩,
   ⟨(er []), 3, false, (rw (ringRegs 3 false).rxWr 77), by decide +kernel⟩⟩

end EthernetPorts

namespace StreamsAndRecords

def okEp : List (Nat × Nat × Nat) := [(0,1,1),(2,1,3),(12,2,5000),(14,2,6000),(16,4,0x0A00000A),(32,2,5),(34,2,0xFFFF),(36,4,1000000),(40,4,100),(44,4,1000),(48,1,96),(49,1,2),(50,1,1),(52,2,64),(54,2,48),(56,2,4),(58,2,2)]
def br (l : List (Fld × Nat)) : State := (wEp (mc ([(Reg.ALM_BM_STAT_STATE 1, 0), (Reg.ING_STR_STATE 5, 0), (Reg.ING_STR_CFG_NSLOT 5, 3), (Reg.ING_STR_CFG_RING_LOG2 5, 4), (Reg.ING_STR_IBUF_STRIDE 5, 384), (Reg.ING_STR_IBUF_BASE 5, 0x10000), (Reg.ING_STR_RING_BASE 5, 0x3000001000), (Reg.ING_STR_FRAME 5, 7), (Reg.ING_STR_RING_WR 5, 9), (Reg.ING_ROT_ENT 1 0, 0)] ++ l)) 9 okEp).onPipe 1 (fun q => {q with io := {w := 16, h := 8}})
def bnd : WriteReq := rw (Reg.ING_STR_CTL_BIND 5) 1
def doneF : Frame := {fr with stagesDone := [0], completion := some 1000000050, id := 4, lag := 2^33, saturated := true}
def recS (l : List (Fld × Nat)) (f : Frame) : State := addF ((er ([(Reg.ING_STR_CFG_RING_LOG2 5, 4), (Reg.ING_STR_RING_BASE 5, 0x3000001000), (Reg.ING_STR_RING_WR 5, 2^32-1), (Reg.ING_STR_RING_RD 5, 2^32-16)] ++ l)).onPipe 1 (fun q => {q with past := [{fr with fif := 1, id := 2}]})) 1 f

/-- States that meet the hypotheses of StreamsAndRecords, for each of its clauses. -/
theorem met_StreamsAndRecords :
    (∃ (s : State) (i : Fin 1024) (w : WriteReq), (s.takes w (Reg.ETH_EP i 7).off = true)) ∧
    (∃ (s : State) (m : Fin 64) (w : WriteReq), (s.takesAct w (Reg.ING_STR_CTL_BIND m).off = true) ∧ (coversLo w.half = true)) ∧
    (∃ (s : State) (n : Fin 4) (g : Fin 33) (w : WriteReq), 
    let off := if g.val < 32 then (Reg.ING_ROT_ENT n g).off else (Reg.ING_ROT_LEN n).off
    (s.takes w off = true)) ∧
    (∃ (s : State) (m : Fin 64) (f : Frame), 
    let p := s.getF (Reg.ING_STR_CFG_PIPE m)
    ((s.pipe p).frames.find? (fun f => f.stream == m.val && !f.recPend) = some f) ∧ ((s.strm m).pend = 0) ∧ (s.recordReady p f = true) ∧ (s.isFollower p = false) ∧ (s.flag Reg.ING_EVR_CTL_EN = false) ∧ (s.flag Reg.SOL_LRN_CFG_EN = false)) ∧
    (∃ (s : State) (m : Fin 64) (w : WriteReq), (s.takes w (Reg.ING_STR_RING_RD m).off = true) ∧ (coversLo w.half = true) ∧ ((s.strm m).pend = 0)) ∧
    (∃ (s : State) (w : WriteReq), (s.takes w Reg.ING_EVR_CTL_EN.off = true) ∧ (coversLo w.half = true)) :=
  ⟨⟨(er []), 9, (stw 0), by decide +kernel⟩,
   ⟨(br []), 5, bnd, by decide +kernel⟩,
   ⟨(br [(Reg.ING_STR_STATE 5, 1)]), 1, 0, (stw 0x85), by decide +kernel⟩,
   ⟨(recS [] doneF), 5, doneF, by decide +kernel⟩,
   ⟨(recS [] doneF), 5, (rw (Reg.ING_STR_RING_RD 5) 77), by decide +kernel⟩,
   ⟨(er [(Reg.ING_EVR_WRITE, 66)]), (rw Reg.ING_EVR_CTL_EN 1), by decide +kernel⟩⟩

end StreamsAndRecords

namespace LinkTraining

def ld (l : Nat) (s : State) : State := s.onPipe 1 (fun q => {q with links := [l], frames := [fr]})
def he : HelloMsg := { system := 0xABCD1234, nx := 1, ny := 1, nz := 0, dev := 1, link := 2 }
def tq (f : QLink → QLink) (p : Nat) : State := ql 3 (fun x => f {x with t1 := some 1000000000}) (lk (pl 3 p))

/-- States that meet the hypotheses of LinkTraining, for each of its clauses. -/
theorem met_LinkTraining :
    (∃ (s : State) (l : Fin 8) (w : WriteReq), (s.takesAct w (Reg.QSK_L_CTL_EN l).off = true) ∧ (coversLo w.half = true)) ∧
    (∃ (s : State) (l : Fin 8) (h : HelloMsg), (s.getF (Reg.QSK_L_STAT_PHASE l) = 3)) ∧
    (∃ (s : State) (l : Fin 8) (u : TimeMsg) (at' : Nat), 
    let ph := s.getF (Reg.QSK_L_STAT_PHASE l)
    (ph = 4 ∨ ph = 5)) ∧
    (∃ (s : State) (err : Int), (s.flag Reg.QSK_SFRAME_STAT_LOCK = false)) ∧
    (∃ (s : State) (err : Int), (s.room = true) ∧ (s.flag Reg.QSK_SFRAME_STAT_LOCK = true)) ∧
    (∃ (s : State) (w : WriteReq), (s.takesAct w Reg.QSK_ROUTE_CTL_DEFAULT.off = true) ∧ (coversLo w.half = true) ∧ (w.field Reg.QSK_ROUTE_CTL_DEFAULT = 1)) ∧
    (∃ (s : State) (w : WriteReq), (s.takes w Reg.QSK_TOPO_NX.off = true)) ∧
    (∃ (s : State) (w : WriteReq), (s.takes w Reg.MGT_DEVNUM.off = true) ∧ (coversLo w.half = true)) :=
  ⟨⟨(lk []), 3, (rw (Reg.QSK_L_CTL_EN 3) 1), by decide +kernel⟩,
   ⟨(lk (pl 3 3)), 3, he, by decide +kernel⟩,
   ⟨(tq id 5), 3, (.ask 77), 1000000200, by decide +kernel⟩,
   ⟨(lk []), 7, by decide +kernel⟩,
   ⟨(ld 3 (lk [(Reg.QSK_SFRAME_STAT_LOCK, 1)])), (-9000000), by decide +kernel⟩,
   ⟨(lk [(Reg.QSK_TOPO_NX, 2), (Reg.QSK_TOPO_NY, 2), (Reg.QSK_TOPO_NZ, 2), (Reg.QSK_TOPO_EXPRESS, 3), (Reg.QSK_ROUTE_LINK 9, 3)]), (rw Reg.QSK_ROUTE_CTL_DEFAULT 1), by decide +kernel⟩,
   ⟨(lk []), (rw Reg.QSK_TOPO_NX 2), by decide +kernel⟩,
   ⟨(rig.sets [(Reg.MGT_DEVNUM, 5)]), (rw Reg.MGT_DEVNUM 63), by decide +kernel⟩⟩

end LinkTraining

namespace JoinedDevices

def fwd (w : List (Nat)) : List (Fin 8 × FabWord) := w.map (fun i => (Fin.ofNat 8 i, {fw (i * 77) 66 with mark := decide (i = 3)}))
def nowF : Nat := (1000000000 / 128 - 2) % 256
def rxS (l slot : Nat) (v : List (Nat × List (Nat × QWord))) (s : State) : State := ql l (fun x => {x with rx := [(slot, v)]}) s
def W1 : List (Nat × QWord) := [(1, qw 5 66), (3, qw 6 66)]
def fol (l : List (Fld × Nat)) (ts : List TensorRec) : State := ((lk ([(Reg.QSK_PART_HEAD_DEV 1, 11), (Reg.QSK_PART_HEAD_PIPE 1, 2), (Reg.MC_CH_MAP_ACTIVE 1, 0xFFFF), (Reg.MC_CH_MAP_ACTIVE 0, 0xFFFF), (Reg.MGT_HBM_CTL_COMMITTED, 1)] ++ l))).onPipe 1 (fun q => {q with quosk := true, tensors := ts, tbase := 0x10000, frames := [{fr with fif := 3}]})
def hed (l : List (Fld × Nat)) (fs : List Frame) : State := ((lk ([(Reg.QSK_PART_IS_HEAD 1, 1), (Reg.QSK_PART_FOLLOW 1, 2^11 + 2^63), (Reg.QSK_ROUTE_LINK 11, 3), (Reg.QSK_PART_CFG_TIMEOUT 1, 3)] ++ l)).setFree 9).onPipe 1 (fun q => {q with quosk := true, frames := fs})
def fw2 : Frame := {fr with waitStatus := [11, 63], peerDone := 77}

/-- States that meet the hypotheses of JoinedDevices, for each of its clauses. -/
theorem met_JoinedDevices :
    (∃ (s : State) (l : Fin 8) (frame : Fin 256) (slot : Fin 128) (words : List (Fin 8 × FabWord)), (s.linkUp l = true) ∧ (s.flag (Reg.QSK_L_LOOP l) = false) ∧ (s.room = true)) ∧
    (∃ (s : State) (l : Fin 8) (slot : Fin 128) (due : Nat) (ws : List (Nat × QWord)) (rest : List (Nat × List (Nat × QWord))), (SMap.get (fun _ => []) (s.qlink l).rx slot = (due, ws) :: rest)) ∧
    (∃ (s : State) (l : Fin 8) (slot : Fin 128) (due pos : Nat) (w : QWord) (rest : List (Nat × List (Nat × QWord))), (SMap.get (fun _ => []) (s.qlink l).rx slot = (due, [(pos, w)]) :: rest) ∧ (s.room = true)) ∧
    (∃ (s : State) (l : Fin 8) (src : Fin 64) (req : Nat) (a : BitVec 48) (seen : EccSeen) (me : Fin 64), (s.linkUp l = true) ∧ (me.val = s.getF Reg.MGT_DEVNUM) ∧ (s.farQuiet = true) ∧ (s.reqOf s.nextReq = {})) ∧
    (∃ (s : State) (l : Fin 8) (src : Fin 64) (req : Nat) (seen : EccSeen) (me : Fin 64), (s.linkUp l = true) ∧ (me.val = s.getF Reg.MGT_DEVNUM) ∧ (s.farQuiet = true)) ∧
    (∃ (s : State) (l : Fin 8) (src : Fin 64) (req : Nat) (st : Fin 4) (data : List Byte) (seen : EccSeen) (me : Fin 64), (s.linkUp l = true) ∧ (me.val = s.getF Reg.MGT_DEVNUM) ∧ (s.farQuiet = true) ∧ (req < 512) ∧ (s.sync.farLate.contains (req, src.val) = true)) ∧
    (∃ (s : State) (l : Fin 8) (dest : Fin 64) (u : SvcUnit) (seen : EccSeen), (s.linkUp l = true) ∧ (s.farQuiet = true) ∧ (dest.val ≠ s.getF Reg.MGT_DEVNUM) ∧ (s.flag (Reg.QSK_ROUTE_VALID dest) = true) ∧ (s.linkUp (s.getF (Reg.QSK_ROUTE_LINK dest)) = true)) ∧
    (∃ (s : State) (l : Fin 8) (dest : Fin 64) (u : SvcUnit) (seen : EccSeen), (s.linkUp l = false) ∧ (s.farQuiet = true)) ∧
    (∃ (s : State) (src : Fin 64) (p : Fin 4) (n : Nat), (s.followerOf src p = some n)) ∧
    (∃ (s : State) (src : Fin 64) (p : Fin 4), (s.followerOf src p = none)) ∧
    (∃ (s : State) (src : Fin 64) (p : Fin 4) (f : Frame) (quality : Fin 32) (reason : Fin 10) (first done : Nat), (src.val ∈ s.followers p) ∧ ((s.pipe p).frames = [f]) ∧ (f.admitted = true) ∧ (f.fif < 8) ∧ (f.frameNo < 0xFFFF)) ∧
    (∃ (s : State) (src : Fin 64) (p : Fin 4) (fif : Fin 8) (j : Fin 65536) (f : Frame) (quality : Fin 32) (reason : Fin 10)
      (first done : Nat) (fold : Bool), (src.val ∈ s.followers p) ∧ ((s.pipe p).frame fif = some f) ∧ (f.frameNo = j.val) ∧ (j.val ≠ 0xFFFF)) ∧
    (∃ (s : State) (src : Fin 64) (p : Fin 4), (src.val ∈ s.followers p)) ∧
    (∃ (s : State) (src : Fin 64) (p : Fin 4), (src.val ∉ s.followers p)) ∧
    (∃ (s : State) (p : Fin 4) (d : Fin 64) (f : Frame), ((s.pipe p).frames.find? (fun f => f.admitted && f.waitStatus.contains d.val) = some f) ∧ (s.room = true)) :=
  ⟨⟨(lk (pl 3 5)), 3, (Fin.ofNat 256 nowF), 9, (fwd [1,3]), by decide +kernel⟩,
   ⟨(rxS 3 9 [(7812505, W1), (7812506, [(1, qw 5 67)])] (sp 1 5 12 (37 + 2^14 + 2^12) (lk (pl 3 5)))), 3, 9, 7812505, W1, [(7812506, [(1, qw 5 67)])], by decide +kernel⟩,
   ⟨(rxS 3 9 [(7812505, [(3, qw 5 66)]), (7812506, [(1, qw 5 67)])] (sp 1 5 12 (37 + 2^14 + 2^12) (lk (pl 3 5)))), 3, 9, 7812505, 3, (qw 5 66), [(7812506, [(1, qw 5 67)])], by decide +kernel⟩,
   ⟨(hcm 0x100 64 (lk (pl 3 5))), 3, 9, 77, 0x3000000104, .clean, 5, by decide +kernel⟩,
   ⟨(barS 1 4 3 (lk (pl 3 5))), 3, 11, 77, .clean, 5, by decide +kernel⟩,
   ⟨((lk (pl 3 5)).setSync {farLate := [(7,2),(52,11),(52,11)]}), 3, 11, 52, 2, [1,2], .clean, 5, by decide +kernel⟩,
   ⟨(lk (pl 3 5 ++ [(Reg.QSK_ROUTE_VALID 9, 1), (Reg.QSK_ROUTE_LINK 9, 3)])), 3, 9, (.barrier 3 4 5 2 7 0), .clean, by decide +kernel⟩,
   ⟨(lk []), 3, 4, (.barrier 3 4 5 2 7 0), .clean, by decide +kernel⟩,
   ⟨(fol [] []), 11, 2, 1, by decide +kernel⟩,
   ⟨(fol [] []), 12, 2, by decide +kernel⟩,
   ⟨(hed [] [fw2]), 11, 1, fw2, 27, 0, 5, 99, by decide +kernel⟩,
   ⟨(hed [] [{fw2 with admitted := false}, fw2]), 11, 1, 2, 7, fw2, 27, 0, 5, 99, false, by decide +kernel⟩,
   ⟨(hed [] [fw2]), 11, 1, by decide +kernel⟩,
   ⟨(hed [(Reg.ALM_BM_STAT_STATE 1, 4)] [fw2, {fw2 with fif := 3, completion := some 5}]), 62, 1, by decide +kernel⟩,
   ⟨(hed [] [{fw2 with launch := 999999000, void := some (3,4)}]), 1, 11, {fw2 with launch := 999999000, void := some (3,4)}, by decide +kernel⟩⟩

end JoinedDevices

namespace BarrierGateway

def bg (l : List (Fld × Nat)) (f : Gateway → Gateway) : State := (((rig1 2).sets ([(Reg.BGW_STAT_UP, 1), (Reg.BGW_MR_CTL_EN, 1), (Reg.BGW_MR_CTL_LOG2, 4)] ++ l))).setBgw (f { expect := [(0, some 7), (1, some 65535)] })
def fz (ty q : Nat) (b : Nat := 3) : List Byte := barFrame ty q ((List.range 56).map (fun i => BitVec.ofNat 8 (i * b + 1)))
def txb (c ty : Nat) (l : List (Fld × Nat)) (f : Gateway → Gateway) : State := bg ([(Reg.BGW_TX c 0, ty + 256 * 77 + 2^63), (Reg.BGW_TX c 3, 0x1122334455667788), (Reg.BGW_TX c 7, 0x1122334455667788)] ++ l) f
def gow (c : Nat) : WriteReq := rw (Reg.BGW_TX_GO c) 1
def srcw (en lg : Nat) : WriteReq := stw (en * 2^(Reg.BGW_SRC_CFG_EN 9).lo + lg * 2^(Reg.BGW_SRC_CFG_LOG2 9).lo)
def srs (en lg : Nat) : State := bg [(Reg.BGW_SRC_CFG_EN 9, en), (Reg.BGW_SRC_CFG_LOG2 9, lg), (Reg.BGW_SRC_WR 9, 5), (Reg.BGW_SRC_RD 9, 3)] (fun b => {b with base := [(9, some (4,5))], disabled := [9], overrun := [9]})
def mrw (en lg : Nat) : WriteReq := stw (en * 2^(Reg.BGW_MR_CTL_EN).lo + lg * 2^(Reg.BGW_MR_CTL_LOG2).lo)
def mrs (en lg : Nat) : State := bg [(Reg.BGW_MR_CTL_EN, en), (Reg.BGW_MR_CTL_LOG2, lg), (Reg.BGW_MR_WR, 5), (Reg.BGW_MR_RD, 3)] id
def kd (l : List W32) (chk : Nat) (p : Nat) : State := bg [(Reg.BGW_KEYSTAT_PROG, p)] (fun b => {b with keyData := [(1, l)], keyChk := [(1, BitVec.ofNat 32 chk)]})
def kb : List W32 := [1,2,3,0xFFFFFFFF]
def kc : Nat := crc32c (kb.flatMap (fun x => leBytes 4 x.toNat))

/-- States that meet the hypotheses of BarrierGateway, for each of its clauses. -/
theorem met_BarrierGateway :
    (∃ (s : State) (c : Fin 2) (bytes : List Byte) (e : Nat), (goodFrame 0 bytes = true) ∧ (s.domOn 38 = true) ∧ (s.flag Reg.BGW_STAT_UP = true) ∧ (s.room = true) ∧ (SMap.get (fun _ => none) s.bgw.expect c = some e) ∧ (e ≠ fieldLe bytes 2 2)) ∧
    (∃ (s : State) (c : Fin 2), (s.domOn 38 = true) ∧ ((∀ k, k < 2 → SMap.get (fun _ => []) s.bgw.txq k = []))) ∧
    (∃ (s : State) (c : Fin 2), (s.domOn 38 = false)) ∧
    (∃ (s : State), (s.domOn 38 = true) ∧ (s.flag Reg.BGW_TIME_CFG_EN = true) ∧ (SMap.get (fun _ => []) s.bgw.txq 0 = []) ∧ (SMap.get (fun _ => []) s.bgw.txq 1 = [])) ∧
    (∃ (s : State), (s.domOn 38 = false ∨ s.flag Reg.BGW_TIME_CFG_EN = false)) ∧
    (∃ (s : State) (c : Fin 2) (w : WriteReq), (s.takesAct w (Reg.BGW_TX_GO c).off = true) ∧ (coversLo w.half = true) ∧ (w.field (Reg.BGW_TX_GO c) = 1) ∧ (s.domOn 38 = true) ∧ (s.room = true) ∧ ((∀ k, k < 2 → SMap.get (fun _ => []) s.bgw.txq k = []))) ∧
    (∃ (s : State) (n : Fin 128) (w : WriteReq), (s.takes w (Reg.BGW_SRC_CFG_EN n).off = true) ∧ (coversLo w.half = true)) ∧
    (∃ (s : State) (w : WriteReq), (s.takes w Reg.BGW_MR_CTL_EN.off = true) ∧ (coversLo w.half = true)) ∧
    (∃ (s : State) (k : Fin 2) (w : WriteReq), (s.takesAct w (Reg.BGW_KEYPROG_GO k).off = true) ∧ (coversLo w.half = true) ∧ (w.field (Reg.BGW_KEYPROG_GO k) = 1)) :=
  ⟨⟨(bg [] id), 0, (fz 0 9), 7, by decide +kernel⟩,
   ⟨(bg [] (fun b => {b with txBusy := [(0, 1000000900)], txSeq := [(0, 65535)], stepped := true})), 0, by decide +kernel⟩,
   ⟨(bg [(Reg.PWR_DOM_STAT_STATE 38, 0)] id), 1, by decide +kernel⟩,
   ⟨(bg [(Reg.BGW_TIME_CFG_EN, 1), (Reg.BGW_TIME_CFG_LOCKED, 1), (Reg.BGW_TIME_CFG_UTC_OFFSET, 0xFFDB)] (fun b => {b with txBusy := [(0, 1000000900)], txSeq := [(0, 65535)], stepped := true})), by decide +kernel⟩,
   ⟨(bg [] id), by decide +kernel⟩,
   ⟨(txb 0 0x11 [] id), 0, (gow 0), by decide +kernel⟩,
   ⟨(srs 0 5), 9, (srcw 1 8), by decide +kernel⟩,
   ⟨(mrs 0 5), (mrw 1 12), by decide +kernel⟩,
   ⟨(kd kb kc 1), 1, (rw (Reg.BGW_KEYPROG_GO 1) 1), by decide +kernel⟩⟩

end BarrierGateway

namespace MetrologyIsland

def fz (ty q : Nat) (b : Nat := 3) : List Byte := barFrame ty q ((List.range 56).map (fun i => BitVec.ofNat 8 (i * b + 1)))
def isl (f : Island → Island) : State := (rig1 2).setIsl (f {run := .running, time := 5 * 2^43, expect := [(0, some 7), (1, some 65535)]})
def offb (len : Nat) : List Byte := barFrame 0x15 65535 (leBytes 2 77 ++ leBytes 2 0 ++ leBytes 4 len ++ leBytes 4 0xAABBCCDD ++ (List.range 32).map (fun i => BitVec.ofNat 8 (i+1)))
def bf (f : Island → Island) : State := isl (fun x => f {x with run := .bootFailed})

/-- States that meet the hypotheses of MetrologyIsland, for each of its clauses. -/
theorem met_MetrologyIsland :
    (∃ (s : State) (c : Fin 2) (bytes : List Byte), (goodFrame 0 bytes = true) ∧ (s.isl.run ≠ .off)) ∧
    (∃ (s : State) (c : Fin 2) (bytes : List Byte) (ticks : Nat), (goodFrame 0x10 bytes = true) ∧ (c = 0) ∧ (s.isl.run = .running) ∧ (s.isl.slew = 0)) ∧
    (∃ (s : State) (c : Fin 2) (bytes : List Byte), (c = 1) ∧ (s.isl.run = .bootFailed)) ∧
    (∃ (s : State) (r : Int) (d : Int), (s.isl.run = .running)) ∧
    (∃ (s : State) (x : IslTime), (s.isl.run ≠ .running)) ∧
    (∃ (s : State) (c : Fin 4) (sig sen : Int) (ticks : Nat), (s.isl.run ≠ .off) ∧ (s.isl.afe = true) ∧ (s.isl.slew = 0)) ∧
    (∃ (s : State) (g : Fin 8), (s.isl.run ≠ .off) ∧ ((s.seg g).en = true)) ∧
    (∃ (s : State) (bytes : List Byte), (s.isl.run = .running) ∧ (bytes.length = 40) ∧ 
    let k := fieldLe bytes 7 1 % 2
    
    let key := SMap.get (fun _ => []) s.otp.islKey k
    
    let q := SMap.get (fun _ => 0) s.isl.txSeq 0
    (key.length = 16)) ∧
    (∃ (s : State), (s.isl.run = .bootFailed)) :=
  ⟨⟨(isl id), 0, (fz 0 8), by decide +kernel⟩,
   ⟨(isl id), 0, (fz 0x10 7), 7, by decide +kernel⟩,
   ⟨(bf id), 1, (offb 0x40000), by decide +kernel⟩,
   ⟨(isl id), 1099511627, (-5), by decide +kernel⟩,
   ⟨(bf id), (.rate 5), by decide +kernel⟩,
   ⟨(isl (fun x => {x with afe := true})), 2, 5000000, 2000000000, 7, by decide +kernel⟩,
   ⟨(isl (fun x => {x with segs := [(3, {en := true, seq := 65535, nodes := 9, cmdSeq := 65535})]})), 3, by decide +kernel⟩,
   ⟨((isl (fun x => {x with txSeq := [(0, 65535)]})).setOtp { islKey := [(1, (List.range 16).map (fun i => BitVec.ofNat 8 i))] }), ((List.range 40).map (fun i => BitVec.ofNat 8 (i * 3))), by decide +kernel⟩,
   ⟨((bf (fun x => {x with txSeq := [(1, 65535)]})).setFree 9), by decide +kernel⟩⟩

end MetrologyIsland

namespace WeaveLoading

def wl (l : List (Fld × Nat)) : State := (rig1 2).sets ([(Reg.MC_CH_MAP_ACTIVE 0, 0xFFFF), (Reg.MGT_HBM_CTL_COMMITTED, 1), (Reg.WVL_REQ_ADDR, 0x3000001000)] ++ l)
def reqb (img len pipe arena sz clo chi sb ss : Nat) (res : Nat := 0) : List Byte := leBytes 8 img ++ leBytes 8 len ++ [0, 0] ++ leBytes 1 pipe ++ leBytes 1 res ++ leBytes 4 0 ++ leBytes 8 arena ++ leBytes 8 sz ++ leBytes 4 clo ++ leBytes 4 chi ++ leBytes 4 sb ++ leBytes 4 ss ++ leBytes 8 0
def rqM (b : List Byte) (s : State) : State := s.wrBytes (hostKey 0x1000) b
def okR : List Byte := reqb 0x3000002000 512 255 0x10000 0x1000 0 0x1000 0 0x1000
def img (l : List (Nat × Nat × Nat)) : List Byte := l.foldl (fun b x => b.take x.1 ++ leBytes x.2.1 x.2.2 ++ b.drop (x.1 + x.2.1)) (List.replicate 512 0)
def okI : List (Nat × Nat × Nat) := [(0,4,0x31455657),(4,2,0x100),(6,2,0x6432),(9,1,1),(12,4,1),(16,8,512),(512-144+140,4,0x47495357)]
def imM (b : List Byte) (s : State) : State := s.wrBytes (hostKey 0x2000) b
def gow : WriteReq := rw Reg.WVL_CTL_GO 1
def jb : LoadJob := { pipe := 0, image := 0x3000002000, len := 512, variant := 0, start := 0, rot := 0, place := [5], arena := 0x10000, arenaSize := 0x1000, chLo := 0, chHi := 0x1000, solBase := 0, solSize := 0x1000 }
def unl (n : Nat) : WriteReq := rw (Reg.WVL_PIPE_CTL_UNLOAD n) 1
def ub (l : List (Fld × Nat)) : State := ((wl ([(Reg.ING_STR_STATE 5, 0), (Reg.ALM_BM_STAT_STATE 1, 0), (Reg.PWR_CC_FLOOR 3, 5), (Reg.CC_VT_SLOT_STATE 3 4, 3), (Reg.CC_VT_SLOT_STATE 9 4, 3)] ++ l)).onPipe 1 (fun q => {q with threads := [52], frames := [{fr with admitted := false}], tensors := [{idx := 3, kind := 0, initLo := 1, initHi := 2}]})).setSpine [(5, BitVec.ofNat 32 (2^14 + 2^12 + 7)), (128 * 4 * 9 + 6, BitVec.ofNat 32 (2^14 + 2^13 + 7)), (128*4*11 + 7, BitVec.ofNat 32 (2^12))]

/-- States that meet the hypotheses of WeaveLoading, for each of its clauses. -/
theorem met_WeaveLoading :
    (∃ (s : State) (a n : Nat), (s.hostRange a n = true)) ∧
    (∃ (s : State) (w : WriteReq), (s.goesNow w = true)) ∧
    (∃ (s : State), (s.load = none)) ∧
    (∃ (s : State) (r : LoadJob), (s.load = some r) ∧ (r.pipe < 4) ∧ ((∀ n, n < 4 → (s.pipe n).unloadDue = false))) ∧
    (∃ (s : State) (n : Fin 4) (w : WriteReq), (s.takesAct w (Reg.WVL_PIPE_CTL_UNLOAD n).off = true) ∧ (wBit w (Reg.WVL_PIPE_CTL_UNLOAD n) = true) ∧ (s.load ≠ none)) ∧
    (∃ (s : State) (n : Nat), ((∀ k, k < 4 → (s.pipe k).unloadDue = decide (k = n))) ∧ (n < 4)) ∧
    (∃ (s : State) (n : Fin 4) (w : WriteReq), (s.takesAct w (Reg.WVL_PIPE_CTL_UNLOAD n).off = true) ∧ (wBit w (Reg.WVL_PIPE_CTL_UNLOAD n) = true) ∧ (s.load = none)) :=
  ⟨⟨(rqM okR (wl [])), 0x3000001000, 512, by decide +kernel⟩,
   ⟨((rqM okR (wl [])).setLoad (some jb)), gow, by decide +kernel⟩,
   ⟨(wl []), by decide +kernel⟩,
   ⟨((imM (img okI) (wl [(Reg.WVL_STATUS_BUSY, 1)])).setLoad (some jb)), jb, by decide +kernel⟩,
   ⟨((wl []).setLoad (some jb)), 1, (unl 1), by decide +kernel⟩,
   ⟨((wl []).onPipe 1 (fun q => {q with unloadDue := true})), 1, by decide +kernel⟩,
   ⟨(ub []), 1, (unl 1), by decide +kernel⟩⟩

end WeaveLoading

namespace LearningUnit

def lr (l : List (Fld × Nat)) : State := (rig1 2).sets ([(Reg.SOL_LRN_CFG_THETA, 256), (Reg.SOL_LRN_CFG_CLOG2, 2), (Reg.SOL_LRN_CFG_K_POS, 4), (Reg.SOL_LRN_CFG_K_NEG, 11), (Reg.SOL_LRN_TBASE, 0x3000100000), (Reg.SOL_LRN_ROWS, 16), (Reg.SOL_LRN_CBASE, 0x3000200000), (Reg.SOL_LRN_LBASE, 0x3000300000), (Reg.SOL_LRN_LLOG2, 4), (Reg.SOL_LRN_LWR, 2), (Reg.SOL_LRN_LRD, 2^32-1)] ++ l)
def cfgw (en theta : Nat) : WriteReq := stw (en + 4 * 16 + 11 * 256 + theta * 4096 + 2 * 2^24)
def lab (m j pos neg : Nat) (z : Nat := 0) : List Byte := leBytes 2 m ++ leBytes 2 j ++ leBytes 2 pos ++ leBytes 2 neg ++ [9] ++ leBytes 1 z ++ leBytes 2 7 ++ leBytes 2 8 ++ leBytes 2 0 ++ leBytes 8 5 ++ leBytes 8 0
def labS (b : List Byte) (g : List (Nat × Nat)) (valid : Nat := 1) (j : Nat := 7) : State :=
  let put := fun (a : Nat) (bs : List Byte) => bs.zipIdx.map (fun x => (hostKey (a + x.2), x.1))
  ((lr [(Reg.SOL_LRN_CFG_EN, 1)]).setMem (put (0x200000 + 288 * (5 * 4 + 3)) (leBytes 2 5 ++ leBytes 2 j ++ leBytes 1 valid ++
    [0, 100]) ++ put (0x300000 + 32 * 15) b)).setLearn { gen := g }
def sw (r v : Nat) : WriteReq := stw (r + v * 2^32)

/-- States that meet the hypotheses of LearningUnit, for each of its clauses. -/
theorem met_LearningUnit :
    (∃ (s : State) (r : LrnReg) (w : WriteReq), (s.takes w (lrnFld r).off = true)) ∧
    (∃ (s : State), (s.labelReady = true) ∧ (s.labelStatus ≠ 1)) ∧
    (∃ (s : State), (s.labelReady = true) ∧ (s.labelStatus = 1)) ∧
    (∃ (s : State) (errs : List (Fin 4096 × Fin 257 × Bool)), (s.flag Reg.SOL_LRN_CFG_EN = false ∨ s.getF Reg.SOL_LRN_LRD = s.getF Reg.SOL_LRN_LWR)) ∧
    (∃ (s : State) (w : WriteReq), (s.takes w Reg.SOL_LRN_SEED_ROW.off = true) ∧ (w.half = .both)) :=
  ⟨⟨(lr []), .cfg, (cfgw 1 256), by decide +kernel⟩,
   ⟨(labS (lab 5 7 16 4) []), by decide +kernel⟩,
   ⟨(labS (lab 5 7 3 4) [(3,0x12345678), (4,0x9ABCDEF1)]), by decide +kernel⟩,
   ⟨(lr []), [(3, 5, true)], by decide +kernel⟩,
   ⟨((lr []).setLearn { gen := [(3,5)], trace := [(7 * 256 + 3, 5)], tecc := [(7 * 257, .poisoned)]}), (sw 7 0xFFFFFFFF), by decide +kernel⟩⟩

end LearningUnit

namespace FaultRing

def fr1 : FaultRec := { cls := 1, code := 0x206, unit := 0x12345678, time := 1000000000, frame := some (5, 7), pipe := some 1, fif := some 2, devnum := 5, detail := 0x1122334455667788 }
def fs (l : List (Fld × Nat)) (p : List FaultRec) : State := (((rig1 2).sets ([(Reg.FLT_CTL_EN, 1), (Reg.FLT_Q_BASE, 0x3000001000), (Reg.FLT_Q_LOG2, 6), (Reg.FLT_Q_WR, 2^32-1), (Reg.FLT_Q_RD, 2^32-64), (Reg.FLT_Q_HRD, 2^32-65), (Reg.FLT_IRQ_CFG_CLASS_EN 0, 31), (Reg.FLT_IRQ_CFG_CLASS_EN 2, 2)] ++ l))).setFlt { pend := p }

/-- States that meet the hypotheses of FaultRing, for each of its clauses. -/
theorem met_FaultRing :
    (∃ (s : State) (r : FaultRec) (rest : List FaultRec), (s.flt.pend = r :: rest) ∧ (s.domHolds 38 = true) ∧ (s.flag Reg.FLT_CTL_EN = true) ∧ (s.flag Reg.FLT_STATUS_RING_ERROR = false) ∧ (s.room = true)) ∧
    (∃ (s : State), (s.flt.pend = [] ∨ s.flag Reg.FLT_CTL_EN = false ∨ s.flag Reg.FLT_STATUS_RING_ERROR = true)) ∧
    (∃ (op : WriteReq → Instr), (op = .fltCtlEn ∨ op = .fltLastClr) ∧ ∃ (s : State) (w : WriteReq), s.takes w Reg.FLT_CTL_EN.off = true ∧ coversLo w.half = true) ∧
    (∃ (s : State) (w : WriteReq), (s.takes w Reg.MGT_HB_CFG_REARM.off = true) ∧ (coversLo w.half = true)) :=
  ⟨⟨(fs [] [fr1, fr1]), fr1, [fr1], by decide +kernel⟩,
   ⟨(fs [(Reg.FLT_CTL_EN, 0)] [fr1]), by decide +kernel⟩,
   ⟨.fltLastClr, Or.inr rfl, rig, stw 1, by decide +kernel⟩,
   ⟨((fs [] []).setPwr {(fs [] []).pwr with offRaised := [(3, true)]}), (stw (5 * 2^Reg.MGT_HB_CFG_MISS_LIMIT.lo + 2^Reg.MGT_HB_CFG_REARM.lo)), by decide +kernel⟩⟩

end FaultRing

namespace DomainRequests

def dr (l : List (Fld × Nat)) (tr : List (Nat × Option Nat)) (mv : List (Nat × Nat)) : State := let s := (addF (rig1 2) 1 fr).sets l; s.setPwr { s.pwr with trans := tr, coreMove := mv }
def tr2 (d v : Nat) (was : Nat := 3) : State := (((dr [(Reg.PWR_DOM_STAT_STATE d, was), (vTarget 3, 700), (vTarget 32, 700), (Reg.PWR_DOM_STAT_TRANS d, 1)] [(d, some v)] []).putTile 3 17 {firing := some fs0}).wrBytes (storeKey 3 0x100) [1,2,3]).wrBytes (hostKey 0x100) [1,2,3]
def cw (k : Nat) (w : Nat) : State := drS (fun p => {p with coreMove := [(5,k)], workAt := [(5, w)]}) (((dr [(Reg.PWR_DOM_STAT_STATE 5, 1)] [] []).putTile 5 17 {firing := some fs0}).onCore 5 (fun x => {x with owe := [(1, 7), (2, 9)]}))

/-- States that meet the hypotheses of DomainRequests, for each of its clauses. -/
theorem met_DomainRequests :
    (∃ (s : State) (d : Fin 57) (w : WriteReq), (s.takes w (Reg.PWR_DOM_REQ_STATE d).off = true) ∧ (coversLo w.half = true)) ∧
    (∃ (s : State) (d : Fin 57) (v : Nat), (s.transOf d = some v) ∧ (v < 4)) ∧
    (∃ (s : State) (d : Fin 57), (s.transOf d = none)) ∧
    (∃ (s : State) (c : Fin 32), (s.domOn c = true) ∧ (s.quiescent c = true)) ∧
    (∃ (s : State) (c : Fin 32), (s.domOn c = true) ∧ (s.quiescent c = false)) ∧
    (∃ (s : State) (c : Fin 32) (ns : Nat), (s.dom c = 1)) :=
  ⟨⟨(dr [] [] []), 3, (rq (Reg.PWR_DOM_REQ_STATE 3) 0), by decide +kernel⟩,
   ⟨(tr2 3 0), 3, 0, by decide +kernel⟩,
   ⟨rig, 3, by decide +kernel⟩,
   ⟨(dr [(Reg.PWR_CC_IDLE_STATE 3, 1), (Reg.PWR_CC_IDLE_DELAY 3, 777)] [] []), 3, by decide +kernel⟩,
   ⟨((tr2 37 0).putTile 5 17 {firing := some fs0}), 5, by decide +kernel⟩,
   ⟨(cw 2 0), 5, 100, by decide +kernel⟩⟩

end DomainRequests

namespace SleepAndWake

def e0 (l : List (Fld × Nat)) : State := (rig.sets l).wrBytes (hbmKey 3 0x100) [1,2,3]

/-- States that meet the hypotheses of SleepAndWake, for each of its clauses. -/
theorem met_SleepAndWake :
    ∃ (s : State) (w : WriteReq), (s.takes w Reg.PWR_DEV_CTL_SLEEP.off = true) ∧ (coversLo w.half = true) ∧ (w.field Reg.PWR_DEV_CTL_SLEEP = 1) :=
  ⟨(e0 []), (rq Reg.PWR_DEV_CTL_SLEEP 1), by decide +kernel⟩

end SleepAndWake

/-- States that meet the hypotheses of ClocksAndVoltage, for each of its clauses. -/
theorem met_ClocksAndVoltage :
    (∃ (s : State) (d : Fin 33) (w : WriteReq), (s.takes w (clkN d).off = true) ∧ (coversLo w.half = true)) ∧
    (∃ (s : State) (d : Fin 33) (m : Int), (s.domOn d = true) ∧ (s.flag (avsEn d) = true) ∧ (s.getF (vTarget d) ≤ 850)) ∧
    (∃ (s : State) (d : Fin 33) (m : Int), (s.domOn d = false ∨ s.flag (avsEn d) = false)) ∧
    (∃ (s : State) (d : Fin 33), (s.domOn d = true) ∧ (s.room = true)) ∧
    (∃ (s : State) (d : Fin 33), (s.domOn d = false)) ∧
    (∃ (s : State) (q : Fin 4) (w : WriteReq), (s.takes w (Reg.PWR_QPLL_CTL_RELOCK q).off = true) ∧ (coversLo w.half = true)) :=
  ⟨⟨(m0 [(clkN 3, 128), (clkEff 3, 128)]), 3, (rq (clkN 3) 200), by decide +kernel⟩,
   ⟨(drS (fun p => {p with ceilCnt := [(3,0)]}) (m0 [(vTarget 3, 700), (avsEn 3, 1), (avsLow 3, 40), (avsHigh 3, 80), (vMinF 3, 600)])), 3, 39, by decide +kernel⟩,
   ⟨(m0 [(vTarget 32, 700), (vMinF 32, 850), (avsEn 32, 0)]), 32, 1000, by decide +kernel⟩,
   ⟨(m0 []), 3, by decide +kernel⟩,
   ⟨(m0 [(Reg.PWR_DOM_STAT_STATE 5, 1)]), 5, by decide +kernel⟩,
   ⟨(m0 [(Reg.PWR_QPLL_CTL_LOCK 0, 1)]), 0, (rq (Reg.PWR_QPLL_CTL_RELOCK 0) 1), by decide +kernel⟩⟩

/-- States that meet the hypotheses of ThermalLimits, for each of its clauses. -/
theorem met_ThermalLimits :
    (∃ (s : State) (ts : List (BitVec 8)), (s.thermalRuns = true) ∧ (s.room = true)) ∧
    (∃ (s : State) (ts : List (BitVec 8)), (s.thermalRuns = false)) ∧
    (∃ (s : State) (tm : Nat), (s.pwr.stage1At = some tm) ∧ (s.getF Reg.PWR_THERM_STAT_STAGE = 1) ∧ (s.thermalRuns = true) ∧ (s.room = true)) ∧
    (∃ (s : State), (s.pwr.stage1At = none ∨ s.getF Reg.PWR_THERM_STAT_STAGE ≠ 1 ∨ s.thermalRuns = false)) ∧
    (∃ (s : State) (tm : Nat), (s.pwr.coolSince = some tm) ∧ (s.getF Reg.PWR_THERM_STAT_STAGE ≠ 0) ∧ (s.thermalRuns = true) ∧ (s.room = true)) ∧
    (∃ (s : State), (s.pwr.coolSince = none ∨ s.getF Reg.PWR_THERM_STAT_STAGE = 0 ∨ s.thermalRuns = false)) ∧
    (∃ (s : State) (i : Fin 44), (s.room = true)) :=
  ⟨⟨(m0 []), (List.replicate 44 30), by decide +kernel⟩,
   ⟨State.reset, [], by decide +kernel⟩,
   ⟨(drS (fun p => {p with stage1At := some 999000000}) (m0 [(Reg.PWR_THERM_STAT_STAGE, 1), (Reg.PWR_THERM_STAT_TJ, 105), (Reg.PWR_TSENSE 4, 105)])), 999000000, by decide +kernel⟩,
   ⟨State.reset, by decide +kernel⟩,
   ⟨(drS (fun p => {p with coolSince := some 999000000, stage1At := some 5, maxTemp := (5, 110)}) (m0 [(Reg.PWR_THERM_STAT_STAGE, 1), (clkEff 3, 199), (clkEff 4, 99), (Reg.PWR_DOM_STAT_STATE 4, 1), (Reg.PWR_DOM_STAT_STATE 5, 1)])), 999000000, by decide +kernel⟩,
   ⟨State.reset, by decide +kernel⟩,
   ⟨(m0 [(Reg.PWR_TSENSE 4, 105)]), 4, by decide +kernel⟩⟩

/-- States that meet the hypotheses of MailboxChannels, for each of its clauses. -/
theorem met_MailboxChannels :
    (∃ (s : State) (c : Fin 2) (w : WriteReq), (s.takes w (Reg.MGT_MBX_CTL_EN c).off = true) ∧ (coversLo w.half = true)) ∧
    (∃ (s : State) (c : Fin 2) (w : WriteReq), (s.takes w (Reg.MGT_MBX_REQ_WR c).off = true) ∧ (coversLo w.half = true)) ∧
    (∃ (s : State) (c : Fin 2) (code : Nat) (cmd : Instr), (MbxCommand c code cmd)) :=
  ⟨⟨(m0 []), 0, (stw (2 ^ (Reg.MGT_MBX_CTL_EN 0).lo + 5 * 2 ^ (Reg.MGT_MBX_CTL_LOG2 0).lo)), by decide +kernel⟩,
   ⟨(m0 []), 1, (rq (Reg.MGT_MBX_REQ_WR 1) 77), by decide +kernel⟩,
   ⟨rig, 1, 0x01, .mbxPing 1, Or.inl ⟨rfl, rfl⟩⟩⟩

namespace FirmwareTimeAndWatchdog

def sv0 (s : State) (c : Nat) (wr : Nat) (e : List Byte) : State :=
  let s := s.sets [(Reg.MGT_BOOT_STAT_PHASE, 0x16), (Reg.MGT_MBX_CTL_EN c, 1), (Reg.MGT_MBX_CTL_LOG2 c, 4), (Reg.MGT_MBX_REQBASE c, hostKey 0x10000 ), (Reg.MGT_MBX_RSPBASE c, hostKey 0x20000),
   (Reg.MGT_MBX_REQ_RD c, 2^32 - 1), (Reg.MGT_MBX_REQ_WR c, 0), (Reg.MGT_MBX_RSP_WR c, wr), (Reg.MGT_MBX_RSP_RD c, wr)]
  let s := s.setStw { s.stw with run := .firmware, version := 0x11223344, svn := 5, lock := true, offset := -5, gm := 0x1122334455667788 }
  (s.wrBytes (hostKey 0x20000) (List.replicate 1024 0xAA)).wrBytes (hostKey (0x10000 + 64 * 15)) e
def sv' (d : Bool) (l : List (Fld × Nat)) : State := stwS (fun x => {x with lock := d, small := 15}) (sv0 (rig.sets ([(Reg.QSK_TIME_MASTER, 1)] ++ l)) 0 5 [])
def stg (im : List Byte) (k : Nat) (l : List (Fld × Nat)) : State :=
  let s := sv' true ([(Reg.MGT_OTP_STAT_STW_PROG, 15), (Reg.MGT_WDOG_EXPIRED, 1), (Reg.MGT_WDOG_ARMED, 1), (Reg.MGT_HOST_WMASK, 0xFFFF), (Reg.MGT_HCM_LOCK, 1)] ++ l)
  let s := stwS (fun x => {x with params := [(9, some 1), (12, some 7)], sram := [(0, 5), (77, 3), (200, 5)], job := [(0, some (0x10,1))]}) (s.wrBytes stagingKey im)
  { s with otp := { s.otp with digest := [(k, sha256 pubB)] } }

/-- States that meet the hypotheses of FirmwareTimeAndWatchdog, for each of its clauses. -/
theorem met_FirmwareTimeAndWatchdog :
    (∃ (s : State) (offset : Int) (gm : W64), (s.serving = true) ∧ (s.followsGptp = true)) ∧
    (∃ (s : State) (offset : Int) (gm : W64), (s.serving = true) ∧ (s.followsGptp = false)) ∧
    (∃ (s : State) (offset : Int) (gm : W64), (s.serving = false)) ∧
    (∃ (s : State), (s.serving = true)) ∧
    (∃ (s : State) (w : WriteReq), (s.takes w Reg.MGT_WDOG_KICK.off = true) ∧ (coversLo w.half = true)) ∧
    (∃ (s : State) (w : WriteReq), (s.takes w Reg.MGT_STW_CTL_RESTART.off = true) ∧ (coversLo w.half = true)) :=
  ⟨⟨(sv' false []), 99, 5, by decide +kernel⟩,
   ⟨(sv' true [(Reg.QSK_TOPO_NX, 1), (Reg.QSK_TIME_UPLINK, 3), (Reg.QSK_TIME_MASTER, 0), (Reg.QSK_L_STAT_PHASE 3, 5), (Reg.QSK_L_OFFSET 3, 70000)]), 1001, 5, by decide +kernel⟩,
   ⟨(m0 []), 1001, 5, by decide +kernel⟩,
   ⟨(sv' true []), by decide +kernel⟩,
   ⟨(sv' false []), (rq Reg.MGT_WDOG_KICK 1), by decide +kernel⟩,
   ⟨(stg imA 0 []), (rq Reg.MGT_STW_CTL_RESTART 1), by decide +kernel⟩⟩

end FirmwareTimeAndWatchdog

namespace BootAndStart

def norS (s : State) (l : List (Nat × List Byte)) : State := l.foldl (fun s x => s.putNor x.1 x.2) s
def bt (run : StwRun) (l : List (Fld × Nat)) (n : List (Nat × List Byte)) : State :=
  let s := stwS (fun x => {x with run := run, params := [(9, some 1)], sram := [(0,5), (500, 5)]}) (rig.sets ([(Reg.MGT_OTP_STAT_STW_PROG, 15)] ++ l))
  { (norS s n) with otp := { s.otp with digest := [(0, sha256 pubB), (2, sha256 pubB)] } }
def pc (l : List (Fld × Nat)) (im : List Byte) (run : StwRun := .pcie) : State := (bt run ([(Reg.MGT_HOST_WMASK, 1)] ++ l) []).wrBytes stagingKey im
def bw (n : Nat) (g : Nat := 1) : WriteReq := {stw (n * 2 ^ Reg.MGT_BOOT_PCIE_LEN.lo + g * 2 ^ Reg.MGT_BOOT_PCIE_GO.lo) with agent := .pcie}
def fwx (ph beg : Nat) (l : List (Fld × Nat)) (n : List (Nat × List Byte)) : State := stwS (fun x => {x with begun := beg, version := 0x11223344}) (bt .firmware ([(Reg.MGT_BOOT_STAT_PHASE, ph)] ++ l) n)

/-- States that meet the hypotheses of BootAndStart, for each of its clauses. -/
theorem met_BootAndStart :
    (∃ (s : State) (w : WriteReq), (s.takes w Reg.MGT_BOOT_PCIE_LEN.off = true) ∧ (w.half = .both)) ∧
    (∃ (s : State), (s.stw.run = .firmware)) ∧
    (∃ (s : State), (s.stw.run ≠ .firmware)) :=
  ⟨⟨(pc [] imA), (bw imA.length), by decide +kernel⟩,
   ⟨(fwx 8 0 [(Reg.FLT_CTL_EN, 0), (Reg.FLT_Q_LOG2, 6)] []), by decide +kernel⟩,
   ⟨(bt .rom [] []), by decide +kernel⟩⟩

end BootAndStart

namespace TestsAndFuses

def cb (l : List (Fld × Nat)) : State := (m0 l)
def bd (u : Nat) (l : List (Fld × Nat)) : State := (stwS (fun x => {x with bist := [(u, true)]}) (((rigM 5 mi0 3 [] {}).sets ([(Reg.CC_TALLY u 3, 77), (Reg.CC_BIST_PASS u, 0), (Reg.CC_VT_SLOT_STATE u 4, 2)] ++ l)))).wrBytes (storeKey u 0x1234) [1,2,3]

/-- States that meet the hypotheses of TestsAndFuses, for each of its clauses. -/
theorem met_TestsAndFuses :
    (∃ (s : State) (c : Fin 32) (w : WriteReq), (s.takesAct w (Reg.CC_BIST_GO c).off = true) ∧ (coversLo w.half = true)) ∧
    (∃ (s : State) (w : WriteReq), (s.takesAct w Reg.SOL_BIST_GO.off = true) ∧ (coversLo w.half = true)) ∧
    (∃ (s : State) (u : Fin 33) (pass : Bool), (s.testing u = true) ∧ (s.domOn u = true) ∧ (s.room = true)) ∧
    (∃ (s : State) (u : Fin 33) (pass : Bool), (s.testing u = false)) ∧
    (∃ (s : State) (w : WriteReq), (s.takes w Reg.MGT_OTP_REVOKE_GO.off = true) ∧ (w.half = .both)) ∧
    (∃ (s : State) (w : WriteReq), (s.takes w Reg.MGT_HCM_LOCK.off = true) ∧ (coversLo w.half = true)) :=
  ⟨⟨(cb [(Reg.CC_BIST_DONE 3, 1)]), 3, (rq (Reg.CC_BIST_GO 3) 1), by decide +kernel⟩,
   ⟨(cb [(Reg.SOL_BIST_DONE, 1), (Reg.SOL_BIST_PASS, 1)]), (rq Reg.SOL_BIST_GO 1), by decide +kernel⟩,
   ⟨(bd 3 []), 3, true, by decide +kernel⟩,
   ⟨(bd 32 []), 31, true, by decide +kernel⟩,
   ⟨(m0 [(Reg.MGT_OTP_STAT_WV_REVOKED, 1)]), (stw (2^Reg.MGT_OTP_REVOKE_GO.lo + 2^Reg.MGT_OTP_REVOKE_KIND.lo + 3 * 2^Reg.MGT_OTP_REVOKE_SLOT.lo)), by decide +kernel⟩,
   ⟨(m0 []), (stw 1), by decide +kernel⟩⟩

end TestsAndFuses

/-- States that meet the hypotheses of StepRunsFrontCommand, for each of its clauses. -/
theorem met_StepRunsFrontCommand :
    (∃ (s : State) (c : Instr) (cs : List Instr), (s.pending = c :: cs)) ∧
    (∃ (s : State), (s.pending = []) ∧ (s.alm.crystal = false)) ∧
    (∃ (s : State), (s.pending = []) ∧ (s.alm.crystal = true)) :=
  ⟨⟨rig.setPending [.nop { core := 0, tile := 0, dst := 0, sa := 0, sb := 0, sc := 0, pm := .always, ty := .i8, acc := 0, fx := false, imb := false, md := 0, imm := 0 }], _, _, rfl⟩,
   ⟨rig, by decide +kernel⟩,
   ⟨(rig.setAlm {rig.alm with crystal := true}), by decide +kernel⟩⟩

/-- States that meet the hypotheses of ResetState, for each of its clauses. -/
theorem met_ResetState :
    (∃ d, (d < 57)) ∧
    (∃ c, (c < 32)) ∧
    (∃ n, (n < 4)) :=
  ⟨⟨56, by decide +kernel⟩,
   ⟨31, by decide +kernel⟩,
   ⟨3, by decide +kernel⟩⟩

/-- States that meet the hypotheses of RefusedAndDeadWrites, for each of its clauses. -/
theorem met_RefusedAndDeadWrites :
    (∃ (s : State) (w : WriteReq) (off : Nat) (i : Instr), (WriteCommand w off i) ∧ (granted s w.agent w.half off = false)) ∧
    (∃ (s : State) (w : WriteReq) (off : Nat) (i : Instr), (WriteCommand w off i) ∧ (granted s w.agent w.half off = true) ∧ (s.regLive off = false)) ∧
    (∃ (s : State) (a : Agent) (off : Fin 0x4000000) (n : Fin 4097) (seen : EccSeen), (1 ≤ n.val) ∧ (off.val + n.val ≤ 0x4000000) ∧ (s.getF Reg.MGT_DEVNUM < 64)) :=
  ⟨⟨State.reset, { agent := .pcie, half := .both, value := 5 }, _, .almRate { agent := .pcie, half := .both, value := 5 },
    ⟨Or.inl ⟨rfl, rfl⟩, by decide +kernel⟩⟩,
   ⟨State.reset, stw 5, Reg.SOL_LRN_SEED_ROW.off, .solLrnSeed (stw 5), by simp [WriteCommand], by decide +kernel, by decide +kernel⟩,
   ⟨(m0 []), .steward, 0, 1, .clean, by decide +kernel⟩⟩

/-- States that meet the hypotheses of HostWriteGrants, for each of its clauses. -/
theorem met_HostWriteGrants :
    (∃ (s : State) (h : Half) (a : Agent), (a = .pcie ∨ (∃ k, a = .hart k))) ∧
    (∃ (s : State) (h : Half) (off : Nat), (isPciWin off = false)) :=
  ⟨⟨(m0 [(Reg.MGT_HOST_WMASK, 0x3FF)]), .both, .pcie, by decide +kernel⟩,
   ⟨(m0 [(Reg.MGT_HOST_WMASK, 0)]), .hi, 0x1234567, by decide +kernel⟩⟩

/-! ### Tables of instructions -/

/-- Tile instructions of each element-wise operation issue. -/
theorem met_Elementwise : ∀ n ∈ [8, 9, 10, 11, 12, 13, 14, 15, 16],
    (rigM n mi0 3 [] {}).issuesTile n mi0 fs0 = true ∧ predWrites mi0.pm ((rigM n mi0 3 [] {}).predicate (fireAt mi0 fs0)) = true := by
  decide +kernel

/-- Vector instructions of integers issue, legal ones and words of another format. -/
theorem met_VectorIntegers :
    (∀ k ∈ [0, 8, 16, 24, 32, 40, 48, 56, 64, 80, 88, 5, 13, 21], (rigV k v0 {}).issuesVec k v0 = true ∧ intFmt v0 = true) ∧
    (∀ k ∈ [1, 9, 17, 25, 33, 41, 49, 57, 65, 61, 69, 73, 7, 15], (rigV k v0 {}).issuesVec k v0 = true) := by
  decide +kernel

/-- Vector instructions of floating point issue. -/
theorem met_VectorFloats : ∀ k ∈ [2, 10, 18, 26, 34, 42, 50, 58, 66, 74, 90, 82, 4, 12, 20, 28, 36, 44, 52, 29, 37, 45],
    (rigV k { v0 with fmt := 4 } {}).issuesVec k { v0 with fmt := 4 } = true ∧ fpFmt { v0 with fmt := 4 } = true := by
  decide +kernel

/-- Conversions issue. -/
theorem met_VectorConversions :
    (rigV 3 { v0 with fmt := 4, imm := 5 } {}).issuesVec 3 { v0 with fmt := 4, imm := 5 } = true ∧
    (rigV 11 { v0 with fmt := 2, imm := 6 } {}).issuesVec 11 { v0 with fmt := 2, imm := 6 } = true ∧
    (rigV 19 { v0 with fmt := 5, imm := 1 } {}).issuesVec 19 { v0 with fmt := 5, imm := 1 } = true := by
  decide +kernel

/-- An instruction whose word is not the one at the PC, and one whose fields are illegal, which traps. -/
theorem met_VectorTraps :
    (rigV 0 v0 {}).canIssue v0 = true ∧ (rigV 0 v0 {}).nextInstr v0.core v0.slot ≠ vecWord v0 8 ∧
    (let v := { v0 with fmt := 4 }
     (rigV 0 v {}).canIssue v = true ∧ (rigV 0 v {}).nextInstr v.core v.slot = vecWord v 0 ∧ intFmt v = false ∧ v.ecc = .clean ∧
     (rigV 0 v {}).flag (Reg.CC_VT_SLOT_STAGE v.core v.slot) = false ∧ (rigV 0 v {}).room = true) := by
  decide +kernel

/-! ### Frames of the barrier channels -/

/-- Barrier frames of every type towards the host, and towards the island, arrive where their channel expects them. -/
theorem met_BarrierFrames :
    (∀ ty ∈ [0, 2, 3, 4, 5],
      let s := (rig1 2).setBgw { (rig1 2).bgw with expect := [(1, some 7)] }
      goodFrame ty (barFrame ty 7 []) = true ∧ toHost 1 ty = true ∧
      (s.sets [(Reg.BGW_STAT_UP, 1)]).barExpects 1 (barFrame ty 7 []) = true) ∧
    (∀ ty ∈ [0x10, 0x11, 0x12, 0x13, 0x14], goodFrame ty (barFrame ty 7 []) = true ∧ toIsland 0 ty = true) ∧
    (∀ ty ∈ [0x15, 0x16], goodFrame ty (barFrame ty 7 []) = true ∧ toIsland 1 ty = true) := by
  decide +kernel

/-! ### Soundness -/

/-- The state after reset has its memory in the canonical form. -/
theorem test_reset_mem : State.reset.memOk := by unfold State.memOk; decide

/-- A sound state that steps to a next state. -/
theorem met_EveryStepKeepsSoundness : ∃ s t : State, Sound s ∧ step s = .next t :=
  ⟨State.reset, _, by unfold Sound State.memOk State.regsOk; decide +kernel, rfl⟩

/-! ### Ill-formed commands -/

/-- WellFormed refuses a term for each of its checks: sizes of accesses, of PCIe requests, of units, of frames and bodies, lists
that name a thing twice, and an atomic request of another agent than a hart. -/
theorem test_ill_formed :
    svcOk (.read 0) = false ∧ svcOk (.write []) = false ∧ reqOk .steward (.atomic .add 0 0) = false ∧
    pcieOk (.read 2 0xFFFF 2) = false ∧ pcieOk (.write 0 0 []) = false ∧ pcieOk (.atomic 2 0x10000) = false ∧
    unitOk (.queue 0 0 0 [] false 0) = false ∧ unitOk (.response 0 0 0 (List.replicate 4097 0)) = false ∧
    idleOk (.toHost []) = false ∧ ctlOk (.island (.segPlca 0 1 0 0)) = false ∧ ctlOk (.island (.segSync 0 0)) = false ∧
    ctlOk (.island (.segSend 0 (List.replicate 1493 0))) = false ∧ (Instr.ident 0 []).wf = false ∧
    (Instr.signHandover []).wf = false ∧ (Instr.thermalSample []).wf = false ∧
    (Instr.reply 0 0 ⟨0, []⟩ 0).wf = false ∧ (Instr.ethFrameReceive 0 0 [] true).wf = false := by
  decide +kernel

end Sys2Proof.Tests
end

/-! ## Dividers, adaptive voltage, regulators and quadrant PLLs

Settles ClocksAndVoltage. First the rules about registers, records and the LDO registers of a unit, then what a divider
change does to them, then what the loss of a core or of the Solstice engine leaves alone, then one lemma per command. -/

namespace Sys2Proof.Machine

/-! ### Reads that an update of another part of the state leaves alone -/

@[simp] theorem State.getF_setPwr (s : State) (v : PwrState) (f : Fld) : (s.setPwr v).getF f = s.getF f := rfl
@[simp] theorem State.setF_pwr (s : State) (f : Fld) (v : Nat) : (s.setF f v).pwr = s.pwr := rfl
@[simp] theorem State.answer_pwr (s : State) (st : Status) (v : W64) : (s.answer st v).pwr = s.pwr := rfl
@[simp] theorem State.setF_sol (s : State) (f : Fld) (v : Nat) : (s.setF f v).sol = s.sol := rfl

/-- A field's value fits its width. -/
theorem State.getF_lt (s : State) (f : Fld) : s.getF f < 2 ^ f.w := bits_lt _ _ _

/-! ### Frames of register writes -/

theorem SameRegs.refl (fs : List Fld) (s : State) : SameRegs fs s s := fun _ _ => rfl

theorem SameRegs.trans {fs : List Fld} {s t u : State} (h : SameRegs fs s t) (h' : SameRegs fs t u) : SameRegs fs s u :=
  fun g hg => (h' g hg).trans (h g hg)

theorem SameRegs.mono {fs gs : List Fld} {s t : State} (h : SameRegs fs s t) (hs : ∀ f ∈ fs, f ∈ gs) : SameRegs gs s t :=
  fun g hg => h g (fun f hf => hg f (hs f hf))

/-- What is not a register stays outside the list. -/
theorem SameRegs.of_regs_eq {fs : List Fld} {s t u : State} (h : SameRegs fs s t) (hr : u.regs = t.regs) :
    SameRegs fs s u :=
  fun g hg => by rw [State.getF, State.word, hr]; exact h g hg

/-- Writing a listed field stays within the list. -/
theorem SameRegs.setF {fs : List Fld} {s t : State} {f : Fld} (h : SameRegs fs s t) (v : Nat) (hf : f ∈ fs)
    (hw : f.lo + f.w ≤ 64) : SameRegs fs s (t.setF f v) :=
  fun g hg => (State.getF_setF_ne t f g v hw (hg f hf)).trans (h g hg)

/-- A list of one field leaves alone every field apart from it. -/
theorem SameRegs.apart {f g : Fld} {s t : State} (h : SameRegs [f] s t) (ha : Apart f g) : t.getF g = s.getF g :=
  h g (by simpa using ha)

/-! ### Commands and their answers -/

theorem exec_pwrClk (d : Fin 33) (w : WriteReq) (s : State) : exec (.pwrClk d w) s = execPwrClk d w s := rfl
theorem exec_dividerSwitch (d : Fin 33) (s : State) : exec (.dividerSwitch d) s = execDividerSwitch d s := rfl
theorem exec_avsIteration (d : Fin 33) (m : Int) (s : State) : exec (.avsIteration d m) s = execAvsIteration d m s := rfl
theorem exec_ldoOutOfRegulation (d : Fin 33) (s : State) :
    exec (.ldoOutOfRegulation d) s = execLdoOutOfRegulation d s := rfl
theorem exec_pmAlert (a : Fin 128) (st : Fin 65536) (s : State) : exec (.pmAlert a st) s = execPmAlert a st s := rfl
theorem exec_quadrantPllLost (q : Fin 4) (s : State) : exec (.quadrantPllLost q) s = execQuadrantPllLost q s := rfl
theorem exec_pwrQpllRelock (q : Fin 4) (w : WriteReq) (s : State) :
    exec (.pwrQpllRelock q w) s = execPwrQpllRelock q w s := rfl
theorem exec_qpllLocked (q : Fin 4) (ok : Bool) (s : State) : exec (.qpllLocked q ok) s = execQpllLocked q ok s := rfl

/-- A command whose next state is known does what holds of that state. -/
theorem Does.of_next {c : Instr} {s t : State} {P : State → Prop} (h : exec c s = .next t) (hp : P t) : Does c s P :=
  ⟨t, h, hp⟩

/-- A field from bit 0 on is written by every write that covers bits 31:0. -/
theorem wField_of_coversLo {w : WriteReq} {f : Fld} (hw : coversLo w.half = true) (hf : f.lo = 0) :
    wField w f = some (w.field f) := by
  simp [wField, covers, hf, hw, WriteReq.field]

/-! ### Records that join the pending store -/

/-- The state with one more pending record. -/
def State.addPend (s : State) (r : FaultRec) : State := s.setFlt { s.flt with pend := s.flt.pend ++ [r] }

@[simp] theorem State.addPend_pend (s : State) (r : FaultRec) : (s.addPend r).flt.pend = s.flt.pend ++ [r] := rfl
@[simp] theorem State.addPend_sol (s : State) (r : FaultRec) : (s.addPend r).sol = s.sol := rfl
@[simp] theorem State.addPend_mem (s : State) (r : FaultRec) : (s.addPend r).mem = s.mem := rfl
@[simp] theorem State.getF_addPend (s : State) (r : FaultRec) (f : Fld) : (s.addPend r).getF f = s.getF f := rfl

/-- A record above CORRECTED and below DEVICE joins a pending store of fewer than 127 records (R471). -/
theorem State.raise_eq_addPend (s : State) (r : FaultRec) (h0 : r.cls ≠ 0) (h4 : r.cls ≠ 4)
    (h : pendCount s.flt.pend < 127) :
    s.raise r = s.addPend { r with devnum := s.getF Reg.MGT_DEVNUM, summary := none } := by
  simp [State.raise, State.addPend, h0, h4, h]

/-- A report of the present instant joins the pending records. -/
theorem State.report_eq_addPend (s : State) {cls : Nat} (code unit : Nat) (detail : List (Nat × Nat)) (h0 : cls ≠ 0)
    (h4 : cls ≠ 4) (h : pendCount s.flt.pend < 127) :
    ∃ r : FaultRec, r.summary = none ∧ (r.cls, r.code, r.unit, r.detail) = (cls, code, unit, packDetail detail) ∧
      s.report cls code unit detail = s.addPend r :=
  ⟨_, rfl, rfl, State.raise_eq_addPend s _ h0 h4 h⟩

/-- So does one that names a pipeline. -/
theorem State.reportP_eq_addPend (s : State) {cls : Nat} (code unit pipe : Nat) (detail : List (Nat × Nat)) (h0 : cls ≠ 0)
    (h4 : cls ≠ 4) (h : pendCount s.flt.pend < 127) :
    ∃ r : FaultRec, r.summary = none ∧ (r.cls, r.code, r.unit, r.detail) = (cls, code, unit, packDetail detail) ∧
      s.reportP cls code unit pipe detail = s.addPend r :=
  ⟨_, rfl, rfl, State.raise_eq_addPend s _ h0 h4 h⟩

/-- The record that a report files. -/
theorem State.report_filed (s : State) (cls code unit : Nat) (detail : List (Nat × Nat)) (hc : cls < 4)
    (h : s.room = true) : Filed s (s.report cls code unit detail) cls code unit detail := by
  rw [State.report_room s cls code unit detail hc h]
  simp [Filed]

/-- A record among those that have joined the pending store has been raised. -/
theorem raised_of_mem {s t : State} {l : List FaultRec} {r : FaultRec} {cls code unit : Nat} {detail : List (Nat × Nat)}
    (hp : t.flt.pend = s.flt.pend ++ l) (hr : r ∈ l)
    (hi : (r.cls, r.code, r.unit, r.detail) = (cls, code, unit, packDetail detail)) : Raised s t cls code unit detail := by
  simp only [Raised, hp, List.drop_left, List.any_eq_true, decide_eq_true_eq]
  exact ⟨r, hr, hi⟩

/-! ### The clock and voltage registers of a core or of the Solstice engine (unit 32) -/

/-- The Solstice engine's clock and voltage registers stand where those of a core 32 would. -/
theorem unitFld_eq {d : Nat} (h : d < 33) (b lo w : Nat) :
    (if d < 32 then (⟨b + 0x40 * d, lo, w⟩ : Fld) else ⟨b + 0x800, lo, w⟩) = ⟨b + 0x40 * d, lo, w⟩ := by
  split
  · rfl
  · obtain rfl : d = 32 := by omega
    rfl

section
variable {d : Nat} (h : d < 33)
include h

theorem clkN_eq : clkN d = ⟨0x202000 + 0x40 * d, 0, 9⟩ := unitFld_eq h 0x202000 0 9
theorem clkEff_eq : clkEff d = ⟨0x202000 + 0x40 * d, 16, 9⟩ := unitFld_eq h 0x202000 16 9
theorem clkFloor_eq : clkFloor d = ⟨0x202020 + 0x40 * d, 0, 11⟩ := unitFld_eq h 0x202020 0 11
theorem avsEn_eq : avsEn d = ⟨0x202010 + 0x40 * d, 0, 1⟩ := unitFld_eq h 0x202010 0 1
theorem avsCeil_eq : avsCeil d = ⟨0x202010 + 0x40 * d, 24, 1⟩ := unitFld_eq h 0x202010 24 1
theorem vSet_eq : vSet d = ⟨0x202018 + 0x40 * d, 0, 10⟩ := unitFld_eq h 0x202018 0 10
theorem vTarget_eq : vTarget d = ⟨0x202018 + 0x40 * d, 16, 10⟩ := unitFld_eq h 0x202018 16 10
theorem vMinF_eq : vMinF d = ⟨0x202018 + 0x40 * d, 32, 10⟩ := unitFld_eq h 0x202018 32 10

/-! Which of them share no bit. -/

theorem apart_clkN_clkEff : Apart (clkN d) (clkEff d) := by rw [clkN_eq h, clkEff_eq h]; simp [Apart]
theorem apart_clkN_clkFloor : Apart (clkN d) (clkFloor d) := by rw [clkN_eq h, clkFloor_eq h]; simp [Apart]
theorem apart_clkN_avsEn : Apart (clkN d) (avsEn d) := by rw [clkN_eq h, avsEn_eq h]; simp [Apart]
theorem apart_clkN_vSet : Apart (clkN d) (vSet d) := by rw [clkN_eq h, vSet_eq h]; simp [Apart]
theorem apart_clkN_vTarget : Apart (clkN d) (vTarget d) := by rw [clkN_eq h, vTarget_eq h]; simp [Apart]
theorem apart_clkN_vMinF : Apart (clkN d) (vMinF d) := by rw [clkN_eq h, vMinF_eq h]; simp [Apart]
theorem apart_clkN_stage : Apart (clkN d) Reg.PWR_THERM_STAT_STAGE := by
  rw [clkN_eq h]; simp [Apart, Reg.PWR_THERM_STAT_STAGE]; omega
theorem apart_clkN_domState : Apart (clkN d) (Reg.PWR_DOM_STAT_STATE d) := by
  rw [clkN_eq h]; simp [Apart, Reg.PWR_DOM_STAT_STATE]; omega
theorem apart_clkEff_vTarget : Apart (clkEff d) (vTarget d) := by rw [clkEff_eq h, vTarget_eq h]; simp [Apart]
theorem apart_clkEff_domState : Apart (clkEff d) (Reg.PWR_DOM_STAT_STATE d) := by
  rw [clkEff_eq h]; simp [Apart, Reg.PWR_DOM_STAT_STATE]
theorem apart_vMinF_clkEff : Apart (vMinF d) (clkEff d) := by rw [clkEff_eq h, vMinF_eq h]; simp [Apart]
theorem apart_vMinF_vTarget : Apart (vMinF d) (vTarget d) := by rw [vMinF_eq h, vTarget_eq h]; simp [Apart]
theorem apart_vMinF_domState : Apart (vMinF d) (Reg.PWR_DOM_STAT_STATE d) := by
  rw [vMinF_eq h]; simp [Apart, Reg.PWR_DOM_STAT_STATE]
theorem apart_vTarget_clkEff : Apart (vTarget d) (clkEff d) := by rw [clkEff_eq h, vTarget_eq h]; simp [Apart]
theorem apart_vTarget_vMinF : Apart (vTarget d) (vMinF d) := by rw [vMinF_eq h, vTarget_eq h]; simp [Apart]
theorem apart_vTarget_avsCeil : Apart (vTarget d) (avsCeil d) := by rw [vTarget_eq h, avsCeil_eq h]; simp [Apart]
theorem apart_avsCeil_vTarget : Apart (avsCeil d) (vTarget d) := by rw [vTarget_eq h, avsCeil_eq h]; simp [Apart]

end

/-! ### What a divider change does (R490, R492, R498) -/

/-- The model's least voltage is the one the statements speak of. -/
theorem fusedMin_eq_vFused (d n : Nat) : fusedMin d n = vFused d n := rfl

theorem vFused_le (d n : Nat) : vFused d n ≤ 850 := by
  unfold vFused
  split <;> omega

/-- The cap of a throttle stage is the one that the floor describes (R498). -/
theorem capOf_eq_of_isCap {stage floor cap : Nat} (h : IsCap stage floor cap) : capOf stage floor = cap := by
  unfold IsCap at h
  unfold capOf
  by_cases h0 : stage = 0
  · rw [if_pos h0] at h ⊢
    exact h.symm
  by_cases h1 : stage = 1 ∧ floor ≠ 0
  · rw [if_neg h0, if_pos h1] at h ⊢
    obtain ⟨hle, hfloor, hmax⟩ := h
    have hpos : 0 < floor := by omega
    have hcap : cap ≤ 179200 / floor := (Nat.le_div_iff_mul_le hpos).mpr (by rw [Nat.mul_comm]; exact hfloor)
    rcases Nat.lt_or_ge cap 448 with hlt | hge
    · have : 179200 / floor < cap + 1 := (Nat.div_lt_iff_lt_mul hpos).mpr (by rw [Nat.mul_comm]; exact hmax hlt)
      omega
    · omega
  · rw [if_neg h0, if_neg h1] at h ⊢
    exact h.symm

theorem capOf_le (stage floor : Nat) : capOf stage floor ≤ 448 := by
  unfold capOf
  split_ifs <;> omega

section
variable (s : State) {d : Nat} (h : d < 33) (n : Nat)

@[simp] theorem State.setDivWait_divWait (v : Option Nat) :
    SMap.get (fun _ => none) (s.setDivWait d v).pwr.divWait d = v := by simp [State.setDivWait]
@[simp] theorem State.getF_setDivWait (v : Option Nat) (f : Fld) : (s.setDivWait d v).getF f = s.getF f := rfl
@[simp] theorem State.dom_setDivWait (v : Option Nat) (x : Nat) : (s.setDivWait d v).dom x = s.dom x := rfl

theorem State.switchDiv_pwr : (s.switchDiv d n).pwr = s.pwr := by
  unfold State.switchDiv
  dsimp only
  split <;> rfl

/-- A switch of the divider changes nothing but registers. -/
theorem State.switchDiv_eq_setRegs : ∃ r, s.switchDiv d n = s.setRegs r := by
  unfold State.switchDiv
  dsimp only
  split <;> exact ⟨_, rfl⟩

/-- A retuned divider changes nothing but registers and the divider that waits. -/
theorem State.retune_eq_setRegs_setPwr : ∃ r p, s.retune d = (s.setRegs r).setPwr p := by
  unfold State.retune
  dsimp only
  split_ifs with hup hchange
  · exact ⟨_, _, rfl⟩
  · obtain ⟨r, hr⟩ := State.switchDiv_eq_setRegs (d := d) (s.setDivWait d none)
      (max (s.getF (clkN d)) (capOf (s.getF Reg.PWR_THERM_STAT_STAGE) (s.getF (clkFloor d))))
    exact ⟨r, _, by rw [hr]; rfl⟩
  · exact ⟨s.regs, _, rfl⟩

include h

theorem State.startVolt_sameRegs : SameRegs [vTarget d] s (s.startVolt d n) :=
  (SameRegs.refl _ s).setF _ (by simp) (by simp [vTarget_eq h])

/-- The LDO's target for a divider to come. -/
theorem State.startVolt_vTarget : (s.startVolt d n).getF (vTarget d) =
    max (vFused d n) (if s.flag (avsEn d) then min 850 (max 600 (Config.vStart d n)) else s.getF (vSet d)) := by
  have hv := vFused_le d n
  have hs : s.getF (vSet d) < 1024 := by simpa [vSet_eq h] using s.getF_lt (vSet d)
  rw [State.startVolt, State.getF_setF _ _ _ (by simp [vTarget_eq h]), fusedMin_eq_vFused]
  have hw : (vTarget d).w = 10 := by rw [vTarget_eq h]
  rw [hw]
  apply Nat.mod_eq_of_lt
  unfold ldoRange
  split <;> omega

theorem State.switchDiv_sameRegs : SameRegs [clkEff d, vMinF d, vTarget d] s (s.switchDiv d n) := by
  have h2 : SameRegs [clkEff d, vMinF d, vTarget d] s ((s.setF (clkEff d) n).setF (vMinF d) (fusedMin d n)) :=
    ((SameRegs.refl _ s).setF _ (by simp) (by simp [clkEff_eq h])).setF _ (by simp) (by simp [vMinF_eq h])
  unfold State.switchDiv
  dsimp only
  split
  · exact h2.setF _ (by simp) (by simp [vTarget_eq h])
  · exact h2

/-- The state of the domain is none of a unit's clock and voltage registers. -/
theorem State.dom_setF_clkEff_vMinF : ((s.setF (clkEff d) n).setF (vMinF d) (fusedMin d n)).dom d = s.dom d := by
  rw [State.dom, State.getF_setF_ne _ _ _ _ (by simp [vMinF_eq h]) (apart_vMinF_domState h),
    State.getF_setF_ne _ _ _ _ (by simp [clkEff_eq h]) (apart_clkEff_domState h)]
  rfl

theorem State.switchDiv_clkEff (hn : n < 512) : (s.switchDiv d n).getF (clkEff d) = n := by
  have h2 : ((s.setF (clkEff d) n).setF (vMinF d) (fusedMin d n)).getF (clkEff d) = n := by
    rw [State.getF_setF_ne _ _ _ _ (by simp [vMinF_eq h]) (apart_vMinF_clkEff h),
      State.getF_setF _ _ _ (by simp [clkEff_eq h])]
    simpa [clkEff_eq h] using Nat.mod_eq_of_lt hn
  unfold State.switchDiv
  dsimp only
  split
  · rw [State.getF_setF_ne _ _ _ _ (by simp [vTarget_eq h]) (apart_vTarget_clkEff h), h2]
  · exact h2

theorem State.switchDiv_vMinF : (s.switchDiv d n).getF (vMinF d) = vFused d n := by
  have h2 : ((s.setF (clkEff d) n).setF (vMinF d) (fusedMin d n)).getF (vMinF d) = vFused d n := by
    rw [State.getF_setF _ _ _ (by simp [vMinF_eq h]), fusedMin_eq_vFused]
    have := vFused_le d n
    simp only [vMinF_eq h]
    omega
  unfold State.switchDiv
  dsimp only
  split
  · rw [State.getF_setF_ne _ _ _ _ (by simp [vTarget_eq h]) (apart_vTarget_vMinF h), h2]
  · exact h2

theorem State.switchDiv_vTarget : (s.switchDiv d n).getF (vTarget d) =
    if 2 ≤ s.dom d then max (vFused d n) (s.getF (vTarget d)) else s.getF (vTarget d) := by
  have h2 : ((s.setF (clkEff d) n).setF (vMinF d) (fusedMin d n)).getF (vTarget d) = s.getF (vTarget d) := by
    rw [State.getF_setF_ne _ _ _ _ (by simp [vMinF_eq h]) (apart_vMinF_vTarget h),
      State.getF_setF_ne _ _ _ _ (by simp [clkEff_eq h]) (apart_clkEff_vTarget h)]
  have hv := vFused_le d n
  have ht : s.getF (vTarget d) < 1024 := by simpa [vTarget_eq h] using s.getF_lt (vTarget d)
  unfold State.switchDiv
  dsimp only
  rw [State.dom_setF_clkEff_vMinF s h n]
  split
  · rw [State.getF_setF _ _ _ (by simp [vTarget_eq h]), h2, fusedMin_eq_vFused]
    have hw : (vTarget d).w = 10 := by rw [vTarget_eq h]
    rw [hw]
    omega
  · exact h2

/-- What retuning brings about is what the statements say of it. -/
theorem State.retuned_retune : Retuned s (s.retune d) d
    (max (s.getF (clkN d)) (capOf (s.getF Reg.PWR_THERM_STAT_STAGE) (s.getF (clkFloor d)))) := by
  have hn : s.getF (clkN d) < 512 := by simpa [clkN_eq h] using s.getF_lt (clkN d)
  have hc := capOf_le (s.getF Reg.PWR_THERM_STAT_STAGE) (s.getF (clkFloor d))
  generalize hm : max (s.getF (clkN d)) (capOf (s.getF Reg.PWR_THERM_STAT_STAGE) (s.getF (clkFloor d))) = m
  by_cases hup : m < s.getF (clkEff d) ∧ 2 ≤ s.dom d
  · have hr : s.retune d = (s.startVolt d m).setDivWait d (some m) := by
      simp only [State.retune, hm]
      exact if_pos hup
    rw [hr, Retuned, if_pos hup]
    exact ⟨(State.startVolt_sameRegs s h m).apart (apart_vTarget_clkEff h), State.setDivWait_divWait _ _,
      State.startVolt_vTarget s h m⟩
  by_cases hne : m = s.getF (clkEff d)
  · have hr : s.retune d = s.setDivWait d none := by
      simp only [State.retune, hm]
      rw [if_neg hup, if_neg (not_not_intro hne)]
    rw [hr, Retuned, if_neg hup]
    refine ⟨hne.symm, State.setDivWait_divWait _ _, ?_, ?_⟩
    · simp [hne]
    · simp [hne]
  · have hr : s.retune d = (s.setDivWait d none).switchDiv d m := by
      simp only [State.retune, hm]
      rw [if_neg hup, if_pos hne]
    rw [hr, Retuned, if_neg hup, if_neg hne]
    refine ⟨State.switchDiv_clkEff _ h m (by omega), ?_, ?_, State.switchDiv_vMinF _ h m⟩
    · rw [State.switchDiv_pwr, State.setDivWait_divWait]
    · rw [State.switchDiv_vTarget _ h m]
      exact if_congr (by simp [hne]) rfl rfl

theorem State.retune_sameRegs : SameRegs [clkEff d, vTarget d, vMinF d] s (s.retune d) := by
  unfold State.retune
  dsimp only
  split_ifs with hup hne
  · exact (State.startVolt_sameRegs s h _).mono (by simp)
  · exact (State.switchDiv_sameRegs (s.setDivWait d none) h _).mono (by simp)
  · exact SameRegs.refl _ s

/-- Retuning speaks of no divider request: two states that differ in one alone are retuned alike. -/
theorem Retuned.of_sameRegs_clkN {u t : State} (hu : SameRegs [clkN d] s u) (hr : Retuned u t d n) : Retuned s t d n := by
  have hdom : u.dom d = s.dom d := hu.apart (apart_clkN_domState h)
  have hen : u.flag (avsEn d) = s.flag (avsEn d) := by
    unfold State.flag
    rw [hu.apart (apart_clkN_avsEn h)]
  unfold Retuned at hr ⊢
  rwa [hu.apart (apart_clkN_clkEff h), hdom, hen, hu.apart (apart_clkN_vSet h), hu.apart (apart_clkN_vTarget h),
    hu.apart (apart_clkN_vMinF h)] at hr

end

/-! ### PWR_CLK and DIVIDER_SWITCH -/

/-- A divider is refused for the first of its causes in the order of Table 19-2 (R485). -/
theorem State.clkRefusal_eq_head? (s : State) (d n : Nat) : s.clkRefusal d n = (s.clockCauses d n).head? := by
  have h5 : (decide (n < 112 ∨ 448 < n ∨ s.getF (clkFmax d) * n < 179200) || (s.debugMode && decide (n < 224))) =
      decide (n < 112 ∨ 448 < n ∨ s.getF (clkFmax d) * n < 179200 ∨ (s.debugMode ∧ n < 224)) := by
    rw [Bool.eq_iff_iff]
    simp only [Bool.or_eq_true, Bool.and_eq_true, decide_eq_true_eq, or_assoc]
  have h7 : ((s.transOf d).isSome || decide (d < 32 ∧ s.coreMove d ≠ 0) || decide (s.pwr.dev ≠ .active)) =
      (s.moving d || s.pwr.dev != .active) := by
    rw [Bool.eq_iff_iff]
    simp [State.moving]
  unfold State.clkRefusal State.clockCauses
  rw [h5, h7]
  split_ifs with hfused hfloor hrange hmove <;> simp [*]

theorem execPwrClk_takes {s : State} {d : Fin 33} {w : WriteReq} (ht : s.takes w (clkN d).off = true) :
    execPwrClk d w s = .next ((State.writeClk d w s).answer .ok 0#64) := by
  rw [execPwrClk, State.gated_takes s w _ _ ht]

theorem pwrClk_refused {s : State} {d : Fin 33} {w : WriteReq} (ht : s.takes w (clkN d).off = true)
    (hw : coversLo w.half = true) (hroom : s.room = true) (hc : s.clockCauses d (w.field (clkN d)) ≠ []) :
    Does (.pwrClk d w) s (fun t =>
      Refused601 s t d (clkN d).off (written w) ((s.clockCauses d (w.field (clkN d))).headD 0)) := by
  obtain ⟨cause, rest, hcs⟩ := List.exists_cons_of_ne_nil hc
  have href : s.clkRefusal d (w.field (clkN d)) = some cause := by rw [State.clkRefusal_eq_head?, hcs]; rfl
  refine Does.of_next ((exec_pwrClk d w s).trans (execPwrClk_takes ht)) ?_
  rw [State.writeClk, wField_of_coversLo hw (by rw [clkN_eq d.isLt]), hcs]
  simp only [href, List.headD_cons]
  refine ⟨State.report_filed s _ _ _ _ (by omega) hroom, ?_⟩
  rw [State.powerRefuse, State.report_room _ _ _ _ _ (by omega) hroom]
  rfl

theorem pwrClk_accepted {s : State} {d : Fin 33} {w : WriteReq} (ht : s.takes w (clkN d).off = true)
    (hw : coversLo w.half = true) (hc : s.clockCauses d (w.field (clkN d)) = []) {cap : Nat}
    (hcap : IsCap (s.getF Reg.PWR_THERM_STAT_STAGE) (s.getF (clkFloor d)) cap) :
    Does (.pwrClk d w) s (fun t => t.getF (clkN d) = w.field (clkN d) ∧ Retuned s t d (max (w.field (clkN d)) cap) ∧
        SameRegs [clkN d, clkEff d, vTarget d, vMinF d] s t ∧ t = ((s.setRegs t.regs).setPwr t.pwr).setResp t.resp) := by
  have hd := d.isLt
  have hfit : (clkN d).lo + (clkN d).w ≤ 64 := by simp [clkN_eq hd]
  have href : s.clkRefusal d (w.field (clkN d)) = none := by rw [State.clkRefusal_eq_head?, hc]; rfl
  have hset : SameRegs [clkN d] s (s.setF (clkN d) (w.field (clkN d))) := (SameRegs.refl _ s).setF _ (by simp) hfit
  have hN : (s.setF (clkN d) (w.field (clkN d))).getF (clkN d) = w.field (clkN d) := by
    rw [State.getF_setF _ _ _ hfit]
    exact Nat.mod_eq_of_lt (bits_lt _ _ _)
  have hmax : max ((s.setF (clkN d) (w.field (clkN d))).getF (clkN d))
      (capOf ((s.setF (clkN d) (w.field (clkN d))).getF Reg.PWR_THERM_STAT_STAGE)
        ((s.setF (clkN d) (w.field (clkN d))).getF (clkFloor d))) = max (w.field (clkN d)) cap := by
    rw [hN, hset.apart (apart_clkN_stage hd), hset.apart (apart_clkN_clkFloor hd), capOf_eq_of_isCap hcap]
  refine Does.of_next ((exec_pwrClk d w s).trans (execPwrClk_takes ht)) ?_
  rw [State.writeClk, wField_of_coversLo hw (by rw [clkN_eq hd])]
  simp only [href]
  have hret := State.retuned_retune (s.setF (clkN d) (w.field (clkN d))) hd
  rw [hmax] at hret
  have hsame := State.retune_sameRegs (s.setF (clkN d) (w.field (clkN d))) hd
  have hclkN : ∀ f ∈ [clkEff d, vTarget d, vMinF d], Apart f (clkN d) := by
    simp [clkN_eq hd, clkEff_eq hd, vTarget_eq hd, vMinF_eq hd, Apart]
  obtain ⟨r, p, hrp⟩ := State.retune_eq_setRegs_setPwr (d := d) (s.setF (clkN d) (w.field (clkN d)))
  refine ⟨(hsame _ hclkN).trans hN, Retuned.of_sameRegs_clkN s hd _ hset hret, ?_, by rw [hrp]; rfl⟩
  exact (hset.mono (by simp)).trans (hsame.mono (by simp))

theorem dividerSwitch_waiting {s : State} {d : Fin 33} {n : Nat} (hw : SMap.get (fun _ => none) s.pwr.divWait d = some n)
    (hn : n < 512) : Does (.dividerSwitch d) s (fun t =>
      t.getF (clkEff d) = n ∧ t.getF (vMinF d) = vFused d n ∧
      t.getF (vTarget d) = (if 2 ≤ s.dom d then max (vFused d n) (s.getF (vTarget d)) else s.getF (vTarget d)) ∧
      SMap.get (fun _ => none) t.pwr.divWait d = none ∧ SameRegs [clkEff d, vMinF d, vTarget d] s t ∧
      t = (s.setRegs t.regs).setPwr t.pwr) := by
  have hx : execDividerSwitch d s = .next ((s.setDivWait d none).switchDiv d n) := by simp only [execDividerSwitch, hw]
  obtain ⟨r, hr⟩ := State.switchDiv_eq_setRegs (d := d) (s.setDivWait d none) n
  refine Does.of_next ((exec_dividerSwitch d s).trans hx) ⟨State.switchDiv_clkEff _ d.isLt n hn,
    State.switchDiv_vMinF _ d.isLt n, State.switchDiv_vTarget _ d.isLt n, ?_, State.switchDiv_sameRegs _ d.isLt n, ?_⟩
  · rw [State.switchDiv_pwr, State.setDivWait_divWait]
  · rw [hr]; rfl

theorem dividerSwitch_idle {s : State} {d : Fin 33} (hw : SMap.get (fun _ => none) s.pwr.divWait d = none) :
    exec (.dividerSwitch d) s = .next s := by
  rw [exec_dividerSwitch]
  simp only [execDividerSwitch, hw]

/-! ### AVS_ITERATION (R492) -/

@[simp] theorem State.setCeil_ceilCnt (s : State) (d n : Nat) :
    SMap.get (fun _ => 0) (s.setCeil d n).pwr.ceilCnt d = n := by simp [State.setCeil]
@[simp] theorem State.getF_setCeil (s : State) (d n : Nat) (f : Fld) : (s.setCeil d n).getF f = s.getF f := rfl
theorem State.setCeil_setF (s : State) (d k : Nat) (f : Fld) (v : Nat) :
    (s.setCeil d k).setF f v = (s.setF f v).setCeil d k := rfl

/-- What the loop leaves behind: the target `v`, CEILING `c` and the count `k`, and all else as before. -/
def AvsStepped (s t : State) (d v c k : Nat) : Prop :=
  t.getF (vTarget d) = v ∧ t.getF (avsCeil d) = c ∧ SMap.get (fun _ => 0) t.pwr.ceilCnt d = k ∧
  SameRegs [vTarget d, avsCeil d] s t ∧ t = (s.setRegs t.regs).setPwr t.pwr

section
variable (s : State) {d : Nat} (h : d < 33) (k : Nat)

theorem AvsStepped.of_count : AvsStepped s (s.setCeil d k) d (s.getF (vTarget d)) (s.getF (avsCeil d)) k :=
  ⟨rfl, rfl, State.setCeil_ceilCnt s d k, SameRegs.refl _ s, rfl⟩

/-- Writing a field and the count changes nothing but registers and the power controller. -/
theorem State.setF_setCeil_eq (f : Fld) (v : Nat) : (s.setF f v).setCeil d k =
    (s.setRegs ((s.setF f v).setCeil d k).regs).setPwr ((s.setF f v).setCeil d k).pwr := rfl

include h

theorem AvsStepped.of_target {v : Nat} (hv : v < 1024) :
    AvsStepped s ((s.setF (vTarget d) v).setCeil d k) d v (s.getF (avsCeil d)) k := by
  have hfit : (vTarget d).lo + (vTarget d).w ≤ 64 := by simp [vTarget_eq h]
  refine ⟨?_, ?_, State.setCeil_ceilCnt _ d k, (SameRegs.refl _ s).setF v (by simp) hfit, s.setF_setCeil_eq k _ v⟩
  · rw [State.getF_setCeil, State.getF_setF _ _ _ hfit]
    simpa [vTarget_eq h] using Nat.mod_eq_of_lt hv
  · rw [State.getF_setCeil, State.getF_setF_ne _ _ _ _ hfit (apart_vTarget_avsCeil h)]

theorem AvsStepped.of_ceiling :
    AvsStepped s ((s.setF (avsCeil d) 1).setCeil d k) d (s.getF (vTarget d)) 1 k := by
  have hfit : (avsCeil d).lo + (avsCeil d).w ≤ 64 := by simp [avsCeil_eq h]
  refine ⟨?_, ?_, State.setCeil_ceilCnt _ d k, (SameRegs.refl _ s).setF 1 (by simp) hfit, s.setF_setCeil_eq k _ 1⟩
  · rw [State.getF_setCeil, State.getF_setF_ne _ _ _ _ hfit (apart_avsCeil_vTarget h)]
  · rw [State.getF_setCeil, State.getF_setF _ _ _ hfit]
    simp [avsCeil_eq h]

end

/-- An iteration of the loop: below LOW a step up, or at 850 mV one more count; above HIGH a step down; else nothing. -/
theorem avsIteration_steps {s : State} {d : Fin 33} {m : Int} (hon : s.domOn d = true) (hen : s.flag (avsEn d) = true)
    (hv : s.getF (vTarget d) ≤ 850) :
    let low : Int := s.getF (avsLow d)
    let high : Int := s.getF (avsHigh d)
    let v := s.getF (vTarget d)
    let k := SMap.get (fun _ => 0) s.pwr.ceilCnt d
    Does (.avsIteration d m) s (fun t => AvsStepped s t d
      (if m < low then min 850 (v + 5) else if high < m then max (s.getF (vMinF d)) (v - 5) else v)
      (if m < low ∧ v = 850 ∧ 63 ≤ k then 1 else s.getF (avsCeil d))
      (if m < low ∧ v = 850 then min 64 (k + 1) else 0)) := by
  intro low high v k
  have hd := d.isLt
  have hmin : s.getF (vMinF d) < 1024 := by simpa [vMinF_eq hd] using s.getF_lt (vMinF d)
  have hx : exec (.avsIteration d m) s = execAvsIteration d m s := exec_avsIteration d m s
  unfold execAvsIteration at hx
  simp only [hon, hen, Bool.not_true, Bool.or_self, Bool.false_eq_true, if_false, decide_eq_true_eq] at hx
  by_cases hlow : m < low
  · rw [if_pos hlow] at hx
    by_cases htop : v < 850
    · rw [if_pos htop] at hx
      refine Does.of_next hx ?_
      rw [if_pos hlow, if_neg (by omega), if_neg (by omega)]
      exact AvsStepped.of_target s hd 0 (by omega)
    · rw [if_neg htop] at hx
      have hceil : v = 850 := by omega
      have hstay : min 850 (v + 5) = v := by omega
      by_cases hcount : 64 ≤ k + 1
      · have hfull : min 64 (k + 1) = 64 := by omega
        rw [if_pos hcount] at hx
        refine Does.of_next hx ?_
        rw [if_pos hlow, if_pos ⟨hlow, hceil, by omega⟩, if_pos ⟨hlow, hceil⟩, hstay, hfull]
        exact AvsStepped.of_ceiling s hd 64
      · have hmore : min 64 (k + 1) = k + 1 := by omega
        rw [if_neg hcount] at hx
        refine Does.of_next hx ?_
        rw [if_pos hlow, if_neg (by omega), if_pos ⟨hlow, hceil⟩, hstay, hmore]
        exact AvsStepped.of_count s (k + 1)
  · rw [if_neg hlow] at hx
    by_cases hhigh : high < m
    · rw [if_pos hhigh, State.setCeil_setF] at hx
      refine Does.of_next hx ?_
      rw [if_neg hlow, if_pos hhigh, if_neg (by omega), if_neg (by omega)]
      exact AvsStepped.of_target s hd 0 (by omega)
    · rw [if_neg hhigh] at hx
      refine Does.of_next hx ?_
      rw [if_neg hlow, if_neg hhigh, if_neg (by omega), if_neg (by omega)]
      exact AvsStepped.of_count s 0

theorem avsIteration_off {s : State} {d : Fin 33} (m : Int) (h : s.domOn d = false ∨ s.flag (avsEn d) = false) :
    exec (.avsIteration d m) s = .next s := by
  rw [exec_avsIteration, execAvsIteration]
  rcases h with h | h <;> simp [h]

/-! ### What the loss of a unit leaves alone (R89, R235, R479) -/

/-- A field outside the registers of the Almanac and of ingest, where the states of beat machines and streams stand. -/
def OffBeat (f : Fld) : Prop := f.off < 0x100000 ∨ 0x200000 ≤ f.off ∧ f.off < 0x500000

/-- The pending records, memory, the Solstice engine's state and the registers outside the Almanac and ingest are as before. -/
structure Spared (s t : State) : Prop where
  flt : t.flt = s.flt
  mem : t.mem = s.mem
  sol : t.sol = s.sol
  regs : ∀ f : Fld, OffBeat f → t.getF f = s.getF f

theorem Spared.refl (s : State) : Spared s s := ⟨rfl, rfl, rfl, fun _ _ => rfl⟩

theorem Spared.trans {s t u : State} (h : Spared s t) (h' : Spared t u) : Spared s u :=
  ⟨h'.flt.trans h.flt, h'.mem.trans h.mem, h'.sol.trans h.sol, fun f hf => (h'.regs f hf).trans (h.regs f hf)⟩

theorem Spared.foldl {α : Type} {g : State → α → State} {l : List α} (hg : ∀ s, ∀ x ∈ l, Spared s (g s x)) (s : State) :
    Spared s (l.foldl g s) := by
  induction l generalizing s with
  | nil => exact Spared.refl s
  | cons x l ih =>
    exact (hg s x (by simp)).trans (ih (fun s y hy => hg s y (by simp [hy])) (g s x))

/-- Writing a register of the Almanac or of ingest. -/
theorem State.setF_spared (s : State) (f : Fld) (v : Nat) (hf : f.lo + f.w ≤ 64) (hb : ¬ OffBeat f) :
    Spared s (s.setF f v) :=
  ⟨rfl, rfl, rfl, fun g hg => State.getF_setF_ne s f g v hf (Or.inl (fun e => hb (by unfold OffBeat at *; omega)))⟩

theorem State.onPipe_spared (s : State) (p : Nat) (g : Pipe → Pipe) : Spared s (s.onPipe p g) :=
  ⟨rfl, rfl, rfl, fun _ _ => rfl⟩

theorem State.emit_spared (s : State) (m : OutMsg) : Spared s (s.emit m) := ⟨rfl, rfl, rfl, fun _ _ => rfl⟩

theorem State.sendMsix_spared (s : State) (v : Nat) : Spared s (s.sendMsix v) := by
  unfold State.sendMsix
  split_ifs
  · exact Spared.refl s
  · exact ⟨rfl, rfl, rfl, fun _ _ => rfl⟩
  · exact State.emit_spared s _

theorem State.irqSource_spared (s : State) (src : Nat) : Spared s (s.irqSource src) := by
  unfold State.irqSource
  dsimp only
  generalize (if src = 68 then 0 else s.getF (Reg.MGT_IRQ_ROUTE_DEST src)) = dest
  split_ifs
  · exact ⟨rfl, rfl, rfl, fun _ _ => rfl⟩
  · exact State.sendMsix_spared s _
  · exact Spared.refl s

theorem State.setStrState_spared (s : State) {m : Nat} (hm : m < 64) (v : Nat) : Spared s (s.setStrState m v) := by
  unfold State.setStrState
  split_ifs
  · exact Spared.refl s
  · refine ((State.setF_spared s _ v ?_ ?_).trans (State.setF_spared _ _ _ ?_ ?_)).trans (State.irqSource_spared _ _)
    all_goals simp [Reg.ING_STR_STATE, Reg.ING_STATE_IRQ, OffBeat]
    all_goals omega

theorem State.setBmState_spared (s : State) {n : Nat} (hn : n < 4) (v : Nat) : Spared s (s.setBmState n v) := by
  unfold State.setBmState
  refine (State.setF_spared s _ v ?_ ?_).trans (Spared.foldl (fun s m hm => State.setStrState_spared s ?_ _) _)
  · simp [Reg.ALM_BM_STAT_STATE]
  · simp [Reg.ALM_BM_STAT_STATE, OffBeat]; omega
  · simp only [State.boundTo, List.mem_filter, List.mem_range] at hm
    exact hm.1

theorem State.halt_spared (s : State) {n : Nat} (hn : n < 4) : Spared s (s.halt n) := by
  unfold State.halt
  dsimp only
  split_ifs
  · exact (State.onPipe_spared s n _).trans (State.setBmState_spared _ hn 4)
  · exact State.onPipe_spared s n _

theorem State.settleLoss_spared (s : State) (p : Nat) : Spared s (s.settleLoss p) := by
  unfold State.settleLoss
  split
  · split
    · exact Spared.refl s
    · exact (State.emit_spared s _).trans (State.onPipe_spared _ p _)
  · exact Spared.refl s

theorem State.settleFollower_spared (s : State) (p : Nat) : Spared s (s.settleFollower p) := by
  unfold State.settleFollower
  split
  · exact ((Spared.foldl (fun s f _ => State.emit_spared s _) s).trans (State.onPipe_spared _ p _)).trans
      (State.settleLoss_spared _ p)
  · exact Spared.refl s

/-- A pipeline that loses a unit: its frames, its beat machine and its streams are what changes. -/
theorem State.losePipe_spared (s : State) {n : Nat} (hn : n < 4) (unit : Nat) (needs : Frame → Bool) :
    Spared s (s.losePipe n unit needs) := by
  unfold State.losePipe
  dsimp only
  split
  · exact ((State.onPipe_spared s n _).trans (State.onPipe_spared _ n _)).trans (State.settleFollower_spared _ n)
  · exact (State.onPipe_spared s n _).trans (State.halt_spared _ hn)

/-! ### Loss of a core and of the Solstice engine -/

/-- A core that is not lost yet: its bit is set, one record joins the pending ones, and its pipeline loses it. -/
theorem State.loseCore_spared (s : State) {c cause : Nat} (hl : bit1 (s.getF Reg.MGT_CORE_LOST) c = false)
    (hp : pendCount s.flt.pend < 127) :
    ∃ r : FaultRec, r.summary = none ∧ (r.cls, r.code, r.unit, r.detail) = (3, 0x021, uCore c, packDetail [(4, cause)]) ∧
      Spared ((s.setF Reg.MGT_CORE_LOST (s.getF Reg.MGT_CORE_LOST ||| 2 ^ c)).addPend r) (s.loseCore c cause) := by
  unfold State.loseCore
  simp only [hl, Bool.false_eq_true, if_false]
  generalize hs1 : s.setF Reg.MGT_CORE_LOST (s.getF Reg.MGT_CORE_LOST ||| 2 ^ c) = s1
  have hp1 : pendCount s1.flt.pend < 127 := by rw [← hs1]; exact hp
  cases hown : s1.coreOwner c with
  | none =>
    obtain ⟨r, hr, hi, he⟩ := s1.report_eq_addPend (cls := 3) 0x021 (uCore c) [(4, cause)] (by omega) (by omega) hp1
    exact ⟨r, hr, hi, he ▸ Spared.refl _⟩
  | some n =>
    have hn : n < 4 := by simpa using List.mem_of_find?_eq_some hown
    obtain ⟨r, hr, hi, he⟩ := s1.reportP_eq_addPend (cls := 3) 0x021 (uCore c) n [(4, cause)] (by omega) (by omega) hp1
    refine ⟨r, hr, hi, ?_⟩
    rw [← he]
    exact State.losePipe_spared _ hn _ _

/-- The cores of a list are lost: their bits of MGT_CORE_LOST are set, at most one record each joins the pending ones, and the
registers named in `Spared` are otherwise as before. -/
structure CoresLost (cs : List Nat) (s t : State) : Prop where
  pend : ∃ l, t.flt.pend = s.flt.pend ++ l ∧ pendCount t.flt.pend ≤ pendCount s.flt.pend + cs.length
  mem : t.mem = s.mem
  sol : t.sol = s.sol
  regs : ∀ f : Fld, OffBeat f → f.off ≠ Reg.MGT_CORE_LOST.off → t.getF f = s.getF f
  lost : ∀ c, c < 32 → bit1 (t.getF Reg.MGT_CORE_LOST) c = (bit1 (s.getF Reg.MGT_CORE_LOST) c || decide (c ∈ cs))

theorem CoresLost.refl (s : State) : CoresLost [] s s :=
  ⟨⟨[], by simp⟩, rfl, rfl, fun _ _ _ => rfl, by simp⟩

theorem CoresLost.trans {xs ys : List Nat} {s t u : State} (h : CoresLost xs s t) (h' : CoresLost ys t u) :
    CoresLost (xs ++ ys) s u := by
  obtain ⟨l, hl, hn⟩ := h.pend
  obtain ⟨l', hl', hn'⟩ := h'.pend
  refine ⟨⟨l ++ l', by rw [hl', hl, List.append_assoc], by rw [List.length_append]; omega⟩, h'.mem.trans h.mem,
    h'.sol.trans h.sol, fun f hf ho => (h'.regs f hf ho).trans (h.regs f hf ho), fun c hc => ?_⟩
  rw [h'.lost c hc, h.lost c hc, Bool.or_assoc]
  simp

theorem State.loseCore_coresLost (s : State) {c : Nat} (cause : Nat) (hp : pendCount s.flt.pend < 127) :
    CoresLost [c] s (s.loseCore c cause) := by
  cases hl : bit1 (s.getF Reg.MGT_CORE_LOST) c with
  | true =>
    have hsame : s.loseCore c cause = s := by simp [State.loseCore, hl]
    rw [hsame]
    refine ⟨⟨[], by simp⟩, rfl, rfl, fun _ _ _ => rfl, fun x _ => ?_⟩
    by_cases hx : x = c <;> simp [hx, hl]
  | false =>
    obtain ⟨r, hr, _, hs⟩ := s.loseCore_spared (cause := cause) hl hp
    refine ⟨⟨[r], by rw [hs.flt]; rfl, ?_⟩, hs.mem, hs.sol, fun f hf ho => ?_, fun x hx => ?_⟩
    · rw [hs.flt, State.addPend_pend, pendCount_append _ _ hr]; rfl
    · rw [hs.regs f hf, State.getF_addPend]
      exact State.getF_setF_ne _ _ _ _ (by simp [Reg.MGT_CORE_LOST]) (Or.inl ho.symm)
    · rw [hs.regs _ (Or.inl (by simp [Reg.MGT_CORE_LOST])), State.getF_addPend,
        State.getF_setF _ _ _ (by simp [Reg.MGT_CORE_LOST])]
      have hw : Reg.MGT_CORE_LOST.w = 32 := rfl
      rw [hw, bit1, Nat.testBit_mod_two_pow, Nat.testBit_lor, Nat.testBit_two_pow]
      simp [hx, bit1, eq_comm]

/-- Losing one core after another. -/
theorem foldl_loseCore_coresLost (cause : Nat) (cs : List Nat) (s : State)
    (hp : pendCount s.flt.pend + cs.length ≤ 127) : CoresLost cs s (cs.foldl (fun s c => s.loseCore c cause) s) := by
  induction cs generalizing s with
  | nil => exact CoresLost.refl s
  | cons c cs ih =>
    simp only [List.length_cons] at hp
    have h1 := s.loseCore_coresLost (c := c) cause (by omega)
    obtain ⟨_, _, hn⟩ := h1.pend
    simp only [List.length_singleton] at hn
    exact h1.trans (ih _ (by omega))

/-- An engine that is not lost yet: one record joins the pending ones, and every loaded pipeline that uses it loses it. -/
theorem State.loseSol_spared (s : State) {cause : Nat} (hl : s.sol.lost = false) (hp : pendCount s.flt.pend < 127) :
    ∃ r : FaultRec, (r.cls, r.code, r.unit, r.detail) = (3, 0x033, uSol, packDetail [(4, cause)]) ∧
      Spared ((s.setSol { s.sol with lost := true }).addPend r) (s.loseSol cause) := by
  unfold State.loseSol
  simp only [hl, Bool.false_eq_true, if_false]
  obtain ⟨r, _, hi, he⟩ := (s.setSol { s.sol with lost := true }).report_eq_addPend (cls := 3) 0x033 uSol [(4, cause)]
    (by omega) (by omega) hp
  rw [he]
  refine ⟨r, hi, Spared.foldl (fun u n hn => ?_) _⟩
  split_ifs
  · exact State.losePipe_spared u (by revert hn; simp; omega) _ _
  · exact Spared.refl u

/-- A core that is lost shows in MGT_CORE_LOST. -/
theorem State.loseCore_lost (s : State) {c : Nat} (cause : Nat) (hc : c < 32) (hp : pendCount s.flt.pend < 127) :
    bit1 ((s.loseCore c cause).getF Reg.MGT_CORE_LOST) c = true := by
  simp [(s.loseCore_coresLost cause hp).lost c hc]

/-- The report of a core that was not lost yet. -/
theorem State.loseCore_raised (s : State) {c cause : Nat} (hl : bit1 (s.getF Reg.MGT_CORE_LOST) c = false)
    (hp : pendCount s.flt.pend < 127) : Raised s (s.loseCore c cause) 3 0x021 (uCore c) [(4, cause)] := by
  obtain ⟨r, _, hi, hs⟩ := s.loseCore_spared (cause := cause) hl hp
  exact raised_of_mem (l := [r]) (by rw [hs.flt]; rfl) (by simp) hi

theorem State.loseSol_lost (s : State) (cause : Nat) (hp : pendCount s.flt.pend < 127) :
    (s.loseSol cause).sol.lost = true := by
  cases hl : s.sol.lost with
  | true => simp [State.loseSol, hl]
  | false =>
    obtain ⟨r, _, hs⟩ := s.loseSol_spared (cause := cause) hl hp
    rw [hs.sol]; rfl

theorem State.loseSol_raised (s : State) {cause : Nat} (hl : s.sol.lost = false) (hp : pendCount s.flt.pend < 127) :
    Raised s (s.loseSol cause) 3 0x033 uSol [(4, cause)] := by
  obtain ⟨r, hi, hs⟩ := s.loseSol_spared (cause := cause) hl hp
  exact raised_of_mem (l := [r]) (by rw [hs.flt]; rfl) (by simp) hi

/-- The loss of the engine keeps memory and the registers outside the Almanac and ingest, and drops no pending record. -/
theorem State.loseSol_keeps (s : State) (cause : Nat) (hp : pendCount s.flt.pend < 127) :
    (∃ l, (s.loseSol cause).flt.pend = s.flt.pend ++ l) ∧ (s.loseSol cause).mem = s.mem ∧
      ∀ f : Fld, OffBeat f → (s.loseSol cause).getF f = s.getF f := by
  cases hl : s.sol.lost with
  | true =>
    have hsame : s.loseSol cause = s := by simp [State.loseSol, hl]
    rw [hsame]
    exact ⟨⟨[], by simp⟩, rfl, fun _ _ => rfl⟩
  | false =>
    obtain ⟨r, _, hs⟩ := s.loseSol_spared (cause := cause) hl hp
    exact ⟨⟨[r], by rw [hs.flt]; rfl⟩, hs.mem, hs.regs⟩

/-! ### LDO_OUT_OF_REGULATION and PM_ALERT (R493) -/

/-- A pending store with room for a CORRECTED record has room for any. -/
theorem State.pendCount_lt_of_room {s : State} (h : s.room = true) : pendCount s.flt.pend < 96 := by
  simpa [State.room] using h

theorem ldoOutOfRegulation_on {s : State} {d : Fin 33} (hon : s.domOn d = true) (hroom : s.room = true) :
    Does (.ldoOutOfRegulation d) s (fun t =>
      (d.val < 32 → bit1 (t.getF Reg.MGT_CORE_LOST) d = true ∧
        (bit1 (s.getF Reg.MGT_CORE_LOST) d = false → Raised s t 3 0x021 (uCore d) [(4, 2)])) ∧
      (d.val = 32 → t.sol.lost = true ∧ (s.sol.lost = false → Raised s t 3 0x033 uSol [(4, 3)]))) := by
  have hp : pendCount s.flt.pend < 127 := by have := State.pendCount_lt_of_room hroom; omega
  have hx : execLdoOutOfRegulation d s = .next (if d.val < 32 then s.loseCore d 2 else s.loseSol 3) := if_pos hon
  refine Does.of_next ((exec_ldoOutOfRegulation d s).trans hx) ⟨fun hcore => ?_, fun hsol => ?_⟩
  · rw [if_pos hcore]
    exact ⟨s.loseCore_lost 2 hcore hp, fun hl => s.loseCore_raised hl hp⟩
  · rw [if_neg (by omega)]
    exact ⟨s.loseSol_lost 3 hp, fun hl => s.loseSol_raised hl hp⟩

theorem ldoOutOfRegulation_off {s : State} {d : Fin 33} (hon : s.domOn d = false) :
    exec (.ldoOutOfRegulation d) s = .next s := by
  rw [exec_ldoOutOfRegulation, execLdoOutOfRegulation, hon]
  rfl

theorem pmAlert_active {s : State} (a : Fin 128) (st : Fin 65536) (hact : s.pwr.dev = .active) (hroom : s.room = true) :
    Does (.pmAlert a st) s (fun t => t.out = s.out ++ [.pmbus a] ∧
      Filed s t 1 0x608 uDevice [(16, a), (16, st)] ∧ t = (s.setFlt t.flt).setOut t.out) := by
  have hroom' : (s.emit (.pmbus a)).room = true := hroom
  refine Does.of_next ((exec_pmAlert a st s).trans (if_pos hact)) ⟨?_, ?_, ?_⟩
  · rw [State.report_room _ _ _ _ _ (by omega) hroom']; rfl
  · exact (s.emit (.pmbus a)).report_filed 1 0x608 uDevice _ (by omega) hroom'
  · rw [State.report_room _ _ _ _ _ (by omega) hroom']; rfl

theorem pmAlert_inactive {s : State} (a : Fin 128) (st : Fin 65536) (h : s.pwr.dev ≠ .active) :
    exec (.pmAlert a st) s = .next s := (exec_pmAlert a st s).trans (if_neg h)

/-! ### QUADRANT_PLL_LOST, RELOCK and QPLL_LOCKED (R491) -/

/-- The cores that a quadrant's PLL takes with it. -/
def State.quadCores (s : State) (q : Nat) : List Nat :=
  (List.range 32).filter (fun c => attachedQuad c == some q && !s.fused c && s.domHolds c)

/-- A quadrant has eight cores. -/
theorem State.quadCores_length_le (s : State) (q : Fin 4) : (s.quadCores q).length ≤ 8 := by
  have hquad : ((List.range 32).filter (fun c => attachedQuad c == some q.val)).length = 8 := by
    revert q; decide
  have hsub : s.quadCores q = ((List.range 32).filter (fun c => attachedQuad c == some q.val)).filter
      (fun c => !s.fused c && s.domHolds c) := by
    simp only [State.quadCores, List.filter_filter]
    congr 1
    funext c
    rw [Bool.and_assoc, Bool.and_comm]
  rw [hsub]
  exact (List.length_filter_le _ _).trans hquad.le

theorem State.mem_quadCores (s : State) (q : Nat) {c : Nat} (hc : c < 32) :
    decide (c ∈ s.quadCores q) = (decide (attachedQuad c = some q) && !s.fused c && s.domHolds c) := by
  rw [Bool.eq_iff_iff]
  simp [State.quadCores, hc, and_assoc]

/-- The lock and a report change neither the fuses nor the domains that the quadrant's cores are chosen by. -/
theorem State.quadCores_congr {s t : State} (h : ∀ f : Fld, f.off < 0x203000 → t.getF f = s.getF f) (q : Nat) :
    t.quadCores q = s.quadCores q := by
  unfold State.quadCores
  apply List.filter_congr
  intro c hc
  have hc : c < 32 := List.mem_range.mp hc
  have hdom : t.dom c = s.dom c := h _ (by simp [Reg.PWR_DOM_STAT_STATE]; omega)
  have hmask : t.getF Reg.MGT_CORE_MASK = s.getF Reg.MGT_CORE_MASK := h _ (by simp [Reg.MGT_CORE_MASK])
  have hgrade : t.getF Reg.MGT_REVID_GRADE = s.getF Reg.MGT_REVID_GRADE := h _ (by simp [Reg.MGT_REVID_GRADE])
  simp only [State.fused, State.domHolds, hdom, hmask, hgrade]

/-- A PLL has lost its lock: the register shows it, and UNIT.0x605 is filed. -/
def State.dropLock (s : State) (q : Nat) : State :=
  (s.setF (Reg.PWR_QPLL_CTL_LOCK q) 0).report 3 0x605 (0x40000000 + q) []

/-- The cores of its quadrant are lost with it. -/
def State.loseQuad (s : State) (q : Nat) : State :=
  ((s.dropLock q).quadCores q).foldl (fun s c => s.loseCore c 3) (s.dropLock q)

theorem execQuadrantPllLost_locked {s : State} {q : Fin 4} (hlock : s.flag (Reg.PWR_QPLL_CTL_LOCK q) = true) :
    execQuadrantPllLost q s = .next (if q.val = 0 then (s.loseQuad q).loseSol 2 else s.loseQuad q) := if_pos hlock

/-- What a lost quadrant shows: no lock, the bits of its cores in MGT_CORE_LOST, and UNIT.0x605 first among the records that have
joined the pending ones. -/
structure QuadLost (s t : State) (q : Nat) : Prop where
  lock : t.getF (Reg.PWR_QPLL_CTL_LOCK q) = 0
  pend : ∃ r l, t.flt.pend = s.flt.pend ++ r :: l ∧
    (r.cls, r.code, r.unit, r.detail) = (3, 0x605, 0x40000000 + q, packDetail [])
  count : pendCount t.flt.pend < 127
  lost : ∀ c, c < 32 → bit1 (t.getF Reg.MGT_CORE_LOST) c = (bit1 (s.getF Reg.MGT_CORE_LOST) c ||
    (decide (attachedQuad c = some q) && !s.fused c && s.domHolds c))
  mem : t.mem = s.mem
  sol : t.sol = s.sol

theorem offBeat_lock (q : Fin 4) : OffBeat (Reg.PWR_QPLL_CTL_LOCK q) := by
  simp only [OffBeat, Reg.PWR_QPLL_CTL_LOCK]
  omega

theorem offBeat_coreLost : OffBeat Reg.MGT_CORE_LOST := by
  simp only [OffBeat, Reg.MGT_CORE_LOST]
  omega

theorem State.loseQuad_quadLost {s : State} (q : Fin 4) (hroom : s.room = true) : QuadLost s (s.loseQuad q) q := by
  have hs := State.pendCount_lt_of_room hroom
  have hfit : (Reg.PWR_QPLL_CTL_LOCK q).lo + (Reg.PWR_QPLL_CTL_LOCK q).w ≤ 64 := by simp [Reg.PWR_QPLL_CTL_LOCK]
  obtain ⟨r, hr, hi, hdrop⟩ := (s.setF (Reg.PWR_QPLL_CTL_LOCK q) 0).report_eq_addPend (cls := 3) 0x605
    (0x40000000 + q.val) [] (by omega) (by omega) (by rw [State.setF_flt]; omega)
  change s.dropLock q = _ at hdrop
  have hpend : (s.dropLock q).flt.pend = s.flt.pend ++ [r] := by rw [hdrop]; rfl
  have hcount : pendCount (s.dropLock q).flt.pend = pendCount s.flt.pend + 1 := by rw [hpend, pendCount_append _ _ hr]
  have hregs : ∀ f : Fld, f.off < 0x203000 → (s.dropLock q).getF f = s.getF f := fun f hf => by
    rw [hdrop, State.getF_addPend]
    exact State.getF_setF_ne _ _ _ _ hfit (Or.inl (by simp only [Reg.PWR_QPLL_CTL_LOCK]; omega))
  have hlen := (s.dropLock q).quadCores_length_le q
  have hcores : CoresLost ((s.dropLock q).quadCores q) (s.dropLock q) (s.loseQuad q) :=
    foldl_loseCore_coresLost 3 _ _ (by omega)
  obtain ⟨l, hl, hmore⟩ := hcores.pend
  refine ⟨?_, ⟨r, l, by rw [hl, hpend, List.append_assoc]; rfl, hi⟩, by omega, fun c hc => ?_, ?_, ?_⟩
  · rw [hcores.regs _ (offBeat_lock q) (by simp only [Reg.PWR_QPLL_CTL_LOCK, Reg.MGT_CORE_LOST]; omega), hdrop,
      State.getF_addPend, State.getF_setF _ _ _ hfit, Nat.zero_mod]
  · rw [hcores.lost c hc, State.quadCores_congr hregs, State.mem_quadCores s q hc,
      hregs _ (by simp only [Reg.MGT_CORE_LOST]; omega)]
  · rw [hcores.mem, hdrop, State.addPend_mem, State.setF_mem]
  · rw [hcores.sol, hdrop, State.addPend_sol, State.setF_sol]

theorem quadrantPllLost_locked {s : State} {q : Fin 4} (hlock : s.flag (Reg.PWR_QPLL_CTL_LOCK q) = true)
    (hroom : s.room = true) : Does (.quadrantPllLost q) s (fun t =>
      t.getF (Reg.PWR_QPLL_CTL_LOCK q) = 0 ∧ Raised s t 3 0x605 (0x40000000 + q.val) [] ∧
      (∀ c, c < 32 → bit1 (t.getF Reg.MGT_CORE_LOST) c = (bit1 (s.getF Reg.MGT_CORE_LOST) c ||
        (decide (attachedQuad c = some q.val) && !s.fused c && s.domHolds c))) ∧
      (q.val = 0 → t.sol.lost = true) ∧ (q.val ≠ 0 → t.sol = s.sol) ∧ SameMem s t) := by
  have hquad := State.loseQuad_quadLost q hroom
  obtain ⟨r, l, hpend, hi⟩ := hquad.pend
  refine Does.of_next ((exec_quadrantPllLost q s).trans (execQuadrantPllLost_locked hlock)) ?_
  by_cases hq : q.val = 0
  · obtain ⟨⟨l', hpend'⟩, hmem, hregs⟩ := (s.loseQuad q).loseSol_keeps 2 hquad.count
    rw [if_pos hq]
    refine ⟨(hregs _ (offBeat_lock q)).trans hquad.lock, ?_, fun c hc => ?_,
      fun _ => (s.loseQuad q).loseSol_lost 2 hquad.count, fun h => absurd hq h, fun a => ?_⟩
    · exact raised_of_mem (l := (r :: l) ++ l') (by rw [hpend', hpend, List.append_assoc]) (by simp) hi
    · rw [hregs _ offBeat_coreLost, hquad.lost c hc]
    · rw [State.rdByte, hmem, hquad.mem, State.rdByte]
  · rw [if_neg hq]
    refine ⟨hquad.lock, raised_of_mem hpend (by simp) hi, hquad.lost, fun h => absurd h hq, fun _ => hquad.sol,
      fun a => ?_⟩
    rw [State.rdByte, hquad.mem, State.rdByte]

theorem quadrantPllLost_unlocked {s : State} {q : Fin 4} (hlock : s.flag (Reg.PWR_QPLL_CTL_LOCK q) = false) :
    exec (.quadrantPllLost q) s = .next s := by
  rw [exec_quadrantPllLost, execQuadrantPllLost, hlock]
  rfl

/-- A core of the quadrant is held by a pipeline that is not EMPTY. -/
def QuadBusy (s : State) (q : Nat) : Prop := ∃ c, c < 32 ∧ attachedQuad c = some q ∧ s.heldByPipe c = true

theorem quadBusy_iff (s : State) (q : Nat) :
    (List.range 32).any (fun c => attachedQuad c == some q && s.heldByPipe c) = true ↔ QuadBusy s q := by
  simp [QuadBusy]

/-- A granted write of a field and of the power controller changes nothing else. -/
theorem State.setF_setPwr_answer_eq (s : State) (f : Fld) (v : Nat) (p : PwrState) (st : Status) (x : W64) :
    ((s.setF f v).setPwr p).answer st x = ((s.setRegs (((s.setF f v).setPwr p).answer st x).regs).setPwr
      (((s.setF f v).setPwr p).answer st x).pwr).setResp (((s.setF f v).setPwr p).answer st x).resp := rfl

theorem execPwrQpllRelock_takes {s : State} {q : Fin 4} {w : WriteReq}
    (ht : s.takes w (Reg.PWR_QPLL_CTL_RELOCK q).off = true) :
    execPwrQpllRelock q w s = .next ((State.writeQpll q w s).answer .ok 0#64) := by
  rw [execPwrQpllRelock, State.gated_takes s w _ _ ht]

theorem pwrQpllRelock_accepted {s : State} {q : Fin 4} {w : WriteReq}
    (ht : s.takes w (Reg.PWR_QPLL_CTL_RELOCK q).off = true) (hw : coversLo w.half = true)
    (hset : w.field (Reg.PWR_QPLL_CTL_RELOCK q) = 1) (hfree : ¬ QuadBusy s q) :
    Does (.pwrQpllRelock q w) s (fun t =>
      t.getF (Reg.PWR_QPLL_CTL_LOCK q) = 0 ∧ SMap.get (fun _ => false) t.pwr.relock q = true ∧
      SameRegs [Reg.PWR_QPLL_CTL_LOCK q] s t ∧ t = ((s.setRegs t.regs).setPwr t.pwr).setResp t.resp) := by
  have hfit : (Reg.PWR_QPLL_CTL_LOCK q).lo + (Reg.PWR_QPLL_CTL_LOCK q).w ≤ 64 := by simp [Reg.PWR_QPLL_CTL_LOCK]
  have hx : State.writeQpll q w s = (s.setF (Reg.PWR_QPLL_CTL_LOCK q) 0).setPwr
      { s.pwr with relock := SMap.put (fun _ => false) s.pwr.relock q true } := by
    rw [← quadBusy_iff, Bool.not_eq_true] at hfree
    rw [State.writeQpll, wBit, wField_of_coversLo hw rfl, hset, hfree]
    rfl
  refine Does.of_next ((exec_pwrQpllRelock q w s).trans (execPwrQpllRelock_takes ht)) ?_
  rw [hx]
  have hsame : SameRegs [Reg.PWR_QPLL_CTL_LOCK q] s (s.setF (Reg.PWR_QPLL_CTL_LOCK q) 0) :=
    (SameRegs.refl _ s).setF 0 (by simp) hfit
  refine ⟨?_, ?_, hsame.of_regs_eq (by simp), State.setF_setPwr_answer_eq _ _ _ _ _ _⟩
  · rw [State.answer_getF, State.getF_setPwr, State.getF_setF _ _ _ hfit, Nat.zero_mod]
  · rw [State.answer_pwr, State.setPwr_pwr, SMap.get_put_self]

theorem pwrQpllRelock_ignored {s : State} {q : Fin 4} {w : WriteReq}
    (ht : s.takes w (Reg.PWR_QPLL_CTL_RELOCK q).off = true) (hw : coversLo w.half = true)
    (hno : w.field (Reg.PWR_QPLL_CTL_RELOCK q) = 0 ∨ QuadBusy s q) :
    Does (.pwrQpllRelock q w) s (fun t => t = s.setResp t.resp) := by
  have hx : State.writeQpll q w s = s := by
    rw [← quadBusy_iff] at hno
    rw [State.writeQpll, wBit, wField_of_coversLo hw rfl]
    rcases hno with hno | hno <;> rw [hno] <;> simp
  refine Does.of_next ((exec_pwrQpllRelock q w s).trans (execPwrQpllRelock_takes ht)) ?_
  rw [hx]
  rfl

theorem qpllLocked_relocking {s : State} {q : Fin 4} (ok : Bool)
    (h : SMap.get (fun _ => false) s.pwr.relock q = true) : Does (.qpllLocked q ok) s (fun t =>
      t.getF (Reg.PWR_QPLL_CTL_LOCK q) = (if ok then 1 else 0) ∧ SMap.get (fun _ => false) t.pwr.relock q = false ∧
      SameRegs [Reg.PWR_QPLL_CTL_LOCK q] s t ∧ t = (s.setRegs t.regs).setPwr t.pwr) := by
  have hfit : (Reg.PWR_QPLL_CTL_LOCK q).lo + (Reg.PWR_QPLL_CTL_LOCK q).w ≤ 64 := by simp [Reg.PWR_QPLL_CTL_LOCK]
  refine Does.of_next ((exec_qpllLocked q ok s).trans (if_pos h))
    ⟨?_, ?_, (SameRegs.refl _ s).setF (b2n ok) (by simp) hfit, rfl⟩
  · rw [State.getF_setF _ _ _ hfit]
    cases ok <;> simp [b2n, Reg.PWR_QPLL_CTL_LOCK]
  · rw [State.setF_pwr, State.setPwr_pwr, SMap.get_put_self]

theorem qpllLocked_idle {s : State} {q : Fin 4} (ok : Bool) (h : SMap.get (fun _ => false) s.pwr.relock q = false) :
    exec (.qpllLocked q ok) s = .next s := by
  rw [exec_qpllLocked, execQpllLocked, h]
  rfl

/-- Settles O47: one lemma for each outcome of each of the eight commands. -/
theorem clocksAndVoltage : Obligations.ClocksAndVoltage := by
  unfold Obligations.ClocksAndVoltage
  refine ⟨fun s d w ht hw => ⟨pwrClk_refused ht hw, fun hc cap _ hcap => pwrClk_accepted ht hw hc hcap⟩,
    fun s d => ⟨fun n hn h => dividerSwitch_waiting hn h, dividerSwitch_idle⟩,
    fun s d m hon hen hv => avsIteration_steps hon hen hv,
    fun s d m h => avsIteration_off m h,
    fun s d => ldoOutOfRegulation_on,
    fun s d => ldoOutOfRegulation_off,
    fun s a st => ⟨pmAlert_active a st, pmAlert_inactive a st⟩,
    fun s q => ⟨quadrantPllLost_locked, quadrantPllLost_unlocked⟩,
    fun s q w ht hw => ⟨pwrQpllRelock_accepted ht hw, pwrQpllRelock_ignored ht hw⟩,
    fun s q ok => ⟨qpllLocked_relocking ok, qpllLocked_idle ok⟩⟩

end Sys2Proof.Machine

/-! ## Refused writes, writes to a domain without state, and reads of control space

Settles RefusedAndDeadWrites: every command that writes one register is the gate of that register, so what the gate does with a
write that is not granted, and with one that finds no state, is what each of them does. -/

namespace Sys2Proof.Machine

/-! ### Commands that are the gate of one register -/

/-- A command is the gate of a write at an offset of control space. -/
def GatesWrite (w : WriteReq) (off : Nat) (i : Instr) : Prop :=
  off < 0x10000000 ∧ ∃ eff : State → State, ∀ s, exec i s = .next (s.gated w.agent w.half off eff)

theorem glOff_lt (p : Fin 16) (r : GlReg) : glOff p r < 0x10000000 := by
  cases r <;> simp only [glOff, Reg.ALM_GL_TIME, Reg.ALM_GL_PERIOD, Reg.ALM_GL_CTL_EN] <;> omega

theorem loopFld_off_lt (k : LoopSite) : (loopFld k).off < 0x10000000 := by
  cases k <;> simp only [loopFld, Reg.ETH_P_LOOP, Reg.ETH_P_PRBS_EN, Reg.QSK_L_LOOP, Reg.QSK_L_PRBS_EN] <;> omega

theorem lrnFld_off_lt (r : LrnReg) : (lrnFld r).off < 0x10000000 := by
  cases r <;> decide

theorem ringRegs_rxWr_off_lt (p : Fin 6) (tq : Bool) : (ringRegs p tq).rxWr.off < 0x10000000 := by
  cases tq <;> simp only [ringRegs, Reg.ETH_P_TQ_RXWR, Reg.ETH_P_NIC_RXWR] <;> simp <;> omega

theorem ringRegs_txWr_off_lt (p : Fin 6) (tq : Bool) : (ringRegs p tq).txWr.off < 0x10000000 := by
  cases tq <;> simp only [ringRegs, Reg.ETH_P_TQ_TXWR, Reg.ETH_P_NIC_TXWR] <;> simp <;> omega

theorem clkN_off_lt (d : Fin 33) : (clkN d).off < 0x10000000 := by
  simp only [clkN_eq d.isLt]
  omega

theorem rotationOff_lt (n : Fin 4) (g : Fin 33) :
    (if g.val < 32 then (Reg.ING_ROT_ENT n g).off else (Reg.ING_ROT_LEN n).off) < 0x10000000 := by
  split <;> simp only [Reg.ING_ROT_ENT, Reg.ING_ROT_LEN] <;> omega

theorem windowOff_lt (c : Fin 32) (o : Fin 0xE0000) : 0x1000000 + 0x100000 * c.val + o.val / 8 * 8 < 0x10000000 := by
  omega

/-- A register with a row is written through its gate. -/
theorem State.ctlWrite_of_row (s : State) (off : Nat) (w : WriteReq) (h : Reg.row (off / 8 * 8) ≠ none) :
    s.ctlWrite off w = s.gated w.agent w.half (off / 8 * 8) (State.ctlEffect (off / 8 * 8) w) := by
  rw [State.ctlWrite, if_neg (by simpa using h)]

/-- Every command that writes one register is its gate: exec unfolds to it in each case, and a register without a command of its own
has a row. What is left is that the offset lies in control space. -/
theorem WriteCommand.gatesWrite {w : WriteReq} {off : Nat} {i : Instr} (h : WriteCommand w off i) :
    GatesWrite w off i := by
  unfold WriteCommand at h
  rcases h with ⟨rfl, rfl⟩ | ⟨rfl, rfl⟩ | ⟨n, rfl, rfl⟩ | ⟨n, rfl, rfl⟩ | ⟨n, rfl, rfl⟩ | ⟨n, rfl, rfl⟩ |
    ⟨n, rfl, rfl⟩ | ⟨p, reg, rfl, rfl⟩ | ⟨c, rfl, rfl⟩ | ⟨c, rfl, rfl⟩ | ⟨rfl, rfl⟩ | ⟨rfl, rfl⟩ | ⟨rfl, rfl⟩ |
    ⟨rfl, rfl⟩ | ⟨rfl, rfl⟩ | ⟨rfl, rfl⟩ | ⟨c, rfl, rfl⟩ | ⟨rfl, rfl⟩ | ⟨k, rfl, rfl⟩ | ⟨rfl, rfl⟩ | ⟨c, rfl, rfl⟩ |
    ⟨c, rfl, rfl⟩ | ⟨c, o, rfl, rfl⟩ | ⟨rfl, rfl⟩ | ⟨rfl, rfl⟩ | ⟨n, rfl, rfl⟩ | ⟨rfl, rfl⟩ | ⟨c, rfl, rfl⟩ |
    ⟨k, rfl, rfl⟩ | ⟨m, rfl, rfl⟩ | ⟨rfl, rfl⟩ | ⟨g, rfl, rfl⟩ | ⟨m, rfl, rfl⟩ | ⟨rfl, rfl⟩ | ⟨m, rfl, rfl⟩ |
    ⟨n, g, rfl, rfl⟩ | ⟨rfl, rfl⟩ | ⟨r, rfl, rfl⟩ | ⟨rfl, rfl⟩ | ⟨rfl, rfl⟩ | ⟨n, rfl, rfl⟩ | ⟨m, rfl, rfl⟩ |
    ⟨rfl, rfl⟩ | ⟨ix, rfl, rfl⟩ | ⟨p, tq, rfl, rfl⟩ | ⟨p, tq, rfl, rfl⟩ | ⟨d, rfl, rfl⟩ | ⟨d, rfl, rfl⟩ |
    ⟨q, rfl, rfl⟩ | ⟨rfl, rfl⟩ | ⟨rfl, rfl⟩ | ⟨rfl, rfl⟩ | ⟨l, rfl, rfl⟩ | ⟨m, rfl, rfl⟩ | ⟨b, rfl, rfl⟩ |
    ⟨b, rfl, rfl⟩ | ⟨q, rfl, rfl⟩ | ⟨q, k, rfl, rfl⟩ | ⟨c, rfl, rfl⟩ | ⟨c, rfl, rfl⟩ | ⟨c, rfl, rfl⟩ |
    ⟨a, rfl, rfl, hrow⟩
  on_goal -1 =>
    exact ⟨by omega, _, fun s => congrArg _ (s.ctlWrite_of_row a.toNat w hrow)⟩
  all_goals refine ⟨?_, _, fun _ => rfl⟩
  all_goals simp only [Reg.ALM_RATE, Reg.ALM_SLEW, Reg.ALM_BM_CTL_ARM, Reg.ALM_BM_PERIOD, Reg.ALM_BM_SHRINK_S,
    Reg.ALM_BM_LAGLIM, Reg.MGT_MBX_CTL_EN, Reg.MGT_MBX_REQ_WR, Reg.MGT_BOOT_PCIE_LEN, Reg.MGT_HCM_LOCK,
    Reg.MGT_OTP_REVOKE_GO, Reg.MGT_DEVNUM, Reg.MGT_WDOG_KICK, Reg.MGT_HART_START, Reg.CC_BIST_GO, Reg.SOL_BIST_GO,
    Reg.MGT_HB_CFG_REARM, Reg.CC_TALLY_CTL_SNAP, Reg.FLT_CTL_EN, Reg.BGW_SRC_CFG_EN, Reg.BGW_MR_CTL_EN,
    Reg.BGW_TX_GO, Reg.BGW_KEYPROG_GO, Reg.MC_TRAIN_CTL_GO, Reg.MGT_HBM_CTL_COMMIT, Reg.MC_TG_CTL_START,
    Reg.MC_INJ_ARM, Reg.ING_EVR_CTL_EN, Reg.ING_STR_CTL_UNBIND, Reg.ALM_STEP_FRAC, Reg.SOL_LRN_SEED_ROW,
    Reg.WVL_CTL_GO, Reg.WVL_PIPE_CTL_UNLOAD, Reg.ING_STR_CTL_BIND, Reg.MGT_STW_CTL_RESTART, Reg.ETH_EP,
    Reg.PWR_DOM_REQ_STATE, Reg.PWR_QPLL_CTL_RELOCK, Reg.PWR_DEV_CTL_SLEEP, Reg.QSK_ROUTE_CTL_DEFAULT,
    Reg.QSK_TOPO_NX, Reg.QSK_L_CTL_EN, Reg.ING_STR_RING_RD, Reg.MGT_BAR_ARRIVE, Reg.MGT_BAR_EXPECT,
    Reg.MGT_MQ_CFG_ENABLE, Reg.MGT_MQ_PUSH, Reg.CC_VT_START_GO, Reg.CC_VT_CTL_KILL, Reg.CC_VT_CTL_FREE, glOff_lt,
    loopFld_off_lt, lrnFld_off_lt, ringRegs_rxWr_off_lt, ringRegs_txWr_off_lt, clkN_off_lt, rotationOff_lt,
    windowOff_lt]
  all_goals omega

/-! ### What the gate does with a write that does not take effect -/

/-- The address that a refused write leaves in MGT_HOST_DENY.ADDR (R502). -/
def denyAt (off : Nat) (h : Half) : Nat := 0x3F00000000 + off + (if h = .hi then 4 else 0)

theorem denyAt_lt {off : Nat} (h : Half) (ho : off < 0x10000000) : denyAt off h < 2 ^ 48 := by
  unfold denyAt
  split <;> omega

theorem satN_eq_min (w n : Nat) : satN w n = min (2 ^ w - 1) n := by
  have := Nat.two_pow_pos w
  unfold satN
  split <;> omega

/-- A counter that saturates. -/
theorem State.getF_addSat (s : State) (f : Fld) (n : Nat) (h : f.lo + f.w ≤ 64) :
    (s.addSat f n).getF f = min (2 ^ f.w - 1) (s.getF f + n) := by
  have := Nat.two_pow_pos f.w
  rw [State.addSat, State.getF_setF _ _ _ h, satN_eq_min, Nat.mod_eq_of_lt (by omega)]

theorem apart_denyCount_denyAddr : Apart Reg.MGT_HOST_DENY_COUNT Reg.MGT_HOST_DENY_ADDR := by
  simp [Apart, Reg.MGT_HOST_DENY_COUNT, Reg.MGT_HOST_DENY_ADDR]

theorem apart_denyAddr_denyCount : Apart Reg.MGT_HOST_DENY_ADDR Reg.MGT_HOST_DENY_COUNT := by
  simp [Apart, Reg.MGT_HOST_DENY_COUNT, Reg.MGT_HOST_DENY_ADDR]

/-- The registers of a refused write: its count, and its address where the capture is armed (R502). -/
def State.denyRegs (s : State) (h : Half) (off : Nat) : State :=
  if s.denyArmed then (s.addSat Reg.MGT_HOST_DENY_COUNT 1).setF Reg.MGT_HOST_DENY_ADDR (denyAt off h)
  else s.addSat Reg.MGT_HOST_DENY_COUNT 1

/-- A refused write changes those registers, disarms the capture and answers, and does nothing else. -/
theorem State.deny_eq (s : State) (a : Agent) (h : Half) (off : Nat) :
    s.deny a h off = ((s.setRegs (s.denyRegs h off).regs).setDenyArmed false).answer
      (if a = .pcie then .ok else .accessFault) 0#64 := by
  rw [State.denyRegs]
  by_cases harm : s.denyArmed = true
  · rw [if_pos harm, State.deny, if_pos (show (s.addSat Reg.MGT_HOST_DENY_COUNT 1).denyArmed = true from harm)]
    rfl
  · rw [if_neg harm, State.deny, if_neg (show ¬ (s.addSat Reg.MGT_HOST_DENY_COUNT 1).denyArmed = true from harm)]
    rw [Bool.not_eq_true] at harm
    rw [← harm]
    rfl

theorem State.denyRegs_count (s : State) (h : Half) (off : Nat) :
    (s.denyRegs h off).getF Reg.MGT_HOST_DENY_COUNT = min 65535 (s.getF Reg.MGT_HOST_DENY_COUNT + 1) := by
  have hcount := s.getF_addSat Reg.MGT_HOST_DENY_COUNT 1 (by decide)
  rw [State.denyRegs]
  split
  · exact (State.getF_setF_ne _ _ _ _ (by decide) apart_denyAddr_denyCount).trans hcount
  · exact hcount

theorem State.denyRegs_addr_armed {s : State} (h : Half) {off : Nat} (ho : off < 0x10000000)
    (harm : s.denyArmed = true) : (s.denyRegs h off).getF Reg.MGT_HOST_DENY_ADDR = denyAt off h := by
  rw [State.denyRegs, if_pos harm, State.getF_setF _ _ _ (by decide)]
  exact Nat.mod_eq_of_lt (denyAt_lt h ho)

theorem State.denyRegs_addr_held {s : State} (h : Half) (off : Nat) (harm : s.denyArmed = false) :
    (s.denyRegs h off).getF Reg.MGT_HOST_DENY_ADDR = s.getF Reg.MGT_HOST_DENY_ADDR := by
  rw [State.denyRegs, harm, if_neg Bool.false_ne_true]
  exact State.getF_setF_ne _ _ _ _ (by decide) apart_denyCount_denyAddr

theorem State.denyRegs_sameRegs (s : State) (h : Half) (off : Nat) :
    SameRegs [Reg.MGT_HOST_DENY_COUNT, Reg.MGT_HOST_DENY_ADDR] s (s.denyRegs h off) := by
  have hsame : SameRegs [Reg.MGT_HOST_DENY_COUNT, Reg.MGT_HOST_DENY_ADDR] s (s.addSat Reg.MGT_HOST_DENY_COUNT 1) :=
    (SameRegs.refl _ s).setF _ (by simp) (by decide)
  rw [State.denyRegs]
  split
  · exact hsame.setF _ (by simp) (by decide)
  · exact hsame

/-- Fields read from the register words alone. -/
theorem State.getF_of_regs_eq {s t : State} (h : t.regs = s.regs) (f : Fld) : t.getF f = s.getF f := by
  rw [State.getF, State.word, h]
  rfl

/-! ### Reads of control space -/

/-- An offset of control space lies in its window of the address map (R542). -/
theorem State.place_ctl (s : State) {o : Nat} (h : o < 0x4000000) : s.place (0x3F00000000 + o) = .ctl o := by
  unfold State.place
  repeat rw [if_neg (by omega)]
  rw [if_pos (by omega), Nat.add_sub_cancel_left]

/-- The blocks of an access begin within it. -/
theorem mem_blocksOf {a n : Nat} (hn : 1 ≤ n) {b : Nat × Nat × Nat} (h : b ∈ blocksOf a n) :
    a ≤ b.1 ∧ b.1 < a + n := by
  simp only [blocksOf, List.mem_map, List.mem_range] at h
  obtain ⟨i, hi, rfl⟩ := h
  simp only
  omega

/-- No byte of control space lies outside the address map. -/
theorem State.offMap_ctl (s : State) {off n : Nat} (hn : 1 ≤ n) (h : off + n ≤ 0x4000000) :
    s.offMap (0x3F00000000 + off) n = false := by
  simp only [State.offMap, List.any_eq_false, decide_eq_true_eq]
  intro b hb
  obtain ⟨hlo, hhi⟩ := mem_blocksOf hn hb
  have hplace := s.place_ctl (o := b.1 - 0x3F00000000) (by omega)
  rw [Nat.add_sub_cancel' (by omega)] at hplace
  rw [hplace]
  exact Place.noConfusion

/-- A read of the device's own control space is answered OK, whichever agent asks (R502). -/
theorem State.svcAccess_ctl_read (s : State) (a : Agent) {off : Nat} {n : Fin 4097} (seen : EccSeen) (hn : 1 ≤ n.val)
    (h : off + n.val ≤ 0x4000000) :
    (s.svcAccess a (s.getF Reg.MGT_DEVNUM) (0x3F00000000 + off) (.read n) seen).resp.any (fun r => r.status == .ok) =
      true := by
  have hoff := s.offMap_ctl hn h
  have hctl : s.ctlOff (0x3F00000000 + off) = some off := by
    rw [State.ctlOff, s.place_ctl (by omega)]
  simp [State.svcAccess, svcSize, hoff, hctl]

theorem exec_serviceAccess_plain (a : Agent) (addr : BitVec 54) (op : SvcOp) (seen : EccSeen) (s : State) :
    exec (.serviceAccess a addr (.plain op) seen) s =
      .next (s.svcAccess a (addr.toNat / 2 ^ 48) (addr.toNat % 2 ^ 48) op seen) := rfl

/-- Settles O58: each such command is the gate of its register, and the gate refuses, discards or takes the write. -/
theorem refusedAndDeadWrites : Obligations.RefusedAndDeadWrites := by
  unfold Obligations.RefusedAndDeadWrites
  refine ⟨fun s w off i hi hg => ?_, fun s w off i hi hg hl => ?_, fun s a off n seen hn hoff hdev => ?_⟩
  · obtain ⟨hlt, eff, hexec⟩ := hi.gatesWrite
    have hf := State.getF_of_regs_eq (s := s.denyRegs w.half off)
      (t := s.deny w.agent w.half off) (by rw [State.deny_eq]; rfl)
    refine Does.of_next ((hexec s).trans (congrArg _ (s.gated_denied _ _ _ eff hg)))
      ⟨(hf _).trans (s.denyRegs_count _ _), fun harm => (hf _).trans (State.denyRegs_addr_armed _ hlt harm),
        fun harm => (hf _).trans (State.denyRegs_addr_held _ _ harm), rfl,
        fun g hg => (hf g).trans (s.denyRegs_sameRegs _ _ g hg), ?_⟩
    rw [State.deny_eq]
    rfl
  · obtain ⟨-, eff, hexec⟩ := hi.gatesWrite
    exact (hexec s).trans (congrArg _ (s.gated_dead _ _ _ eff hg hl))
  · have haddr : (BitVec.ofNat 54 (s.getF Reg.MGT_DEVNUM * 2 ^ 48 + 0x3F00000000 + off.val)).toNat =
        s.getF Reg.MGT_DEVNUM * 2 ^ 48 + (0x3F00000000 + off.val) := by
      rw [BitVec.toNat_ofNat, Nat.mod_eq_of_lt (by omega), Nat.add_assoc]
    refine Does.of_next (t := s.svcAccess a (s.getF Reg.MGT_DEVNUM) (0x3F00000000 + off.val) (.read n) seen) ?_
      (s.svcAccess_ctl_read a seen hn hoff)
    have hhi : (s.getF Reg.MGT_DEVNUM * 2 ^ 48 + (0x3F00000000 + off.val)) / 2 ^ 48 = s.getF Reg.MGT_DEVNUM := by omega
    have hlo : (s.getF Reg.MGT_DEVNUM * 2 ^ 48 + (0x3F00000000 + off.val)) % 2 ^ 48 = 0x3F00000000 + off.val := by omega
    rw [exec_serviceAccess_plain, haddr, hhi, hlo]

end Sys2Proof.Machine

/-! ## DEVICE_RESET of a machine whose register list names a register twice

Refutes MailboxServices. A read of the register list takes the first entry of an offset, and a device reset, which writes what it
keeps entry by entry, keeps the last one. The two agree in the canonical form (log entry 3), but the statement has no such
premise, so its clause on DEVICE_RESET fails of ALM_AON_PERIOD where the list holds two entries for it. -/

namespace Sys2Proof.Machine

/-! ### Taking up a request -/

/-- Well-formed requests are not bad. -/
theorem reqBad_of_fields {q : List Byte} (hlen : 60 ≤ q.length) (hcrc : fieldLe q 60 4 = crc32c (q.take 60))
    (hforce : fieldLe q 3 1 < 2) (h4 : fieldLe q 4 4 = 0) (h56 : fieldLe q 56 4 = 0) : reqBad q = false := by
  have hslice : sliceB q 0 60 = q.take 60 := by simp [sliceB, hlen]
  have hdiv : fieldLe q 3 1 / 2 = 0 := by omega
  simp [reqBad, hslice, hcrc, hdiv, h4, h56]

theorem State.mbxHead_length (s : State) (c : Nat) : (s.mbxHead c).length = 64 := by
  simp only [State.mbxHead, State.peekN, sliceB, List.length_append, List.length_replicate, List.length_take]
  omega

/-- A request that asks for an operation of Table 20-7 is read, and its operation runs. -/
theorem State.serve_of_mbxAsks {s : State} {c op : Nat} (body : List Byte → State → State)
    (h : s.mbxAsks c op = true) (hop : op ∈ mbxOps) : s.serve c op body = body (s.mbxHead c) (s.meetHead c) := by
  simp only [State.mbxAsks, State.mbxServed, Bool.and_eq_true, decide_eq_true_eq, Option.isNone_iff_eq_none] at h
  obtain ⟨⟨⟨⟨⟨⟨⟨⟨⟨⟨hserving, hwaits⟩, hroom⟩, hturn⟩, -⟩, hjob⟩, hcrc⟩, hforce⟩, h4⟩, h56⟩, hreq⟩ := h
  have hbad := reqBad_of_fields (by rw [s.mbxHead_length]; omega) hcrc hforce h4 h56
  simp [State.serve, State.mbxReady, reqOp, hserving, hwaits, hroom, hturn, hjob, hbad, hop, hreq]

/-- DEVICE_RESET while every beat machine is IDLE resets the device (R523). -/
theorem exec_mbxDeviceReset_idle {s : State} {c : Fin 2} (h : s.mbxAsks c 0x32 = true)
    (hidle : (s.meetHead c).allIdle = true) :
    exec (.mbxDeviceReset c) s = .next ((s.meetHead c).deviceReset 2) := by
  show execMbxDeviceReset c s = _
  rw [execMbxDeviceReset, State.serve_of_mbxAsks _ h (by decide), hidle]
  rfl

/-! ### The machine with two entries for ALM_AON_PERIOD -/

/-- A request for DEVICE_RESET with FORCE 0 (Table 20-6). -/
def resetRequest : List Byte :=
  let body := leBytes 2 1 ++ leBytes 1 0x32 ++ List.replicate 57 0
  body ++ leBytes 4 (crc32c body)

/-- The register fields of a machine that serves channel 0, with one request waiting in host-core memory and every beat machine
IDLE. -/
def servingFields : List (Fld × Nat) :=
  [(Reg.MGT_BOOT_STAT_PHASE, 0x16), (Reg.PWR_DOM_STAT_STATE 37, 3), (Reg.MGT_MBX_CTL_EN 0, 1), (Reg.MGT_MBX_CTL_LOG2 0, 4),
   (Reg.MGT_MBX_REQBASE 0, hostKey 0), (Reg.MGT_MBX_RSPBASE 0, hostKey 0x10000), (Reg.MGT_MBX_REQ_WR 0, 1)]

/-- Those registers, with two entries for ALM_AON_PERIOD behind them: 1, which a read gives, and 2. -/
def twoPeriods : State :=
  let s := servingFields.foldl (fun s x => s.setF x.1 x.2) State.reset
  ((s.setRegs (s.regs ++ [(Reg.ALM_AON_PERIOD.off, 1#64), (Reg.ALM_AON_PERIOD.off, 2#64)])).setStw
    { s.stw with run := .firmware }).wrBytes (hostKey 0) resetRequest

theorem twoPeriods_asks : twoPeriods.mbxAsks (0 : Fin 2) 0x32 = true := by decide +kernel

theorem twoPeriods_allIdle : (twoPeriods.meetHead (0 : Fin 2)).allIdle = true := by decide +kernel

/-- Before the reset ALM_AON_PERIOD reads 1, and after it 2. -/
theorem twoPeriods_aonPeriod :
    (twoPeriods.meetHead (0 : Fin 2)).getF Reg.ALM_AON_PERIOD = 1 ∧
      ((twoPeriods.meetHead (0 : Fin 2)).deviceReset 2).getF Reg.ALM_AON_PERIOD = 2 := by decide +kernel

/-- Refutes O50: DEVICE_RESET on channel 0 of `twoPeriods` changes ALM_AON_PERIOD, which a device reset is to keep. -/
theorem not_mailboxServices : ¬ Obligations.MailboxServices := by
  unfold Obligations.MailboxServices
  rintro ⟨h, -⟩
  obtain ⟨-, -, -, -, -, -, -, -, -, -, hreset, -⟩ := h twoPeriods 0
  obtain ⟨t, ht, hkept⟩ := (hreset twoPeriods_asks).1 (Or.inl twoPeriods_allIdle)
  rw [exec_mbxDeviceReset_idle twoPeriods_asks twoPeriods_allIdle] at ht
  obtain rfl := Host.Outcome.next.inj ht
  obtain ⟨-, -, -, -, -, -, hperiod, -⟩ := hkept
  rw [twoPeriods_aonPeriod.1, twoPeriods_aonPeriod.2] at hperiod
  exact absurd hperiod (by decide)

end Sys2Proof.Machine

/-! ## The gPTP servo, the watchdog and the steward restart

Settles FirmwareTimeAndWatchdog. A restart answers the mailbox and applies every parameter, and a servo update may step the
Almanac, which fires what it passes over. What all of that leaves alone is one relation, `Spares`, kept by each operation in the
order of the model's files; beside it stand the entry that an event puts in a response ring and one lemma per outcome of the
commands. -/

namespace Sys2Proof.Machine

/-! ### What accesses, records, interrupts and launches leave alone -/

/-- The fields that the statement reads after such work. -/
def Standing (g : Fld) : Prop :=
  g ∈ [Reg.MGT_BOOT_STAT_PHASE, Reg.MGT_WDOG_EXPIRED, Reg.MGT_HOST_WMASK, Reg.BGW_TIME_CFG_LOCKED] ∨
  (∃ n < 4, g = Reg.ALM_BM_STAT_STATE n ∨ g = Reg.WVL_PIPE_STATE n) ∨ ∃ x < 57, g = Reg.PWR_DOM_STAT_STATE x

/-- The registers of the two mailbox channels (R511). -/
abbrev OfMailbox (g : Fld) : Prop := 0x800 ≤ g.off ∧ g.off < 0x880

/-- No register of either kind lies at an offset. -/
abbrev Elsewhere (o : Nat) : Prop :=
  o = 0x60 ∨ o = 0x70 ∨ (0x8000 ≤ o ∧ o < 0x100100) ∨ (0x100100 ≤ o ∧ o < 0x100200 ∧ o % 0x40 ≠ 0x30) ∨
  (0x100200 ≤ o ∧ o < 0x201000) ∨ (0x202000 ≤ o ∧ o < 0x400000) ∨ (0x500000 ≤ o ∧ o < 0x800000) ∨
  0x1000000 ≤ o

theorem Standing.off_ne {g : Fld} (hg : Standing g) {o : Nat} (ho : Elsewhere o) : g.off ≠ o := by
  unfold Elsewhere at ho
  rcases hg with hg | ⟨n, hn, rfl | rfl⟩ | ⟨x, hx, rfl⟩
  · fin_cases hg <;>
      simp only [Reg.MGT_BOOT_STAT_PHASE, Reg.MGT_WDOG_EXPIRED, Reg.MGT_HOST_WMASK, Reg.BGW_TIME_CFG_LOCKED] <;> omega
  · simp only [Reg.ALM_BM_STAT_STATE]; omega
  · simp only [Reg.WVL_PIPE_STATE]; omega
  · simp only [Reg.PWR_DOM_STAT_STATE]; omega

theorem OfMailbox.off_ne {g : Fld} (hg : OfMailbox g) {o : Nat} (ho : Elsewhere o) : g.off ≠ o := by
  unfold Elsewhere at ho
  unfold OfMailbox at hg
  omega

/-- A standing field shares no bit with TRANS of any domain number. -/
theorem Standing.apart_trans {g : Fld} (hg : Standing g) (c : Nat) : Apart (Reg.PWR_DOM_STAT_TRANS c) g := by
  unfold Apart
  rcases hg with hg | ⟨n, hn, rfl | rfl⟩ | ⟨x, hx, rfl⟩
  · fin_cases hg <;> simp only [Reg.MGT_BOOT_STAT_PHASE, Reg.MGT_WDOG_EXPIRED, Reg.MGT_HOST_WMASK,
      Reg.BGW_TIME_CFG_LOCKED, Reg.PWR_DOM_STAT_TRANS] <;> omega
  · simp only [Reg.ALM_BM_STAT_STATE, Reg.PWR_DOM_STAT_TRANS]; omega
  · simp only [Reg.WVL_PIPE_STATE, Reg.PWR_DOM_STAT_TRANS]; omega
  · simp only [Reg.PWR_DOM_STAT_STATE, Reg.PWR_DOM_STAT_TRANS]; omega

/-- A standing field is no mailbox register. -/
theorem Standing.apart_mailbox {f g : Fld} (hg : Standing g) (hf : OfMailbox f) : Apart f g := by
  refine Or.inl fun h => ?_
  unfold OfMailbox at hf
  rw [h] at hf
  rcases hg with hg | ⟨n, hn, rfl | rfl⟩ | ⟨x, hx, rfl⟩
  · fin_cases hg <;> simp [Reg.MGT_BOOT_STAT_PHASE, Reg.MGT_WDOG_EXPIRED, Reg.MGT_HOST_WMASK,
      Reg.BGW_TIME_CFG_LOCKED] at hf
  · simp only [Reg.ALM_BM_STAT_STATE] at hf; omega
  · simp only [Reg.WVL_PIPE_STATE] at hf; omega
  · simp only [Reg.PWR_DOM_STAT_STATE] at hf; omega

/-- Firmware's own state, without its mailbox bookkeeping and the MSI-X table. -/
def Stw.firm (x : Stw) : Stw := { x with msix := [], job := [], lost := [], turn := 0 }

/-- A state differs from another in nothing that the statement reads of the Almanac, the loader, the gateway, firmware and the
standing fields; with `q` memory and the mailbox are as before too. -/
structure Spares (q : Prop) (s t : State) : Prop where
  alm : t.alm = s.alm
  bgw : t.bgw = s.bgw
  load : t.load = s.load
  firm : t.stw.firm = s.stw.firm
  regs : ∀ g, Standing g → t.getF g = s.getF g
  mem : q → t.mem = s.mem
  lost : q → t.stw.lost = s.stw.lost
  mbx : q → ∀ g, OfMailbox g → t.getF g = s.getF g

namespace Spares

variable {q : Prop} {s t u : State}

theorem refl (q : Prop) (s : State) : Spares q s s :=
  ⟨rfl, rfl, rfl, rfl, fun _ _ => rfl, fun _ => rfl, fun _ => rfl, fun _ _ _ => rfl⟩

theorem trans (h : Spares q s t) (h' : Spares q t u) : Spares q s u :=
  ⟨h'.alm.trans h.alm, h'.bgw.trans h.bgw, h'.load.trans h.load, h'.firm.trans h.firm,
    fun g hg => (h'.regs g hg).trans (h.regs g hg), fun hq => (h'.mem hq).trans (h.mem hq),
    fun hq => (h'.lost hq).trans (h.lost hq), fun hq g hg => (h'.mbx hq g hg).trans (h.mbx hq g hg)⟩

/-- A field of firmware's state that `Stw.firm` keeps. -/
theorem firm_eq {α : Type} (h : Spares q s t) (f : Stw → α) (hf : ∀ x, f x.firm = f x) :
    f t.stw = f s.stw := (hf _).symm.trans ((congrArg f h.firm).trans (hf _))

theorem weaken (h : Spares q s t) : Spares False s t :=
  ⟨h.alm, h.bgw, h.load, h.firm, h.regs, False.elim, False.elim, False.elim⟩

/-- An update of other parts of the state. -/
theorem same (h : Spares q s t) (hu : (u.alm, u.bgw, u.load, u.stw.firm, u.stw.lost, u.regs, u.mem) =
    (t.alm, t.bgw, t.load, t.stw.firm, t.stw.lost, t.regs, t.mem)) : Spares q s u := by
  simp only [Prod.mk.injEq] at hu
  obtain ⟨halm, hbgw, hload, hfirm, hlost, hregs, hmem⟩ := hu
  exact ⟨halm.trans h.alm, hbgw.trans h.bgw, hload.trans h.load, hfirm.trans h.firm,
    fun g hg => (State.getF_of_regs_eq hregs g).trans (h.regs g hg), fun hq => hmem.trans (h.mem hq),
    fun hq => hlost.trans (h.lost hq), fun hq g hg => (State.getF_of_regs_eq hregs g).trans (h.mbx hq g hg)⟩

/-- An update of memory or of the mailbox bookkeeping. -/
theorem loose (h : Spares False s t) (hu : (u.alm, u.bgw, u.load, u.stw.firm, u.regs) =
    (t.alm, t.bgw, t.load, t.stw.firm, t.regs)) : Spares False s u := by
  simp only [Prod.mk.injEq] at hu
  obtain ⟨halm, hbgw, hload, hfirm, hregs⟩ := hu
  exact ⟨halm.trans h.alm, hbgw.trans h.bgw, hload.trans h.load, hfirm.trans h.firm,
    fun g hg => (State.getF_of_regs_eq hregs g).trans (h.regs g hg), False.elim, False.elim, False.elim⟩

theorem setWord (h : Spares q s t) {o : Nat} {v : W64} (ho : Elsewhere o) : Spares q s (t.setWord o v) where
  alm := h.alm
  bgw := h.bgw
  load := h.load
  firm := h.firm
  regs g hg := by rw [State.getF, State.word_setWord_ne _ _ _ _ (hg.off_ne ho)]; exact h.regs g hg
  mem := h.mem
  lost := h.lost
  mbx hq g hg := by rw [State.getF, State.word_setWord_ne _ _ _ _ (hg.off_ne ho)]; exact h.mbx hq g hg

theorem setF (h : Spares q s t) {f : Fld} {v : Nat} (ho : Elsewhere f.off) : Spares q s (t.setF f v) := h.setWord ho

theorem addF (h : Spares q s t) {f : Fld} {n : Nat} (ho : Elsewhere f.off) : Spares q s (t.addF f n) := h.setWord ho

theorem addSat (h : Spares q s t) {f : Fld} {n : Nat} (ho : Elsewhere f.off) : Spares q s (t.addSat f n) := h.setWord ho

theorem freeNext (h : Spares q s t) : Spares q s t.freeNext := h.same (by rfl)

/-- A write of one field that shares no bit with those spared. -/
theorem setF_apart (h : Spares q s t) {f : Fld} {v : Nat} (hw : f.lo + f.w ≤ 64) (hs : ∀ g, Standing g → Apart f g)
    (hm : q → ∀ g, OfMailbox g → Apart f g) : Spares q s (t.setF f v) where
  alm := h.alm
  bgw := h.bgw
  load := h.load
  firm := h.firm
  regs g hg := (State.getF_setF_ne t f g v hw (hs g hg)).trans (h.regs g hg)
  mem := h.mem
  lost := h.lost
  mbx hq g hg := (State.getF_setF_ne t f g v hw (hm hq g hg)).trans (h.mbx hq g hg)

theorem ite {c : Prop} [Decidable c] {a b : State} (ha : Spares q s a) (hb : Spares q s b) :
    Spares q s (if c then a else b) := by
  split
  · exact ha
  · exact hb

theorem iteFst {α : Type} {c : Prop} [Decidable c] {a b : State × α} (ha : Spares q s a.1) (hb : Spares q s b.1) :
    Spares q s (if c then a else b).1 := by
  split
  · exact ha
  · exact hb

theorem fst {α : Type} {x : α} (h : Spares q s t) : Spares q s (t, x).1 := h

theorem foldlMem {α : Type} {f : State → α → State} {l : List α} (h : Spares q s t)
    (hf : ∀ u, ∀ x ∈ l, Spares q s u → Spares q s (f u x)) : Spares q s (l.foldl f t) := by
  induction l generalizing t with
  | nil => exact h
  | cons x l ih => exact ih (hf t x (by simp) h) fun u y hy => hf u y (by simp [hy])

theorem foldl {α : Type} {f : State → α → State} {l : List α} (h : Spares q s t)
    (hf : ∀ u x, Spares q s u → Spares q s (f u x)) : Spares q s (l.foldl f t) :=
  h.foldlMem fun u x _ => hf u x

theorem foldlFst {α β : Type} {f : State × β → α → State × β} {l : List α} {p : State × β} (h : Spares q s p.1)
    (hf : ∀ p x, Spares q s p.1 → Spares q s (f p x).1) : Spares q s (l.foldl f p).1 := by
  induction l generalizing p with
  | nil => exact h
  | cons x l ih => exact ih (hf p x h)

/-! ### Interrupts and records -/

theorem sendMsix (h : Spares q s t) (v : Nat) : Spares q s (t.sendMsix v) := .ite h (.ite (h.same (by rfl)) (h.same (by rfl)))

theorem irqSource (h : Spares q s t) (src : Nat) : Spares q s (t.irqSource src) := .ite (h.same (by rfl)) (.ite (h.sendMsix _) h)

theorem irqSteward (h : Spares q s t) (cause : Nat) : Spares q s (t.irqSteward cause) := h.same (by rfl)

theorem fltAssert (h : Spares q s t) (d : Nat) : Spares q s (t.fltAssert d) := by
  unfold State.fltAssert
  exact .ite (irqSteward (h.same (by rfl)) _) (.ite (irqSource (h.same (by rfl)) _) (sendMsix (h.same (by rfl)) _))

theorem fltLevel (h : Spares q s t) (d : Nat) : Spares q s (t.fltLevel d) := by
  unfold State.fltLevel
  exact .ite (.ite (h.same (by rfl)) (.ite (h.same (by rfl)) (h.same (by rfl)))) (.ite (h.fltAssert d) h)

theorem elsewhere_lost {d : Nat} (hd : d < 3) : Elsewhere (Reg.FLT_IRQ_STAT_LOST d).off := by
  simp only [Elsewhere, Reg.FLT_IRQ_STAT_LOST]; omega

theorem fltLost1 (h : Spares q s t) {d : Nat} (hd : d < 3) : Spares q s (t.fltSpecial1 Reg.FLT_IRQ_STAT_LOST d) := by
  have h1 : Spares q s (t.setF (Reg.FLT_IRQ_STAT_LOST d) 1) := h.setF (elsewhere_lost hd)
  exact .ite h1 (h1.fltAssert d)

theorem fltLost (h : Spares q s t) : Spares q s (t.fltSpecial Reg.FLT_IRQ_STAT_LOST) :=
  ((h.fltLost1 (by decide)).fltLost1 (by decide)).fltLost1 (by decide)

theorem lastDevice (h : Spares q s t) (r : FaultRec) : Spares q s (t.lastDevice r) :=
  h.foldlMem fun u i hi hu => hu.setF (by
    have := List.mem_range.mp hi
    simp only [Elsewhere, Reg.FLT_LAST_DEVICE]; omega)

theorem raise (h : Spares q s t) {r : FaultRec} (hc : r.cls ≤ 4) : Spares q s (t.raise r) := by
  have h1 : Spares q s (if r.cls = 4 then t.lastDevice { r with devnum := t.getF Reg.MGT_DEVNUM, summary := none } else t) :=
    .ite (h.lastDevice _) h
  have ho : Elsewhere (Reg.FLT_LOST_C r.cls).off := by simp only [Elsewhere, Reg.FLT_LOST_C]; omega
  exact .ite (h1.same (by rfl)) (fltLost ((h1.setF ho).same (by rfl)))

theorem report (h : Spares q s t) {cls code unit : Nat} {detail : List (Nat × Nat)} (hc : cls ≤ 4) :
    Spares q s (t.report cls code unit detail) := h.raise hc

end Spares

end Sys2Proof.Machine

/-! ### Accesses to memory

What an access does to memory itself, to check states and to the units that wait for it is not told here: only that all of it
spares the rest. -/

namespace Sys2Proof.Machine.Spares

variable {q : Prop} {s t : State}

theorem elsewhere_core {o : Nat} (ho : 0x1000000 ≤ o) : Elsewhere o := by simp only [Elsewhere]; omega

theorem wrBytes (h : Spares False s t) (a : Nat) (bs : List Byte) : Spares False s (t.wrBytes a bs) := by
  induction bs generalizing t a with
  | nil => exact h
  | cons b bs ih => exact ih (h.loose (by rfl)) (a + 1)

theorem setEccAt (h : Spares False s t) (a : Nat) (e : EccState) : Spares False s (t.setEccAt a e) := h.same (by rfl)

theorem setWcbWaits (h : Spares False s t) (m : Nat) (ws : List WcbWait) : Spares False s (t.setWcbWaits m ws) := h.same (by rfl)

theorem putReq (h : Spares q s t) (id : Nat) (r : ReqSt) : Spares q s (t.putReq id r) := h.same (by rfl)

theorem hostPut (h : Spares False s t) (off : Nat) (bs : List Byte) : Spares False s (t.hostPut off bs) :=
  wrBytes (h.same (by rfl)) _ _

/-- Tally counter 14 of a core counts a corrected word, which is reported. -/
theorem corrected (h : Spares False s t) (c code unit : Nat) (detail : List (Nat × Nat)) :
    Spares False s ((t.addF (Reg.CC_TALLY c 14) 1).report 0 code unit detail) :=
  (h.setF (elsewhere_core (by simp only [Reg.CC_TALLY]; omega)) : Spares False s (t.addF (Reg.CC_TALLY c 14) 1)).report
    (by decide)

/-! Words of a channel -/

theorem eccCount (h : Spares False s t) (g off kind : Nat) : Spares False s (t.eccCount g off kind) := by
  have hoff : ∀ f : Fld, f ∈ [Reg.MC_ECC_CNT0_CORRECTED (g / 16) (g % 16), Reg.MC_ECC_CNT0_UNCORRECTABLE (g / 16) (g % 16),
      Reg.MC_ECC_CNT1_POISON_READ (g / 16) (g % 16), Reg.MC_ECC_CNT1_POISON_WRITTEN (g / 16) (g % 16),
      Reg.MC_ECC_CNT2_RETRY_RECOVERED (g / 16) (g % 16), Reg.MC_ECC_LAST_OFFSET (g / 16) (g % 16),
      Reg.MC_ECC_LAST_KIND (g / 16) (g % 16)] → Elsewhere f.off := by
    intro f hf
    refine elsewhere_core ?_
    fin_cases hf <;> simp only [Reg.MC_ECC_CNT0_CORRECTED, Reg.MC_ECC_CNT0_UNCORRECTABLE, Reg.MC_ECC_CNT1_POISON_READ,
      Reg.MC_ECC_CNT1_POISON_WRITTEN, Reg.MC_ECC_CNT2_RETRY_RECOVERED, Reg.MC_ECC_LAST_OFFSET, Reg.MC_ECC_LAST_KIND] <;> omega
  unfold State.eccCount
  refine setF (setF (setF h (hoff _ ?_)) (hoff _ (by simp))) (hoff _ (by simp))
  split <;> simp

theorem inject (h : Spares False s t) (g off : Nat) : Spares False s (t.inject g off) := by
  have h1 : Spares False s (t.setF (Reg.MC_INJ_ARM (g / 16)) 0) :=
    h.setF (elsewhere_core (by simp only [Reg.MC_INJ_ARM]; omega))
  unfold State.inject
  dsimp only
  exact .ite (.ite h1 (.ite (h1.setEccAt _ _) (setEccAt (h1.foldl fun _ _ hu => (hu.loose (by rfl))) _ _))) h

theorem hbmWriteFull (h : Spares False s t) (g off : Nat) (bs : List Byte) : Spares False s (t.hbmWriteFull g off bs) :=
  inject (setEccAt (h.wrBytes _ _) _ _) _ _

/-- A word of a channel is counted and reported. -/
theorem counted (h : Spares False s t) (g off kind : Nat) {cls code unit : Nat} {detail : List (Nat × Nat)}
    (hc : cls ≤ 4) : Spares False s ((t.eccCount g off kind).report cls code unit detail) :=
  (h.eccCount g off kind).report hc

theorem hbmReadAs (h : Spares False s t) (g off req tag : Nat) (bs : List Byte) (e : EccState) (seen : EccSeen)
    (retry : Option EccSeen) : Spares False s (t.hbmReadAs g off req tag bs e seen retry).1 := by
  unfold State.hbmReadAs
  dsimp only
  split
  · exact h
  · exact .fst (h.counted _ _ _ (by decide))
  · exact .fst (h.eccCount _ _ _)
  · split
    · exact .fst (h.counted _ _ _ (by decide))
    · exact .fst ((h.counted _ _ _ (by decide)).counted _ _ _ (by decide))
    · exact .fst (h.counted _ _ _ (by decide))

theorem hbmReadStored (h : Spares False s t) (g off req : Nat) (seen : EccSeen) :
    Spares False s (t.hbmReadStored g off req seen).1 :=
  .iteFst (h.freeNext.hbmReadAs _ _ _ _ _ _ _ _) (h.hbmReadAs _ _ _ _ _ _ _ _)

theorem hbmMerge (h : Spares False s t) (g off : Nat) (bs : List (Nat × Byte)) (seen retry : EccSeen) :
    Spares False s (t.hbmMerge g off bs seen retry).1 := by
  have put : ∀ {u}, Spares False s u →
      Spares False s (bs.foldl (fun x e => x.wrByte (hbmKey g (off / 32 * 32) + e.1) e.2) u) :=
    fun hu => hu.foldl fun _ _ hv => hv.loose (by rfl)
  have fix : ∀ {u}, Spares False s u →
      Spares False s ((u.eccCount g off 1).report 0 0x201 (uChan g) [(30, off / 32 * 32), (16, 0)]) :=
    fun hu => hu.counted _ _ _ (by decide)
  have bad : ∀ {u} prior, Spares False s u →
      Spares False s ((u.eccCount g off 4).report 1 0x203 (uChan g) [(30, off / 32 * 32), (4, prior)]) :=
    fun _ hu => hu.counted _ _ _ (by decide)
  unfold State.hbmMerge
  dsimp only
  split
  · exact .fst ((put h).inject _ _)
  · exact .fst (((put (fix h)).setEccAt _ _).inject _ _)
  · exact .fst (((put (bad 3 h)).setEccAt _ _).inject _ _)
  · refine .iteFst (inject (setEccAt (put ?_) _ _) _ _) (((put (bad 2 h)).setEccAt _ _).inject _ _)
    exact .ite (fix (h.counted _ _ _ (by decide))) (h.counted _ _ _ (by decide))

/-! What an access answers -/

theorem setChanReqs (h : Spares q s t) (g : Nat) (rs : List ChanReq) : Spares q s (t.setChanReqs g rs) := h.same (by rfl)

theorem returnWord (h : Spares q s t) (g : Nat) (code : Option Nat) (data : W64) (tag : Byte) (mark : Bool) :
    Spares q s (t.returnWord g code data tag mark) := by
  cases code <;> exact h.same (by rfl)

theorem settleReturns (h : Spares q s t) (g : Nat) : Spares q s (t.settleReturns g) := by
  refine setChanReqs (foldlFst h fun p x hp => ?_) _ _
  cases x.stat with
  | none => exact hp
  | some st => exact .iteFst hp (hp.returnWord _ _ _ _ _)

theorem deliver (h : Spares q s t) (r : ReqSt) (id : Nat) : Spares q s (t.deliver r id) := by
  unfold State.deliver
  split
  · exact h
  · exact h.same (by rfl)
  · exact settleReturns (h.same (by rfl)) _
  · exact .ite (h.setF (elsewhere_core (by simp only [Reg.CC_VT_SLOT_TSTAT]; omega))) h
  · exact .ite (h.same (by rfl)) h
  · exact h.same (by rfl)

theorem finishPart (h : Spares q s t) (id pos : Nat) (bs : List Byte) (st : Status) :
    Spares q s (t.finishPart id pos bs st) := .ite (deliver (h.same (by rfl)) _ _) (h.same (by rfl))

/-! The write-combining buffer -/

theorem setWcb (h : Spares False s t) (m : Nat) (es : List WcbEntry) : Spares False s (t.setWcb m es) :=
  setF (h.same (by rfl)) (elsewhere_core (by simp only [Reg.MC_WCB_STAT_HELD]; omega))

theorem keepFor (h : Spares False s t) (g off id : Nat) : Spares False s (t.keepFor g off id) := .ite (h.same (by rfl)) h

theorem hbmWriteDirect (h : Spares False s t) (g off : Nat) (bs : List Byte) :
    Spares False s (t.hbmWriteDirect g off bs) := by
  have h1 := (h.keepFor g off (t.nextReq + 1)).hbmWriteFull g off bs
  exact .ite (h1.setWcbWaits _ _) h1

theorem wcbPut (h : Spares False s t) (g line : Nat) (bs : List (Nat × Option Byte)) (id : Option Nat) :
    Spares False s (t.wcbPut g line bs id) :=
  .ite (h.setWcb _ _) (.ite (h.setWcb _ _) (setWcbWaits
    (h.setF (elsewhere_core (by simp only [Reg.MC_WCB_WAIT]; omega))) _ _))

theorem wcbStore (h : Spares False s t) (g : Nat) (e : WcbEntry) (seen : List (EccSeen × EccSeen)) :
    Spares False s (t.wcbStore g e seen).1 :=
  foldlFst h fun _ _ hp => .iteFst hp (.iteFst ((hp.keepFor _ _ _).hbmWriteFull _ _ _) ((hp.keepFor _ _ _).hbmMerge _ _ _ _ _))

theorem wcbAdmit1 (h : Spares False s t) (m : Nat) (w : WcbWait) : Spares False s (t.wcbAdmit1 m w) :=
  .ite (h.setWcb _ _) (.ite (h.setWcb _ _) (h.same (by rfl)))

theorem wcbAdmit (h : Spares False s t) (m : Nat) : Spares False s (t.wcbAdmit m) :=
  foldl (h.same (by rfl)) fun _ _ hu => hu.wcbAdmit1 m _

theorem notifyWriters (h : Spares False s t) (ws : List (Nat × Nat)) (st : Nat → Status) :
    Spares False s (t.notifyWriters ws st) := h.foldl fun _ _ hu => hu.finishPart _ _ _ _

theorem wcbRelieve (h : Spares False s t) (m : Nat) : Spares False s (t.wcbRelieve m) := h.setWcb _ _

theorem wcbComplete (h : Spares False s t) (m : Nat) (e : WcbEntry) (seen : List (EccSeen × EccSeen)) :
    Spares False s (t.wcbComplete m e seen) := by
  unfold State.wcbComplete
  dsimp only
  exact (((((h.wcbStore _ e seen).setWcb m _).addF
    (elsewhere_core (by simp only [Reg.MC_WCB_FLUSH]; omega))).wcbAdmit m).wcbRelieve m).notifyWriters _ _

theorem wcbForce (h : Spares False s t) (m : Nat) (e : WcbEntry) : Spares False s (t.wcbForce m e) :=
  h.freeNext.wcbComplete m e _

theorem wcbDrainLine (h : Spares False s t) (g line : Nat) : Spares False s (t.wcbDrainLine g line) := by
  unfold State.wcbDrainLine
  dsimp only
  have drain : ∀ {u} (l : List WcbEntry), Spares False s u →
      Spares False s (l.foldl (fun x e => x.wcbForce (g / 16) e) u) :=
    fun l hu => hu.foldl fun _ _ hv => hv.wcbForce _ _
  refine .ite (drain _ ?_) (wcbForce (drain _ ?_) _ _) <;> exact .ite h (h.setWcbWaits _ _)

/-! Reads of the device's own units -/

theorem unitWait (h : Spares False s t) (c : Nat) : Spares False s (t.unitWait c).1 := .iteFst (h.same (by rfl)) h

theorem storeMeet (h : Spares False s t) (c off n who : Nat) : Spares False s (t.storeMeet c off n who).1 := by
  unfold State.storeMeet
  dsimp only
  split
  · exact h.foldl fun _ _ hu => hu.corrected _ _ _ _
  · exact report (h.foldl fun _ _ hu => hu.corrected _ _ _ _) (by decide)

theorem carryMeet4 (h : Spares False s t) (c e who : Nat) : Spares False s (t.carryMeet4 c e who).1 := by
  unfold State.carryMeet4
  dsimp only
  split
  · exact h.foldl fun _ _ hu => hu.corrected _ _ _ _
  · exact report (h.foldl fun _ _ hu => hu.corrected _ _ _ _) (by decide)

theorem unitRead (h : Spares False s t) (a req : Nat) : Spares False s (t.unitRead a req).1 := by
  unfold State.unitRead
  cases t.place a with
  | hbm g off =>
    have h1 := (h.wcbDrainLine g (off / 64)).hbmReadStored g off req .clean
    exact .iteFst (h.report (by decide)) (.iteFst h (.ite (h1.report (by decide)) h1))
  | store c off => exact .iteFst ((h.unitWait c).storeMeet _ _ _ _) ((h.unitWait c).report (by decide))
  | carry c e b => exact .iteFst ((h.unitWait c).carryMeet4 _ _ _) ((h.unitWait c).report (by decide))
  | unusedCore c => exact h.report (by decide)
  | host off => exact h
  | ctl off => exact h.report (by decide)
  | noHbm => exact h.report (by decide)
  | nowhere => exact h.report (by decide)

theorem meetN (h : Spares False s t) (a n : Nat) : Spares False s (t.meetN a n) :=
  foldlFst h fun _ _ hp => hp.unitRead _ _

/-! Writes of a port or an engine -/

theorem onceFor (h : Spares False s t) (id code : Nat) {f : State → State} (hf : Spares False s (f t)) :
    Spares False s (t.onceFor id code f) := .ite h (hf.putReq _ _)

theorem storePut (h : Spares False s t) (c off who : Nat) (bs : List Byte) (seen : EccSeen) :
    Spares False s (t.storePut c off who bs seen).1 := by
  have put : ∀ u w, Spares False s u → Spares False s
      (if decide (off ≤ w ∧ w + 8 ≤ off + bs.length) = true then u.setEccAt (storeKey c w) .clean
       else match metState (u.eccAt (storeKey c w)) seen with
        | .clean => u
        | .correctable =>
          ((u.setEccAt (storeKey c w) .clean).addF (Reg.CC_TALLY c 14) 1).report 0 0x023 (uCore c) [(22, w)]
        | _ => u.setEccAt (storeKey c w) .poisoned) := by
    refine fun u w hu => .ite (hu.setEccAt _ _) ?_
    cases metState (u.eccAt (storeKey c w)) seen with
    | clean => exact hu
    | correctable => exact (hu.setEccAt _ _).corrected _ _ _ _
    | poisoned => exact hu.same (by rfl)
    | uncorrectable => exact hu.same (by rfl)
  unfold State.storePut
  dsimp only
  split
  · exact foldl (h.wrBytes _ _) put
  · exact report (foldl (h.wrBytes _ _) put) (by decide)

theorem setCarry (h : Spares False s t) (v : List (Nat × CarryEntry)) : Spares False s (t.setCarry v) := h.same (by rfl)

theorem carryWrite1 (h : Spares False s t) (id c off req : Nat) (bs : List Byte) (seen : EccSeen) (e : Nat) :
    Spares False s (t.carryWrite1 id c off req bs seen e).1 := by
  unfold State.carryWrite1
  dsimp only
  refine .iteFst (.fst (h.setCarry _)) ?_
  split
  · exact .fst (h.setCarry _)
  · exact .fst (setCarry (h.corrected _ _ _ _) _)
  · exact .fst (setCarry (h.onceFor _ _ (h.report (by decide))) _)

theorem carryWrite (h : Spares False s t) (id c off req : Nat) (bs : List Byte) (seen : EccSeen) :
    Spares False s (t.carryWrite id c off req bs seen).1 := by
  unfold State.carryWrite
  exact foldlFst h fun _ _ hp => hp.carryWrite1 _ _ _ _ _ _ _

/-- The recorded address of a write that was denied. -/
theorem denyAddr (h : Spares False s t) (a : Nat) :
    Spares False s ((t.setF Reg.MGT_HOST_DENY_ADDR a).setDenyArmed false) :=
  same (h.setF (Or.inl rfl) : Spares False s (t.setF Reg.MGT_HOST_DENY_ADDR a)) (by rfl)

theorem partWrite (h : Spares False s t) (id a req : Nat) (bs : List Byte) (stew : Bool) (seen : EccSeen) :
    Spares False s (t.partWrite id a req bs stew seen).1 := by
  have absent : Spares False s (t.onceFor id 0x206 (fun x => x.addrInvalid a req)) := h.onceFor _ _ (h.report (by decide))
  have unavailable : ∀ c, Spares False s (t.coreUnavailable id c a) := fun c => h.onceFor _ _ (h.report (by decide))
  unfold State.partWrite
  cases t.place a with
  | hbm g off => exact .iteFst absent (.iteFst h (.iteFst (h.hbmWriteDirect _ _ _) (h.wcbPut _ _ _ _)))
  | store c off => exact .iteFst (unavailable c) (h.storePut _ _ _ _ _)
  | carry c e b => exact .iteFst (unavailable c) (h.carryWrite _ _ _ _ _ _)
  | unusedCore c => exact unavailable c
  | host off =>
    have h1 : Spares False s (t.addSat Reg.MGT_HOST_DENY_COUNT 1) := h.addSat (Or.inl rfl)
    exact .iteFst absent (.iteFst (.ite (h1.denyAddr a) h1) (h.hostPut _ _))
  | ctl off => exact absent
  | noHbm => exact absent
  | nowhere => exact absent

/-- A part that writes. -/
theorem startPart (h : Spares False s t) (p : HeldPart) {bs : List Byte} (hp : p.data = some bs) (slotted : Bool)
    (seen : EccSeen) : Spares False s (t.startPart p slotted seen) := by
  have h1 : Spares False s (t.addPart p.id) := h.same (by rfl)
  unfold State.startPart
  dsimp only
  split
  · exact h1.same (by rfl)
  · simp only [State.runPart, hp]
    have h2 := h1.partWrite p.id p.addr p.req bs (p.req == reqSteward) seen
    split
    · exact h2.finishPart _ _ _ _
    · exact h2

theorem startPiece (h : Spares False s t) (id req : Nat) (slotted : Bool) (seen : EccSeen) (p : Piece) {bs : List Byte}
    (hp : p.data = some bs) : Spares False s (t.startPiece id req slotted seen p) := by
  unfold State.startPiece
  exact foldl (.ite (h.same (by rfl)) h) fun _ _ hu => hu.startPart _ (by rw [hp]; rfl) _ _

theorem devWrite (h : Spares False s t) (a : Nat) (bs : List Byte) : Spares False s (t.devWrite a bs) := by
  have opened : Spares False s (t.openReq [] .nowhere).1 := h.same (by rfl)
  exact (opened.startPiece (t.openReq [] .nowhere).2 0 false .clean
    { addr := a, pos := 0, len := bs.length, data := some bs } rfl).finishPart _ _ _ _

end Sys2Proof.Machine.Spares

/-! ### Events, answers and parameters -/

namespace Sys2Proof.Machine.Spares

variable {q : Prop} {s t : State}

/-- A write of a mailbox register. -/
theorem setMailbox (h : Spares False s t) {f : Fld} {v : Nat} (hf : OfMailbox f) (hw : f.lo + f.w ≤ 64) :
    Spares False s (t.setF f v) :=
  h.setF_apart hw (fun _ hg => hg.apart_mailbox hf) False.elim

theorem setLost (h : Spares False s t) (c n : Nat) : Spares False s (t.setLost c n) := h.loose (by rfl)
theorem setJob (h : Spares False s t) (c : Nat) (j : Option (Nat × Nat)) : Spares False s (t.setJob c j) := h.loose (by rfl)

theorem mbxPut (h : Spares False s t) {c : Nat} (hc : c < 2) (body : List Byte) : Spares False s (t.mbxPut c body) := by
  unfold State.mbxPut
  dsimp only
  refine irqSource (setMailbox (h.devWrite _ _) ?_ (by simp [Reg.MGT_MBX_RSP_WR])) _
  simp only [OfMailbox, Reg.MGT_MBX_RSP_WR]
  omega

theorem tellLost (h : Spares False s t) {c : Nat} (hc : c < 2) : Spares False s (t.tellLost c) :=
  .ite h ((h.setLost c 0).mbxPut hc _)

theorem eventOn (h : Spares False s t) {c : Nat} (hc : c < 2) (code : Nat) (result : List Byte) :
    Spares False s (State.eventOn code result c t) :=
  .ite (.ite ((h.tellLost hc).mbxPut hc _) ((h.tellLost hc).setLost _ _)) h

theorem mbxEvent (h : Spares False s t) (code : Nat) (result : List Byte) : Spares False s (t.mbxEvent code result) :=
  (h.eventOn (by decide) code result).eventOn (by decide) code result

/-- Firmware's own state with other mailbox bookkeeping. -/
theorem setBookkeeping (h : Spares False s t) {x : Stw} (hx : x.firm = t.stw.firm) : Spares False s (t.setStw x) :=
  h.loose (by rw [State.setStw_stw, hx]; rfl)

theorem mbxAnswer (h : Spares False s t) {c : Nat} (hc : c < 2) (status detail : Nat) (result : List Byte) :
    Spares False s (t.mbxAnswer c status detail result) := by
  have ho : OfMailbox (Reg.MGT_MBX_REQ_RD c) := by
    simp only [OfMailbox, Reg.MGT_MBX_REQ_RD]
    omega
  exact setBookkeeping (setMailbox ((h.mbxPut hc _).setJob c none) ho (by simp [Reg.MGT_MBX_REQ_RD])) rfl

theorem tellRestarted (h : Spares False s t) {c : Nat} (hc : c < 2) : Spares False s (t.tellRestarted c) :=
  .ite (.ite ((h.meetN _ _).mbxAnswer hc _ _ _) (h.setJob _ _)) h

/-! The parameters (R514) -/

section
variable {d : Nat} (hd : d < 33)
include hd

theorem elsewhere_clkN : Elsewhere (clkN d).off := by rw [clkN_eq hd]; simp only [Elsewhere]; omega
theorem elsewhere_clkEff : Elsewhere (clkEff d).off := by rw [clkEff_eq hd]; simp only [Elsewhere]; omega
theorem elsewhere_vTarget : Elsewhere (vTarget d).off := by rw [vTarget_eq hd]; simp only [Elsewhere]; omega
theorem elsewhere_vMinF : Elsewhere (vMinF d).off := by rw [vMinF_eq hd]; simp only [Elsewhere]; omega

theorem switchDiv (h : Spares q s t) (n : Nat) : Spares q s (t.switchDiv d n) := by
  have h1 := (h.setF (v := n) (elsewhere_clkEff hd)).setF (v := fusedMin d n) (elsewhere_vMinF hd)
  exact .ite (h1.setF (elsewhere_vTarget hd)) h1

theorem startVolt (h : Spares q s t) (n : Nat) : Spares q s (t.startVolt d n) := h.setF (elsewhere_vTarget hd)

theorem retune (h : Spares q s t) : Spares q s (t.retune d) := by
  have wait : ∀ {u} v, Spares q s u → Spares q s (u.setDivWait d v) := fun _ hu => hu.same (by rfl)
  unfold State.retune
  exact .ite (wait _ (startVolt hd h _)) (.ite (switchDiv hd (wait _ h) _) (wait _ h))

theorem writeClk (h : Spares q s t) (w : WriteReq) : Spares q s (t.writeClk d w) := by
  unfold State.writeClk
  split
  · exact h
  · split
    · exact h.report (by decide)
    · exact retune hd (h.setF (elsewhere_clkN hd))

end

theorem writeIdle (h : Spares q s t) {c : Nat} (hc : c < 32) (w : WriteReq) : Spares q s (t.writeIdle c w) := by
  have h1 : Spares q s (t.plainWrite (Reg.PWR_CC_IDLE_STATE c).off w) :=
    h.setWord (by simp only [Elsewhere, Reg.PWR_CC_IDLE_STATE]; omega)
  unfold State.writeIdle
  dsimp only
  split
  · exact h.report (by decide)
  · exact h1

theorem writeShrink (h : Spares q s t) {n : Nat} (hn : n < 4) (w : WriteReq) : Spares q s (t.writeShrink n w) := by
  have set : ∀ {u : State} {f : Fld} {v : Nat}, f.off = 0x100108 + 0x40 * n → Spares q s u → Spares q s (u.setF f v) :=
    fun hf hu => hu.setF (by simp only [Elsewhere, hf]; omega)
  unfold State.writeShrink
  split
  · exact h
  · unfold State.setEffective
    exact .ite (report (set rfl (set rfl h)) (by decide)) (set rfl (set rfl h))

theorem applyCore (h : Spares q s t) {c : Nat} (hc : c < 32) : Spares q s (t.applyCore c) := by
  have h1 := h.writeIdle hc (stwW (t.param 2 + t.param 3 * 2 ^ 16 + t.param 1 * 2 ^ 32))
  exact .ite (.ite h1 (writeClk (by omega) h1 _)) h

theorem applyBeat (h : Spares q s t) {n : Nat} (hn : n < 4) : Spares q s (t.applyBeat n) := by
  have h1 := h.setF (f := Reg.ALM_BM_LAGLIM n) (v := t.param 6) (by simp only [Elsewhere, Reg.ALM_BM_LAGLIM]; omega)
  exact .ite h1 (h1.writeShrink hn _)

theorem applyMem (h : Spares q s t) (m : Nat) : Spares q s (t.applyMem m) :=
  .ite (setF (h.setF (elsewhere_core (by simp only [Reg.MC_RETRY_CFG_EN]; omega)))
    (elsewhere_core (by simp only [Reg.MC_WCB_CFG_AGE]; omega))) h

theorem applyDevice (h : Spares q s t) : Spares q s t.applyDevice := by
  unfold State.applyDevice
  refine setF (foldlMem (h.setF (by decide)) fun u d hd hu => fltLevel (setF (hu.setF ?_) ?_) d) (by decide)
  · fin_cases hd <;> decide
  · fin_cases hd <;> decide

theorem applyAll (h : Spares q s t) : Spares q s t.applyAll := by
  refine applyDevice (foldlMem (foldlMem h fun u c hc hu => hu.applyCore (List.mem_range.mp hc)) fun u n hn hu => ?_)
  exact (hu.applyBeat (n := n) (by fin_cases hn <;> decide)).applyMem n

/-- What restarted firmware does once it has its grants and its phase (R524). -/
theorem restarted (h : Spares False s (t.grantHost.phase 0x16)) : Spares False s t.restarted := by
  unfold State.restarted
  exact ((h.tellRestarted (by decide)).tellRestarted (by decide)).applyAll.mbxEvent _ _

end Sys2Proof.Machine.Spares

/-! ### Launches that a step of the Almanac passes over (R56, R57) -/

namespace Sys2Proof.Machine

/-- Every beat machine is IDLE. -/
theorem State.allIdle_iff (s : State) : s.allIdle = true ↔ ∀ n < 4, s.bmState n = 0 := by
  simp only [State.allIdle, List.all_eq_true, List.mem_cons, List.not_mem_nil, or_false, beq_iff_eq]
  exact ⟨fun h n hn => h n (by omega), fun h n hn => h n (by omega)⟩

namespace Spares

variable {q : Prop} {s t : State}

theorem bmState (h : Spares q s t) {n : Nat} (hn : n < 4) : t.bmState n = s.bmState n :=
  h.regs _ (Or.inr (Or.inl ⟨n, hn, Or.inl rfl⟩))

theorem allIdle (h : Spares q s t) (hi : s.allIdle = true) : t.allIdle = true := by
  rw [State.allIdle_iff] at hi ⊢
  exact fun n hn => (h.bmState hn).trans (hi n hn)

/-! Waits of threads and messages -/

theorem setCoreMove (h : Spares q s t) (c m : Nat) : Spares q s (t.setCoreMove c m) := by
  have h1 : Spares q s (t.setPwr { t.pwr with coreMove := SMap.put (fun _ => 0) t.pwr.coreMove c m }) := h.same (by rfl)
  refine h1.setF_apart (by simp [Reg.PWR_DOM_STAT_TRANS]) (fun g hg => hg.apart_trans c) fun _ g hg => Or.inl ?_
  simp only [OfMailbox] at hg
  simp only [Reg.PWR_DOM_STAT_TRANS]
  omega

theorem busyCore (h : Spares q s t) (c : Nat) : Spares q s (t.busyCore c) := .ite (h.setCoreMove c 0) h

theorem onThr (h : Spares q s t) (c j : Nat) (f : VThread → VThread) : Spares q s (t.onThr c j f) := h.same (by rfl)

theorem wake (h : Spares q s t) (c j : Nat) : Spares q s (t.wake c j) :=
  busyCore (onThr (h.setF (elsewhere_core (by simp only [Reg.CC_VT_SLOT_STATE]; omega))) _ _ _) c

theorem dropWaiter (h : Spares q s t) (c j : Nat) : Spares q s (t.dropWaiter c j) := h.same (by rfl)

theorem putSx (h : Spares q s t) (c j r x : Nat) : Spares q s (t.putSx c j r x) := h.same (by rfl)

theorem fenceAll (h : Spares q s t) (c j : Nat) : Spares q s (t.fenceAll c j) := .ite (h.same (by rfl)) h

theorem giveMessage (h : Spares q s t) (c j : Nat) (m : List Byte) : Spares q s (t.giveMessage c j m) := by
  unfold State.giveMessage
  split
  · exact (((h.onThr c j _).dropWaiter c j).wake c j).fenceAll c j
  · exact h

theorem putQueue (h : Spares q s t) {k : Nat} (hk : k < 256) (ms : List (List Byte)) : Spares q s (t.putQueue k ms) :=
  setF (h.same (by rfl)) (by simp only [Elsewhere, Reg.MGT_MQ_COUNT]; omega)

theorem trySend (h : Spares q s t) {k : Nat} (hk : k < 256) (source : Nat) (payload : List Byte) :
    Spares q s (t.trySend k source payload).1 := by
  refine .iteFst h (.iteFst h (.fst ?_))
  unfold State.acceptMsg
  split
  · exact h.giveMessage _ _ _
  · exact h.putQueue hk _

theorem expireThread (h : Spares q s t) (c j : Nat) : Spares q s (t.expireThread c j) := by
  have ended : ∀ {u : State} {f : VThread → VThread}, Spares q s u →
      Spares q s (if u.domOn c = true then u.wake c j else u.onThr c j f) :=
    fun hu => .ite (hu.wake c j) (hu.onThr c j _)
  have h1 := h.dropWaiter c j
  unfold State.expireThread
  dsimp only
  split
  · exact h
  · refine .ite h (ended ?_)
    split
    · exact h.putSx _ _ _ _
    · exact h1.putSx _ _ _ _
    · exact h1.putSx _ _ _ _
    · exact .ite (h1.putSx _ _ _ _).freeNext (h1.putSx _ _ _ _)
    · exact h

theorem expireFar (h : Spares q s t) : Spares q s t.expireFar := by
  unfold State.expireFar
  exact foldl (foldl (h.same (by rfl)) fun _ _ hu => (hu.same (by rfl))) fun _ _ hu => hu.same (by rfl)

theorem expireAll (h : Spares q s t) : Spares q s t.expireAll :=
  expireFar (h.foldl fun _ _ hu => hu.expireThread _ _)

theorem timerCompares (h : Spares q s t) : Spares q s t.timerCompares := by
  refine foldl h fun u e hu => ?_
  split
  · exact .ite (hu.same (by rfl)) hu
  · exact hu

/-! The ports -/

theorem setPwr (h : Spares q s t) (v : PwrState) : Spares q s (t.setPwr v) := h.same (by rfl)

theorem onCore (h : Spares q s t) (c : Nat) (f : CoreSt → CoreSt) : Spares q s (t.onCore c f) := h.same (by rfl)

theorem beginWake (h : Spares q s t) {c : Nat} (hc : c < 32) (kind : Nat) : Spares q s (t.beginWake c kind) := by
  have h1 := h.setCoreMove c kind
  exact .ite (h.busyCore c) (.ite (.ite (h1.addF (by simp only [Elsewhere, Reg.PWR_CC_AWAKES]; omega)) h1) h)

theorem sendToken (h : Spares q s t) (c n k : Nat) : Spares q s (t.sendToken c n k) :=
  same (h.addF (elsewhere_core (by simp only [Reg.CC_TALLY]; omega)) : Spares q s (t.addF (Reg.CC_TALLY c 15) 1)) (by rfl)

theorem wakeLaunch (h : Spares q s t) {c : Nat} (hc : c < 32) : Spares q s (t.wakeLaunch c) := by
  unfold State.wakeLaunch
  dsimp only
  split
  · exact h
  next rest _ =>
    have h1 := h.onCore c (fun x => { x with wakes := rest })
    have h2 := h1.beginWake hc 2
    refine .ite ?_ (.ite ?_ h1)
    · split
      · exact h2.sendToken _ _ _
      · exact h2
    · split
      · exact onCore (.ite (h2.setPwr _) h1) _ _
      · exact .ite (h2.setPwr _) h1

theorem lateWakes (h : Spares q s t) {c : Nat} (hc : c < 32) : Spares q s (lateWakes t c).1 :=
  h.foldl fun _ _ hu => hu.wakeLaunch hc

theorem setLate (h : Spares q s t) {f : Fld} (hf : f.off = 0x100040) (bit : Nat) : Spares q s (t.setLate f bit) :=
  h.setF (by rw [hf]; decide)

theorem lateFrames (h : Spares q s t) (was l : Nat) : Spares q s (lateFrames was t l).1 := by
  unfold Machine.lateFrames
  exact .iteFst ((h.setLate rfl l).same (by rfl)) h

theorem tallySnap (h : Spares q s t) (c : Nat) : Spares q s (t.tallySnap c) :=
  setF (h.foldl fun _ _ hu => hu.setF (elsewhere_core (by simp only [Reg.CC_TALLY_SH]; omega)))
    (elsewhere_core (by simp only [Reg.CC_TALLY_SNAPT]; omega))

theorem glAct (h : Spares q s t) (p : Nat) : Spares q s (t.glAct p) := by
  have h1 := h.irqSource (78 + p)
  have hq : (t.irqSource (78 + p)).getF (Reg.ALM_GL_CTL_QUEUE p) < 256 := State.getF_lt _ _
  have snap : ∀ {u : State} {c : Prop} [Decidable c] {l : List Nat}, Spares q s u →
      Spares q s (if c then l.foldl (fun x k => x.tallySnap k) u else u) :=
    fun hu => .ite (hu.foldl fun _ _ hv => hv.tallySnap _) hu
  unfold State.glAct
  dsimp only
  exact snap (.ite (.ite (h1.trySend hq _ _) ((h1.trySend hq _ _).report (by decide))) h1)

theorem glFire (h : Spares q s t) {p : Nat} (hp : p < 16) : Spares q s (t.glFire p) :=
  .ite ((h.glAct p).setF (by simp only [Elsewhere, Reg.ALM_GL_CTL_EN]; omega))
    ((h.glAct p).setF (by simp only [Elsewhere, Reg.ALM_GL_TIME]; omega))

theorem lateGeneral (h : Spares q s t) (fuel : Nat) {p : Nat} (hp : p < 16) : Spares q s (lateGeneral fuel t p).1 := by
  induction fuel generalizing t with
  | zero => exact h
  | succ fuel ih => exact .iteFst (ih ((h.glFire hp).setLate rfl p)) h

theorem lateWakePort (h : Spares q s t) : Spares q s (lateWakePort t).1 :=
  .iteFst ((h.setF (by decide)).setF (by decide)) h

end Spares

/-! An IDLE beat machine exposes nothing and launches nothing. -/

theorem State.nextExpose_idle {s : State} (hi : s.allIdle = true) (i : Nat) : s.nextExpose i = none := by
  rw [State.allIdle_iff] at hi
  unfold State.nextExpose State.cameraPipe
  dsimp only
  split
  · rfl
  · next n m hnm =>
    split at hnm
    · obtain ⟨rfl, rfl⟩ := Prod.mk.inj (Option.some.inj hnm)
      rw [hi _ (State.getF_lt s (Reg.ING_STR_CFG_PIPE _))]
      rfl
    · exact absurd hnm (by simp)

theorem State.nextStrobe_idle {s : State} (hi : s.allIdle = true) (i : Nat) : s.nextStrobe i = none := by
  rw [State.allIdle_iff] at hi
  unfold State.nextStrobe
  dsimp only
  rw [hi _ (State.getF_lt s (Reg.ING_STR_CFG_PIPE _))]
  simp [exposing]

theorem lateExpose_idle {s : State} (hi : s.allIdle = true) (fuel i : Nat) : lateExpose fuel s i = (s, 0) := by
  cases fuel with
  | zero => rfl
  | succ fuel => rw [lateExpose, State.nextExpose_idle hi]

theorem lateStrobe_idle {s : State} (hi : s.allIdle = true) (fuel i : Nat) : lateStrobe fuel s i = (s, 0) := by
  cases fuel with
  | zero => rfl
  | succ fuel => rw [lateStrobe, State.nextStrobe_idle hi]

theorem lateBeat_idle {s : State} (hi : s.allIdle = true) {n : Nat} (hn : n < 4) : lateBeat s n = (s, 0) := by
  rw [State.allIdle_iff] at hi
  simp [lateBeat, hi n hn]

namespace Spares

variable {q : Prop} {s t : State}

theorem lateAll {f : State → Nat → Late} {ports : List Nat} {a : Late} (h : Spares q s a.1)
    (hf : ∀ u, ∀ i ∈ ports, Spares q s u → Spares q s (f u i).1) : Spares q s (lateAll f ports a).1 := by
  induction ports generalizing a with
  | nil => exact h
  | cons i ports ih => exact ih (hf a.1 i (by simp) h) fun u j hj => hf u j (by simp [hj])

theorem stepForward (h : Spares q s t) (hi : s.allIdle = true) (was d : Nat) : Spares q s (t.stepForward was d).1 := by
  unfold State.stepForward
  dsimp only
  refine timerCompares (expireAll (lateWakePort (lateAll (lateAll (lateAll (lateAll (lateAll (lateAll h ?_) ?_) ?_) ?_) ?_) ?_)))
  · exact fun u c hc hu => hu.lateWakes (List.mem_range.mp hc)
  · intro u i _ hu
    rw [lateExpose_idle (hu.allIdle hi)]
    exact hu
  · intro u i _ hu
    rw [lateStrobe_idle (hu.allIdle hi)]
    exact hu
  · intro u n hn hu
    rw [lateBeat_idle (hu.allIdle hi) (by fin_cases hn <;> decide)]
    exact hu
  · exact fun u l _ hu => hu.lateFrames _ _
  · exact fun u p hp hu => hu.lateGeneral _ (List.mem_range.mp hp)

theorem setEp (h : Spares q s t) (v : EpState) : Spares q s (t.setEp v) := h.same (by rfl)

theorem setQsk (h : Spares q s t) (v : QskState) : Spares q s (t.setQsk v) := h.same (by rfl)

theorem stepBack (h : Spares q s t) (hi : s.allIdle = true) (was d : Nat) : Spares q s (t.stepBack was d) := by
  have hl : Spares q s ((List.range 8).foldl (fun x l =>
      if x.linkUp l then x.onLink l (fun y => { y with sfNext := some (y.sfPending was - d) }) else x) t) :=
    h.foldl fun _ _ hu => .ite (hu.same (by rfl)) hu
  unfold State.stepBack
  refine foldlMem (foldlMem (hl.setEp _) fun u p hp hu => .ite (hu.setF ?_) hu) fun u n hn hu => ?_
  · have := List.mem_range.mp hp
    simp only [Elsewhere, Reg.ALM_GL_TIME]
    omega
  · have hidle := (State.allIdle_iff u).mp (hu.allIdle hi) n (by fin_cases hn <;> decide)
    rw [if_pos hidle]
    exact hu

theorem loseLock (h : Spares q s t) (err : Int) : Spares q s (t.loseLock err) := by
  have h1 := h.setF (f := Reg.QSK_SFRAME_STAT_LOCK) (v := 0) (by decide)
  unfold State.loseLock
  dsimp only
  exact .ite h (.ite ((h1.report (by decide)).setQsk _) h1)

end Spares

end Sys2Proof.Machine

/-! ### Corrections of the Almanac (R33, R34, R518) -/

namespace Sys2Proof.Machine

variable {s : State}

/-- The gateway's own state is set in both. -/
theorem Spares.setBgw {q : Prop} {s t : State} (h : Spares q s t) (b : Gateway) : Spares q (s.setBgw b) (t.setBgw b) :=
  ⟨h.alm, rfl, h.load, h.firm, h.regs, h.mem, h.lost, h.mbx⟩

/-- What the Almanac reads at the tick that a step waits for; on the crystal it waits for none (R34). -/
def State.nextTick (s : State) : Nat := (if s.alm.crystal then s else s.ticks 1).alm.alm

theorem State.nextTick_setAlm_stepLow (s : State) (n : Nat) :
    (s.setAlm { s.alm with stepLow := n }).nextTick = s.nextTick := by
  unfold State.nextTick
  rw [State.setAlm_alm]
  split <;> rfl

/-- A step of time with every beat machine IDLE moves the Almanac and spares the rest. -/
theorem State.stepTime_spares (hi : s.allIdle = true) (x : Int) :
    ∃ a : AlmState, a.alm = ((s.nextTick : Int) + x * (unitFrac : Int)).toNat ∧
      Spares True (s.setAlm a) (s.stepTime x) := by
  have ticked : ∃ b, (if s.alm.crystal then s else s.ticks 1) = s.setAlm b := by
    split
    · exact ⟨s.alm, rfl⟩
    · exact ⟨_, rfl⟩
  unfold State.stepTime State.nextTick
  dsimp only
  obtain ⟨b, hb⟩ := ticked
  rw [hb]
  generalize hu : ((s.setAlm b).setAlm _).freeNext = u
  have h0 : ∃ a : AlmState, a.alm = (((s.setAlm b).alm.alm : Int) + x * (unitFrac : Int)).toNat ∧
      Spares True (s.setAlm a) u := by
    subst hu
    exact ⟨_, rfl, (Spares.refl True _).freeNext⟩
  obtain ⟨a, ha, hs⟩ := h0
  have hidle : (s.setAlm a).allIdle = true := hi
  refine ⟨a, ha, Spares.raise (.ite ?_ (Spares.loseLock ?_ _)) (Nat.zero_le 4)⟩
  all_goals
    split
    · exact hs.stepForward hidle _ _
    · exact .fst (hs.stepBack hidle _ _)

theorem stwW_value {v : Nat} (hv : v < 2 ^ 64) : (stwW v).value.toNat = v := by
  rw [stwW, BitVec.toNat_ofNat, Nat.mod_eq_of_lt hv]

theorem uint_lt (w : Nat) (x : Int) : uint w x < 2 ^ w := by
  have hp : (0 : Int) < ((2 ^ w : Nat) : Int) := by exact_mod_cast Nat.two_pow_pos w
  have := Int.emod_lt_of_pos x hp
  have := Int.emod_nonneg x hp.ne'
  unfold uint
  omega

/-- The steward core's write of a whole word to ALM_STEP. -/
theorem State.writeStep_stwW (s : State) {v : Nat} (hv : v < 2 ^ 64) :
    ∃ n b, State.writeStep (stwW v) s = ((s.setAlm { s.alm with stepLow := n }).stepTime (sint 64 v)).setBgw b := by
  have hval : (stwW v).value.toNat / 2 ^ 32 * 2 ^ 32 + (stwW v).value.toNat % 2 ^ 32 = v := by
    rw [stwW_value hv]
    omega
  refine ⟨v % 2 ^ 32, { ((s.setAlm { s.alm with stepLow := v % 2 ^ 32 }).stepTime (sint 64 v)).bgw with stepped := true }, ?_⟩
  rw [State.writeStep, if_pos (show coversLo (stwW v).half = true from rfl),
    if_pos (show coversHi (stwW v).half = true from rfl), State.setAlm_alm]
  dsimp only
  rw [hval, stwW_value hv]

theorem State.writeStep_spares (hi : s.allIdle = true) {v : Nat} (hv : v < 2 ^ 64) :
    ∃ (a : AlmState) (b : Gateway), a.alm = ((s.nextTick : Int) + sint 64 v * (unitFrac : Int)).toNat ∧
      Spares True ((s.setAlm a).setBgw b) (State.writeStep (stwW v) s) := by
  obtain ⟨n, b, hw⟩ := s.writeStep_stwW hv
  obtain ⟨a, ha, hs⟩ := State.stepTime_spares (s := s.setAlm { s.alm with stepLow := n }) hi (sint 64 v)
  rw [State.nextTick_setAlm_stepLow] at ha
  have hs' : Spares True (s.setAlm a) _ := hs
  rw [hw]
  exact ⟨a, b, ha, hs'.setBgw b⟩

/-- A slew of at most a million ns adds to what is left to absorb, within its bounds (R33). -/
theorem State.writeSlew_stwW (x : Int) (hx : -1000000 ≤ x ∧ x ≤ 1000000) :
    State.writeSlew (stwW (uint 32 x)) s = s.setAlm { s.alm with
      slewRem := min 500000000 (max (-500000000) (s.alm.slewRem + 500 * x)) } := by
  have hu := uint_lt 32 x
  have hf : wField (stwW (uint 32 x)) Reg.ALM_SLEW = some (uint 32 x % 2 ^ 32) := by
    rw [wField_of_coversLo rfl rfl, WriteReq.field, stwW_value (by omega)]
    simp [bits, Reg.ALM_SLEW]
  rw [State.writeSlew, hf]
  dsimp only
  rw [sint_uint 32 x (by omega) (by omega)]
  congr 2
  split_ifs <;> omega

/-- Time may be stepped (R409, R518). -/
theorem State.mayStep_iff (s : State) : s.mayStep = true ↔
    s.allIdle = true ∧ (∀ n, n < 4 → s.resident n = true → (s.pipe n).quosk = false) ∧ s.followsGptp = true := by
  simp only [State.mayStep, Bool.and_eq_true, List.all_eq_true, Bool.not_eq_true', Bool.and_eq_false_iff, List.mem_cons,
    List.not_mem_nil, or_false, and_assoc]
  refine and_congr_right fun _ => and_congr_left fun _ => ⟨fun h n hn hr => ?_, fun h n hn => ?_⟩
  · rcases h n (by omega) with h | h
    · rw [h] at hr; exact absurd hr (by decide)
    · exact h
  · cases hr : s.resident n with
    | false => exact Or.inl rfl
    | true => exact Or.inr (h n (by omega) hr)

/-- An offset that is not stepped away is slewed, by at most a million ns. -/
theorem State.correct_slews {offset : Int} (h : ¬ (s.param 14 < offset.natAbs ∧ s.mayStep = true)) :
    s.correct offset = s.setAlm { s.alm with
      slewRem := min 500000000 (max (-500000000) (s.alm.slewRem - 500 * min 1000000 (max (-1000000) offset))) } := by
  have hx : (if offset > 1000000 then -1000000 else if offset < -1000000 then 1000000 else -offset) =
      -(min 1000000 (max (-1000000) offset)) := by
    split_ifs <;> omega
  rw [State.correct, if_neg h]
  dsimp only
  rw [hx, State.writeSlew_stwW _ (by omega), Int.mul_neg, ← Int.sub_eq_add_neg]

/-- What a correction does to the Almanac, and that it spares the rest. -/
theorem State.correct_spares (s : State) (offset : Int) :
    ∃ (a : AlmState) (b : Gateway), Spares True ((s.setAlm a).setBgw b) (s.correct offset) ∧
      (¬ (s.param 14 < offset.natAbs ∧ s.mayStep = true) → a.alm = s.alm.alm ∧ a.slewRem =
        min 500000000 (max (-500000000) (s.alm.slewRem - 500 * min 1000000 (max (-1000000) offset)))) ∧
      (s.param 14 < offset.natAbs ∧ s.mayStep = true → 0 < offset → offset < 2 ^ 40 → s.alm.crystal = false →
        a.alm = (((s.ticks 1).alm.alm : Int) - offset * 65536 * (unitFrac : Int)).toNat) := by
  by_cases h : s.param 14 < offset.natAbs ∧ s.mayStep = true
  · obtain ⟨a, b, ha, hs⟩ := State.writeStep_spares ((State.mayStep_iff s).mp h.2).1 (uint_lt 64 (-offset * 65536))
    refine ⟨a, b, ?_, fun hn => absurd h hn, fun _ h0 h1 hc => ?_⟩
    · rw [State.correct, if_pos h]
      exact hs
    · have hsint := sint_uint 64 (-offset * 65536) (by omega) (by omega)
      rw [Nat.mod_eq_of_lt (uint_lt _ _)] at hsint
      rw [ha, State.nextTick, hc, hsint, if_neg Bool.false_ne_true, Int.neg_mul, Int.neg_mul, Int.sub_eq_add_neg]
  · rw [State.correct_slews h]
    exact ⟨{ s.alm with slewRem := min 500000000 (max (-500000000) _) }, s.bgw, Spares.refl True _,
      fun _ => ⟨rfl, rfl⟩, fun hp => absurd hp h⟩

end Sys2Proof.Machine

/-! ### An entry of a response ring in host-core memory (R511, R513) -/

namespace Sys2Proof.Machine

/-! Bytes written and read back -/

theorem State.rdByte_wrBytes (bs : List Byte) (s : State) (a x : Nat) :
    (s.wrBytes a bs).rdByte x = if a ≤ x ∧ x < a + bs.length then bs.getD (x - a) 0 else s.rdByte x := by
  induction bs generalizing s a with
  | nil => rw [State.wrBytes, if_neg (by simp)]
  | cons b bs ih =>
    rw [State.wrBytes, ih, List.length_cons]
    by_cases hx : x = a
    · subst hx
      rw [if_neg (by omega), if_pos (by omega), Nat.sub_self, List.getD_cons_zero]
      exact SMap.get_put_self _ _ _ _
    · have hkept : (s.wrByte a b).rdByte x = s.rdByte x := SMap.get_put_ne _ _ _ _ _ hx
      rw [hkept]
      by_cases hin : a + 1 ≤ x ∧ x < a + 1 + bs.length
      · obtain ⟨k, rfl⟩ : ∃ k, x = a + k + 1 := ⟨x - a - 1, by omega⟩
        rw [if_pos hin, if_pos (by omega), show a + k + 1 - a = k + 1 by omega, List.getD_cons_succ]
        congr 1
        omega
      · rw [if_neg hin, if_neg (by omega)]

theorem State.rdBytes_wrBytes (s : State) (a : Nat) {bs : List Byte} {n : Nat} (hn : n ≤ bs.length) :
    (s.wrBytes a bs).rdBytes a n = bs.take n := by
  refine List.ext_getElem (by simp [State.rdBytes, hn]) fun i hi _ => ?_
  have hi' : i < n := by simpa [State.rdBytes] using hi
  simp only [State.rdBytes, List.getElem_map, List.getElem_range, List.getElem_take]
  rw [State.rdByte_wrBytes, if_pos (by omega), Nat.add_sub_cancel_left, List.getD_eq_getElem _ _ (by omega)]

theorem State.wrBytes_append (l₁ l₂ : List Byte) (s : State) (a : Nat) :
    s.wrBytes a (l₁ ++ l₂) = (s.wrBytes a l₁).wrBytes (a + l₁.length) l₂ := by
  induction l₁ generalizing s a with
  | nil => rfl
  | cons b l₁ ih => rw [List.cons_append, State.wrBytes, State.wrBytes, ih, List.length_cons, Nat.add_assoc, Nat.add_comm 1]

theorem State.rdBytes_of_mem_eq {s t : State} (h : t.mem = s.mem) (a n : Nat) : t.rdBytes a n = s.rdBytes a n := by
  simp only [State.rdBytes, State.rdByte, h]

theorem ofLe_leBytes (n v : Nat) : ofLe (leBytes n v) = v % 256 ^ n := by
  induction n generalizing v with
  | zero => simp [leBytes, ofLe, Nat.mod_one]
  | succ n ih =>
    rw [leBytes, ofLe, ih, BitVec.toNat_ofNat, pow_succ' 256 n, Nat.mod_mul]

theorem length_leBytes (n v : Nat) : (leBytes n v).length = n := by
  induction n generalizing v with
  | zero => rfl
  | succ n ih => rw [leBytes, List.length_cons, ih]

theorem length_sliceB (bs : List Byte) (i n : Nat) : (sliceB bs i n).length = n := by
  simp [sliceB]

/-- A slice within a list. -/
theorem sliceB_of_le {bs : List Byte} {i n : Nat} (h : i + n ≤ bs.length) : sliceB bs i n = (bs.drop i).take n := by
  have : ((bs.drop i).take n).length = n := by simp; omega
  simp [sliceB, this]

theorem crcShift_lt (n c : Nat) (h : c < 2 ^ 32) : crcShift n c < 2 ^ 32 := by
  induction n generalizing c with
  | zero => exact h
  | succ n ih =>
    refine ih _ ?_
    split
    · exact Nat.xor_lt_two_pow (by omega) (by decide)
    · omega

theorem crcTake_lt (bs : List Byte) (c : Nat) (h : c < 2 ^ 32) : crcTake bs c < 2 ^ 32 := by
  induction bs generalizing c with
  | nil => exact h
  | cons b bs ih => exact ih _ (crcShift_lt _ _ (Nat.xor_lt_two_pow h (by have := b.isLt; omega)))

theorem crc32c_lt (bs : List Byte) : crc32c bs < 2 ^ 32 :=
  Nat.xor_lt_two_pow (crcTake_lt _ _ (by decide)) (by decide)

/-! A write of a port to host-core memory -/

namespace Spares

variable {q : Prop} {s t : State}

/-- The same bytes are written in both. -/
theorem wrBytes_congr (h : Spares q s t) (a : Nat) (bs : List Byte) : Spares q (s.wrBytes a bs) (t.wrBytes a bs) := by
  induction bs generalizing s t a with
  | nil => exact h
  | cons b bs ih =>
    have h1 : Spares q (s.wrByte a b) (t.wrByte a b) :=
      ⟨h.alm, h.bgw, h.load, h.firm, h.regs, fun hq => congrArg (fun m => SMap.put memDefault m a b) (h.mem hq), h.lost,
        h.mbx⟩
    exact ih h1 (a + 1)

theorem domHolds (h : Spares q s t) {x : Nat} (hx : x < 57) : t.domHolds x = s.domHolds x := by
  simp only [State.domHolds, State.dom, h.regs _ (Or.inr (Or.inr ⟨x, hx, rfl⟩))]

end Spares

theorem State.place_host (s : State) {a : Nat} (hlo : 0x3000000000 ≤ a) (hhi : a < 0x3001C00000) :
    s.place a = .host (a - 0x3000000000) := by
  unfold State.place
  repeat rw [if_neg (by omega)]
  rw [if_pos (by omega)]

/-- Bytes of host-core memory below the staging area. -/
theorem State.hostRange_iff (s : State) (a n : Nat) :
    s.hostRange a n = true ↔ s.domHolds 37 = true ∧ 0x3000000000 ≤ a ∧ a + n ≤ 0x3001C00000 := by
  simp [State.hostRange]

/-- A part that writes host-core memory below the staging area is performed at once. -/
theorem State.startPart_host (s : State) {p : HeldPart} {bs : List Byte} (hp : p.data = some bs) (hbs : bs ≠ [])
    (h : s.hostRange p.addr bs.length = true) (slotted : Bool) (seen : EccSeen) :
    Spares True (s.wrBytes p.addr bs) (s.startPart p slotted seen) := by
  obtain ⟨h37, hlo, hhi⟩ := (s.hostRange_iff _ _).mp h
  have hpos := List.length_pos_of_ne_nil hbs
  have hplace := (s.addPart p.id).place_host hlo (by omega)
  have hholds : (s.addPart p.id).domHolds 37 = true := h37
  have hstaging : inStaging (p.addr - 0x3000000000) bs.length = false := by
    simp only [inStaging, decide_eq_false_iff_not]
    omega
  have hput : Spares True (s.wrBytes p.addr bs) ((s.addPart p.id).hostPut (p.addr - 0x3000000000) bs) := by
    rw [State.hostPut, hostKey, Nat.add_sub_cancel' hlo]
    exact Spares.wrBytes_congr ((Spares.refl True s).same (by rfl)) _ _
  rw [State.startPart]
  dsimp only
  rw [State.holdFor, hplace]
  dsimp only
  rw [State.runPart, hp]
  dsimp only
  rw [State.partWrite, hplace]
  dsimp only
  rw [hholds, hstaging, Bool.not_true, if_neg Bool.false_ne_true, Bool.and_false, Bool.false_and, if_neg Bool.false_ne_true]
  exact hput.finishPart _ _ _ _

/-- The blocks of a 64-byte entry. -/
theorem blocksOf_entry {a : Nat} (ha : a % 32 = 0) : blocksOf a 64 = [(a, 0, 32), (a + 32, 32, 32)] := by
  have hcount : (a + 64 + 31) / 32 - a / 32 = 2 := by omega
  simp only [blocksOf, hcount, List.range_succ, List.range_zero, List.nil_append, List.map_cons,
    List.map_nil, List.cons_append, List.cons.injEq, Prod.mk.injEq, and_true]
  omega

/-- A part that a unit of the device writes. -/
def unitPart (id addr pos : Nat) (bs : List Byte) : HeldPart :=
  { id := id, unit := 0, addr := addr, len := 32, pos := pos, data := some bs, req := 0 }

/-- A unit's write of an entry is one part for each of its halves. -/
theorem State.devWrite_entry (s : State) {a : Nat} (ha : a % 32 = 0) {bs : List Byte} (hbs : bs.length = 64) :
    s.devWrite a bs = (((s.openReq [] .nowhere).1.startPart (unitPart s.nextReq a 0 (bs.take 32)) false .clean).startPart
      (unitPart s.nextReq (a + 32) 32 (bs.drop 32)) false .clean).closeReq s.nextReq := by
  have hfst : sliceB bs 0 32 = bs.take 32 := by rw [sliceB_of_le (by omega), List.drop_zero]
  have hsnd : sliceB bs 32 32 = bs.drop 32 := by
    rw [sliceB_of_le (by omega), List.take_of_length_le (by rw [List.length_drop]; omega)]
  simp only [State.devWrite, State.access, State.startPiece, hbs, blocksOf_entry ha, List.foldl_cons, List.foldl_nil,
    List.zipIdx_cons, List.zipIdx_nil, bne_self_eq_false, Bool.false_and, if_neg Bool.false_ne_true, Option.map_some, hfst,
    hsnd, Nat.zero_add]
  rfl

/-- An entry written by a unit to host-core memory stands there, and nothing else has changed. -/
theorem State.devWrite_host (s : State) {a : Nat} (ha : a % 32 = 0) {bs : List Byte} (hbs : bs.length = 64)
    (h : s.hostRange a 64 = true) : Spares True (s.wrBytes a bs) (s.devWrite a bs) := by
  obtain ⟨h37, hlo, hhi⟩ := (s.hostRange_iff _ _).mp h
  have hlen₁ : (bs.take 32).length = 32 := by rw [List.length_take]; omega
  have hlen₂ : (bs.drop 32).length = 32 := by rw [List.length_drop]; omega
  have opened : Spares True s (s.openReq [] .nowhere).1 := (Spares.refl True s).same (by rfl)
  rw [s.devWrite_entry ha hbs]
  generalize (s.openReq [] .nowhere).1 = u at opened
  have range₁ : u.hostRange a (bs.take 32).length = true :=
    (u.hostRange_iff _ _).mpr ⟨(opened.domHolds (by decide)).trans h37, hlo, by omega⟩
  have first := (opened.wrBytes_congr a (bs.take 32)).trans (u.startPart_host (p := unitPart s.nextReq a 0 (bs.take 32)) rfl
    (List.ne_nil_of_length_pos (by omega)) range₁ false .clean)
  generalize u.startPart (unitPart s.nextReq a 0 (bs.take 32)) false .clean = v at first
  have written : Spares False s v := ((Spares.refl False s).wrBytes a (bs.take 32)).trans first.weaken
  have range₂ : v.hostRange (a + 32) (bs.drop 32).length = true :=
    (v.hostRange_iff _ _).mpr ⟨(written.domHolds (by decide)).trans h37, by omega, by omega⟩
  have second := (first.wrBytes_congr (a + 32) (bs.drop 32)).trans (v.startPart_host
    (p := unitPart s.nextReq (a + 32) 32 (bs.drop 32)) rfl (List.ne_nil_of_length_pos (by omega)) range₂ false .clean)
  have hjoin : s.wrBytes a bs = (s.wrBytes a (bs.take 32)).wrBytes (a + 32) (bs.drop 32) := by
    have h := State.wrBytes_append (bs.take 32) (bs.drop 32) s a
    rwa [List.take_append_drop, hlen₁] at h
  rw [hjoin]
  exact second.finishPart _ _ _ _

/-! ### Events on channel 0 (R513) -/

/-- A short head, filled up with zeros. -/
theorem sliceB_zero_of_le {bs : List Byte} {n : Nat} (h : bs.length ≤ n) :
    sliceB bs 0 n = bs ++ List.replicate (n - bs.length) 0#8 := by
  simp only [sliceB, List.drop_zero, List.take_of_length_le h]
  rfl

theorem ofLe_replicate_zero (n : Nat) : ofLe (List.replicate n 0#8) = 0 := by
  induction n with
  | zero => rfl
  | succ n ih => simp [List.replicate_succ, ofLe, ih]

/-- An entry of 60 bytes and its CRC, whose head is at most 56 bytes long, stands where it is written. -/
theorem entry_of_mem {s t : State} {a : Nat} {head : List Byte} (hlen : head.length ≤ 56)
    (hm : t.mem = (s.wrBytes a (sliceB head 0 60 ++ leBytes 4 (crc32c (sliceB head 0 60)))).mem) : Entry t a head := by
  have hbody : sliceB head 0 60 = (head ++ List.replicate (56 - head.length) 0#8) ++ List.replicate 4 0#8 := by
    rw [sliceB_zero_of_le (by omega), List.append_assoc, List.replicate_append_replicate]
    congr 2
    omega
  have hfront : (head ++ List.replicate (56 - head.length) 0#8).length = 56 := by
    rw [List.length_append, List.length_replicate]
    omega
  have hb : (sliceB head 0 60).length = 60 := by rw [hbody, List.length_append, hfront, List.length_replicate]
  generalize sliceB head 0 60 = b at hm hbody hb
  have hall : (b ++ leBytes 4 (crc32c b)).length = 64 := by rw [List.length_append, hb, length_leBytes]
  have hread : ∀ n ≤ 64, t.rdBytes a n = (b ++ leBytes 4 (crc32c b)).take n := fun n hn => by
    rw [State.rdBytes_of_mem_eq hm, State.rdBytes_wrBytes _ _ (hall ▸ hn)]
  have hread64 : t.rdBytes a 64 = b ++ leBytes 4 (crc32c b) := by
    rw [hread 64 le_rfl, List.take_of_length_le hall.le]
  refine ⟨?_, ?_, ?_⟩
  · rw [hread 56 (by omega), hbody, List.append_assoc, List.take_left' hfront, List.take_append,
      List.take_of_length_le hlen, List.take_replicate, Nat.min_eq_left (by omega)]
  · rw [hread64, fieldLe, sliceB_of_le (by omega), hbody, List.append_assoc, List.append_assoc, ← List.append_assoc head,
      List.drop_left' hfront, List.take_left' (List.length_replicate ..), ofLe_replicate_zero]
  · rw [hread64, hread 60 (by omega), List.take_left' hb, fieldLe, sliceB_of_le (by omega), List.drop_left' hb,
      List.take_of_length_le (by rw [length_leBytes]), ofLe_leBytes]
    exact Nat.mod_eq_of_lt (crc32c_lt b)

theorem State.wrBytes_regs (bs : List Byte) (s : State) (a : Nat) : (s.wrBytes a bs).regs = s.regs := by
  induction bs generalizing s a with
  | nil => rfl
  | cons b bs ih => rw [State.wrBytes, ih]; rfl

/-- The write of an entry to a response ring in host-core memory: the entry stands there, RSP_WR has advanced, and no other
register of the mailbox has changed. -/
theorem State.mbxPut_host (s : State) {c : Nat} (hc : c < 2) {body : List Byte} (hlen : body.length ≤ 56)
    (ha : s.getF (Reg.MGT_MBX_RSPBASE c) % 64 = 0) (h : s.hostRange (s.answerAt c) 64 = true) :
    Entry (s.mbxPut c body) (s.answerAt c) body ∧
    (s.mbxPut c body).getF (Reg.MGT_MBX_RSP_WR c) = (s.getF (Reg.MGT_MBX_RSP_WR c) + 1) % 2 ^ 32 ∧
    ∀ g, OfMailbox g → Apart (Reg.MGT_MBX_RSP_WR c) g → (s.mbxPut c body).getF g = s.getF g := by
  have hw : (Reg.MGT_MBX_RSP_WR c).lo + (Reg.MGT_MBX_RSP_WR c).w ≤ 64 := by simp [Reg.MGT_MBX_RSP_WR]
  have hof : OfMailbox (Reg.MGT_MBX_RSP_WR c) := by simp only [OfMailbox, Reg.MGT_MBX_RSP_WR]; omega
  have halign : s.answerAt c % 32 = 0 := by
    simp only [State.answerAt]
    omega
  have stored := s.devWrite_host halign (bs := sliceB body 0 60 ++ leBytes 4 (crc32c (sliceB body 0 60)))
    (by rw [List.length_append, length_leBytes, length_sliceB]) h
  have hput : s.mbxPut c body = ((s.devWrite (s.answerAt c) (sliceB body 0 60 ++
      leBytes 4 (crc32c (sliceB body 0 60)))).addF (Reg.MGT_MBX_RSP_WR c) 1).irqSource (69 + c) := rfl
  rw [hput]
  generalize s.devWrite (s.answerAt c) _ = u at stored
  have told := (Spares.refl True (u.addF (Reg.MGT_MBX_RSP_WR c) 1)).irqSource (69 + c)
  have hu : ∀ g, OfMailbox g → u.getF g = s.getF g := fun g hg =>
    (stored.mbx trivial g hg).trans (State.getF_of_regs_eq (State.wrBytes_regs _ _ _) g)
  refine ⟨entry_of_mem hlen ((told.mem trivial).trans (stored.mem trivial)), ?_, fun g hg hap => ?_⟩
  · rw [told.mbx trivial _ hof, State.addF, State.getF_setF _ _ _ hw, hu _ hof]
    rfl
  · rw [told.mbx trivial _ hg, State.addF, State.getF_setF_ne _ _ _ _ hw hap, hu _ hg]

/-- The mailbox takes two states for one: its registers, its lost events and domain 37 are the same. -/
structure SameBox (s t : State) : Prop where
  regs : ∀ g, OfMailbox g → t.getF g = s.getF g
  lost : t.stw.lost = s.stw.lost
  dom : t.domHolds 37 = s.domHolds 37

theorem Spares.sameBox {s t : State} (h : Spares True s t) : SameBox s t :=
  ⟨h.mbx trivial, h.lost trivial, h.domHolds (by decide)⟩

namespace SameBox

variable {s t u : State}

theorem hearsEvents (h : SameBox s t) : t.hearsEvents = s.hearsEvents := by
  simp only [State.hearsEvents, State.flag, State.mbxRoom, State.answerAt, State.hostRange, h.dom, h.lost,
    h.regs (Reg.MGT_MBX_CTL_EN 0) (by decide), h.regs (Reg.MGT_MBX_CTL_EN 1) (by decide),
    h.regs (Reg.MGT_MBX_RSP_WR 0) (by decide), h.regs (Reg.MGT_MBX_RSP_RD 0) (by decide),
    h.regs (Reg.MGT_MBX_CTL_LOG2 0) (by decide), h.regs (Reg.MGT_MBX_RSPBASE 0) (by decide)]
  rfl

/-- What is told after one of the states is told after the other. -/
theorem told {code : Nat} {result : List Byte} (hs : SameBox s t) (h : Told t u code result) : Told s u code result := by
  simpa only [Told, State.answerAt, hs.regs (Reg.MGT_MBX_RSPBASE 0) (by decide),
    hs.regs (Reg.MGT_MBX_RSP_WR 0) (by decide), hs.regs (Reg.MGT_MBX_CTL_LOG2 0) (by decide)] using h

end SameBox

/-- An event that is heard is told. -/
theorem State.mbxEvent_told {s : State} (h : s.hearsEvents = true) (code : Nat) {result : List Byte}
    (hlen : result.length ≤ 48) : Told s (s.mbxEvent code result) code result := by
  simp only [State.hearsEvents, Bool.and_eq_true, Bool.not_eq_true', decide_eq_true_eq] at h
  obtain ⟨⟨⟨⟨⟨hen, hroom⟩, hrange⟩, hlost⟩, hbase⟩, hother⟩ := h
  obtain ⟨hentry, hwr, hkept⟩ := s.mbxPut_host (c := 0) (by decide)
    (body := leBytes 2 0xFFFF ++ leBytes 1 code ++ leBytes 5 0 ++ result)
    (by simp only [List.length_append, length_leBytes]; omega) hbase hrange
  have hquiet : s.tellLost 0 = s := by rw [State.tellLost, hlost, if_pos (Or.inl rfl)]
  have hfirst : State.eventOn code result 0 s =
      s.mbxPut 0 (leBytes 2 0xFFFF ++ leBytes 1 code ++ leBytes 5 0 ++ result) := by
    rw [State.eventOn, if_pos hen, hquiet, if_pos hroom]
  have hsecond : (s.mbxPut 0 (leBytes 2 0xFFFF ++ leBytes 1 code ++ leBytes 5 0 ++ result)).flag
      (Reg.MGT_MBX_CTL_EN 1) = false := by
    rw [State.flag, hkept _ (by decide) (Or.inl (by decide))]
    exact hother
  rw [State.mbxEvent, hfirst, State.eventOn, hsecond, if_neg Bool.false_ne_true]
  exact ⟨hentry, hwr⟩

end Sys2Proof.Machine

/-! ### The gPTP servo (R518) -/

namespace Sys2Proof.Machine

variable {s t : State}

theorem exec_gptpServo (offset : Int) (gm : W64) (s : State) :
    exec (.gptpServo offset gm) s = execGptpServo offset gm s := rfl

theorem exec_gptpSyncTimeout (s : State) : exec .gptpSyncTimeout s = execGptpSyncTimeout s := rfl

theorem SameMem.of_mem_eq (h : t.mem = s.mem) : SameMem s t := fun a => by rw [State.rdByte, State.rdByte, h]

/-! A change of lock -/

/-- The state in which a change of lock is told. -/
def State.lockSet (s : State) (on : Bool) : State :=
  (s.setStw { s.stw with lock := on, small := 0 }).setF Reg.BGW_TIME_CFG_LOCKED (b2n on)

theorem State.lockSet_sameBox (s : State) (on : Bool) : SameBox s (s.lockSet on) where
  regs g hg := State.getF_setF_ne _ _ _ _ (by decide) (Or.inl fun h => by
    rw [OfMailbox, ← h] at hg
    exact absurd hg (by decide))
  lost := rfl
  dom := by
    rw [State.domHolds, State.dom, State.lockSet, State.getF_setF_ne _ _ _ _ (by decide) (Or.inl (by decide))]
    rfl

/-- Telling a change of lock leaves the rest of the state in which it is told. -/
theorem State.setLock_spares (s : State) (on : Bool) (code : Nat) (result : List Byte) :
    Spares False (s.lockSet on) (s.setLock on code result) := (Spares.refl False _).mbxEvent code result

theorem State.setLock_lock (s : State) (on : Bool) (code : Nat) (result : List Byte) :
    (s.setLock on code result).stw.lock = on := (s.setLock_spares on code result).firm_eq Stw.lock (fun _ => rfl)

theorem State.setLock_locked (s : State) (on : Bool) (code : Nat) (result : List Byte) :
    (s.setLock on code result).getF Reg.BGW_TIME_CFG_LOCKED = b2n on := by
  rw [(s.setLock_spares on code result).regs _ (Or.inl (by simp)), State.lockSet, State.getF_setF _ _ _ (by decide)]
  cases on <;> rfl

theorem State.setLock_told (h : s.hearsEvents = true) (on : Bool) (code : Nat) {result : List Byte}
    (hlen : result.length ≤ 48) : Told s (s.setLock on code result) code result :=
  (s.lockSet_sameBox on).told (State.mbxEvent_told ((s.lockSet_sameBox on).hearsEvents.trans h) code hlen)

/-! An update on a device that follows gPTP -/

/-- The offset of an update is stepped away. -/
def State.Steps (s : State) (offset : Int) : Prop :=
  s.param 14 < offset.natAbs ∧ s.allIdle = true ∧ (∀ n, n < 4 → s.resident n = true → (s.pipe n).quosk = false) ∧
    s.followsGptp = true

/-- The offsets below the threshold in a row, up to 16. -/
def State.smallOffsets (s : State) (offset : Int) : Nat :=
  if offset.natAbs < s.param 13 then min 16 (s.stw.small + 1) else 0

/-- The state that an update has recorded and corrected, before a change of lock. -/
def State.servoed (s : State) (offset : Int) (gm : W64) : State :=
  (s.setStw { s.stw with offset := offset, gm := gm.toNat, small := s.smallOffsets offset }).correct offset

/-- An update has recorded the offset and the grandmaster and has corrected the Almanac. -/
structure Servoed (s t : State) (offset : Int) (gm : W64) : Prop where
  offset_eq : t.stw.offset = offset
  gm_eq : t.stw.gm = gm.toNat
  slews : ¬ s.Steps offset → t.alm.alm = s.alm.alm ∧ t.alm.slewRem =
    min 500000000 (max (-500000000) (s.alm.slewRem - 500 * min 1000000 (max (-1000000) offset)))
  steps : s.Steps offset → 0 < offset → offset < 2 ^ 40 → s.alm.crystal = false →
    t.alm.alm = (((s.ticks 1).alm.alm : Int) - offset * 65536 * (unitFrac : Int)).toNat

/-- A change of lock after the update keeps what it has done. -/
theorem Servoed.setLock {offset : Int} {gm : W64} (h : Servoed s t offset gm) (on : Bool) (code : Nat) (result : List Byte) :
    Servoed s (t.setLock on code result) offset gm := by
  have hs := t.setLock_spares on code result
  have halm : (t.setLock on code result).alm = t.alm := hs.alm
  refine ⟨(hs.firm_eq Stw.offset (fun _ => rfl)).trans h.offset_eq, (hs.firm_eq Stw.gm (fun _ => rfl)).trans h.gm_eq, ?_, ?_⟩
  · rw [halm]
    exact h.slews
  · rw [halm]
    exact h.steps

/-- What the correction of an update does, and what it leaves alone. -/
theorem State.servoed_facts (s : State) (offset : Int) (gm : W64) :
    Servoed s (s.servoed offset gm) offset gm ∧ (s.servoed offset gm).stw.lock = s.stw.lock ∧
    (s.servoed offset gm).getF Reg.BGW_TIME_CFG_LOCKED = s.getF Reg.BGW_TIME_CFG_LOCKED ∧
    SameMem s (s.servoed offset gm) ∧ SameBox s (s.servoed offset gm) := by
  have hstep : s.Steps offset ↔ s.param 14 < offset.natAbs ∧ s.mayStep = true :=
    and_congr_right fun _ => (State.mayStep_iff s).symm
  obtain ⟨a, b, hs, hslews, hsteps⟩ := State.correct_spares
    (s.setStw { s.stw with offset := offset, gm := gm.toNat, small := s.smallOffsets offset }) offset
  have halm : (s.servoed offset gm).alm = a := hs.alm
  refine ⟨⟨hs.firm_eq Stw.offset (fun _ => rfl), hs.firm_eq Stw.gm (fun _ => rfl), fun h => ?_, fun h => ?_⟩,
    hs.firm_eq Stw.lock (fun _ => rfl), hs.regs _ (Or.inl (by simp)),
    .of_mem_eq (hs.mem trivial), ?_⟩
  · rw [halm]
    exact hslews (mt hstep.mpr h)
  · rw [halm]
    exact hsteps (hstep.mp h)
  · obtain ⟨hregs, hlost, hdom⟩ := hs.sameBox
    exact ⟨hregs, hlost, hdom⟩

section

variable (hs : s.serving = true) (hf : s.followsGptp = true)
include hs hf

/-- An update of a servo in lock. -/
theorem State.gptpServo_locked (hl : s.stw.lock = true) (offset : Int) (gm : W64) : exec (.gptpServo offset gm) s =
    .next (if 10 * s.param 13 < offset.natAbs then (s.servoed offset gm).setLock false 0x82 (leBytes 1 1)
      else s.servoed offset gm) := by
  rw [exec_gptpServo, execGptpServo, hs, hf]
  exact if_pos hl

/-- An update of a servo out of lock. -/
theorem State.gptpServo_unlocked (hl : s.stw.lock = false) (offset : Int) (gm : W64) : exec (.gptpServo offset gm) s =
    .next (if s.smallOffsets offset = 16 then
        (s.servoed offset gm).setLock true 0x81 (leBytes 8 0 ++ leBytes 8 (uint 64 offset))
      else s.servoed offset gm) := by
  rw [exec_gptpServo, execGptpServo, hs, hf]
  exact if_neg (show ¬ s.stw.lock = true by rw [hl]; decide)

end

/-- The servo of a device that follows gPTP: an update corrects the Almanac, and a change of lock follows it. -/
theorem State.gptpServo_does (hs : s.serving = true) (hf : s.followsGptp = true) (offset : Int) (gm : W64) :
    let gain := s.stw.lock = false ∧ s.smallOffsets offset = 16
    let lose := s.stw.lock = true ∧ 10 * s.param 13 < offset.natAbs
    Does (.gptpServo offset gm) s (fun t => Servoed s t offset gm ∧
      (t.stw.lock = true ↔ gain ∨ (s.stw.lock = true ∧ ¬ lose)) ∧
      (gain → t.getF Reg.BGW_TIME_CFG_LOCKED = 1 ∧ (s.hearsEvents = true →
        Told s t 0x81 (leBytes 8 0 ++ leBytes 8 (uint 64 offset)))) ∧
      (lose → t.getF Reg.BGW_TIME_CFG_LOCKED = 0 ∧ (s.hearsEvents = true → Told s t 0x82 (leBytes 1 1))) ∧
      (¬ gain → ¬ lose → t.getF Reg.BGW_TIME_CFG_LOCKED = s.getF Reg.BGW_TIME_CFG_LOCKED ∧ SameMem s t)) := by
  intro gain lose
  obtain ⟨hservo, hlock, hlocked, hmem, hbox⟩ := s.servoed_facts offset gm
  have told : s.hearsEvents = true → ∀ on code {result : List Byte}, result.length ≤ 48 →
      Told s ((s.servoed offset gm).setLock on code result) code result :=
    fun hh on code _ hlen => hbox.told (State.setLock_told (hbox.hearsEvents.trans hh) on code hlen)
  by_cases hl : s.stw.lock = true
  · have hgain : ¬ gain := fun h => absurd h.1 (by rw [hl]; decide)
    refine Does.of_next (State.gptpServo_locked hs hf hl offset gm) ?_
    by_cases hfar : 10 * s.param 13 < offset.natAbs
    · have hlose : lose := ⟨hl, hfar⟩
      rw [if_pos hfar]
      refine ⟨hservo.setLock _ _ _, ?_, fun h => absurd h hgain,
        fun _ => ⟨State.setLock_locked _ _ _ _, fun hh => told hh _ _ (by decide)⟩, fun _ h => absurd hlose h⟩
      rw [State.setLock_lock]
      simp [hgain, hlose]
    · have hlose : ¬ lose := fun h => hfar h.2
      rw [if_neg hfar]
      refine ⟨hservo, ?_, fun h => absurd h hgain, fun h => absurd h hlose, fun _ _ => ⟨hlocked, hmem⟩⟩
      rw [hlock]
      simp [hlose, hl]
  · have hl' : s.stw.lock = false := by simpa using hl
    have hlose : ¬ lose := fun h => hl h.1
    refine Does.of_next (State.gptpServo_unlocked hs hf hl' offset gm) ?_
    by_cases hsmall : s.smallOffsets offset = 16
    · have hgain : gain := ⟨hl', hsmall⟩
      rw [if_pos hsmall]
      refine ⟨hservo.setLock _ _ _, ?_, fun _ => ⟨State.setLock_locked _ _ _ _, fun hh => told hh _ _ ?_⟩,
        fun h => absurd h hlose, fun h => absurd hgain h⟩
      · rw [State.setLock_lock]
        simp [hgain]
      · rw [List.length_append, length_leBytes, length_leBytes]
        decide
    · have hgain : ¬ gain := fun h => hsmall h.2
      rw [if_neg hsmall]
      refine ⟨hservo, ?_, fun h => absurd h hgain, fun h => absurd h hlose, fun _ _ => ⟨hlocked, hmem⟩⟩
      rw [hlock]
      simp [hgain, hl']

/-- A device that follows no gPTP may not step time: it slews by the offset that its UPLINK has measured (log entry 120). -/
theorem State.gptpServo_follower (hs : s.serving = true) (hf : s.followsGptp = false) (offset : Int) (gm : W64) :
    exec (.gptpServo offset gm) s = .next (if s.linkUp (s.getF Reg.QSK_TIME_UPLINK) = true then
      s.setAlm { s.alm with slewRem := min 500000000 (max (-500000000) (s.alm.slewRem + 500 * min 1000000
        (max (-1000000) (s.getI (Reg.QSK_L_OFFSET (s.getF Reg.QSK_TIME_UPLINK)))))) } else s) := by
  have hno : s.mayStep = false := by rw [State.mayStep, hf, Bool.and_false]
  rw [exec_gptpServo, execGptpServo, hs, hf, if_neg (by decide), if_pos (by decide)]
  dsimp only
  rw [State.correct_slews (by simp [hno])]
  generalize s.getI _ = theta
  have hneg : s.alm.slewRem - 500 * min 1000000 (max (-1000000) (-theta)) =
      s.alm.slewRem + 500 * min 1000000 (max (-1000000) theta) := by omega
  rw [hneg]

end Sys2Proof.Machine

/-! ### The watchdog (R524, R551) -/

namespace Sys2Proof.Machine

variable {s : State}

theorem exec_mgtWdogKick (w : WriteReq) (s : State) : exec (.mgtWdogKick w) s = execMgtWdogKick w s := rfl

theorem exec_wdogExpire (s : State) : exec .wdogExpire s = execWdogExpire s := rfl

theorem exec_mgtStwRestart (w : WriteReq) (s : State) : exec (.mgtStwRestart w) s = execMgtStwRestart w s := rfl

/-- A write of bits 31:0 sets the bit of a field at bit 0. -/
theorem wBit_of_coversLo {w : WriteReq} {f : Fld} (hw : coversLo w.half = true) (hf : f.lo = 0) :
    wBit w f = decide (w.field f = 1) := by
  rw [wBit, wField_of_coversLo hw hf]
  by_cases h : w.field f = 1 <;> simp [h]

theorem State.getF_setStw (s : State) (x : Stw) (g : Fld) : (s.setStw x).getF g = s.getF g := rfl

/-- A write of KICK restarts the watchdog. -/
theorem State.mgtWdogKick_takes {w : WriteReq} (ht : s.takes w Reg.MGT_WDOG_KICK.off = true) (hw : coversLo w.half = true) :
    exec (.mgtWdogKick w) s = .next ((if w.field Reg.MGT_WDOG_KICK = 1 then
      (s.setF Reg.MGT_WDOG_ARMED 1).setStw { s.stw with kicked := s.now } else s).answer .ok 0#64) := by
  rw [exec_mgtWdogKick, execMgtWdogKick, State.gated_takes _ _ _ _ ht, State.writeWdog, wBit_of_coversLo hw rfl]
  simp only [decide_eq_true_eq]

/-- The state that a KICK leaves. -/
theorem State.kicked_facts (s : State) (x : Stw) (hx : x.kicked = s.now) :
    let t := ((s.setF Reg.MGT_WDOG_ARMED 1).setStw x).answer .ok 0#64
    t.getF Reg.MGT_WDOG_ARMED = 1 ∧ t.stw.kicked = s.now ∧ SameRegs [Reg.MGT_WDOG_ARMED] s t ∧
      t = ((s.setRegs t.regs).setStw t.stw).setResp t.resp := by
  have hregs := (SameRegs.refl [Reg.MGT_WDOG_ARMED] s).setF (f := Reg.MGT_WDOG_ARMED) 1 (by simp) (by decide)
  refine ⟨?_, hx, hregs.of_regs_eq rfl, rfl⟩
  rw [State.answer_getF, State.getF_setStw, State.getF_setF _ _ _ (by decide)]
  rfl

/-! An interrupt of the host side -/

theorem State.sendMsix_regs (s : State) (v : Nat) : (s.sendMsix v).regs = s.regs := by
  unfold State.sendMsix
  split
  · rfl
  · split <;> rfl

theorem State.irqSource_regs (s : State) (src : Nat) : (s.irqSource src).regs = s.regs := by
  unfold State.irqSource
  dsimp only
  generalize (if src = 68 then 0 else s.getF (Reg.MGT_IRQ_ROUTE_DEST src)) = dest
  split_ifs
  · rfl
  · exact State.sendMsix_regs _ _
  · rfl

/-- A source that its route sends to the PLIC is pending there. -/
theorem State.irqSource_plic {src : Nat} (h68 : src ≠ 68) (h : s.getF (Reg.MGT_IRQ_ROUTE_DEST src) = 0) :
    SMap.get (fun _ => false) (s.irqSource src).irq.plic src = true := by
  rw [State.irqSource, if_neg h68, h]
  dsimp only
  rw [if_pos rfl]
  exact SMap.get_put_self (fun _ => false) s.irq.plic src true

/-- Time moves the Almanac's count alone. -/
theorem State.reach_eq (s : State) (x : Nat) : s.reach x = s.setAlm (s.reach x).alm := by
  unfold State.reach
  split <;> rfl

/-- The watchdog expires 100 ms after the last KICK. -/
theorem State.wdogExpire_due (h : s.flag Reg.MGT_WDOG_ARMED = true ∧ s.flag Reg.MGT_WDOG_EXPIRED = false) :
    exec .wdogExpire s =
      .next (((s.reach (s.stw.kicked + 100000000)).setF Reg.MGT_WDOG_EXPIRED 1).irqSource 71) := by
  rw [exec_wdogExpire, execWdogExpire, h.1, h.2]
  rfl

theorem State.wdogExpire_idle (h : ¬ (s.flag Reg.MGT_WDOG_ARMED = true ∧ s.flag Reg.MGT_WDOG_EXPIRED = false)) :
    exec .wdogExpire s = .next s := by
  rw [exec_wdogExpire, execWdogExpire, if_neg (by simpa using h)]

/-- What the expiry does. -/
theorem State.expired_facts (s : State) (x : Nat) :
    let t := ((s.reach x).setF Reg.MGT_WDOG_EXPIRED 1).irqSource 71
    t.getF Reg.MGT_WDOG_EXPIRED = 1 ∧ t.now = (s.reach x).now ∧
      (s.getF (Reg.MGT_IRQ_ROUTE_DEST 71) = 0 → SMap.get (fun _ => false) t.irq.plic 71 = true) ∧
      SameRegs [Reg.MGT_WDOG_EXPIRED] s t ∧ SameMem s t := by
  rw [s.reach_eq x]
  generalize (s.reach x).alm = a
  have hs := (Spares.refl True ((s.setAlm a).setF Reg.MGT_WDOG_EXPIRED 1)).irqSource 71
  have hset : SameRegs [Reg.MGT_WDOG_EXPIRED] s ((s.setAlm a).setF Reg.MGT_WDOG_EXPIRED 1) :=
    ((SameRegs.refl _ s).of_regs_eq rfl : SameRegs _ s (s.setAlm a)).setF 1 (by simp) (by decide)
  refine ⟨?_, congrArg (fun b => b.alm / unitNs % 2 ^ 64) hs.alm, fun hdest => State.irqSource_plic (by decide) ?_,
    hset.of_regs_eq (State.irqSource_regs _ _), .of_mem_eq (hs.mem trivial)⟩
  · rw [State.getF_of_regs_eq (State.irqSource_regs _ _), State.getF_setF _ _ _ (by decide)]
    rfl
  · rw [hset.apart (Or.inl (by decide))]
    exact hdest

/-! ### The steward restart (R536) -/

theorem SMap.get_foldl_put {α : Type} [DecidableEq α] (d : Nat → α) (l : List α) (m : List (Nat × α)) (k i : Nat) :
    SMap.get d ((l.zipIdx k).foldl (fun m e => SMap.put d m e.2 e.1) m) i =
      if k ≤ i ∧ i < k + l.length then l.getD (i - k) (d i) else SMap.get d m i := by
  induction l generalizing m k with
  | nil => simp
  | cons x l ih =>
    rw [List.zipIdx_cons, List.foldl_cons, ih, List.length_cons]
    by_cases hx : i = k
    · subst hx
      rw [if_neg (by omega), if_pos (by omega), SMap.get_put_self, Nat.sub_self, List.getD_cons_zero]
    · rw [SMap.get_put_ne _ _ _ _ _ hx]
      by_cases hin : k + 1 ≤ i ∧ i < k + 1 + l.length
      · obtain ⟨j, rfl⟩ : ∃ j, i = k + j + 1 := ⟨i - k - 1, by omega⟩
        rw [if_pos hin, if_pos (by omega), show k + j + 1 - k = j + 1 by omega, List.getD_cons_succ]
        congr 1
        omega
      · rw [if_neg hin, if_neg (by omega)]

/-- The state that a restart checks the staged image in. -/
def State.halfReset (s : State) : State :=
  ((s.setF Reg.MGT_WDOG_EXPIRED 0).setF Reg.MGT_WDOG_ARMED 0).setStw { s.stw with sram := [], sramEcc := [] }

theorem State.halfReset_staged (s : State) : s.halfReset.staged = s.staged := rfl

theorem State.halfReset_mem (s : State) : s.halfReset.mem = s.mem := rfl

theorem State.halfReset_sameRegs (s : State) : SameRegs [Reg.MGT_WDOG_EXPIRED, Reg.MGT_WDOG_ARMED] s s.halfReset := by
  have hset : SameRegs [Reg.MGT_WDOG_EXPIRED, Reg.MGT_WDOG_ARMED] s
      ((s.setF Reg.MGT_WDOG_EXPIRED 0).setF Reg.MGT_WDOG_ARMED 0) :=
    ((SameRegs.refl _ s).setF 0 (by simp) (by decide)).setF 0 (by simp) (by decide)
  exact hset.of_regs_eq (by rw [State.halfReset, State.setStw_regs])

theorem State.halfReset_getF (s : State) {g : Fld} (hg : g.off ≠ 0x88) : s.halfReset.getF g = s.getF g :=
  s.halfReset_sameRegs g fun f hf => by
    simp only [List.mem_cons, List.not_mem_nil, or_false] at hf
    rcases hf with rfl | rfl <;> exact Or.inl hg.symm

theorem State.halfReset_expired (s : State) : s.halfReset.getF Reg.MGT_WDOG_EXPIRED = 0 := by
  rw [State.halfReset, State.getF_setStw, State.getF_setF_ne _ _ _ _ (by decide) (Or.inr (Or.inr (by decide))),
    State.getF_setF _ _ _ (by decide)]
  rfl

theorem State.halfReset_domHolds (s : State) (x : Nat) : s.halfReset.domHolds x = s.domHolds x := by
  rw [State.domHolds, State.dom, s.halfReset_getF (by simp only [Reg.PWR_DOM_STAT_STATE]; omega)]
  rfl

theorem State.halfReset_imageBoots (s : State) (im : List Byte) : s.halfReset.imageBoots im = s.imageBoots im := by
  simp only [State.imageBoots, State.imageValid, s.halfReset_getF (g := Reg.MGT_OTP_STAT_SVN) (by decide),
    s.halfReset_getF (g := Reg.MGT_OTP_STAT_STW_PROG) (by decide),
    s.halfReset_getF (g := Reg.MGT_OTP_STAT_STW_REVOKED) (by decide)]
  rfl

/-- What RESTART does to a state: nothing, a start of the staged image, or error 6. -/
theorem State.writeStwCtl_eq (w : WriteReq) (s : State) : State.writeStwCtl w s =
    if (wBit w Reg.MGT_STW_CTL_RESTART && s.flag Reg.MGT_WDOG_EXPIRED) = true then
      if (s.halfReset.domHolds 37 && s.halfReset.imageBoots s.halfReset.staged) = true then
        (s.halfReset.startImage s.halfReset.stw.bank s.halfReset.staged).restarted
      else (s.halfReset.bootError 6).setRun .halted
    else s := rfl

theorem State.mgtStwRestart_takes {w : WriteReq} (ht : s.takes w Reg.MGT_STW_CTL_RESTART.off = true)
    (hw : coversLo w.half = true) : exec (.mgtStwRestart w) s = .next ((
      if w.field Reg.MGT_STW_CTL_RESTART = 1 ∧ s.flag Reg.MGT_WDOG_EXPIRED = true then
        if s.domHolds 37 = true ∧ s.imageBoots s.staged = true then
          (s.halfReset.startImage s.halfReset.stw.bank s.staged).restarted
        else (s.halfReset.bootError 6).setRun .halted
      else s).answer .ok 0#64) := by
  rw [exec_mgtStwRestart, execMgtStwRestart, State.gated_takes _ _ _ _ ht, State.writeStwCtl_eq, wBit_of_coversLo hw rfl,
    s.halfReset_staged, s.halfReset_domHolds, s.halfReset_imageBoots]
  simp only [Bool.and_eq_true, decide_eq_true_eq]

/-! A staged image that starts -/

/-- What the start of an image sets (R535). -/
theorem State.startImage_eq (s : State) (bank : Nat) (im : List Byte) : ∃ x : Stw, s.startImage bank im =
    ((((s.setF Reg.MGT_HCM_LOCK 1).setF Reg.MGT_HOST_WMASK 0).setF Reg.MGT_BOOT_STAT_BANK bank).phase 0x08).setStw x ∧
    x.run = .firmware ∧ x.params = [] ∧ x.version = fieldLe im 4 4 ∧ x.svn = fieldLe im 8 4 ∧ x.sram =
      ((im.drop 32).take (codeLen im)).zipIdx.foldl (fun m e => SMap.put (fun _ => 0#8) m e.2 e.1) s.stw.sram :=
  ⟨_, rfl, rfl, rfl, rfl, rfl, rfl⟩

theorem State.startImage_regs (s : State) (bank : Nat) (im : List Byte) : (s.startImage bank im).regs =
    ((((s.setF Reg.MGT_HCM_LOCK 1).setF Reg.MGT_HOST_WMASK 0).setF Reg.MGT_BOOT_STAT_BANK bank).phase 0x08).regs := by
  obtain ⟨x, hx, _⟩ := s.startImage_eq bank im
  rw [hx, State.setStw_regs]

/-- An image that starts clears the grants of the host side. -/
theorem State.startImage_wmask (s : State) (bank : Nat) (im : List Byte) :
    (s.startImage bank im).getF Reg.MGT_HOST_WMASK = 0 := by
  rw [State.getF_of_regs_eq (s.startImage_regs bank im), State.phase,
    State.getF_setF_ne _ _ _ _ (by decide) (Or.inl (by decide)),
    State.getF_setF_ne _ _ _ _ (by decide) (Or.inl (by decide)), State.getF_setF _ _ _ (by decide)]
  rfl

theorem State.startImage_getF (s : State) (bank : Nat) (im : List Byte) {g : Fld}
    (hg : g.off ∉ [0x30, 0x40, 0x58]) : (s.startImage bank im).getF g = s.getF g := by
  have ⟨h30, h40, h58⟩ : g.off ≠ 0x30 ∧ g.off ≠ 0x40 ∧ g.off ≠ 0x58 := by simpa using hg
  rw [State.getF_of_regs_eq (s.startImage_regs bank im), State.phase,
    State.getF_setF_ne _ _ _ _ (by decide) (Or.inl h30.symm), State.getF_setF_ne _ _ _ _ (by decide) (Or.inl h30.symm),
    State.getF_setF_ne _ _ _ _ (by decide) (Or.inl h58.symm), State.getF_setF_ne _ _ _ _ (by decide) (Or.inl h40.symm)]

/-- The state of an image that has started, with its grants and its last phase (log entry 62). -/
def State.rebooted (s : State) (bank : Nat) (im : List Byte) : State := (s.startImage bank im).grantHost.phase 0x16

theorem State.rebooted_getF (s : State) (bank : Nat) (im : List Byte) {g : Fld}
    (hg : g.off ∉ [0x30, 0x40, 0x58]) : (s.rebooted bank im).getF g = s.getF g := by
  have ⟨h30, _, h58⟩ : g.off ≠ 0x30 ∧ g.off ≠ 0x40 ∧ g.off ≠ 0x58 := by simpa using hg
  rw [State.rebooted, State.phase, State.getF_setF_ne _ _ _ _ (by decide) (Or.inl h30.symm), State.grantHost,
    State.getF_setF_ne _ _ _ _ (by decide) (Or.inl h58.symm), State.startImage_getF _ _ _ hg]

theorem State.rebooted_phase (s : State) (bank : Nat) (im : List Byte) :
    (s.rebooted bank im).getF Reg.MGT_BOOT_STAT_PHASE = 0x16 := State.getF_setF _ _ _ (by decide)

theorem State.rebooted_wmask (s : State) (bank : Nat) (im : List Byte) :
    (s.rebooted bank im).getF Reg.MGT_HOST_WMASK = 0x360 := by
  rw [State.rebooted, State.phase, State.getF_setF_ne _ _ _ _ (by decide) (Or.inl (by decide)), State.grantHost,
    s.startImage_wmask, State.getF_setF _ _ _ (by decide)]
  rfl

/-- Bytes put one after the other from key 0 on, read back. -/
theorem SMap.get_code (bs : List Byte) {i n : Nat} (hi : i < n) :
    SMap.get (fun _ => 0#8) (((bs.drop 32).take n).zipIdx.foldl (fun m e => SMap.put (fun _ => 0#8) m e.2 e.1) []) i =
      bs.getD (32 + i) 0#8 := by
  rw [SMap.get_foldl_put, Nat.sub_zero, Nat.zero_add]
  split
  · rw [List.getD_eq_getElem?_getD, List.getElem?_take_of_lt hi, List.getElem?_drop, List.getD_eq_getElem?_getD]
  next hlen =>
    rw [List.length_take, List.length_drop] at hlen
    rw [List.getD_eq_default _ _ (by omega)]
    rfl

end Sys2Proof.Machine

/-! ### Outcomes of a steward restart, and the obligation -/

namespace Sys2Proof.Machine

variable {s : State}

/-- What stands once a staged image has started and restarted firmware has done its work. -/
structure Restarted (s t : State) (im : List Byte) : Prop where
  run : t.stw.run = .firmware
  phase : t.getF Reg.MGT_BOOT_STAT_PHASE = 0x16
  wmask : t.getF Reg.MGT_HOST_WMASK = 0x360
  param : ∀ k, k < 20 → t.param k = paramDefault k
  version : t.stw.version = fieldLe im 4 4
  svn : t.stw.svn = fieldLe im 8 4
  sram : ∀ i, i < codeLen im → SMap.get (fun _ => 0#8) t.stw.sram i = im.getD (32 + i) 0#8
  load : t.load = s.load
  bgw : t.bgw = s.bgw
  now : t.now = s.now
  regs : ∀ g, Standing g → g.off ∉ [0x30, 0x40, 0x58] → t.getF g = s.getF g

/-- A state that differs from another in its registers and in firmware's own state. -/
def RegsStw (s : State) (x : Stw) (t : State) : Prop := ∃ r, t = (s.setRegs r).setStw x

theorem RegsStw.setF {x : Stw} {t : State} (h : RegsStw s x t) (f : Fld) (v : Nat) : RegsStw s x (t.setF f v) := by
  obtain ⟨r, rfl⟩ := h
  exact ⟨SMap.put Reg.reset r f.off (insField (((s.setRegs r).setStw x).word f.off) f.lo f.w v), rfl⟩

theorem RegsStw.setStw {x : Stw} {t : State} (h : RegsStw s x t) (y : Stw) : RegsStw s y (t.setStw y) := by
  obtain ⟨r, rfl⟩ := h
  exact ⟨r, rfl⟩

theorem State.rebooted_regsStw {x : Stw} {bank : Nat} {im : List Byte} (hx : s.startImage bank im =
    ((((s.setF Reg.MGT_HCM_LOCK 1).setF Reg.MGT_HOST_WMASK 0).setF Reg.MGT_BOOT_STAT_BANK bank).phase 0x08).setStw x) :
    RegsStw s x (s.rebooted bank im) := by
  have h0 : RegsStw s s.stw s := ⟨s.regs, rfl⟩
  rw [State.rebooted, hx]
  exact ((((((h0.setF _ _).setF _ _).setF _ _).setF _ _).setStw x).setF _ _).setF _ _

theorem Spares.answer {q : Prop} {s t : State} (h : Spares q s t) (st : Status) (v : W64) : Spares q s (t.answer st v) :=
  h.same (by rfl)

/-- What is spared after a state in which firmware's own state is `x` alone, beside registers. -/
theorem Spares.of_regsStw {x : Stw} {r t : State} (h : Spares False r t) (hr : RegsStw s x r) :
    t.load = s.load ∧ t.bgw = s.bgw ∧ t.now = s.now ∧
      ∀ {α : Type} (f : Stw → α), (∀ y, f y.firm = f y) → f t.stw = f x := by
  obtain ⟨regs, rfl⟩ := hr
  exact ⟨h.load, h.bgw, congrArg (fun a => a.alm / unitNs % 2 ^ 64) h.alm, fun f hf => h.firm_eq f hf⟩

theorem State.startImage_restarted (hs : s.stw.sram = []) (bank : Nat) (im : List Byte) :
    Restarted s ((s.startImage bank im).restarted.answer .ok 0#64) im := by
  have h : Spares False (s.rebooted bank im) ((s.startImage bank im).restarted.answer .ok 0#64) :=
    (Spares.restarted (Spares.refl False _)).answer _ _
  obtain ⟨x, hx, hrun, hparams, hversion, hsvn, hsram⟩ := s.startImage_eq bank im
  obtain ⟨hload, hbgw, hnow, firm⟩ := h.of_regsStw (State.rebooted_regsStw hx)
  exact {
    run := (firm Stw.run fun _ => rfl).trans hrun
    phase := (h.regs _ (Or.inl (by simp))).trans (s.rebooted_phase bank im)
    wmask := (h.regs _ (Or.inl (by simp))).trans (s.rebooted_wmask bank im)
    param := fun k _ => by
      rw [State.param, firm Stw.params fun _ => rfl, hparams]
      rfl
    version := (firm Stw.version fun _ => rfl).trans hversion
    svn := (firm Stw.svn fun _ => rfl).trans hsvn
    sram := fun i hi => by
      rw [firm Stw.sram fun _ => rfl, hsram, hs]
      exact SMap.get_code im hi
    load := hload
    bgw := hbgw
    now := hnow
    regs := fun g hg hoff => (h.regs g hg).trans (s.rebooted_getF bank im hoff) }

/-- A write of RESTART while EXPIRED, with a staged image that boots, starts it in the state whose SRAM has been cleared. -/
theorem State.mgtStwRestart_boots {w : WriteReq} (ht : s.takes w Reg.MGT_STW_CTL_RESTART.off = true)
    (hw : coversLo w.half = true) (hacts : w.field Reg.MGT_STW_CTL_RESTART = 1 ∧ s.flag Reg.MGT_WDOG_EXPIRED = true)
    (hboots : s.domHolds 37 = true ∧ s.imageBoots s.staged = true) :
    Does (.mgtStwRestart w) s (Restarted s.halfReset · s.staged) := by
  refine Does.of_next (State.mgtStwRestart_takes ht hw) ?_
  rw [if_pos hacts, if_pos hboots]
  exact State.startImage_restarted rfl _ _

/-- With no such image the boot ROM halts with error 6. -/
theorem State.mgtStwRestart_halts {w : WriteReq} (ht : s.takes w Reg.MGT_STW_CTL_RESTART.off = true)
    (hw : coversLo w.half = true) (hacts : w.field Reg.MGT_STW_CTL_RESTART = 1 ∧ s.flag Reg.MGT_WDOG_EXPIRED = true)
    (hboots : ¬ (s.domHolds 37 = true ∧ s.imageBoots s.staged = true)) :
    exec (.mgtStwRestart w) s = .next (((s.halfReset.bootError 6).setRun .halted).answer .ok 0#64) := by
  rw [State.mgtStwRestart_takes ht hw, if_pos hacts, if_neg hboots]

theorem State.halted_regs (s : State) :
    (((s.bootError 6).setRun .halted).answer .ok 0#64).regs = (s.setF Reg.MGT_BOOT_STAT_ERROR 6).regs := by
  rw [State.answer_regs, State.setRun, State.setStw_regs, State.bootError]

/-- The state in which the boot ROM has halted. -/
theorem State.halted_facts (s : State) :
    let t := ((s.halfReset.bootError 6).setRun .halted).answer .ok 0#64
    t.stw.run = .halted ∧ t.getF Reg.MGT_BOOT_STAT_ERROR = 6 ∧ t.getF Reg.MGT_WDOG_EXPIRED = 0 ∧ t.stw.sram = [] ∧
      SameMem s t ∧ SameRegs [Reg.MGT_BOOT_STAT_ERROR, Reg.MGT_WDOG_EXPIRED, Reg.MGT_WDOG_ARMED] s t := by
  have hregs := (s.halfReset_sameRegs.mono (gs := [Reg.MGT_BOOT_STAT_ERROR, Reg.MGT_WDOG_EXPIRED, Reg.MGT_WDOG_ARMED])
    (by simp)).setF (f := Reg.MGT_BOOT_STAT_ERROR) 6 (by simp) (by decide)
  refine ⟨rfl, ?_, ?_, rfl, .of_mem_eq s.halfReset_mem, hregs.of_regs_eq s.halfReset.halted_regs⟩
  · rw [State.answer_getF, State.setRun, State.getF_setStw, State.bootError, State.getF_setF _ _ _ (by decide)]
    rfl
  · rw [State.answer_getF, State.setRun, State.getF_setStw, State.bootError,
      State.getF_setF_ne _ _ _ _ (by decide) (Or.inl (by decide)), s.halfReset_expired]

/-- Settles O51. A servo update corrects the Almanac, which spares the rest, and tells at most one change of lock; what restarted
firmware does spares what the start of the staged image and the device had set. -/
theorem firmwareTimeAndWatchdog : Obligations.FirmwareTimeAndWatchdog := by
  unfold Obligations.FirmwareTimeAndWatchdog
  refine ⟨?following, ?follower, ?silent, ?timeout, ?kick, ?expiry, ?restart⟩
  case following =>
    intro s offset gm hs hf
    obtain ⟨t, hexec, hservo, hlock, hgain, hlose, hkept⟩ := State.gptpServo_does hs hf offset gm
    exact Does.of_next hexec ⟨hservo.offset_eq, hservo.gm_eq, hlock,
      fun h => ⟨(hgain h).1, fun hh _ => (hgain h).2 hh⟩, hlose, hkept, hservo.slews,
      fun hstep h0 h1 hcrystal _ => hservo.steps hstep h0 h1 hcrystal⟩
  case follower =>
    intro s offset gm hs hf
    refine ⟨fun hup => Does.of_next (State.gptpServo_follower hs hf offset gm) ?_, fun hup => ?_⟩
    · rw [if_pos hup]
      exact ⟨rfl, rfl, rfl, fun _ => rfl⟩
    · rw [State.gptpServo_follower hs hf, hup]
      rfl
  case silent =>
    intro s offset gm hs
    rw [exec_gptpServo, exec_gptpSyncTimeout, execGptpServo, execGptpSyncTimeout, hs]
    exact ⟨rfl, rfl⟩
  case timeout =>
    intro s hs
    refine ⟨fun hl => ?_, fun hl => ?_⟩
    · refine Does.of_next (t := s.setLock false 0x82 (leBytes 1 0)) ?_
        ⟨s.setLock_lock _ _ _, s.setLock_locked _ _ _, fun hh => State.setLock_told hh _ _ (by decide)⟩
      rw [exec_gptpSyncTimeout, execGptpSyncTimeout, if_pos hs, if_pos hl]
    · refine Does.of_next (t := s.setStw { s.stw with small := 0 }) ?_ ⟨rfl, rfl⟩
      rw [exec_gptpSyncTimeout, execGptpSyncTimeout, if_pos hs, hl]
      rfl
  case kick =>
    intro s w ht hw
    refine ⟨fun hk => Does.of_next (State.mgtWdogKick_takes ht hw) ?_,
      fun hk => Does.of_next (State.mgtWdogKick_takes ht hw) ?_⟩
    · rw [if_pos hk]
      exact s.kicked_facts _ rfl
    · rw [if_neg (by rw [hk]; decide)]
      rfl
  case expiry =>
    intro s
    exact ⟨fun hdue => Does.of_next (State.wdogExpire_due hdue) (s.expired_facts _), State.wdogExpire_idle⟩
  case restart =>
    intro s w ht hw
    refine ⟨fun hacts hboots => ?_, fun hacts hboots => ?_, fun hacts => ?_⟩
    · obtain ⟨t, hexec, ht⟩ := State.mgtStwRestart_boots ht hw hacts hboots
      have hfar : ∀ g, Standing g → 0x88 < g.off → t.getF g = s.getF g := fun g hg ho =>
        (ht.regs g hg (by simp only [List.mem_cons, List.not_mem_nil, or_false]; omega)).trans (s.halfReset_getF (by omega))
      exact Does.of_next hexec ⟨ht.run,
        (ht.regs _ (Or.inl (by simp)) (by decide)).trans s.halfReset_expired, ht.phase, ht.wmask, ht.param,
        ht.version, ht.svn, ht.sram, ht.load, ht.bgw,
        fun n hn => ⟨hfar _ (Or.inr (Or.inl ⟨n, hn, Or.inl rfl⟩)) (by simp only [Reg.ALM_BM_STAT_STATE]; omega),
          congrArg (· != 0) (hfar _ (Or.inr (Or.inl ⟨n, hn, Or.inr rfl⟩)) (by simp only [Reg.WVL_PIPE_STATE]; omega))⟩,
        fun x hx _ => hfar _ (Or.inr (Or.inr ⟨x, hx, rfl⟩)) (by simp only [Reg.PWR_DOM_STAT_STATE]; omega), ht.now⟩
    · exact Does.of_next (State.mgtStwRestart_halts ht hw hacts hboots) s.halted_facts
    · refine Does.of_next (State.mgtStwRestart_takes ht hw) ?_
      rw [if_neg hacts]
      rfl

end Sys2Proof.Machine
